-- ==== Sys2Proof/Word.lean ====
section
/-! DEFINITION. The plain types of the model: bytes, words, sparse tables and poison sets. -/
namespace Sys2Proof

/-- A byte, the smallest addressable unit (R5). -/
abbrev Byte := BitVec 8

/-- A 32-bit word, the unit of poison marks in core stores and accumulator RAMs (R231). -/
abbrev Word := BitVec 32

/-- A sparse table: keys strictly rising, no entry equal to the default value of the table. -/
abbrev Tab (α : Type) := List (Nat × α)

/-- A memory: byte address and byte; an address that is not listed reads 0 (log entry 4). -/
abbrev Mem := Tab Byte

/-- A set of numbers, strictly rising: poison marks by word or sector number, and slot sets. -/
abbrev PSet := List Nat

end Sys2Proof
end

