-- ==== Sys2Proof/Syntax.lean ====
section
/-! DEFINITION. The commands of the block: one constructor of `Instr` for each row of the opcode table, with the
operands that the row's rule gives it. A command that stands for a hardware event carries what the environment
decides (rows that mismatched, bytes that arrived) as operands, so that a statement about every command is a
statement about every environment (log entry 12). -/
namespace Sys2Proof

/-- The header of one TCD message, its tag and the port it arrived on (R522); the payload is the command's own. -/
structure Msg where
  /-- Ethernet port: 0 ETH0, 1 ETH1, 2 MGT (R519). -/
  port : Fin 3 := 0
  /-- SESSION (R522). -/
  session : Nat := 0
  /-- EPOCH (R522). -/
  epoch : Nat := 0
  /-- SEQ (R522). -/
  seq : Nat := 0
  /-- TFLEET (R522). -/
  tfleet : Nat := 0
  /-- TSLOT; 255 for the receiving device (R522). -/
  tslot : Nat := 255
  /-- TAG, 16 bytes (R523). -/
  tag : List Byte := []
  /-- Hash of the source IP address, as TCD_AUTH_FAIL reports it (R546). -/
  src : BitVec 32 := 0
  deriving DecidableEq, Repr

/-- One gallery packet (R448). -/
structure Packet where
  /-- PTYPE (R448). -/
  ptype : Nat := 0
  /-- CLASS (R448). -/
  cls : Nat := 0
  /-- UPPER (R448). -/
  upper : Bool := false
  /-- ALT (R448). -/
  alt : Bool := false
  /-- HOPS (R448). -/
  hops : Nat := 0
  /-- destination fleet, GPA [55:50] (R448). -/
  fleet : Nat := 0
  /-- destination slot, GPA [49:44] (R448). -/
  slot : Nat := 0
  /-- destination local address, GPA [43:0] (R448). -/
  addr : Nat := 0
  /-- source fleet (R448). -/
  sfleet : Nat := 0
  /-- source slot (R448). -/
  sslot : Nat := 0
  /-- SINC (R448). -/
  sinc : Nat := 0
  /-- DINC (R448). -/
  dinc : Nat := 0
  /-- SEQ (R448). -/
  seq : Nat := 0
  /-- TAG (R448). -/
  tag : Nat := 0
  /-- TTOKEN (R448). -/
  ttoken : Nat := 0
  /-- TCELL (R448). -/
  tcell : Nat := 0
  /-- TLCORE (R448). -/
  tlcore : Nat := 0
  /-- type fields of R312 (R448). -/
  fields : List Nat := []
  /-- payload (R448). -/
  data : List Byte := []
  /-- poisoned payload words (R448). -/
  pois : PSet := []
  deriving DecidableEq, Repr

/-- One sector that has come to be in error (R369, R371): its local byte address, and what its next read from the media gives. -/
structure SectorErr where
  /-- Local address of the 64 B sector. -/
  addr : Nat := 0
  /-- Uncorrectable. -/
  ue : Bool := false
  /-- Bytes that a miscorrection of it gives; none where the sector is corrected. -/
  mis : List Byte := []
  deriving DecidableEq, Repr

/-- What a link receives: on each physical lane its polarity and the 10-bit symbols that arrive, in order (R421, R422). -/
abbrev Lanes := List (Nat × (Bool × List (BitVec 10)))

/-- The claims of a HELLO message (R432). -/
structure Hello where
  /-- Nonce, 32 bytes. -/
  nonce : BitVec 256 := 0
  /-- Claimed fleet. -/
  fleet : Nat := 0
  /-- Claimed slot. -/
  slot : Nat := 0
  /-- Claimed incarnation. -/
  inc : Nat := 0
  /-- Claimed port role. -/
  role : Nat := 0
  deriving DecidableEq, Repr

/-- A store object as read back by the host's store: its snapshot record and its range data (R500, R501). -/
structure StoreObj where
  /-- The snapshot record. -/
  record : List Byte := []
  /-- Range data, one entry a range of the record. -/
  ranges : List (List Byte) := []
  deriving DecidableEq, Repr

/-- Healthy lanes at the end of training: physical receive lanes here, and logical lanes at the partner's receiver (R421, R431). -/
structure LaneSets where
  /-- physical receive lanes here. -/
  own : BitVec 20 := 0
  /-- logical lanes at the partner. -/
  peer : BitVec 20 := 0
  deriving DecidableEq, Repr

/-- Lanes that are no longer healthy (R434). -/
structure LaneLoss where
  /-- physical receive lanes here, or logical lanes that the partner names. -/
  lanes : BitVec 20 := 0
  /-- the partner begins the width change. -/
  peer : Bool := false
  deriving DecidableEq, Repr

/-- What a slot tells as it acknowledges a declaration (R467, R505). -/
structure DeathAck where
  /-- slot that acknowledges. -/
  frm : Fin 64 := 0
  /-- it has completed the commit rendezvous of the step. -/
  commit : Bool := false
  deriving DecidableEq, Repr

/-- EPOCH and SEQ of a message's header (R522). -/
structure MsgNo where
  /-- EPOCH. -/
  epoch : Nat := 0
  /-- SEQ. -/
  seq : Nat := 0
  deriving DecidableEq, Repr

/-- An acknowledgement that a requester receives (R540, R541). -/
structure RoceAck where
  /-- it is a NAK. -/
  nak : Bool := false
  /-- it is marked CE. -/
  ce : Bool := false
  deriving DecidableEq, Repr

/-- One received IEEE 1588 message (R543). -/
structure PtpMsg where
  /-- transport: 0 UDP/IPv4, 1 UDP/IPv6, 2 IEEE 802.3 (R521). -/
  transport : Nat := 0
  /-- domain (R521). -/
  domain : Nat := 0
  /-- 0 Sync of a one-step master, 1 Sync of a two-step master, 2 Follow_Up, 3 Delay_Resp (R543). -/
  kind : Fin 4 := 0
  /-- sequence number: of the Sync, or of the Delay_Req that it answers (R543). -/
  seq : Nat := 0
  deriving DecidableEq, Repr

/-- One received RoCEv2 request packet, or the request it completes (R536, R537). -/
structure RoceReq where
  /-- Destination queue pair: the T48 QPN. -/
  qpn : Nat := 0
  /-- PSN. -/
  psn : Nat := 0
  /-- 0 First, 1 Middle, 2 Last, 3 Only. -/
  part : Nat := 3
  /-- R_Key of the RETH. -/
  rkey : Nat := 0
  /-- VA of the RETH: the byte offset in the window. -/
  va : Nat := 0
  /-- Bytes asked for (READ). -/
  len : Nat := 0
  /-- Data (WRITE). -/
  data : List Byte := []
  /-- The packet is CE-marked. -/
  ce : Bool := false
  /-- An opcode or transport that the responder does not support. -/
  unsupported : Bool := false
  deriving DecidableEq, Repr

/-- Kinds of Ethernet frame other than TCD, RoCEv2, PTP and pause frames (R520). -/
inductive FrameKind where
  | arp | ndp | icmp | icmp6 | tcp | fragment | other
  deriving DecidableEq, Repr

/-- One such frame (R520). -/
structure NbrFrame where
  /-- Kind. -/
  kind : FrameKind := .other
  /-- Length from the destination address to the FCS. -/
  len : Nat := 64
  /-- IEEE 802.1Q tags. -/
  tags : Nat := 0
  deriving DecidableEq, Repr

/-- A sensor that met its trip level for 1 ms (R618, R619). -/
structure TripReading where
  /-- Sensor kind code of RST_TRIP. -/
  kind : Nat := 0
  /-- Sensor number within the kind. -/
  inst : Nat := 0
  /-- Reading in whole degrees C. -/
  temp : Nat := 0
  deriving DecidableEq, Repr

/-- What a survey measures of a core island (R591, R593). -/
structure SurveyResult where
  /-- Ring-oscillator frequency. -/
  ro : Nat := 0
  /-- Margins in per cent: at the plan in force, then after each step of R593. -/
  margins : List Nat := []
  deriving DecidableEq, Repr

/-- A fault of the datapath, which the physics decides: the error that one tree output carries, or one product of an aligned sum
(R211 to R215). -/
structure TreeErr where
  /-- Row of the instruction; for MVP 0 the first computation of the block, 1 the second. -/
  row : Nat := 0
  /-- DPU 0 to 1,023; for MVP the output. -/
  dpu : Nat := 0
  /-- Activation block or cycle of the row; the slot for TSP and SGRAD; the block for MVP. -/
  k : Nat := 0
  /-- The error of the integer. -/
  err : Int := 0
  deriving DecidableEq, Repr

/-- The commands: one constructor for each row of the opcode table, in the table's order. -/
inductive Instr where
  /-- ARM_BEGIN (R46). -/
  | armBegin (m : Msg) (total : Nat)
  /-- ARM_DATA (R47). -/
  | armData (m : Msg) (offset : Nat) (data : List Byte)
  /-- ARM_COMMIT (R48). -/
  | armCommit (m : Msg) (mode : Nat) (cells : BitVec 16) (epoch : BitVec 32)
  /-- ARM_CANCEL (R46). -/
  | armCancel (m : Msg)
  /-- ARM_RECEIVE_TIMEOUT (R47). -/
  | armReceiveTimeout
  /-- ARM_VERIFY_DONE (R49). -/
  | armVerifyDone
  /-- ARM_APPLY_DONE (R52). -/
  | armApplyDone (err : Option (Nat × Nat))
  /-- ARM_PERSIST_DONE (R55). -/
  | armPersistDone
  /-- TICK_DECISION (R251). -/
  | tickDecision (cell : Fin 16) (late : Option (Fin 48))
  /-- SCHED_STALL (R259). -/
  | schedStall (cell : Fin 16)
  /-- INSTR_COMPLETE (R96). -/
  | instrComplete (core : Fin 48) (stream : Fin 6)
  /-- NOP (R308). -/
  | nop (core : Fin 48) (stream : Fin 6) (w : BitVec 128)
  /-- MMA (R284). -/
  | mma (core : Fin 48) (ws : List (BitVec 128))
  /-- CONV (R285). -/
  | conv (core : Fin 48) (ws : List (BitVec 128))
  /-- SMMA (R136). -/
  | smma (core : Fin 48) (ws : List (BitVec 128))
  /-- TSP (R137). -/
  | tsp (core : Fin 48) (ws : List (BitVec 128))
  /-- SGRAD (R140). -/
  | sgrad (core : Fin 48) (ws : List (BitVec 128))
  /-- ARRAY_STREAM_START (R93). -/
  | arrayStreamStart (core : Fin 48) (arr : Fin 4)
  /-- DRAIN (R288). -/
  | drain (core : Fin 48) (w : BitVec 128)
  /-- CAL_RETRY_START (R216). -/
  | calRetryStart (core : Fin 48) (arr : Fin 4) (errs : List TreeErr)
  /-- CAL_RETRY_DONE (R218). -/
  | calRetryDone (core : Fin 48) (arr : Fin 4) (errs : List TreeErr)
  /-- POINT (R226). -/
  | point (core : Fin 48) (w : BitVec 128)
  /-- POINT_REEXEC_DONE (R228). -/
  | pointReexecDone (core : Fin 48) (flips : List (Nat × BitVec 32))
  /-- POINT_THIRD_EXEC_DONE (R229). -/
  | pointThirdExecDone (core : Fin 48) (flips : List (Nat × BitVec 32))
  /-- HEIGHTENED_REEXEC (R230). -/
  | heightenedReexec (cell : Fin 16)
  /-- DROOP_TRIP (R230). -/
  | droopTrip (core : Fin 48) (mhz : BitVec 12)
  /-- MVP (R102). -/
  | mvp (core : Fin 48) (w : BitVec 128) (errs : List TreeErr)
  /-- SPMSP (R177). -/
  | spmsp (core : Fin 48) (w : BitVec 128)
  /-- MERGE (R179). -/
  | merge (core : Fin 48) (w : BitVec 128)
  /-- SORT (R180). -/
  | sort (core : Fin 48) (w : BitVec 128)
  /-- TOPKIDX (R181). -/
  | topkidx (core : Fin 48) (w : BitVec 128)
  /-- PACK (R143). -/
  | pack (core : Fin 48) (w : BitVec 128)
  /-- UNPACK (R147). -/
  | unpack (core : Fin 48) (w : BitVec 128)
  /-- CARVE (R156). -/
  | carve (core : Fin 48) (w : BitVec 128)
  /-- MODEL (R161). -/
  | model (core : Fin 48) (w : BitVec 128)
  /-- MSTAT (R172). -/
  | mstat (core : Fin 48) (w : BitVec 128)
  /-- PLINTH_WRITE_ACK (R152). -/
  | plinthWriteAck (core : Fin 48) (stream : Fin 6)
  /-- HOME_LINE_WRITE (R406). -/
  | homeLineWrite (core : Fin 48) (stream : Fin 6)
  /-- ADD (R193). -/
  | add (core : Fin 48) (w : BitVec 128)
  /-- SUB (R193). -/
  | sub (core : Fin 48) (w : BitVec 128)
  /-- MUL (R193). -/
  | mul (core : Fin 48) (w : BitVec 128)
  /-- FMA (R193). -/
  | fma (core : Fin 48) (w : BitVec 128)
  /-- MIN (R193). -/
  | min (core : Fin 48) (w : BitVec 128)
  /-- MAX (R193). -/
  | max (core : Fin 48) (w : BitVec 128)
  /-- ABS (R193). -/
  | abs (core : Fin 48) (w : BitVec 128)
  /-- NEG (R193). -/
  | neg (core : Fin 48) (w : BitVec 128)
  /-- MOV (R193). -/
  | mov (core : Fin 48) (w : BitVec 128)
  /-- CMPEQ (R193). -/
  | cmpeq (core : Fin 48) (w : BitVec 128)
  /-- CMPLT (R193). -/
  | cmplt (core : Fin 48) (w : BitVec 128)
  /-- CMPLE (R193). -/
  | cmple (core : Fin 48) (w : BitVec 128)
  /-- SEL (R193). -/
  | sel (core : Fin 48) (w : BitVec 128)
  /-- EXP2 (R200). -/
  | exp2 (core : Fin 48) (w : BitVec 128)
  /-- LOG2 (R200). -/
  | log2 (core : Fin 48) (w : BitVec 128)
  /-- RCP (R200). -/
  | rcp (core : Fin 48) (w : BitVec 128)
  /-- RSQRT (R200). -/
  | rsqrt (core : Fin 48) (w : BitVec 128)
  /-- TANH (R200). -/
  | tanh (core : Fin 48) (w : BitVec 128)
  /-- ERF (R200). -/
  | erf (core : Fin 48) (w : BitVec 128)
  /-- SIGM (R200). -/
  | sigm (core : Fin 48) (w : BitVec 128)
  /-- SILU (R200). -/
  | silu (core : Fin 48) (w : BitVec 128)
  /-- GELU (R200). -/
  | gelu (core : Fin 48) (w : BitVec 128)
  /-- RROW (R196). -/
  | rrow (core : Fin 48) (w : BitVec 128)
  /-- RCOL (R196). -/
  | rcol (core : Fin 48) (w : BitVec 128)
  /-- MASKGEN (R201). -/
  | maskgen (core : Fin 48) (w : BitVec 128)
  /-- CVT (R298). -/
  | cvt (core : Fin 48) (w : BitVec 128)
  /-- SR (R194). -/
  | sr (core : Fin 48) (w : BitVec 128)
  /-- SMAX (R203). -/
  | smax (core : Fin 48) (w : BitVec 128)
  /-- OINIT (R206). -/
  | oinit (core : Fin 48) (w : BitVec 128)
  /-- OMAX (R206). -/
  | omax (core : Fin 48) (w : BitVec 128)
  /-- OSUM (R206). -/
  | osum (core : Fin 48) (w : BitVec 128)
  /-- OFIN (R206). -/
  | ofin (core : Fin 48) (w : BitVec 128)
  /-- UPDATE (R301). -/
  | update (core : Fin 48) (w : BitVec 128)
  /-- GNORM_SQ (R305). -/
  | gnormSq (core : Fin 48) (w : BitVec 128)
  /-- GNORM_FIN (R305). -/
  | gnormFin (core : Fin 48) (w : BitVec 128)
  /-- GNORM_CLR (R305). -/
  | gnormClr (core : Fin 48) (w : BitVec 128)
  /-- DMA (R314). -/
  | dma (core : Fin 48) (w : BitVec 128) (errs : List SectorErr)
  /-- COPY (R315). -/
  | copy (core : Fin 48) (w : BitVec 128)
  /-- XPOSE (R316). -/
  | xpose (core : Fin 48) (w : BitVec 128)
  /-- PERMUTE (R316). -/
  | permute (core : Fin 48) (w : BitVec 128) (errs : List SectorErr)
  /-- GATHER (R317). -/
  | gather (core : Fin 48) (w : BitVec 128) (errs : List SectorErr)
  /-- SCATTER (R317). -/
  | scatter (core : Fin 48) (w : BitVec 128) (errs : List SectorErr)
  /-- DMA_COMPLETE (R332). -/
  | dmaComplete (core : Fin 48) (ord : Nat)
  /-- RPUT (R318). -/
  | rput (core : Fin 48) (w : BitVec 128)
  /-- RGET (R318). -/
  | rget (core : Fin 48) (w : BitVec 128)
  /-- RATOM (R319). -/
  | ratom (core : Fin 48) (w : BitVec 128)
  /-- RADD (R320). -/
  | radd (core : Fin 48) (w : BitVec 128)
  /-- XCH (R321). -/
  | xch (core : Fin 48) (w : BitVec 128)
  /-- SEAL (R326). -/
  | sealOp (core : Fin 48) (w : BitVec 128) (errs : List SectorErr)
  /-- WAIT (R322). -/
  | wait (core : Fin 48) (w : BitVec 128)
  /-- SIGNAL (R323). -/
  | signal (core : Fin 48) (w : BitVec 128)
  /-- RDV (R324). -/
  | rdv (core : Fin 48) (w : BitVec 128)
  /-- TICKMARK (R325). -/
  | tickmark (core : Fin 48) (w : BitVec 128)
  /-- STEP_END_ARRIVE_READY (R462). -/
  | stepEndArriveReady
  /-- PACKET_FORWARD (R450). -/
  | packetForward (port : Option (Fin 8)) (pk : Packet)
  /-- PUT_RECEIVE (R354). -/
  | putReceive (port : Option (Fin 8)) (pk : Packet)
  /-- GETREQ_RECEIVE (R318). -/
  | getreqReceive (port : Option (Fin 8)) (pk : Packet) (errs : List SectorErr)
  /-- ATOM_RECEIVE (R319). -/
  | atomReceive (port : Option (Fin 8)) (pk : Packet)
  /-- ADDS_RECEIVE (R458). -/
  | addsReceive (port : Option (Fin 8)) (pk : Packet)
  /-- ADDA_RECEIVE (R320). -/
  | addaReceive (port : Option (Fin 8)) (pk : Packet)
  /-- SIGNAL_RECEIVE (R323). -/
  | signalReceive (port : Option (Fin 8)) (pk : Packet)
  /-- XCNT_RECEIVE (R321). -/
  | xcntReceive (port : Option (Fin 8)) (pk : Packet)
  /-- XBASE_RECEIVE (R321). -/
  | xbaseReceive (port : Option (Fin 8)) (pk : Packet)
  /-- NORM_RECEIVE (R402). -/
  | normReceive (port : Option (Fin 8)) (pk : Packet)
  /-- GNORM_TIMEOUT (R403). -/
  | gnormTimeout
  /-- SEALX_RECEIVE (R235). -/
  | sealxReceive (port : Option (Fin 8)) (pk : Packet)
  /-- ACK_RECEIVE (R454). -/
  | ackReceive (port : Option (Fin 8)) (pk : Packet)
  /-- NAK_RECEIVE (R454). -/
  | nakReceive (port : Option (Fin 8)) (pk : Packet)
  /-- BUSY_RECEIVE (R454). -/
  | busyReceive (port : Option (Fin 8)) (pk : Packet)
  /-- BUSY_RETRY_TIMER (R454). -/
  | busyRetryTimer (flow : Nat)
  /-- ERR_RECEIVE (R460). -/
  | errReceive (port : Option (Fin 8)) (pk : Packet)
  /-- GETDATA_RECEIVE (R318). -/
  | getdataReceive (port : Option (Fin 8)) (pk : Packet)
  /-- ATOMDATA_RECEIVE (R318). -/
  | atomdataReceive (port : Option (Fin 8)) (pk : Packet)
  /-- E2E_TIMEOUT (R454). -/
  | e2eTimeout (flow : Nat)
  /-- HB_TIMER (R465). -/
  | hbTimer
  /-- LIVE_SET_CHECK (R466). -/
  | liveSetCheck
  /-- HB_RECEIVE (R465). -/
  | hbReceive (port : Option (Fin 8)) (pk : Packet)
  /-- HEADBEAT_RECEIVE (R468). -/
  | headbeatReceive (port : Option (Fin 8)) (pk : Packet)
  /-- HEADBEAT_TIMEOUT (R468). -/
  | headbeatTimeout (us : Nat)
  /-- DEPUTY_TAKEOVER_TIMER (R468). -/
  | deputyTakeoverTimer
  /-- HEADLESS_FENCE_TIMER (R468). -/
  | headlessFenceTimer
  /-- ARRIVE_RECEIVE (R462). -/
  | arriveReceive (port : Option (Fin 8)) (pk : Packet)
  /-- RELEASE_RECEIVE (R258). -/
  | releaseReceive (port : Option (Fin 8)) (pk : Packet)
  /-- RDVNAK_RECEIVE (R462). -/
  | rdvnakReceive (port : Option (Fin 8)) (pk : Packet)
  /-- RDV_TIMEOUT (R463). -/
  | rdvTimeout (name : Nat)
  /-- DEATH_RECEIVE (R467). -/
  | deathReceive (port : Option (Fin 8)) (pk : Packet)
  /-- DEATH_ACK_RECEIVE (R505). -/
  | deathAckReceive (slot : Fin 64) (a : DeathAck)
  /-- FENCE_RECEIVE (R457). -/
  | fenceReceive (port : Option (Fin 8)) (pk : Packet)
  /-- ROUTESET_RECEIVE (R453). -/
  | routesetReceive (port : Option (Fin 8)) (pk : Packet)
  /-- TCDF_RECEIVE (R532). -/
  | tcdfReceive (port : Option (Fin 8)) (pk : Packet)
  /-- EXPREC_RECEIVE (R414). -/
  | exprecReceive (port : Option (Fin 8)) (pk : Packet)
  /-- RESEND_RECEIVE (R415). -/
  | resendReceive (port : Option (Fin 8)) (pk : Packet)
  /-- MIRROR_RESEND_REQUEST (R415). -/
  | mirrorResendRequest (mirror : Nat)
  /-- EXPORT_SEND (R411). -/
  | exportSend
  /-- EXP_DROP_RECORD (R412). -/
  | expDropRecord
  /-- EXP_PAUSE (R411). -/
  | expPause (on : Bool)
  /-- PATROL_TIMER (R371). -/
  | patrolTimer (pl : Fin 20) (found : List SectorErr)
  /-- PLC_FLUSH (R378). -/
  | plcFlush (pl : Fin 20)
  /-- PLC_SCRUB (R371). -/
  | plcScrub (pl : Fin 20) (found : List SectorErr)
  /-- ROW_REPAIR (R372). -/
  | rowRepair (pl : Fin 20) (chan bank row : Nat)
  /-- FRAME_RETIRE (R373). -/
  | frameRetire (pl : Fin 20) (frame : Nat)
  /-- NOALLOC_LINE_RELEASE (R375). -/
  | noallocLineRelease (pl : Fin 20) (line : Nat)
  /-- REGULATOR_SERVE (R380). -/
  | regulatorServe (pl : Fin 20)
  /-- XL_INVAL (R386). -/
  | xlInval (core : Fin 48)
  /-- CODEWORD_RECEIVE (R426). -/
  | codewordReceive (port : Fin 8) (lanes : Lanes)
  /-- REPLAY_TIMEOUT (R427). -/
  | replayTimeout (port : Fin 8)
  /-- LNK_TRAIN_ATTEMPT (R430). -/
  | lnkTrainAttempt (port : Fin 8)
  /-- TRAINING_STEP_TIMEOUT (R431). -/
  | trainingStepTimeout (port : Fin 8)
  /-- TRAINING_DONE (R431). -/
  | trainingDone (port : Fin 8) (healthy : LaneSets) (eyes : List (Nat × Nat))
  /-- LINK_HELLO (R432). -/
  | linkHello (port : Fin 8) (h : Hello)
  /-- LINK_CERT (R432). -/
  | linkCert (port : Fin 8) (cert chain : List Byte)
  /-- LINK_SIGN (R433). -/
  | linkSign (port : Fin 8) (sig : List Byte)
  /-- AUTH_TIMEOUT (R433). -/
  | authTimeout (port : Fin 8)
  /-- LANE_UNHEALTHY (R434). -/
  | laneUnhealthy (port : Fin 8) (l : LaneLoss)
  /-- RETRAIN_DONE (R434). -/
  | retrainDone (port : Fin 8)
  /-- RETRAIN_TIMEOUT (R434). -/
  | retrainTimeout (port : Fin 8)
  /-- CREDIT_TIMEOUT (R435). -/
  | creditTimeout (port : Fin 8) (vc : Fin 4)
  /-- LNK_RETRAIN (R441). -/
  | lnkRetrain (port : Fin 8)
  /-- LNK_DRAIN (R438). -/
  | lnkDrain (port : Fin 8)
  /-- LNK_DRAIN_END (R438). -/
  | lnkDrainEnd (port : Fin 8)
  /-- LNK_UNQUAR (R436). -/
  | lnkUnquar (port : Fin 8)
  /-- LNK_QUAR (R436). -/
  | lnkQuar (port : Fin 8)
  /-- BYE_RECEIVE (R438). -/
  | byeReceive (port : Fin 8)
  /-- FLT_BUDGET_EXPIRY (R474). -/
  | fltBudgetExpiry (cell : Fin 16)
  /-- FLT_RETRY (R474). -/
  | fltRetry (cell : Fin 16) (us : Nat)
  /-- FLT_GIVEUP (R474). -/
  | fltGiveup (cell : Fin 16)
  /-- CTX_PREEMPT (R476). -/
  | ctxPreempt (cell : Fin 16)
  /-- CELL_PREEMPT (R476). -/
  | cellPreempt (m : Msg) (cell : Nat)
  /-- PREEMPT_SAVE_DONE (R476). -/
  | preemptSaveDone (cell : Fin 16) (bad : Bool) (us : Nat)
  /-- CTX_RESUME (R485). -/
  | ctxResume (cell : Fin 16)
  /-- CELL_RESUME (R485). -/
  | cellResume (m : Msg) (cell : Nat)
  /-- RESUME_DONE (R486). -/
  | resumeDone (cell : Fin 16)
  /-- SNAP_CAPTURE_DONE (R498). -/
  | snapCaptureDone (us : Nat)
  /-- SNAP_FLASH_DRAIN_DONE (R499). -/
  | snapFlashDrainDone (ok : Bool)
  /-- SNAP_STORE_DRAIN_DONE (R499). -/
  | snapStoreDrainDone (ok : Bool)
  /-- SNAP_UPLOAD_DONE (R500). -/
  | snapUploadDone
  /-- SNP_TAKE (R498). -/
  | snpTake
  /-- SNP_ABORTUP (R500). -/
  | snpAbortup
  /-- RESTORE (R501). -/
  | restore (m : Msg) (source gen : Nat) (step : BitVec 64)
  /-- RESTORE_COMPLETE (R503). -/
  | restoreComplete (obj : Option StoreObj)
  /-- SLOT_ASSIGN (R507). -/
  | slotAssign (m : Msg) (slot : Nat) (hash : List Byte)
  /-- FILL_ATTACH_DONE (R507). -/
  | fillAttachDone (slot : Fin 64)
  /-- FILL_COPY_DONE (R509). -/
  | fillCopyDone (slot : Fin 64) (stale : Bool)
  /-- FLEET_RESUME (R531). -/
  | fleetResume (m : Msg) (all : Bool)
  /-- SESSION_OPEN (R524). -/
  | sessionOpen (port : Fin 3) (no : MsgNo) (cert nonce : List Byte)
  /-- SESSION_CONFIRM (R524). -/
  | sessionConfirm (m : Msg)
  /-- SESSION_CONFIRM_TIMEOUT (R524). -/
  | sessionConfirmTimeout (id : Nat)
  /-- SESSION_CLOSE (R526). -/
  | sessionClose (m : Msg)
  /-- SESSION_IDLE_TIMEOUT (R526). -/
  | sessionIdleTimeout (id : Nat)
  /-- REKEY (R528). -/
  | rekey (m : Msg)
  /-- KEEPALIVE (R531). -/
  | keepalive (m : Msg)
  /-- EVT_SUBSCRIBE (R530). -/
  | evtSubscribe (m : Msg) (sev : Nat)
  /-- NOTIFY_ACK (R530). -/
  | notifyAck (m : Msg) (ack : BitVec 32)
  /-- NOTIFY_RESEND_TIMER (R530). -/
  | notifyResendTimer (id : Nat)
  /-- CSR_READ (R531). -/
  | csrRead (m : Msg) (addr count : Nat)
  /-- CSR_WRITE (R531). -/
  | csrWrite (m : Msg) (addr : Nat) (words : List (BitVec 64))
  /-- EVT_READ (R578). -/
  | evtRead (m : Msg) (first count : Nat)
  /-- STATUS (R531). -/
  | status (m : Msg)
  /-- CELL_RESET (R531). -/
  | cellReset (m : Msg) (cell : Nat)
  /-- TOKEN_POST (R249). -/
  | tokenPost (m : Msg) (cell lcore token count : Nat)
  /-- QP_OPEN (R537). -/
  | qpOpen (m : Msg) (port hqpn hpsn pmtu : Nat) (gid : List Byte)
  /-- QP_CLOSE (R531). -/
  | qpClose (m : Msg) (qpn : Nat)
  /-- STORE_QP (R531). -/
  | storeQp (m : Msg) (target rqpn rpsn : Nat)
  /-- WARM_RESET (R552). -/
  | warmReset (m : Msg)
  /-- MODULE_RESET (R547). -/
  | moduleReset (m : Msg)
  /-- ATTEST (R588). -/
  | attest (m : Msg) (nonce : List Byte)
  /-- RDMA_WRITE_RECEIVE (R538). -/
  | rdmaWriteReceive (port : Fin 2) (q : RoceReq)
  /-- RDMA_READ_REQUEST (R539). -/
  | rdmaReadRequest (port : Fin 2) (q : RoceReq)
  /-- ROCE_ACK_RECEIVE (R540). -/
  | roceAckReceive (qpn psn : Nat) (a : RoceAck)
  /-- ROCE_RETRY_TIMEOUT (R540). -/
  | roceRetryTimeout (qpn : Nat)
  /-- CNP_RECEIVE (R541). -/
  | cnpReceive (qpn : Nat)
  /-- RATE_RESTORE_TIMER (R541). -/
  | rateRestoreTimer (qpn : Nat)
  /-- PAUSE_FRAME_RECEIVE (R541). -/
  | pauseFrameReceive (port : Fin 2) (prios : BitVec 8)
  /-- NEIGHBOUR_FRAME (R520). -/
  | neighbourFrame (port : Fin 3) (f : NbrFrame)
  /-- ETH_LINK (R519). -/
  | ethLink (port : Fin 3) (up : Bool) (mode : Nat)
  /-- PTP_MESSAGE_RECEIVE (R543). -/
  | ptpMessageReceive (port : Fin 3) (m : PtpMsg) (time : BitVec 63)
  /-- PTP_MASTER_LOSS (R544). -/
  | ptpMasterLoss
  /-- AON_POWER_UP (R547). -/
  | aonPowerUp
  /-- EN_ASSERT (R564). -/
  | enAssert
  /-- MRST_ASSERT (R547). -/
  | mrstAssert (us : Nat)
  /-- WATCHDOG_EXPIRY (R573). -/
  | watchdogExpiry
  /-- SRAM_UE (R573). -/
  | sramUe
  /-- THERMAL_TRIP (R618). -/
  | thermalTrip (readings : List TripReading)
  /-- BOOT_TIMEOUT (R558). -/
  | bootTimeout
  /-- OVER_VOLTAGE (R560). -/
  | overVoltage
  /-- RESET_STAGE_DONE (R550). -/
  | resetStageDone (extRef : Bool) (fail : Option Nat)
  /-- RESET_STAGE_TIMEOUT (R551). -/
  | resetStageTimeout (cause : Nat)
  /-- BLOCK_RESET_REQUEST (R554). -/
  | blockResetRequest (block : BitVec 8)
  /-- BLOCK_QUIESCE_END (R554). -/
  | blockQuiesceEnd (block : BitVec 8) (idle : Bool) (outstanding : Nat)
  /-- SUPPLY_WARNING (R561). -/
  | supplyWarning (vin : BitVec 16)
  /-- VIN_BELOW_RECOVERY (R562). -/
  | vinBelowRecovery (vin : BitVec 16)
  /-- SUPPLY_RECOVERY_TIMER (R562). -/
  | supplyRecoveryTimer (us : Nat)
  /-- SUPPLY_RESET_LEVEL (R563). -/
  | supplyResetLevel
  /-- AON_LEVEL_LOSS (R557). -/
  | aonLevelLoss
  /-- PRESENCE_DETECT (R564). -/
  | presenceDetect
  /-- PWRGD_TIMEOUT (R564). -/
  | pwrgdTimeout
  /-- EN_DEASSERT (R565). -/
  | enDeassert
  /-- REMOVAL_PHASE_DONE (R565). -/
  | removalPhaseDone (ms : Nat)
  /-- REMOVAL_FLUSH_TIMEOUT (R565). -/
  | removalFlushTimeout
  /-- SURPRISE_REMOVAL (R566). -/
  | surpriseRemoval
  /-- IDLE_ENTRY (R568). -/
  | idleEntry
  /-- PWR_TARGET (R568). -/
  | pwrTarget (on : Bool)
  /-- STANDBY_ENTERED (R568). -/
  | standbyEntered
  /-- PWR_VMINCLR (R570). -/
  | pwrVminclr
  /-- REFCLK_FAIL (R622). -/
  | refclkFail
  /-- CORE_OVERTEMP (R576). -/
  | coreOvertemp (core : Fin 48) (temp : Int)
  /-- CORE_COOLDOWN (R576). -/
  | coreCooldown (core : Fin 48) (temp : Int)
  /-- THROTTLE_STEP (R576). -/
  | throttleStep
  /-- HBM_REFRESH_BOOST (R576). -/
  | hbmRefreshBoost (pl : Fin 20)
  /-- HBM_HOT_START (R576). -/
  | hbmHotStart (pl : Fin 20) (temp : Int)
  /-- POWER_OVER_LIMIT (R576). -/
  | powerOverLimit (watts : Nat)
  /-- COOLANT_ALARM (R576). -/
  | coolantAlarm (inlet : Int) (flow : Nat)
  /-- EVT_LOG_COPY_TIMER (R578). -/
  | evtLogCopyTimer
  /-- SUPPRESSION_WINDOW_CLOSE (R579). -/
  | suppressionWindowClose (code : BitVec 16) (kind inst : Nat)
  /-- PATINA_WRITE_TIMER (R597). -/
  | patinaWriteTimer
  /-- FW_BEGIN (R582). -/
  | fwBegin
  /-- FW_VERIFY (R582). -/
  | fwVerify
  /-- FW_INSTALL (R582). -/
  | fwInstall
  /-- FW_INSTALL_DONE (R582). -/
  | fwInstallDone (ok : Bool)
  /-- OWN_COMMIT (R587). -/
  | ownCommit
  /-- SURVEY_DUE (R592). -/
  | surveyDue
  /-- SURVEY_START (R592). -/
  | surveyStart
  /-- SURVEY_ABORT_CMD (R600). -/
  | surveyAbortCmd
  /-- SURVEY_ISLAND_DONE (R593). -/
  | surveyIslandDone (core : Fin 48) (r : SurveyResult)
  /-- SURVEY_OVERDUE (R592). -/
  | surveyOverdue (island : Nat) (days : Nat)
  /-- CAL_SUSPECT_CLEAR (R609). -/
  | calSuspectClear (mask : BitVec 48)
  /-- TRLP_HELLO (R584). -/
  | trlpHello (seq : BitVec 32)
  /-- TRLP_LOAD (R584). -/
  | trlpLoad (seq : BitVec 32) (offset : Nat) (data : List Byte)
  /-- TRLP_COMMIT (R584). -/
  | trlpCommit (seq : BitVec 32)
  /-- TRLP_OWNER (R584). -/
  | trlpOwner (seq : BitVec 32) (hash : List Byte)
  /-- TRLP_REBOOT (R584). -/
  | trlpReboot (seq : BitVec 32)
  /-- REGISTER_WRITE (R7). -/
  | registerWrite (host : Bool) (addr : Nat) (value : BitVec 64)
  /-- DROOP_RESPONSE_END (R21). -/
  | droopResponseEnd (core : Fin 48)
  /-- HBM_HOT_END (R576). -/
  | hbmHotEnd (pl : Fin 20) (temp : Int)
  /-- HBM_REFRESH_NORMAL (R576). -/
  | hbmRefreshNormal (pl : Fin 20)
  /-- POWER_THROTTLE_END (R576). -/
  | powerThrottleEnd (watts : Nat)
  /-- THERMAL_TRIP_RAIL_RESTORE (R618). -/
  | thermalTripRailRestore
  /-- OVER_VOLTAGE_CLEAR (R560). -/
  | overVoltageClear
  /-- EN_HOLDOFF_EXPIRY (R564). -/
  | enHoldoffExpiry
  /-- EN_REINSERT_DELAY (R567). -/
  | enReinsertDelay
  /-- LINK_LOCAL_FALLBACK (R584). -/
  | linkLocalFallback
  deriving DecidableEq, Repr

end Sys2Proof
end

