-- ==== Sys2Proof/Decode.lean ====
section
/-! DEFINITION. The table-word decoder. No row of the opcode table gives bits: the commands reach the block as
datagrams, packets, register accesses and events, so no word spells a command. -/
namespace Sys2Proof

/-- The command that a table word spells: none, since no row has bits. -/
def decodeTableWord (_nbits _w : Nat) : Option Instr := none

end Sys2Proof
end

