-- ==== Sys2Proof/Config.lean ====
section
/-! DEFINITION. What the specification leaves open: free values, each an opaque constant that no proof can see
into, applied to the operands it depends on or to the counter of values drawn so far (log entry 5). -/
namespace Sys2Proof.Config
open Sys2Proof

/-- Nanoseconds from the newest step of the PTP clock to the n-th draw (R544; log entry 7). -/
opaque clockNs : Nat → BitVec 63

/-- The n-th random 32-byte value: session secrets, nonces (R432, R524; log entry 5). -/
opaque random : Nat → BitVec 256

/-- The n-th value drawn by the on-chip random generator of POINT and heightened pointing, or of what the specification leaves open (R226, R230;
log entry 5). -/
opaque draw : Nat → Nat

/-- A special-function result, inside the bound of R200: function code and operand bits (log entry 6). -/
opaque sfu : Nat → BitVec 32 → BitVec 32

/-- Modulus and exponent of an RSA-3072 public key, from what the device knows it by: its DER form, the hash of that, or the number of a
key in ROM (R35, R432, R581; log entry 9). -/
opaque rsaKey : List Byte → Nat × Nat

/-- Signature made with the device identity key over a message (R35, R432, R524, R588; log entry 9). -/
opaque pssSign : List Byte → List Byte

/-- RSAES-OAEP encryption of a secret under a public key (R524; log entry 9). -/
opaque oaep : List Byte → List Byte → List Byte

/-- Whether a certificate chain verifies to the manufacturing CA key in ROM (R433; log entry 9). -/
opaque chainValid : List Byte → Bool

/-- The Tartilom keys in ROM: 0 the firmware key (R581), 1 the compiler key (R35; log entry 9). -/
opaque romKey : Nat → List Byte

/-- SHA-256 of the ROM (R588; log entry 9). -/
opaque romHash : List Byte

/-- Bytes that the specification names and gives no value for, by a number of the model (log entry 13). -/
opaque openByte : Nat → Nat → Byte

/-- The partner slot that the FLEETID of another slot of the fleet names: fleet and slot; the head that decides a recovery
is given no place to read it from (R446, R505; log entry 30). -/
opaque partnerOf : Nat → Nat → Nat

/-- The first of the three consecutive MAC addresses of an identity record, whose layout the specification does not give (R521, R585; log
entry 64). -/
opaque identMac : List Byte → Nat

/-- The IPv4 address that DHCP gives a port (R521; log entry 64). -/
opaque dhcpAddr : Nat → List Byte

/-- The public key in DER form that a device or host certificate carries, of which the specification fixes no format (R432, R524; log
entry 9). -/
opaque certKey : List Byte → List Byte

/-- What a symbol reads as where the polarity of its lane is taken the wrong way: the specification does not give the mapping of symbols
to PAM4 levels (R421; log entry 19). -/
opaque flipped : BitVec 10 → BitVec 10

/-- This device's certificate and the chain to the manufacturing CA, as the CERT message carries them (R432; log entry 67). -/
opaque devCert : List Byte

/-- VCBUF of a partner's channel above its smallest value, for each time that a link goes up (R428; log entry 19). -/
opaque peerExtra : Nat → Nat → Nat

/-- VCBUF of a partner's channel: within 1,024 to 21,504 flits (R428, R440). -/
def peerVcbuf (k v : Nat) : Nat := 1024 + peerExtra k v % 20481

/-- What the SECDED code of the export FIFO finds in a word, by the number of the record's reading and the word: 1 a corrected single-bit
error, 2 a double-bit error, any other value none (R410; log entry 25). -/
opaque fifoEcc : Nat → Nat → Nat

/-- The channel, bank and row of a stack that hold a stack address, which the specification does not lay out (R372; log entry 10). -/
opaque rowOf : Nat → Nat × (Nat × Nat)

/-- Spare rows of one bank of a stack after the first, for which the specification gives no number (R372, R373; log entry 10). -/
opaque moreSpareRows : Nat

/-- Spare rows of one bank of a stack: at least one, since a repair copies the row into a spare row (R372). -/
def spareRows : Nat := moreSpareRows + 1

/-- What the word at an offset of the retained-memory window is a byte of: below 61,440 a byte of the retained event records, 61,440 the
boot count, 61,441 LASTFAIL, any other a byte that the firmware keeps there itself; the specification does not lay the window out
(R557, R578, R605; log entry 13). -/
opaque rmemPlace : Nat → Nat

/-- A byte of a section of the Patina, from what the section holds: section in the order of R608, contents, offset. The specification
gives the sections their contents and places and no fields within them (R597, R608; log entry 13). -/
opaque patinaByte : Nat → List Nat → Nat → Byte

/-- Nanoseconds of the month in which the Patina's projection counts, which the specification does not give (R598; log entry
37). -/
opaque monthNs : Nat

/-- Whether a tick length that is no whole number of picoseconds is reported rounded up: clock in MHz (R606; log entry 38). -/
opaque tickUp : Nat → Bool

/-- The number that a field of an event gives to an alternative which the specification names and does not number, by a number of the model
(log entry 28): 0 OBSERVER and 1 OWNER; 2 opened, 3 closed by SESSION_CLOSE, 4 by the idle timeout, 5 by a reset, 6 by a change of owner; 7 the
host as poster of a token, 8 as writer of a register; 9 and 20 management in place of a source slot and incarnation; 10 a P and 11 an M reset;
12 BOOT_SRC and 13 CLK_MODE; 14 a cell that runs, 15 a thermal event, 16 a supply warning; 17 no window; 18 the oldest index of an empty log; 19
the stream code of a fault of no stream; 32 + u a boot stage's failing unit u; 64 + v the v-th protocol violation in the order that the chapter
on links lists them. -/
opaque code : Nat → Nat

end Sys2Proof.Config
end

