-- ==== Sys2Proof/Machine/Bytes.lean ====
section
/-! DEFINITION. Operations over sparse tables, memories, sets of numbers, and byte strings and bits (R4, R5). -/
namespace Sys2Proof.Machine
open Sys2Proof

/-! Sparse tables. -/

/-- The value a table holds at a key; the default where it lists none. -/
def tabGet {α : Type} (d : α) : Tab α → Nat → α
  | [], _ => d
  | e :: r, k => if e.1 = k then e.2 else tabGet d r k

/-- The table without the entries of a key. -/
def tabDel {α : Type} (t : Tab α) (k : Nat) : Tab α := t.filter (fun e => decide (e.1 ≠ k))

/-- The table with an entry put before the first larger key. -/
def tabIns {α : Type} : Tab α → Nat → α → Tab α
  | [], k, v => [(k, v)]
  | e :: r, k, v => if k < e.1 then (k, v) :: e :: r else e :: tabIns r k v

/-- The table with one key set: the default value is never listed. -/
def tabSet {α : Type} [DecidableEq α] (d : α) (t : Tab α) (k : Nat) (v : α) : Tab α :=
  if v = d then tabDel t k else tabIns (tabDel t k) k v

/-- The table with one value changed. -/
def tabMod {α : Type} [DecidableEq α] (d : α) (t : Tab α) (k : Nat) (f : α → α) : Tab α :=
  tabSet d t k (f (tabGet d t k))

/-- The canonical form: keys strictly rising, no entry equal to the default. -/
def tabWf {α : Type} [DecidableEq α] (d : α) (t : Tab α) : Bool :=
  decide ((t.map Prod.fst).Pairwise (· < ·)) && t.all (fun e => decide (e.2 ≠ d))

/-! Memories. -/

/-- One byte. -/
def memGet (m : Mem) (a : Nat) : Byte := tabGet 0 m a

/-- `n` bytes from an address on. -/
def memRead (m : Mem) (a n : Nat) : List Byte := (List.range n).map (fun i => memGet m (a + i))

/-- Bytes written from an address on. -/
def memWrite (m : Mem) (a : Nat) : List Byte → Mem
  | [] => m
  | b :: r => memWrite (tabSet 0 m a b) (a + 1) r

/-- The canonical form of a memory. -/
abbrev memWf (m : Mem) : Bool := tabWf 0 m

/-! Sets of numbers. -/

/-- Membership. -/
def psHas (p : PSet) (k : Nat) : Bool := p.contains k

/-- The set without a number. -/
def psDel (p : PSet) (k : Nat) : PSet := p.filter (fun x => decide (x ≠ k))

/-- A number put in its place in a strictly rising list that does not hold it. -/
def psIns : PSet → Nat → PSet
  | [], k => [k]
  | x :: r, k => if k < x then k :: x :: r else x :: psIns r k

/-- The set with a number. -/
def psAdd (p : PSet) (k : Nat) : PSet := psIns (psDel p k) k

/-- The set with a number put in or taken out. -/
def psPut (p : PSet) (k : Nat) (b : Bool) : PSet := if b then psAdd p k else psDel p k

/-- The set with `n` numbers from `k` on put in or taken out. -/
def psPutRange (p : PSet) (k n : Nat) (b : Bool) : PSet :=
  (List.range n).foldl (fun q i => psPut q (k + i) b) p

/-- Some number of a range of `n` from `k` on is in the set. -/
def psAny (p : PSet) (k n : Nat) : Bool := p.any (fun x => decide (k ≤ x ∧ x < k + n))

/-- The strictly rising form. -/
def psWf (p : PSet) : Bool := decide (p.Pairwise (· < ·))

/-! Bytes and bits (R4, R5: little-endian at byte and bit level). -/

/-- A little-endian number. -/
def leNat : List Byte → Nat
  | [] => 0
  | b :: r => b.toNat + 256 * leNat r

/-- `n` little-endian bytes of a number. -/
def leBytes : Nat → Nat → List Byte
  | 0, _ => []
  | n + 1, v => BitVec.ofNat 8 v :: leBytes n (v / 256)

/-- `n` bytes of a byte string from an offset on, zero past its end. -/
def bsub (b : List Byte) (off n : Nat) : List Byte := (List.range n).map (fun i => b.getD (off + i) 0)

/-- The number in `n` bytes from an offset on. -/
def bfld (b : List Byte) (off n : Nat) : Nat := leNat (bsub b off n)

/-- Byte a as a number. -/
def byteAt (b : List Byte) (a : Nat) : Nat := (b.getD a 0).toNat

/-- Byte string with bytes put at an offset. -/
def bput (b : List Byte) (off : Nat) (v : List Byte) : List Byte :=
  b.take off ++ v ++ b.drop (off + v.length)

/-- Bits [hi:lo] of a number (R4). -/
def bits (v hi lo : Nat) : Nat := v / 2 ^ lo % 2 ^ (hi + 1 - lo)

/-- Bit `i` of a number. -/
def bit (v i : Nat) : Bool := decide (v / 2 ^ i % 2 = 1)

/-- A Bool as a bit. -/
def b2n (b : Bool) : Nat := if b then 1 else 0

/-- The two's complement of an integer in `w` bits. -/
def sNat (w : Nat) (i : Int) : Nat := (i % (2 ^ w : Int)).toNat

/-- The signed reading of a number of `w` bits. -/
def sInt (w : Nat) (n : Nat) : Int :=
  if n % 2 ^ w < 2 ^ (w - 1) then (n % 2 ^ w : Nat) else (n % 2 ^ w : Nat) - (2 ^ w : Int)

/-- A saturating count: a bit vector plus a number, held at all ones. -/
def satAdd {w : Nat} (x : BitVec w) (n : Nat) : BitVec w :=
  if x.toNat + n < 2 ^ w then BitVec.ofNat w (x.toNat + n) else BitVec.ofNat w (2 ^ w - 1)

/-- Smallest multiple of `m` that is at least `x`. -/
def alignUp (x m : Nat) : Nat := (x + m - 1) / m * m

/-- Quotient rounded up. -/
def ceilDiv (x m : Nat) : Nat := (x + m - 1) / m

/-- ASCII bytes of a string. -/
def ascii (s : String) : List Byte := s.toList.map (fun c => BitVec.ofNat 8 c.toNat)

/-- The index of the first element that satisfies a test. -/
def findIdx? {α : Type} (p : α → Bool) : List α → Option Nat
  | [] => none
  | x :: r => if p x then some 0 else (findIdx? p r).map (· + 1)

end Sys2Proof.Machine
end

