-- ==== Sys2Proof/Machine/Crypto.lean ====
section
/-! DEFINITION. SHA-256, HMAC-SHA-256 and the verification of RSASSA-PSS signatures, as the specification names them (R35,
R432, R523, R524). -/
namespace Sys2Proof.Machine
open Sys2Proof

/-- `n` words of 32 bits of a number, the highest first. -/
def wordsBE (n v : Nat) : List (BitVec 32) := (List.range n).map (fun i => BitVec.ofNat 32 (v / 2 ^ (32 * (n - 1 - i))))

/-- The round constants of SHA-256, sixteen to a number. -/
def shaK : List (BitVec 32) :=
  wordsBE 16 0x428a2f9871374491b5c0fbcfe9b5dba53956c25b59f111f1923f82a4ab1c5ed5d807aa9812835b01243185be550c7dc372be5d7480deb1fe9bdc06a7c19bf174 ++
  wordsBE 16 0xe49b69c1efbe47860fc19dc6240ca1cc2de92c6f4a7484aa5cb0a9dc76f988da983e5152a831c66db00327c8bf597fc7c6e00bf3d5a7914706ca635114292967 ++
  wordsBE 16 0x27b70a852e1b21384d2c6dfc53380d13650a7354766a0abb81c2c92e92722c85a2bfe8a1a81a664bc24b8b70c76c51a3d192e819d6990624f40e3585106aa070 ++
  wordsBE 16 0x19a4c1161e376c082748774c34b0bcb5391c0cb34ed8aa4a5b9cca4f682e6ff3748f82ee78a5636f84c878148cc7020890befffaa4506cebbef9a3f7c67178f2

/-- The initial hash value of SHA-256. -/
def shaInit : List (BitVec 32) :=
  wordsBE 8 0x6a09e667bb67ae853c6ef372a54ff53a510e527f9b05688c1f83d9ab5be0cd19

/-- A big-endian number. -/
def beNat (b : List Byte) : Nat := b.foldl (fun n x => n * 256 + x.toNat) 0

/-- `n` big-endian bytes of a number. -/
def beBytes (n v : Nat) : List Byte := (leBytes n v).reverse

/-- A word rotated right by each of some amounts, the results added bit by bit. -/
def rotXor (rs : List Nat) (x : BitVec 32) : BitVec 32 := rs.foldl (fun y r => y ^^^ x.rotateRight r) 0

/-- The message schedule: the last sixteen words, newest first, extended by `n` words. -/
def shaSched : Nat → List (BitVec 32) → List (BitVec 32)
  | 0, ws => ws
  | n + 1, ws =>
    let back (i : Nat) : BitVec 32 := ws.getD (i - 1) 0
    let small (r1 r2 sh i : Nat) : BitVec 32 := rotXor [r1, r2] (back i) ^^^ back i >>> sh
    shaSched n ((back 16 + back 7 + small 7 18 3 15 + small 17 19 10 2) :: ws)

/-- Bit by bit, `x` where the condition is 1 and `y` where it is 0. -/
def choose (cond x y : BitVec 32) : BitVec 32 := cond &&& x ||| ~~~cond &&& y

/-- Bit by bit, what at least two of three words hold. -/
def majority (x y z : BitVec 32) : BitVec 32 := x &&& (y ||| z) ||| y &&& z

/-- One round on the eight working words, the constant and the schedule word added already. -/
def shaRound (v : List (BitVec 32)) (kw : BitVec 32) : List (BitVec 32) :=
  let at_ (i : Nat) : BitVec 32 := v.getD i 0
  let up := at_ 7 + kw + rotXor [6, 11, 25] (at_ 4) + choose (at_ 4) (at_ 5) (at_ 6)
  let low := rotXor [2, 13, 22] (at_ 0) + majority (at_ 0) (at_ 1) (at_ 2)
  (up + low) :: v.take 3 ++ (at_ 3 + up) :: (v.drop 4).take 3

/-- One 64-byte block. -/
def shaBlock (h : List (BitVec 32)) (blk : List Byte) : List (BitVec 32) :=
  let ws := (shaSched 48 (wordsBE 16 (beNat blk)).reverse).reverse
  List.zipWith (· + ·) h ((List.zipWith (· + ·) shaK ws).foldl shaRound h)

/-- The 64-byte blocks of a padded message, while fuel lasts. -/
def shaBlocks : Nat → List Byte → List (BitVec 32) → List (BitVec 32)
  | 0, _, h => h
  | k + 1, m, h => shaBlocks k (m.drop 64) (shaBlock h (m.take 64))

/-- SHA-256 of a message. -/
def sha256 (m : List Byte) : List Byte :=
  let z := (119 - m.length % 64) % 64
  let p := m ++ [0x80] ++ List.replicate z 0 ++ beBytes 8 (8 * m.length)
  (shaBlocks (p.length / 64) p shaInit).flatMap (fun w => beBytes 4 w.toNat)

/-- HMAC-SHA-256. -/
def hmac (key msg : List Byte) : List Byte :=
  let k := if 64 < key.length then sha256 key else key
  let k := k ++ List.replicate (64 - k.length) 0
  sha256 (k.map (· ^^^ 0x5C) ++ sha256 (k.map (· ^^^ 0x36) ++ msg))

/-! RSASSA-PSS of RFC 8017 with SHA-256, MGF1 with SHA-256 and a salt of 32 bytes, under an RSA-3072 key (R35). -/

/-- A power modulo n, by squaring, while fuel lasts. -/
def powMod (n : Nat) : Nat → Nat → Nat → Nat
  | 0, _, _ => 1 % n
  | k + 1, b, e => if e = 0 then 1 % n else (if e % 2 = 1 then b else 1) * powMod n k (b * b % n) (e / 2) % n

/-- MGF1 with SHA-256: `n` bytes from a seed. -/
def mgf1 (seed : List Byte) (n : Nat) : List Byte :=
  ((List.range (ceilDiv n 32)).flatMap (fun i => sha256 (seed ++ beBytes 4 i))).take n

/-- The check of an encoded message of 384 bytes, of which 3,071 bits count, against the message that was signed. -/
def pssEncodes (em msg : List Byte) : Bool :=
  let h := bsub em 351 32
  let db := List.zipWith (· ^^^ ·) (em.take 351) (mgf1 h 351)
  let db := (db.headD 0 &&& 0x7F) :: db.drop 1
  decide (em.length = 384 ∧ em.getD 383 0 = 0xBC ∧ (em.headD 0).toNat < 128 ∧
    db.take 319 = List.replicate 318 0 ++ [1] ∧ sha256 (List.replicate 8 0 ++ sha256 msg ++ db.drop 319) = h)

/-- A signature verifies under a key: its modulus and exponent, from what names the key, are open (R35; log entry 9). -/
def pssValid (key msg sig : List Byte) : Bool :=
  let k := Config.rsaKey key
  let v := beNat sig
  decide (sig.length = 384 ∧ v < k.1) && pssEncodes (beBytes 384 (powMod k.1 3072 v k.2)) msg

/-- A 256-bit value as 32 bytes, little-endian. -/
def nonceBytes (n : BitVec 256) : List Byte := leBytes 32 n.toNat

end Sys2Proof.Machine
end

