-- ==== Sys2Proof/Machine/State.lean ====
section
/-! DEFINITION. The state of one Fintil T48 module: every register, buffer, counter, mode and pin the
specification names, as plain data, with the queue of waiting commands. A field's default is its value right
after a P reset, so `State.reset` is the record of defaults. Where the specification states no reset value the
default is the model's (log entry 3); what an unlisted memory byte reads as is log entry 4. -/
namespace Sys2Proof.Machine
open Sys2Proof

/-- States of an accumulator tile (R108). -/
inductive TileSt where
  | free | open | ended
  deriving DecidableEq, Repr

/-- States of the armature load engine (R45). -/
inductive LoadSt where
  | idle | receiving | verifying | pending | applying
  deriving DecidableEq, Repr

/-- What an elapsed tick of a cell does: it runs, it is held with every pipeline frozen, or it is held for a busy unit
while the pipelines advance (R251, R254, R94; log entry 15). -/
inductive TickSt where
  | hold | unit | run
  deriving DecidableEq, Repr

/-- Link port states, in the code order of R430. -/
inductive PortSt where
  | off | down | training | auth | up | retrain | quarantined | draining
  deriving DecidableEq, Repr

/-- Gallery states, in the code order of R470. -/
inductive GalSt where
  | standalone | active | headless | fenced | quarantined
  deriving DecidableEq, Repr

/-- Phases of a fill (R507). -/
inductive FillSt where
  | attach | copy | check | ready
  deriving DecidableEq, Repr

/-- Snapshot engine states, in the code order of SNP_STAT.STATE (R516). -/
inductive SnpSt where
  | idle | capture | drain | upload | restore
  deriving DecidableEq, Repr

/-- Recovery states, in the code order of SNP_RCV.RSTATE (R516). -/
inductive RcvSt where
  | normal | restart | filling | wait | escalated
  deriving DecidableEq, Repr

/-- Queue-pair states (R537). -/
inductive QpSt where
  | reset | rts | error
  deriving DecidableEq, Repr

/-- Reset classes of R12. -/
inductive RstCls where
  | p | m | w | c | b
  deriving DecidableEq, Repr

/-- Power states, in the code order of PWR_STAT.STATE (R568, R570). -/
inductive PwrSt where
  | active | idle | standby | removing
  deriving DecidableEq, Repr

/-- Firmware image states, in the code order of FW_STAT.STATE (R600). -/
inductive FwSt where
  | idle | staging | verified | installing | installed | failed
  deriving DecidableEq, Repr

/-- A codeword that a port has sent (R422, R427). -/
structure TxCw where
  /-- CSEQ (R422). -/
  cseq : BitVec 10 := 0
  /-- CMASK (R422). -/
  cmask : BitVec 10 := 0
  /-- flits 0 to 9; none where the contents are not kept, since the replay buffer was full (R422, R427). -/
  flits : List (List Byte) := []
  /-- replays in a row without ACK passing it (R427). -/
  reps : Nat := 0
  deriving DecidableEq, Repr

/-- How an Ethernet frame leaves: what its headers take from the port that sends it (R519, R520, R521, R541). -/
structure Wire where
  /-- port: 0 ETH0, 1 ETH1, 2 MGT (R519). -/
  port : Nat := 0
  /-- source MAC address (R519, R521). -/
  mac : List Byte := []
  /-- VLAN id of the IEEE 802.1Q tag, 0 for untagged (R520). -/
  vlan : Nat := 0
  /-- DSCP (R521). -/
  dscp : Nat := 0
  /-- marked ECT(0) (R541). -/
  ect : Bool := false
  deriving DecidableEq, Repr

/-- What the module sends out or drives: a trace kept by the model (log entry 12). -/
inductive Out where
  /-- A TCD message, a response or a NOTIFY: how it leaves, the UDP port, and header, payload and TAG (R522, R523, R529, R530). -/
  | tcd (w : Wire) (udp : Nat) (msg : List Byte)
  /-- A gallery packet handed to a link port (R450). -/
  | packet (port : Nat) (pk : Packet)
  /-- A codeword sent or sent again: port, the codeword, and the symbols on each physical lane with its inversion (R421, R422, R427). -/
  | codeword (port : Nat) (cw : TxCw) (lanes : Lanes)
  /-- A handshake message: port, 1 HELLO, 2 CERT, 3 SIGN (R432). -/
  | hand (port kind : Nat)
  /-- A RoCEv2 packet: how it leaves, queue pair, kind and data (R536). -/
  | roce (w : Wire) (qpn kind : Nat) (data : List Byte)
  /-- An Ethernet frame that is neither TCD nor RoCEv2: how it leaves and kind (R520). -/
  | frame (w : Wire) (kind : Nat)
  /-- A recovery-loader response: SEQ, status and payload (R584). -/
  | trlp (seq status : Nat) (payload : List Byte)
  /-- A pin driven to a level: pin code and level (R615, R619). -/
  | pin (code : Nat) (level : Bool)
  deriving DecidableEq, Repr

/-- One column slice held in a weight register set (R88): element codes after the loader's conversion, scales, slot indices, live and poisoned slot masks. -/
structure Slice where
  /-- 32 or 64 element codes of 6 to 16 bits (R88). -/
  codes : List (BitVec 16) := []
  /-- one E8M0 byte, two for MXFP4 dense, none for BF16 (R88). -/
  scales : List Byte := []
  /-- 32 slot indices of 8 bits (relief) (R123). -/
  idx : List Byte := []
  /-- live-slot mask (R126). -/
  live : BitVec 32 := 0
  /-- slots whose weight or index word is poisoned (R133). -/
  pois : BitVec 64 := 0
  deriving DecidableEq, Repr

/-- One of the two weight register sets of every DPU of an array, front or back (R88, R132). -/
structure WSet where
  /-- 1: loaded since the last cell reset (R92). -/
  loaded : Bool := false
  /-- 1: loaded by a relief instruction (R132). -/
  relief : Bool := false
  /-- occupancy bound of the load (R132). -/
  g : Nat := 8
  /-- reach base of the load (R132). -/
  k0 : Nat := 0
  /-- K-extent of the load (R132). -/
  kext : Nat := 0
  /-- LINE 0 or PACKED 1 of the load (R132). -/
  form : Nat := 0
  /-- weight format code of the load (R132). -/
  wfmt : Nat := 2
  /-- 1: an SGRAD load, indices only (R132). -/
  sgrad : Bool := false
  /-- malformed and out-of-range slots of the load (R132). -/
  rangeSlots : Nat := 0
  /-- the 1,024 column slices (R88). -/
  slices : Tab Slice := []
  /-- source of the load: base of slice 0 (R216). -/
  waddr : Nat := 0
  /-- source of the load: slice stride (R216). -/
  wstride : Nat := 0
  /-- FLAGS the load's conversions raised (R131). -/
  flags : Nat := 0
  /-- checker lane: the column residue ws[k] of each of 256 positions (R210). -/
  lane : Tab (BitVec 61) := []
  /-- slice residue r_n of each DPU (R212). -/
  res : Tab (BitVec 61) := []
  /-- logical id of the instruction that loaded the set (R217, R268). -/
  id : BitVec 32 := 0
  deriving DecidableEq, Repr

/-- Layout of one half of an accumulator RAM (R105, R107). -/
structure Half where
  /-- layout code of R111: 0 unset, 1 to 4 (R111). -/
  m : Nat := 0
  /-- 0 FP32, 1 W40 (R111). -/
  w40 : Bool := false
  deriving DecidableEq, Repr

/-- State of one accumulator tile (R108, R83, R84, R220). -/
structure Tile where
  /-- 2 bits: FREE, OPEN, ENDED (R108). -/
  st : TileSt := .free
  /-- 16-bit add counter (R83). -/
  adds : Nat := 0
  /-- 8-bit W40 prescaler (R83). -/
  presc : Nat := 0
  /-- LONGSUM state (R84). -/
  long : Bool := false
  /-- drain-check accumulator of each row, W40 (R220). -/
  cs : Tab (BitVec 40) := []
  /-- drain-check largest exponent of each row; none while undefined (R220). -/
  emax : Tab (Option Int) := []
  /-- 32-bit drain-check add count (equal for every row, R108) (R220). -/
  l32 : Nat := 0
  deriving DecidableEq, Repr

/-- One matrix array MA0 to MA3 with its accumulator RAM (R88, R105). -/
structure Arr where
  /-- the front weight register set (R88). -/
  front : WSet := {}
  /-- the back weight register set (R88). -/
  back : WSet := {}
  /-- 1 MiB accumulator RAM in the layout of R106 (R106). -/
  ram : Mem := []
  /-- poison mark of each 32-bit word of the RAM (R231). -/
  pois : PSet := []
  /-- layout of half H0 (R111). -/
  h0 : Half := {}
  /-- layout of half H1 (R111). -/
  h1 : Half := {}
  /-- the 16 tile states (R108). -/
  tiles : Tab Tile := []
  /-- cycle after the last row streamed by the newest streaming instruction (R93). -/
  lastEnd : Nat := 0
  /-- cycle after the last row read of the newest DRAIN (drain port busy until then) (R109). -/
  drainEnd : Nat := 0
  /-- half that DRAIN reads (R109). -/
  drainHalf : Nat := 0
  /-- cycle until which a Calipers retry or a re-execution occupies the array (R216). -/
  retryEnd : Nat := 0
  deriving DecidableEq, Repr

/-- One pending write of an instruction in flight: bytes and their poison, into the core store or the tile registers. -/
structure Put where
  /-- false core store, true tile registers (R480). -/
  tile : Bool := false
  /-- byte address (R278). -/
  addr : Nat := 0
  /-- bytes to write (R246). -/
  bytes : List Byte := []
  /-- the written words are marked poisoned (R232). -/
  pois : Bool := false
  deriving DecidableEq, Repr

/-- One HOME line write not yet sent to its Plinth (R151, R301). -/
structure HomeWrite where
  /-- job virtual address of the line (R151). -/
  va : Nat := 0
  /-- the 256 bytes of the line (R151). -/
  line : List Byte := []
  /-- the line is written poisoned (R232). -/
  pois : Bool := false
  /-- cycle at which the line is finished (R152). -/
  at_ : Nat := 0
  /-- 0 a write; otherwise the reason for which the line is left unwritten, as R404 codes it (R404). -/
  reason : Nat := 0
  /-- core-store address of the line (R153). -/
  addr : Nat := 0
  /-- MPHASE of the instruction (R404). -/
  phase : Nat := 0
  /-- core-store bytes of the line, and its count byte, written as the line is finished (R152, R157) (R152). -/
  puts : List Put := []
  /-- what the line adds to the counts of the completion record (R167, R169). -/
  counts : List Nat := []
  deriving DecidableEq, Repr

/-- Resolved operands of an array instruction in flight (R281, R283, R223). -/
structure ArrOp where
  /-- array 0 to 3 (R280). -/
  arr : Nat := 0
  /-- accumulator tile 0 to 15 (R106). -/
  tile : Nat := 0
  /-- opcode 0x10 to 0x14 (R308). -/
  opc : Nat := 0
  /-- rows or tokens streamed (R280). -/
  m : Nat := 64
  /-- accumulator format (R280). -/
  w40 : Bool := false
  /-- BEGIN (R280). -/
  begin_ : Bool := false
  /-- END (R280). -/
  end_ : Bool := false
  /-- KEEPW (R280). -/
  keepw : Bool := false
  /-- first row of the broadcast operand (R282). -/
  xaddr : Nat := 0
  /-- row stride (pixel stride for CONV) (R281). -/
  xrs : Nat := 0
  /-- activation format code (R281). -/
  xfmt : Nat := 2
  /-- column feed base (SGRAD) (R282). -/
  daddr : Nat := 0
  /-- column feed row stride (R281). -/
  drs : Nat := 0
  /-- column feed format (R281). -/
  dfmt : Nat := 2
  /-- first tile column (TSP) (R129). -/
  c0 : Nat := 0
  /-- base of slice 0 (R282). -/
  waddr : Nat := 0
  /-- slice stride (R281). -/
  wstride : Nat := 0
  /-- cycles per row at the group's pace (R91). -/
  cpr : Nat := 1
  /-- CONV parameters H_in W_in C KH KW SY SX DY DX PT PB PL PR ky kx g p0 (R98). -/
  conv : List Nat := []
  deriving DecidableEq, Repr

/-- One entry of a pointing window (R223). -/
structure WinEntry where
  /-- instruction word (R223). -/
  word : BitVec 128 := 0
  /-- resolved operand ranges (R223). -/
  op : ArrOp := {}
  /-- the weights it streamed against, with the range of their load (R223). -/
  front : WSet := {}
  /-- logical id (R223). -/
  id : BitVec 32 := 0
  /-- step (R223). -/
  step : BitVec 64 := 0
  /-- result digest (R225). -/
  digest : BitVec 64 := 0
  /-- cycle count of the instruction, load exposed (R227). -/
  kind : Nat := 0
  /-- array instructions that have completed on the core since (R223). -/
  age : Nat := 0
  deriving DecidableEq, Repr

/-- What the broadcast read for one streamed row: the bytes and poison marks of its operand ranges (R95). -/
structure RowImg where
  /-- the bytes (R95). -/
  store : Mem := []
  /-- the poisoned words (R231). -/
  pois : PSet := []
  deriving DecidableEq, Repr

/-- One instruction in flight: the entry of R481 and what the model needs to finish it. -/
structure Entry where
  /-- instruction word (R481). -/
  word : BitVec 128 := 0
  /-- operand or parameter block as read at issue (R481). -/
  block : List Byte := []
  /-- logical id (R77). -/
  id : BitVec 32 := 0
  /-- stream code 0 to 5 (R481). -/
  stream : Nat := 0
  /-- ORD of the instruction (R77). -/
  ord : Nat := 0
  /-- array, DMA engine or merge pipe (R481). -/
  unit : Nat := 0
  /-- flag bit 1: in a Calipers retry (R481). -/
  inRetry : Bool := false
  /-- flag bit 2: fault outstanding (R481). -/
  faulted : Bool := false
  /-- flag bit 3: load in progress (R481). -/
  loading : Bool := false
  /-- rows or blocks whose adds were written when the cell was last saved (R482). -/
  addsDone : Nat := 0
  /-- cursor (R482). -/
  cursor : BitVec 64 := 0
  /-- completion-record fields accumulated so far (R481). -/
  fields : List (BitVec 32) := []
  /-- remote: packets sent (R481). -/
  sent : Nat := 0
  /-- remote: packets acknowledged (R481). -/
  acked : Nat := 0
  /-- remote outcome 0 pending, 1 done, 2 failed, 3 lost (R481). -/
  outcome : Nat := 0
  /-- REM_FAULT cause (R481). -/
  cause : Nat := 0
  /-- FLAGS so far (R85). -/
  flags : Nat := 0
  /-- record STATUS: bit 0 POISONED, bit 1 NONREPRO (R330). -/
  status : Nat := 0
  /-- counter value of the issue tick (R244). -/
  issueTick : Nat := 0
  /-- ORD of the leader of its broadcast group (R90). -/
  grp : Nat := 0
  /-- the front set it streams against (R93). -/
  wset : WSet := {}
  /-- the front set as reloaded for a Calipers retry (R216). -/
  wset2 : WSet := {}
  /-- first streamed cycle of an array instruction (R93). -/
  startCycle : Nat := 0
  /-- cycle after the last write; 0 when only an outside event ends it (R96). -/
  doneCycle : Nat := 0
  /-- cycle after the last beat is delivered (vector engine) (R207). -/
  beatEnd : Nat := 0
  /-- array instruction has started streaming (R93). -/
  streaming : Bool := false
  /-- resolved operands of an array instruction (R223). -/
  arrOp : Option ArrOp := none
  /-- first row of the Calipers retry (R216). -/
  retryRow : Option Nat := none
  /-- rows that mismatched in the retry (R218). -/
  badRows : List Nat := []
  /-- rows that have entered the broadcast, as it read them (R95). -/
  rows : List (Nat × RowImg) := []
  /-- errors of the datapath in its stream, and in its retry (R211; log entry 12). -/
  errs : List TreeErr := []
  /-- errors of the datapath in the retry (R216). -/
  errs2 : List TreeErr := []
  /-- CAL field: 0 pass, 1 CAL_RETRY_OK, 2 CAL_MISMATCH (R218). -/
  cal : Nat := 0
  /-- writes that take effect at completion (R246). -/
  puts : List Put := []
  /-- tile-register bits that a compare writes at completion: bit address, value, poison (R190, R191). -/
  bits : List (Nat × (Bool × Bool)) := []
  /-- HOME writes still to leave (R152). -/
  home : List HomeWrite := []
  /-- lines of an instruction without HOME whose core-store bytes are still to be written (R152). -/
  lines : List HomeWrite := []
  /-- events that the completion logs: code and data fields as width and value (R153). -/
  events : List (Nat × List (Nat × Nat)) := []
  /-- fault that the instruction raises at its last cycle: code and data fields as width and value (R174). -/
  pendFault : Option (Nat × List (Nat × Nat)) := none
  /-- HOME writes sent and not yet acknowledged (R152). -/
  homeOut : Nat := 0
  /-- tile-register word ranges being written (R189). -/
  tregs : List (Nat × Nat) := []
  /-- tile that a DRAIN without KEEP frees (array, tile) (R108). -/
  release : Option (Nat × Nat) := none
  /-- accumulators an MVP leaves (R103). -/
  mvu : Option (List (BitVec 32)) := none
  /-- poison of the accumulators an MVP leaves (R232). -/
  mvuPois : PSet := []
  /-- GNORM FIN sets the cell's per-tensor bit (R305). -/
  perTensor : Bool := false
  /-- all effects in place; DMA_COMPLETE may follow (R332). -/
  done : Bool := false
  /-- Pointing: source core, the chosen entry, rotation (R226). -/
  point : Option (Nat × (WinEntry × Nat)) := none
  /-- Pointing: digest of the re-execution, once it has ended (R228). -/
  reexec : List (BitVec 64) := []
  /-- a third execution: pointing core, stream and ORD of the re-execution it decides (R228). -/
  thirdOf : Option (Nat × (Nat × Nat)) := none
  /-- XCH phase (R321). -/
  xchPhase : Nat := 0
  /-- XCH: the token of the experts owned here has been posted (R321). -/
  xchPosted : Bool := false
  /-- outstanding packets: flow (fleet*64+slot), SEQ, bytes (R454). -/
  dests : List (Nat × (Nat × Nat)) := []
  deriving DecidableEq, Repr

/-- One shadow tag of the hazard detector (R268). -/
structure Tag where
  /-- writer in flight: stream and ORD (R268). -/
  writer : Option (Nat × Nat) := none
  /-- readers in flight: stream and ORD (R268). -/
  readers : List (Nat × Nat) := []
  /-- RETAIN bit (R268). -/
  retain : Bool := false
  /-- logical id of the instruction that the RETAIN bit is held for (R271). -/
  retId : BitVec 32 := 0
  /-- LAND bit (R268). -/
  land : Bool := false
  deriving DecidableEq, Repr

/-- One cached translation of a core (R386). -/
structure XlEnt where
  /-- virtual page number (VA div page size) (R386). -/
  vpage : Nat := 0
  /-- 1 GiB page (R384). -/
  big : Bool := false
  /-- local address of the frame (R384). -/
  frame : Nat := 0
  /-- RD (R384). -/
  rd : Bool := false
  /-- WR (R384). -/
  wr : Bool := false
  /-- partition (R384). -/
  part : Nat := 0
  deriving DecidableEq, Repr

/-- One compute core C00 to C47 (R16): stores, arrays, engines, streams and its CSRs. -/
structure Core where
  /-- 20 MiB core store (R31). -/
  store : Mem := []
  /-- poison mark of each 32-bit word of the core store (R231). -/
  storePois : PSet := []
  /-- tile registers T0 to T31, 512 KiB, byte-addressed as R312 (R185). -/
  treg : Mem := []
  /-- poison mark of each word of the tile registers (R231). -/
  tregPois : PSet := []
  /-- MA0 to MA3 (R88). -/
  arrays : Tab Arr := []
  /-- 1,024 FP32 accumulators of the MVU (R103). -/
  mvu : Tab (BitVec 32) := []
  /-- operand buffers of the vector engine, three sources of 8,192 words, BF16 elements widened (R481). -/
  vbuf : Tab (BitVec 32) := []
  /-- poison carried by the MVU accumulators (R232). -/
  mvuPois : PSet := []
  /-- stream pointers of the six streams, in instructions (R481). -/
  ptr : Tab Nat := []
  /-- ORD counters of the six streams (R77). -/
  ord : Tab Nat := []
  /-- slot of the newest issued instruction of each stream (R244). -/
  lastSlot : Tab Nat := []
  /-- instructions of each stream already issued with the newest slot (R244). -/
  inSlot : Tab Nat := []
  /-- posts landed on each scoreboard entry (R268). -/
  postSeq : Tab Nat := []
  /-- counts consumed from each scoreboard entry (R269). -/
  useSeq : Tab Nat := []
  /-- posts landed and not yet consumed: token, sequence number, stream, ORD (R269). -/
  awaits : List (Nat × (Nat × (Nat × Nat))) := []
  /-- arrival scoreboard entries 1 to 255, 8 bits each; entry 0 reads 1 (R247). -/
  tokens : Tab Nat := []
  /-- FLG_STICKY.FLAGS (R87). -/
  flg : BitVec 12 := 0
  /-- in-flight table (R481). -/
  inflight : List Entry := []
  /-- pointing window, newest first (R223). -/
  window : List WinEntry := []
  /-- ORD of the transfer that holds the bounce buffer (R351). -/
  bounceBusy : Option Nat := none
  /-- XL_FAULT register (R389). -/
  xlFault : BitVec 64 := 0
  /-- up to 128 cached translations (R386). -/
  xlCache : List XlEnt := []
  /-- hazard-detector tag of each 256 B granule of the core store (R268). -/
  tags : Tab Tag := []
  /-- hazard-detector tag of each tile register (R268). -/
  tregTags : Tab Tag := []
  /-- XCH base table: base + 1 of each expert, 0 while not received (R481). -/
  xbase : Tab Nat := []
  /-- cycle at which the merge engine is free (R150). -/
  mrgFree : Nat := 0
  /-- cycle at which the activation broadcast is free of a re-execution (R227). -/
  bcastFree : Nat := 0
  /-- CLK_PLAN.FREQ, MHz (R606). -/
  planFreq : BitVec 12 := 2100
  /-- CLK_PLAN.VOLT, mV (R606). -/
  planVolt : BitVec 12 := 780
  /-- CLK_PLAN.VMAX, mV (R606). -/
  vmax : BitVec 12 := 830
  /-- CLK_PLAN.PENDING with the planned frequency and voltage (R593). -/
  replan : Option (Nat × Nat) := none
  /-- CLK_CUR.FREQ, MHz; 0 when parked (R606). -/
  curFreq : BitVec 12 := 0
  /-- CLK_CUR.DROOP (R606). -/
  droop : Bool := false
  /-- clock of the droop response, MHz (R21). -/
  droopFreq : Nat := 0
  /-- CLK_CUR.THROTTLE (R606). -/
  throttle : Bool := false
  /-- MHz taken off the plan by thermal and power slowing (R576). -/
  slow : Nat := 0
  /-- CLK_CUR.HALVED (R606). -/
  halved : Bool := false
  /-- island at 100 C or more and not yet cooled (R576). -/
  hot : Bool := false
  /-- reading of the hottest sensor of the island, C (R575). -/
  temp : Int := 25
  /-- CAL_SUSPECT bit of the core (R609). -/
  suspect : Bool := false
  /-- CAL_CORE.RETRY60 (R609). -/
  retry60 : BitVec 16 := 0
  /-- CAL_CORE.MISMATCH (R609). -/
  mism : BitVec 16 := 0
  /-- CAL_CORE.CAUSE (R609). -/
  calCause : BitVec 4 := 0
  /-- a survey of the island is pending (R592). -/
  survDue : Bool := false
  /-- Patina Survey section of the island: time, V, F, margin and ring-oscillator frequency of the last 52 results, newest first (R597). -/
  survHist : List (Nat × (Nat × (Nat × (Nat × Nat)))) := []
  /-- Patina baseline ring-oscillator frequency (R597). -/
  roBase : Nat := 0
  /-- Patina Suspect section: CAL_SUSPECT count (R597). -/
  suspCount : Nat := 0
  /-- Patina Suspect section: last cause, 0 for none (R597). -/
  suspLast : Nat := 0
  deriving DecidableEq, Repr

/-- One outstanding fault of a cell (R472, R475). -/
structure FaultRec where
  /-- event code (R488). -/
  code : BitVec 16 := 0
  /-- logical core (R488). -/
  lcore : Nat := 0
  /-- stream code (R488). -/
  stream : Nat := 0
  /-- ORD of the faulted instruction (R481). -/
  ord : Nat := 0
  /-- the management firmware may clear it (R472). -/
  resolvable : Bool := false
  deriving DecidableEq, Repr

/-- Reasons that hold a cell besides the readiness of its instructions. -/
structure Holds where
  /-- fault hold (R473). -/
  fault : Bool := false
  /-- supply warning (R561). -/
  supply : Bool := false
  /-- HEADLESS, FENCED or QUARANTINED device (R468). -/
  headless : Bool := false
  /-- snapshot capture (R498). -/
  capture : Bool := false
  /-- held at tick 0 after a restore (R503). -/
  restore : Bool := false
  /-- HAZARD freeze (R271). -/
  hazard : Bool := false
  /-- third Pointing executions that run (R228). -/
  third : Nat := 0
  /-- a mode-2 apply is in progress (R51). -/
  apply : Bool := false
  /-- a warm reset or removal is in progress (R552). -/
  warm : Bool := false
  deriving DecidableEq, Repr

/-- The parts of a context image that R480 and R481 give no byte layout for (R480). -/
structure CtxImg where
  /-- the saved member cores in logical order (R480). -/
  cores : List Core := []
  /-- outstanding faults (R479). -/
  faults : List FaultRec := []
  /-- flag bit 1 (R479). -/
  perTensor : Bool := false
  /-- unit ticks of the step that were held (R480). -/
  uh : Nat := 0
  /-- the STEP_END rendezvous of the step has completed for the cell (R462). -/
  released : Bool := false
  /-- the commit rendezvous of the step has completed (R505). -/
  commitDone : Bool := false
  /-- array instructions still to be re-executed (R230). -/
  heightQ : List (Nat × WinEntry) := []
  deriving DecidableEq, Repr

/-- One cell (R40): its membership, tick reference and schedule state, faults and context. -/
structure Cell where
  /-- CORE_MASK; 0 while the cell does not exist (R40). -/
  mask : BitVec 48 := 0
  /-- CELL_SEED (R40). -/
  seed : BitVec 64 := 0
  /-- ACCFMT default tile-size code (R626). -/
  accM : Nat := 3
  /-- ACCFMT default accumulator format (R626). -/
  accFmt : Nat := 1
  /-- STAGING offset and size (R352). -/
  staging : Option (Nat × Nat) := none
  /-- PWIN offset, 4 KiB long (R352). -/
  pwin : Nat := 0x13E7000
  /-- BOUNCE offset, 4 MiB long (R352). -/
  bounce : Option Nat := none
  /-- translation root: NTOP and ROOT (R387). -/
  root : Option (Nat × Nat) := none
  /-- HOLDLIM in us (R261). -/
  holdlim : Nat := 1000
  /-- the streams of the PROG section in force, keyed 8 x LCORE + STREAM (R261). -/
  prog : Tab (List (BitVec 128)) := []
  /-- SHA-256 of the PROG section in force (R479). -/
  progHash : List Byte := []
  /-- TOKINIT items: LCORE, token, count (R261). -/
  tokInit : List (Nat × (Nat × Nat)) := []
  /-- CONSTBLK items: LCORE, offset, data (R263). -/
  consts : List (Nat × (Nat × List Byte)) := []
  /-- tick counter (R243). -/
  tick : BitVec 48 := 0
  /-- the present elapsed tick: runs, held, or held for a busy unit (R251). -/
  run0 : TickSt := .hold
  /-- the next elapsed tick as decided (R251). -/
  run1 : TickSt := .hold
  /-- the elapsed tick after it as decided (R251). -/
  run2 : TickSt := .hold
  /-- ticks of the step held for a busy unit, in which the pipelines advance (log entry 15) (R94). -/
  uh : Nat := 0
  /-- SCHED_HOLD.HELD (R273). -/
  held : BitVec 32 := 0
  /-- SCHED_HOLD.LAST_TOKEN (R273). -/
  lastTok : BitVec 8 := 0
  /-- SCHED_HOLD.LAST_CAUSE (R273). -/
  lastCause : BitVec 3 := 0
  /-- SCHED_HOLD.LAST_CORE (R273). -/
  lastCore : BitVec 5 := 0
  /-- logical core of the most recent hold's missing condition, whole (R259). -/
  missCore : Nat := 0
  /-- logical core and stream of the instruction that a HAZARD keeps from issuing (R271). -/
  frozen : Option (Nat × Nat) := none
  /-- step number (R258). -/
  step : BitVec 64 := 0
  /-- CTX_STAT.STATE (R488). -/
  ctx : BitVec 3 := 0
  /-- CTX_STAT.REFUSE (R488). -/
  refuse : BitVec 16 := 0
  /-- CTX_AREA.BASE (R488). -/
  area : BitVec 44 := 0
  /-- length of the context area that the firmware set aside (R478). -/
  areaLen : Nat := 0x60200000
  /-- FLT_BUDGET (R488). -/
  budget : BitVec 32 := 0x7D0
  /-- FLT_CAUSE: EVENT, LCORE, STREAM (R488). -/
  cause : BitVec 25 := 0
  /-- outstanding faults, first first (R475). -/
  faults : List FaultRec := []
  /-- CAUSE of the pre-emption in progress: 0 host, 1 fault, 2 HAZARD (R479). -/
  pcause : Nat := 0
  /-- structured part of the saved image (R480). -/
  img : Option CtxImg := none
  /-- flag bit 3 of the image: a token overflowed while PREEMPTED (R484). -/
  imgOvf : Bool := false
  /-- hold reasons (R254). -/
  holds : Holds := {}
  /-- step-taint bit (R229). -/
  taint : Bool := false
  /-- per-tensor GNORM bit for the next receipt (R305). -/
  perTensor : Bool := false
  /-- heightened-pointing array instructions remaining (R230). -/
  heighten : Nat := 0
  /-- completed array instructions still to be re-executed: core and entry (R230). -/
  heightQ : List (Nat × WinEntry) := []
  /-- delta records emitted since the step began (R479). -/
  deltas : Nat := 0
  /-- the STEP_END rendezvous of the step has completed for the cell (R462). -/
  released : Bool := false
  /-- newly reset: no tick has run since the last cell reset (R501). -/
  reset : Bool := true
  /-- the commit rendezvous of the current step has completed (R505). -/
  commitDone : Bool := false
  deriving DecidableEq, Repr

/-- One section of an armature as loaded (R36). -/
structure SecRec where
  /-- KIND (R36). -/
  kind : Nat := 0
  /-- INSTANCE (R36). -/
  inst : Nat := 0
  /-- section bytes (R36). -/
  body : List Byte := []
  deriving DecidableEq, Repr

/-- An armature as verified (R34, R36). -/
structure Armature where
  /-- the 256 B header (R34). -/
  header : List Byte := []
  /-- its sections (R36). -/
  secs : List SecRec := []
  deriving DecidableEq, Repr

/-- The load engine and the armature in force (R45, R610). -/
structure ArmSt where
  /-- 3 bits, ARM_STAT.STATE (R45). -/
  state : LoadSt := .idle
  /-- ARM_STAT.REASON (R610). -/
  reason : BitVec 4 := 0
  /-- ARM_RECV.TOTAL (R610). -/
  total : BitVec 32 := 0
  /-- ARM_RECV.RECEIVED (R610). -/
  received : BitVec 32 := 0
  /-- ARM_PEND.MODE (R610). -/
  mode : BitVec 2 := 0
  /-- ARM_PEND.CELLS (R610). -/
  cells : BitVec 16 := 0
  /-- ARM_PEND.EPOCH (R610). -/
  epoch : BitVec 32 := 0
  /-- ARM_SKIP.SKIPPED (R610). -/
  skipped : BitVec 32 := 0
  /-- the armature in force (ARM_STAT.INFORCE, ARM_SERIAL, ARM_MEAS) (R610). -/
  inForce : Option Armature := none
  /-- the verified armature that is PENDING or APPLYING (R45). -/
  next : Option Armature := none
  /-- flash copy area 0 of R55, valid when present (R55). -/
  copy0 : Option (List Byte) := none
  /-- flash copy area 1 of R55, valid when present (R55). -/
  copy1 : Option (List Byte) := none
  /-- bytes of the PERSIST copy being written (R55). -/
  persisting : Option (List Byte) := none
  /-- copy area that the next PERSIST copy overwrites (R55). -/
  nextCopy : Nat := 0
  /-- items that the load engine's armature skips (R52). -/
  nextSkip : Nat := 0
  /-- the load became PENDING while a STEP_END had completed in some cells and not in all: that one does not count (R51). -/
  midEnd : Bool := false
  /-- whom the commit in progress answers: session, EPOCH, SEQ, the flow of a forwarded request plus 1, the role, OPCODE (R529). -/
  reply : List Nat := []
  deriving DecidableEq, Repr

/-- A MEMPART PART item (R382). -/
structure PartCfg where
  /-- NOALLOC (R375). -/
  noalloc : Bool := false
  /-- GUAR in GB/s (R382). -/
  guar : Nat := 0
  /-- CAP in GB/s (R382). -/
  cap : Nat := 49150
  /-- BURST in KiB (R382). -/
  burst : Nat := 64
  deriving DecidableEq, Repr

/-- A SPARE item (R446). -/
structure SpareCfg where
  /-- spare number (R446). -/
  num : Nat := 0
  /-- anchor slot (R446). -/
  a0 : Nat := 0
  /-- AUX port of the anchor (R446). -/
  p0 : Nat := 0
  /-- second anchor slot, 0xFF for none (R446). -/
  a1 : Nat := 255
  /-- AUX port of the second anchor (R446). -/
  p1 : Nat := 255
  /-- SHA-256 of the spare's public key in DER form (R446). -/
  hash : List Byte := []
  deriving DecidableEq, Repr

/-- Device-scope settings of the armature in force, as its sections give them. -/
structure Cfg where
  /-- NEARMAP (R382). -/
  nearmap : BitVec 72 := 0
  /-- PART items (R382). -/
  parts : Tab PartCfg := []
  /-- PRANGE items: start, end, partition (R382). -/
  pranges : List (Nat × (Nat × Nat)) := []
  /-- TBLPART (R387). -/
  tblpart : Nat := 0
  /-- PRATE (R239). -/
  prate : Nat := 1024
  /-- DCHK bit 0 (R239). -/
  dchk : Bool := false
  /-- DEBUG bit 0 (R239). -/
  debug : Bool := false
  /-- GNORM mode 1 per-tensor (R239). -/
  gnormPer : Bool := false
  /-- GNORM_TIMEOUT us (R239). -/
  gnormTo : Nat := 5000
  /-- SEALKEY (R239). -/
  sealkey : Option (BitVec 61) := none
  /-- SEALPOL slots, NREP entries (R239). -/
  sealSlots : List Nat := []
  /-- SEALPOL cadence (R239). -/
  sealCad : Nat := 1
  /-- SEALPOL DIVLIM (R239). -/
  divlim : Nat := 64
  /-- CALPOL threshold (R239). -/
  calThr : Nat := 16
  /-- CALPOL escalation (R239). -/
  calEsc : Bool := true
  /-- FLEETID partner slot (R446). -/
  partner : Option Nat := none
  /-- PX, PY, PZ (R446). -/
  box : Nat × (Nat × Nat) := (1, 1, 1)
  /-- FX, FY, FZ (R446). -/
  tiles : Nat × (Nat × Nat) := (1, 1, 1)
  /-- HEADS slots of rank 0 to 3 (R446). -/
  heads : List Nat := []
  /-- SPARE items: number, anchor slot, AUX port, key hash (R446). -/
  spares : List SpareCfg := []
  /-- RDVDEF items: NAME, slot bitmap, cell mask, RDVTO (R446). -/
  rdvdefs : List (Nat × (Nat × (Nat × Nat))) := []
  /-- HBIV us (R446). -/
  hbiv : Nat := 200
  /-- HBMISS (R446). -/
  hbmiss : Nat := 10
  /-- E2E_TO us (R446). -/
  e2eTo : Nat := 20
  /-- RETRYDLY us (R446). -/
  retryDly : Nat := 5
  /-- E2E_TRIES (R446). -/
  e2eTries : Nat := 16
  /-- FORGELIM (R446). -/
  forgelim : Nat := 16
  /-- ADDBUF length in bytes; 0 for none (R446). -/
  addbuf : Nat := 0
  /-- ADDBUF base (R446). -/
  addbufBase : Nat := 0
  /-- fleets that INCTAB names (R446). -/
  fleets : List Nat := []
  /-- an EXPORT section is in force (R37). -/
  exportSec : Bool := false
  /-- RING base and length (R417). -/
  ring : Nat × Nat := (0, 0)
  /-- PARTNER fleet and slot (R417). -/
  expPartner : Option (Nat × Nat) := none
  /-- EXPREG items: RBASE, length, MBASE (R417). -/
  expregs : List (Nat × (Nat × Nat)) := []
  /-- MIRROR items: base, length, stale-bitmap base, source slot, RESEND (R417). -/
  mirrors : List (Nat × (Nat × (Nat × (Nat × Bool)))) := []
  /-- REFLIST items: base, length, owner (R417). -/
  reflists : List (Nat × (Nat × Nat)) := []
  /-- GRADWIN items: base, length, cell, logical core, token, GNORM record offset (R417). -/
  gradwins : List (Nat × (Nat × (Nat × (Nat × (Nat × Nat))))) := []
  /-- NORMSET slot bitmap; 0 for this device only (R417). -/
  normset : Nat := 0
  /-- a SNAP section is in force (R37). -/
  snapSec : Bool := false
  /-- SNAPPOL INTERVAL (R495). -/
  interval : Nat := 1
  /-- SNAPPOL target (R495). -/
  target : Nat := 0
  /-- SNAPPOL KFULL (R495). -/
  kfull : Nat := 1
  /-- SNAPPOL RECEIPT (R495). -/
  receipt : Bool := false
  /-- SNAPPOL AUTOFILL (R495). -/
  autofill : Bool := false
  /-- SRANGE items: base, length, kind (R495). -/
  sranges : List (Nat × (Nat × Nat)) := []
  /-- SNAPBUF base and length (R495). -/
  snapbuf : Nat × Nat := (0, 0)
  /-- DLC cursor-block offset and commit NAME (R495). -/
  dlc : Option (Nat × Nat) := none
  /-- STORETGT target number and offset (R495). -/
  storetgt : Option (Nat × Nat) := none
  /-- TCDCFG UDP port (R521). -/
  tcdPort : Nat := 50731
  /-- TCDCFG sessions (R521). -/
  maxSess : Nat := 16
  /-- TCDCFG idle timeout s (R521). -/
  idleTo : Nat := 60
  /-- OBSERVER key hashes (R521). -/
  observers : List (List Byte) := []
  /-- WINDOW items: number, permissions, R_Key, GPA base, length (R521). -/
  windows : List (Nat × (Nat × (Nat × (Nat × Nat)))) := []
  /-- STORE remote IP addresses by target, 16 B (R521). -/
  storeIps : List (Nat × List Byte) := []
  /-- STORE items: target, port, R_Key, base VA, object length (R521). -/
  stores : List (Nat × (Nat × (Nat × (Nat × Nat)))) := []
  /-- PORT items of ETHCFG, 48 B each (R521). -/
  ethModes : Tab (List Byte) := []
  /-- QOS item (R521). -/
  qos : List Nat := [3, 6, 26, 48, 1]
  /-- PTP item: port, domain, transport (R521). -/
  ptpCfg : List Nat := [2, 0, 0]
  deriving DecidableEq, Repr

/-- One line held in a shared-cache slice (R374), most recent first within its set. -/
structure SlLine where
  /-- local address of the 256 B line (R374). -/
  addr : Nat := 0
  /-- written and not yet written back (R374). -/
  dirty : Bool := false
  /-- allocated temporarily for an atomic (R375). -/
  temp : Bool := false
  /-- partition of the last writer (R379). -/
  part : Nat := 0
  /-- sectors of the line that the slice holds (R374). -/
  held : BitVec 4 := 15
  deriving DecidableEq, Repr

/-- One media request waiting at a regulator (R380). -/
structure MemReq where
  /-- partition (R380). -/
  part : Nat := 0
  /-- cost in bytes (R380). -/
  cost : Nat := 0
  /-- a write-back that FLUSH asked for (R378). -/
  flush : Bool := false
  deriving DecidableEq, Repr

/-- One Plinth PL0 to PL19: slice, regulators, repair and its control block (R16, R388). -/
structure Plinth where
  /-- PLC_STAT.FLUSHING (R388). -/
  flushing : Bool := false
  /-- PLC_STAT.SCRUBBING (R388). -/
  scrubbing : Bool := false
  /-- Plinth cycles that the repair or retirement copy in progress may still take; PLC_STAT.REPAIRING while any are left (R372, R373,
  R388). -/
  copyLeft : Nat := 0
  /-- PLC_STAT.RATE (R388). -/
  rate : BitVec 4 := 0
  /-- PLC_STAT.QRATE (R388). -/
  qrate : BitVec 4 := 0
  /-- PLC_ECC.CE (R388). -/
  ce : BitVec 32 := 0
  /-- PLC_ECC.UE (R388). -/
  ue : BitVec 16 := 0
  /-- PLC_BP.SERVED of each partition (R388). -/
  served : Tab (BitVec 32) := []
  /-- bytes charged to each partition below one MiB (R388). -/
  servedB : Tab Nat := []
  /-- PLC_BP.CAPPED of each partition (R388). -/
  capped : Tab (BitVec 32) := []
  /-- bucket G of each regulator, in 32nds of a byte (R380). -/
  bktG : Tab Nat := []
  /-- bucket C of each regulator, in 32nds of a byte (R380). -/
  bktC : Tab Nat := []
  /-- media requests waiting, oldest first (R380). -/
  queue : List MemReq := []
  /-- round-robin position over partitions (R380). -/
  rr : Nat := 0
  /-- Plinth cycles of the current 1 us interval (R388). -/
  cyc : Nat := 0
  /-- partitions with a request that waited on bucket C in the interval (R388). -/
  waited : PSet := []
  /-- lines held by the slice (R374). -/
  slice : List SlLine := []
  /-- rows redirected to spare rows: channel, bank, row (R372). -/
  repaired : List (Nat × (Nat × Nat)) := []
  /-- spare rows used of each bank (R373). -/
  bankSpares : Tab Nat := []
  /-- retired 2 MiB frames, oldest first; one spare frame each of 64 (R373). -/
  retired : List Nat := []
  /-- the stack is trained (R363). -/
  trained : Bool := false
  /-- the stack is in self-refresh (R552). -/
  selfRef : Bool := false
  /-- doubled refresh (R576). -/
  boost : Bool := false
  /-- half service at 95 C or more (R576). -/
  hotHalf : Bool := false
  /-- corrected errors in the current hour after repairs (R595). -/
  hour : Nat := 0
  /-- rows with corrected sectors (channel, bank, row), and the PTP times of those of the last 24 hours, newest first (R595). -/
  rowCe : List ((Nat × (Nat × Nat)) × List Nat) := []
  /-- rows whose repair the firmware has asked for (R595). -/
  wants : List (Nat × (Nat × Nat)) := []
  /-- Patina: the newest 8 changes of the stack's rate, newest first: PTP time and new code (R29, R597). -/
  rateLog : List (Nat × Nat) := []
  /-- Patina: sectors corrected over the stack's life (R597). -/
  ceTot : Nat := 0
  /-- Patina: uncorrectable sectors over the stack's life (R597). -/
  ueTot : Nat := 0
  deriving DecidableEq, Repr

/-- Credit and receive-buffer state of one virtual channel of a port (R428). -/
structure VcSt where
  /-- credits held for the partner's buffer (R428). -/
  cred : Nat := 0
  /-- flits that the partner's buffer of the channel holds in all, its VCBUF (R428). -/
  cap : Nat := 0
  /-- flits held in the own receive buffer, oldest first (R428). -/
  buf : List (List Byte) := []
  /-- flits freed and not yet returned to the partner as credits (R423, R428). -/
  owed : Nat := 0
  deriving DecidableEq, Repr

/-- One packet that a port holds: as it is sent, as it came to the port, the port on which it arrived, and the CSEQ of the codeword that
its last flit went with (R437, R451). -/
structure PortPk where
  /-- the packet as it travels on this hop (R451). -/
  pk : Packet := {}
  /-- the packet as the port took it (R437). -/
  src : Packet := {}
  /-- the port on which it arrived; none for one of this device's own (R451). -/
  arr : Option Nat := none
  /-- CSEQ of the codeword with its last flit, once that is sent (R437). -/
  last : Option Nat := none
  deriving DecidableEq, Repr

/-- One link port LP0 to LP7 (R420, R430, R441). -/
structure Port where
  /-- role code of the PORT item (R440). -/
  role : Nat := 0
  /-- DATELINE (R440). -/
  dateline : Bool := false
  /-- CREDIT_TO us (R440). -/
  creditTo : Nat := 100
  /-- RETRYIV ms (R440). -/
  retryiv : Nat := 1000
  /-- DEGTHR (R440). -/
  degthr : Nat := 12800
  /-- transmit lane map; empty for identity (R440). -/
  txmap : List Nat := []
  /-- receive lane map; empty for identity (R440). -/
  rxmap : List Nat := []
  /-- transmit and receive inversion (R440). -/
  inv : Nat × Nat := (0, 0)
  /-- PEER key hashes (R440). -/
  peers : List (List Byte) := []
  /-- VCBUF (R440). -/
  vcbuf : List Nat := [6144, 6144, 6144, 6144]
  /-- LNK_STAT.STATE (R430). -/
  state : PortSt := .off
  /-- LNK_STAT.WIDTH (R441). -/
  width : BitVec 5 := 0
  /-- LNK_STAT.HEALTHY (R441). -/
  healthy : BitVec 20 := 0
  /-- logical lanes of the other direction that are healthy at the partner's receiver (R431, R434). -/
  txHealthy : BitVec 20 := 0
  /-- corrected symbols of each physical receive lane within 1 ms (R434). -/
  laneErr : Tab Nat := []
  /-- LNK_STAT.DOWNWHY (R441). -/
  downwhy : BitVec 4 := 0
  /-- LNK_PEER.FLEET (R441). -/
  pfleet : BitVec 6 := 0
  /-- LNK_PEER.SLOT (R441). -/
  pslot : BitVec 6 := 0
  /-- LNK_PEER.INCARN (R441). -/
  pinc : BitVec 16 := 0
  /-- LNK_PEER.ROLE (R441). -/
  prole : BitVec 3 := 0
  /-- LNK_PEER.VALID (R441). -/
  pvalid : Bool := false
  /-- LNK_PEER.IDHASH (R441). -/
  phash : BitVec 32 := 0
  /-- LNK_ERR.CORR (R441). -/
  corr : BitVec 32 := 0
  /-- LNK_ERR.UNCORR (R441). -/
  uncorr : BitVec 16 := 0
  /-- LNK_ERR.CRCBAD (R441). -/
  crcbad : BitVec 16 := 0
  /-- LNK_RETRY.REPLAYS (R441). -/
  replays : BitVec 32 := 0
  /-- LNK_RETRY.DEGRADES (R441). -/
  degrades : BitVec 16 := 0
  /-- LNK_RETRY.UPS (R441). -/
  ups : BitVec 16 := 0
  /-- CSEQ expected next (R426). -/
  rxNext : BitVec 10 := 0
  /-- a NAK is out and its CSEQ has not arrived (R426). -/
  nakPend : Bool := false
  /-- CSEQ of the next codeword sent (R422). -/
  txNext : BitVec 10 := 0
  /-- replay buffer: unacknowledged codewords, oldest first, with their replays in a row; the contents of up to 960 are kept (R427). -/
  replay : List TxCw := []
  /-- CSEQ of the newest codeword that the partner has acknowledged (R435). -/
  ackedTo : Option (BitVec 10) := none
  /-- control flits waiting for room in the replay buffer: CKIND and AUTH segment (R423, R427). -/
  ctlq : List (Nat × List Byte) := []
  /-- a codeword has been accepted since the link began: ACK is valid (R423). -/
  ackOk : Bool := false
  /-- a codeword has been accepted since the last ACK was sent (R423). -/
  ackDue : Bool := false
  /-- a NAK is to be sent (R426). -/
  nakDue : Bool := false
  /-- codewords sent since the last control flit (R424). -/
  sinceCtl : Nat := 0
  /-- bytes of the AUTH segments received since the handshake began (R423, R432). -/
  authIn : List Byte := []
  /-- VC0 to VC3 (R428). -/
  vcs : Tab VcSt := []
  /-- packets handed to the port and not yet acknowledged, oldest first (R437). -/
  txq : List PortPk := []
  /-- payload flits still to come of the packet being received, and its VC (R428). -/
  rxLeft : Nat × Nat := (0, 0)
  /-- own handshake nonce (R432). -/
  nonce : BitVec 256 := 0
  /-- peer's nonce (R432). -/
  pnonce : BitVec 256 := 0
  /-- HELLO received (R432). -/
  gotHello : Bool := false
  /-- CERT received (R432). -/
  gotCert : Bool := false
  /-- SHA-256 of the peer key in DER form (R433). -/
  peerKey : List Byte := []
  /-- the peer's chain verifies (R433). -/
  chainOk : Bool := false
  /-- peer's claimed fleet, slot, incarnation, role (R432). -/
  claims : Nat × (Nat × (Nat × Nat)) := (0, 0, 0, 0)
  /-- no attempt has failed since the port entered DOWN (R431). -/
  firstTry : Bool := true
  /-- consecutive handshake timeouts (R433). -/
  authTo : Nat := 0
  /-- credit timeouts in the last 60 s (R435). -/
  credTos : Nat := 0
  /-- a DRAIN waits for RETRAIN to end (R439). -/
  drainAfter : Bool := false
  /-- PKT_FORGED events within a second of the newest (R456). -/
  forged : Nat := 0
  /-- Patina Links section: lane, first recorded eye height, and eye height and width of the newest 32 trainings, newest first (R596,
R597). -/
  eye : List (Nat × (Nat × List (Nat × Nat))) := []
  /-- consecutive weak trainings of each lane (R596). -/
  weak : Tab Nat := []
  /-- Patina: quarantines of the port (R597). -/
  quars : Nat := 0
  deriving DecidableEq, Repr

/-- Source side of one flow (R454). -/
structure TxFlow where
  /-- SEQ of the next request (R454). -/
  nextSeq : Nat := 0
  /-- unacknowledged requests with their resend counts, oldest first, at most 256 (R454). -/
  unacked : List (Packet × Nat) := []
  /-- SEQ whose resend waits for RETRYDLY (R454). -/
  busyAt : Option Nat := none
  deriving DecidableEq, Repr

/-- Target side of one flow (R454). -/
structure RxFlow where
  /-- SEQ expected next (R454). -/
  expect : Nat := 0
  /-- responses of the 256 most recent requests (R454). -/
  kept : List (Nat × Packet) := []
  /-- a NAK was sent within the last 2 us (R454). -/
  naked : Bool := false
  deriving DecidableEq, Repr

/-- One slotted-add record being formed at the target (R320, R458). -/
structure AddRec where
  /-- GROUP (R320). -/
  group : Nat := 0
  /-- local address of the first byte of the whole record (R458). -/
  base : Nat := 0
  /-- local address of the piece that one packet carries (R448, R458). -/
  addr : Nat := 0
  /-- LEN (R458). -/
  len : Nat := 0
  /-- COUNT (R320). -/
  count : Nat := 0
  /-- TYPE 1 (R320). -/
  bf16 : Bool := false
  /-- SRCIDX expected next (R458). -/
  next : Nat := 0
  /-- running sum of the contributions folded so far (R458). -/
  sum : List Byte := []
  /-- poisoned words of the running sum (R232). -/
  sumPois : PSet := []
  /-- contributions held in ADDBUF, by SRCIDX (R458). -/
  held : List (Nat × (List Byte × PSet)) := []
  /-- SRCIDX and SEQ of the contributions of this cycle (R459). -/
  seen : List (Nat × Nat) := []
  /-- gradient window the record lies in (R398). -/
  window : Option Nat := none
  /-- TTOKEN, TCELL, TLCORE and poster of the contribution that completed it (R320). -/
  post : Nat × (Nat × (Nat × Nat)) := (0, 0, 0, 0)
  deriving DecidableEq, Repr

/-- One rendezvous name (R461, R462). -/
structure Rdv where
  /-- epoch (R462). -/
  epoch : Nat := 1
  /-- at the acting head: slots whose ARRIVE is held (R462). -/
  arrived : List Nat := []
  /-- this device has sent its ARRIVE (R462). -/
  sentArrive : Bool := false
  deriving DecidableEq, Repr

/-- One death declaration in progress at the acting head (R467). -/
structure Death where
  /-- dead slot (R466). -/
  slot : Nat := 0
  /-- new incarnation (R466). -/
  inc : Nat := 0
  /-- notified devices whose acknowledgement is missing, by fleet and slot; 4,096 and a number for the slots of that other fleet, which its
  own acting head gathers (R467). -/
  waitAck : List Nat := []
  /-- a device has said that it has completed the commit rendezvous of the step (R505). -/
  commit : Bool := false
  deriving DecidableEq, Repr

/-- One declaration of another fleet that the acting head of this one has passed on to its slots (R466, R467). -/
structure Relay where
  /-- dead slot, by fleet and slot (R466). -/
  flow : Nat := 0
  /-- new incarnation (R466). -/
  inc : Nat := 0
  /-- the head that declares, by fleet and slot (R466). -/
  frm : Nat := 0
  /-- slots of this fleet whose acknowledgement is missing (R467). -/
  waitAck : List Nat := []
  deriving DecidableEq, Repr

/-- One fill in progress at the acting head (R507). -/
structure Fill where
  /-- slot being filled (R507). -/
  slot : Nat := 0
  /-- spare number; 8 or more for a device named by the host (R507). -/
  spare : Nat := 0
  /-- key hash of the assigned device (R507). -/
  hash : List Byte := []
  /-- declared incarnation (R507). -/
  inc : Nat := 0
  /-- ATTACH, COPY, CHECK or READY (R507). -/
  phase : FillSt := .attach
  deriving DecidableEq, Repr

/-- The gallery engine and its GAL block (R470). -/
structure Gal where
  /-- GAL_ID.FLEET (R470). -/
  fleet : BitVec 6 := 0
  /-- GAL_ID.SLOT (R470). -/
  slot : BitVec 6 := 0
  /-- GAL_ID.INCARN (R470). -/
  incarn : BitVec 16 := 0
  /-- GAL_ID.ROLE (R470). -/
  role : BitVec 2 := 0
  /-- GAL_STATE.STATE (R470). -/
  state : GalSt := .standalone
  /-- GAL_STATE.ACTHEAD (R470). -/
  acthead : BitVec 6 := 0
  /-- GAL_STATE.NLIVE (R470). -/
  nlive : BitVec 7 := 0
  /-- GAL_LIVE (R470). -/
  live : BitVec 64 := 0
  /-- GAL_CNT.FORGED (R470). -/
  forged : BitVec 16 := 0
  /-- GAL_CNT.FENCED (R470). -/
  fencedCnt : BitVec 16 := 0
  /-- GAL_CNT.NOROUTE (R470). -/
  noroute : BitVec 16 := 0
  /-- GAL_CNT.RESENT (R470). -/
  resent : BitVec 16 := 0
  /-- route entries, keyed 64 x fleet + slot (R447). -/
  routes : Tab (BitVec 8) := []
  /-- incarnation table, keyed 64 x fleet + slot (R445). -/
  incs : Tab (BitVec 16) := []
  /-- flows sent, keyed 64 x fleet + slot (R454). -/
  tx : Tab TxFlow := []
  /-- flows received, keyed 65536 x (64 x fleet + slot) + incarnation (R454). -/
  rx : Tab RxFlow := []
  /-- slotted-add records (R458). -/
  adds : List AddRec := []
  /-- rendezvous by NAME (R461). -/
  rdvs : Tab Rdv := []
  /-- declarations in progress (R467). -/
  deaths : List Death := []
  /-- slots declared dead and not yet refilled, with their new incarnation (R505). -/
  deadSlots : List (Nat × Nat) := []
  /-- declarations of other fleets under way in this one (R467). -/
  relays : List Relay := []
  /-- at the acting head: key hash of the device assigned to a slot (R507). -/
  owners : Tab (List Byte) := []
  /-- at the acting head: filled slots whose mirrors are not yet free of stale lines (R512). -/
  exposed : PSet := []
  /-- HB intervals for which a slot still counts as heard (R465). -/
  hbLeft : Tab Nat := []
  /-- a live device has completed the commit rendezvous of the current step (R505). -/
  commitSeen : Bool := false
  /-- XCNT counts held: GROUP, expert, SRCIDX, count, source flow, TAG (R321). -/
  xchCnt : List (Nat × (Nat × (Nat × (Nat × (Nat × Nat))))) := []
  /-- rows landed per GROUP and expert owned here (R321). -/
  xchLanded : List (Nat × (Nat × Nat)) := []
  deriving DecidableEq, Repr

/-- Cycle state of one gradient window (R400). -/
structure GradW where
  /-- target addresses of the records reduced in this cycle (R400). -/
  doneLines : List Nat := []
  /-- bytes of the window reduced in this cycle (R400). -/
  reduced : Nat := 0
  /-- exact sum of squares m x 2^e; none once infinite or NaN (R401). -/
  acc : Option (Int × Int) := some (0, 0)
  /-- the sum is NaN (R401). -/
  nan : Bool := false
  /-- the sum is infinite (R401). -/
  inf : Bool := false
  /-- the cycle of the current step has ended (R401). -/
  ended : Bool := false
  /-- S_w of the cycle that ended (R401). -/
  lastS : BitVec 40 := 0
  /-- exact sum of the cycle that ended, for S_d (R401). -/
  lAcc : Option (Int × Int) := some (0, 0)
  /-- the sum of the cycle that ended is NaN (R401). -/
  lNan : Bool := false
  /-- the sum of the cycle that ended is infinite (R401). -/
  lInf : Bool := false
  deriving DecidableEq, Repr

/-- One record of the export FIFO (R407). -/
structure ExpRec where
  /-- KIND 0 DELTA, 1 GAP, 2 FULL, 3 REFUSAL, 4 ABORT (R407). -/
  kind : Nat := 0
  /-- local address bits [43:8] (R407). -/
  line : Nat := 0
  /-- highest line of a GAP (R407). -/
  hi : Nat := 0
  /-- lines dropped of a GAP (R407). -/
  count : Nat := 0
  /-- STAMP (R407). -/
  stamp : BitVec 32 := 0
  /-- nonzero XOR words (DELTA) or all words (FULL, REFUSAL) (R407). -/
  words : List (Nat × BitVec 64) := []
  /-- the data is poisoned (R414). -/
  pois : Bool := false
  /-- an open gap marker (R409). -/
  open_ : Bool := false
  /-- a double-bit error has made the record unusable (R410). -/
  bad : Bool := false
  /-- its header word cannot be read (R410). -/
  lost : Bool := false
  /-- where in the spill ring it lies while it is spilled (R408). -/
  ringAt : Option Nat := none
  deriving DecidableEq, Repr

/-- The export engine, gradient windows, mirrors and the EXP block (R418). -/
structure Exp where
  /-- EXP_CTRL.PAUSE (R418). -/
  pause : Bool := false
  /-- records, oldest first (EXP_STAT.QUEUED, GAPOPEN) (R408). -/
  fifo : List ExpRec := []
  /-- bytes of the head record already sent (R412). -/
  headSent : Nat := 0
  /-- an ABORT for the head record is to be sent (R412). -/
  aborting : Bool := false
  /-- EXP_STAT.LINKUP (R418). -/
  linkup : Bool := false
  /-- EXP_CNT.GAPS (R418). -/
  gaps : BitVec 32 := 0
  /-- EXP_CNT.DROPS (R418). -/
  drops : BitVec 16 := 0
  /-- EXP_CNT.NOEXP (R418). -/
  noexp : BitVec 16 := 0
  /-- EXP_ECC.CE (R418). -/
  ce : BitVec 32 := 0
  /-- EXP_ECC.UE (R418). -/
  ue : BitVec 16 := 0
  /-- bytes put into the spill ring since it was last empty (R408). -/
  spillPos : Nat := 0
  /-- the words of the head record have been read (R410). -/
  headRead : Bool := false
  /-- stale mirror lines, by local line address div 256 (R414). -/
  stale : PSet := []
  /-- MIR_STAT.STALE (R418). -/
  staleCnt : BitVec 40 := 0
  /-- stale mirror lines asked for and not yet answered (R415). -/
  asked : PSet := []
  /-- MIR_STAT.RESENT (R418). -/
  resentCnt : BitVec 24 := 0
  /-- bytes received of the export record that each source is sending, by flow (R414). -/
  rxPart : Tab (List Byte) := []
  /-- flows whose partly received record holds poison (R414). -/
  rxPois : PSet := []
  /-- entry of this device's refusal-list ring to be written next (the list itself lies in HBM) (R404). -/
  refPos : Nat := 0
  /-- entry of the mirror refusal-list ring of each source slot to be written next (R414). -/
  mirPos : Tab Nat := []
  /-- gradient windows by index (R400). -/
  wins : Tab GradW := []
  /-- S_d received, by slot (R402). -/
  normGot : Tab (BitVec 40) := []
  /-- slots whose S_d is held (R402). -/
  normHave : PSet := []
  /-- this device waits for the global norm (R402). -/
  normWait : Bool := false
  /-- GRED_STAT.DONE (R418). -/
  greDone : BitVec 16 := 0
  /-- GRED_STAT.FALLBACK (R418). -/
  greFb : Bool := false
  /-- the first record sent is a GAP over every EXPREG range (R413). -/
  afterReset : Bool := false
  /-- export paused by the death of the partner (R512). -/
  ward : Bool := false
  deriving DecidableEq, Repr

/-- The seal comparison of a STEP_END (R235): what each member has sent. -/
structure SealCmp where
  /-- step compared (R235). -/
  step : Nat := 0
  /-- 0 not begun here, 1 seals, 2 sub-seals, 3 line seals, 4 lines, 5 partner copies, 9 ended (R235). -/
  phase : Nat := 0
  /-- seals by slot, phase and index (R235). -/
  words : List (Nat × (Nat × (Nat × BitVec 64))) := []
  /-- line values by slot and line index, with poison (R236). -/
  lines : List (Nat × (Nat × (Bool × List Byte))) := []
  /-- partner copies by slot and line index; true where stale or absent (R236). -/
  copies : List (Nat × (Nat × (Bool × List Byte))) := []
  deriving DecidableEq, Repr

/-- Snapshots, restore and fills, and the SNP block (R516). -/
structure Snp where
  /-- lines that the last stamp check reported as corrupt (R405). -/
  corrupt : List Nat := []
  /-- SNP_STAT.STATE (R516). -/
  state : SnpSt := .idle
  /-- a TAKE is pending (R498). -/
  take : Bool := false
  /-- flash generation 0: STEP, record, range data (G0VALID, SNP_GEN0) (R499). -/
  gen0 : Option (Nat × (List Byte × Mem)) := none
  /-- flash generation 1 (G1VALID, SNP_GEN1) (R499). -/
  gen1 : Option (Nat × (List Byte × Mem)) := none
  /-- SNP_STAT.G0LOCK (R516). -/
  lock0 : Bool := false
  /-- SNP_STAT.G1LOCK (R516). -/
  lock1 : Bool := false
  /-- the older generation (R499). -/
  older : Nat := 0
  /-- flash snapshots since the last upload (R500). -/
  snapCnt : Nat := 0
  /-- generation being written; none for the store (R499). -/
  drainGen : Option Nat := none
  /-- STEP of the capture being drained (R499). -/
  drainStep : Nat := 0
  /-- record of the capture being drained (R497). -/
  drainRec : List Byte := []
  /-- a store drain is running (R499). -/
  pendingStore : Bool := false
  /-- generation being uploaded (R500). -/
  upGen : Option Nat := none
  /-- parts of an upload that the acting head has been sent and has not yet reported written (R500). -/
  upLeft : Nat := 0
  /-- restore in progress: source, generation, and 1 + the STEP that the command names, 0 where it names none (R501). -/
  restoring : Option (Nat × (Nat × Nat)) := none
  /-- whom the restore in progress answers: session, EPOCH, SEQ, the flow of a forwarded request plus 1, the role, OPCODE (R529). -/
  reply : List Nat := []
  /-- SNP_RCV.RSTATE (R516). -/
  rstate : RcvSt := .normal
  /-- fills in progress (SNP_RCV.FILLS, SNP_FILL) (R507). -/
  fills : List Fill := []
  /-- spares that have taken a slot or died in a fill (R507). -/
  usedSpares : List Nat := []
  /-- live slots that have completed the step restart (R511). -/
  restored : List Nat := []
  /-- this device is under a recovery of Losing a slot (R501). -/
  recovering : Bool := false
  /-- step receipts written (R238). -/
  receipts : List (List Byte) := []
  /-- seal comparison in progress (R235). -/
  cmp : Option SealCmp := none
  /-- counters since the previous receipt: RETRY_OK, MISMATCH, DCHK, points, POINT_MISMATCH, repaired (R238). -/
  rcCnt : List Nat := [0, 0, 0, 0, 0, 0]
  /-- receipt FLAGS bits 2 to 7 gathered since the previous receipt (R238). -/
  rcFlags : Nat := 0
  deriving DecidableEq, Repr

/-- One event record (R577). -/
structure EvRec where
  /-- PTP time (R577). -/
  time : BitVec 64 := 0
  /-- event code (R577). -/
  code : BitVec 16 := 0
  /-- severity (R577). -/
  sev : Nat := 0
  /-- source block kind (R577). -/
  kind : Nat := 0
  /-- source block instance (R577). -/
  inst : Nat := 0
  /-- location (R577). -/
  loc : Nat := 0
  /-- 12 data bytes (R630). -/
  data : List Byte := []
  /-- record index (R578). -/
  index : BitVec 32 := 0
  deriving DecidableEq, Repr

/-- One suppression window (R579). -/
structure SupWin where
  /-- event code (R579). -/
  code : BitVec 16 := 0
  /-- source kind (R579). -/
  kind : Nat := 0
  /-- source instance (R579). -/
  inst : Nat := 0
  /-- records of the window (R579). -/
  count : Nat := 0
  /-- records suppressed (R579). -/
  supp : Nat := 0
  deriving DecidableEq, Repr

/-- The event log and the EVT block (R577 to R579, R607). -/
structure Evt where
  /-- EVT_HEAD.NEXT (R607). -/
  next : BitVec 32 := 0
  /-- records in retained memory, newest first, at most 1,920 (EVT_WIN, EVT_OLDEST.RET) (R578). -/
  recs : List EvRec := []
  /-- records in the flash ring, newest first (EVT_OLDEST.FLASH) (R578). -/
  flash : List EvRec := []
  /-- EVT_SEV.SEEN (R607). -/
  seen : BitVec 5 := 0
  /-- EVT_SEV.SUPPR (R607). -/
  suppr : BitVec 32 := 0
  /-- open suppression windows (R579). -/
  wins : List SupWin := []
  deriving DecidableEq, Repr

/-- One TCD session (R524). -/
structure Session where
  /-- session id (R524). -/
  id : Nat := 0
  /-- port that holds it (R519). -/
  port : Nat := 0
  /-- OWNER role, else OBSERVER (R525). -/
  owner : Bool := false
  /-- SHA-256 of the host key (R525). -/
  key : List Byte := []
  /-- secret S, 32 B (R524). -/
  secret : List Byte := []
  /-- NH then ND (R524). -/
  nonces : List Byte := []
  /-- SESSION_CONFIRM has verified (R524). -/
  open_ : Bool := false
  /-- EPOCH (R527). -/
  epoch : Nat := 1
  /-- expected SEQ (R527). -/
  expect : Nat := 0
  /-- kept responses: SEQ, STATUS, payload; 64 most recent (R527). -/
  kept : List (Nat × (Nat × List Byte)) := []
  /-- SEQ of requests accepted and not finished (R527). -/
  queued : List Nat := []
  /-- REKEY was the last message of the epoch (R528). -/
  rekeyed : Bool := false
  /-- EVT_SUBSCRIBE minimum severity (R530). -/
  minSev : Option Nat := none
  /-- next NOTIFY SEQ (R530). -/
  nseq : Nat := 0
  /-- unacknowledged notifications: SEQ, record, resends, LOST; at most 256 (R530). -/
  notes : List (Nat × (EvRec × (Nat × Bool))) := []
  /-- the next NOTIFY sets LOST (R530). -/
  lost : Bool := false
  /-- a STATUS NAK has been sent (R527). -/
  naked : Bool := false
  deriving DecidableEq, Repr

/-- One RoCEv2 queue pair (R536, R537). -/
structure Qp where
  /-- T48 QPN (R537). -/
  qpn : Nat := 0
  /-- port (R537). -/
  port : Nat := 0
  /-- host QPN (R531). -/
  hqpn : Nat := 0
  /-- own PSN (R537). -/
  psn : Nat := 0
  /-- PSN expected from the peer (R531). -/
  hpsn : Nat := 0
  /-- PMTU code (R531). -/
  pmtu : Nat := 0
  /-- host GID (R531). -/
  gid : List Byte := []
  /-- Reset, Ready-to-Send or Error (R537). -/
  state : QpSt := .reset
  /-- STORE target of a requester QP (R540). -/
  store : Option Nat := none
  /-- rate in kb/s (requester) (R541). -/
  rate : Nat := 800000000
  /-- next byte offset of a WRITE in progress (R536). -/
  waddr : Nat := 0
  /-- R_Key of the WRITE in progress (R536). -/
  wkey : Nat := 0
  /-- WRITEs sent by a requester and not yet acknowledged: PSN, the flow that a forwarded one came from plus 1 or 0 for an own one, and the
  bytes (R540). -/
  out : List (Nat × (Nat × List Byte)) := []
  /-- RC retries of the oldest packet (R540). -/
  tries : Nat := 0
  /-- a CNP has been answered for this QP (R541). -/
  cnpOut : Bool := false
  /-- a CNP has halved the rate (R541). -/
  cnpIn : Bool := false
  deriving DecidableEq, Repr

/-- One Ethernet port ETH0, ETH1 or MGT (R519, R545). -/
structure Eth where
  /-- ETH_STAT.UP (R545). -/
  up : Bool := false
  /-- ETH_STAT.MODE (R545). -/
  mode : BitVec 3 := 0
  /-- ETH_CNT.DROP (R545). -/
  drop : BitVec 32 := 0
  /-- ETH_CNT.PAUSE (R545). -/
  pauseTx : BitVec 32 := 0
  /-- TCD_STAT.BADTAG (R545). -/
  badtag : BitVec 32 := 0
  /-- TCD_STAT.FWD (R545). -/
  fwd : BitVec 16 := 0
  /-- ROCE_STAT.CNP (R545). -/
  cnp : BitVec 32 := 0
  /-- priorities paused by received pause frames (R541). -/
  paused : BitVec 8 := 0
  /-- what waits for the end of a pause: its priority, oldest first (R541). -/
  held : List (Nat × Out) := []
  /-- TCD_AUTH_FAIL was logged within the last second (R523). -/
  authLogged : Bool := false
  deriving DecidableEq, Repr

/-- One RDMA request served through the fabric (R538). -/
structure RdmaOp where
  /-- T48 QPN (R538). -/
  qpn : Nat := 0
  /-- PSN of the request (R538). -/
  psn : Nat := 0
  /-- a READ (R538). -/
  read : Bool := false
  /-- window number (R539). -/
  window : Nat := 0
  /-- byte offset in the window (R539). -/
  off : Nat := 0
  /-- packets not yet answered: flow, SEQ, offset of their data (R538). -/
  need : List (Nat × (Nat × Nat)) := []
  /-- data received, by offset (R538). -/
  data : List (Nat × List Byte) := []
  /-- offset of poisoned data (R539). -/
  pois : Option Nat := none
  /-- kind of NAK to send, 0 for none: 2 Remote Access Error, 3 Remote Operational Error, 7 Invalid Request (R538). -/
  err : Nat := 0
  deriving DecidableEq, Repr

/-- One request of the host that waits for an earlier one of its session and target to finish (R527, R533). -/
structure Wait where
  /-- session id (R522). -/
  id : Nat := 0
  /-- EPOCH (R522). -/
  epoch : Nat := 0
  /-- SEQ (R522). -/
  seq : Nat := 0
  /-- the flow that a forwarded request came from plus 1; 0 for one received here (R532). -/
  frm : Nat := 0
  /-- OWNER role (R525). -/
  owner : Bool := false
  /-- OPCODE (R531). -/
  op : Nat := 0
  /-- payload (R531). -/
  payload : List Byte := []
  deriving DecidableEq, Repr

/-- Host attachment: sessions, queue pairs and forwarded requests (R524, R536, R532). -/
structure Hst where
  /-- TCD sessions (R524). -/
  sessions : List Session := []
  /-- next fresh session id (R524). -/
  nextId : Nat := 257
  /-- queue pairs not in Reset or in Error (R537). -/
  qps : List Qp := []
  /-- next T48 QPN (R537). -/
  nextQpn : Nat := 2
  /-- forwarded requests awaiting a TCDF response: session, EPOCH, SEQ, target, OPCODE (R532). -/
  fwds : List (Nat × (Nat × (Nat × (Nat × Nat)))) := []
  /-- requests that wait for an earlier one to finish, oldest first (R527, R533). -/
  waiting : List Wait := []
  /-- bytes received of the TCDF message that each source is sending, by flow (R448, R532). -/
  tcdfIn : Tab (List Byte) := []
  /-- RDMA requests served through the fabric and not yet answered (R538). -/
  rdma : List RdmaOp := []
  deriving DecidableEq, Repr

/-- The IEEE 1588 ordinary clock (R543, R544). -/
structure Ptp where
  /-- bit 63 of the time is clear (R544). -/
  everLock : Bool := false
  /-- bits [62:0] at the newest step of the clock (R544). -/
  base : BitVec 63 := 0
  /-- the newest Sync: sequence number, when it came, and when it left, once that is known (R543). -/
  sync : Option (Nat × (BitVec 63 × Option (BitVec 63))) := none
  /-- the Delay_Req that waits for its answer: sequence number and when it left (R543). -/
  req : Option (Nat × BitVec 63) := none
  /-- sequence number of the next Delay_Req (R543). -/
  nextReq : Nat := 0
  /-- PTP_STAT.LOCKED (R545). -/
  locked : Bool := false
  /-- PTP_STAT.OFFSET (R545). -/
  offset : BitVec 32 := 0
  deriving DecidableEq, Repr

/-- The reset controller: RST block, stages and straps (R547, R550, R605). -/
structure Rst where
  /-- RST_CAUSE (R605). -/
  cause : BitVec 12 := 1
  /-- release stage 1 to 7 in progress; 8 OPERATIONAL, 0 stopped at a failed stage (R550). -/
  stage : Nat := 1
  /-- class of the reset in progress or last finished (R12). -/
  cls : RstCls := .p
  /-- RST_BSTAT.LAST (R605). -/
  lastBlk : BitVec 8 := 0
  /-- RST_BSTAT.ACTIVE (R605). -/
  active : Bool := false
  /-- RST_BSTAT.TIMEDOUT (R605). -/
  timedOut : Bool := false
  /-- RST_BSTAT.POISONED (R605). -/
  poisoned : BitVec 16 := 0
  /-- RST_TRIP.KIND (R605). -/
  tripKind : BitVec 3 := 0
  /-- RST_TRIP.INSTANCE (R605). -/
  tripInst : BitVec 8 := 0
  /-- RST_TRIP.TEMP (R605). -/
  tripTemp : BitVec 8 := 0
  /-- RST_TRIP.PEND (R605). -/
  tripPend : Bool := false
  /-- BKUP0 to BKUP15 (R605). -/
  bkup : Tab (BitVec 64) := []
  /-- RMEM: the bytes that the management firmware keeps in retained memory besides the records, the boot count and LASTFAIL (R557,
R605). -/
  rmem : Mem := []
  /-- retained memory is valid (R557). -/
  rmemOk : Bool := true
  /-- BQTO (R570). -/
  bqto : BitVec 32 := 0x64
  /-- BOOT_STAT.BOOT_SRC (R570). -/
  bootSrc : BitVec 2 := 0
  /-- BOOT_STAT.CLK_MODE (R570). -/
  clkMode : BitVec 2 := 0
  /-- BOOT_STAT.OVR (R570). -/
  ovr : Bool := false
  /-- BOOT_STAT.BCOUNT, held in retained memory (R558). -/
  bcount : BitVec 2 := 0
  /-- boot count in the boot-journal sector (R558). -/
  journal : BitVec 2 := 0
  /-- BOOT_STAT.RECOVERY (R570). -/
  recovery : Bool := false
  /-- BOOT_STAT.LASTFAIL (R570). -/
  lastFail : BitVec 3 := 0
  /-- the stage has been retried once (R551). -/
  retried : Bool := false
  /-- the boot attempt has been counted (R558). -/
  counted : Bool := false
  /-- a mode-0 apply rides on this W reset (R50). -/
  modeApply : Bool := false
  /-- CLK_REF.REFOK (R606). -/
  refok : Bool := false
  /-- CLK_REF.LOCKED (R606). -/
  pll : Bool := false
  /-- the PLLs run from the on-module oscillator (R622). -/
  pllOsc : Bool := false
  /-- level of the BOOT_SRC contacts (R621). -/
  pinBoot : BitVec 2 := 0
  /-- level of the CLK_MODE contacts (R621). -/
  pinClk : BitVec 2 := 0
  /-- OVR_N is low (R621). -/
  pinOvr : Bool := false
  /-- level of the SLOT_ID contacts (R621). -/
  pinSlot : BitVec 6 := 0
  /-- blocks being asked to go idle, oldest first (R554). -/
  quiet : List Nat := []
  deriving DecidableEq, Repr

/-- Power states, supply monitor and hot-plug (R560 to R570). -/
structure Pwr where
  /-- PWR_STAT.STATE (R568). -/
  state : PwrSt := .active
  /-- the module is OFF (R568). -/
  off : Bool := true
  /-- PWR_STAT.SUPWARN (R570). -/
  supwarn : Bool := false
  /-- PWR_STAT.EN (R570). -/
  en : Bool := false
  /-- PWR_STAT.PWRGD (R570). -/
  pwrgd : Bool := false
  /-- PRSNT0_N low (R570). -/
  prsnt0 : Bool := false
  /-- PRSNT1_N low (R570). -/
  prsnt1 : Bool := false
  /-- PWR_STAT.RPHASE (R570). -/
  rphase : Nat := 0
  /-- PWR_CTRL.TARGET (R570). -/
  target : Bool := false
  /-- PWR_VIN.VIN (R570). -/
  vin : BitVec 16 := 0
  /-- PWR_VIN.VMIN (R570). -/
  vmin : BitVec 16 := 0xFFFF
  /-- lowest input of the warning in force (R562). -/
  warnMin : BitVec 16 := 0xFFFF
  /-- PWR_SUP.WARNS (R570). -/
  warns : BitVec 32 := 0
  /-- PWR_SUP.WARNLAST (R570). -/
  warnLast : BitVec 32 := 0
  /-- main rails on (R564). -/
  rails : Bool := false
  /-- rails held off by over-voltage (R560). -/
  ovHold : Bool := false
  /-- rails held off after a thermal trip (R618). -/
  tripHold : Bool := false
  /-- the 100 ms EN hold-off runs (R564). -/
  holdoff : Bool := false
  /-- an EN rising edge arrived during removal (R567). -/
  reinsert : Bool := false
  /-- power throttling in force (R576). -/
  throttle : Bool := false
  /-- I2C_ALERT THERM, SUPPLY, ERROR (R623). -/
  alert : BitVec 3 := 0
  /-- STANDBY entry in progress (R568). -/
  standbyIn : Bool := false
  deriving DecidableEq, Repr

/-- Management: firmware, ownership, surveys and the Patina (R572 to R600). -/
structure Mgmt where
  /-- FW_STAT.STATE (R600). -/
  fwState : FwSt := .idle
  /-- FW_STAT.REASON (R600). -/
  fwReason : BitVec 5 := 0
  /-- FW_STAT.SVNSTAGED (R600). -/
  svnStaged : BitVec 8 := 0
  /-- FW_STAT.SVNRUN (R600). -/
  svnRun : BitVec 8 := 0
  /-- FW_STAT.FUSECNT (R581). -/
  fuse : BitVec 7 := 0
  /-- management SRAM from byte 0: the firmware that runs (R572). -/
  running : List Byte := []
  /-- firmware staging area, 2 MiB (R572). -/
  stageB : Mem := []
  /-- OWN_STAGE, 512 B (R587). -/
  ownStage : Mem := []
  /-- firmware image in the SPI NOR (R574). -/
  image : List Byte := []
  /-- the image region is valid (R583). -/
  imageOk : Bool := true
  /-- SHA-256 of the running image (R588). -/
  fwMeas : List Byte := []
  /-- ownership record copy 0: epoch, key hash (empty for none) (R586). -/
  own0 : Nat × List Byte := (0, [])
  /-- ownership record copy 1 (R586). -/
  own1 : Nat × List Byte := (0, [])
  /-- identity record: serial, MAC addresses, certificate (R585). -/
  ident : List Byte := []
  /-- SHA-256 of the device identity public key (R585). -/
  idHash : List Byte := []
  /-- MGMT_STAT.SRAMCE (R600). -/
  sramce : BitVec 32 := 0
  /-- the processor is halted by an uncorrectable SRAM error (R573). -/
  halted : Bool := false
  /-- pending surveys of Plinth, link-port and I/O islands (R591). -/
  survOther : List Nat := []
  /-- hours since the last survey of each island (SURV_STAT.AGE) (R600). -/
  survHrs : Tab Nat := []
  /-- islands surveyed in the present round (R601). -/
  survCnt : Nat := 0
  /-- lowest margin found in the present round, 255 for none (R601). -/
  survLow : Nat := 255
  /-- kept response of the recovery loader: SEQ, status, payload (R584). -/
  trlpSeq : Option (Nat × (Nat × List Byte)) := none
  /-- offset that the next LOAD must carry (R584). -/
  trlpNext : Nat := 0
  /-- recovery loader IPv4: 0 none, 1 DHCP, 2 link-local (R584). -/
  loaderIp : Nat := 0
  /-- PAT_STAT.SEQ (R608). -/
  patSeq : BitVec 32 := 0
  /-- Patina copy to be written next (R597). -/
  patCopy : Nat := 0
  /-- PAT_STAT.VALID (R608). -/
  patVal : Bool := false
  /-- Patina totals: power-on hours, energy, resets, event counts, extremes, keyed by section field (R597). -/
  patTot : Tab Nat := []
  /-- event counts since the last Patina write, by event code (R599). -/
  patHour : Tab Nat := []
  /-- calendar buckets, newest first, at most 84: month, UNTIMED, counts (R598). -/
  patCal : List (Nat × (Bool × Tab Nat)) := []
  /-- Patina Thermal section: core-island maxima by die and 5 C bin, keyed 20 x die + bin (R597). -/
  patHist : Tab Nat := []
  /-- Patina extremes: lowest and highest reading plus 1, keyed 0 coolant inlet, 1 outlet, 16 + r rail voltage, 48 + r rail current
(R597). -/
  patExt : Tab (Nat × Nat) := []
  /-- Patina Survey section of the islands that are no cores: time and ring-oscillator frequency of the newest 52, newest first (R591,
R597). -/
  patRing : Tab (List (Nat × Nat)) := []
  /-- Patina Flash section: largest erase count of each region, and bad blocks at 3 (R597). -/
  patWear : Tab Nat := []
  /-- the ten sections of the copy in force, as numbers (R597). -/
  patSecs : List (List Nat) := []
  /-- 64 B summary of the copy in force (PAT_SUM) (R598). -/
  patSum : List Byte := []
  /-- flash bytes written (R596). -/
  wornAt : Nat := 0
  deriving DecidableEq, Repr

/-- One Fintil T48 module and the queue of commands that wait for it. -/
structure State where
  /-- commands waiting, first in first out (model). -/
  pending : List Instr := []
  /-- free values drawn so far: the MODEL's own field (model). -/
  free : Nat := 0
  /-- messages and pin changes sent, newest first: the MODEL's own field (model). -/
  out : List Out := []
  /-- C00 to C47 (R16). -/
  cores : Tab Core := []
  /-- cells 0 to 15 (R40). -/
  cells : Tab Cell := []
  /-- 1,440 GiB of HBM at its local addresses, the armature areas included (R364). -/
  hbm : Mem := []
  /-- poison map: poisoned 64 B sectors by local address div 64 (R370). -/
  hbmPois : PSet := []
  /-- Errors in sectors of the HBM media that no read has met yet (R369). -/
  mediaErr : List SectorErr := []
  /-- PL0 to PL19 (R16). -/
  plinths : Tab Plinth := []
  /-- LP0 to LP7 (R420). -/
  ports : Tab Port := []
  /-- ETH0, ETH1, MGT (R519). -/
  eths : Tab Eth := []
  /-- load engine and armature in force (R45). -/
  arm : ArmSt := {}
  /-- device-scope settings in force (R37). -/
  cfg : Cfg := {}
  /-- gallery engine (R470). -/
  gal : Gal := {}
  /-- export engine (R418). -/
  exp : Exp := {}
  /-- snapshots and recovery (R516). -/
  snp : Snp := {}
  /-- event log (R577). -/
  evt : Evt := {}
  /-- host attachment (R524). -/
  hst : Hst := {}
  /-- ordinary clock (R543). -/
  ptp : Ptp := {}
  /-- reset controller (R605). -/
  rst : Rst := {}
  /-- power (R570). -/
  pwr : Pwr := {}
  /-- management (R600). -/
  mgmt : Mgmt := {}
  /-- CAL_PT.POINTS (R609). -/
  calPoints : BitVec 32 := 0
  /-- CAL_PT.PMISS (R609). -/
  calPmiss : BitVec 32 := 0
  deriving DecidableEq, Repr

/-- The machine right after a P reset: every field at its default. -/
def State.reset : State := {}

/-- Why the machine stops. No command of this block stops the module: every event the specification describes
has an effect. The one constructor is kept for a device that the specification says does not exist. -/
inductive Fault where
  /-- Raised by no meaning; safe (a machine that stops proves nothing about the hardware). -/
  | absentUnit (name : String)
  deriving DecidableEq, Repr

/-- Why a command has no meaning here. -/
inductive Refusal where
  /-- The command of this mnemonic is not modelled; raised by a refused arm of `exec`; safe. -/
  | notModelled (mnemonic : String)
  deriving DecidableEq, Repr

end Sys2Proof.Machine
end

