-- ==== Sys2Proof/Machine/Ops.lean ====
section
/-! DEFINITION. The named operations over the parts of the state, what leaves by an Ethernet port, and the event log. -/
namespace Sys2Proof.Machine
open Sys2Proof

/-- The result of every meaning. -/
abbrev Res := Host.Outcome State Fault Refusal

/-! Parts of the state. -/

/-- A core. -/
def State.core (s : State) (n : Nat) : Core := tabGet {} s.cores n
/-- The state with a core replaced. -/
def State.setCore (s : State) (n : Nat) (c : Core) : State := { s with cores := tabSet {} s.cores n c }
/-- The state with a core changed. -/
def State.modCore (s : State) (n : Nat) (f : Core → Core) : State := s.setCore n (f (s.core n))
/-- A cell. -/
def State.cell (s : State) (n : Nat) : Cell := tabGet {} s.cells n
/-- The state with a cell replaced. -/
def State.setCell (s : State) (n : Nat) (c : Cell) : State := { s with cells := tabSet {} s.cells n c }
/-- The state with a cell changed. -/
def State.modCell (s : State) (n : Nat) (f : Cell → Cell) : State := s.setCell n (f (s.cell n))
/-- A Plinth. -/
def State.plinth (s : State) (n : Nat) : Plinth := tabGet {} s.plinths n
/-- The state with a Plinth changed. -/
def State.modPlinth (s : State) (n : Nat) (f : Plinth → Plinth) : State :=
  { s with plinths := tabMod {} s.plinths n f }
/-- A link port. -/
def State.port (s : State) (n : Nat) : Port := tabGet {} s.ports n
/-- The state with a link port changed. -/
def State.modPort (s : State) (n : Nat) (f : Port → Port) : State := { s with ports := tabMod {} s.ports n f }
/-- An Ethernet port. -/
def State.eth (s : State) (n : Nat) : Eth := tabGet {} s.eths n
/-- The state with an Ethernet port changed. -/
def State.modEth (s : State) (n : Nat) (f : Eth → Eth) : State := { s with eths := tabMod {} s.eths n f }
/-- An array of a core. -/
def Core.arr (c : Core) (a : Nat) : Arr := tabGet {} c.arrays a
/-- The core with an array changed. -/
def Core.modArr (c : Core) (a : Nat) (f : Arr → Arr) : Core := { c with arrays := tabMod {} c.arrays a f }
/-- The state with something sent (log entry 12). -/
def State.emit (s : State) (o : Out) : State := { s with out := o :: s.out }
/-- The state with several things sent, in order. -/
def State.emitAll (s : State) (os : List Out) : State := { s with out := os.reverse ++ s.out }
/-- The cell numbers. -/
def cellIds : List Nat := List.range 16
/-- The core numbers (R16). -/
def coreIds : List Nat := List.range 48

/-- A cell exists while the armature in force gives it cores (R40, R42). -/
def Cell.exists_ (c : Cell) : Bool := decide (c.mask ≠ 0)

/-- The cores of a cell in ascending order: logical core i is the i-th (R40). -/
def Cell.members (c : Cell) : List Nat := coreIds.filter (fun n => c.mask.getLsbD n)

/-- The cell a core belongs to. -/
def State.cellOf (s : State) (n : Nat) : Option Nat := cellIds.find? (fun k => (s.cell k).mask.getLsbD n)

/-- The logical number of a core in its cell. -/
def Cell.lcore (c : Cell) (n : Nat) : Nat := (c.members.findIdx? (· == n)).getD 0

/-- The physical core of a logical core (R40). -/
def Cell.pcore (c : Cell) (l : Nat) : Option Nat := c.members[l]?

/-! The event log (R577 to R579, R612, R629, R630). -/

/-- One data field of an event: the number of a block (R629), or a value of a width (R630). -/
inductive EvF where
  | core (n : Nat) | stack (n : Nat) | link (n : Nat) | eth (n : Nat) | cell (n : Nat)
  /-- An array or other location-only number. -/
  | arr (n : Nat)
  /-- A value of `w` bytes. -/
  | val (w n : Nat)
  deriving DecidableEq, Repr

/-- Block kind and instance that a field names (R629). -/
def EvF.source : EvF → Option (Nat × Nat)
  | .core n => some (0, n)
  | .stack n => some (1, n)
  | .link n => some (2, n)
  | .eth n => some (3, n)
  | .cell n => some (4, n)
  | _ => none

/-- The location number that a field names (R629). -/
def EvF.location : EvF → Option Nat
  | .core n => some n
  | .link n => some n
  | .eth n => some n
  | .cell n => some n
  | .arr n => some n
  | _ => none

/-- A field's bytes in the record (R630). -/
def EvF.bytes : EvF → List Byte
  | .stack n => leBytes 2 n
  | .val w n => leBytes w n
  | .core n | .link n | .eth n | .cell n | .arr n => leBytes 1 n

/-- The source of an event: block kind, instance, and the fields that did not give it, split at the source (R629). -/
def evSource (code : Nat) (fs : List EvF) : Nat × Nat × List EvF × Option (List EvF) :=
  let pre := fs.takeWhile (fun f => f.source.isNone)
  match fs.dropWhile (fun f => f.source.isNone) with
  | f :: rest => ((f.source.getD (5, 0)).1, (f.source.getD (5, 0)).2, pre, some rest)
  | [] =>
    let kind := if code / 256 = 0x61 ∨ code / 256 = 0x62 then 6
      else if code / 256 = 0x83 ∨ code = 0x7507 then 7 else 5
    (kind, 0, fs, none)

/-- The location of an event and the data fields that remain (R629, R630). -/
def evLocation (pre : List EvF) (rest : Option (List EvF)) : Nat × List EvF :=
  match rest with
  | none => (0, pre)
  | some r =>
    match r.dropWhile (fun f => f.location.isNone) with
    | f :: tail => (f.location.getD 0, pre ++ r.takeWhile (fun f => f.location.isNone) ++ tail)
    | [] => (0, pre ++ r)

/-- The data bytes: whole fields while they fit in 12 bytes, then zeros (R630). -/
def evPack : List EvF → List Byte → List Byte
  | [], acc => acc ++ List.replicate (12 - acc.length) 0
  | f :: r, acc =>
    if acc.length + f.bytes.length ≤ 12 then evPack r (acc ++ f.bytes)
    else acc ++ List.replicate (12 - acc.length) 0

/-- Codes of severity 4 (R612). -/
def sevCritical : List Nat :=
  [0x1102, 0x1103, 0x1403, 0x2101, 0x3303, 0x3305, 0x3306, 0x8409, 0x7503, 0x7403, 0x6205]

/-- Codes of severity 3: the faults of R472, the refusals of R121 and the events R612 names. -/
def sevError : List Nat :=
  [0x2201, 0x2202, 0x2203, 0x2204, 0x3201, 0x3302, 0x5102, 0x5103, 0x1301, 0x1302, 0x1303,
   0x5201, 0x5202, 0x5203, 0x5204, 0x5205, 0x5206, 0x5207, 0x5208, 0x5209, 0x520A, 0x520B, 0x520C, 0x520D, 0x520E,
   0x520F, 0x5210, 0x5211, 0x5212, 0x5213,
   0x5101, 0x7101, 0x7106, 0x1104, 0x1201, 0x8201, 0x8203, 0x8204, 0x8303, 0x8403, 0x5303, 0x5305, 0x3105, 0x2104,
   0x6104, 0x7201, 0x7202, 0x7302, 0x6106]

/-- Codes of severity 2 (R612). -/
def sevWarning : List Nat :=
  [0x1101, 0x1202, 0x1401, 0x1402, 0x1304, 0x1305, 0x1306, 0x2103, 0x2105, 0x2106, 0x2301, 0x2302,
   0x3102, 0x3103, 0x3104, 0x3106, 0x3107, 0x3202, 0x3203, 0x3204, 0x3205, 0x3301, 0x3304, 0x3307, 0x4101, 0x4301, 0x4302,
   0x6101, 0x6103, 0x6107, 0x6201, 0x6202, 0x6203, 0x6204, 0x7001, 0x7002, 0x7004, 0x7203, 0x7304, 0x7402, 0x7502, 0x7504,
   0x7506, 0x7507, 0x8101, 0x8102, 0x8302, 0x8404, 0x8405, 0x8407]

/-- The severity of an event code: the first row of R612 that names it, notice otherwise. -/
def sevOf (code : Nat) : Nat :=
  if sevCritical.contains code then 4
  else if sevError.contains code then 3
  else if sevWarning.contains code then 2
  else if code = 0x5104 ∨ code = 0x7003 then 0
  else 1

/-- A record's 32 bytes (R577). -/
def EvRec.bytes (r : EvRec) : List Byte :=
  leBytes 8 r.time.toNat ++ leBytes 2 r.code.toNat ++ leBytes 1 r.sev ++ leBytes 1 r.kind ++ leBytes 2 r.inst ++
    leBytes 2 r.loc ++ r.data ++ leBytes 4 r.index.toNat

/-- The PTP time now: the newest step of the clock and the nanoseconds since, a free value; and the state with the value drawn
(R544; log entry 7). -/
def State.timeNow (s : State) : BitVec 64 × State :=
  (BitVec.ofBool (!s.ptp.everLock) ++ (s.ptp.base + Config.clockNs s.free), { s with free := s.free + 1 })

/-! What leaves by an Ethernet port (R519, R522, R523, R541). -/

/-- The MAC address of a port: its PORT item's, or the manufacturing one (R519, R521, R585). -/
def State.mac (s : State) (port : Nat) : List Byte :=
  let it := bsub (tabGet [] s.cfg.ethModes port) 8 6
  if it = leBytes 6 0 then beBytes 6 (Config.identMac s.mgmt.ident + port) else it

/-- The IPv4 address of a port: its PORT item's, or the one that DHCP gives it (R519, R521). -/
def State.ip4 (s : State) (port : Nat) : List Byte :=
  let it := bsub (tabGet [] s.cfg.ethModes port) 16 4
  if it = leBytes 4 0 then Config.dhcpAddr port else it

/-- The IPv6 addresses of a port: the link-local one of its MAC address, and its PORT item's (R519, R521; log entry 64). -/
def State.ip6 (s : State) (port : Nat) : List (List Byte) :=
  let it := bsub (tabGet [] s.cfg.ethModes port) 24 16
  let m := s.mac port
  ([0xFE, 0x80] ++ leBytes 6 0 ++ [m.getD 0 0 ^^^ 2] ++ bsub m 1 2 ++ [0xFF, 0xFE] ++ bsub m 3 3) ::
    (if it = leBytes 16 0 then [] else [it])

/-- How a frame leaves a port: with the port's MAC address and VLAN id, a DSCP, and the ECT(0) mark while ECN is on, which only IP
packets carry (R519, R520, R521, R541). -/
def State.wire (s : State) (port dscp : Nat) : Wire :=
  { port := port, mac := s.mac port, vlan := bfld (tabGet [] s.cfg.ethModes port) 4 2 % 4096, dscp := dscp,
    ect := decide (s.cfg.qos.getD 4 0 % 2 = 1) }

/-- What is sent on a priority of a port: it waits while the priority is paused (R541). -/
def State.sendEth (s : State) (port prio : Nat) (o : Out) : State :=
  if (s.eth port).paused.getLsbD prio then s.modEth port (fun e => { e with held := e.held ++ [(prio, o)] }) else s.emit o

/-- Several things sent on a priority, in order. -/
def State.sendEthAll (s : State) (port prio : Nat) (os : List Out) : State := os.foldl (fun s o => s.sendEth port prio o) s

/-- The session key KS of an epoch (R524). -/
def Session.ks (ss : Session) (epoch : Nat) : List Byte :=
  hmac ss.secret (ascii "T48TCD" ++ ss.nonces ++ leBytes 4 epoch)

/-- The 32 B header of a message that this device sends, which names it as TFLEET and TSLOT (R522). -/
def State.outHeader (s : State) (op session epoch seq flags status len : Nat) : List Byte :=
  leBytes 2 0x0100 ++ leBytes 2 op ++ leBytes 4 session ++ leBytes 4 epoch ++ leBytes 4 seq ++ leBytes 1 s.gal.fleet.toNat ++
    leBytes 1 s.gal.slot.toNat ++ leBytes 1 flags ++ [0] ++ leBytes 2 len ++ leBytes 2 status ++ leBytes 8 0

/-- A TCD message from the TCDCFG port, under the session's key, or with a zero TAG where there is none (R522, R523). -/
def State.tcdOut (s : State) (port : Nat) (key : Option (List Byte)) (op session epoch seq flags status : Nat) (payload : List Byte) : Out :=
  let m := s.outHeader op session epoch seq flags status payload.length ++ payload
  .tcd (s.wire port (s.cfg.qos.getD 3 0)) s.cfg.tcdPort
    (m ++ match key with | some k => (hmac k m).take 16 | none => leBytes 16 0)

/-- A TCD message sent, on the priority of TCD traffic (R541). -/
def State.sendTcd (s : State) (port : Nat) (key : Option (List Byte)) (op session epoch seq flags status : Nat) (payload : List Byte) : State :=
  s.sendEth port (s.cfg.qos.getD 1 0) (s.tcdOut port key op session epoch seq flags status payload)

/-- The NOTIFY of one record in a session: LOST, then the record (R530; log entry 12). -/
def State.sendNote (s : State) (x : Session) (n : Nat × (EvRec × (Nat × Bool))) : State :=
  s.sendTcd x.port (some (x.ks x.epoch)) 0x0007 x.id x.epoch n.1 2 0 (leBytes 1 (b2n n.2.2.2) ++ n.2.1.bytes)

/-- Codes of which the host is told whatever their severity: CELL_PREEMPTED and RESTORE_DONE, and the failures of a restore (R530). -/
def alwaysTold : List Nat := [0x5302, 0x8202, 0x8203, 0x8204, 0x8201]

/-- A session's queue of notifications with one record more; past 256 the oldest is dropped and LOST is due (R530). -/
def Session.note (ss : Session) (r : EvRec) : Session :=
  match ss.minSev with
  | none => ss
  | some m =>
    if r.sev < m ∧ !alwaysTold.contains r.code.toNat then ss
    else
      let notes := ss.notes ++ [(ss.nseq, r, 0, ss.lost)]
      let ovf := decide (256 < notes.length)
      { ss with notes := if ovf then notes.drop 1 else notes, nseq := ss.nseq + 1, lost := ovf }

/-- A session is told of an event: it subscribes to the severity, or the event is one that the host is always told of (R530). -/
def Session.wants (x : Session) (r : EvRec) : Bool :=
  match x.minSev with
  | some m => decide (m ≤ r.sev) || alwaysTold.contains r.code.toNat
  | none => false

/-- The NOTIFY messages that a new record sends (R530). -/
def State.notify (s : State) (r : EvRec) : State :=
  (s.hst.sessions.filter (fun x => x.wants r)).foldl (fun s x => s.sendNote x (x.nseq, r, 0, x.lost)) s

/-- The I2C_ALERT bits that an event sets (R623). -/
def alertOf (code : Nat) (sev : Nat) : BitVec 3 :=
  (if code = 0x6201 ∨ code = 0x6202 ∨ code = 0x6204 then 1 else 0) |||
  (if code = 0x6101 ∨ code = 0x6203 then 2 else 0) |||
  (if 3 ≤ sev then 4 else 0)

/-- The count of a code and source in their suppression window goes up by one; a first record opens the window (R579). -/
def supCount (ws : List SupWin) (code kind inst : Nat) (supp : Bool) : List SupWin :=
  if ws.any (fun w => w.code.toNat == code && w.kind == kind && w.inst == inst) then
    ws.map (fun w => if w.code.toNat = code ∧ w.kind = kind ∧ w.inst = inst then
      { w with count := w.count + 1, supp := w.supp + b2n supp } else w)
  else ⟨BitVec.ofNat 16 code, kind, inst, 1, 0⟩ :: ws

/-- Records of the window so far (R579). -/
def supSeen (ws : List SupWin) (code kind inst : Nat) : Nat :=
  match ws.find? (fun w => w.code.toNat == code && w.kind == kind && w.inst == inst) with
  | some w => w.count
  | none => 0

/-- The state with one record stored: index, retained memory, severity bits, alerts and notifications. -/
def State.logRecord (s : State) (code kind inst loc : Nat) (data : List Byte) : State :=
  let (t, s) := s.timeNow
  let sev := sevOf code
  let r : EvRec := ⟨t, BitVec.ofNat 16 code, sev, kind, inst, loc, data, s.evt.next⟩
  let s := s.notify r
  { s with
    evt := { s.evt with next := s.evt.next + 1, recs := (r :: s.evt.recs).take 1920,
                        seen := s.evt.seen ||| BitVec.ofNat 5 (2 ^ sev) }
    hst := { s.hst with sessions := s.hst.sessions.map (·.note r) }
    pwr := { s.pwr with alert := s.pwr.alert ||| alertOf code sev } }

/-- The events that the Patina counts (R598): CAL_RETRY_OK, CAL_MISMATCH, DCHK_MISMATCH, POINT_MISMATCH, MEM_UE, MEM_REPAIR,
LNK_DEGRADE, SUPPLY_WARN, THERM_EVENT. -/
def patCounted : List Nat := [0x1101, 0x1102, 0x1103, 0x1201, 0x2101, 0x2102, 0x3103, 0x6101, 0x6201]

/-- The management's counts since the last Patina write, with one event more (R597, R598). -/
def Mgmt.count (g : Mgmt) (code : Nat) : Mgmt :=
  if patCounted.contains code then { g with patHour := tabMod 0 g.patHour code (· + 1) } else g

/-- An event: its record logged, or suppressed under R579; the Patina counts it either way. -/
def State.log (s : State) (code : Nat) (fs : List EvF) : State :=
  let s := { s with mgmt := s.mgmt.count code }
  let (kind, inst, pre, rest) := evSource code fs
  let (loc, dat) := evLocation pre rest
  if 3 ≤ sevOf code then s.logRecord code kind inst loc (evPack dat [])
  else
    let ovf := decide (64 ≤ supSeen s.evt.wins code kind inst)
    let s := { s with evt := { s.evt with wins := supCount s.evt.wins code kind inst ovf } }
    if ovf then { s with evt := { s.evt with suppr := satAdd s.evt.suppr 1 } }
    else s.logRecord code kind inst loc (evPack dat [])

/-! Core stores, tile registers and HBM with their poison marks (R231 to R233). -/

/-- Poison marks after a write: a poisoned write marks every unit it touches, an unpoisoned one clears the units it
overwrites completely. -/
def poisWrite (p : PSet) (unit a n : Nat) (b : Bool) : PSet :=
  if n = 0 then p
  else if b then psPutRange p (a / unit) ((a + n - 1) / unit + 1 - a / unit) true
  else psPutRange p (ceilDiv a unit) ((a + n) / unit - ceilDiv a unit) false

/-- Some unit that a range touches is poisoned. -/
def poisRead (p : PSet) (unit a n : Nat) : Bool :=
  if n = 0 then false else psAny p (a / unit) ((a + n - 1) / unit + 1 - a / unit)

/-- The core with bytes written to its core store. -/
def Core.write (c : Core) (a : Nat) (b : List Byte) (pois : Bool) : Core :=
  { c with store := memWrite c.store a b, storePois := poisWrite c.storePois 4 a b.length pois }

/-- Bytes of the core store. -/
def Core.read (c : Core) (a n : Nat) : List Byte := memRead c.store a n

/-- Poison in a range of the core store. -/
def Core.poisoned (c : Core) (a n : Nat) : Bool := poisRead c.storePois 4 a n

/-- The core with bytes written to its tile registers. -/
def Core.twrite (c : Core) (a : Nat) (b : List Byte) (pois : Bool) : Core :=
  { c with treg := memWrite c.treg a b, tregPois := poisWrite c.tregPois 4 a b.length pois }

/-- The errors of the media that a write of a range leaves: those of sectors it does not overwrite whole. -/
def dropErrs (es : List SectorErr) (a n : Nat) : List SectorErr :=
  es.filter (fun e => !decide (a ≤ e.addr / 64 * 64 ∧ e.addr / 64 * 64 + 64 ≤ a + n))

/-- HBM written at a local address. -/
def State.hbmWrite (s : State) (a : Nat) (b : List Byte) (pois : Bool) : State :=
  { s with hbm := memWrite s.hbm a b, hbmPois := poisWrite s.hbmPois 64 a b.length pois,
           mediaErr := dropErrs s.mediaErr a b.length }

/-- HBM read at a local address. -/
def State.hbmRead (s : State) (a n : Nat) : List Byte := memRead s.hbm a n

/-- Poison in a range of HBM. -/
def State.hbmPoisoned (s : State) (a n : Nat) : Bool := poisRead s.hbmPois 64 a n

end Sys2Proof.Machine
end

