-- ==== Sys2Proof/Machine/Flags.lean ====
section
/-! DEFINITION. Number formats, exact values, rounding and the FLAGS of chapter 3 (R57 to R86). -/
namespace Sys2Proof.Machine
open Sys2Proof

/-! FLAGS bits (R85). -/

/-- Invalid operation, or any NaN operand or result. -/
def fNV : Nat := 1
/-- Division by zero; log2 of zero. -/
def fDZ : Nat := 2
/-- Overflow or saturation. -/
def fOF : Nat := 4
/-- Underflow, or an E5M2 element changed under R64. -/
def fUF : Nat := 8
/-- Inexact. -/
def fNX : Nat := 16
/-- A reduction saw no unmasked element. -/
def fEMPTY : Nat := 32
/-- A slot index beyond the K-extent. -/
def fRANGE : Nat := 64
/-- PACK with TRIM dropped a nonzero. -/
def fTRIM : Nat := 128
/-- A soft-maximum row was fully masked. -/
def fALLMASK : Nat := 256
/-- A soft-maximum row held +infinity. -/
def fINFIN : Nat := 512
/-- An add exceeded the limit of R84. -/
def fLONGSUM : Nat := 1024
/-- An operand carried the poison mark. -/
def fPOISON : Nat := 2048

/-! Exact values. -/

/-- An exact value: NaN, an infinity, or (-1)^neg * m * 2^e. -/
inductive Xv where
  | nan
  | inf (neg : Bool)
  | fin (neg : Bool) (m : Nat) (e : Int)
  deriving DecidableEq, Repr

/-- Plus zero. -/
def Xv.zero : Xv := .fin false 0 0

/-- The value is NaN. -/
def Xv.isNan : Xv → Bool
  | .nan => true
  | _ => false

/-- The value is an infinity. -/
def Xv.isInf : Xv → Bool
  | .inf _ => true
  | _ => false

/-- The value is a zero of either sign. -/
def Xv.isZero : Xv → Bool
  | .fin _ 0 _ => true
  | _ => false

/-- The sign bit. -/
def Xv.neg : Xv → Bool
  | .nan => false
  | .inf n => n
  | .fin n _ _ => n

/-- The value with the sign bit replaced. -/
def Xv.withSign (b : Bool) : Xv → Xv
  | .nan => .nan
  | .inf _ => .inf b
  | .fin _ m e => .fin b m e

/-- The negated value. -/
def Xv.opp (x : Xv) : Xv := x.withSign (!x.neg)

/-- An integer times a power of two. -/
def Xv.ofInt (i e : Int) : Xv := .fin (decide (i < 0)) i.natAbs e

/-- The integers a and b and the exponent e with x = a * 2^e and y = b * 2^e, for two finite values. -/
def alignPair (n1 : Bool) (m1 : Nat) (e1 : Int) (n2 : Bool) (m2 : Nat) (e2 : Int) : Int × Int × Int :=
  let e := min e1 e2
  let a : Int := (m1 * 2 ^ (e1 - e).toNat : Nat)
  let b : Int := (m2 * 2 ^ (e2 - e).toNat : Nat)
  (if n1 then -a else a, if n2 then -b else b, e)

/-- The exact sum under the IEEE 754 rules; an exact zero sum of values that are not both negative zero is +0 (R76). -/
def Xv.add : Xv → Xv → Xv
  | .nan, _ => .nan
  | _, .nan => .nan
  | .inf a, .inf b => if a = b then .inf a else .nan
  | .inf a, _ => .inf a
  | _, .inf b => .inf b
  | .fin n1 m1 e1, .fin n2 m2 e2 =>
    let (a, b, e) := alignPair n1 m1 e1 n2 m2 e2
    if a + b = 0 then .fin (n1 && n2) 0 0 else .ofInt (a + b) e

/-- The exact product; infinity times zero is NaN. -/
def Xv.mul : Xv → Xv → Xv
  | .nan, _ => .nan
  | _, .nan => .nan
  | .inf a, .inf b => .inf (a != b)
  | .inf a, .fin n m _ => if m = 0 then .nan else .inf (a != n)
  | .fin n m _, .inf a => if m = 0 then .nan else .inf (a != n)
  | .fin n1 m1 e1, .fin n2 m2 e2 => .fin (n1 != n2) (m1 * m2) (e1 + e2)

/-- The exact difference. -/
def Xv.sub (x y : Xv) : Xv := x.add y.opp

/-- An order key for comparisons of values that are not NaN: x < y. -/
def Xv.lt : Xv → Xv → Bool
  | .nan, _ => false
  | _, .nan => false
  | .inf a, .inf b => a && !b
  | .inf a, .fin _ _ _ => a
  | .fin _ _ _, .inf b => !b
  | .fin n1 m1 e1, .fin n2 m2 e2 => let (a, b, _) := alignPair n1 m1 e1 n2 m2 e2; decide (a < b)

/-- Equality of values: zeros of both signs are equal, NaN equals nothing. -/
def Xv.eqv : Xv → Xv → Bool
  | .nan, _ => false
  | _, .nan => false
  | x, y => !(x.lt y) && !(y.lt x)

/-- floor(log2 |x|) of a nonzero finite value. -/
def floorLog2 (m : Nat) (e : Int) : Int := (Nat.log2 m : Int) + e

/-! Floating-point formats (R57, R61). -/

/-- A binary format of R73: significand width p, minimum normal exponent, maximum exponent, and storage width. -/
structure Fmt where
  /-- Significand width. -/
  p : Nat
  /-- Exponent field width. -/
  eb : Nat
  deriving DecidableEq, Repr

/-- FP32. -/
def fp32 : Fmt := ⟨24, 8⟩
/-- W40 (R61). -/
def w40 : Fmt := ⟨32, 8⟩
/-- BF16. -/
def bf16 : Fmt := ⟨8, 8⟩

/-- Exponent bias. -/
def Fmt.bias (f : Fmt) : Int := 2 ^ (f.eb - 1) - 1
/-- Smallest normal exponent. -/
def Fmt.emin (f : Fmt) : Int := 1 - f.bias
/-- Width in bits. -/
def Fmt.width (f : Fmt) : Nat := f.eb + f.p

/-- The value that an encoding stands for (subnormals are held, R60). -/
def Fmt.dec (f : Fmt) (v : Nat) : Xv :=
  let frac := v % 2 ^ (f.p - 1)
  let ex := v / 2 ^ (f.p - 1) % 2 ^ f.eb
  let neg := bit v (f.width - 1)
  if ex = 2 ^ f.eb - 1 then (if frac = 0 then .inf neg else .nan)
  else if ex = 0 then .fin neg frac (f.emin - (f.p - 1 : Nat))
  else .fin neg (frac + 2 ^ (f.p - 1)) ((ex : Int) - f.bias - (f.p - 1 : Nat))

/-- The canonical NaN (R62). -/
def Fmt.nan (f : Fmt) : Nat := (2 ^ f.eb - 1) * 2 ^ (f.p - 1) + 2 ^ (f.p - 2)

/-- The encoding of a representable magnitude n * 2^u, where n has at most p bits or equals 2^p. -/
def Fmt.encMag (f : Fmt) (neg : Bool) (n : Nat) (u : Int) : Nat :=
  let (n, u) := if n = 2 ^ f.p then (2 ^ (f.p - 1), u + 1) else (n, u)
  let s := b2n neg * 2 ^ (f.width - 1)
  if n = 0 then s
  else if n < 2 ^ (f.p - 1) then s + n
  else s + (u + (f.p - 1 : Nat) + f.bias).toNat * 2 ^ (f.p - 1) + (n - 2 ^ (f.p - 1))

/-- The encoding of an infinity. -/
def Fmt.encInf (f : Fmt) (neg : Bool) : Nat := b2n neg * 2 ^ (f.width - 1) + (2 ^ f.eb - 1) * 2 ^ (f.p - 1)

/-- floor, and whether anything was lost, of m * 2^d. -/
def shiftFloor (m : Nat) (d : Int) : Nat × Bool :=
  if 0 ≤ d then (m * 2 ^ d.toNat, false)
  else (m / 2 ^ (-d).toNat, decide (m % 2 ^ (-d).toNat ≠ 0))

/-- Round half to even of m * 2^d. -/
def shiftRne (m : Nat) (d : Int) : Nat × Bool :=
  if 0 ≤ d then (m * 2 ^ d.toNat, false)
  else
    let k := (-d).toNat
    let q := m / 2 ^ k
    let r := m % 2 ^ k
    (if 2 * r > 2 ^ k ∨ (2 * r = 2 ^ k ∧ q % 2 = 1) then q + 1 else q, decide (r ≠ 0))

/-- Finish a rounding to n units of 2^u: overflow to infinity, and the flags of R73 and R74. -/
def Fmt.finish (f : Fmt) (neg : Bool) (n : Nat) (u : Int) (inexact tiny : Bool) : Nat × Nat :=
  let umax := f.bias - (f.p - 1 : Nat)
  if u > umax ∨ (u = umax ∧ 2 ^ f.p ≤ n) then (f.encInf neg, fOF ||| fNX)
  else (f.encMag neg n u, (if inexact then fNX else 0) ||| (if inexact && tiny then fUF else 0))

/-- The unit exponent at which a value is rounded. -/
def Fmt.unit (f : Fmt) (m : Nat) (e : Int) : Int := max (floorLog2 m e) f.emin - (f.p - 1 : Nat)

/-- rne: nearest, ties to even (R73): encoding and flags. -/
def Fmt.rne (f : Fmt) : Xv → Nat × Nat
  | .nan => (f.nan, fNV)
  | .inf n => (f.encInf n, 0)
  | .fin neg m e =>
    if m = 0 then (f.encMag neg 0 0, 0)
    else
      let u := f.unit m e
      let (n, ix) := shiftRne m (e - u)
      f.finish neg n u ix (decide (floorLog2 m e < f.emin))

/-- sr_round: up in magnitude when r is below the discarded fraction truncated to 32 bits (R74). -/
def Fmt.srRound (f : Fmt) (r : Nat) : Xv → Nat × Nat
  | .nan => (f.nan, fNV)
  | .inf n => (f.encInf n, 0)
  | .fin neg m e =>
    if m = 0 then (f.encMag false 0 0, 0)
    else
      let u := f.unit m e
      let (n, ix) := shiftFloor m (e - u)
      let (t, _) := shiftFloor m (e - u + 32)
      let fr := t % 2 ^ 32
      f.finish neg (if r < fr then n + 1 else n) u ix (decide (floorLog2 m e < f.emin))

/-! ctr_hash (R75). -/

/-- A 32-bit word rotated left. -/
def rotl32 (x : BitVec 32) (k : Nat) : BitVec 32 := x.rotateLeft k

/-- One round of ctr_hash. -/
def ctrRound (i : Nat) (q : BitVec 32 × BitVec 32 × BitVec 32 × BitVec 32) :
    BitVec 32 × BitVec 32 × BitVec 32 × BitVec 32 :=
  let (a, b, c, d) := q
  let a := a + b + BitVec.ofNat 32 i
  let d := rotl32 (d ^^^ a) 16
  let c := c + d
  let b := rotl32 (b ^^^ c) 12
  let a := a + b
  let d := rotl32 (d ^^^ a) 8
  let c := c + d
  let b := rotl32 (b ^^^ c) 7
  (a, b, c, d)

/-- The 32 random bits of one rounding (R75). -/
def ctrHash (seed : BitVec 64) (step id row col k : Nat) : Nat :=
  let a := seed.extractLsb' 0 32 ^^^ BitVec.ofNat 32 step
  let b := seed.extractLsb' 32 32 ^^^ BitVec.ofNat 32 id
  let c := BitVec.ofNat 32 (row % 65536 * 65536 + col % 65536) ^^^ 0x6A09E667#32
  let d := BitVec.ofNat 32 k ^^^ 0xBB67AE85#32
  let (a, b, c, d) := ctrRound 3 (ctrRound 2 (ctrRound 1 (ctrRound 0 (a, b, c, d))))
  (a ^^^ b ^^^ c ^^^ d).toNat

/-- The rounding key of one instruction: seed, step and logical id (R75 to R77). -/
structure Key where
  /-- CELL_SEED. -/
  seed : BitVec 64
  /-- Step number. -/
  step : Nat
  /-- Logical instruction id. -/
  id : Nat
  deriving DecidableEq, Repr

/-- The random bits for coordinates (row, col) and index k. -/
def Key.bits (q : Key) (row col k : Nat) : Nat := ctrHash q.seed (q.step % 2 ^ 32) q.id row col k

/-- The logical instruction id (R77). -/
def logicalId (lcore stream ord : Nat) : BitVec 32 :=
  BitVec.ofNat 32 (lcore * 2 ^ 26 + stream % 8 * 2 ^ 23 + ord % 2 ^ 23)

/-! MX formats (R58 to R64, R277). -/

/-- A minifloat format: exponent bits, fraction bits, bias. -/
structure Mini where
  /-- Exponent bits. -/
  eb : Nat
  /-- Fraction bits. -/
  mb : Nat
  /-- Bias. -/
  bias : Int
  deriving DecidableEq, Repr

/-- The minifloat of a format code of R277 (E4M3, E5M2, E3M2, E2M3, E2M1). -/
def miniOf (fmt : Nat) : Option Mini :=
  match fmt with
  | 2 => some ⟨4, 3, 7⟩
  | 3 => some ⟨5, 2, 15⟩
  | 4 => some ⟨3, 2, 3⟩
  | 5 => some ⟨2, 3, 1⟩
  | 6 => some ⟨2, 1, 1⟩
  | _ => none

/-- The code is an MX format. -/
def isMx (fmt : Nat) : Bool := decide (2 ≤ fmt ∧ fmt ≤ 7)
/-- The code is an MX8 format in the sense of R89: MXFP8, MXFP6 or MXINT8. -/
def isMx8 (fmt : Nat) : Bool := decide (fmt = 2 ∨ fmt = 3 ∨ fmt = 4 ∨ fmt = 5 ∨ fmt = 7)

/-- Width of an element code in bits. -/
def elemBits (fmt : Nat) : Nat :=
  match fmt with
  | 2 => 8 | 3 => 8 | 4 => 6 | 5 => 6 | 6 => 4 | 7 => 8 | 0 => 32 | 1 => 16 | 8 => 40 | _ => 8

/-- The value of an MX element, without its scale (R58); MXINT8 is i * 2^-6. -/
def elemVal (fmt c : Nat) : Xv :=
  match miniOf fmt with
  | none => .ofInt (sInt 8 c) (-6)
  | some f =>
    let frac := c % 2 ^ f.mb
    let ex := c / 2 ^ f.mb % 2 ^ f.eb
    let neg := bit c (f.eb + f.mb)
    if fmt = 2 ∧ ex = 15 ∧ frac = 7 then .nan
    else if fmt = 3 ∧ ex = 31 then (if frac = 0 then .inf neg else .nan)
    else if ex = 0 then .fin neg frac (1 - f.bias - (f.mb : Nat))
    else .fin neg (frac + 2 ^ f.mb) ((ex : Int) - f.bias - (f.mb : Nat))

/-- Exponent of the integer unit of a format (R58); E5M2's is per block. -/
def unitExp (fmt : Nat) : Int :=
  match fmt with
  | 2 => -9 | 4 => -4 | 5 => -3 | 6 => -1 | 7 => -6 | _ => 0

/-- The integer of a finite value at the unit 2^q, rounded half to even; special elements count as 0 (R60, R64, R69). -/
def toUnit (x : Xv) (q : Int) : Int × Bool :=
  match x with
  | .fin neg m e => let (n, ix) := shiftRne m (e - q); (if neg then -(n : Int) else n, ix)
  | _ => (0, false)

/-- Exponent that R64 gives an E5M2 element: a subnormal counts as -14; none for zeros and specials. -/
def e5m2Exp (c : Nat) : Option Int :=
  match elemVal 3 c with
  | .fin _ m e => if m = 0 then none else some (max (floorLog2 m e) (-14))
  | _ => none

/-- The block unit q of a block of element codes (R60, R64). -/
def blockUnit (fmt : Nat) (cs : List Nat) : Int :=
  if fmt = 3 then
    match (cs.filterMap e5m2Exp).foldl (fun m x => match m with | none => some x | some y => some (max x y)) none with
    | some t => t - 17
    | none => 0
  else unitExp fmt

/-- The E8M0 scale exponent (R59). -/
def scaleExp (s : Nat) : Int := (s : Int) - 127

/-- Conversion parameters of R63 for a destination format: exponent of the largest normal element, fraction bits,
minimum normal exponent, largest finite value as (m, e). -/
def mxParams (fmt : Nat) : Int × Nat × Int × (Nat × Int) :=
  match fmt with
  | 2 => (8, 3, -6, (14, 5))
  | 3 => (15, 2, -14, (7, 13))
  | 4 => (4, 2, -2, (7, 2))
  | 5 => (2, 3, 0, (15, -1))
  | 6 => (2, 1, 0, (3, 1))
  | _ => (0, 6, 0, (127, -6))

/-- The element code of a magnitude n * 2^u on the grid of the format. -/
def encElem (fmt : Nat) (neg : Bool) (n : Nat) (u : Int) : Nat :=
  match miniOf fmt with
  | none => sNat 8 (if neg then -(n : Int) else n)
  | some f =>
    let (n, u) := if n = 2 ^ (f.mb + 1) then (2 ^ f.mb, u + 1) else (n, u)
    let s := b2n neg * 2 ^ (f.eb + f.mb)
    if n < 2 ^ f.mb then s + n
    else s + (u + (f.mb : Nat) + f.bias).toNat * 2 ^ f.mb + (n - 2 ^ f.mb)

/-- n * 2^u exceeds m * 2^e. -/
def magGt (n : Nat) (u : Int) (m : Nat) (e : Int) : Bool :=
  let d := min u e
  decide (m * 2 ^ (e - d).toNat < n * 2 ^ (u - d).toNat)

/-- One element converted against the block exponent X: code and flags (R63, R85). A saturated element has changed its value; an
INT8 element below the unit is below the smallest normal (log entry 62). The random bits select sr_round. -/
def mxElem (fmt : Nat) (x : Int) (r : Option Nat) (v : Xv) : Nat × Nat :=
  let (_, mb, emin, (mm, me)) := mxParams fmt
  let sat (neg : Bool) : Nat := encElem fmt neg (if fmt = 7 then 127 else mm) me
  match v with
  | .nan => (0, fNV)
  | .inf neg => (sat neg, fOF ||| fNX)
  | .fin neg m e =>
    if m = 0 then (encElem fmt (neg && r.isNone) 0 (if fmt = 7 then -6 else emin - (mb : Nat)), 0)
    else
      let e := e - x
      let u := if fmt = 7 then -6 else max (floorLog2 m e) emin - (mb : Nat)
      let (n, ix) := match r with
        | none => shiftRne m (e - u)
        | some r =>
          let (n, ix) := shiftFloor m (e - u)
          let (t, _) := shiftFloor m (e - u + 32)
          (if r < t % 2 ^ 32 then n + 1 else n, ix)
      if magGt n u mm me then (sat neg, fOF ||| fNX)
      else (encElem fmt neg n u,
            (if ix then fNX else 0) ||| (if ix && decide (floorLog2 m e < (if fmt = 7 then -6 else emin)) then fUF else 0))

/-- floor(log2) of the largest magnitude of a block; an infinity counts as the largest finite source value, given by
its exponent (R63). -/
def maxLog2 (srcMax : Int) (vs : List Xv) : Option Int :=
  vs.foldl (fun a v =>
    let e := match v with
      | .inf _ => some srcMax
      | .fin _ m e => if m = 0 then none else some (floorLog2 m e)
      | .nan => none
    match a, e with
    | none, e => e
    | a, none => a
    | some a, some e => some (max a e)) none

/-- A block of values converted to an MX format: element codes, scale byte and flags (R62, R63). `r` gives the random
bits of element i where the instruction selects stochastic rounding. -/
def mxBlock (fmt : Nat) (vs : List Xv) (r : Nat → Option Nat) : List Nat × Nat × Nat :=
  if vs.any Xv.isNan then
    (vs.map (fun _ => if fmt = 2 ∨ fmt = 3 then 0x7F else 0), 0xFF, fNV)
  else
    match maxLog2 127 vs with
    | none => (vs.map (fun _ => 0), 0, 0)
    | some l =>
      let x := max (-127) (min 127 (l - (mxParams fmt).1))
      let es := vs.zipIdx.map (fun (v, i) => mxElem fmt x (r i) v)
      (es.map Prod.fst, (x + 127).toNat, es.foldl (fun a e => a ||| e.2) 0)

/-! Element storage (R279). -/

/-- Bytes of a run of n elements in the core store. -/
def elemBytes (fmt n : Nat) : Nat := if fmt = 6 then n / 2 else if elemBits fmt ≤ 8 then n else n * (elemBits fmt / 8)

/-- Element i of a byte run (R279): FP4 two per byte with the even element low, FP6 in bits [5:0]. -/
def elemAt (fmt : Nat) (b : List Byte) (i : Nat) : Nat :=
  match fmt with
  | 6 => (b.getD (i / 2) 0).toNat / 16 ^ (i % 2) % 16
  | 4 | 5 => (b.getD i 0).toNat % 64
  | 2 | 3 | 7 => (b.getD i 0).toNat
  | 1 => bfld b (2 * i) 2
  | 8 => bfld b (5 * i) 5
  | _ => bfld b (4 * i) 4

/-- Element codes stored (R279). -/
def packElems (fmt : Nat) (cs : List Nat) : List Byte :=
  match fmt with
  | 6 => (List.range (cs.length / 2)).map (fun i =>
      BitVec.ofNat 8 (cs.getD (2 * i) 0 % 16 + cs.getD (2 * i + 1) 0 % 16 * 16))
  | 4 | 5 => cs.map (fun c => BitVec.ofNat 8 (c % 64))
  | 2 | 3 | 7 => cs.map (fun c => BitVec.ofNat 8 c)
  | 1 => cs.flatMap (leBytes 2)
  | 8 => cs.flatMap (leBytes 5)
  | _ => cs.flatMap (leBytes 4)

/-! The exact block product (R66 to R72). -/

/-- One operand block of 32 (or 16) elements as the datapath sees it: values, integers, unit and scale exponents, scale
NaN, and the flags of the E5M2 conversion. -/
structure Blk where
  /-- Element values without scale, as the conversion of R64 left them, for the special rules of R69. -/
  vals : List Xv
  /-- Integer forms. -/
  ints : List Int
  /-- Unit exponent q plus scale exponent. -/
  exp : Int
  /-- The scale is NaN. -/
  nanScale : Bool
  /-- UF and NX of elements that R64 changed. -/
  flags : Nat
  deriving DecidableEq, Repr

/-- An MX block from element codes and a scale byte. -/
def mkBlk (fmt : Nat) (cs : List Nat) (scale : Nat) : Blk :=
  let vals := cs.map (elemVal fmt)
  let q := blockUnit fmt cs
  let us := vals.map (fun v => toUnit v q)
  ⟨(vals.zip us).map (fun (v, t) => match v with | .fin n _ _ => if t.1 = 0 then .fin n 0 0 else v | _ => v),
   us.map Prod.fst, q + scaleExp scale, decide (scale = 0xFF),
   if us.any Prod.snd then fUF ||| fNX else 0⟩

/-- The special result of R69 for pairs of values, in the order of its table. -/
def specialSum (ps : List (Xv × Xv)) (nanScale : Bool) : Option (Xv × Nat) :=
  if nanScale || ps.any (fun p => p.1.isNan || p.2.isNan) then some (.nan, fNV)
  else if ps.any (fun p => (p.1.isInf && p.2.isZero) || (p.1.isZero && p.2.isInf)) then some (.nan, fNV)
  else
    let infs := ps.filter (fun p => p.1.isInf || p.2.isInf)
    match infs with
    | [] => none
    | p :: _ =>
      let sg := p.1.neg != p.2.neg
      if infs.any (fun q => (q.1.neg != q.2.neg) != sg) then some (.nan, fNV) else some (.inf sg, 0)

/-- tree_sum: the fixed pairwise tree; on exact integers it is the mathematical sum (R67). -/
def treeSum (xs : List Int) : Int := xs.foldl (· + ·) 0

/-- The tree output T of R68: the exact sum of the integer products, with an error of the datapath (R211; log entry 12). -/
def treeOut (x w : Blk) (err : Int := 0) : Int := treeSum ((x.ints.zip w.ints).map (fun p => p.1 * p.2)) + err

/-- The block sum B of R68 and R69: FP32 encoding and flags. -/
def blockSum (x w : Blk) (err : Int := 0) : Nat × Nat :=
  match specialSum (x.vals.zip w.vals) (x.nanScale || w.nanScale) with
  | some (.nan, fl) => (fp32.nan, fl)
  | some (.inf n, fl) => (fp32.encInf n, fl)
  | some (v, fl) => ((fp32.rne v).1, fl)
  | none =>
    let t := treeOut x w err
    if t = 0 then (0, 0) else fp32.rne (.ofInt t (x.exp + w.exp))

/-- Truncate the magnitude of an exact finite value toward zero to units of 2^u. -/
def truncTo (u : Int) : Xv → Int × Bool
  | .fin neg m e => let (n, ix) := shiftFloor m (e - u); (if neg then -(n : Int) else n, ix)
  | _ => (0, false)

/-- The truncated tree of R72 before step 4: the sum of the products in units of 2^u, u, and whether a bit was cut off. An error of
the datapath is in those units (log entry 12). -/
def bf16Tree (ps : List (Xv × Xv)) (err : Int) : Int × Int × Bool :=
  let pr := ps.map (fun p => p.1.mul p.2)
  match maxLog2 0 pr with
  | none => (err, 0, false)
  | some hi =>
    let ts := pr.map (truncTo (hi - 47))
    (treeSum (ts.map Prod.fst) + err, hi - 47, ts.any Prod.snd)

/-- The truncated BF16 block of 16 products (R72): FP32 encoding and flags. -/
def bf16Block (xs ws : List Nat) (err : Int := 0) : Nat × Nat :=
  let ps := (xs.map bf16.dec).zip (ws.map bf16.dec)
  match specialSum ps false with
  | some (.nan, fl) => (fp32.nan, fl)
  | some (.inf n, fl) => (fp32.encInf n, fl)
  | some (v, fl) => ((fp32.rne v).1, fl)
  | none =>
    let (t, u, ix) := bf16Tree ps err
    let (b, fl) := if t = 0 then (0, 0) else fp32.rne (.ofInt t u)
    (b, fl ||| (if ix then fNX else 0))

/-- The format of an accumulator (R107). -/
def accFmtOf (w : Bool) : Fmt := if w then Machine.w40 else fp32

/-- One accumulator add (R76): the new element and flags. -/
def accAdd (f : Fmt) (acc b r : Nat) : Nat × Nat :=
  f.srRound r ((f.dec acc).add (fp32.dec b))

/-- OR of flags. -/
def orFlags (fs : List Nat) : Nat := fs.foldl (· ||| ·) 0

end Sys2Proof.Machine
end

