-- ==== Sys2Proof/Machine/Operands.lean ====
section
/-! DEFINITION. The instruction word, its verification, the reading of blocks and the ranges of operands
(R275 to R294, R309 to R312, R329, R353). -/
namespace Sys2Proof.Machine
open Sys2Proof

/-! Word fields (R275). -/

/-- Bits [hi:lo] of an instruction word. -/
def wf (w : BitVec 128) (hi lo : Nat) : Nat := bits w.toNat hi lo
/-- DELTA. -/
def wDelta (w : BitVec 128) : Nat := wf w 127 112
/-- OPC. -/
def wOpc (w : BitVec 128) : Nat := wf w 111 104
/-- MOD. -/
def wMod (w : BitVec 128) : Nat := wf w 103 96
/-- WAIT0. -/
def wWait0 (w : BitVec 128) : Nat := wf w 95 88
/-- WAIT1. -/
def wWait1 (w : BitVec 128) : Nat := wf w 87 80
/-- POST. -/
def wPost (w : BitVec 128) : Nat := wf w 79 72
/-- Modifier bit i. -/
def wModBit (w : BitVec 128) (i : Nat) : Bool := bit (wMod w) i
/-- OPX (R292). -/
def wOpx (w : BitVec 128) : Nat := wf w 103 100

/-- The opcodes of the array products: MMA, CONV, SMMA, TSP, SGRAD (R308). -/
def isProduct (opc : Nat) : Bool := decide (0x10 ≤ opc ∧ opc ≤ 0x14)

/-- The word is a LINK member of a broadcast group (R90, R280). -/
def isLink (w : BitVec 128) : Bool := isProduct (wOpc w) && wModBit w 3

/-- The streams that an opcode may stand in (R308, R311); NOP may stand in any. -/
def opcStream (opc : Nat) : Option Nat :=
  if isProduct opc ∨ opc = 0x18 ∨ opc = 0xB1 then some 0
  else if opc = 0x20 then some 1
  else if (0x30 ≤ opc ∧ opc ≤ 0x33) ∨ (0x38 ≤ opc ∧ opc ≤ 0x3C) then some 2
  else if (0x40 ≤ opc ∧ opc ≤ 0x4C) ∨ (0x50 ≤ opc ∧ opc ≤ 0x58) ∨ (0x5A ≤ opc ∧ opc ≤ 0x63) ∨ opc = 0x68 ∨ opc = 0x69
    then some 3
  else if (0x80 ≤ opc ∧ opc ≤ 0x85) ∨ (0x90 ≤ opc ∧ opc ≤ 0x94) ∨ opc = 0xB0 then some 4
  else if 0xA0 ≤ opc ∧ opc ≤ 0xA3 then some 5
  else none

/-- A source descriptor whose code fields are assigned: form 0 to 2, an assigned format code, zero reserved bits (R293). -/
def srcAssigned (d : Nat) : Bool :=
  match bits d 15 14 with
  | 0 => decide (bits d 8 5 ≤ 8 ∧ bits d 4 0 = 0)
  | 1 => true
  | 2 => decide (bits d 3 0 ≤ 13)
  | _ => false

/-- The sources that a V1 opcode uses: SA, SB, SC (R294). -/
def v1Uses (opc : Nat) : Bool × Bool × Bool :=
  if opc = 0x43 then (true, true, true)
  else if opc = 0x40 ∨ opc = 0x41 ∨ opc = 0x42 ∨ opc = 0x44 ∨ opc = 0x45 ∨ (0x49 ≤ opc ∧ opc ≤ 0x4C) then (true, true, false)
  else (true, false, false)

/-- The opcode takes a scalar source B (R294). -/
def v1Scalar (opc : Nat) : Bool := (v1Uses opc).2.1

/-- The values OPX may take in a V1 opcode (R294). -/
def opxOk (opc x : Nat) : Bool :=
  if opc = 0x5A ∨ opc = 0x5B then decide (x ≤ 5)
  else if opc = 0x5D then decide (x ≤ 7)
  else if opc = 0x5F then decide (4 ≤ x ∧ x ≤ 13)
  else decide (x = 0)

/-- The DT value that a V1 opcode requires, none where it is free (R294). -/
def dtOk (opc d : Nat) : Bool :=
  if (0x49 ≤ opc ∧ opc ≤ 0x4B) ∨ opc = 0x5A ∨ opc = 0x5B ∨ opc = 0x5D ∨ opc = 0x5F then decide (d = 0)
  else if opc = 0x5E then decide (d = 1)
  else true

/-- A V1 word's code fields (R276, R292 to R294). -/
def v1Ok (w : BitVec 128) : Bool :=
  let opc := wOpc w
  let bscal := wModBit w 2
  let (_, ub, uc) := v1Uses opc
  !(wModBit w 3) && opxOk opc (wOpx w) && dtOk opc (wf w 53 53) &&
  (if opc = 0x5F then bscal else (!bscal || v1Scalar opc)) &&
  !((opc == 0x4C || opc == 0x5D) && wModBit w 0) && !(opc == 0x5D && wf w 52 48 != 0) &&
  srcAssigned (wf w 47 32) &&
  (bscal ||
    ((if ub then srcAssigned (wf w 31 16) else decide (wf w 31 16 = 0)) &&
     (if uc then srcAssigned (wf w 15 0) else decide (wf w 15 0 = 0))))

/-- The code fields of a word are assigned and its reserved bits zero (R276), for the opcode's layout. -/
def wordCodes (w : BitVec 128) : Bool :=
  let opc := wOpc w
  let m := wMod w
  if opc = 0x01 then decide (m = 0 ∧ wf w 71 0 = 0)
  else if isProduct opc then decide (m < 16 ∧ wf w 65 63 ≤ 4 ∧ wf w 62 61 ≤ 2)
  else if opc = 0x18 then decide (m < 64 ∧ wf w 65 63 ≤ 4 ∧ wf w 62 61 ≤ 2 ∧ wf w 60 57 ≤ 8)
  else if opc = 0x20 then decide (m < 64 ∧ bits m 4 3 ≠ 3 ∧ wf w 9 9 = 0)
  else if opcStream opc = some 2 then
    decide (wf w 52 0 = 0 ∧ (if opc = 0x3B then m < 4 else if opc = 0x32 then m < 2 else m = 0))
  else if (0x40 ≤ opc ∧ opc ≤ 0x5B) ∨ (0x5D ≤ opc ∧ opc ≤ 0x5F) then v1Ok w
  else if opc = 0x5C then decide (wf w 34 0 = 0 ∧ bits m 3 2 = 0 ∧ wOpx w < 8)
  else if opc = 0x68 then decide (bits m 3 2 = 0 ∧ wOpx w = 0 ∧ wf w 71 54 = 0 ∧ wf w 34 0 = 0)
  else if opc = 0x60 then decide (bits m 3 2 = 0 ∧ wOpx w = 0 ∧ wf w 34 32 = 0)
  else if opc = 0x61 ∨ opc = 0x62 then decide (bits m 3 2 = 0 ∧ wOpx w ≤ 1 ∧ wf w 10 0 = 0)
  else if opc = 0x63 then decide (bits m 3 2 = 0 ∧ wOpx w = 0 ∧ wf w 10 0 = 0)
  else if opc = 0x69 then decide (bits m 3 2 = 0 ∧ wOpx w ≤ 2 ∧ wf w 34 32 = 0 ∧ wf w 15 0 = 0) && srcAssigned (wf w 31 16)
  else if opcStream opc = some 4 then
    decide (wf w 52 0 = 0 ∧ (if opc = 0x80 ∨ opc = 0x85 then m < 8 else m = 0))
  else if opc = 0xA0 then decide (m < 4 ∧ wf w 71 0 = 0)
  else if opc = 0xA1 then decide (m = 0 ∧ wf w 32 0 = 0 ∧ 1 ≤ wf w 48 41 ∧ 1 ≤ wf w 40 33)
  else if opc = 0xA2 then decide (m = 0 ∧ wf w 53 0 = 0 ∧ wf w 71 70 ≤ 1 ∧ (wf w 71 70 = 0 → wf w 69 54 = 0))
  else if opc = 0xA3 then decide (m = 0 ∧ wf w 39 0 = 0)
  else if opc = 0xB1 then decide (m = 0 ∧ wf w 69 0 = 0)
  else false

/-- A word that verification accepts in a stream (R276). -/
def wordOk (stream : Nat) (w : BitVec 128) : Bool :=
  (wOpc w == 1 || opcStream (wOpc w) == some stream) && wordCodes w

/-! Refusals and blocks. -/

/-- An event code with its data: why an instruction is refused (R121). -/
abbrev Refuse := Nat × List EvF

/-- OPND_BAD (R278, R307). -/
def opndBad (opc reason : Nat) : Refuse := (0x520C, [.val 2 opc, .val 1 reason])

/-- A parameter event whose data is the opcode and the field number (R627). -/
def paramBad (code opc field : Nat) : Refuse := (code, [.val 2 opc, .val 2 field])

/-- A parameter event whose data is the field number alone. -/
def fieldBad (code field : Nat) : Refuse := (code, [.val 2 field])

/-- Bytes of a core store (R31). -/
def storeSize : Nat := 20971520

/-- A block of the core store read once, at issue: range, alignment and poison in this order (R278). -/
def rdBlock (co : Core) (opc a n align : Nat) : Except Refuse (List Byte) :=
  if storeSize < a + n then .error (opndBad opc 1)
  else if a % align ≠ 0 then .error (opndBad opc 2)
  else if co.poisoned a n then .error (opndBad opc 3)
  else .ok (co.read a n)

/-- A check that answers a refusal where it fails. -/
def chk (ok : Bool) (r : Refuse) : Except Refuse Unit := if ok then .ok () else .error r

/-- The first failing check of a list, in its order. -/
def chkAll : List (Bool × Refuse) → Except Refuse Unit
  | [] => .ok ()
  | (ok, r) :: t => if ok then chkAll t else .error r

/-- Two ranges share a byte. -/
def overlaps (a n b m : Nat) : Bool := decide (0 < n ∧ 0 < m ∧ a < b + m ∧ b < a + n)

/-- A range lies in the core store. -/
def inStore (a n : Nat) : Bool := decide (a + n ≤ storeSize)

/-- Start of the completion-record area (R329). -/
def ringBase : Nat := 0x13E8000

/-- A destination range: in the core store, outside the completion records, the pointing window and the bounce buffer
(R329, R353). -/
def dstOk (c : Cell) (a n : Nat) : Bool :=
  inStore a n && !overlaps a n ringBase 0x18000 && !overlaps a n c.pwin 4096 &&
  (match c.bounce with | none => true | some b => !overlaps a n b 4194304)

/-- Bytes that a block must hold zero: the offset of the first nonzero byte outside the listed fields (R291, R312). -/
def firstNonzero (b : List Byte) (used : List (Nat × Nat)) : Option Nat :=
  (List.range b.length).find? (fun i =>
    !(used.any (fun u => decide (u.1 ≤ i ∧ i < u.1 + u.2))) && decide (b.getD i 0 ≠ 0))

/-- Field checks in ascending field number, with the zero bytes of the block among them (R278, R291, R627). -/
def blockChecks (b : List Byte) (used : List (Nat × Nat)) (fs : List (Nat × Bool)) : Option Nat :=
  let bad := (fs.filter (fun f => !f.2)).map Prod.fst
  let bad := match firstNonzero b used with | some i => i :: bad | none => bad
  bad.foldl (fun m x => match m with | none => some x | some y => some (min x y)) none

/-- The tile size of an MCODE (R280, R626). -/
def mOfCode (c : Nat) : Nat := match c with | 1 => 16 | 2 => 32 | 3 => 64 | _ => 128

/-- M and accumulator format of a word in layout A or D, the defaults taken from ACCFMT (R107, R280). -/
def accShape (c : Cell) (w : BitVec 128) : Nat × Bool :=
  let mc := if wf w 65 63 = 0 then c.accM else wf w 65 63
  let af := if wf w 62 61 = 0 then c.accFmt else wf w 62 61
  (mOfCode mc, decide (af = 2))

/-- The layout code of M (R111). -/
def codeOfM (m : Nat) : Nat := match m with | 16 => 1 | 32 => 2 | 64 => 3 | _ => 4

/-- Bytes of an accumulator element. -/
def accW (w40 : Bool) : Nat := if w40 then 5 else 4

/-- Tiles that a half holds (R105). -/
def tilesOf (m : Nat) (w40 : Bool) : Nat := if m = 128 ∧ w40 then 0 else 524288 / (m * 1024 * accW w40)

/-- Address of element (m, n) of tile t in the RAM (R106). -/
def accAddr (t mm : Nat) (w40 : Bool) (m n : Nat) : Nat :=
  t / 8 * 524288 + (t % 8 * mm * 1024 + m * 1024 + n) * accW w40

/-- The half of an array that a tile lies in. -/
def Arr.half (a : Arr) (t : Nat) : Half := if t / 8 = 0 then a.h0 else a.h1

/-- The half holds an OPEN or ENDED tile (R107). -/
def Arr.halfBusy (a : Arr) (t : Nat) : Bool :=
  (List.range 8).any (fun i => decide ((tabGet {} a.tiles (t / 8 * 8 + i)).st ≠ .free))

/-- The tile checks of R107 for an accumulating instruction or a DRAIN. -/
def tileCheck (a : Arr) (an t m : Nat) (w40 : Bool) : Except Refuse Unit :=
  let h := a.half t
  chkAll [
    (decide (t % 8 < tilesOf m w40), (0x5201, [.arr an, .val 1 t, .val 4 m, .val 4 (if w40 then 2 else 1)])),
    (!(a.halfBusy t) || (decide (h.m = codeOfM m) && (h.w40 == w40)),
      (0x5202, [.arr an, .val 1 t, .val 4 (h.m + 16 * b2n h.w40)]))]

/-- An accumulator element as stored. -/
def Arr.elem (a : Arr) (t mm : Nat) (w40 : Bool) (m n : Nat) : Nat :=
  leNat (memRead a.ram (accAddr t mm w40 m n) (accW w40))

/-- An accumulator element carries a poison mark. -/
def Arr.elemPois (a : Arr) (t mm : Nat) (w40 : Bool) (m n : Nat) : Bool :=
  poisRead a.pois 4 (accAddr t mm w40 m n) (accW w40)

end Sys2Proof.Machine
end

