-- ==== Sys2Proof/Machine/Slices.lean ====
section
/-! DEFINITION. The local address map, the home stack of an address, the slices with their media requests, and the errors of the
media (R362 to R379). -/
namespace Sys2Proof.Machine
open Sys2Proof

/-! The local address map (R364). -/

/-- End of the mappable HBM. -/
def hbmEnd : Nat := 0x167E0000000
/-- Base of the core-store windows. -/
def csBase : Nat := 0xC0000000000
/-- Bytes of one core-store window. -/
def csWin : Nat := 0x2000000

/-- The core whose window an address lies in. -/
def csCore (a : Nat) : Option Nat := if csBase ≤ a then some ((a - csBase) / csWin) else none

/-- XOR of the four bytes of a 32-bit value (R366). -/
def foldX (x : Nat) : Nat := bits x 7 0 ^^^ bits x 15 8 ^^^ bits x 23 16 ^^^ bits x 31 24

/-- The stack and the stack address of a local HBM address (R366). -/
def Cfg.stackOf (c : Cfg) (a : Nat) : Nat × Nat :=
  let k := a / (20 * 2 ^ 30)
  let o := a % (20 * 2 ^ 30)
  if c.nearmap.getLsbD k then
    let d := o / (5 * 2 ^ 30)
    let g := o % (5 * 2 ^ 30) / 256
    (5 * d + (g % 5 + foldX (g / 5) % 5) % 5, k * 2 ^ 30 + g / 5 * 256 + o % 256)
  else
    let g := o / 256
    ((g % 20 + foldX (g / 20) % 20) % 20, k * 2 ^ 30 + g / 20 * 256 + o % 256)

/-- The local HBM address of an address of a stack: the inverse of both maps (R366). -/
def Cfg.localOf (c : Cfg) (st sa : Nat) : Nat :=
  let k := sa / 2 ^ 30
  let q := sa % 2 ^ 30 / 256
  if c.nearmap.getLsbD k then
    k * (20 * 2 ^ 30) + st / 5 * (5 * 2 ^ 30) + (5 * q + (st % 5 + (5 - foldX q % 5)) % 5) * 256 + sa % 256
  else k * (20 * 2 ^ 30) + (20 * q + (st + (20 - foldX q % 20)) % 20) * 256 + sa % 256

/-- The partition of a physical access (R379). -/
def Cfg.physPart (c : Cfg) (a : Nat) : Nat :=
  match c.pranges.find? (fun r => decide (r.1 ≤ a ∧ a < r.2.1)) with
  | some r => r.2.2
  | none => 0

/-- The partition's settings (R382). -/
def Cfg.part (c : Cfg) (p : Nat) : PartCfg := tabGet {} c.parts p

/-! Errors of the media (R369, R371, R390). -/

/-- A row has shown an uncorrectable sector, or its fourth corrected one within 24 hours: the firmware asks for its repair (R595). -/
def Plinth.wantRepair (p : Plinth) (row : Nat × (Nat × Nat)) : Plinth :=
  if p.wants.contains row then p else { p with wants := p.wants ++ [row] }

/-- A corrected sector of a row at a time (R369, R595). -/
def Plinth.corrected (p : Plinth) (row : Nat × (Nat × Nat)) (t : Nat) : Plinth :=
  let old := ((p.rowCe.find? (fun e => e.1 == row)).map Prod.snd).getD []
  let ts := t :: old.filter (fun x => decide (t < x + 86400000000000))
  let p := { p with ce := satAdd p.ce 1, ceTot := p.ceTot + 1, hour := p.hour + 1,
                    rowCe := (row, ts) :: p.rowCe.filter (fun e => !(e.1 == row)) }
  if 4 ≤ ts.length then p.wantRepair row else p

/-- An uncorrectable sector of a row (R369, R595). -/
def Plinth.uncorrected (p : Plinth) (row : Nat × (Nat × Nat)) : Plinth :=
  { p with ue := satAdd p.ue 1, ueTot := p.ueTot + 1 }.wantRepair row

/-- One sector found in error: corrected, or miscorrected into other bytes, and counted; or poisoned, counted and logged with its
source (R369). -/
def State.sectorErr (s : State) (src : Nat) (e : SectorErr) : State :=
  let (st, sa) := s.cfg.stackOf e.addr
  if e.ue then
    let s := { s with hbmPois := psAdd s.hbmPois (e.addr / 64) }
    let s := s.modPlinth st (fun p => p.uncorrected (Config.rowOf sa))
    s.log 0x2101 [.stack st, .val 8 sa, .val 1 src]
  else
    let (t, s) := s.timeNow
    { s with hbm := memWrite s.hbm (e.addr / 64 * 64) (e.mis.take 64) }.modPlinth st (fun p =>
      p.corrected (Config.rowOf sa) (t.toNat % 2 ^ 63))

/-- Errors that have arisen in sectors of the media and that no read has met yet. -/
def State.decay (s : State) (es : List SectorErr) : State := { s with mediaErr := s.mediaErr ++ es }

/-- The errors that an access of the media meets (source 0 read, 1 patrol, 2 copy), each met once (R369). -/
def State.meet (s : State) (src : Nat) (p : SectorErr → Bool) : State :=
  (s.mediaErr.filter p).foldl (fun s e => s.sectorErr src e) { s with mediaErr := s.mediaErr.filter (fun e => !p e) }

/-! Slices (R374, R375, R379). -/

/-- The set of a line in its slice (log entry 10). -/
def Cfg.setOf (c : Cfg) (line : Nat) : Nat := (c.stackOf line).2 / 256 % 12288

/-- A media request waits at the partition's regulator (R380). -/
def Plinth.ask (p : Plinth) (part cost : Nat) : Plinth := { p with queue := p.queue ++ [{ part := part, cost := cost }] }

/-- Sectors 0 to 3 of a line that a byte range touches. -/
def lineSecs (line lo hi : Nat) : List Nat :=
  (List.range 4).filter (fun i => decide (lo < line + 64 * (i + 1) ∧ line + 64 * i < hi))

/-- Sectors that an access of a line fetches from the media: those it touches that the slice does not hold and that a write does not
overwrite whole. -/
def Plinth.fetch (p : Plinth) (line lo hi : Nat) (write : Bool) : List Nat :=
  let held := ((p.slice.find? (fun l => l.addr == line)).map (·.held)).getD 0
  (lineSecs line lo hi).filter (fun i =>
    !held.getLsbD i && !(write && decide (lo ≤ line + 64 * i ∧ line + 64 * (i + 1) ≤ hi)))

/-- An access of one slice to bytes lo to hi of one line: it asks for the sectors it fetches; a hit becomes the most recent; a miss
allocates where the partition allocates, or for an atomic; a write of a partition that does not allocate is written back at once, also
where the slice holds the line; a set of 16 loses its least recent line (R374, R375). -/
def Plinth.access (p : Plinth) (c : Cfg) (line lo hi part : Nat) (write atomic : Bool) : Plinth :=
  let need := p.fetch line lo hi write
  let secs := lineSecs line lo hi
  let mask := secs.foldl (fun (m : BitVec 4) i => m ||| BitVec.ofNat 4 (2 ^ i)) 0
  let p := if need.isEmpty then p else p.ask part (64 * need.length)
  let noalloc := (c.part part).noalloc
  match p.slice.find? (fun l => l.addr == line) with
  | some l =>
    let thru := write && noalloc && !atomic
    let l' := { l with dirty := (l.dirty || write) && !thru, part := if write then part else l.part, held := l.held ||| mask }
    let p := if thru then p.ask part (if l.dirty then 256 else 64 * secs.length) else p
    { p with slice := l' :: p.slice.filter (fun x => !(x.addr == line)) }
  | none =>
    if noalloc && !atomic then (if write then p.ask part (64 * secs.length) else p)
    else
      let same := p.slice.filter (fun x => c.setOf x.addr == c.setOf line)
      let new : SlLine := { addr := line, dirty := write, temp := noalloc, part := part, held := mask }
      if same.length < 16 then { p with slice := new :: p.slice }
      else
        match same.getLast? with
        | none => { p with slice := new :: p.slice }
        | some v =>
          let p := if v.dirty then p.ask v.part 256 else p
          { p with slice := new :: p.slice.filter (fun x => !(x.addr == v.addr)) }

/-- Bytes lo to hi of one line accessed at its home slice; the errors of the sectors fetched are met. A Plinth that is being reset takes no
request (R554). -/
def State.touchLine (s : State) (part : Nat) (write atomic : Bool) (line lo hi : Nat) : State :=
  let st := (s.cfg.stackOf line).1
  if s.rst.quiet.contains st then s
  else
  let need := (s.plinth st).fetch line lo hi write
  (s.meet 0 (fun e => decide (e.addr / 256 = line / 256) && need.contains (e.addr / 64 % 4))).modPlinth st (fun p =>
    p.access s.cfg line lo hi part write atomic)

/-- A range of local HBM accessed at the home slices of its lines, each charged to a partition. -/
def State.touchWith (s : State) (part : Nat → Nat) (a n : Nat) (write atomic : Bool) : State :=
  if n = 0 then s
  else
    (List.range ((a + n - 1) / 256 + 1 - a / 256)).foldl (fun s i =>
      let line := (a / 256 + i) * 256
      s.touchLine (part line) write atomic line (max a line) (min (a + n) (line + 256))) s

/-- A range accessed for one partition: a translated access, or one within a partition's range. -/
def State.touch (s : State) (a n part : Nat) (write atomic : Bool) : State := s.touchWith (fun _ => part) a n write atomic

/-- A range accessed by physical addresses (R379). -/
def State.touchPhys (s : State) (a n : Nat) (write : Bool) : State := s.touchWith s.cfg.physPart a n write false

/-- A line-add or an atomic at a range of physical addresses (R377, R379). -/
def State.touchAtom (s : State) (a n : Nat) : State := s.touchWith s.cfg.physPart a n true true

end Sys2Proof.Machine
end

