-- ==== Sys2Proof/Machine/Cells.lean ====
section
/-! DEFINITION. Operations on cells that many commands share: tokens, the fault of a cell, a class C reset, the unit
clock of a cell. -/
namespace Sys2Proof.Machine
open Sys2Proof

/-! Tokens (R247 to R249). -/

/-- The count of a scoreboard entry; entry 0 always reads 1. -/
def Core.token (c : Core) (t : Nat) : Nat := if t = 0 then 1 else tabGet 0 c.tokens t

/-- The core with counts added to an entry; entry 0 ignores posts; past 255 the entry is left at 255. -/
def Core.addToken (c : Core) (t n : Nat) : Core :=
  if t = 0 then c
  else { c with tokens := tabSet 0 c.tokens t (min 255 (c.token t + n)), postSeq := tabMod 0 c.postSeq t (· + n) }

/-- A post of n to an entry would take its count above 255 (R249). -/
def Core.tokenOvf (c : Core) (t n : Nat) : Bool := decide (t ≠ 0 ∧ 255 < c.token t + n)

/-- The number of the wait fields of a word that name a token (R248). -/
def waitsOn (w : BitVec 128) (t : Nat) : Nat :=
  (if wWait0 w = t ∧ t ≠ 0 then 1 else 0) + (if wWait1 w = t ∧ t ≠ 0 then 1 else 0)

/-- A tag record without the marks of an instruction. -/
def Tag.drop (g : Tag) (st ord : Nat) : Tag :=
  { g with writer := if g.writer = some (st, ord) then none else g.writer,
           readers := g.readers.filter (fun r => decide (r ≠ (st, ord))) }

/-- The hazard detector's marks of an instruction removed from every tag (R269). -/
def Core.untag (c : Core) (st ord : Nat) : Core :=
  let f (t : Tab Tag) : Tab Tag := (t.map (fun e => (e.1, e.2.drop st ord))).filter (fun e => decide (e.2 ≠ {}))
  { c with tags := f c.tags, tregTags := f c.tregTags }

/-- One count of a token consumed: the post of that sequence number leaves the in-flight set (R248, R269). -/
def Core.consume1 (c : Core) (t : Nat) : Core :=
  if t = 0 then c
  else
    let used := tabGet 0 c.useSeq t + 1
    let gone := c.awaits.filter (fun a => decide (a.1 = t ∧ a.2.1 ≤ used))
    let c := { c with tokens := tabSet 0 c.tokens t (c.token t - 1), useSeq := tabSet 0 c.useSeq t used,
                      awaits := c.awaits.filter (fun a => !decide (a.1 = t ∧ a.2.1 ≤ used)) }
    gone.foldl (fun c a => c.untag a.2.2.1 a.2.2.2) c

/-- The wait tokens of a word consumed at issue (R248). -/
def Core.consume (c : Core) (w : BitVec 128) : Core := (c.consume1 (wWait0 w)).consume1 (wWait1 w)

/-! The unit clock. -/

/-- Ticks of the step in which the units of a cell advanced (R243; log entry 15). -/
def Cell.uticks (c : Cell) : Nat := c.tick.toNat + c.uh

/-- First arithmetic cycle of the present tick, as the units count (R244). -/
def Cell.cycle (c : Cell) : Nat := 8 * c.uticks

/-! Class C reset (R110, R223, R243, R247, R263, R569). -/

/-- The CONST blocks of a logical core written to its core store (R263). -/
def Core.writeConsts (co : Core) (bs : List (Nat × (Nat × List Byte))) (l : Nat) : Core :=
  (bs.filter (fun b => b.1 == l)).foldl (fun co b => co.write b.2.1 b.2.2 false) co

/-- The scoreboard set: every entry 0, then the TOKINIT counts, which come before every post in the order of consumption (R263,
R269). -/
def Core.setBoard (co : Core) (ts : List (Nat × (Nat × Nat))) (l : Nat) : Core :=
  let t0 := (ts.filter (fun t => t.1 == l)).foldl (fun m t => tabSet 0 m t.2.1 t.2.2) []
  { co with tokens := t0, postSeq := t0, useSeq := [], awaits := [] }

/-- A re-plan that waits takes effect as the island restarts (R593, R599). -/
def Core.takePlan (co : Core) : Core :=
  match co.replan with
  | some (f, v) => { co with planFreq := BitVec.ofNat 12 f, planVolt := BitVec.ofNat 12 v, replan := none }
  | none => co

/-- A core right after a reset of its cell: array state, scoreboard, streams, flags, pointing window, translation cache;
the core store, tile registers and MVU keep their contents. -/
def Core.resetC (co : Core) : Core :=
  { co with arrays := [], ptr := [], ord := [], lastSlot := [], inSlot := [], tokens := [], postSeq := [], useSeq := [],
            awaits := [], flg := 0, inflight := [], window := [], bounceBusy := none, xlFault := 0, xlCache := [],
            tags := [], tregTags := [], xbase := [], mrgFree := 0, bcastFree := 0 }

/-- A member core of a cell reset: a pending re-plan applies, the pointing window and its partition are empty, its CONST blocks are
written and its scoreboard set (R223, R263, R599). -/
def Core.resetMember (co : Core) (c : Cell) (l : Nat) : Core :=
  ((co.takePlan.resetC.write c.pwin (List.replicate 4096 0) false).writeConsts c.consts l).setBoard c.tokInit l

/-- A cell right after its reset; the step number, the taint and the context area are kept (R229, R569). -/
def Cell.resetC (c : Cell) : Cell :=
  { c with tick := 0, run0 := .hold, run1 := .hold, run2 := .hold, uh := 0, held := 0, lastTok := 0, lastCause := 0,
           lastCore := 0, missCore := 0, frozen := none, ctx := 0, refuse := 0, faults := [], pcause := 0, heightQ := [], released := false, reset := true,
           commitDone := false,
           holds := { c.holds with fault := false, hazard := false, third := 0, apply := false, capture := false } }

/-- The arithmetic clock of a core (R21, R267, R561, R576, R606): 0 while parked, else the plan less the slowing, halved under a
supply warning, at most the droop clock, and divided by 5/3 while the hazard detector runs. -/
def Core.reclock (co : Core) (parked debug : Bool) : Core :=
  let f := co.planFreq.toNat - co.slow
  let f := if co.halved then f / 2 else f
  let f := if co.droop then min f co.droopFreq else f
  { co with curFreq := if parked then 0 else BitVec.ofNat 12 (if debug then f * 3 / 5 else f) }

/-- A core is parked: it belongs to no cell, or its cell is PREEMPTED (R42, R476). -/
def State.parked (s : State) (n : Nat) : Bool :=
  match s.cellOf n with
  | none => true
  | some k => decide ((s.cell k).ctx = 3)

/-- The clock register of a core brought up to date. -/
def State.reclock (s : State) (n : Nat) : State := s.modCore n (fun co => co.reclock (s.parked n) s.cfg.debug)

/-- The clock registers of the members of a cell brought up to date. -/
def State.reclockCell (s : State) (k : Nat) : State := (s.cell k).members.foldl State.reclock s

/-- A hold of every existing cell set or cleared. -/
def State.holdAll (s : State) (f : Holds → Holds) : State :=
  (cellIds.filter (fun k => (s.cell k).exists_)).foldl (fun s k => s.modCell k (fun c => { c with holds := f c.holds })) s

/-- The cells that waited at their boundary for a PENDING load run on without it (R51). -/
def State.endApply (s : State) : State := s.holdAll (fun h => { h with apply := false })

/-- A PENDING mode-2 load discarded by a class C or W reset, with ARM_ABORT (R51). -/
def State.dropPending (s : State) : State :=
  let a := s.arm
  if a.state = .pending ∧ a.mode = 2 then
    (({ s with arm := { a with state := .idle, next := none } }).endApply).log 0x7102 [.val 4 a.received.toNat]
  else s

/-- IDLE is left for ACTIVE: a cell enters the ACTIVE condition, or an armature is applied (R568, R571). -/
def State.wake (s : State) : State :=
  if s.pwr.state = .idle then ({ s with pwr := { s.pwr with state := .active } }).log 0x6102 [.val 1 1, .val 1 0] else s

/-- A class C reset of a cell with the armature in force; a PENDING mode-2 load is discarded (R51, R547, R263). -/
def State.resetCell (s : State) (k : Nat) : State :=
  let s := s.dropPending
  let c := s.cell k
  let s := c.members.foldl (fun s n => s.modCore n (fun co => co.resetMember c (c.lcore n))) s
  let s := s.setCell k c.resetC
  (({ s with exp := { s.exp with greDone := 0, greFb := false } }).reclockCell k).wake

/-! The fault of a cell (R472 to R475, R487). -/

/-- VALID of the image header in the context area set (R479). -/
def State.setValid (s : State) (k v : Nat) : State :=
  let a := (s.cell k).area.toNat
  if a = 0 then s else (s.touchPhys (a + 6) 1 true).hbmWrite (a + 6) (leBytes 1 v) false

/-- Pre-emption of a cell stopped by a fault or a reset: image invalid, CTX_INVALID, class C reset (R487). -/
def State.ctxInvalid (s : State) (k reason : Nat) : State :=
  let s := if reason = 1 then s else s.setValid k 3
  let s := s.log 0x5303 [.cell k, .val 1 reason]
  let s := s.resetCell k
  s.modCell k (fun c => { c with img := none })

/-- A class C reset of a cell: during a pre-emption the image becomes invalid (R487, R503, R547, R553). -/
def State.commandReset (s : State) (k : Nat) : State :=
  if (s.cell k).ctx = 2 then s.ctxInvalid k 3 else s.resetCell k

/-- The cause of a pre-emption: a cell that the hazard detector froze is saved for inspection, whatever triggers it (R476, R487). -/
def Cell.preemptCause (c : Cell) (cause : Nat) : Nat := if c.holds.hazard then 2 else cause

/-- The context area is usable: a multiple of 2 MiB, within mappable local HBM, long enough (R478). -/
def Cell.areaOk (c : Cell) : Bool :=
  let a := c.area.toNat
  decide (a ≠ 0 ∧ a % 2097152 = 0 ∧ 2097152 + c.members.length * 33554432 ≤ c.areaLen ∧
    a + 2097152 + c.members.length * 33554432 ≤ 0x167E0000000)

/-- A cell begins to be pre-empted with a cause: 0 host, 1 fault, 2 HAZARD (R476, R478). -/
def State.startPreempt (s : State) (k cause : Nat) : State :=
  if (s.cell k).areaOk then
    (s.modCell k (fun c => { c with ctx := 2, pcause := cause })).setValid k 1
  else s.ctxInvalid k 1

/-- A fault of a cell, its event logged already: recorded, and the cell held, or pre-empted at once where it is not
resolvable. During a pre-emption it makes the image invalid and resets the cell (R472 to R475, R487). Stream 7 stands for a
fault of no stream, for which FLT_CAUSE gives no stream code (log entry 28). -/
def State.fault (s : State) (k code lcore stream ord : Nat) (resolvable : Bool) : State :=
  let c := s.cell k
  let r : FaultRec := ⟨BitVec.ofNat 16 code, lcore, stream, ord, resolvable⟩
  let sc := if stream = 7 then Config.code 19 else stream
  let cause := BitVec.ofNat 25 (code % 65536 + lcore % 64 * 65536 + sc % 8 * 4194304)
  let c' := { c with faults := c.faults ++ [r], cause := if c.faults = [] then cause else c.cause,
                     holds := { c.holds with fault := true } }
  let s := s.setCell k c'
  if c.ctx = 2 then s.ctxInvalid k 2
  else if c.ctx = 3 ∨ c.ctx = 4 then s
  else if resolvable then s.setCell k { c' with ctx := 1 }
  else s.startPreempt k (c.preemptCause 1)

/-- A fault of a cell with its event (R472). -/
def State.raiseFault (s : State) (k code : Nat) (fs : List EvF) (lcore stream ord : Nat) (resolvable : Bool) : State :=
  (s.log code fs).fault k code lcore stream ord resolvable

/-- A token posted into a cell's context image: the count of the image's scoreboard; one that would pass 255 sets flag bit 3 of its header
(R479, R481, R484). -/
def State.postImg (s : State) (k l t n : Nat) : State :=
  let c := s.cell k
  let a := c.area.toNat + 2097152 + l * 33554432 + 28049408 + 48 + t
  let old := leNat (s.hbmRead a 1)
  let new := if t = 0 then old else min 255 (old + n)
  let s := (s.touchPhys a 1 true).hbmWrite a (leBytes 1 new) false
  if t = 0 ∨ old + n ≤ 255 then s
  else
    let f := c.area.toNat + 116
    let s := (s.touchPhys f 1 true).hbmWrite f (leBytes 1 (leNat (s.hbmRead f 1) ||| 8)) false
    s.modCell k (fun c => { c with imgOvf := true })

/-- A token posted by an agent other than the cell's own instructions: to the image's scoreboard while the cell is PREEMPTED or
RESUMING; past 255 the fault TOKEN_OVF, or flag bit 3 of the image (R249, R484). `poster` is the event's field. -/
def State.postTo (s : State) (k l t n poster : Nat) : State :=
  let c := s.cell k
  match c.pcore l with
  | none => s
  | some p =>
    if c.ctx = 3 ∨ c.ctx = 4 then s.postImg k l t n
    else
      let co := s.core p
      let s' := s.setCore p (co.addToken t n)
      if co.tokenOvf t n then s'.raiseFault k 0x5103 [.val 1 l, .val 1 t, .val 4 poster] l 7 0 false else s'

/-- The cell is held for a reason other than the readiness of its instructions (R254, R255). -/
def Cell.blocked (c : Cell) : Bool :=
  decide (c.ctx ≠ 0) || decide (c.holds ≠ {})

/-- The module is OPERATIONAL with its compute dies powered: stage 8, neither OFF nor in STANDBY (R550, R568). -/
def State.operational (s : State) : Bool := decide (s.rst.stage = 8 ∧ s.pwr.state ≠ .standby) && !s.pwr.off

end Sys2Proof.Machine
end

