-- ==== Sys2Proof/Machine/Tensor.lean ====
section
/-! DEFINITION. Tensor descriptors, local views, element addresses, hulls and the overlap rule (R334 to R351). -/
namespace Sys2Proof.Machine
open Sys2Proof

/-- One dimension of a descriptor (R334). -/
structure TDim where
  /-- Global extent. -/
  ext : Nat
  /-- Signed stride in units. -/
  stride : Int
  /-- Sharding mode. -/
  mode : Nat
  /-- Axis. -/
  axis : Nat
  /-- Block size field. -/
  bs : Nat
  deriving DecidableEq, Repr

/-- A tensor descriptor as read at issue (R334). -/
structure TDesc where
  /-- BASE. -/
  base : Nat
  /-- TYPE. -/
  ty : Nat
  /-- SPACE: job virtual addresses. -/
  virt : Bool
  /-- LOCAL. -/
  loc : Bool
  /-- Dimensions, innermost first. -/
  dims : List TDim
  deriving DecidableEq, Repr

/-- The type is an MX type. -/
def tyMx (t : Nat) : Bool := isMx t

/-- TYPE codes that R335 assigns. -/
def tyOk (t : Nat) : Bool := decide (t ≤ 8 ∨ (16 ≤ t ∧ t ≤ 18))

/-- Bytes of one element that a transfer moves: a whole record for MX types (R335, R336). -/
def tyBytes (t : Nat) : Nat :=
  if t = 6 then 17
  else if tyMx t then 33
  else match t with
    | 0 => 4 | 1 => 2 | 8 => 5 | 16 => 4 | 17 => 8 | _ => 1

/-- A dimension's fields (R334). -/
def tdDim (b : List Byte) (d : Nat) : TDim :=
  let o := 32 + 16 * d
  let sh := bfld b (o + 9) 1
  ⟨bfld b o 4, sInt 40 (bfld b (o + 4) 5), bits sh 1 0, bits sh 3 2, bfld b (o + 12) 4⟩

/-- The descriptor that 128 bytes hold. -/
def tdOf (b : List Byte) : TDesc :=
  ⟨bfld b 0 8, bfld b 8 1, bit (bfld b 10 1) 0, bit (bfld b 10 1) 1,
   (List.range (min 6 (bfld b 9 1))).map (tdDim b)⟩

/-- This device's coordinate and grid size on an axis, for the issuing logical core (R340, R444). -/
def State.axis (s : State) (c : Cell) (lcore : Nat) (axis : Nat) : Nat × Nat :=
  let slot := s.gal.slot.toNat
  let px := s.cfg.box.1
  let py := s.cfg.box.2.1
  let pz := s.cfg.box.2.2
  match axis with
  | 0 => (px, slot % px)
  | 1 => (py, slot / px % py)
  | 2 => (pz, slot / (px * py))
  | _ => (c.members.length, lcore)

/-- The block size b of a sharded dimension over P parts (R341). -/
def TDim.block (d : TDim) (p : Nat) : Nat :=
  match d.mode with
  | 1 => if d.bs = 0 then ceilDiv d.ext p else d.bs
  | 2 => 1
  | _ => d.bs

/-- The local extent of a dimension (R341, R342). -/
def TDim.localExt (d : TDim) (loc : Bool) (pc : Nat × Nat) : Nat :=
  if loc ∨ d.mode = 0 then d.ext
  else
    let b := d.block pc.1
    let full := d.ext / (b * pc.1)
    let rem := d.ext % (b * pc.1)
    full * b + min b (rem - pc.2 * b)

/-- Local extents of a descriptor, in elements (R341, R342). -/
def State.tdLens (s : State) (c : Cell) (l : Nat) (t : TDesc) : List Nat :=
  t.dims.map (fun d => d.localExt t.loc (s.axis c l d.axis))

/-- The view that an instruction walks: dimension 0 of an MX type counted in the records that hold its local elements (R336, R343). -/
def State.tdExts (s : State) (c : Cell) (l : Nat) (t : TDesc) : List Nat :=
  (s.tdLens c l t).zipIdx.map (fun (n, i) => if i = 0 ∧ tyMx t.ty then ceilDiv n 32 else n)

/-- Byte step of each dimension (R335, R337). -/
def TDesc.steps (t : TDesc) : List Int :=
  t.dims.zipIdx.map (fun (d, i) =>
    if i = 0 then (if tyMx t.ty then (tyBytes t.ty : Int) else d.stride * (tyBytes t.ty : Int))
    else d.stride * (tyBytes t.ty : Int))

/-- Elements of a local view. -/
def viewCount (ns : List Nat) : Nat := ns.foldl (· * ·) 1

/-- Indices of element k in element order, dimension 0 fastest (R343). -/
def viewIdx : List Nat → Nat → List Nat
  | [], _ => []
  | n :: r, k => k % n :: viewIdx r (k / n)

/-- Linear element number of indices (R343). -/
def viewLin : List Nat → List Nat → Nat
  | n :: r, i :: q => i + n * viewLin r q
  | _, _ => 0

/-- Byte address of element k of a local view (R337). -/
def elemAddr (base : Nat) (steps : List Int) (ns : List Nat) (k : Nat) : Int :=
  ((viewIdx ns k).zip steps).foldl (fun a p => a + (p.1 : Int) * p.2) (base : Int)

/-- The byte hull: lowest address and one past the highest byte; empty for an empty view (R339). -/
def hullOf (base : Nat) (steps : List Int) (ns : List Nat) (es : Nat) : Int × Int :=
  if ns.any (· == 0) then ((base : Int), base)
  else
    let span (f : Int → Int → Int) : Int :=
      (ns.zip steps).foldl (fun a p => a + f 0 (((p.1 - 1 : Nat) : Int) * p.2)) (base : Int)
    (span min, span max + es)

/-- Two hulls in one space share a byte (R348). -/
def hullMeet (a b : Int × Int) : Int × Int := (max a.1 b.1, min a.2 b.2)

/-- Bytes in the intersection of two hulls. -/
def hullShare (a b : Int × Int) : Nat := ((hullMeet a b).2 - (hullMeet a b).1).toNat

/-- The failing field offset of a descriptor, lowest first; LOCAL sets the sharding rules aside, and the hull of an empty view holds no
byte (R334 to R342, R627). -/
def State.tdBad (s : State) (c : Cell) (l : Nat) (b : List Byte) : Option Nat :=
  let t := tdOf b
  let rank := bfld b 9 1
  let mx := tyMx t.ty
  let exts := s.tdExts c l t
  let h := hullOf t.base t.steps exts (tyBytes t.ty)
  let axes := (t.dims.filter (fun d => decide (d.mode ≠ 0))).map (·.axis)
  let zeroOk (o n : Nat) : Bool := (bsub b o n).all (· == 0)
  let dimChecks : List (Nat × Bool) := (List.range 6).flatMap (fun i =>
    let o := 32 + 16 * i
    let d := tdDim b i
    if i < rank then
      [(o, decide (1 ≤ d.ext) && (i != 0 || !mx || decide (d.ext % 32 = 0))),
       (o + 4, if i = 0 then (!mx || decide (d.stride = 1)) else decide (d.stride * (tyBytes t.ty : Int) % 64 = 0)),
       (o + 9, decide (bfld b (o + 9) 1 < 16) && (t.loc || !(d.mode != 0 && decide (1 < axes.count d.axis)))),
       (o + 10, zeroOk (o + 10) 2),
       (o + 12, (match d.mode with
         | 1 => t.loc || decide (d.ext ≤ d.block (s.axis c l d.axis).1 * (s.axis c l d.axis).1)
         | 3 => decide (1 ≤ d.bs)
         | _ => decide (d.bs = 0)))]
    else [(o + ((List.range 16).find? (fun j => b.getD (o + j) 0 ≠ 0)).getD 0, zeroOk o 16)])
  let checks : List (Nat × Bool) :=
    [(0, decide (t.base % 64 = 0) &&
        (if t.virt then decide (t.base < 2 ^ 52) else decide (t.base < 2 ^ 32) && (exts.any (· == 0) || decide (0 ≤ h.1 ∧ h.2 ≤ storeSize)))),
     (8, tyOk t.ty), (9, decide (1 ≤ rank ∧ rank ≤ 6)), (10, decide (bfld b 10 1 < 4)),
     (11 + ((List.range 21).find? (fun j => b.getD (11 + j) 0 ≠ 0)).getD 0, zeroOk 11 21)] ++ dimChecks
  ((checks.filter (fun x => !x.2)).map Prod.fst).foldl
    (fun m x => match m with | none => some x | some y => some (min x y)) none

/-- A descriptor read at issue as an operand block: 128 bytes at a multiple of 64 (R334). -/
def rdDesc (co : Core) (opc a : Nat) : Except Refuse (List Byte) := rdBlock co opc a 128 64

/-! Hulls of the local transfers (R348). -/

/-- Hull of R rows of n bytes at a row stride. -/
def rowsHull (base rows stride n : Nat) : Int × Int :=
  if rows = 0 then ((base : Int), base) else ((base : Int), base + (rows - 1) * stride + n)

/-- Source and destination hulls and spaces (true: job virtual) of a DMA-stream instruction whose overlap rule uses the
bounce buffer, from its block and descriptors: TENSOR, XPOSE, PERMUTE, GATHER, SCATTER (R348, R349). -/
def State.bounceHulls (s : State) (co : Core) (c : Cell) (l : Nat) (w : BitVec 128) :
    Option ((Int × Int) × (Int × Int)) :=
  let b := co.read (64 * wf w 71 53) 64
  let td (a : Nat) : Bool × (Int × Int) :=
    let t := tdOf (co.read a 128)
    (t.virt, hullOf t.base t.steps (s.tdExts c l t) (tyBytes t.ty))
  let pair (a d : Bool × (Int × Int)) : Option ((Int × Int) × (Int × Int)) :=
    if a.1 = d.1 then some (a.2, d.2) else none
  let lin := rowsHull (bfld b 32 4) (bfld b 4 4) (bfld b 36 4) (bfld b 24 4)
  let idx := rowsHull (bfld b 8 8) (bfld b 20 4) (bfld b 28 4) (bfld b 24 4)
  match wOpc w with
  | 0x80 => if bfld b 0 1 = 1 then pair (td (bfld b 32 4)) (td (bfld b 36 4)) else none
  | 0x82 =>
    let es := bfld b 0 1
    some (rowsHull (bfld b 4 4) (bfld b 12 4) (bfld b 20 4) (bfld b 16 4 * es),
          rowsHull (bfld b 8 4) (bfld b 16 4) (bfld b 24 4) (bfld b 12 4 * es))
  | 0x83 => pair (td (bfld b 0 4)) (td (bfld b 4 4))
  | 0x84 => if bit (bfld b 16 1) 0 then none else some (idx, lin)
  | 0x85 => if bit (bfld b 16 1) 0 then none else some (lin, idx)
  | _ => none

/-- Bounced extent of a DMA-stream instruction: 0 when it needs no bounce buffer (R348 to R350). -/
def State.bounceExt (s : State) (co : Core) (c : Cell) (l : Nat) (w : BitVec 128) : Nat :=
  match s.bounceHulls co c l w with
  | none => 0
  | some (a, b) => hullShare a b

end Sys2Proof.Machine
end

