-- ==== Sys2Proof/Machine/Issue.lean ====
section
/-! DEFINITION. Issuing an instruction and completing one: the next word of a stream, the readiness of units, the
hazard detector, refusal, the in-flight entry, the completion record and the post (R242 to R271, R329 to R332). -/
namespace Sys2Proof.Machine
open Sys2Proof

/-! The streams of the program in force (R242 to R244, R261). -/

/-- The words of a stream from its pointer on. -/
def Cell.rest (c : Cell) (co : Core) (l st : Nat) : List (BitVec 128) :=
  (tabGet [] c.prog (8 * l + st)).drop (tabGet 0 co.ptr st)

/-- The next instruction, or broadcast group, at the head of a list of words (R90). -/
def headGroup : List (BitVec 128) → List (BitVec 128)
  | [] => []
  | w :: r => if isProduct (wOpc w) then w :: r.takeWhile isLink else [w]

/-- The slot of the next instruction of a stream (R244). -/
def Core.nextSlot (co : Core) (st : Nat) (w : BitVec 128) : Nat := tabGet 0 co.lastSlot st + wDelta w

/-! Readiness of units (R250). -/

/-- The members in flight of an array instruction's group. -/
def Core.groupOf (co : Core) (e : Entry) : List Entry :=
  co.inflight.filter (fun g => g.stream == 0 && g.grp == e.grp && g.arrOp.isSome)

/-- The first cycle at which a waiting group may stream: every load complete, every array and the broadcast free. -/
def Core.streamStart (co : Core) (es : List Entry) : Nat :=
  let loads := (es.map (·.beatEnd)).foldl max 0
  let arrs := (List.range 4).foldl (fun m a => max m (max (co.arr a).lastEnd (co.arr a).retryEnd)) 0
  max (max loads arrs) co.bcastFree

/-- An array instruction in flight names the array and has not started streaming; with a cycle, one that will not have started by
then either, as the readiness unit foresees it (R93, R250). -/
def Core.loadingOn (co : Core) (a : Nat) (by_ : Option Nat := none) : Bool :=
  co.inflight.any (fun e => match e.arrOp with
    | some o => o.arr == a && !e.streaming && (match by_ with | none => true | some c => decide (c < co.streamStart (co.groupOf e)))
    | none => false)

/-- An accumulating instruction in flight addresses the half and has not made its last write by a cycle (R109). -/
def Core.fillingHalf (co : Core) (a h cyc : Nat) : Bool :=
  co.inflight.any (fun e => match e.arrOp with
    | some o => o.arr == a && o.tile / 8 == h && (!e.streaming || decide (cyc < e.doneCycle))
    | none => false)

/-- Tile registers that a source descriptor reads for n elements, FP32 spanning two past 4,096 (R186, R293). -/
def srcRegs (d n : Nat) : List Nat :=
  match bits d 15 14 with
  | 0 => let t := bits d 13 9
         let per := if bits d 8 5 = 0 then 4096 else if bits d 8 5 = 1 then 8192 else 16384
         (List.range (ceilDiv n per)).map (t + ·)
  | 2 => [bits d 13 9]
  | _ => []

/-- Tile registers that a VEC-stream word reads (R189, R293, R294): its tile sources, its predicate, and for FMA with BSCAL the
destination as third source; an online operation that takes V from a register reads that one (R206). -/
def vecReadRegs (w : BitVec 128) : List Nat :=
  let opc := wOpc w
  let n := wf w 71 59 + 1
  let td := wf w 58 54
  if (0x40 ≤ opc ∧ opc ≤ 0x5B) ∨ (0x5D ≤ opc ∧ opc ≤ 0x5F) then
    let (_, ub, uc) := v1Uses opc
    let tp := if wModBit w 0 ∨ opc = 0x4C then [wf w 52 48] else []
    let sb := if wModBit w 2 then [] else
      (if ub then srcRegs (wf w 31 16) n else []) ++ (if uc then srcRegs (wf w 15 0) n else [])
    let dst := if opc = 0x43 ∧ wModBit w 2 then
      (List.range (ceilDiv n (if wf w 53 53 = 0 then 4096 else 8192))).map (td + ·) else []
    srcRegs (wf w 47 32) n ++ sb ++ tp ++ dst
  else if opc = 0x61 ∨ opc = 0x62 then (if wOpx w = 0 then [wf w 15 11] else [])
  else if opc = 0x69 ∧ wOpx w = 0 then srcRegs (wf w 31 16) n ++ (if wModBit w 0 then [wf w 58 54] else [])
  else []

/-- Core-store ranges that an online operation reads (R206): an earlier VEC-stream instruction writes them in order (R189, R265;
log entry 15). -/
def vecReadStore (w : BitVec 128) : List (Nat × Nat) :=
  let opc := wOpc w
  if opc = 0x61 ∨ opc = 0x62 ∨ opc = 0x63 then
    (64 * wf w 53 35, 64 + 12 * (wf w 71 59 + 1)) ::
      (if opc ≠ 0x63 ∧ wOpx w = 1 then [(64 * wf w 34 16, 4 * (wf w 71 59 + 1))] else [])
  else []

/-- An entry still to be completed writes bytes of a core-store range. -/
def Entry.writesTo (e : Entry) (r : Nat × Nat) : Bool :=
  e.puts.any (fun p => !p.tile && overlaps p.addr p.bytes.length r.1 r.2)

/-- Every unit that an instruction or group needs can accept it at a cycle (R93, R94, R109, R150, R189, R207, R227,
R250, R313, R351). `ahead` says that the readiness unit decides for that cycle, two ticks before it; at issue a vector instruction
reads what an earlier one writes only once that one has completed. -/
def State.unitReady (s : State) (n st : Nat) (c : Cell) (ws : List (BitVec 128)) (cyc : Nat) (ahead : Bool) : Bool :=
  let co := s.core n
  let by_ := if ahead then some cyc else none
  match ws with
  | [] => false
  | w :: _ =>
    let opc := wOpc w
    if isProduct opc then
      decide (co.bcastFree ≤ cyc) && co.inflight.all (·.thirdOf.isNone) &&
      ws.all (fun w =>
        let a := wf w 71 70
        let ar := co.arr a
        !(co.loadingOn a by_) && decide (ar.retryEnd ≤ cyc) &&
        !decide (cyc < ar.drainEnd ∧ ar.drainHalf = wf w 69 66 / 8))
    else if opc = 0x18 then
      let a := wf w 71 70
      decide ((co.arr a).drainEnd ≤ cyc) && !(co.fillingHalf a (wf w 69 66 / 8) cyc)
    else if opc = 0xB1 then
      decide (co.bcastFree ≤ cyc) && co.inflight.all (·.thirdOf.isNone) && (List.range 4).all (fun a => !(co.loadingOn a by_) &&
        decide ((co.arr a).retryEnd ≤ cyc ∧ (co.arr a).lastEnd ≤ cyc))
    else if st = 1 then co.inflight.all (fun e => !(e.stream == 1) || decide (e.doneCycle ≤ cyc))
    else if st = 2 then decide (co.mrgFree ≤ cyc)
    else if st = 3 then
      co.inflight.all (fun e => !(e.stream == 3) ||
        (decide (e.beatEnd ≤ cyc) &&
          ((ahead && decide (e.doneCycle ≤ cyc)) ||
            ((vecReadRegs w).all (fun r => !(e.tregs.any (fun p => decide (p.1 / 4096 = r)))) &&
             (vecReadStore w).all (fun r => !(e.writesTo r))))))
    else if st = 4 then
      let eng := tabGet 0 co.ord 4 % 2
      decide ((co.inflight.filter (fun e => e.stream == 4 && e.ord % 2 == eng)).length < 32) &&
      (match co.bounceBusy with
       | none => true
       | some o => decide (o % 2 = eng) || decide (s.bounceExt co c (c.lcore n) w = 0))
    else true

/-- The WAIT fences of R310: DFENCE, and RFENCE over the remote operations. -/
def Core.fences (co : Core) (w : BitVec 128) (tick : Nat) : Bool :=
  let old := co.inflight.filter (fun e => e.stream == 4 && decide (e.issueTick < tick))
  (!(wModBit w 0) || old.isEmpty) &&
  (!(wModBit w 1) || old.all (fun e => let o := wOpc e.word; e.done || !decide (0x90 ≤ o ∧ o ≤ 0x94)))

/-- A stream's next instruction is a STEP_END. -/
def isStepEnd (w : BitVec 128) : Bool := wOpc w == 0xA2 && wf w 71 70 == 0

/-- Every instruction of every member core but the STEP_END itself has completed (R258). -/
def State.cellDrained (s : State) (c : Cell) : Bool :=
  c.members.all (fun n =>
    let co := s.core n
    co.inflight.isEmpty &&
    (List.range 6).all (fun st => (c.rest co (c.lcore n) st).all isStepEnd))

/-- Slots and cells of a rendezvous NAME in force; STEP_END covers all of them unless an item says otherwise (R446, R461). -/
def Cfg.rdvDef (c : Cfg) (name : Nat) : Option (Nat × Nat) :=
  match c.rdvdefs.find? (fun r => r.1 == name) with
  | some (_, sl, mask, _) => some (sl, mask)
  | none => if name = 0 then some (2 ^ 64 - 1, 65535) else none

/-- A cell of this device takes part in a rendezvous (R461). -/
def State.inRdv (s : State) (name k : Nat) : Bool :=
  match s.cfg.rdvDef name with
  | some (sl, mask) => sl.testBit s.gal.slot.toNat && mask.testBit k
  | none => false

/-- What an instruction waits for besides tokens at a cycle: none ready, else the cause code of SCHED_HOLD (R250). -/
def State.condition (s : State) (n st : Nat) (c : Cell) (ws : List (BitVec 128)) (cyc tick : Nat) (ahead : Bool) : Option Nat :=
  match ws with
  | [] => none
  | w :: _ =>
    if isStepEnd w then
      if s.cellDrained c && (c.released || !s.inRdv 0 ((s.cellOf n).getD 16)) then none else some 3
    else if wOpc w = 0xA0 then (if (s.core n).fences w tick then none else some 1)
    else if s.unitReady n st c ws cyc ahead then none else some 1

/-! Issue. -/

/-- What an instruction sees at issue. -/
structure IssueCtx where
  /-- Core. -/
  n : Nat
  /-- Cell. -/
  k : Nat
  /-- Logical core. -/
  l : Nat
  /-- Stream. -/
  st : Nat
  /-- The core. -/
  co : Core
  /-- The cell. -/
  c : Cell
  /-- ORD of the first word. -/
  ord : Nat
  /-- Arithmetic cycle of issue. -/
  cyc : Nat

/-- The rounding key of a word issued j places after the first (R75 to R77). -/
def IssueCtx.key (x : IssueCtx) (j : Nat) : Key :=
  ⟨x.c.seed, x.c.step.toNat, (logicalId x.l x.st (x.ord + j)).toNat⟩

/-- Logical id of the j-th word. -/
def IssueCtx.id (x : IssueCtx) (j : Nat) : BitVec 32 := logicalId x.l x.st (x.ord + j)

/-- What an instruction that issues does: its in-flight entry, the operands the hazard detector sees, and the effect on
the core's units. -/
structure Plan where
  /-- In-flight entry, without the fields every entry shares. -/
  entry : Entry := {}
  /-- Core-store ranges read. -/
  reads : List (Nat × Nat) := []
  /-- Core-store ranges written. -/
  writes : List (Nat × Nat) := []
  /-- Tile registers read. -/
  tr : List Nat := []
  /-- Tile registers written. -/
  tw : List Nat := []
  /-- Accumulator tiles read through the vector port: array and tile. -/
  accR : List (Nat × Nat) := []
  /-- Weight source of a load: array and ranges (R217). -/
  load : Option (Nat × List (Nat × Nat)) := none
  /-- Effect on the core at issue. -/
  upd : Core → Core := id

/-- An instruction or group may issue now: its cell runs this tick, the words are the next of the stream, their slot is
the counter value, and every unit accepts them (R244, R245, R250). -/
def State.mayIssue (s : State) (n st : Nat) (ws : List (BitVec 128)) : Option IssueCtx :=
  match s.cellOf n with
  | none => none
  | some k =>
    let c := s.cell k
    let co := s.core n
    let l := c.lcore n
    let tick := c.tick.toNat
    let pos := if tabGet 0 co.inSlot st > 0 ∧ tabGet 0 co.lastSlot st = tick then tabGet 0 co.inSlot st else 0
    let cyc := c.cycle + pos
    match ws with
    | [] => none
    | w :: _ =>
      if s.operational && decide (c.run0 = .run) && decide (headGroup (c.rest co l st) = ws) &&
          decide (co.nextSlot st w = tick) && decide (c.frozen ≠ some (l, st)) && (s.condition n st c ws cyc tick false).isNone
      then some ⟨n, k, l, st, co, c, tabGet 0 co.ord st, cyc⟩
      else none

/-- Counters behind n words of a stream: pointer, ORD, slot (R244, R77). -/
def Core.pass (co : Core) (st n tick : Nat) : Core :=
  { co with ptr := tabMod 0 co.ptr st (· + n), ord := tabMod 0 co.ord st (· + n),
            inSlot := tabSet 0 co.inSlot st ((if tabGet 0 co.lastSlot st = tick then tabGet 0 co.inSlot st else 0) + n),
            lastSlot := tabSet 0 co.lastSlot st tick }

/-- Counters after a group issues: tokens consumed, pointer, ORD, slot (R244, R248, R77). -/
def Core.advance (co : Core) (st : Nat) (ws : List (BitVec 128)) (tick : Nat) : Core :=
  (ws.foldl (fun co w => co.consume w) co).pass st ws.length tick

/-! The hazard detector (R267 to R271). -/

/-- Granules of 256 bytes that a range touches. -/
def granules (r : Nat × Nat) : List Nat :=
  if r.2 = 0 then [] else (List.range ((r.1 + r.2 - 1) / 256 + 1 - r.1 / 256)).map (r.1 / 256 + ·)

/-- The HAZARD kind that a granule's tag gives an access of a stream: 0 for none (R270 kinds 1 to 4). -/
def Tag.kind (g : Tag) (st : Nat) (write : Bool) : Nat :=
  let other (x : Nat × Nat) : Bool := x.1 != st
  if !write then (match g.writer with | some x => if other x then 1 else 0 | none => 0)
  else
    match g.writer with
    | some x => if other x then 2 else if g.readers.any other then 3 else if g.retain then 4 else 0
    | none => if g.readers.any other then 3 else if g.retain then 4 else 0

/-- The logical id of the other instruction that a tag names for an access of a stream: the writer or the first reader of another
stream, or the one that the RETAIN bit is held for (R271). -/
def Tag.who (g : Tag) (l st : Nat) (kind : Nat) : BitVec 32 :=
  let x := match kind with
    | 1 | 2 => g.writer
    | _ => g.readers.find? (fun r => r.1 != st)
  match kind, x with
  | 4, _ => g.retId
  | _, some x => logicalId l x.1 x.2
  | _, none => g.retId

/-- The first hazard among an instruction's operands: kind, granule or tile, and the other instruction's logical id (R270). -/
def Core.hazard (co : Core) (l st : Nat) (p : Plan) : Option (Nat × (Nat × BitVec 32)) :=
  let gr (w : Bool) (rs : List (Nat × Nat)) := (rs.flatMap granules).filterMap (fun g =>
    let t := tabGet {} co.tags g
    let k := t.kind st w
    if k = 0 then none else some (k, (g, t.who l st k)))
  let tr (w : Bool) (rs : List Nat) := rs.filterMap (fun g =>
    let t := tabGet {} co.tregTags g
    let k := t.kind st w
    if k = 0 ∨ k = 4 then none else some (7, (g, t.who l st k)))
  let acc := p.accR.filterMap (fun (a, t) =>
    (co.inflight.find? (fun e => match e.arrOp with | some o => o.arr == a && o.tile == t | none => false)).map
      (fun e => (6, (16 * a + t, e.id))))
  (gr false p.reads ++ gr true p.writes ++ acc ++ tr false p.tr ++ tr true p.tw).head?

/-- The tags after an instruction issues: its reads and writes marked, and the retained weight source of its array. -/
def Core.tagIssue (co : Core) (id : BitVec 32) (st ord : Nat) (p : Plan) : Core :=
  let rd (t : Tab Tag) (g : Nat) : Tab Tag := tabMod {} t g (fun x => { x with readers := x.readers ++ [(st, ord)] })
  let wr (t : Tab Tag) (g : Nat) : Tab Tag := tabMod {} t g (fun x => { x with writer := some (st, ord) })
  let ts := (p.reads.flatMap granules).foldl rd co.tags
  let ts := (p.writes.flatMap granules).foldl wr ts
  let ts := match p.load with
    | none => ts
    | some (_, rs) => (rs.flatMap granules).foldl (fun t g => tabMod {} t g (fun x => { x with retain := true, retId := id })) ts
  { co with tags := ts, tregTags := p.tw.foldl wr (p.tr.foldl rd co.tregTags) }

/-- The cell frozen by a HAZARD: held from the next boundary on; the instruction named, if any, is kept from issuing (R271, R476). -/
def Cell.freeze (c : Cell) (who : Option (Nat × Nat)) : Cell :=
  { c with holds := { c.holds with hazard := true }, lastTok := 0, lastCause := 5, lastCore := 0, missCore := 0,
           run1 := .hold, run2 := .hold, frozen := match c.frozen with | some f => some f | none => who }

/-- A HAZARD at the issue of an instruction: its event, with a granule in 4 bytes or a tile in 1, and the freeze (R271, R630). -/
def State.freeze (s : State) (x : IssueCtx) (h : Nat × (Nat × BitVec 32)) : State :=
  let (kind, g, who) := h
  let s := s.log 0x5101 [.val 1 kind, .val (if kind < 6 then 4 else 1) g, .val 4 (x.id 0).toNat, .val 4 who.toNat,
    .val 4 x.c.tick.toNat]
  s.modCell x.k (fun c => c.freeze (some (x.l, x.st)))

/-- A refusal: nothing executes; the event is an unresolvable fault of the cell (R121, R472). -/
def State.refuse (s : State) (x : IssueCtx) (r : Refuse) : State :=
  s.raiseFault x.k r.1 r.2 x.l x.st x.ord false

/-- The stream goes on behind a refused instruction or group, which consumes no token: those after it issue in the ticks that still run
before the hold (R121, R473, R476; log entry 73). -/
def State.passBy (s : State) (x : IssueCtx) (ws : List (BitVec 128)) : State :=
  s.modCore x.n (fun co => co.pass x.st ws.length x.c.tick.toNat)

/-- The operand or parameter block that a word names (R278, R312); a product and DRAIN list theirs among their operands. -/
def blockRead (w : BitVec 128) : List (Nat × Nat) :=
  let opc := wOpc w
  if opc = 0x68 then [(64 * wf w 53 35, 64)]
  else if opc = 0x5C then [(64 * wf w 53 35, 16)]
  else if (0x30 ≤ opc ∧ opc ≤ 0x33) ∨ (0x38 ≤ opc ∧ opc ≤ 0x3C) ∨ (0x80 ≤ opc ∧ opc ≤ 0x85) ∨ (0x90 ≤ opc ∧ opc ≤ 0x94) ∨ opc = 0xB0 then
    [(64 * wf w 71 53, 64)]
  else []

/-- The block and the tensor descriptors that a word names, which its instruction reads once at issue (R278, R312, R346). -/
def blockReads (co : Core) (w : BitVec 128) : List (Nat × Nat) :=
  let opc := wOpc w
  let b := 64 * wf w 71 53
  let f (off : Nat) : Nat × Nat := (bfld (co.read (b + off) 4) 0 4, 128)
  let desc := match opc with
    | 0x80 => if bfld (co.read b 1) 0 1 = 1 then [f 32, f 36] else []
    | 0x83 => [f 0, f 4]
    | 0x38 => if bit (bfld (co.read (b + 23) 1) 0 1) 0 then [] else [f 0]
    | 0x39 => if bit (bfld (co.read (b + 19) 1) 0 1) 0 then [] else [f 8]
    | _ => []
  blockRead w ++ desc

/-- A plan with the reads of its block and descriptors among those the detector examines (R265, R270, R278). -/
def Plan.withBlock (p : Plan) (co : Core) (w : BitVec 128) : Plan := { p with reads := p.reads ++ blockReads co w }

/-- One plan of a group committed: the fields every entry shares, the unit effects and the tags. The vector engine writes its
results in issue order (R207). -/
def Core.commit (co : Core) (x : IssueCtx) (debug : Bool) (j : Nat) (w : BitVec 128) (p : Plan) : Core :=
  let prev := (co.inflight.map (fun e => if e.stream == 3 && x.st == 3 then e.doneCycle else 0)).foldl max 0
  let e := { p.entry with doneCycle := max p.entry.doneCycle prev, word := w, id := x.id j, stream := x.st, ord := x.ord + j, grp := x.ord,
                          issueTick := x.c.tick.toNat }
  let co := p.upd { co with inflight := co.inflight ++ [e] }
  if debug then co.tagIssue (x.id j) x.st (x.ord + j) (p.withBlock x.co w) else co

/-- A group of plans committed in order. -/
def Core.commitAll (co : Core) (x : IssueCtx) (debug : Bool) : Nat → List (BitVec 128 × Plan) → Core
  | _, [] => co
  | j, (w, p) :: r => (co.commit x debug j w p).commitAll x debug (j + 1) r

/-- An instruction, or group, issued: the core advances and holds the new entries; the cell is no longer newly reset. -/
def State.issued (s : State) (x : IssueCtx) (ws : List (BitVec 128)) (ps : List Plan) : State :=
  let co := (x.co.advance x.st ws x.c.tick.toNat).commitAll x s.cfg.debug 0 (ws.zip ps)
  s.setCore x.n co

/-- Issue by a stream: the opcode is the row's, the gate is open, and the plan is made, refused or found hazardous. -/
def State.issue (s : State) (n st opc : Nat) (ws : List (BitVec 128))
    (plan : IssueCtx → Except Refuse (List Plan)) : State :=
  match ws with
  | [] => s
  | w :: _ =>
    if wOpc w = opc then
      match s.mayIssue n st ws with
      | none => s
      | some x =>
        match plan x with
        | .error r => (s.passBy x ws).refuse x r
        | .ok ps =>
          match (if s.cfg.debug then ((ws.zip ps).filterMap (fun q => x.co.hazard x.l st (q.2.withBlock x.co q.1))).head? else none) with
          | some h => s.freeze x h
          | none => s.issued x ws ps
    else s

/-- Issue of a single instruction. -/
def State.issue1 (s : State) (n st opc : Nat) (w : BitVec 128) (plan : IssueCtx → Except Refuse Plan) : State :=
  s.issue n st opc [w] (fun x => match plan x with | .ok p => .ok [p] | .error r => .error r)

/-! Completion (R246, R249, R329 to R332). -/

/-- The 64 bytes of a completion record (R330). -/
def recordBytes (e : Entry) (step : Nat) : List Byte :=
  leBytes 4 e.id.toNat ++ leBytes 2 e.flags ++ leBytes 1 (wOpc e.word) ++ leBytes 1 e.status ++ leBytes 4 step ++
    leBytes 4 0 ++ (List.range 12).flatMap (fun i => leBytes 4 (e.fields.getD i 0).toNat)

/-- Address of the completion record of an instruction (R329). -/
def recordAddr (st ord : Nat) : Nat := ringBase + st * 0x4000 + 64 * (ord % 256)

/-- The core with a completion record written and the flags gathered (R87, R329); NOP writes none. -/
def Core.record (co : Core) (e : Entry) (step : Nat) : Core :=
  let co := { co with flg := co.flg ||| BitVec.ofNat 12 e.flags }
  if wOpc e.word = 1 then co else co.write (recordAddr e.stream e.ord) (recordBytes e step) false

/-- Unpoisoned writes of a list cover every byte of a word, and no poisoned one touches it (R233). -/
def putsCover (ps : List Put) (tile : Bool) (u : Nat) : Bool :=
  (List.range 4).all (fun i => ps.any (fun p => p.tile == tile && !p.pois && decide (p.addr ≤ 4 * u + i ∧ 4 * u + i < p.addr + p.bytes.length))) &&
  !(ps.any (fun p => p.tile == tile && p.pois && overlaps p.addr p.bytes.length (4 * u) 4))

/-- The words that the unpoisoned writes of a list overwrite only in part one by one, and wholly together (R233). -/
def putsEdges (ps : List Put) (tile : Bool) : List Nat :=
  ((ps.filter (fun p => p.tile == tile && !p.pois && !p.bytes.isEmpty &&
      !(decide (p.addr % 4 = 0) && decide (p.bytes.length % 4 = 0)))).flatMap
    (fun p => [p.addr / 4, (p.addr + p.bytes.length - 1) / 4])).filter (putsCover ps tile)

/-- Pending writes of an entry applied; a word that they overwrite completely with unpoisoned data loses its mark (R233). -/
def Core.applyPuts (co : Core) (ps : List Put) : Core :=
  let co := ps.foldl (fun co p => if p.tile then co.twrite p.addr p.bytes p.pois else co.write p.addr p.bytes p.pois) co
  { co with storePois := (putsEdges ps false).foldl psDel co.storePois, tregPois := (putsEdges ps true).foldl psDel co.tregPois }

/-- One bit of the tile registers written; a poisoned one marks its word (R190, R232). -/
def Core.setBit (co : Core) (b : Nat × (Bool × Bool)) : Core :=
  let v := (memGet co.treg (b.1 / 8)).toNat
  let old := v / 2 ^ (b.1 % 8) % 2
  { co with treg := tabSet 0 co.treg (b.1 / 8) (BitVec.ofNat 8 (v - old * 2 ^ (b.1 % 8) + b2n b.2.1 * 2 ^ (b.1 % 8))),
            tregPois := if b.2.2 then psAdd co.tregPois (b.1 / 32) else co.tregPois }

/-- Predicate bits written; a word whose 32 bits are all written unpoisoned loses its mark (R233). -/
def Core.applyBits (co : Core) (bs : List (Nat × (Bool × Bool))) : Core :=
  let co := bs.foldl Core.setBit co
  let whole (u : Nat) : Bool := decide ((bs.filter (fun b => decide (b.1 / 32 = u) && !b.2.2)).length = 32)
  { co with tregPois := co.tregPois.filter (fun u => !(whole u)) }

/-- Every write that an entry still has to make in its core: at its completion, and for its unfinished lines (R152, R246). -/
def Entry.allPuts (e : Entry) : List Put := e.puts ++ e.lines.flatMap (·.puts)

/-- Everything that an entry still has to write in its core, written. -/
def Core.land (co : Core) (e : Entry) : Core := (co.applyPuts e.allPuts).applyBits e.bits

/-- The entry has a class of completion fixed in counter terms (R269): ARR, MVU, VEC, and MRG without HOME. -/
def Entry.fixed (e : Entry) : Bool := decide (e.stream ≤ 3) && e.home.isEmpty && e.homeOut == 0 &&
  !((wOpc e.word == 0x3A || wOpc e.word == 0x3B || wOpc e.word == 0x68) && decide (bfld e.block 8 8 ≠ 0))

/-- The core without an entry. -/
def Core.dropEntry (co : Core) (st ord : Nat) : Core :=
  { co with inflight := co.inflight.filter (fun e => !(e.stream == st && e.ord == ord)) }

/-- The core with an entry changed. -/
def Core.modEntry (co : Core) (st ord : Nat) (f : Entry → Entry) : Core :=
  { co with inflight := co.inflight.map (fun e => if e.stream = st ∧ e.ord = ord then f e else e) }

/-- The oldest entry of a stream. -/
def Core.oldest (co : Core) (st : Nat) : Option Entry := co.inflight.find? (fun e => e.stream == st)

/-- An entry by stream and ORD. -/
def Core.entry (co : Core) (st ord : Nat) : Option Entry := co.inflight.find? (fun e => e.stream == st && e.ord == ord)

/-- The post token of an entry; none once its post has landed in a context image (R484). -/
def Entry.postTok (e : Entry) : Nat := if e.outcome = 1 then 0 else wPost e.word

/-- An instruction's own post landed, and its tags carried until consumption (R249, R269). -/
def Core.postOwn (co : Core) (e : Entry) : Core :=
  let t := e.postTok
  let co' := co.addToken t 1
  if e.fixed then co'.untag e.stream e.ord
  else if t = 0 then co'
  else { co' with awaits := co'.awaits ++ [(t, (tabGet 0 co'.postSeq t, (e.stream, e.ord)))] }

/-- An instruction finished: its pending writes, its record, its entry gone, its post; a post past 255 is TOKEN_OVF
(R249, R332). What the record says of LONGSUM, poison and arrival order is gathered for the next step receipt (R238). -/
def State.finish (s : State) (n : Nat) (e : Entry) : State :=
  match s.cellOf n with
  | none => s
  | some k =>
    let c := s.cell k
    let co := ((s.core n).land e).record e c.step.toNat
    let ovf := co.tokenOvf e.postTok 1
    let seen := 4 * (e.status / 2 % 2) + 8 * b2n (e.flags &&& fLONGSUM != 0) + 16 * b2n (e.flags &&& fPOISON != 0)
    let s := { s with snp := { s.snp with rcFlags := s.snp.rcFlags ||| seen } }
    let s := s.setCore n ((co.dropEntry e.stream e.ord).postOwn e)
    if ovf then s.raiseFault k 0x5103 [.val 1 (c.lcore n), .val 1 e.postTok, .val 4 e.id.toNat] (c.lcore n) 7 0 false
    else s

/-- The units of the cell advance in the present tick: it runs, or is held for a busy unit (log entry 15). -/
def Cell.advances (c : Cell) : Bool := decide (c.run0 ≠ .hold)

/-- An entry's last cycle lies before the present tick, or in it where the units advance (R96, R152). -/
def Cell.due (c : Cell) (e : Entry) : Bool :=
  decide (e.doneCycle ≤ c.cycle) || (c.advances && decide (e.doneCycle ≤ c.cycle + 8))

end Sys2Proof.Machine
end

