-- ==== Sys2Proof/Machine/Schedule.lean ====
section
/-! DEFINITION. The schedule: the end of a tick, SCHED_STALL and NOP (R243 to R259, R308). -/
namespace Sys2Proof.Machine
open Sys2Proof

/-- The words at the head of a stream whose slot is at most V, with their slots (R244). -/
def upTo : List (BitVec 128) → Nat → Nat → List (Nat × BitVec 128)
  | [], _, _ => []
  | w :: r, base, v => if base + wDelta w ≤ v then (base + wDelta w, w) :: upTo r (base + wDelta w) v else []

/-- A list of words cut into single instructions and broadcast groups (R90). -/
def groupsOf : List (BitVec 128) → List (List (BitVec 128))
  | [] => []
  | w :: r =>
    match groupsOf r with
    | [] => [[w]]
    | g :: gs =>
      if isProduct (wOpc w) && (match g with | x :: _ => isLink x | [] => false) then (w :: g) :: gs else [w] :: g :: gs

/-- The instructions of a stream not yet issued whose slot is at most V. -/
def Cell.due_ (c : Cell) (co : Core) (l st v : Nat) : List (Nat × BitVec 128) :=
  upTo (c.rest co l st) (tabGet 0 co.lastSlot st) v

/-- Member core, logical core and stream of every stream of the cell. -/
def Cell.streams (c : Cell) : List (Nat × (Nat × Nat)) :=
  c.members.zipIdx.flatMap (fun (n, l) => (List.range 6).map (fun st => (n, (l, st))))

/-- The number of a core's unissued instructions with slot at most V that wait on a token, counted by wait field. -/
def State.need (s : State) (c : Cell) (n l v t : Nat) : Nat :=
  ((List.range 6).flatMap (fun st => c.due_ (s.core n) l st v)).foldl (fun a p => a + waitsOn p.2 t) 0

/-- The first missing token of the instructions with slot V: logical core and token (R248, R251; log entry 15). -/
def State.missingToken (s : State) (c : Cell) (v : Nat) : Option (Nat × Nat) :=
  (c.streams.flatMap (fun (n, (l, st)) =>
    ((c.due_ (s.core n) l st v).filter (fun p => decide (p.1 = v))).flatMap (fun p =>
      ([wWait0 p.2, wWait1 p.2].filter (fun t => decide (t ≠ 0 ∧ (s.core n).token t < s.need c n l v t))).map
        (fun t => (l, t))))).head?

/-- Instructions of a stream already issued with the counter's slot (R244). -/
def Core.issuedIn (co : Core) (st tick : Nat) : Nat := if tabGet 0 co.lastSlot st = tick then tabGet 0 co.inSlot st else 0

/-- The next instruction or group of every stream whose slot is the counter value and that has not issued, with what it misses at
its cycle; a stream that a HAZARD keeps from issuing has none (R244, R245, R271). -/
def State.unissued (s : State) (c : Cell) : List (Option Nat) :=
  c.streams.flatMap (fun (n, (l, st)) =>
    if c.frozen = some (l, st) then []
    else match groupsOf ((c.due_ (s.core n) l st c.tick.toNat).map Prod.snd) with
    | [] => []
    | g :: _ => [s.condition n st c g (c.cycle + (s.core n).issuedIn st c.tick.toNat) c.tick.toNat false])

/-- A group of a core waits for a start of streaming that falls before a cycle (R93). -/
def Core.startDue (co : Core) (cyc : Nat) : Bool :=
  co.inflight.any (fun e => match e.arrOp with
    | some _ => e.stream == 0 && !e.streaming && decide (co.streamStart (co.groupOf e) < cyc)
    | none => false)

/-- Work of the present tick that must be done before it ends: an instruction still to issue, a start of streaming or a
last write that lies in the tick (R93, R96, R245). -/
def State.tickBusy (s : State) (c : Cell) : Bool :=
  (decide (c.run0 = .run) && (s.unissued c).any (·.isNone)) ||
  c.members.any (fun n =>
    (s.core n).startDue (if decide (c.run0 ≠ .hold) then c.cycle + 8 else c.cycle) ||
    (s.core n).inflight.any (fun e => e.fixed && !e.faulted && decide (e.doneCycle ≠ 0) && c.due e))

/-- The present tick ends: the counter, the unit ticks and the held ticks (R243, R273). `short` says that an instruction of the
counter's slot has not issued: the tick then counts as one held for a busy unit, and the counter value runs again (R245,
R271; log entry 15). -/
def Cell.endTick (c : Cell) (short : Bool) : Cell :=
  let cut := decide (c.run0 = .run) && short
  let st := if cut then .unit else c.run0
  { c with tick := if st = .run then c.tick + 1 else c.tick,
           uh := if st = .unit then c.uh + 1 else c.uh,
           held := if st = .run then c.held else satAdd c.held 1,
           reset := c.reset && decide (st ≠ .run),
           run0 := c.run1, run1 := c.run2 }

/-- Running ticks among the next two. -/
def Cell.ahead (c : Cell) : Nat := b2n (decide (c.run0 = .run)) + b2n (decide (c.run1 = .run))

/-- Unit ticks among the next two. -/
def Cell.uahead (c : Cell) : Nat := b2n (decide (c.run0 ≠ .hold)) + b2n (decide (c.run1 ≠ .hold))

/-- The fields of SCHED_HOLD for a hold: token, cause, logical core (R273). -/
def Cell.holdBy (c : Cell) (tok cause l : Nat) : Cell :=
  { c with lastTok := BitVec.ofNat 8 tok, lastCause := BitVec.ofNat 3 cause, lastCore := BitVec.ofNat 5 (l % 32), missCore := l }

/-- SCHED_STALL: the cell has been held longer than HOLDLIM without a running tick, not by a fault or a supply hold; a
fault that nothing resolves (R259). Its data names the first missing token, or the unit condition. -/
def execSchedStall (cell : Fin 16) (s : State) : Res :=
  let c := s.cell cell
  if s.operational && c.exists_ && !c.blocked && decide (c.run0 ≠ .run ∧ c.run1 ≠ .run ∧ c.run2 ≠ .run) then
    let cond := if c.lastCause = 0 then c.lastTok.toNat else c.lastCause.toNat
    .next (s.raiseFault cell 0x5102 [.val 4 c.tick.toNat, .val 1 c.missCore, .val 1 cond] c.missCore 7 0 false)
  else .next s

/-- NOP: waits on its tokens, does nothing else, and completes at the end of its issue tick (R308). -/
def planNop (x : IssueCtx) : Except Refuse Plan :=
  .ok { entry := { doneCycle := x.c.cycle + 8, beatEnd := x.c.cycle } }

/-- NOP in the stream named (R308). -/
def execNop (core : Fin 48) (stream : Fin 6) (w : BitVec 128) (s : State) : Res :=
  .next (s.issue1 core stream 0x01 w planNop)

end Sys2Proof.Machine
end

