-- ==== Sys2Proof/Machine/Special.lean ====
section
/-! DEFINITION. Special functions (R199, R200): the exact value to many more bits than a result holds, and a result that the
specification leaves open, free among all FP32 values inside the error bound (log entry 6). -/
namespace Sys2Proof.Machine
open Sys2Proof

/-! Square roots. -/

/-- Integer square root of x by descending bits: r starts at 0, bit n is tried first. -/
def isqrtBits (x : Nat) : Nat → Nat → Nat
  | 0, r => r
  | n + 1, r => isqrtBits x n (if (r + 2 ^ n) * (r + 2 ^ n) ≤ x then r + 2 ^ n else r)

/-- Integer square root. -/
def isqrt (x : Nat) : Nat := isqrtBits x (Nat.log2 x / 2 + 1) 0

/-! Exact values to 320 bits after the point. A pair (n, u) stands for n * 2^u. -/

/-- Bits after the point. -/
def fixP : Nat := 320

/-- 1. -/
def fixOne : Nat := 2 ^ fixP

/-- ln 2: the sum of 1 / (n 2^n). -/
def fixLn2 : Nat := ((List.range fixP).map (fun i => fixOne / ((i + 1) * 2 ^ (i + 1)))).foldl (· + ·) 0

/-- arctan(1/k) by its series: term number, power of 1/k so far. -/
def fixAtan (k : Nat) : Nat → Nat → Nat → Int → Int
  | 0, _, _, acc => acc
  | f + 1, n, pw, acc =>
    let t : Int := pw / (2 * n + 1)
    fixAtan k f (n + 1) (pw / (k * k)) (if n % 2 = 0 then acc + t else acc - t)

/-- pi (Machin). -/
def fixPi : Nat := (16 * fixAtan 5 80 0 (fixOne / 5) 0 - 4 * fixAtan 239 30 0 (fixOne / 239) 0).toNat

/-- 2 / sqrt(pi). -/
def fixTwoRtPi : Nat := isqrt (4 * 2 ^ (3 * fixP) / fixPi)

/-- e^(r / 2^P) for 0 ≤ r < 2^P: the Taylor polynomial from its last term on. -/
def fixExp (r : Nat) : Nat → Nat → Nat
  | 0, acc => acc
  | n + 1, acc => fixExp r n (fixOne + acc * r / fixOne / (n + 1))

/-- 2^(z / 2^P). -/
def fixExp2 (z : Int) : Nat × Int :=
  let q := z / (fixOne : Int)
  let f := (z % (fixOne : Int)).toNat
  (fixExp (f * fixLn2 / fixOne) 80 fixOne, q - (fixP : Int))

/-- A finite value, at most 2^20 in magnitude, in units of 2^-P. -/
def fixOf (neg : Bool) (m : Nat) (e : Int) : Int :=
  let n := (shiftFloor m (e + (fixP : Int))).1
  if neg then -(n : Int) else n

/-- The fraction bits of log2 of a number of [1, 2), by repeated squaring. -/
def fixLogBits : Nat → Nat → Nat → Nat
  | 0, _, acc => acc
  | f + 1, x, acc =>
    let y := x * x / fixOne
    if 2 * fixOne ≤ y then fixLogBits f (y / 2) (2 * acc + 1) else fixLogBits f y (2 * acc)

/-- log2 of m * 2^e, in units of 2^-120. -/
def fixLog2 (m : Nat) (e : Int) : Int :=
  floorLog2 m e * 2 ^ 120 + fixLogBits 120 (shiftFloor m ((fixP : Int) - (Nat.log2 m : Int))).1 0

/-- The sum of (-t)^n / (n! (2n + 1)). -/
def fixErfSum (t : Nat) : Nat → Nat → Nat → Int → Int
  | 0, _, _, acc => acc
  | f + 1, n, term, acc =>
    let a : Int := term / (2 * n + 1)
    fixErfSum t f (n + 1) (term * t / fixOne / (n + 1)) (if n % 2 = 0 then acc + a else acc - a)

/-- erf(x) / x, from x^2 in units of 2^-P. -/
def fixErfOver (t : Nat) : Nat :=
  ((fixErfSum t 600 0 fixOne 0) * (fixTwoRtPi : Int) / (fixOne : Int)).toNat

/-- The square of m * 2^e in units of 2^-P. -/
def fixSq (m : Nat) (e : Int) : Nat := (shiftFloor (m * m) (2 * e + (fixP : Int))).1

/-- A value just below 1. -/
def almostOne : Nat × Int := (2 ^ 200 - 1, -200)

/-- tanh of the magnitude m * 2^e: the series near 0, 1 less a trifle far out, (E - 1) / (E + 1) with E = e^(2x) between. -/
def tanhOf (m : Nat) (e : Int) : Nat × Int :=
  if 6 ≤ floorLog2 m e then almostOne
  else if floorLog2 m e < -16 then
    let t := fixSq m e
    (m * min (fixOne - 1) (fixOne - t / 3 + 2 * t * t / fixOne / 15), e - (fixP : Int))
  else
    let z := 2 * fixOf false m e * (fixOne : Int) / (fixLn2 : Int)
    let (n, u) := fixExp2 z
    let ex := (shiftFloor n (u + (fixP : Int))).1
    ((ex - fixOne) * fixOne / (ex + fixOne), -(fixP : Int))

/-- erf of the magnitude m * 2^e. -/
def erfOf (m : Nat) (e : Int) : Nat × Int :=
  if 3 ≤ floorLog2 m e then almostOne else (m * fixErfOver (fixSq m e), e - (fixP : Int))

/-- sigmoid of m * 2^e with its sign. -/
def sigmOf (neg : Bool) (m : Nat) (e : Int) : Nat × Int :=
  if 8 ≤ floorLog2 m e then (if neg then (1, -400) else almostOne)
  else
    let (n, u) := fixExp2 (fixOf (!neg) m e * (fixOne : Int) / (fixLn2 : Int))
    (2 ^ (2 * fixP + 320) / (fixOne + (shiftFloor n (u + (fixP : Int))).1), -(fixP + 320 : Int))

/-- (1 + erf(x / sqrt 2)) / 2. -/
def phiOf (neg : Bool) (m : Nat) (e : Int) : Nat × Int :=
  if 4 ≤ floorLog2 m e then (if neg then (1, -400) else almostOne)
  else
    let t := fixSq m e / 2
    let rt := isqrt (t * fixOne)
    let r := min fixOne (fixErfOver t * rt / fixOne)
    (if neg then fixOne - r else fixOne + r, -(fixP + 1 : Int))

/-! The open result. -/

/-- The FP32 code of the largest representable magnitude at most n * 2^u, and whether it is less. -/
def codeDown (n : Nat) (u : Int) : Nat × Bool :=
  if n = 0 then (0, false)
  else
    let w := fp32.unit n u
    let (q, ix) := shiftFloor n (u - w)
    (fp32.encMag false q w, ix)

/-- The number, in the order of the FP32 values, of the largest one at most n * 2^u; +0 has number 0. -/
def ordLe (n : Int) (u : Int) : Int :=
  let (c, ix) := codeDown n.natAbs u
  if 0 ≤ n then min (c : Int) 0x7F7FFFFF else -((c : Int) + (if ix then 1 else 0))

/-- The same of the smallest one at least n * 2^u. -/
def ordGe (n : Int) (u : Int) : Int := -(ordLe (-n) u)

/-- The FP32 codes, numbered with their sign, whose rounding to BF16 lies within 1 BF16 ULP of n * 2^u: lowest and highest (R199). -/
def bf16Within (n u : Int) : Int × Int :=
  let w := max (floorLog2 n.natAbs u) (-126) - 7
  let e := min u w
  let y := n * 2 ^ (u - e).toNat
  let d : Int := 2 ^ (w - e).toNat
  let lo := -((-(ordGe (y - d) e)) / 65536)
  let hi := ordLe (y + d) e / 65536
  (65536 * lo - (if lo % 2 = 0 then 32768 else 32767), 65536 * hi + (if hi % 2 = 0 then 32768 else 32767))

/-- A result within k ULP, or the absolute floor 2^-120 where one is given, of the exact value n * 2^u: free among all of them; with the
floor, among those whose BF16 rounding is good to 1 BF16 ULP, which has no floor (R199, R200). The result is inexact; below the smallest
normal it sets UF (R85). -/
def boundedResult (fn v k : Nat) (floor : Bool) (n u : Int) : Nat × Nat :=
  let w := max (floorLog2 n.natAbs u) (-126) - 23
  let e := min u (min w (-120))
  let d := max (k * 2 ^ (w - e).toNat) (if floor then 2 ^ (-120 - e).toNat else 0)
  let y := n * 2 ^ (u - e).toNat
  let bf := bf16Within n u
  let lo := if floor then max (ordGe (y - (d : Int)) e) bf.1 else ordGe (y - (d : Int)) e
  let hi := if floor then min (ordLe (y + (d : Int)) e) bf.2 else ordLe (y + (d : Int)) e
  let free := (Config.sfu fn (BitVec.ofNat 32 v)).toNat
  let r := lo + ((free / 2 % ((hi - lo).toNat + 1) : Nat) : Int)
  let c := r.natAbs + (if r < 0 ∨ (r = 0 ∧ floor ∧ free % 2 = 1) then 2 ^ 31 else 0)
  (c, fNX ||| (if c % 2 ^ 31 < 0x00800000 then fUF else 0))

/-- exp2 (R200). -/
def exp2f (v : Nat) : Nat × Nat :=
  match fp32.dec v with
  | .nan => (fp32.nan, fNV)
  | .inf n => (if n then 0 else fp32.encInf false, 0)
  | .fin neg m e =>
    if m = 0 then (0x3F800000, 0)
    else
      let (k, ix) := shiftFloor m e
      if 8 ≤ floorLog2 m e then (if neg then (0, fUF ||| fNX) else (fp32.encInf false, fOF ||| fNX))
      else if !ix then (if neg ∧ 149 < k then (0, fUF ||| fNX) else if !neg ∧ 128 ≤ k then (fp32.encInf false, fOF ||| fNX)
        else fp32.rne (.fin false 1 (if neg then -(k : Int) else k)))
      else if !neg ∧ 128 ≤ k then (fp32.encInf false, fOF ||| fNX)
      else if neg ∧ 149 ≤ k then (0, fUF ||| fNX)
      else let (n, u) := fixExp2 (fixOf neg m e); boundedResult 0 v 1 false n u

/-- log2 (R200). -/
def log2f (v : Nat) : Nat × Nat :=
  match fp32.dec v with
  | .nan => (fp32.nan, fNV)
  | .inf n => if n then (fp32.nan, fNV) else (fp32.encInf false, 0)
  | .fin n m e =>
    if m = 0 then (fp32.encInf true, fDZ)
    else if n then (fp32.nan, fNV)
    else if m = 2 ^ Nat.log2 m then fp32.rne (.ofInt (floorLog2 m e) 0)
    else boundedResult 1 v 1 false (fixLog2 m e) (-120)

/-- rsqrt: one of the codes within 1 ULP of the exact value; the exact value itself sets no NX where it is representable (R200). -/
def rsqrtf (v : Nat) : Nat × Nat :=
  match fp32.dec v with
  | .nan => (fp32.nan, fNV)
  | .inf n => if n then (fp32.nan, fNV) else (0, 0)
  | .fin n m e =>
    if m = 0 then (fp32.encInf n, fDZ)
    else if n then (fp32.nan, fNV)
    else
      let m' := if e % 2 = 0 then m else 2 * m
      let e' := if e % 2 = 0 then e else e - 1
      let t := isqrt (2 ^ 200 / m')
      let exact := decide (t * t * m' = 2 ^ 200)
      let (r, f) := boundedResult 2 v 1 false ((2 * t + b2n (!exact) : Nat) : Int) (-101 - e' / 2)
      (r, if exact && (fp32.dec r).eqv (.fin false t (-100 - e' / 2)) then 0 else f)

/-- The code of 1.0. -/
def oneCode : Nat := 0x3F800000

/-- tanh, function number 3, and erf, 4 (R200). -/
def oddUnit (fn v : Nat) : Nat × Nat :=
  match fp32.dec v with
  | .nan => (fp32.nan, fNV)
  | .inf n => (b2n n * 2 ^ 31 + oneCode, 0)
  | .fin n m e =>
    if m = 0 then (v, 0)
    else
      let (y, u) := if fn = 3 then tanhOf m e else erfOf m e
      boundedResult fn v 2 false (if n then -(y : Int) else y) u

/-- sigmoid (R200). -/
def sigmf (v : Nat) : Nat × Nat :=
  match fp32.dec v with
  | .nan => (fp32.nan, fNV)
  | .inf n => (if n then 0 else oneCode, 0)
  | .fin n m e =>
    if m = 0 then (0x3F000000, 0)
    else let (y, u) := sigmOf n m e; boundedResult 5 v 2 false y u

/-- SiLU, function number 6, and GELU, 7 (R200). -/
def gatef (fn v : Nat) : Nat × Nat :=
  match fp32.dec v with
  | .nan => (fp32.nan, fNV)
  | .inf n => (if n then 2 ^ 31 else fp32.encInf false, 0)
  | .fin n m e =>
    if m = 0 then (v, 0)
    else
      let (y, u) := if fn = 6 then sigmOf n m e else phiOf n m e
      boundedResult fn v (if fn = 6 then 3 else 4) true (if n then -((y * m : Nat) : Int) else (y * m : Nat)) (u + e)

end Sys2Proof.Machine
end

