-- ==== Sys2Proof/Machine/Arrays.lean ====
section
/-! DEFINITION. The matrix arrays: loading weights, the five array products, the accumulator tiles, the start of
streaming, and DRAIN (chapters 4, 5; R280 to R288). -/
namespace Sys2Proof.Machine
open Sys2Proof

/-! Loading weights (R92, R128, R131 to R133). -/

/-- VAC(s): the index of a vacant slot (R124). -/
def vacIdx (g s : Nat) : Nat := if g = 1 ∧ s = 31 then 0 else 0xFF

/-- Status of a slot index: 0 vacant, 1 malformed, 2 out of range, 3 live (R124 to R126). -/
def slotStatus (g k0 kext s idx : Nat) : Nat :=
  if idx = vacIdx g s then 0
  else if idx / 8 ≠ s / g then 1
  else if kext ≤ k0 + idx then 2
  else 3

/-- Bytes per slice record of a dense weight format (R282). -/
def denseLen (fmt : Nat) : Nat := if fmt = 1 then 64 else if fmt = 6 then 34 else 33

/-- Poison marks of n units of b bytes from an address. -/
def poisUnits (co : Core) (a b n : Nat) : List Bool := (List.range n).map (fun i => co.poisoned (a + i * b) b)

/-- A mask from a list of bits, bit 0 first. -/
def maskOf (bs : List Bool) : Nat := (bs.zipIdx.map (fun (b, i) => if b then 2 ^ i else 0)).foldl (· + ·) 0

/-- A dense column slice (R282). -/
def loadDense (co : Core) (fmt a : Nat) : Slice :=
  let n := if fmt = 6 then 64 else 32
  let b := co.read a (denseLen fmt)
  let eb (i : Nat) : Bool := match fmt with
    | 1 => co.poisoned (a + 2 * i) 2 | 6 => co.poisoned (a + i / 2) 1 | _ => co.poisoned (a + i) 1
  let sb (i : Nat) : Bool := match fmt with
    | 1 => false | 6 => co.poisoned (a + 32 + i / 32) 1 | _ => co.poisoned (a + 32) 1
  { codes := (List.range n).map (fun i => BitVec.ofNat 16 (elemAt fmt b i)),
    scales := if fmt = 1 then [] else bsub b 32 (if fmt = 6 then 2 else 1),
    idx := [], live := BitVec.allOnes 32,
    pois := BitVec.ofNat 64 (maskOf ((List.range n).map (fun i => eb i || sb i))) }

/-- A relief column slice with its malformed and out-of-range slots and its conversion flags (R128, R131 to R133). -/
def loadRelief (co : Core) (fmt g k0 kext form : Nat) (sgrad : Bool) (a : Nat) : Slice × Nat × Nat :=
  let ia := if form = 0 then a + 16 else a
  let idx := co.read ia 32
  let stat (s : Nat) : Nat := slotStatus g k0 kext s (idx.getD s 0).toNat
  let live := (List.range 32).map (fun s => decide (stat s = 3))
  let bad := ((List.range 32).filter (fun s => decide (stat s = 1 ∨ stat s = 2))).length
  let ipois := (List.range 32).map (fun s => co.poisoned (ia + s) 1)
  if sgrad then
    ({ codes := [], scales := [], idx := idx, live := BitVec.ofNat 32 (maskOf live),
       pois := BitVec.ofNat 64 (maskOf ipois) }, bad, 0)
  else if form = 0 then
    let wpois := (List.range 32).map (fun s => co.poisoned (a + 48 + 2 * s) 2)
    let vals := (List.range 32).map (fun s =>
      if (live.getD s false) && !(wpois.getD s false) then bf16.dec (bfld (co.read (a + 48 + 2 * s) 2) 0 2) else Xv.zero)
    let (cs, sc, fl) := mxBlock fmt vals (fun _ => none)
    ({ codes := cs.map (BitVec.ofNat 16), scales := [BitVec.ofNat 8 sc], idx := idx,
       live := BitVec.ofNat 32 (maskOf live),
       pois := BitVec.ofNat 64 (maskOf ((ipois.zip wpois).map (fun p => p.1 || p.2))) }, bad, fl)
  else
    let b := co.read (a + 32) 32
    let sp := co.poisoned (a + 64) 1
    let wpois := (List.range 32).map (fun s => co.poisoned (a + 32 + s) 1 || (sp && live.getD s false))
    ({ codes := (List.range 32).map (fun s => if live.getD s false then BitVec.ofNat 16 (elemAt fmt b s) else 0),
       scales := co.read (a + 64) 1, idx := idx, live := BitVec.ofNat 32 (maskOf live),
       pois := BitVec.ofNat 64 (maskOf ((ipois.zip wpois).map (fun p => p.1 || p.2))) }, bad, 0)

/-! The checker's residues (R209, R210, R212). -/

/-- The modulus p = 2^61 - 1 of the residues and of the seal function (R209, R234). -/
def sealP : Nat := 2 ^ 61 - 1

/-- rho(x) (R209). -/
def rho (x : Int) : Nat := (x % (sealP : Int)).toNat

/-- rot(x, e) (R209). -/
def rot (x e : Int) : Nat := rho (x * (2 ^ (e % 61).toNat : Nat))

/-- The residue of a sum. -/
def rhoSum (xs : List Nat) : Nat := xs.foldl (fun a x => (a + x) % sealP) 0

/-- The live slots of a slice. -/
def Slice.lives (sl : Slice) : List Nat := (List.range 32).filter (fun s => sl.live.getLsbD s)

/-- A weight block of a dense slice: block h of an MX slice. -/
def Slice.blk (sl : Slice) (fmt h : Nat) : Blk :=
  mkBlk fmt ((List.range 32).map (fun i => (sl.codes.getD (32 * h + i) 0).toNat)) (sl.scales.getD h 0).toNat

/-- The weight block of a relief slice: one unit and one scale for its 32 slots (R131). -/
def Slice.rblk (sl : Slice) (fmt : Nat) : Blk :=
  mkBlk fmt ((List.range 32).map (fun i => (sl.codes.getD i 0).toNat)) (sl.scales.getD 0 0).toNat

/-- The live slots of an MX slice as (K-position, integer weight, weight exponent e_n) (R209, R210). -/
def Slice.terms (sl : Slice) (relief : Bool) (fmt : Nat) : List (Nat × (Int × Int)) :=
  if relief then
    let b := sl.rblk fmt
    sl.lives.map (fun s => ((sl.idx.getD s 0).toNat, (b.ints.getD s 0, b.exp)))
  else (List.range (if fmt = 6 then 2 else 1)).flatMap (fun h =>
    let b := sl.blk fmt h
    (List.range 32).map (fun i => (32 * h + i, (b.ints.getD i 0, b.exp))))

/-- The weight exponent e_n of block h of a slice (R209). -/
def Slice.expOf (sl : Slice) (relief : Bool) (fmt h : Nat) : Int := (if relief then sl.rblk fmt else sl.blk fmt h).exp

/-- The column residue ws[k] over the slices of a load (R210). -/
def laneAt (ts : List (List (Nat × (Int × Int)))) (k : Nat) : Nat :=
  rhoSum (ts.flatMap (fun l => (l.filter (fun t => decide (t.1 = k))).map (fun t => rot t.2.1 t.2.2)))

/-- The checker lane and the slice residues filled as the converted stream passes; a BF16 load and a load of indices alone have
none (R210, R212). -/
def WSet.fillLane (w : WSet) : WSet :=
  if w.sgrad ∨ w.wfmt = 1 then w
  else
    let ts := (List.range 1024).map (fun n => (tabGet {} w.slices n).terms w.relief w.wfmt)
    { w with lane := (List.range 256).foldl (fun t k => tabSet 0 t k (BitVec.ofNat 61 (laneAt ts k))) [],
             res := ts.zipIdx.foldl (fun t (l, n) => tabSet 0 t n (BitVec.ofNat 61 (rho ((l.map (·.2.1)).foldl (· + ·) 0)))) [] }

/-- What a load names. -/
structure LoadSpec where
  /-- Opcode. -/
  opc : Nat
  /-- Weight format. -/
  fmt : Nat
  /-- Occupancy bound. -/
  g : Nat
  /-- Reach base. -/
  k0 : Nat
  /-- K-extent. -/
  kext : Nat
  /-- Form. -/
  form : Nat
  /-- Base of slice 0. -/
  waddr : Nat
  /-- Slice stride. -/
  wstride : Nat
  deriving DecidableEq, Repr

/-- Relief products. -/
def isRelief (opc : Nat) : Bool := decide (0x12 ≤ opc ∧ opc ≤ 0x14)

/-- Flags of the E5M2 window as the weight loader converts a slice (R64, R65). -/
def windowFlags (fmt : Nat) (x : Slice) : Nat :=
  if fmt = 3 then (mkBlk 3 (x.codes.map (fun (c : BitVec 16) => c.toNat)) 0).flags else 0

/-- A weight set as the loader fills it (R65, R92, R132, R210). -/
def loadSet (co : Core) (l : LoadSpec) : WSet := WSet.fillLane <|
  if isRelief l.opc then
    let cols := (List.range 1024).map (fun n =>
      loadRelief co l.fmt l.g l.k0 l.kext l.form (l.opc == 0x14) (l.waddr + n * l.wstride))
    { loaded := true, relief := true, g := l.g, k0 := l.k0, kext := l.kext, form := l.form, wfmt := l.fmt,
      sgrad := l.opc == 0x14, rangeSlots := (cols.map (fun c => c.2.1)).foldl (· + ·) 0,
      slices := cols.zipIdx.foldl (fun t (c, n) => tabSet {} t n c.1) [],
      waddr := l.waddr, wstride := l.wstride, flags := orFlags (cols.map (fun c => c.2.2 ||| windowFlags l.fmt c.1)) }
  else
    let cols := (List.range 1024).map (fun n => loadDense co l.fmt (l.waddr + n * l.wstride))
    { loaded := true, relief := false, wfmt := l.fmt,
      slices := cols.zipIdx.foldl (fun t (c, n) => tabSet {} t n c) [], flags := orFlags (cols.map (windowFlags l.fmt)),
      waddr := l.waddr, wstride := l.wstride }

/-- The load that filled a set, for a reload from its source as it stands (R216, R217). -/
def WSet.spec (w : WSet) : LoadSpec :=
  ⟨if w.sgrad then 0x14 else if w.relief then 0x12 else 0x10, w.wfmt, w.g, w.k0, w.kext, w.form, w.waddr, w.wstride⟩

/-- The set loaded again from its source as it stands; a set never loaded stays empty (R92, R216). -/
def WSet.reload (w : WSet) (co : Core) : WSet := if w.loaded then { loadSet co w.spec with id := w.id } else w

/-- The byte range of slice n that the loader reads (R128, R282). -/
def LoadSpec.range (l : LoadSpec) (n : Nat) : Nat × Nat :=
  let a := l.waddr + n * l.wstride
  if isRelief l.opc then
    if l.form = 0 then (a + 16, if l.opc = 0x14 then 32 else 96) else (a, if l.opc = 0x14 then 32 else 65)
  else (a, denseLen l.fmt)

/-! Activation records (R282). -/

/-- Bytes of a block record of a streamed format. -/
def recLen (fmt : Nat) : Nat := if fmt = 1 then 64 else if fmt = 6 then 17 else 33

/-- One record as the broadcast delivers it: the block and the poison of each element, its scale's included. -/
structure ARec where
  /-- The block. -/
  blk : Blk
  /-- BF16 codes, for BF16 records. -/
  raw : List Nat
  /-- Poison of each element. -/
  pois : List Bool
  /-- Some part is poisoned. -/
  anyPois : Bool

/-- The record at an address. -/
def readRec (co : Core) (fmt a : Nat) : ARec :=
  let b := co.read a (recLen fmt)
  let cs := (List.range 32).map (elemAt fmt b)
  let eb (i : Nat) : Bool := match fmt with
    | 1 => co.poisoned (a + 2 * i) 2 | 6 => co.poisoned (a + i / 2) 1 | _ => co.poisoned (a + i) 1
  let sp := if fmt = 1 then false else co.poisoned (a + recLen fmt - 1) 1
  ⟨if fmt = 1 then ⟨[], [], 0, false, 0⟩ else mkBlk fmt cs (b.getD (recLen fmt - 1) 0).toNat, cs,
   (List.range 32).map (fun i => eb i || sp), co.poisoned a (recLen fmt)⟩

/-- The zero record of R100: every element 0, scale 0. -/
def zeroRec (fmt : Nat) : ARec :=
  ⟨if fmt = 1 then ⟨[], [], 0, false, 0⟩ else mkBlk fmt (List.replicate 32 0) 0, List.replicate 32 0,
   List.replicate 32 false, false⟩

/-! Adds. -/

/-- One accumulator add: tile row, column, add index, the block sum as FP32 bits, its flags and its poison. -/
structure AAdd where
  /-- Tile row. -/
  row : Nat
  /-- Tile column. -/
  col : Nat
  /-- Add index of the instruction to this element. -/
  k : Nat
  /-- Block sum. -/
  b : Nat
  /-- Flags. -/
  fl : Nat
  /-- Poisoned. -/
  pois : Bool
  deriving DecidableEq, Repr

/-- Bits [hi:lo] of a mask are not all zero. -/
def anyBits (m : BitVec 64) (lo n : Nat) : Bool := decide (m.toNat / 2 ^ lo % 2 ^ n ≠ 0)

/-- The errors of a list that fall on DPU (n + v) mod 1,024, by row, logical column and block (R211, R227; log entry 12). -/
def errAt (es : List TreeErr) (v row n k : Nat) : Int :=
  ((es.filter (fun e => decide (e.row = row ∧ e.dpu = (n + v) % 1024 ∧ e.k = k))).map (·.err)).foldl (· + ·) 0

/-- Where an instruction's rows come from, and the errors of the datapath while it streams them. -/
structure Feed where
  /-- The core store as the broadcast reads it for a row (R95). -/
  rd : Nat → Core
  /-- The error of row, logical column and block. -/
  er : Nat → Nat → Nat → Int

/-- The two FP32 block sums of 16 BF16 products of a column, or an MX block sum: one add of a dense row (R284). -/
def denseAdd (fd : Feed) (ws : WSet) (wfmt m n h : Nat) (r : ARec) : AAdd :=
  let sl := tabGet {} ws.slices n
  if wfmt = 1 then
    let x := (r.raw.drop (16 * h)).take 16
    let w := (List.range 16).map (fun i => (sl.codes.getD (16 * h + i) 0).toNat)
    let (b, fl) := bf16Block x w (fd.er m n h)
    ⟨m, n, h, b, fl, ((r.pois.drop (16 * h)).take 16).any id || anyBits sl.pois (16 * h) 16⟩
  else
    let (b, fl) := blockSum r.blk (sl.blk wfmt h) (fd.er m n h)
    ⟨m, n, h, b, fl, r.anyPois || anyBits sl.pois (32 * h) 32⟩

/-- Adds per element and row of a dense instruction (R89). -/
def denseH (wfmt : Nat) : Nat := if wfmt = 1 ∨ wfmt = 6 then 2 else 1

/-- Output extents of a convolution, floored (R98): H_out and W_out. -/
def convOut (p : List Nat) : Int × Int :=
  let f (i : Nat) : Int := (p.getD i 0 : Int)
  ((f 0 + f 9 + f 10 - f 7 * (f 3 - 1) - 1) / f 5 + 1, (f 1 + f 11 + f 12 - f 8 * (f 4 - 1) - 1) / f 6 + 1)

/-- Address of the first record that CONV fetches for row r, none for a zero block (R100, R285). The parameters are
H_in, W_in, C, KH, KW, SY, SX, DY, DX, PT, PB, PL, PR, ky, kx, g, p0. -/
def convRow (o : ArrOp) (r : Nat) : Option Nat :=
  let f (i : Nat) : Int := (o.conv.getD i 0 : Int)
  let p : Int := f 16 + r
  let (ho, wo) := convOut o.conv
  let oy := p / wo
  let ox := p % wo
  let iy := oy * f 5 - f 9 + f 13 * f 7
  let ix := ox * f 6 - f 11 + f 14 * f 8
  if ho * wo ≤ p ∨ iy < 0 ∨ f 0 ≤ iy ∨ ix < 0 ∨ f 1 ≤ ix then none
  else some (o.xaddr + (iy * f 1 + ix).toNat * o.xrs)

/-- Records of a dense row, in order: one, or two for MXFP4 weights (R282, R285). -/
def denseRecs (co : Core) (o : ArrOp) (wfmt r : Nat) : List ARec :=
  let nrec := if wfmt = 6 then 2 else 1
  let bs := recLen o.xfmt
  if o.opc = 0x11 then
    match convRow o r with
    | none => List.replicate nrec (zeroRec o.xfmt)
    | some a => (List.range nrec).map (fun j => readRec co o.xfmt (a + (o.conv.getD 15 0 * nrec + j) * bs))
  else (List.range nrec).map (fun j => readRec co o.xfmt (o.xaddr + r * o.xrs + j * bs))

/-- The adds of row m of MMA or CONV (R284, R285), with the flags of the operands' conversions. -/
def denseRow (fd : Feed) (o : ArrOp) (ws : WSet) (wfmt m : Nat) : List AAdd × Nat :=
  let rs := denseRecs (fd.rd m) o wfmt m
  ((List.range 1024).flatMap (fun n => (List.range (denseH wfmt)).map (fun h =>
      let r := rs.getD (if wfmt = 6 then h else 0) (zeroRec o.xfmt)
      denseAdd fd ws wfmt m n h r)),
   orFlags (rs.map (fun r => r.blk.flags)))

/-- The block sum of selected pairs of two blocks (R68 to R70). -/
def pairSum (x w : Blk) (ps : List (Nat × Nat)) (err : Int) : Nat × Nat :=
  blockSum { x with vals := ps.map (fun p => x.vals.getD p.1 Xv.zero), ints := ps.map (fun p => x.ints.getD p.1 0) }
    { w with vals := ps.map (fun p => w.vals.getD p.2 Xv.zero), ints := ps.map (fun p => w.ints.getD p.2 0) } err

/-- The activation records of a row over the reach of a relief set; none past the K-extent (R136). -/
def reachRecs (co : Core) (o : ArrOp) (ws : WSet) (m : Nat) : List (Option ARec) :=
  (List.range (8 / ws.g)).map (fun b =>
    if ws.kext ≤ ws.k0 + 32 * b then none
    else some (readRec co o.xfmt (o.xaddr + m * o.xrs + (ws.k0 / 32 + b) * recLen o.xfmt)))

/-- The 32 records of a row of a column feed or of a TSP row (R137, R140). -/
def colRecs (co : Core) (fmt a : Nat) : List ARec :=
  (List.range 32).map (fun j => readRec co fmt (a + j * recLen fmt))

/-- The adds of row m of SMMA (R136). -/
def smmaRow (fd : Feed) (o : ArrOp) (ws : WSet) (m : Nat) : List AAdd × Nat :=
  let nb := 8 / ws.g
  let rs := reachRecs (fd.rd m) o ws m
  ((List.range 1024).flatMap (fun n =>
      let sl := tabGet {} ws.slices n
      let wb := sl.rblk ws.wfmt
      (List.range nb).map (fun b =>
        match rs.getD b none with
        | none => ⟨m, n, b, 0, 0, decide (sl.pois ≠ 0)⟩
        | some r =>
          let ps := (sl.lives.filter (fun s => decide (s / (4 * ws.g) = b))).map
            (fun s => ((sl.idx.getD s 0).toNat % 32, s))
          let (v, fl) := pairSum r.blk wb ps (fd.er m n b)
          ⟨m, n, b, v, fl, decide (sl.pois ≠ 0) || ps.any (fun p => r.pois.getD p.1 false)⟩)),
   orFlags (rs.map (fun r => match r with | some r => r.blk.flags | none => 0)))

/-- aligned_sum: terms truncated toward zero 56 binades below the largest exponent, summed exactly (R134). -/
def alignedSum (xs : List (Int × Int)) : Int × Int × Bool :=
  let nz := xs.filter (fun p => decide (p.1 ≠ 0))
  match nz with
  | [] => (0, 0, false)
  | p :: r =>
    let eb := (r.foldl (fun m q => max m q.2) p.2) - 56
    let ts := nz.map (fun q =>
      let (n, ix) := shiftFloor q.1.natAbs (q.2 - eb)
      ((if q.1 < 0 then -(n : Int) else (n : Int)), ix))
    (treeSum (ts.map Prod.fst), eb, ts.any Prod.snd)

/-- One product that enters an aligned sum: the two values, the integer product and its exponent, scale NaN and poison. -/
structure AProd where
  /-- Operand values. -/
  v : Xv × Xv
  /-- Integer product. -/
  t : Int
  /-- Exponent. -/
  e : Int
  /-- A scale is NaN. -/
  nan : Bool
  /-- Poison. -/
  pois : Bool

/-- The block sum of an aligned list, with R69 applied to it (R134, R135). -/
def alignedBlock (ps : List AProd) : Nat × Nat :=
  match specialSum (ps.map (·.v)) (ps.any (·.nan)) with
  | some (.nan, fl) => (fp32.nan, fl)
  | some (.inf n, fl) => (fp32.encInf n, fl)
  | some (v, fl) => ((fp32.rne v).1, fl)
  | none =>
    let (t, eb, ix) := alignedSum (ps.map (fun p => (p.t, p.e)))
    let (b, fl) := if t = 0 then (0, 0) else fp32.rne (.ofInt t eb)
    (b, fl ||| (if ix then fNX else 0))

/-- The product of element i of one block and element j of another, with an error of the datapath. -/
def mkProd (x w : Blk) (i j : Nat) (pois : Bool) (err : Int) : AProd :=
  ⟨(x.vals.getD i Xv.zero, w.vals.getD j Xv.zero), x.ints.getD i 0 * w.ints.getD j 0 + err, x.exp + w.exp,
   x.nanScale || w.nanScale, pois⟩

/-- The adds of row m of TSP (R137, R138). -/
def tspRow (fd : Feed) (o : ArrOp) (ws : WSet) (m : Nat) : List AAdd × Nat :=
  let kr := 256 / ws.g
  let rs := colRecs (fd.rd m) o.xfmt (o.xaddr + m * o.xrs)
  let cols := (List.range 1024).map (fun n => tabGet {} ws.slices n)
  let prods := cols.zipIdx.flatMap (fun (sl, n) =>
    let wb := sl.rblk ws.wfmt
    let r := rs.getD (n / 32) (zeroRec o.xfmt)
    sl.lives.map (fun s => ((sl.idx.getD s 0).toNat, mkProd r.blk wb (n % 32) s (r.pois.getD (n % 32) false) (fd.er m n s))))
  let anyPois := cols.any (fun sl => decide (sl.pois ≠ 0))
  ((List.range 1024).map (fun c =>
      if o.c0 ≤ c ∧ c < o.c0 + kr then
        let ps := (prods.filter (fun p => decide (p.1 = c - o.c0))).map Prod.snd
        let (b, fl) := alignedBlock ps
        ⟨m, c, 0, b, fl, anyPois || ps.any (·.pois)⟩
      else ⟨m, c, 0, 0, 0, false⟩),
   orFlags (rs.map (fun r => r.blk.flags)))

/-- The adds of token block t of SGRAD (R140). -/
def sgradBlock (fd : Feed) (o : ArrOp) (ws : WSet) (t : Nat) : List AAdd × Nat :=
  let ms := (List.range 32).map (fun r => 32 * t + r)
  let xr := ms.map (fun m => (reachRecs (fd.rd m) o ws m).map (·.getD (zeroRec o.xfmt)))
  let dr := ms.map (fun m => colRecs (fd.rd m) o.dfmt (o.daddr + m * o.drs))
  ((List.range 32).flatMap (fun s => (List.range 1024).map (fun n =>
      let sl := tabGet {} ws.slices n
      let ps := if sl.live.getLsbD s then
          let ix := (sl.idx.getD s 0).toNat
          (ms.zip (xr.zip dr)).map (fun (m, x, d) =>
            let a := x.getD (ix / 32) (zeroRec o.xfmt)
            let b := d.getD (n / 32) (zeroRec o.dfmt)
            mkProd a.blk b.blk (ix % 32) (n % 32) (a.pois.getD (ix % 32) false || b.pois.getD (n % 32) false) (fd.er m n s))
        else []
      let (b, fl) := alignedBlock ps
      ⟨s, n, t, b, fl, sl.pois.getLsbD s || ps.any (·.pois)⟩)),
   orFlags ((xr.flatten ++ dr.flatten).map (fun r => r.blk.flags)))

/-- Stages of an instruction: rows, or token blocks for SGRAD. -/
def ArrOp.stages (o : ArrOp) : Nat := if o.opc = 0x14 then o.m / 32 else o.m

/-- The adds of stage i against a weight set, in the order of their keys (R225), with conversion flags. -/
def stageAdds (fd : Feed) (o : ArrOp) (ws : WSet) (i : Nat) : List AAdd × Nat :=
  match o.opc with
  | 0x12 => smmaRow fd o ws i
  | 0x13 => tspRow fd o ws i
  | 0x14 => sgradBlock fd o ws i
  | _ => denseRow fd o ws ws.wfmt i

/-! Calipers: the comparison of a row (R209 to R214). -/

/-- The residues of one row and activation block of an MX product differ: Cres from the checker lane, Dres from the tree outputs
(R211). -/
def resBad (ws : WSet) (b : Nat) (xs : List Int) (er : Nat → Int) : Bool :=
  let cres := rhoSum ((List.range 32).map (fun i => rho (xs.getD i 0 * ((tabGet 0 ws.lane (32 * b + i)).toNat : Int))))
  let dres := rhoSum ((List.range 1024).map (fun n =>
    let sl := tabGet {} ws.slices n
    let t := (((sl.terms ws.relief ws.wfmt).filter (fun t => decide (t.1 / 32 = b))).map
      (fun t => xs.getD (t.1 % 32) 0 * t.2.1)).foldl (· + ·) 0
    rot (t + er n) (sl.expOf ws.relief ws.wfmt b)))
  decide (cres ≠ dres)

/-- The two residues of a TSP row differ: the slice residues against the products that enter the bins (R212). -/
def tspBad (ws : WSet) (rs : List ARec) (er : Nat → Nat → Int) : Bool :=
  let side (f : Slice → Nat → Blk → Blk → Nat) : Nat := rhoSum ((List.range 1024).map (fun n =>
    let sl := tabGet {} ws.slices n
    f sl n (rs.getD (n / 32) (zeroRec 2)).blk (sl.rblk ws.wfmt)))
  let l := side (fun _ n d w => rot (d.ints.getD (n % 32) 0 * ((tabGet 0 ws.res n).toNat : Int)) (w.exp + d.exp))
  let r := side (fun sl n d w => rhoSum (sl.lives.map (fun s =>
    rot (d.ints.getD (n % 32) 0 * w.ints.getD s 0 + er n s) (w.exp + d.exp))))
  decide (l ≠ r)

/-- The two residues of a token of SGRAD differ: the activations against c[k], and all exact products; the activations' exponents
are left out on both sides (R213; log entry 12). -/
def sgradBad (ws : WSet) (xs : List (Option ARec)) (ds : List ARec) (er : Nat → Nat → Int) : Bool :=
  let ax (k : Nat) : Int := match xs.getD (k / 32) none with | some r => r.blk.ints.getD (k % 32) 0 | none => 0
  let d (n : Nat) : Int × Int := let b := (ds.getD (n / 32) (zeroRec 2)).blk; (b.ints.getD (n % 32) 0, b.exp)
  let ix (sl : Slice) : List (Nat × Nat) := sl.lives.map (fun s => (s, (sl.idx.getD s 0).toNat))
  let cols := (List.range 1024).map (fun n => (n, ix (tabGet {} ws.slices n)))
  let c (k : Nat) : Nat := rhoSum (cols.flatMap (fun (n, l) =>
    (l.filter (fun p => decide (p.2 = k))).map (fun _ => rot (d n).1 (d n).2)))
  let l := rhoSum ((List.range 256).map (fun k => rho (ax k * (c k : Int))))
  let r := rhoSum (cols.flatMap (fun (n, l) => l.map (fun p => rot (ax p.2 * (d n).1 + er n p.1) (d n).2)))
  decide (l ≠ r)

/-- A value with NaN and infinities counted as 0 (R69). -/
def Xv.orZero : Xv → Xv
  | .fin n m e => .fin n m e
  | _ => .zero

/-- The BF16 check of a row and cycle: |C - D| exceeds 2^-38 A + 2^-130, the three quantities exact (R214; log entry 12). -/
def bf16Bad (ws : WSet) (h : Nat) (xs : List Nat) (er : Nat → Int) : Bool :=
  let x := xs.map (fun v => (bf16.dec v).orZero)
  let col (n : Nat) : List Xv := let sl := tabGet {} ws.slices n
    (List.range 16).map (fun i => (bf16.dec (sl.codes.getD (16 * h + i) 0).toNat).orZero)
  let sum (l : List Xv) : Xv := l.foldl Xv.add Xv.zero
  let wsum (abs : Bool) (i : Nat) : Xv := sum ((List.range 1024).map (fun n =>
    let w := (col n).getD i .zero; if abs then w.withSign false else w))
  let c := sum ((List.range 16).map (fun i => (x.getD i .zero).mul (wsum false i)))
  let a := sum ((List.range 16).map (fun i => ((x.getD i .zero).withSign false).mul (wsum true i)))
  let d := sum ((List.range 1024).map (fun n => let (t, u, _) := bf16Tree (x.zip (col n)) (er n); Xv.ofInt t u))
  let tol := (a.mul (.fin false 1 (-38))).add (.fin false 1 (-130))
  tol.lt ((c.sub d).withSign false)

/-- The checker finds a mismatch in row m of an instruction that streams against a weight set (R211 to R214). -/
def rowBad (fd : Feed) (o : ArrOp) (ws : WSet) (m : Nat) : Bool :=
  let co := fd.rd m
  match o.opc with
  | 0x12 => (reachRecs co o ws m).zipIdx.any (fun (r, b) =>
      match r with | some r => resBad ws b r.blk.ints (fun n => fd.er m n b) | none => false)
  | 0x13 => tspBad ws (colRecs co o.xfmt (o.xaddr + m * o.xrs)) (fd.er m)
  | 0x14 => sgradBad ws (reachRecs co o ws m) (colRecs co o.dfmt (o.daddr + m * o.drs)) (fd.er m)
  | _ =>
    let rs := denseRecs co o ws.wfmt m
    (List.range (denseH ws.wfmt)).any (fun h =>
      let r := rs.getD (if ws.wfmt = 6 then h else 0) (zeroRec o.xfmt)
      if ws.wfmt = 1 then bf16Bad ws h ((r.raw.drop (16 * h)).take 16) (fun n => fd.er m n h)
      else resBad ws h r.blk.ints (fun n => fd.er m n h))

/-- Row-to-write latency (R95, R141). -/
def ArrOp.lat (o : ArrOp) : Nat := match o.opc with | 0x13 => 18 | 0x14 => 16 | _ => 14

/-- Cycles for which the group streams one stage. -/
def ArrOp.stageCyc (o : ArrOp) : Nat := if o.opc = 0x14 then 32 else o.cpr

/-- The cycle of the writes of stage i, from the start of streaming (R95, R141). -/
def ArrOp.writeCyc (o : ArrOp) (start i : Nat) : Nat := start + (i + 1) * o.stageCyc - 1 + o.lat

/-- Adds that the instruction makes to every element (R89, R136, R138, R140). -/
def ArrOp.addsPer (o : ArrOp) (ws : WSet) : Nat :=
  match o.opc with
  | 0x12 => 8 / ws.g
  | 0x13 => 1
  | 0x14 => o.m / 32
  | _ => denseH ws.wfmt

/-- Rows of the accumulator tile: 32 for SGRAD (R139). -/
def ArrOp.tm (o : ArrOp) : Nat := if o.opc = 0x14 then 32 else o.m

/-! Accumulating (R76, R83, R84, R108, R220). -/

/-- One add applied to an array: the first adds of a BEGIN instruction to a row start from +0 and clear the row's poison marks, all
written in one cycle (R108, R113). -/
def Arr.addOne (a : Arr) (o : ArrOp) (q : Key) (d : AAdd) : Arr × Nat :=
  let addr := accAddr o.tile o.tm o.w40 d.row d.col
  let w := accW o.w40
  let fresh := o.begin_ && d.k == 0
  let a := if fresh && d.col == 0 then { a with pois := psPutRange a.pois (addr / 4) (256 * w) false } else a
  let old := if fresh then 0 else leNat (memRead a.ram addr w)
  let pois := d.pois || (!fresh && poisRead a.pois 4 addr w)
  let (v, fl) := accAdd (accFmtOf o.w40) old d.b (q.bits d.row d.col d.k)
  ({ a with ram := memWrite a.ram addr (leBytes w v), pois := poisWrite a.pois 4 addr w pois },
   fl ||| d.fl ||| (if pois then fPOISON else 0))

/-- Adds applied in order, with the OR of their flags. -/
def Arr.addList (a : Arr) (o : ArrOp) (q : Key) (ds : List AAdd) : Arr × Nat :=
  ds.foldl (fun (p : Arr × Nat) d => let (a, f) := p.1.addOne o q d; (a, p.2 ||| f)) (a, 0)

/-- The limit of adds of a format: beyond it LONGSUM is set (R84). -/
def addLimit (w40 : Bool) : Nat := if w40 then 16777216 else 65536

/-- The counters of a tile after n adds to every element (R83, R84); the flag says whether this run crossed the limit. -/
def Tile.count (t : Tile) (w40 : Bool) (n : Nat) : Tile × Bool :=
  let l := min (t.l32 + n) (2 ^ 32 - 1)
  let crossed := decide (t.l32 ≤ addLimit w40 ∧ addLimit w40 < l)
  ({ t with l32 := l, adds := min (if w40 then l / 256 else l) 65535, presc := if w40 then l % 256 else 0,
            long := t.long || crossed }, crossed)

/-- The counters of a tile as an accumulating instruction with BEGIN starts them, with the check sums where the drain check is on
(R83, R84, R108, R220). -/
def Tile.begin_ (t : Tile) (dchk : Bool) : Tile :=
  { t with adds := 0, presc := 0, long := false, l32 := 0, cs := if dchk then [] else t.cs, emax := if dchk then [] else t.emax }

/-- floor(log2 |B|) of a nonzero finite block sum. -/
def sumExp (b : Nat) : Option Int :=
  match fp32.dec b with
  | .fin _ m e => if m = 0 then none else some (floorLog2 m e)
  | _ => none

/-- The check state of a tile after the adds of one row with one index: the exact row sum rounded once to W40 and added
with rne, and the largest exponent (R220). -/
def Tile.check (t : Tile) (row : Nat) (bs : List Nat) : Tile :=
  let s := (bs.map fp32.dec).foldl Xv.add Xv.zero
  let c := (w40.rne ((w40.dec (tabGet 0 t.cs row).toNat).add (w40.dec (w40.rne s).1))).1
  let em := (bs.filterMap sumExp).foldl (fun m x => match m with | none => some x | some y => some (max x y))
    (tabGet none t.emax row)
  { t with cs := tabSet 0 t.cs row (BitVec.ofNat 40 c), emax := tabSet none t.emax row em }

/-- The check state after a list of adds, taken row by row and index by index (R220). -/
def Tile.checkAll (t : Tile) (o : ArrOp) (ds : List AAdd) : Tile :=
  (List.range o.tm).foldl (fun t row =>
    let rs := ds.filter (fun d => d.row == row)
    (List.range 64).foldl (fun t k =>
      let ks := rs.filter (fun d => d.k == k)
      if ks = [] then t else t.check row (ks.map (·.b))) t) t

/-- The weight set that stage i of an entry streams against: the reloaded one from the retry point on (R216). -/
def Entry.setAt (e : Entry) (o : ArrOp) (i : Nat) : WSet :=
  match e.retryRow with
  | some r => if (if o.opc = 0x14 then r / 32 else r) ≤ i then e.wset2 else e.wset
  | none => e.wset

/-- The rotation of an entry: that of a re-execution, 0 otherwise (R227). -/
def Entry.rotation (e : Entry) : Nat := match e.point with | some (_, (_, v)) => v | none => 0

/-- The core store of a row as the broadcast read it, or as it stands while it has not (R95). -/
def Entry.rowCore (e : Entry) (co : Core) (r : Nat) : Core :=
  match e.rows.find? (fun p => p.1 == r) with
  | some (_, im) => { co with store := im.store, storePois := im.pois }
  | none => co

/-- What stage i of an entry streams, with the errors of its stream or of its retry (R95, R216). -/
def Entry.feed (e : Entry) (co : Core) (o : ArrOp) (i : Nat) : Feed :=
  let again := match e.retryRow with | some r => decide ((if o.opc = 0x14 then r / 32 else r) ≤ i) | none => false
  ⟨e.rowCore co, errAt (if again then e.errs2 else e.errs) e.rotation⟩

/-- All stages of an entry below a stage number: adds and conversion flags, read from a core's store. -/
def Entry.addsBelow (e : Entry) (src : Core) (o : ArrOp) (n : Nat) : List AAdd × Nat :=
  (List.range n).foldl (fun p i => let (ds, f) := stageAdds (e.feed src o i) o (e.setAt o i) i; (p.1 ++ ds, p.2 ||| f)) ([], 0)

/-- The stages of an entry whose adds the array does not hold yet, below a stage number (R482). -/
def Entry.addsNew (e : Entry) (src : Core) (o : ArrOp) (n : Nat) : List AAdd × Nat :=
  ((List.range n).drop e.addsDone).foldl
    (fun p i => let (ds, f) := stageAdds (e.feed src o i) o (e.setAt o i) i; (p.1 ++ ds, p.2 ||| f)) ([], 0)

/-- The cycle of the writes of stage i of an entry; a stage that a retry streams again writes then (R95, R216). -/
def Entry.writeCyc (e : Entry) (o : ArrOp) (i : Nat) : Nat :=
  match e.retryRow with
  | some r => if (if o.opc = 0x14 then r / 32 else r) ≤ i then e.doneCycle - 1 - (o.stages - 1 - i) * o.stageCyc
    else o.writeCyc e.startCycle i
  | none => o.writeCyc e.startCycle i

/-- Stages of an entry whose writes lie before a cycle (R113). -/
def Entry.stagesBefore (e : Entry) (o : ArrOp) (cyc : Nat) : Nat :=
  if e.streaming then ((List.range o.stages).filter (fun i => decide (e.writeCyc o i < cyc))).length else 0

/-- An array as a vector read at a cycle sees it: with every write of an instruction in flight made in an earlier cycle
(R113). -/
def Core.arrAt (co : Core) (c : Cell) (l a cyc : Nat) : Arr :=
  co.inflight.foldl (fun ar e =>
    match e.arrOp with
    | some o =>
      if o.arr = a ∧ e.stream = 0 then
        let q : Key := ⟨c.seed, c.step.toNat, (logicalId l 0 e.ord).toNat⟩
        (ar.addList o q (e.addsNew co o (e.stagesBefore o cyc)).1).1
      else ar
    | none => ar) (co.arr a)

/-- H over a list of words with key kappa (R234). -/
def sealH (kappa : Nat) (ds : List Nat) : Nat :=
  ((ds.foldl (fun h d => (h * kappa + d + 1) % sealP) 0) * kappa + ds.length) % sealP

/-- The result digest of an instruction: H over its block sums in key order (R225). For rows the order of the stages is
the order of the keys; for SGRAD the order is slot, column, block. `flips` are errors of a re-execution in the block
sums past the trees: number in that order and bits inverted (log entry 12). -/
def digestOf (kappa : Nat) (o : ArrOp) (ds : List AAdd) (flips : List (Nat × BitVec 32) := []) : BitVec 64 :=
  let bs := if o.opc = 0x14 then
      (List.range 32).flatMap (fun s => (List.range 1024).flatMap (fun n =>
        (ds.filter (fun d => d.row == s && d.col == n)).map (·.b)))
    else ds.map (·.b)
  let bs := flips.foldl (fun bs f => bs.set f.1 ((bs.getD f.1 0) ^^^ f.2.toNat)) bs
  BitVec.ofNat 64 (sealH kappa bs)

/-- Cycle count of an instruction with the load exposed (R96, R141). -/
def ArrOp.exposed (o : ArrOp) : Nat := 64 + o.m * o.cpr + o.lat

/-- The effect of an array instruction's completion on its array: the adds not made yet, the tile's counters, state and check sums,
and the rows that a failed retry poisons. `more` says that a later instruction on the tile is in flight, which keeps it OPEN
(R83, R84, R108, R114, R218, R220). -/
def Arr.finishOp (a : Arr) (e : Entry) (o : ArrOp) (q : Key) (ds new : List AAdd) (dchk more : Bool) : Arr × Nat :=
  let (a, fl) := a.addList o q new
  let t := tabGet {} a.tiles o.tile
  let t := if o.begin_ then t.begin_ dchk else t
  let t := if dchk then t.checkAll o ds else t
  let (t, crossed) := t.count o.w40 (o.addsPer (e.setAt o 0))
  let t := { t with st := if o.end_ && !more then .ended else .open }
  let a := { a with tiles := tabSet {} a.tiles o.tile t }
  let rows := if e.badRows = [] then [] else if o.opc = 0x14 then List.range o.tm else e.badRows
  let a := rows.foldl (fun a r =>
    { a with pois := poisWrite a.pois 4 (accAddr o.tile o.tm o.w40 r 0) (1024 * accW o.w40) true }) a
  (a, fl ||| (if crossed then fLONGSUM else 0))

/-- The rounding key of an entry. -/
def Cell.keyOf (c : Cell) (e : Entry) : Key := ⟨c.seed, c.step.toNat, e.id.toNat⟩

/-- An accumulating instruction in flight, other than the one named, addresses a tile (R112). -/
def Core.onTile (co : Core) (a t : Nat) (but : Option Nat) : Bool :=
  co.inflight.any (fun e => match e.arrOp with | some o => o.arr == a && o.tile == t && some e.ord != but | none => false)

/-- An instruction in flight with BEGIN, other than the one named, addresses a tile. -/
def Core.beginsOn (co : Core) (a t : Nat) (but : Nat) : Bool :=
  co.inflight.any (fun e => match e.arrOp with | some o => o.arr == a && o.tile == t && o.begin_ && e.ord != but | none => false)

/-- The counters of a tile that a later BEGIN has discarded already (R108). -/
def Arr.discardTile (a : Arr) (t : Nat) : Arr := { a with tiles := tabMod {} a.tiles t (·.begin_ false) }

/-- An array with the instructions in flight whose last write lies before a cycle already made, tile state included. -/
def Core.arrDone (co : Core) (c : Cell) (a cyc : Nat) (dchk : Bool) : Arr :=
  co.inflight.foldl (fun ar e =>
    match e.arrOp with
    | some o =>
      if o.arr = a ∧ e.streaming ∧ !e.inRetry ∧ e.doneCycle ≤ cyc then
        (ar.finishOp e o (c.keyOf e) (e.addsBelow co o o.stages).1 (e.addsNew co o o.stages).1 dchk false).1
      else ar
    | none => ar) (co.arr a)

/-! Issue of a group (R91, R92, R628). -/

/-- Pairings of R89. -/
def pairOk (wf xf : Nat) : Bool :=
  (isMx8 wf && isMx xf) || (wf == 6 && isMx xf) || (wf == 1 && xf == 1)

/-- Cycles per row of a member (R89, R141). -/
def cprOf (opc wf xf : Nat) : Nat :=
  if opc = 0x13 then 2
  else if opc = 0x12 ∨ opc = 0x14 then 1
  else if wf = 1 ∨ (wf = 6 ∧ xf ≠ 6) then 2 else 1

/-- One member: its word, block and the leader's word and block (R283). -/
structure Member where
  /-- Word. -/
  w : BitVec 128
  /-- Block. -/
  b : List Byte
  /-- Leader's word. -/
  lw : BitVec 128
  /-- Leader's block. -/
  lb : List Byte

/-- XOFF of the leader in bytes (R280, R283). -/
def Member.xoff (m : Member) : Nat := 8 * wf m.lw 41 21
/-- Activation format. -/
def Member.xfmt (m : Member) : Nat := bfld m.lb 25 1
/-- Array. -/
def Member.arr (m : Member) : Nat := wf m.w 71 70
/-- KEEPW. -/
def Member.keepw (m : Member) : Bool := wModBit m.w 2

/-- What a member's load names. -/
def Member.spec (m : Member) : LoadSpec :=
  let gf := bfld m.b 27 1
  ⟨wOpc m.w, bfld m.b 24 1, gf % 16, bfld m.b 30 2, bfld m.b 28 2, bits gf 4 4, bfld m.b 8 4 + 8 * wf m.w 20 0, bfld m.b 12 4⟩

/-- CONV parameters H_in W_in C KH KW SY SX DY DX PT PB PL PR ky kx g p0 (R281). -/
def convParams (b : List Byte) : List Nat :=
  [bfld b 36 2, bfld b 38 2, bfld b 40 2] ++ (List.range 10).map (fun i => bfld b (42 + i) 1) ++
    [bfld b 52 1, bfld b 53 1, bfld b 54 2, bfld b 56 4]

/-- The weight set a member streams against: the one its load names, or the front set kept (R92, R132). DESIGN CHOICE: an
array whose front set was never loaded keeps nothing, so KEEPW there takes the member's own fields (log entry 74). -/
def Member.front (m : Member) (co : Core) : WSet :=
  let f := (co.arr m.arr).front
  if m.keepw then (if f.loaded then f else
    let l := m.spec
    { f with relief := isRelief l.opc, g := if l.g = 0 then 8 else l.g, k0 := l.k0, kext := l.kext, wfmt := l.fmt })
  else loadSet co m.spec

/-- Format code of the weights that a member streams against. -/
def Member.wfmt (m : Member) (co : Core) : Nat :=
  let f := (co.arr m.arr).front
  if m.keepw && f.loaded then f.wfmt else bfld m.b 24 1

/-- The resolved operation of a member (R281 to R283). -/
def Member.op (m : Member) (c : Cell) (cpr : Nat) : ArrOp :=
  let (mm, w40) := accShape c m.w
  { arr := m.arr, tile := wf m.w 69 66, opc := wOpc m.w, m := mm, w40 := w40, begin_ := wModBit m.w 0,
    end_ := wModBit m.w 1, keepw := m.keepw, xaddr := bfld m.lb 0 4 + m.xoff, xrs := bfld m.lb 4 4, xfmt := m.xfmt,
    daddr := bfld m.b 16 4 + m.xoff, drs := bfld m.b 20 4, dfmt := bfld m.b 26 1, c0 := bfld m.b 32 2,
    waddr := m.spec.waddr, wstride := m.spec.wstride, cpr := cpr,
    conv := if wOpc m.w = 0x11 then convParams m.b else [] }

/-- Core-store ranges of row r that an operation streams, and of its column feed (R282). -/
def ArrOp.rowRange (o : ArrOp) (ws : WSet) (r : Nat) : List (Nat × Nat) :=
  let bs := recLen o.xfmt
  let nrec := if ws.wfmt = 6 then 2 else 1
  match o.opc with
  | 0x11 => match convRow o r with | some a => [(a + o.conv.getD 15 0 * nrec * bs, nrec * bs)] | none => []
  | 0x10 => [(o.xaddr + r * o.xrs, nrec * bs)]
  | 0x13 => [(o.xaddr + r * o.xrs, 32 * bs)]
  | _ =>
    let nb := min (8 / ws.g) (ceilDiv (ws.kext - ws.k0) 32)
    (o.xaddr + r * o.xrs + ws.k0 / 32 * bs, nb * bs) ::
      (if o.opc = 0x14 then [(o.daddr + r * o.drs, 32 * recLen o.dfmt)] else [])

/-- Core-store ranges of all the rows of an operation (R282). -/
def ArrOp.rowRanges (o : ArrOp) (ws : WSet) : List (Nat × Nat) := (List.range o.m).flatMap (o.rowRange ws)

/-- The cycle in which row r of an entry enters the broadcast; a row that a retry streams again enters it then (R95, R216). -/
def Entry.rowCyc (e : Entry) (o : ArrOp) (r : Nat) : Nat :=
  let again := match e.retryRow with | some q => decide (q ≤ r) | none => false
  if again then e.doneCycle - o.lat - (o.m - 1 - r) * o.cpr - 1 else e.startCycle + (r + 1) * o.cpr - 1

/-- What the broadcast reads for a row. -/
def Core.rowImg (co : Core) (rs : List (Nat × Nat)) : RowImg :=
  rs.foldl (fun im r =>
    { store := memWrite im.store r.1 (co.read r.1 r.2),
      pois := (co.storePois.filter (fun w => decide (r.1 ≤ 4 * w + 3 ∧ 4 * w < r.1 + r.2))).foldl psAdd im.pois }) {}

/-- The entry with the rows kept that have entered the broadcast before a cycle, as it read them (R95). -/
def Entry.capture (e : Entry) (co : Core) (cyc : Nat) : Entry :=
  match e.arrOp with
  | none => e
  | some o =>
    if e.streaming then
      let due := (List.range o.m).filter (fun r => decide (e.rowCyc o r < cyc) && e.rows.all (fun p => p.1 != r))
      { e with rows := e.rows ++ due.map (fun r => (r, co.rowImg (o.rowRange e.wset r))) }
    else e

/-- The rows of every entry kept that have entered the broadcast before a cycle (R95). -/
def Core.captureRows (co : Core) (cyc : Nat) : Core :=
  { co with inflight := co.inflight.map (fun e => e.capture co cyc) }

/-- ARR_FORMAT with the weight and activation codes (R89, R121). -/
def arrFormat (wf xf : Nat) : Refuse := (0x5206, [.val 4 wf, .val 4 xf])

/-- Format checks of a member (R89, R130, R132). -/
def Member.formats (m : Member) (co : Core) : Bool :=
  let opc := wOpc m.w
  let f := (co.arr m.arr).front
  let w := m.wfmt co
  let x := m.xfmt
  if isRelief opc then
    isMx8 w && isMx x && (opc != 0x14 || isMx (bfld m.b 26 1)) && !(m.keepw && f.loaded && !f.relief)
  else pairOk w x && !(m.keepw && f.loaded && f.relief)

/-- Field checks of a relief member with its field numbers (R129). A condition over several fields
    carries the lowest of their numbers: Kr follows from G, so K0 and C0 against Kr are field 27 (R627). -/
def Member.reliefFields (m : Member) (c : Cell) (co : Core) : List (Nat × Bool) :=
  let l := m.spec
  let own := !(m.keepw && (co.arr m.arr).front.loaded)
  let kr := 256 / l.g
  let gOk := decide (l.g = 1 ∨ l.g = 2 ∨ l.g = 4 ∨ l.g = 8)
  let krc := 256 / (if own then l.g else (co.arr m.arr).front.g)
  let c0Ok := wOpc m.w != 0x13 || decide (bfld m.b 32 2 % krc = 0 ∧ bfld m.b 32 2 + krc ≤ 1024)
  let mm := (accShape c m.w).1
  [(12, !own || (decide (l.wstride % 8 = 0 ∧ (if l.form = 0 then 128 else 72) ≤ l.wstride))),
   (27, !own || (gOk && decide (bfld m.b 27 1 < 32) && decide (l.k0 % kr = 0) && c0Ok)),
   (28, !own || decide (l.kext % 32 = 0 ∧ 32 ≤ l.kext ∧ l.kext ≤ 65504 ∧ l.k0 < l.kext)),
   (32, c0Ok),
   (0x13F, wOpc m.w != 0x14 || decide (32 ≤ mm))]

/-- Field checks of a CONV member with its field numbers (R101). The tile's K follows from WFMT, so C
    against K is field 24 of a loading member (R627). -/
def Member.convFields (m : Member) (wfmt : Nat) : List (Nat × Bool) :=
  let p := convParams m.b
  let f (i : Nat) : Nat := p.getD i 0
  let k := if wfmt = 6 then 64 else 32
  let (ho, wo) := convOut p
  let rng (i lo hi : Nat) : Bool := decide (lo ≤ f i ∧ f i ≤ hi)
  let dims := [3, 4].all (fun i => rng i 1 7) && [5, 6, 7, 8].all (fun i => rng i 1 4)
  let cOk := f 2 % k == 0
  [(24, m.keepw || cOk), (36, rng 0 1 4096 && (!dims || decide (1 ≤ ho ∧ 1 ≤ wo ∧ ho * wo ≤ 16777216))), (38, rng 1 1 4096),
   (40, rng 2 32 16384 && cOk), (42, rng 3 1 7), (43, rng 4 1 7), (44, rng 5 1 4), (45, rng 6 1 4),
   (46, rng 7 1 4), (47, rng 8 1 4), (48, rng 9 0 24), (49, rng 10 0 24), (50, rng 11 0 24), (51, rng 12 0 24)]

/-- The first failing field. -/
def firstBad (fs : List (Nat × Bool)) : Option Nat := (fs.find? (fun f => !f.2)).map Prod.fst

/-- The checks of one member after the group rules (R628 step 3). -/
def Member.check (m : Member) (x : IssueCtx) (cpr : Nat) : Except Refuse Unit := do
  let opc := wOpc m.w
  chk (m.formats x.co) (arrFormat (m.wfmt x.co) m.xfmt)
  if isRelief opc then
    match firstBad (m.reliefFields x.c x.co) with
    | some f => .error (paramBad 0x5207 opc f)
    | none => pure ()
  if opc = 0x11 then
    match firstBad (m.convFields (m.wfmt x.co)) with
    | some f => .error (fieldBad 0x5204 f)
    | none => pure ()
  let o := m.op x.c cpr
  tileCheck (x.co.arr m.arr) m.arr o.tile o.tm o.w40
  let ws := if m.keepw then m.front x.co else { ({} : WSet) with g := m.spec.g, k0 := m.spec.k0, kext := m.spec.kext, wfmt := m.spec.fmt }
  chk ((o.rowRanges ws).all (fun r => inStore r.1 r.2) &&
       (m.keepw || (List.range 1024).all (fun n => inStore (m.spec.range n).1 (m.spec.range n).2))) (opndBad opc 1)

/-- The position of the first member that breaks a group rule (R91). -/
def groupBad (c : Cell) (ms : List Member) : Option Nat :=
  match ms with
  | [] => none
  | l :: r =>
    if isLink l.w then some 0
    else
      let bad (j : Nat) (m : Member) : Bool :=
        decide (wDelta m.w ≠ 0) || decide (wOpc m.w ≠ wOpc l.w) || decide ((accShape c m.w).1 ≠ (accShape c l.w).1) ||
        ((ms.take (j + 1)).any (fun q => decide (q.arr = m.arr)))
      (r.zipIdx.find? (fun (m, j) => bad j m)).map (fun p => p.2 + 1)

/-- Layout and state of the half and tile that an accumulating instruction addresses, at issue; with `fresh`, BEGIN's clearing of ADDS and
LONGSUM, while its contents go row by row with the instruction's own writes (R107, R108, R113). -/
def Arr.openTile (a : Arr) (o : ArrOp) (fresh : Bool) : Arr :=
  let h : Half := ⟨codeOfM o.tm, o.w40⟩
  let busy := a.halfBusy o.tile
  let a := if busy then a else if o.tile / 8 = 0 then { a with h0 := h } else { a with h1 := h }
  { a with tiles := tabMod {} a.tiles o.tile (fun t => { (if fresh then t.begin_ false else t) with st := .open }) }

/-- The plan of one member: the load into the back set, the tile opened, the entry (R92, R108). -/
def Member.plan (m : Member) (x : IssueCtx) (cpr j : Nat) : Plan :=
  let o := m.op x.c cpr
  let ws := m.front x.co
  let ws := if m.keepw then ws else { ws with id := logicalId x.l x.st (x.ord + j) }
  { entry := { block := m.b, unit := m.arr, loading := !m.keepw, arrOp := some o, wset := ws,
               beatEnd := if m.keepw then x.cyc else x.cyc + 64 },
    reads := (64 * wf m.w 60 42, 64) :: o.rowRanges ws ++ (if m.keepw then [] else (List.range 1024).map m.spec.range),
    load := if m.keepw then none else some (m.arr, (List.range 1024).map m.spec.range),
    upd := fun co => co.modArr m.arr (fun a => { (if m.keepw then a else { a with back := ws }) with }.openTile o
      (o.begin_ && !(co.onTile m.arr o.tile (some (x.ord + j))))) }

/-- Blocks of all members read in order (R628 step 1). -/
def readBlocks (co : Core) : List (BitVec 128) → Except Refuse (List (List Byte))
  | [] => .ok []
  | w :: r => do
    let b ← rdBlock co (wOpc w) (64 * wf w 60 42) 64 64
    let bs ← readBlocks co r
    pure (b :: bs)

/-- Member checks in stream order. -/
def checkMembers (x : IssueCtx) (cpr : Nat) : List Member → Except Refuse Unit
  | [] => .ok ()
  | m :: r => do m.check x cpr; checkMembers x cpr r

/-- A broadcast group, or an array instruction alone, in the order of R628. -/
def planProduct (ws : List (BitVec 128)) (x : IssueCtx) : Except Refuse (List Plan) := do
  let bs ← readBlocks x.co ws
  let lw := ws.headD 0
  let lb := bs.headD []
  let ms := (ws.zip bs).map (fun p => (⟨p.1, p.2, lw, lb⟩ : Member))
  match groupBad x.c ms with
  | some j => .error (0x5203, [.val 4 (tabGet 0 x.co.ptr 0 + j)])
  | none =>
    let cpr := (ms.map (fun m => cprOf (wOpc m.w) (m.wfmt x.co) m.xfmt)).foldl max 1
    checkMembers x cpr ms
    pure (ms.zipIdx.map (fun (m, j) => m.plan x cpr j))

/-- MMA: the dense product of a broadcast group (R284). -/
def execMma (core : Fin 48) (ws : List (BitVec 128)) (s : State) : Res := .next (s.issue core 0 0x10 ws (planProduct ws))
/-- CONV: MMA with the convolution's address generator (R285). -/
def execConv (core : Fin 48) (ws : List (BitVec 128)) (s : State) : Res := .next (s.issue core 0 0x11 ws (planProduct ws))
/-- SMMA: the relief forward product (R136). -/
def execSmma (core : Fin 48) (ws : List (BitVec 128)) (s : State) : Res := .next (s.issue core 0 0x12 ws (planProduct ws))
/-- TSP: the transposed relief product (R137). -/
def execTsp (core : Fin 48) (ws : List (BitVec 128)) (s : State) : Res := .next (s.issue core 0 0x13 ws (planProduct ws))
/-- SGRAD: the relief weight gradient (R140). -/
def execSgrad (core : Fin 48) (ws : List (BitVec 128)) (s : State) : Res := .next (s.issue core 0 0x14 ws (planProduct ws))

/-! The start of streaming (R93). -/

/-- A member starts streaming: a loaded set becomes the front set, and the times of the instruction are fixed. -/
def Core.startMember (co : Core) (start : Nat) (e : Entry) : Core :=
  match e.arrOp with
  | none => co
  | some o =>
    let co := co.modArr o.arr (fun a =>
      { a with front := if e.loading then a.back else a.front, lastEnd := start + o.m * o.cpr })
    co.modEntry 0 e.ord (fun e => { e with streaming := true, loading := false, startCycle := start,
                                           doneCycle := start + o.m * o.cpr + o.lat })

/-- Core-store ranges with RETAIN and the instruction each is held for: the weight source of each loaded set, and the operands of
the window's entries (R217, R268). -/
def Core.retained (co : Core) : List ((Nat × Nat) × BitVec 32) :=
  let src (w : WSet) (id : BitVec 32) : List ((Nat × Nat) × BitVec 32) :=
    if w.loaded then (List.range 1024).map (fun n => (w.spec.range n, id)) else []
  (List.range 4).flatMap (fun a => src (co.arr a).front (co.arr a).front.id ++ src (co.arr a).back (co.arr a).back.id) ++
    co.window.flatMap (fun we => (we.op.rowRanges we.front).map (fun r => (r, we.id)) ++ src we.front we.id)

/-- The RETAIN bits brought up to date. -/
def Core.retag (co : Core) : Core :=
  let clear : Tab Tag := (co.tags.map (fun (e : Nat × Tag) => (e.1, { e.2 with retain := false, retId := 0 }))).filter
    (fun (e : Nat × Tag) => decide (e.2 ≠ {}))
  let gs := co.retained.flatMap (fun r => (granules r.1).map (fun g => (g, r.2)))
  { co with tags := gs.foldl (fun t g => tabMod {} t g.1 (fun x => { x with retain := true, retId := g.2 })) clear }

/-- Of the groups that wait to stream, an instruction's is the one that may start first: the broadcast is one, and the group that could
start at the earlier cycle, or that issued earlier, comes first (R93). -/
def Core.startsFirst (co : Core) (e : Entry) : Bool :=
  let at_ (x : Entry) : Nat := co.streamStart (co.groupOf x)
  co.inflight.all (fun x => x.arrOp.isNone || x.streaming || x.stream != 0 ||
    decide (at_ e < at_ x ∨ (at_ e = at_ x ∧ e.grp ≤ x.grp)))

/-- ARRAY_STREAM_START: the group that the array's waiting instruction belongs to starts streaming, at the first cycle
at which its loads are complete and every array has streamed its last row (R93, R112). -/
def execArrayStreamStart (core : Fin 48) (arr : Fin 4) (s : State) : Res :=
  let co := s.core core
  match s.cellOf core, co.inflight.find? (fun e => match e.arrOp with | some o => o.arr == arr && !e.streaming | none => false) with
  | some k, some e =>
    let c := s.cell k
    let es := co.groupOf e
    let start := co.streamStart es
    if c.advances ∧ start < c.cycle + 8 ∧ co.startsFirst e then
      let co := es.foldl (·.startMember start) co
      .next (s.setCore core (if s.cfg.debug then co.retag else co))
    else .next s
  | _, _ => .next s

/-! The drain check on a read (R221, R222). -/

/-- ceil(log2(n)). -/
def ceilLog2 (n : Nat) : Nat := if n ≤ 1 then 0 else Nat.log2 (n - 1) + 1

/-- The add count L that the tolerance uses (R221). -/
def Tile.lcount (t : Tile) (w40 : Bool) : Nat :=
  if t.long then t.l32 else if w40 then t.adds * 256 + t.presc else t.adds

/-- Row m of a tile passes the drain check: the row sum against the check sum within the tolerance of R221. -/
def Arr.rowOk (a : Arr) (t mm : Nat) (w40 : Bool) (m : Nat) : Bool :=
  let tl := tabGet {} a.tiles t
  let f := accFmtOf w40
  let vals := (List.range 1024).map (fun n => f.dec (a.elem t mm w40 m n))
  let rs := Machine.w40.dec (Machine.w40.rne (vals.foldl Xv.add Xv.zero)).1
  let cs := Machine.w40.dec (tabGet 0 tl.cs m).toNat
  let pois := poisRead a.pois 4 (accAddr t mm w40 m 0) (1024 * accW w40)
  if tl.l32 = 2 ^ 32 - 1 ∨ pois ∨ rs.isNan ∨ rs.isInf ∨ cs.isNan ∨ cs.isInf then true
  else
    let d := (rs.sub cs).withSign false
    match tabGet none tl.emax m with
    | none => d.isZero
    | some em =>
      let cl : Int := ceilLog2 (tl.lcount w40 + 1)
      let x : Int := em + 2 * cl + (if tl.long then 2 else 0)
      let p : Int := if w40 then 32 else 24
      let delta := (Xv.fin false 1 (x + 12 - p)).add (Xv.fin false 1 (x + 14 - 32))
      !(delta.lt d)

/-- The rows, among those read, that fail the drain check when it is enabled. -/
def Arr.badChecks (a : Arr) (dchk : Bool) (t mm : Nat) (w40 : Bool) (rows : List Nat) : List Nat :=
  if dchk then rows.filter (fun m => !(a.rowOk t mm w40 m)) else []

/-! DRAIN (R116 to R120, R286 to R288). -/

/-- The fixed pairwise sum tree over 2^d FP32 values: one rounding a node (R117). -/
def sumTree : Nat → List Nat → Nat × Nat
  | 0, xs => (xs.headD 0, 0)
  | d + 1, xs =>
    let ps := (List.range (xs.length / 2)).map (fun i =>
      fp32.rne ((fp32.dec (xs.getD (2 * i) 0)).add (fp32.dec (xs.getD (2 * i + 1) 0))))
    let (r, fl) := sumTree d (ps.map Prod.fst)
    (r, fl ||| orFlags (ps.map Prod.snd))

/-- Maximum of FP32 values: NaN if any is NaN, +0 beats -0 (R117). -/
def rowMax (vs : List Nat) : Nat × Nat :=
  if vs.any (fun v => (fp32.dec v).isNan) then (fp32.nan, fNV)
  else
    (vs.foldl (fun m v =>
      let a := fp32.dec m
      let b := fp32.dec v
      if a.lt b || (a.isZero && b.isZero && a.neg && !b.neg) then v else m) (vs.headD 0), 0)

/-- One term of ESUM (R117). -/
def esumTerm (v mx c : Nat) : Nat × Nat :=
  let d := fp32.dec v
  let m := fp32.dec mx
  if d.isNan || m.isNan || (fp32.dec c).isNan then (fp32.nan, fNV)
  else if d = .inf true then (0, 0)
  else
    if m = .inf true then (fp32.encInf false, if d.isInf then 0 else fOF)
    else
      let (y, f2) := fp32.rne ((d.sub m).mul (fp32.dec c))
      let (z, f3) := exp2f y
      (z, f2 ||| f3)

/-- A TOPK record (R118). -/
def topkRec (v kpos col : Nat) : List Byte := leBytes 4 v ++ leBytes 2 kpos ++ leBytes 2 col

/-- Descending magnitude with the lower row first: insertion of a candidate (row, value) (R118). -/
def rankIns (x : Nat × Nat) : List (Nat × Nat) → List (Nat × Nat)
  | [] => [x]
  | y :: r => if y.2 % 2 ^ 31 < x.2 % 2 ^ 31 then x :: y :: r else y :: rankIns x r

/-- The k best candidates in order. -/
def rankBest (k : Nat) (xs : List (Nat × Nat)) : List (Nat × Nat) := (xs.foldl (fun l x => rankIns x l) []).take k

/-- Element size of a DRAIN destination code. -/
def drainSize (f : Nat) : Nat := match f with | 0 => 4 | 1 => 2 | 8 => 5 | _ => 1

/-- What DRAIN reads of one tile: rows of raw elements and of poison marks, a failing row wholly poisoned (R119, R222). -/
def drainRows (a : Arr) (t m : Nat) (w40 : Bool) (bad : List Nat) : List (List (Nat × Bool)) :=
  (List.range m).map (fun r => (List.range 1024).map (fun n =>
    (a.elem t m w40 r n, a.elemPois t m w40 r n || bad.contains r)))

/-- The converted row of a DRAIN: puts and flags; a NaN element is written canonical and sets NV in every format (R62, R85, R116, R288). -/
def drainRow (q : Key) (sr : Bool) (fmt dst m r : Nat) (w40 : Bool) (xs : List (Nat × Bool)) : List Put × Nat :=
  let f := accFmtOf w40
  let sz := drainSize fmt
  let at_ (n : Nat) : Nat := dst + (r * 1024 + n) * sz
  match fmt with
  | 8 =>
    let os := xs.zipIdx.map (fun (x, n) =>
      let nan := (f.dec x.1).isNan
      ((⟨false, at_ n, leBytes 5 (if nan then f.nan else x.1), x.2⟩ : Put), if nan then fNV else 0))
    (os.map Prod.fst, orFlags (os.map Prod.snd))
  | 0 | 1 =>
    let os := xs.zipIdx.map (fun (x, n) =>
      let v := f.dec x.1
      let (o, fl) := if fmt = 0 then fp32.rne v else if sr then bf16.srRound (q.bits r n 0) v else bf16.rne v
      ((⟨false, at_ n, leBytes sz o, x.2⟩ : Put), fl))
    (os.map Prod.fst, orFlags (os.map Prod.snd))
  | _ =>
    let bs := (List.range 32).map (fun j =>
      let blk := (xs.drop (32 * j)).take 32
      let (cs, sc, fl) := mxBlock fmt (blk.map (fun x => f.dec x.1)) (fun i => if sr then some (q.bits r (32 * j + i) 0) else none)
      let p := blk.any Prod.snd
      ([(⟨false, at_ (32 * j), packElems fmt cs, p⟩ : Put), ⟨false, dst + m * 1024 * sz + r * 32 + j, leBytes 1 sc, p⟩], fl))
    (bs.flatMap Prod.fst, orFlags (bs.map Prod.snd))

/-- Fused output spans: address of RMAX, RSUM, ESUM and TOPK, each beginning where the previous present one ends (R287). -/
def drainAux (w : BitVec 128) (aux m : Nat) : Nat × Nat × Nat × Nat :=
  let a1 := aux + (if wModBit w 2 then 4 * m else 0)
  let a2 := a1 + (if wModBit w 3 then 4 * m else 0)
  let a3 := a2 + (if wModBit w 4 then 4 * m else 0)
  (aux, a1, a2, a3)

/-- The TOPK output: groups of R rows, columns, ranks (R118): puts and flags. -/
def drainTopk (rows : List (List (Nat × Bool))) (m k g rb cb a : Nat) : List Put × Nat :=
  let gr := min (256 / g) m
  let cells := (List.range (m / gr)).flatMap (fun i => (List.range 1024).map (fun n => (i, n)))
  let outs := cells.zipIdx.map (fun ((i, n), j) =>
    let cand := (List.range gr).map (fun r => (i * gr + r, (rows.getD (i * gr + r) []).getD n (0, false)))
    let ok := cand.filter (fun c => !c.2.2 && !(fp32.dec c.2.1).isNan)
    let best := rankBest k (ok.map (fun c => (c.1, c.2.1)))
    let recs := best.flatMap (fun b => topkRec b.2 (rb + b.1) (cb + n)) ++
      (List.replicate (k - best.length) (topkRec 0 0xFFFF (cb + n))).flatten
    ((⟨false, a + 8 * k * j, recs, false⟩ : Put),
     (if cand.any (fun c => (fp32.dec c.2.1).isNan) then fNV else 0) ||| (if cand.any (·.2.2) then fPOISON else 0)))
  (outs.map Prod.fst, orFlags (outs.map Prod.snd))

/-- A failing row of a drain check as one number: array, tile and row. -/
def checkCode (an t r : Nat) : Nat := (an * 16 + t) * 256 + r

/-- DRAIN's plan, in the order of R278: parameter blocks, fields, tile, ranges. -/
def planDrain (dchk : Bool) (w : BitVec 128) (x : IssueCtx) : Except Refuse Plan := do
  let an := wf w 71 70
  let t := wf w 69 66
  let fmt := wf w 60 57
  let dst := 64 * wf w 56 38
  let aux := 64 * wf w 37 19
  let pr := 64 * wf w 18 0
  let (m, w40) := accShape x.c w
  let esum := wModBit w 4
  let topk := wModBit w 5
  let eb ← (if esum then rdBlock x.co 0x18 pr 64 64 else pure [])
  let tb ← (if topk && !esum then rdBlock x.co 0x18 pr 16 16 else pure [])
  let cc := bfld eb 0 4
  let cOk := match fp32.dec cc with | .fin neg mm _ => !neg && decide (mm ≠ 0) | _ => false
  let g := bfld tb 1 1
  let recOk := decide (bfld tb 0 1 < 8 ∧ (g = 1 ∨ g = 2 ∨ g = 4 ∨ g = 8)) && (bsub tb 2 2).all (· == 0) && (bsub tb 8 8).all (· == 0)
  let recField := if 8 ≤ bfld tb 0 1 then 0 else if ¬ (g = 1 ∨ g = 2 ∨ g = 4 ∨ g = 8) then 1
    else (firstNonzero tb [(0, 2), (4, 4)]).getD 0
  chkAll [(!esum || topk || cOk, fieldBad 0x520D 0),
          (!topk || esum || recOk, fieldBad 0x520D recField),
          (decide (fmt = 0 ∨ fmt = 1 ∨ fmt = 2 ∨ fmt = 3 ∨ (fmt = 8 ∧ w40)), fieldBad 0x520D 0x139),
          (!(esum && topk), fieldBad 0x520D 0x164)]
  let a := x.co.arrDone x.c an x.cyc dchk
  tileCheck a an t m w40
  let (a0, a1, a2, a3) := drainAux w aux m
  let k := bfld tb 0 1 % 8 + 1
  let gr := min (256 / (if g = 0 then 8 else g)) m
  let dlen := m * 1024 * drainSize fmt + (if fmt = 2 ∨ fmt = 3 then m * 32 else 0)
  let alen := a3 - aux + (if topk then m / gr * 1024 * k * 8 else 0)
  chkAll [(dstOk x.c dst dlen, opndBad 0x18 1), (alen == 0 || dstOk x.c aux alen, opndBad 0x18 1),
          (!esum || inStore pr (64 + 4 * m), opndBad 0x18 1)]
  let bad := a.badChecks dchk t m w40 (List.range m)
  let rows := drainRows a t m w40 bad
  let q := x.key 0
  let conv := rows.zipIdx.map (fun (r, i) => drainRow q (wModBit w 1) fmt dst m i w40 r)
  let f := accFmtOf w40
  let conv32 := rows.map (fun r => r.map (fun e => (fp32.rne (f.dec e.1), e.2)))
  let vrows := conv32.map (fun r => r.map (fun e => (e.1.1, e.2)))
  let rowFl (i : Nat) : Nat := orFlags ((conv32.getD i []).map (·.1.2))
  let allFl := orFlags ((List.range m).map rowFl)
  let rp (r : List (Nat × Bool)) : Bool := r.any Prod.snd
  let vals (r : List (Nat × Bool)) : List Nat := r.map Prod.fst
  let fused (on : Bool) (base : Nat) (h : Nat → List (Nat × Bool) → (Nat × Nat) × Bool) : List Put × Nat :=
    if on then
      let os := vrows.zipIdx.map (fun (r, i) => let ((v, fl), p) := h i r; ((⟨false, base + 4 * i, leBytes 4 v, p⟩ : Put), fl ||| rowFl i ||| (if p then fPOISON else 0)))
      (os.map Prod.fst, orFlags (os.map Prod.snd))
    else ([], 0)
  let rmax := fused (wModBit w 2) a0 (fun _ r => (rowMax (vals r), rp r))
  let rsum := fused (wModBit w 3) a1 (fun _ r =>
    let (v, fl) := sumTree 10 (vals r); ((v, fl ||| (if (fp32.dec v).isNan then fNV else 0)), rp r))
  let es := fused esum a2 (fun i r =>
    let mx := bfld (x.co.read (pr + 64 + 4 * i) 4) 0 4
    let ts := (vals r).map (fun v => esumTerm v mx cc)
    let (v, fl) := sumTree 10 (ts.map Prod.fst)
    ((v, fl ||| orFlags (ts.map Prod.snd) ||| (if (fp32.dec v).isNan then fNV else 0)), rp r || x.co.poisoned (pr + 64 + 4 * i) 4))
  let tk := if topk then drainTopk vrows m k g (bfld tb 4 2) (bfld tb 6 2) a3 else ([], 0)
  let tk := (tk.1, if topk then tk.2 ||| allFl else 0)
  let tl := tabGet {} a.tiles t
  let keep := wModBit w 0
  let st' : TileSt := if keep then tl.st else .free
  let stn : Nat := match st' with | .free => 0 | .open => 1 | .ended => 2
  let anyP := rows.any rp
  let puts := conv.flatMap Prod.fst ++ rmax.1 ++ rsum.1 ++ es.1 ++ tk.1
  let fl := orFlags (conv.map Prod.snd) ||| rmax.2 ||| rsum.2 ||| es.2 ||| tk.2 ||| (if anyP then fPOISON else 0)
  let extra := (if esum then 6 else 0) + (if topk then 8 else 0)
  pure {
    entry := { block := if esum then eb else tb, unit := an, flags := fl, status := b2n (puts.any (·.pois)),
               fields := [BitVec.ofNat 32 tl.adds, BitVec.ofNat 32 (b2n tl.long + 2 * stn),
                          BitVec.ofNat 32 (rmax.2 + 65536 * rsum.2), BitVec.ofNat 32 (es.2 + 65536 * tk.2)],
               puts := puts, release := if keep then none else some (an, t), badRows := bad.map (checkCode an t),
               beatEnd := x.cyc + 2 * m, doneCycle := x.cyc + 2 * m + 12 + extra },
    reads := if esum then [(pr, 64 + 4 * m)] else if topk then [(pr, 16)] else [],
    writes := [(dst, dlen), (aux, alen)],
    upd := fun co => co.modArr an (fun a => { a with drainEnd := x.cyc + 2 * m, drainHalf := t / 8 }) }

/-- DRAIN: an accumulator tile converted into the core store, with its fused outputs (R116 to R120, R286 to R288). -/
def execDrain (core : Fin 48) (w : BitVec 128) (s : State) : Res :=
  .next (s.issue1 core 0 0x18 w (planDrain s.cfg.dchk w))

end Sys2Proof.Machine
end

