-- ==== Sys2Proof/Machine/Checks.lean ====
section
/-! DEFINITION. Calipers retries, suspect cores, Pointing and heightened pointing (R216 to R230, R609). -/
namespace Sys2Proof.Machine
open Sys2Proof

/-! Counters of the next step receipt (R238). -/

/-- A receipt counter raised: 0 CAL_RETRY_OK, 1 CAL_MISMATCH, 2 DCHK_MISMATCH, 3 points, 4 POINT_MISMATCH, 5 lines repaired. -/
def State.rcAdd (s : State) (i n : Nat) : State :=
  { s with snp := { s.snp with rcCnt := s.snp.rcCnt.set i (s.snp.rcCnt.getD i 0 + n) } }

/-- Receipt FLAGS bits gathered. -/
def State.rcFlag (s : State) (m : Nat) : State := { s with snp := { s.snp with rcFlags := s.snp.rcFlags ||| m } }

/-! Suspect cores (R219, R609). -/

/-- A core becomes suspect, with a cause: 1 CAL_MISMATCH, 2 DCHK_MISMATCH, 3 Pointing blame, 4 retry threshold. -/
def State.markSuspect (s : State) (n cause : Nat) : State :=
  let was := (s.core n).suspect
  let s := s.modCore n (fun c => { c with suspect := true, calCause := BitVec.ofNat 4 cause,
                                          suspCount := c.suspCount + b2n (!was), suspLast := cause })
  if was then s else s.log 0x1104 [.core n, .val 1 cause]

/-- A CAL_MISMATCH, DCHK_MISMATCH or Pointing blame of the named cores: the event, which is the escalation fault of the
cell where a named core is suspect already and escalation is on, then the suspect marks (R219). -/
def State.blame (s : State) (k : Nat) (ns : List Nat) (cause code : Nat) (fs : List EvF) (lcore stream ord : Nat) : State :=
  let esc := s.cfg.calEsc && ns.any (fun n => (s.core n).suspect)
  let s := if esc then s.raiseFault k code fs lcore stream ord false else s.log code fs
  ns.foldl (fun s n => s.markSuspect n cause) s

/-- The DCHK_MISMATCH events of the failing rows that a read found (R222). -/
def State.checkEvents (s : State) (k n : Nat) (e : Entry) : State :=
  e.badRows.foldl (fun s code =>
    let s := s.modCore n (fun c => { c with mism := satAdd c.mism 1 })
    (s.rcAdd 2 1).blame k [n] 2 0x1103
      [.core n, .arr (code / 4096), .val 1 (code / 256 % 16), .val 4 (code % 256)] ((s.cell k).lcore n) e.stream e.ord) s

/-! Calipers retries (R216, R218). -/

/-- The array operation that an entry streams: its own, or the one a pointing re-execution repeats. -/
def Entry.streamOp (e : Entry) : Option ArrOp :=
  match e.point with
  | some (_, (we, _)) => some we.op
  | none => e.arrOp

/-- The array that an entry occupies. -/
def Entry.onArray (e : Entry) (a : Nat) : Bool :=
  match e.arrOp, e.point with
  | some o, none => o.arr == a
  | _, some _ => e.unit == a
  | _, _ => false

/-- The times of the retries of one group, in ascending array order: the reloads run together from the group's last
streamed row, the streams one after another (R216). -/
def Core.retryTimes (co : Core) (grp : Nat) : Core :=
  let es := (List.range 4).filterMap (fun a => co.inflight.find? (fun e =>
    e.stream == 0 && e.grp == grp && e.inRetry && e.point.isNone && e.onArray a))
  let ends := (es.foldl (fun (p : List (Nat × Nat) × Nat) e =>
    match e.arrOp, e.retryRow with
    | some o, some r =>
      let last := e.startCycle + o.m * o.cpr
      let st := max (last + 64) p.2
      let en := st + (o.m - r) * o.cpr
      (p.1 ++ [(e.ord, en + o.lat)], en)
    | _, _ => p) ([], 0))
  let fin := (ends.1.map Prod.snd).foldl max 0
  let co := ends.1.foldl (fun co q => co.modEntry 0 q.1 (fun e => { e with doneCycle := q.2 })) co
  let arrs := es.filterMap (fun e => e.arrOp.map (·.arr))
  let co := arrs.foldl (fun co a => co.modArr a (fun ar => { ar with retryEnd := max ar.retryEnd fin })) co
  { co with bcastFree := max co.bcastFree ends.2 }

/-- The core whose store an entry streams from: its own, or the source of a re-execution (R227). -/
def State.feedCore (s : State) (n : Nat) (e : Entry) : Core :=
  match e.point with
  | some (src, _) => s.core src
  | none => s.core n

/-- The checker finds a mismatch in row m of an entry (R211 to R214). -/
def Entry.rowBad (e : Entry) (co : Core) (o : ArrOp) (m : Nat) : Bool :=
  let i := if o.opc = 0x14 then m / 32 else m
  Machine.rowBad (e.feed co o i) o (e.setAt o i) m

/-- The errors of a stream that can still meet the checker: those of rows that have not entered the broadcast before a cycle. -/
def Entry.errsFrom (e : Entry) (o : ArrOp) (errs : List TreeErr) (cyc : Nat) : List TreeErr :=
  if e.point.isSome then errs else errs.filter (fun x => decide (cyc ≤ e.rowCyc o x.row))

/-- An instruction that waits on an array and keeps its front set streams against the set given (R92, R216). -/
def Entry.rekeep (g : Entry) (a : Nat) (ws : WSet) : Entry :=
  match g.arrOp with
  | some q => if q.arr = a ∧ q.keepw ∧ !g.streaming then { g with wset := ws } else g
  | none => g

/-- The retry of an instruction from row r on: its front set and the array's are loaded again, and later instructions that keep the set
stream against the reload (R216). -/
def Core.startRetry (co : Core) (e : Entry) (o : ArrOp) (r : Nat) (errs : List TreeErr) : Core :=
  let ws := e.wset.reload co
  let co := co.modArr o.arr (fun a => { a with front := ws })
  let co := { co with inflight := co.inflight.map (fun (g : Entry) => g.rekeep o.arr ws) }
  (co.modEntry 0 e.ord (fun e => { e with inRetry := true, retryRow := some r, wset2 := ws, flags := e.flags ||| ws.flags, errs := errs,
                                          rows := e.rows.filter (fun p => decide (p.1 < r)) })).retryTimes e.grp

/-- The retry of a re-execution, which only takes longer (R227). -/
def Core.startPointRetry (co : Core) (e : Entry) (o : ArrOp) (ws : WSet) (r : Nat) (errs : List TreeErr) : Core :=
  let d := 64 + (o.m - r) * o.cpr + o.lat
  let co := co.modEntry e.stream e.ord (fun e => { e with inRetry := true, retryRow := some r, wset2 := ws, errs := errs,
                                                          doneCycle := e.doneCycle + d })
  let co := co.modArr e.unit (fun a => { a with retryEnd := max a.retryEnd (e.doneCycle + d) })
  { co with bcastFree := max co.bcastFree (e.doneCycle + d) }

/-- CAL_RETRY_START: the errors of the datapath in the stream of an array's instruction. The checker compares every row with them; at
the first row r that mismatches, the adds of r and of later rows are suppressed, the front set is loaded again from its source as
it stands, and rows r on are streamed again. Errors that no row's check sees stay in the sums (R211 to R217). -/
def execCalRetryStart (core : Fin 48) (arr : Fin 4) (errs : List TreeErr) (s : State) : Res :=
  let co := s.core core
  match s.cellOf core, co.inflight.find? (fun e => e.onArray arr && (e.streaming || e.point.isSome) && !e.inRetry &&
      e.retryRow.isNone && e.errs.isEmpty && !e.done) with
  | some k, some e =>
    match e.streamOp with
    | none => .next s
    | some o =>
      let c := s.cell k
      if (c.advances || e.thirdOf.isSome) && !(decide (c.run0 = .run) && (s.unissued c).any (·.isNone)) then
        let errs := e.errsFrom o errs c.cycle
        let src := s.feedCore core e
        match (List.range o.m).find? ({ e with errs := errs }.rowBad src o) with
        | none => .next (s.setCore core (co.modEntry e.stream e.ord (fun e => { e with errs := errs })))
        | some row =>
          let r := if o.opc = 0x14 then 32 * (row / 32) else row
          .next (s.setCore core (if e.point.isSome then co.startPointRetry e o (e.wset.reload src) r errs else co.startRetry e o r errs))
      else .next s
  | _, _ => .next s

/-- An instruction whose retry matched: its product stands (R218). -/
def Core.retryPassed (co : Core) (e : Entry) : Core :=
  { co.modEntry e.stream e.ord (fun e => { e with inRetry := false, cal := 1 }) with retry60 := satAdd co.retry60 1 }

/-- An instruction whose retry did not match: its rows in error are poisoned (R219, R227). -/
def Core.retryFailed (co : Core) (e : Entry) (bad : List Nat) : Core :=
  { co.modEntry e.stream e.ord (fun e =>
      { e with inRetry := false, cal := 2, badRows := if e.point.isSome then [] else bad }) with
    mism := satAdd co.mism 1 }

/-- A re-execution whose digest differs: the third execution is next (R228). -/
def Core.reexecuted (co : Core) (e : Entry) (digest : BitVec 64) : Core :=
  co.modEntry e.stream e.ord (fun e => { e with reexec := [digest], doneCycle := 0 })

/-- The hold of a third execution, which lasts until every one has ended (R228). -/
def Cell.holdThird (c : Cell) (on : Bool) : Cell := { c with holds := { c.holds with third := if on then c.holds.third + 1 else c.holds.third - 1 } }

/-- A pointing mismatch counted (R229). -/
def State.countMiss (s : State) : State := { (s.rcAdd 4 1) with calPmiss := satAdd s.calPmiss 1 }

/-- CAL_RETRY_DONE: the retry has streamed, with the errors of the datapath in it; the rows that mismatched again decide
CAL_RETRY_OK or CAL_MISMATCH (R218, R219). A re-execution's mismatch poisons nothing (R227). -/
def execCalRetryDone (core : Fin 48) (arr : Fin 4) (errs : List TreeErr) (s : State) : Res :=
  let co := s.core core
  match s.cellOf core, co.inflight.find? (fun e => e.onArray arr && e.inRetry) with
  | some k, some e =>
    let c := s.cell k
    match e.streamOp, e.retryRow with
    | some o, some r =>
      if c.due e || e.thirdOf.isSome then
        let e := { e with errs2 := errs }
        let co := co.modEntry e.stream e.ord (fun e => { e with errs2 := errs })
        let bad := ((List.range o.m).filter (fun m => decide (r ≤ m))).filter (e.rowBad (s.feedCore core e) o)
        let l := c.lcore core
        if bad = [] then
          let s := s.setCore core (co.retryPassed e)
          let s := (s.rcAdd 0 1).log 0x1101 [.core core, .arr arr, .val 4 e.id.toNat, .val 4 r]
          .next (if s.cfg.calThr < (s.core core).retry60.toNat then s.markSuspect core 4 else s)
        else
          let s := s.setCore core (co.retryFailed e bad)
          .next ((s.rcAdd 1 1).blame k [core] 1 0x1102
            [.core core, .arr arr, .val 4 e.id.toNat, .val 4 (bad.foldl min o.m)] l e.stream e.ord)
      else .next s
    | _, _ => .next s
  | _, _ => .next s

/-! Pointing (R223 to R229). -/

/-- The digest key: SEALKEY, or a value that the specification leaves open where no SEALKEY is in force (log entry 13). -/
def Cfg.kappa (c : Cfg) : Nat :=
  match c.sealkey with
  | some k => k.toNat
  | none => leNat ((List.range 8).map (Config.openByte 1)) % 2 ^ 61

/-- The source cores that POINT may choose: the other member cores whose windows hold an entry; in a one-core cell the
core itself (R226). -/
def State.pointSources (s : State) (c : Cell) (n : Nat) : List Nat :=
  let ms := if c.members.length = 1 then [n] else c.members.filter (fun m => decide (m ≠ n))
  ms.filter (fun m => decide ((s.core m).window ≠ []))

/-- The choice of R226 from three random draws: source core, window entry and rotation. -/
def State.pointChoice (s : State) (c : Cell) (n : Nat) : Option (Nat × (WinEntry × Nat)) :=
  match s.pointSources c n with
  | [] => none
  | ms =>
    let src := ms.getD (Config.draw s.free % ms.length) n
    let win := (s.core src).window
    some (src, (win.getD (Config.draw (s.free + 1) % win.length) {}, 1 + Config.draw (s.free + 2) % 1023))

/-- The array of a re-execution: the named one, or the next above the source's array where the source is the core itself
(R227). -/
def pointArray (n src named : Nat) (we : WinEntry) : Nat := if src = n then (we.op.arr + 1) % 4 else named

/-- The weights of a re-execution, loaded from the source's store as it stands (R227). -/
def pointSet (src : Core) (we : WinEntry) : WSet := we.front.reload src

/-- POINT's plan: nothing chosen completes in one tick; otherwise the array and the broadcast are taken for the
load-exposed count of the chosen instruction (R226, R227). -/
def planPoint (ch : Option (Nat × (WinEntry × Nat))) (front : WSet) (w : BitVec 128) (x : IssueCtx) : Except Refuse Plan :=
  match ch with
  | none => .ok { entry := { unit := wf w 71 70, done := true, doneCycle := x.c.cycle + 8 } }
  | some (src, (we, v)) =>
    let a := pointArray x.n src (wf w 71 70) we
    let en := x.cyc + we.op.exposed
    .ok { entry := { unit := a, point := some (src, (we, v)), wset := front, doneCycle := en },
          upd := fun co => { (co.modArr a (fun ar => { ar with retryEnd := max ar.retryEnd en })) with bcastFree := en } }

/-- The plan of POINT for a choice, its weights read from the source. -/
def State.planPointOf (s : State) (ch : Option (Nat × (WinEntry × Nat))) (w : BitVec 128) (x : IssueCtx) : Except Refuse Plan :=
  planPoint ch (match ch with | some (src, (we, _)) => pointSet (s.core src) we | none => {}) w x

/-- POINT: one sampled instruction of the cell is executed again on this core (R226 to R229, R327). -/
def execPoint (core : Fin 48) (w : BitVec 128) (s : State) : Res :=
  match s.mayIssue core 0 [w] with
  | none => .next s
  | some x =>
    let ch := s.pointChoice x.c core
    .next { (s.issue1 core 0 0xB1 w (s.planPointOf ch w)) with free := s.free + 3 }

/-- The re-execution that a core runs and that is awaited: phase 0 the second execution, 1 one whose third execution runs. -/
def Core.pointing (co : Core) (phase : Nat) : Option Entry :=
  co.inflight.find? (fun e => e.point.isSome && !e.done && e.thirdOf.isNone && decide (e.reexec.length = phase))

/-- The digest of a re-execution: its block sums from the source's store, with the errors of its datapath (R225, R227). -/
def State.redigest (s : State) (src : Nat) (e : Entry) (o : ArrOp) (flips : List (Nat × BitVec 32)) : BitVec 64 :=
  digestOf s.cfg.kappa o (e.addsBelow (s.core src) o o.stages).1 flips

/-- The cell's step-taint bit set (R229). -/
def State.setTaint (s : State) (k : Nat) : State := s.modCell k (fun c => { c with taint := true })

/-- A re-execution over: a POINT instruction may complete, a heightened one is gone. -/
def Core.pointOver (co : Core) (e : Entry) (cyc : Nat) : Core :=
  if e.stream = 6 then co.dropEntry 6 e.ord
  else co.modEntry e.stream e.ord (fun e => { e with done := true, doneCycle := min cyc (max e.doneCycle 1) })

/-- The core and array of the third execution: the lowest member that is neither the source nor the pointing core, on the array that
POINT names; else the pointing core, on the first array above the re-execution's that is not the source's (R228). -/
def Cell.thirdPlace (c : Cell) (n src : Nat) (e : Entry) (we : WinEntry) : Nat × Nat :=
  match c.members.find? (fun m => m ≠ n && m ≠ src) with
  | some m => (m, e.unit)
  | none => (n, if src = n ∧ (e.unit + 1) % 4 = we.op.arr then (e.unit + 2) % 4 else (e.unit + 1) % 4)

/-- The third execution starts at once, at rotation 0, and the cell holds (R228). -/
def State.startThird (s : State) (k n src : Nat) (e : Entry) (we : WinEntry) : State :=
  let (m, a) := (s.cell k).thirdPlace n src e we
  let t : Entry := { word := we.word, id := we.id, stream := 6, ord := s.free, unit := a, point := some (src, (we, 0)),
                     wset := pointSet (s.core src) we, thirdOf := some (n, (e.stream, e.ord)) }
  let s := { s with free := s.free + 1 }
  let s := s.modCore m (fun co => { co with inflight := co.inflight ++ [t] })
  s.modCell k (fun c => c.holdThird true)

/-- POINT_REEXEC_DONE: the second execution has ended; an equal digest passes, another starts the third execution, during which the
cell is held (R228). `flips` are errors of the re-execution past its trees. -/
def execPointReexecDone (core : Fin 48) (flips : List (Nat × BitVec 32)) (s : State) : Res :=
  let co := s.core core
  match s.cellOf core, co.pointing 0 with
  | some k, some e =>
    match e.point with
    | none => .next s
    | some (src, (we, _)) =>
      let c := s.cell k
      if c.due e && !e.inRetry then
        let digest := s.redigest src e we.op flips
        let s := { (s.rcAdd 3 1) with calPoints := satAdd s.calPoints 1 }
        if digest = we.digest then .next (s.setCore core (co.pointOver e (c.cycle + 8)))
        else .next ((s.setCore core (co.reexecuted e digest)).startThird k core src e we)
      else .next s
  | _, _ => .next s

/-- The third execution that decides for an entry: core and entry (R228). -/
def State.thirdFor (s : State) (c : Cell) (n : Nat) (e : Entry) : Option (Nat × Entry) :=
  (c.members.filterMap (fun m => ((s.core m).inflight.find? (fun t => decide (t.thirdOf = some (n, (e.stream, e.ord))))).map
    (fun t => (m, t)))).head?

/-- POINT_THIRD_EXEC_DONE: the third execution for a pointing core has ended; it decides the outcome, the blame and the taint of
R229. -/
def execPointThirdExecDone (core : Fin 48) (flips : List (Nat × BitVec 32)) (s : State) : Res :=
  match s.cellOf core, (s.core core).pointing 1 with
  | some k, some e =>
    match e.point, s.thirdFor (s.cell k) core e with
    | some (src, (we, _)), some (m, t) =>
      let c := s.cell k
      if t.inRetry then .next s
      else
        let digest := s.redigest src t we.op flips
        let out := if digest = we.digest then 1 else if [digest] = e.reexec then 2 else 3
        let s := s.modCore m (fun co => co.dropEntry 6 t.ord)
        let s := s.modCore core (fun co => co.pointOver e (c.cycle + 8))
        let s := s.modCell k (fun c => c.holdThird false)
        let s := s.countMiss
        let s := if out = 1 then s else s.setTaint k
        let blamed := if out = 1 then [core.val] else if out = 2 then [src] else [src, core.val]
        .next (s.blame k blamed 3 0x1201 [.core src, .core core, .val 4 we.id.toNat, .val 1 out] (c.lcore core) 0 e.ord)
    | _, _ => .next s
  | _, _ => .next s

/-! The pointing window in the core store (R223, R352). -/

/-- One entry of 512 bytes: word, logical id, step, digest, and the resolved operands with the weight range of the load (R223; log entry
70). -/
def WinEntry.bytes (we : WinEntry) : List Byte :=
  let o := we.op
  bput (List.replicate 512 0) 0 (leBytes 16 we.word.toNat ++ leBytes 4 we.id.toNat ++ leBytes 4 1 ++ leBytes 8 we.step.toNat ++
    leBytes 8 we.digest.toNat ++ leBytes 4 o.xaddr ++ leBytes 4 o.xrs ++ leBytes 4 o.daddr ++ leBytes 4 o.drs ++
    leBytes 4 we.front.waddr ++ leBytes 4 we.front.wstride ++ leBytes 2 o.m ++ leBytes 2 o.c0 ++ leBytes 1 o.xfmt ++
    leBytes 1 o.dfmt ++ leBytes 1 we.front.wfmt ++ leBytes 1 we.front.g ++ leBytes 2 we.front.k0 ++ leBytes 2 we.front.kext ++
    leBytes 1 we.front.form ++ leBytes 1 o.arr ++ leBytes 1 o.tile ++ leBytes 1 0 ++ o.conv.flatMap (leBytes 4))

/-- The eight places of the window, newest entry first, the others zero. -/
def winBytes (ws : List WinEntry) : List Byte :=
  (List.range 8).flatMap (fun i => match ws[i]? with | some we => we.bytes | none => List.replicate 512 0)

/-- The window written to its partition (R223, R352). -/
def Core.putWindow (co : Core) (pwin : Nat) : Core := co.write pwin (winBytes co.window) false

/-- The window after an array instruction has completed: every entry is one older and leaves at 8; the instruction's own entry is
entered unless it ended in CAL_MISMATCH (R223). -/
def Core.ageWindow (co : Core) (new : Option WinEntry) : Core :=
  let old := (co.window.map (fun w => { w with age := w.age + 1 })).filter (fun w => decide (w.age < 8))
  { co with window := match new with | some w => w :: old | none => old }

/-! Heightened pointing (R230). -/

/-- A trigger of heightened pointing in a cell: 1 supply warning, 2 droop-monitor trip, 3 thermal event. -/
def State.startHeighten (s : State) (k trig : Nat) : State :=
  let s := s.modCell k (fun c => { c with heighten := 4096 })
  (s.rcFlag 128).log 0x1202 [.cell k, .val 1 trig]

/-- A completed array instruction counted for heightened pointing (R230). -/
def Cell.countHeighten (c : Cell) (n : Nat) (we : WinEntry) : Cell :=
  if c.heighten = 0 then c else { c with heighten := c.heighten - 1, heightQ := c.heightQ ++ [(n, we)] }

/-- The core that re-executes in heightened pointing: the next member above the source, wrapping (R230). -/
def Cell.nextMember (c : Cell) (n : Nat) : Nat :=
  c.members.getD ((c.lcore n + 1) % c.members.length) n

/-- HEIGHTENED_REEXEC: the oldest completed array instruction still to be re-executed starts on its pointing core, when
that core's array and broadcast are free (R227, R230). -/
def execHeightenedReexec (cell : Fin 16) (s : State) : Res :=
  let c := s.cell cell
  match c.heightQ with
  | [] => .next s
  | (src, we) :: rest =>
    let n := c.nextMember src
    let co := s.core n
    let a := if n = src then (we.op.arr + 1) % 4 else we.op.arr
    let cyc := c.cycle
    if c.advances && !(co.loadingOn a) && decide ((co.arr a).retryEnd ≤ cyc ∧ (co.arr a).lastEnd ≤ cyc ∧ co.bcastFree ≤ cyc) &&
        (co.pointing 0).isNone && (co.pointing 1).isNone && co.inflight.all (·.thirdOf.isNone) then
      let en := cyc + we.op.exposed
      let v := 1 + Config.draw s.free % 1023
      let e : Entry := { word := we.word, id := we.id, stream := 6, ord := s.free, unit := a,
                         point := some (src, (we, v)), wset := pointSet (s.core src) we, doneCycle := en }
      let co := { co.modArr a (fun ar => { ar with retryEnd := en }) with bcastFree := en, inflight := co.inflight ++ [e] }
      .next { ((s.setCore n co).setCell cell { c with heightQ := rest }) with free := s.free + 1 }
    else .next s

/-- DROOP_TRIP: the island's monitor trips; the island runs at the droop clock, and its cell enters heightened pointing
(R21, R230). -/
def execDroopTrip (core : Fin 48) (mhz : BitVec 12) (s : State) : Res :=
  let s := s.modCore core (fun c => { c with droop := true, droopFreq := mhz.toNat })
  let s := s.reclock core
  match s.cellOf core with
  | some k => .next (s.startHeighten k 2)
  | none => .next s

/-- DROOP_RESPONSE_END: the island returns to its clock (R21). -/
def execDroopResponseEnd (core : Fin 48) (s : State) : Res :=
  .next ((s.modCore core (fun c => { c with droop := false, droopFreq := 0 })).reclock core)

end Sys2Proof.Machine
end

