-- ==== Sys2Proof/Machine/Mvp.lean ====
section
/-! DEFINITION. The matrix-vector unit: MVP (R102 to R104, R215, R289). -/
namespace Sys2Proof.Machine
open Sys2Proof

/-- A row of K elements and then K/32 scales, as MX blocks with the poison of each (R102). -/
def mxRow (co : Core) (fmt a k : Nat) : List (Blk × Bool) :=
  let eb := if fmt = 6 then 16 else 32
  (List.range (k / 32)).map (fun j =>
    let sa := a + eb * (k / 32) + j
    (mkBlk fmt ((List.range 32).map (elemAt fmt (co.read (a + eb * j) eb))) (leNat (co.read sa 1)),
     co.poisoned (a + eb * j) eb || co.poisoned sa 1))

/-- Bytes of such a row. -/
def mxRowLen (fmt k : Nat) : Nat := (if fmt = 6 then k / 2 else k) + k / 32

/-- The residue lane of the MVU over the 32 rows of a pass and block j: the activations against ws[k], and the tree outputs with their
errors, by output of the pass (R210, R215). -/
def mvpBad (ws : List (Blk × Bool)) (x : Blk) (er : Nat → Int) : Bool :=
  let lane (i : Nat) : Nat := rhoSum (ws.map (fun w => rot (w.1.ints.getD i 0) w.1.exp))
  let l := rhoSum ((List.range 32).map (fun i => rho (x.ints.getD i 0 * (lane i : Int))))
  let r := rhoSum (ws.zipIdx.map (fun (w, n) => rot (treeOut x w.1 (er n)) w.1.exp))
  decide (l ≠ r)

/-- The error that an MVP's tree output carries: output, block and attempt (R215; log entry 12). -/
def mvpErr (errs : List TreeErr) (att n j : Nat) : Int :=
  ((errs.filter (fun e => decide (e.row = att ∧ e.dpu = n ∧ e.k = j))).map (·.err)).foldl (· + ·) 0

/-- One output of MVP: blocks of a row, the first numbered `j0`, against those of x, added in ascending order with the keys of
R102. -/
def mvpRow (q : Key) (n acc j0 : Nat) (ws xs : List (Blk × Bool)) (er : Nat → Int) : Nat × Nat :=
  ((ws.zip xs).zipIdx j0).foldl (fun (p : Nat × Nat) (b, j) =>
    let (s, f1) := blockSum b.2.1 b.1.1 (er j)
    let (v, f2) := accAdd fp32 p.1 s (q.bits 0 n j)
    (v, p.2 ||| f1 ||| f2)) (acc, 0)

/-- The operands that an MVP's word names: formats of W and x, addresses of W, x and y, N and K (R289). -/
structure MvpOps where
  /-- Format of W. -/
  wfmt : Nat
  /-- Format of x. -/
  xfmt : Nat
  /-- Address of W. -/
  wa : Nat
  /-- Address of x. -/
  xa : Nat
  /-- Address of y. -/
  ya : Nat
  /-- N. -/
  n : Nat
  /-- K. -/
  k : Nat

/-- The operands of an MVP's word (R289). -/
def mvpOps (w : BitVec 128) : MvpOps :=
  { wfmt := match bits (wMod w) 4 3 with | 0 => 2 | 1 => 3 | _ => 6, xfmt := if bit (wMod w) 5 then 3 else 2,
    wa := 64 * wf w 71 53, xa := 64 * wf w 52 34, ya := 64 * wf w 33 15, n := 32 * (wf w 14 10 + 1), k := 32 * (wf w 8 0 + 1) }

/-- The rows of W (R102). -/
def Core.mvpRows (co : Core) (o : MvpOps) : List (List (Blk × Bool)) :=
  (List.range o.n).map (fun i => mxRow co o.wfmt (o.wa + i * mxRowLen o.wfmt o.k) o.k)

/-- Cycles that load x, before the first pass (R104). -/
def MvpOps.loadCycles (o : MvpOps) : Nat := ceilDiv (33 * o.k) 32768

/-- Blocks of 32 that the MVU takes in a cycle (R104). -/
def MvpOps.perCycle (o : MvpOps) : Nat := if o.wfmt = 6 then 2 else 1

/-- The blocks of an MVP, as pass and block, that fail their check on an attempt (R215). -/
def Core.mvpFails (co : Core) (o : MvpOps) (errs : List TreeErr) (att : Nat) : List (Nat × Nat) :=
  if errs = [] then []
  else
    let xs := mxRow co o.xfmt o.xa o.k
    let rows := co.mvpRows o
    let zero : Blk × Bool := (mkBlk o.wfmt (List.replicate 32 0) 0, false)
    ((List.range (o.n / 32)).flatMap (fun ng => (List.range (o.k / 32)).map (fun j => (ng, j)))).filter (fun (ng, j) =>
      mvpBad (((rows.drop (32 * ng)).take 32).map (fun r => r.getD j zero)) (xs.getD j zero).1
        (fun i => mvpErr errs att (32 * ng + i) j))

/-- MVP's plan. `errs` are errors of the datapath: attempt, output, block. A block of a pass whose check fails is computed once more; a
second failure poisons the pass (R215). -/
def planMvp (w : BitVec 128) (errs : List TreeErr) (x : IssueCtx) : Except Refuse Plan := do
  let m := wMod w
  let o := mvpOps w
  let ⟨wfmt, xfmt, wa, xa, ya, n, k⟩ := o
  let accum := bit m 0
  let noout := bit m 1
  let ybf := bit m 2
  chk (!(wfmt == 6 && decide (k / 32 % 2 = 1))) (fieldBad 0x5205 0x100)
  let ylen := n * (if ybf then 2 else 4)
  chk (inStore wa (n * mxRowLen wfmt k) && inStore xa (mxRowLen xfmt k) && (noout || dstOk x.c ya ylen)) (opndBad 0x20 1)
  let q := x.key 0
  let xs := mxRow x.co xfmt xa k
  let xp := xs.any Prod.snd
  let rows := x.co.mvpRows o
  let redone := x.co.mvpFails o errs 0
  let again := x.co.mvpFails o errs 1
  let lost := redone.filter (fun b => again.contains b)
  let twice := (List.range (n / 32)).filter (fun ng => lost.any (fun b => b.1 == ng))
  let outs := rows.zipIdx.map (fun (ws, i) =>
    let (v, f) := mvpRow q i (if accum then (tabGet 0 x.co.mvu i).toNat else 0) 0 ws xs
      (fun j => mvpErr errs (b2n (redone.contains (i / 32, j))) i j)
    let p := xp || ws.any Prod.snd || (accum && psHas x.co.mvuPois i)
    ((v, p || twice.contains (i / 32)), f ||| orFlags (ws.map (·.1.flags)) ||| (if p then fPOISON else 0)))
  let fl := orFlags (outs.map Prod.snd) ||| orFlags (xs.map (·.1.flags))
  let ys := outs.zipIdx.map (fun (o, i) =>
    let (v, f) := if ybf then bf16.rne (fp32.dec o.1.1) else (o.1.1, 0)
    ((⟨false, ya + i * (if ybf then 2 else 4), leBytes (if ybf then 2 else 4) v, o.1.2⟩ : Put), f))
  let cal := if twice ≠ [] then 2 else if redone ≠ [] then 1 else 0
  let mine (i : Nat) : List Nat := if (outs.getD i ((0, false), 0)).1.2 then [i] else []
  let cyc := o.loadCycles + n / 32 * (k / 32 / o.perCycle) + 12 + 5 * redone.length
  pure {
    entry := { flags := if noout then fl else fl ||| orFlags (ys.map Prod.snd), cal := cal, badRows := twice,
               status := b2n (!noout && outs.any (·.1.2)), fields := [BitVec.ofNat 32 cal],
               puts := if noout then [] else ys.map Prod.fst,
               mvu := some (outs.map (fun o => BitVec.ofNat 32 o.1.1)), mvuPois := (List.range n).flatMap mine,
               errs := errs, startCycle := x.cyc, doneCycle := x.cyc + cyc },
    reads := [(wa, n * mxRowLen wfmt k), (xa, mxRowLen xfmt k)],
    writes := if noout then [] else [(ya, ylen)] }

/-- MVP: y = W x on the matrix-vector unit (R102 to R104, R289). -/
def execMvp (core : Fin 48) (w : BitVec 128) (errs : List TreeErr) (s : State) : Res :=
  .next (s.issue1 core 1 0x20 w (planMvp w errs))

/-- The MVU accumulators after an MVP: those it computed; the others kept with ACCUM, +0 without it (R103). -/
def Core.setMvu (co : Core) (e : Entry) : Core :=
  match e.mvu with
  | none => co
  | some vs =>
    let keep := wModBit e.word 0
    { co with mvu := vs.zipIdx.foldl (fun t (v, i) => tabSet 0 t i v) (if keep then co.mvu else []),
              mvuPois := (List.range vs.length).foldl (fun p i => psPut p i (e.mvuPois.contains i)) (if keep then co.mvuPois else []) }

/-- Blocks of an MVP whose adds lie in the accumulators before a cycle; a recomputed block delays those after it, which this count
leaves out (R104, R482; log entry 11). -/
def Entry.mvpBlocks (e : Entry) (cyc : Nat) : Nat :=
  let o := mvpOps e.word
  max e.addsDone (min (o.n / 32 * (o.k / 32)) ((cyc - (e.startCycle + o.loadCycles + 12)) * o.perCycle))

/-- A core as it is saved: the accumulators hold the adds of each MVP's blocks so far, and its cursor is pass x 65,536 + next
block (R482). -/
def Core.saveMvp (co : Core) (c : Cell) (key : Entry → Key) : Core :=
  co.inflight.foldl (fun co e =>
    if e.mvu.isNone then co
    else
      let o := mvpOps e.word
      let kb := o.k / 32
      let stop := e.mvpBlocks c.cycle
      let xs := mxRow co o.xfmt o.xa o.k
      let redone := co.mvpFails o e.errs 0
      let outs := (co.mvpRows o).zipIdx.map (fun (ws, i) =>
        let from_ := min kb (e.addsDone - i / 32 * kb)
        let upto := min kb (stop - i / 32 * kb)
        let cut (l : List (Blk × Bool)) : List (Blk × Bool) := (l.take upto).drop from_
        let old := from_ ≠ 0 ∨ wModBit e.word 0
        let v := mvpRow (key e) i (if old then (tabGet 0 co.mvu i).toNat else 0) from_ (cut ws) (cut xs)
          (fun j => mvpErr e.errs (b2n (redone.contains (i / 32, j))) i j)
        (v.1, decide old && psHas co.mvuPois i || (cut ws).any Prod.snd || (cut xs).any Prod.snd))
      let co := co.setMvu { e with mvu := some (outs.map (fun v => BitVec.ofNat 32 v.1)),
                                   mvuPois := (List.range outs.length).filter (fun i => (outs.getD i (0, false)).2) }
      co.modEntry e.stream e.ord (fun e => { e with addsDone := stop, cursor := BitVec.ofNat 64 (stop / kb * 65536 + stop % kb) })) co

end Sys2Proof.Machine
end

