-- ==== Sys2Proof/Machine/Lines.lean ====
section
/-! DEFINITION. Parameter lines: layout, CRC-32, the skip rule, slots; CARVE, MODEL and MSTAT (R151 to R172, R391, R392). -/
namespace Sys2Proof.Machine
open Sys2Proof

/-! CRC-32 (R392). -/

/-- Eight shifts of the reflected CRC register. -/
def crcBits : Nat → Nat → Nat
  | 0, c => c
  | n + 1, c => crcBits n (if c % 2 = 1 then Nat.xor (c / 2) 0xEDB88320 else c / 2)

/-- CRC-32 of IEEE 802.3 over a byte string. -/
def crc32 (b : List Byte) : Nat :=
  Nat.xor (b.foldl (fun c x => crcBits 8 (Nat.xor c x.toNat)) 0xFFFFFFFF) 0xFFFFFFFF

/-- The CRC of a parameter line: bytes 0 to 3 and 8 to 127. -/
def lineCrc (l : List Byte) : Nat := crc32 (bsub l 0 4 ++ bsub l 8 120)

/-! The line (R391). -/

/-- One slot of a line. -/
structure Slot where
  /-- Index. -/
  idx : Nat
  /-- Weight, BF16. -/
  w : Nat
  /-- Age. -/
  age : Nat
  /-- First moment, BF16. -/
  m : Nat
  /-- Second moment, E5M3. -/
  v : Nat
  deriving DecidableEq, Repr

/-- Slot s of a line. -/
def lineSlot (l : List Byte) (s : Nat) : Slot :=
  ⟨bfld l (16 + s) 1, bfld l (48 + 2 * s) 2, bfld l (112 + s / 2) 1 / 16 ^ (s % 2) % 16, bfld l (128 + 2 * s) 2,
   bfld l (192 + s) 1⟩

/-- The 32 slots. -/
def lineSlots (l : List Byte) : List Slot := (List.range 32).map (lineSlot l)

/-- G of a line. -/
def lineG (l : List Byte) : Nat := bfld l 12 1
/-- Reach base of a line. -/
def lineK0 (l : List Byte) : Nat := bfld l 10 2

/-- Status of a slot of a line under the instruction's K-extent (R154). -/
def lineStat (l : List Byte) (kext s idx : Nat) : Nat := slotStatus (lineG l) (lineK0 l) kext s idx

/-- A line built from its slots: header fields, COUNT, phase and stamp, the CRC last (R165). -/
def lineBuild (old : List Byte) (ss : List Slot) (stamp phase count : Nat) : List Byte :=
  let g (s : Nat) : Slot := ss.getD s ⟨0, 0, 0, 0, 0⟩
  let tail := bsub old 8 5 ++ leBytes 1 count ++ leBytes 2 phase ++ (List.range 32).flatMap (fun s => leBytes 1 (g s).idx) ++
    (List.range 32).flatMap (fun s => leBytes 2 (g s).w) ++
    (List.range 16).flatMap (fun i => leBytes 1 ((g (2 * i)).age + 16 * (g (2 * i + 1)).age)) ++
    (List.range 32).flatMap (fun s => leBytes 2 (g s).m) ++ (List.range 32).flatMap (fun s => leBytes 1 (g s).v) ++
    List.replicate 32 0
  leBytes 4 stamp ++ leBytes 4 (crc32 (leBytes 4 stamp ++ tail.take 120)) ++ tail

/-- Why a line is skipped: 0 not at all, 1 poison, 2 CRC, 3 G, 4 reach base (R153, R184). -/
def lineSkip (pois : Bool) (l : List Byte) : Nat :=
  if pois then 1
  else if bfld l 4 4 ≠ lineCrc l then 2
  else if ¬ (lineG l = 1 ∨ lineG l = 2 ∨ lineG l = 4 ∨ lineG l = 8) then 3
  else if lineK0 l % (256 / lineG l) ≠ 0 then 4
  else 0

/-- A released slot (R155). -/
def vacSlot (g s : Nat) : Slot := ⟨vacIdx g s, 0, 0, 0, 0⟩

/-- A slot that keeps its place in a line: it is live. -/
def isLive (l : List Byte) (kext s : Nat) (x : Slot) : Bool := lineStat l kext s x.idx == 3

/-- The slots with every malformed or out-of-range slot released, and how many were (R154). -/
def releaseBad (l : List Byte) (kext : Nat) : List Slot × Nat :=
  let ss := lineSlots l
  (ss.zipIdx.map (fun (x, s) => if lineStat l kext s x.idx = 1 ∨ lineStat l kext s x.idx = 2 then vacSlot (lineG l) s else x),
   (ss.zipIdx.filter (fun (x, s) => decide (lineStat l kext s x.idx = 1 ∨ lineStat l kext s x.idx = 2))).length)

/-- Live slots of a list. -/
def liveCount (l : List Byte) (kext : Nat) (ss : List Slot) : Nat :=
  (ss.zipIdx.filter (fun (x, s) => isLive l kext s x)).length

/-! CARVE (R156 to R158). -/

/-- Rank key of a weight: magnitude, a NaN above every other value. -/
def magKey (w : Nat) : Nat := if (bf16.dec w).isNan then 2 ^ 16 else w % 2 ^ 15

/-- Stable insertion by a key, ascending. -/
def insBy {α : Type} (key : α → Nat) (x : α) : List α → List α
  | [] => [x]
  | y :: r => if key x < key y then x :: y :: r else y :: insBy key x r

/-- A stable sort by a key, ascending. -/
def sortBy {α : Type} (key : α → Nat) (xs : List α) : List α := xs.foldl (fun l x => insBy key x l) []

/-- What one line contributes to a mask instruction: the new line, or why it is left unwritten, the count byte, the record
counts of R169 and the flags. -/
structure LineOut where
  /-- New line; none when unwritten. -/
  line : Option (List Byte) := none
  /-- Reason as R404 codes it. -/
  reason : Nat := 0
  /-- Count byte of R158. -/
  cnt : Nat := 0xFF
  /-- LINES, SKIPPED, RANGE_SLOTS, DROPPED, GROWN, FILLED, SHORT, PASSED. -/
  counts : List Nat := [0, 1, 0, 0, 0, 0, 0, 0]
  /-- FLAGS. -/
  flags : Nat := 0
  /-- The line is written poisoned. -/
  pois : Bool := false
  deriving DecidableEq, Repr

/-- CARVE on one line. -/
def carveLine (kext k amin stamp : Nat) (pois : Bool) (l : List Byte) : LineOut :=
  let r := lineSkip pois l
  if r ≠ 0 then { reason := r, flags := if r = 1 then fPOISON else 0 }
  else
    let (ss, bad) := releaseBad l kext
    let elig := (List.range 32).filter (fun s =>
      let x := ss.getD s (vacSlot 8 s)
      isLive l kext s x && decide (amin ≤ x.age))
    let w (s : Nat) : Nat := (ss.getD s (vacSlot 8 s)).w
    let drop := (sortBy (fun s => magKey (w s)) elig).take k
    let ss := ss.zipIdx.map (fun (x, s) =>
      if drop.contains s then vacSlot (lineG l) s
      else if isLive l kext s x then { x with age := min 15 (x.age + 1) } else x)
    { line := some (lineBuild l ss stamp 1 (liveCount l kext ss)), cnt := drop.length + bad,
      counts := [1, 0, bad, drop.length, 0, 0, if elig.length < k then 1 else 0, 0],
      flags := (if bad ≠ 0 then fRANGE else 0) ||| (if elig.any (fun s => (bf16.dec (w s)).isNan) then fNV else 0) }

/-! MODEL (R159 to R164). -/

/-- A slot grown at a K-position: weight given, age and moments zero (R163). -/
def growSlot (idx w : Nat) : Slot := ⟨idx, w, 0, 0, 0⟩

/-- The lowest-numbered vacant slot of an octet (R162). -/
def vacantIn (l : List Byte) (kext o : Nat) (ss : List Slot) : Option Nat :=
  let g := lineG l
  ((List.range g).map (g * o + ·)).find? (fun s => !(isLive l kext s (ss.getD s (vacSlot g s))))

/-- Live slots of an octet. -/
def octetLive (l : List Byte) (kext o : Nat) (ss : List Slot) : Nat :=
  let g := lineG l
  (((List.range g).map (g * o + ·)).filter (fun s => isLive l kext s (ss.getD s (vacSlot g s)))).length

/-- A position of the reach is live. -/
def posLive (l : List Byte) (kext p : Nat) (ss : List Slot) : Bool :=
  ss.zipIdx.any (fun (x, s) => isLive l kext s x && x.idx == p)

/-- Progress of MODEL on a line. -/
structure ModelSt where
  /-- Slots. -/
  ss : List Slot
  /-- Slots grown from candidates. -/
  grown : Nat := 0
  /-- Candidates passed over. -/
  passed : Nat := 0
  /-- Slots filled. -/
  filled : Nat := 0
  /-- FLAGS. -/
  flags : Nat := 0

/-- One candidate record examined (R161). DESIGN CHOICE: a candidate that fails several conditions sets the flag of the first in the
table's order alone (log entry 74). -/
def modelCand (l : List Byte) (kext winit alpha : Nat) (st : ModelSt) (rec_ : Nat × Bool) : ModelSt :=
  let v := rec_.1 % 2 ^ 32
  let kpos := rec_.1 / 2 ^ 32 % 65536
  let col := rec_.1 / 2 ^ 48 % 65536
  let g := lineG l
  let k0 := lineK0 l
  let pass (f : Nat) : ModelSt := { st with passed := st.passed + 1, flags := st.flags ||| f }
  let p := kpos - k0
  if kpos = 0xFFFF then pass 0
  else if col ≠ bfld l 8 2 ∨ kpos < k0 ∨ min (k0 + 256 / g) kext ≤ kpos then pass fRANGE
  else if (fp32.dec v).isNan then pass fNV
  else if rec_.2 then pass fPOISON
  else if posLive l kext p st.ss then pass 0
  else
    match (if octetLive l kext (p / 8) st.ss < g then vacantIn l kext (p / 8) st.ss else none) with
    | none => pass 0
    | some s =>
      let (w, f) := if winit = 0 then (0, 0) else bf16.rne ((fp32.dec alpha).mul (fp32.dec v))
      { st with ss := st.ss.set s (growSlot (p / 8 * 8 + p % 8) w), grown := st.grown + 1, flags := st.flags ||| f }

/-- Candidates in order until the target is reached. -/
def modelCands (l : List Byte) (kext winit alpha target : Nat) (st : ModelSt) : List (Nat × Bool) → ModelSt
  | [] => st
  | c :: r => if target ≤ st.grown then st else modelCands l kext winit alpha target (modelCand l kext winit alpha st c) r

/-- FILLLOW: positions in ascending order, an octet at a time (R164). -/
def modelFill (l : List Byte) (kext target : Nat) (st : ModelSt) : ModelSt :=
  (List.range (256 / lineG l)).foldl (fun st p =>
    if target ≤ st.grown + st.filled ∨ kext ≤ lineK0 l + p ∨ lineG l ≤ octetLive l kext (p / 8) st.ss ∨ posLive l kext p st.ss
    then st
    else
      match vacantIn l kext (p / 8) st.ss with
      | none => st
      | some s => { st with ss := st.ss.set s (growSlot p 0), filled := st.filled + 1 }) st

/-- MODEL on one line. `tgt` is the target before the cap, none for a count byte of 0xFF. DESIGN CHOICE: a poisoned count byte poisons
the line in the core store and its HOME line, and the delta record has no poison (R160, R232; log entry 74). -/
def modelLine (kext winit alpha stamp : Nat) (fill : Bool) (tgt : Option Nat) (tp : Bool) (cands : List (Nat × Bool))
    (pois : Bool) (l : List Byte) : LineOut :=
  match tgt with
  | none => { reason := 6 }
  | some t =>
    let r := lineSkip pois l
    if r ≠ 0 then { reason := r, flags := if r = 1 then fPOISON else 0 }
    else
      let (ss, bad) := releaseBad l kext
      let target := min t (32 - liveCount l kext ss)
      let st := modelCands l kext winit alpha target { ss := ss } cands
      let st := if fill then modelFill l kext target st else st
      { line := some (lineBuild l st.ss stamp 2 (liveCount l kext st.ss)), pois := tp,
        counts := [1, 0, bad, 0, st.grown, st.filled, target - st.grown - st.filled, st.passed],
        flags := st.flags ||| (if bad ≠ 0 then fRANGE else 0) ||| (if tp then fPOISON else 0) }

/-! Line instructions as plans. -/

/-- A HOME field: a multiple of 256 in bits [51:0] (R291, R299). -/
def homeOk (h : Nat) : Bool := decide (h % 256 = 0 ∧ h < 2 ^ 52)

/-- K_ext: a multiple of 32 from 32 to 65,504 (R129, R154). -/
def kextOk (k : Nat) : Bool := decide (k % 32 = 0 ∧ 32 ≤ k ∧ k ≤ 65504)

/-- The entry of an instruction that rewrites lines: what each line writes as it is finished, in the core store and at HOME,
the events of skipped lines, record fields and flags. `fin j` is the cycle at which line j is finished; `cnts` holds the count
byte of each line, or nothing (R151 to R153, R157, R167, R404). -/
def linesEntry (laddr home phase : Nat) (outs : List LineOut) (cnts : List Put) (fields : List Nat) (fin : Nat → Nat)
    (done : Nat) : Entry :=
  let hs := outs.zipIdx.map (fun (o, j) =>
    let a := laddr + 256 * j
    let put := match o.line with | some b => [(⟨false, a, b, o.pois⟩ : Put)] | none => []
    ({ va := home + 256 * j, line := o.line.getD [], pois := o.pois, at_ := fin j, reason := o.reason, addr := a, phase := phase,
       puts := put ++ (cnts[j]?).toList, counts := o.counts } : HomeWrite))
  let skips := outs.zipIdx.filterMap (fun (o, j) =>
    if o.reason ≠ 0 ∧ o.reason ≤ 4 then some (0x1304, [(4, laddr + 256 * j), (1, o.reason)]) else none)
  { flags := orFlags (outs.map (·.flags)), status := b2n (outs.any (·.pois)), fields := fields.map (BitVec.ofNat 32),
    home := if home = 0 then [] else hs, lines := if home = 0 then hs else [], events := if home = 0 then skips else [],
    doneCycle := done }

/-- Sums of the eight counts of R169. -/
def sumCounts (outs : List LineOut) : List Nat :=
  (List.range 8).map (fun i => (outs.map (fun o => o.counts.getD i 0)).foldl (· + ·) 0)

/-- A refusal when a field check fails, with opcode and field number. -/
def fieldsOk (code opc : Nat) (f : Option Nat) : Except Refuse Unit :=
  match f with | none => .ok () | some n => .error (paramBad code opc n)

/-- CARVE's plan (R151 to R158). -/
def planCarve (w : BitVec 128) (x : IssueCtx) : Except Refuse Plan := do
  let b ← rdBlock x.co 0x3A (64 * wf w 71 53) 64 64
  let la := bfld b 0 4
  let nl := bfld b 4 4
  let home := bfld b 8 8
  let ca := bfld b 16 4
  fieldsOk 0x5209 0x3A (blockChecks b [(0, 24)]
    [(0, decide (la % 256 = 0)), (4, decide (1 ≤ nl ∧ nl ≤ 65536)), (8, homeOk home), (20, kextOk (bfld b 20 2)),
     (22, decide (bfld b 22 1 ≤ 32)), (23, decide (bfld b 23 1 ≤ 15))])
  chk (dstOk x.c la (256 * nl) && (ca == 0 || dstOk x.c ca nl)) (opndBad 0x3A 1)
  let outs := (List.range nl).map (fun j =>
    carveLine (bfld b 20 2) (bfld b 22 1) (bfld b 23 1) (x.c.step.toNat % 2 ^ 32) (x.co.poisoned (la + 256 * j) 256)
      (x.co.read (la + 256 * j) 256))
  let done := x.cyc + 24 + 4 * ceilDiv nl 2
  let cnts := if ca = 0 then [] else outs.zipIdx.map (fun (o, j) => (⟨false, ca + j, leBytes 1 o.cnt, false⟩ : Put))
  pure { entry := { linesEntry la home 1 outs cnts (sumCounts outs) (fun j => x.cyc + 24 + 4 * (j / 2 + 1)) done with block := b },
         reads := [(la, 256 * nl)], writes := (la, 256 * nl) :: (if ca = 0 then [] else [(ca, nl)]),
         upd := fun co => { co with mrgFree := done } }

/-- MODEL's plan (R151 to R164). -/
def planModel (w : BitVec 128) (x : IssueCtx) : Except Refuse Plan := do
  let b ← rdBlock x.co 0x3B (64 * wf w 71 53) 64 64
  let la := bfld b 0 4
  let nl := bfld b 4 4
  let home := bfld b 8 8
  let ca := bfld b 16 4
  let kc := bfld b 23 1
  let cad := bfld b 24 4
  let pair := wModBit w 0
  fieldsOk 0x5209 0x3B (blockChecks b [(0, 29), (32, 4)]
    [(0, decide (la % 256 = 0)), (4, decide (1 ≤ nl ∧ nl ≤ 65536)), (8, homeOk home), (20, kextOk (bfld b 20 2)),
     (22, pair || decide (bfld b 22 1 ≤ 32)), (23, decide (1 ≤ kc ∧ kc ≤ 8)), (24, decide (cad % 8 = 0)),
     (28, decide (bfld b 28 1 ≤ 1))])
  chk (dstOk x.c la (256 * nl) && (!pair || inStore ca nl) && inStore cad (8 * kc * nl)) (opndBad 0x3B 1)
  let outs := (List.range nl).map (fun j =>
    let cnt := leNat (x.co.read (ca + j) 1)
    let cands := (List.range kc).map (fun i =>
      let a := cad + 8 * (j * kc + i)
      (bfld (x.co.read a 8) 0 8, x.co.poisoned a 8))
    modelLine (bfld b 20 2) (bfld b 28 1) (bfld b 32 4) (x.c.step.toNat % 2 ^ 32) (wModBit w 1)
      (if pair then (if cnt = 0xFF then none else some cnt) else some (bfld b 22 1))
      (pair && x.co.poisoned (ca + j) 1) cands (x.co.poisoned (la + 256 * j) 256) (x.co.read (la + 256 * j) 256))
  let per := 4 + ceilDiv kc 4
  let done := x.cyc + 24 + per * ceilDiv nl 2
  pure { entry := { linesEntry la home 2 outs [] (sumCounts outs) (fun j => x.cyc + 24 + per * (j / 2 + 1)) done with block := b },
         reads := [(la, 256 * nl), (cad, 8 * kc * nl)] ++ (if pair then [(ca, nl)] else []), writes := [(la, 256 * nl)],
         upd := fun co => { co with mrgFree := done } }

/-- MSTAT's plan: R153 applied to each line with its event, the lines unchanged (R172). DESIGN CHOICE: a skipped line
counts among the lines read and adds to no count of slots (log entry 74). -/
def planMstat (w : BitVec 128) (x : IssueCtx) : Except Refuse Plan := do
  let b ← rdBlock x.co 0x3C (64 * wf w 71 53) 64 64
  let la := bfld b 0 4
  let nl := bfld b 4 4
  let oa := bfld b 8 4
  let kext := bfld b 12 2
  fieldsOk 0x5209 0x3C (blockChecks b [(0, 14)]
    [(0, decide (la % 256 = 0)), (4, decide (1 ≤ nl ∧ nl ≤ 16777216)), (8, decide (oa % 64 = 0)), (12, kextOk kext)])
  chk (inStore la (256 * (nl - 1) + 128) && dstOk x.c oa 256) (opndBad 0x3C 1)
  let ls := (List.range nl).map (fun j =>
    let a := la + 256 * j
    let l := x.co.read a 128
    let r := lineSkip (x.co.poisoned a 128) l
    let ss := lineSlots l
    let st := ss.zipIdx.map (fun (y, s) => (lineStat l kext s y.idx, y.age))
    (r, if r = 0 then st else []))
  let ok := ls.filter (fun p => p.1 == 0)
  let live := ok.map (fun p => (p.2.filter (fun q => q.1 == 3)).length)
  let bad := (ok.map (fun p => (p.2.filter (fun q => q.1 == 1 || q.1 == 2)).length)).foldl (· + ·) 0
  let ages := ok.flatMap (fun p => (p.2.filter (fun q => q.1 == 3)).map Prod.snd)
  let rec_ := leBytes 8 (live.foldl (· + ·) 0) ++ leBytes 8 nl ++ leBytes 4 bad ++
    leBytes 4 (ls.filter (fun p => p.1 != 0)).length ++
    (List.range 16).flatMap (fun a => leBytes 4 (ages.filter (· == a)).length) ++
    (List.range 33).flatMap (fun n => leBytes 4 (live.filter (· == n)).length) ++ List.replicate 36 0
  let done := x.cyc + 24 + 2 * ceilDiv nl 2
  let poisoned := ls.any (fun p => p.1 == 1)
  let skips := ls.zipIdx.filterMap (fun (p, j) => if p.1 = 0 then none else some (0x1304, [(4, la + 256 * j), (1, p.1)]))
  pure { entry := { block := b, flags := (if bad ≠ 0 then fRANGE else 0) ||| (if poisoned then fPOISON else 0),
                    puts := [⟨false, oa, rec_, false⟩], events := skips, doneCycle := done },
         reads := [(la, 256 * nl)], writes := [(oa, 256)], upd := fun co => { co with mrgFree := done } }

/-- CARVE: the weakest weights of each line dropped (R156). -/
def execCarve (core : Fin 48) (w : BitVec 128) (s : State) : Res := .next (s.issue1 core 2 0x3A w (planCarve w))
/-- MODEL: new positions grown in each line (R161). -/
def execModel (core : Fin 48) (w : BitVec 128) (s : State) : Res := .next (s.issue1 core 2 0x3B w (planModel w))
/-- MSTAT: statistics of lines (R172). -/
def execMstat (core : Fin 48) (w : BitVec 128) (s : State) : Res := .next (s.issue1 core 2 0x3C w (planMstat w))

end Sys2Proof.Machine
end

