-- ==== Sys2Proof/Machine/Merge.lean ====
section
/-! DEFINITION. The merge engine's record instructions: SPMSP, MERGE, SORT and TOPKIDX (R173 to R183). -/
namespace Sys2Proof.Machine
open Sys2Proof

/-- A merge record: key, FP32 value, poison (R173). -/
structure MRec where
  /-- KEY. -/
  key : Nat
  /-- VALUE. -/
  val : Nat
  /-- Poison. -/
  pois : Bool
  deriving DecidableEq, Repr

/-- The n records at an address. -/
def readRecs (co : Core) (a n : Nat) : List MRec :=
  (List.range n).map (fun i =>
    let b := co.read (a + 8 * i) 8
    ⟨bfld b 4 4, bfld b 0 4, co.poisoned (a + 8 * i) 8⟩)

/-- A record's eight bytes. -/
def MRec.bytes (r : MRec) : List Byte := leBytes 4 r.val ++ leBytes 4 r.key

/-- Records as writes from an address on, each with its own poison. -/
def recPuts (a : Nat) (rs : List MRec) : List Put := rs.zipIdx.map (fun (r, i) => ⟨false, a + 8 * i, r.bytes, r.pois⟩)

/-- FP32 add rounded with rne (R176). -/
def fAdd (a b : Nat) : Nat × Nat := fp32.rne ((fp32.dec a).add (fp32.dec b))

/-- A sparse matrix operand: row-pointer array, records and row count (R173). -/
structure SpOp where
  /-- Row pointers. -/
  ptr : Nat
  /-- Records. -/
  rec_ : Nat
  /-- Rows. -/
  rows : Nat

/-- Row pointer i. -/
def SpOp.at_ (p : SpOp) (co : Core) (i : Nat) : Nat := bfld (co.read (p.ptr + 4 * i) 4) 0 4

/-- The records of a row; none past the last row. A poisoned pointer poisons them. -/
def SpOp.row (p : SpOp) (co : Core) (i : Nat) : List MRec :=
  if p.rows ≤ i then []
  else
    let pp := co.poisoned (p.ptr + 4 * i) 8
    (readRecs co (p.rec_ + 8 * p.at_ co i) (p.at_ co (i + 1) - p.at_ co i)).map (fun r => { r with pois := r.pois || pp })

/-- The position of the first key that does not ascend strictly (R174). -/
def orderBad (strict : Bool) (rs : List MRec) : Option Nat :=
  ((List.range (rs.length - 1)).find? (fun i =>
    let a := (rs.getD i ⟨0, 0, false⟩).key
    let b := (rs.getD (i + 1) ⟨0, 0, false⟩).key
    if strict then decide (b ≤ a) else decide (b < a))).map (· + 1)

/-- A sum table: key, value, poison, keys ascending. A first value is put in, a later one combined by `f` (R176, R177). -/
def sumInto (f : Nat → Nat × Nat) (key first : Nat) (p : Bool) : List MRec → List MRec × Nat
  | [] => ([⟨key, first, p⟩], 0)
  | r :: t =>
    if key < r.key then (⟨key, first, p⟩ :: r :: t, 0)
    else if key = r.key then
      let (v, fl) := f r.val
      (⟨key, v, r.pois || p⟩ :: t, fl)
    else
      let (t', fl) := sumInto f key first p t
      (r :: t', fl)

/-- One product a x b added at a key: the first value rounded once, a later one added exactly and rounded (R177). -/
def prodInto (key : Nat) (a b : MRec) (st : List MRec × Nat) : List MRec × Nat :=
  let p := (fp32.dec a.val).mul (fp32.dec b.val)
  let (v, f1) := fp32.rne p
  let hit := st.1.any (fun r => r.key == key)
  let (t, f2) := sumInto (fun o => fp32.rne ((fp32.dec o).add p)) key v (a.pois || b.pois) st.1
  (t, st.2 ||| (if hit then f2 else f1) ||| (if a.pois || b.pois then fPOISON else 0))

/-- A strip's table added into a row's output (R177). -/
def stripInto (out : List MRec × Nat) (strip : List MRec) : List MRec × Nat :=
  strip.foldl (fun o r =>
    let (t, f) := sumInto (fun v => fAdd v r.val) r.key r.val r.pois o.1
    (t, o.2 ||| f)) out

/-- One row of C (R177). -/
def spmspRow (co : Core) (b : SpOp) (as : List MRec) : List MRec × Nat :=
  (List.range (ceilDiv as.length 4096)).foldl (fun o t =>
    let src := (as.drop (4096 * t)).take 4096
    let st := src.foldl (fun st a => (b.row co a.key).foldl (fun st r => prodInto r.key a r st) st) ([], 0)
    let o' := stripInto o st.1
    (o'.1, o'.2 ||| st.2)) ([], 0)

/-- The first violation of order that the processing of row i meets: operand 0 A or 1 B, row and position (R174). -/
def rowOrder (co : Core) (b : SpOp) (i : Nat) (as : List MRec) : Option (Nat × (Nat × Nat)) :=
  let abad := orderBad true as
  let upto := match abad with | some p => as.take p | none => as
  match upto.findSome? (fun a => (orderBad true (b.row co a.key)).map (fun p => (1, (a.key, p)))) with
  | some v => some v
  | none => abad.map (fun p => (0, (i, p)))

/-- Cycles of an instruction whose units are dealt to the two pipes alternately (R182, R183). -/
def pipeMax (us : List Nat) : Nat :=
  let s (k : Nat) : Nat := (us.zipIdx.filter (fun (_, i) => i % 2 == k)).foldl (fun a u => a + u.1) 0
  max (s 0) (s 1)

/-- L(a) of R183. -/
def levelsOf (a : Nat) : Nat := if a ≤ 16 then 1 else if a ≤ 256 then 2 else 3

/-- Pipe times of the rows of SPMSP ROW: strips dealt alternately, a row's strip merge on the pipe of its first strip. -/
def rowCycles (co : Core) (b : SpOp) (rows : List (List MRec)) : Nat :=
  let r := rows.foldl (fun (acc : (Nat × Nat) × Nat) as =>
    let ns := ceilDiv as.length 4096
    let first := acc.2 % 2
    let strips := (List.range ns).map (fun t =>
      let src := (as.drop (4096 * t)).take 4096
      let f := (src.map (fun a => (b.row co a.key).length)).foldl (· + ·) 0
      (ceilDiv f 16 * levelsOf src.length + 4,
       (src.foldl (fun st a => (b.row co a.key).foldl (fun st r => prodInto r.key a r st) st) ([], 0)).1.length))
    let put (p : Nat × Nat) (k c : Nat) : Nat × Nat := if k % 2 = 0 then (p.1 + c, p.2) else (p.1, p.2 + c)
    let p := strips.zipIdx.foldl (fun p (c, i) => put p (acc.2 + i) c.1) acc.1
    let p := if 1 < ns then put p first (ceilDiv ((strips.map Prod.snd).foldl (· + ·) 0) 16 + 4) else p
    (p, acc.2 + ns)) ((0, 0), 0)
  24 + max r.1.1 r.1.2

/-- What SPMSP ROW leaves after the rows processed so far. -/
structure RowOut where
  /-- Record writes. -/
  puts : List Put := []
  /-- Pointer writes. -/
  ptrs : List Put := []
  /-- Records written. -/
  n : Nat := 0
  /-- FLAGS. -/
  flags : Nat := 0
  /-- The fault that stopped it. -/
  bad : Option (Nat × List (Nat × Nat)) := none

/-- SPMSP ROW over the rows of A (R174, R175, R177). DESIGN CHOICE: the operand of MRG_ORDER, A or B, is logged in 1 B as a stream
number is (log entry 74). -/
def spmspRows (co : Core) (a b : SpOp) (optr oaddr ocap : Nat) : RowOut :=
  (List.range a.rows).foldl (fun (o : RowOut) i =>
    match o.bad with
    | some _ => o
    | none =>
      let as := a.row co i
      match rowOrder co b i as with
      | some (op, (r, p)) => { o with bad := some (0x1302, [(1, op), (4, r), (4, p)]) }
      | none =>
        let (rs, fl) := spmspRow co b as
        let fit := rs.take (ocap - o.n)
        let o' := { o with puts := o.puts ++ recPuts (oaddr + 8 * o.n) fit, flags := o.flags ||| fl }
        if fit.length < rs.length then { o' with n := o.n + fit.length, bad := some (0x1303, [(4, i), (4, ocap)]) }
        else { o' with n := o.n + rs.length,
                       ptrs := o.ptrs ++ [⟨false, optr + 4 * (i + 1), leBytes 4 (o.n + rs.length), false⟩] })
    { ptrs := [⟨false, optr, leBytes 4 0, false⟩] }

/-- One pair of SPMSP DOT: value, flags, poison (R178). -/
def dotPair (as bs : List MRec) : Nat × Nat × Bool :=
  let st := as.foldl (fun (o : Option Nat × Nat × Bool) a =>
    match bs.find? (fun b => b.key == a.key) with
    | none => o
    | some b =>
      let p := (fp32.dec a.val).mul (fp32.dec b.val)
      let (v, f) := match o.1 with
        | none => fp32.rne p
        | some s => fp32.rne ((fp32.dec s).add p)
      (some v, o.2.1 ||| f, o.2.2 || a.pois || b.pois)) (none, 0, false)
  match st.1 with
  | none => (0, fEMPTY, false)
  | some v => (v, st.2.1 ||| (if st.2.2 then fPOISON else 0), st.2.2)

/-- SPMSP DOT over its pairs. -/
def spmspDots (co : Core) (a b : SpOp) (plist np out : Nat) : RowOut :=
  (List.range np).foldl (fun (o : RowOut) j =>
    match o.bad with
    | some _ => o
    | none =>
      let e := co.read (plist + 8 * j) 8
      let ri := bfld e 0 4
      let rj := bfld e 4 4
      let as := a.row co ri
      let bs := b.row co rj
      match orderBad true as, orderBad true bs with
      | some p, _ => { o with bad := some (0x1302, [(1, 0), (4, ri), (4, p)]) }
      | _, some p => { o with bad := some (0x1302, [(1, 1), (4, rj), (4, p)]) }
      | none, none =>
        let (v, f, p) := dotPair as bs
        let p := p || co.poisoned (plist + 8 * j) 8
        { o with puts := o.puts ++ [⟨false, out + 4 * j, leBytes 4 v, p⟩], n := o.n + 1,
                 flags := o.flags ||| f ||| (if p then fPOISON else 0) })
    {}

/-- The entry of a merge instruction from what it wrote. -/
def mergeEntry (b : List Byte) (o : RowOut) (recs : Bool) (done : Nat) : Entry :=
  let puts := o.puts ++ o.ptrs
  { block := b, flags := o.flags ||| (if puts.any (·.pois) then fPOISON else 0), status := b2n (puts.any (·.pois)),
    fields := if recs then [BitVec.ofNat 32 o.n] else [], puts := puts, pendFault := o.bad, doneCycle := done }

/-- A record area is 8-byte aligned (R291). -/
def al8 (a : Nat) : Bool := decide (a % 8 = 0)

/-- SPMSP's plan from its operand block (R173 to R178). DESIGN CHOICE: row pointers that descend give an empty row, and an operand of
more than 16,777,216 records is reported as the field of that operand's address (log entry 74). -/
def planSpmspOf (b : List Byte) (x : IssueCtx) : Except Refuse Plan := do
  let dot := bfld b 0 1 == 1
  let a : SpOp := ⟨bfld b 4 4, bfld b 8 4, bfld b 12 4⟩
  let bb : SpOp := ⟨bfld b 16 4, bfld b 20 4, bfld b 24 4⟩
  let o := bfld b 28 4
  let oa := bfld b 32 4
  let cap := bfld b 36 4
  let pl := bfld b 40 4
  let np := bfld b 44 4
  let rOk (n : Nat) : Bool := decide (1 ≤ n ∧ n ≤ 1048576)
  let tot (p : SpOp) : Nat := p.at_ x.co p.rows
  fieldsOk 0x520A 0x30 (blockChecks b [(0, 1), (4, 44)]
    [(0, decide (bfld b 0 1 ≤ 1)), (4, decide (a.ptr % 4 = 0)), (8, al8 a.rec_), (12, rOk a.rows),
     (16, decide (bb.ptr % 4 = 0)), (20, al8 bb.rec_), (24, rOk bb.rows), (28, dot || decide (o % 4 = 0)),
     (32, dot || al8 oa), (40, !dot || al8 pl), (44, !dot || rOk np)])
  chk (inStore a.ptr (4 * (a.rows + 1)) && inStore bb.ptr (4 * (bb.rows + 1))) (opndBad 0x30 1)
  fieldsOk 0x520A 0x30 (if 16777216 < tot a then some 4 else if 16777216 < tot bb then some 16 else none)
  chk (inStore a.rec_ (8 * tot a) && inStore bb.rec_ (8 * tot bb) &&
       (if dot then inStore pl (8 * np) && dstOk x.c o (4 * np)
        else dstOk x.c o (4 * (a.rows + 1)) && dstOk x.c oa (8 * cap))) (opndBad 0x30 1)
  let r := if dot then spmspDots x.co a bb pl np o else spmspRows x.co a bb o oa cap
  let cyc := if dot then
      24 + pipeMax ((List.range np).map (fun j =>
        let e := x.co.read (pl + 8 * j) 8
        ceilDiv ((a.row x.co (bfld e 0 4)).length + (bb.row x.co (bfld e 4 4)).length) 16 + 2))
    else rowCycles x.co bb ((List.range a.rows).map (a.row x.co))
  pure { entry := mergeEntry b r true (x.cyc + cyc),
         reads := [(a.ptr, 4 * (a.rows + 1)), (a.rec_, 8 * tot a), (bb.ptr, 4 * (bb.rows + 1)), (bb.rec_, 8 * tot bb)] ++
           (if dot then [(pl, 8 * np)] else []),
         writes := if dot then [(o, 4 * np)] else [(o, 4 * (a.rows + 1)), (oa, 8 * cap)],
         upd := fun co => { co with mrgFree := x.cyc + cyc } }

/-- A first input value taken exactly; a NaN is written as the canonical NaN with NV (R62, R85, R176). -/
def firstVal (v : Nat) : Nat × Nat := if (fp32.dec v).isNan then (fp32.nan, fNV) else (v, 0)

/-- Records with equal keys summed in order (R176). -/
def accEqual (rs : List MRec) : List MRec × Nat :=
  rs.foldl (fun o r =>
    let (v0, f0) := firstVal r.val
    let (t, f) := sumInto (fun v => fAdd v r.val) r.key v0 r.pois o.1
    (t, o.2 ||| f ||| f0)) ([], 0)

/-- SPMSP's plan. -/
def planSpmsp (w : BitVec 128) (x : IssueCtx) : Except Refuse Plan := do
  let b ← rdBlock x.co 0x30 (64 * wf w 71 53) 64 64
  planSpmspOf b x

/-- MERGE's plan from its operand block (R174, R175, R179). DESIGN CHOICE: MRG_ORDER names row 0, comes before MRG_CAP and leaves no
record written; DOT checks its A row before its B row (log entry 74). -/
def planMergeOf (b : List Byte) (x : IssueCtx) : Except Refuse Plan := do
  let acc := bfld b 0 1 == 1
  let ns := bfld b 1 1
  let tb := bfld b 4 4
  let oa := bfld b 8 4
  let cap := bfld b 12 4
  fieldsOk 0x520A 0x31 (blockChecks b [(0, 2), (4, 12)]
    [(0, decide (bfld b 0 1 ≤ 1)), (1, decide (2 ≤ ns ∧ ns ≤ 16)), (4, al8 tb), (8, al8 oa)])
  chk (inStore tb (8 * ns)) (opndBad 0x31 1)
  let ss := (List.range ns).map (fun i =>
    let e := x.co.read (tb + 8 * i) 8
    (bfld e 0 4, bfld e 4 4))
  let n := (ss.map Prod.snd).foldl (· + ·) 0
  fieldsOk 0x520A 0x31 (if 16777216 < n ∨ ss.any (fun s => !(al8 s.1)) then some 4 else none)
  chk (ss.all (fun s => inStore s.1 (8 * s.2)) && dstOk x.c oa (8 * cap)) (opndBad 0x31 1)
  let streams := ss.zipIdx.map (fun (s, i) =>
    (readRecs x.co s.1 s.2).map (fun r => { r with pois := r.pois || x.co.poisoned (tb + 8 * i) 8 }))
  let all_ := sortBy (·.key) streams.flatten
  let (rs, fl) := if acc then accEqual all_ else (all_, 0)
  let bad := (streams.zipIdx.findSome? (fun (r, i) => (orderBad false r).map (fun p => (i, p))))
  let o : RowOut := match bad with
    | some (i, p) => { bad := some (0x1302, [(1, i), (4, 0), (4, p)]) }
    | none =>
      let fit := rs.take cap
      { puts := recPuts oa fit, n := fit.length, flags := fl,
        bad := if fit.length < rs.length then some (0x1303, [(4, 0), (4, cap)]) else none }
  let cyc := 16 + ceilDiv n 16
  pure { entry := mergeEntry b o true (x.cyc + cyc),
         reads := (tb, 8 * ns) :: ss.map (fun s => (s.1, 8 * s.2)), writes := [(oa, 8 * cap)],
         upd := fun co => { co with mrgFree := x.cyc + cyc } }

/-- MERGE's plan. -/
def planMerge (w : BitVec 128) (x : IssueCtx) : Except Refuse Plan := do
  let b ← rdBlock x.co 0x31 (64 * wf w 71 53) 64 64
  planMergeOf b x

/-- ceil(log16(n)). -/
def ceilLog16 (n : Nat) : Nat := ceilDiv (ceilLog2 n) 4

/-- SORT's plan (R180). -/
def planSort (w : BitVec 128) (x : IssueCtx) : Except Refuse Plan := do
  let b ← rdBlock x.co 0x32 (64 * wf w 71 53) 64 64
  let mag := bfld b 0 1 == 1
  let ia := bfld b 4 4
  let n := bfld b 8 4
  let oa := bfld b 12 4
  fieldsOk 0x520A 0x32 (blockChecks b [(0, 1), (4, 12)]
    [(0, decide (bfld b 0 1 ≤ 1) && !(mag && wModBit w 0)), (4, al8 ia), (8, decide (2 ≤ n ∧ n ≤ 1048576)), (12, al8 oa)])
  chk (inStore ia (8 * n) && dstOk x.c oa (8 * n)) (opndBad 0x32 1)
  let rs := readRecs x.co ia n
  let nan (r : MRec) : Bool := (fp32.dec r.val).isNan
  let m (r : MRec) : Nat := 2 ^ 32 - (if nan r then 2 ^ 31 else r.val % 2 ^ 31)
  let (out, fl) := if mag then (sortBy m (sortBy (·.key) rs), if rs.any nan then fNV else 0)
    else if wModBit w 0 then accEqual (sortBy (·.key) rs) else (sortBy (·.key) rs, 0)
  let h := ceilDiv n 2
  let cyc := 24 + ceilDiv h 16 * (1 + ceilLog16 (ceilDiv h 16)) + ceilDiv n 16
  pure { entry := mergeEntry b { puts := recPuts oa out, n := out.length, flags := fl } true (x.cyc + cyc),
         reads := [(ia, 8 * n)], writes := [(oa, 8 * n)], upd := fun co => { co with mrgFree := x.cyc + cyc } }

/-- TOPKIDX's plan (R181). A column without an input record has a free COL (log entry 13). DESIGN CHOICE: a NaN VALUE
ranks by its magnitude bits, above infinity, and records of equal magnitude and KPOS go in list order (log entry 74). -/
def planTopkidx (w : BitVec 128) (x : IssueCtx) : Except Refuse Plan := do
  let b ← rdBlock x.co 0x33 (64 * wf w 71 53) 64 64
  let ia := bfld b 0 4
  let ls := bfld b 4 4
  let nr := bfld b 8 2
  let sN := bfld b 10 1
  let ki := bfld b 11 1
  let nc := bfld b 12 2
  let ko := bfld b 14 1
  let oa := bfld b 16 4
  let rng (n lo hi : Nat) : Bool := decide (lo ≤ n ∧ n ≤ hi)
  fieldsOk 0x520A 0x33 (blockChecks b [(0, 15), (16, 4)]
    [(0, al8 ia), (4, al8 ls), (8, rng nr 1 1024), (10, rng sN 2 16), (12, rng nc 1 1024), (14, rng ko 1 8),
     (16, al8 oa)])
  chk ((List.range (nr * sN)).all (fun l => inStore (ia + ls * l) (8 * nc * ki)) && dstOk x.c oa (8 * nr * nc * ko)) (opndBad 0x33 1)
  let cells := (List.range nr).flatMap (fun r => (List.range nc).map (fun n => (r, n)))
  let outs := cells.zipIdx.map (fun ((r, n), j) =>
    let cand := (List.range sN).flatMap (fun l => readRecs x.co (ia + ls * (r * sN + l) + 8 * n * ki) ki)
    let ok := cand.filter (fun c => decide (c.key % 65536 ≠ 0xFFFF))
    let best := (sortBy (fun c => 2 ^ 32 - c.val % 2 ^ 31) (sortBy (fun c => c.key % 65536) ok)).take ko
    let col := match cand with
      | c :: _ => c.key / 65536
      | [] => leNat ((List.range 2).map (Config.openByte 5))
    let fill : List MRec := List.replicate (ko - best.length) ⟨col * 65536 + 0xFFFF, 0, false⟩
    (recPuts (oa + 8 * ko * j) (best ++ fill), if ok.any (fun c => (fp32.dec c.val).isNan) then fNV else 0))
  let cyc := 24 + ceilDiv (nr * sN * nc * ki) 16
  pure { entry := mergeEntry b { puts := outs.flatMap Prod.fst, flags := orFlags (outs.map Prod.snd) } false (x.cyc + cyc),
         reads := (List.range (nr * sN)).map (fun l => (ia + ls * l, 8 * nc * ki)), writes := [(oa, 8 * nr * nc * ko)],
         upd := fun co => { co with mrgFree := x.cyc + cyc } }

/-- SPMSP: a product of two sparse operands (R177, R178). -/
def execSpmsp (core : Fin 48) (w : BitVec 128) (s : State) : Res := .next (s.issue1 core 2 0x30 w (planSpmsp w))
/-- MERGE: sorted streams combined (R179). -/
def execMerge (core : Fin 48) (w : BitVec 128) (s : State) : Res := .next (s.issue1 core 2 0x31 w (planMerge w))
/-- SORT (R180). -/
def execSort (core : Fin 48) (w : BitVec 128) (s : State) : Res := .next (s.issue1 core 2 0x32 w (planSort w))
/-- TOPKIDX: candidate lists combined (R181). -/
def execTopkidx (core : Fin 48) (w : BitVec 128) (s : State) : Res := .next (s.issue1 core 2 0x33 w (planTopkidx w))

end Sys2Proof.Machine
end

