-- ==== Sys2Proof/Machine/Pack.lean ====
section
/-! DEFINITION. PACK and UNPACK: relief tiles from dense data or coordinate lists, and back (R143 to R148). -/
namespace Sys2Proof.Machine
open Sys2Proof

/-- One nonzero source value of PACK: column, offset in the reach, value, poison. -/
structure PVal where
  /-- Tile column. -/
  col : Nat
  /-- K-position less K0. -/
  off : Nat
  /-- Value. -/
  v : Xv
  /-- Poison. -/
  pois : Bool
  deriving DecidableEq, Repr

/-- The dense view that a descriptor names for Kr rows of 1,024 columns: address of element (k, n), type (R143, R337). DESIGN CHOICE: the spec
gives K-position and column no dimension; element k * 1,024 + n of the view in element order is taken, whatever its rank (log entry 74). -/
def State.denseAddr (s : State) (x : IssueCtx) (t : TDesc) (k n : Nat) : Nat :=
  (elemAddr t.base t.steps (s.tdExts x.c x.l t) (k * 1024 + n)).toNat

/-- Descriptor checks of PACK and UNPACK (R339, R342, R627): FP32 or BF16 in the core store, Kr x 1,024 elements or an empty view.
The lowest failing field is named; the number of elements involves G, whose offset is `og` (R149, R627). -/
def State.denseBad (s : State) (x : IssueCtx) (b : List Byte) (kr og : Nat) : Option Nat :=
  let t := tdOf b
  let n := viewCount (s.tdExts x.c x.l t)
  let bad := s.tdBad x.c x.l b
  let fs := bad.toList ++ (if t.ty = 0 ∨ t.ty = 1 then [] else [8]) ++ (if t.virt then [10] else [])
  if bad.isNone ∧ n ≠ 0 ∧ n ≠ kr * 1024 then some og
  else match fs with
  | [] => none
  | f :: r => some (0x200 + r.foldl min f)

/-- Format of a dense type. -/
def denseFmt (ty : Nat) : Fmt := if ty = 0 then fp32 else bf16

/-- The dense source values (R143). -/
def State.packDense (s : State) (x : IssueCtx) (t : TDesc) (kr k0 kext : Nat) : List PVal :=
  let sz := tyBytes t.ty
  (List.range 1024).flatMap (fun n => (List.range (min kr (kext - k0))).filterMap (fun k =>
    let a := s.denseAddr x t k n
    let p := x.co.poisoned a sz
    let v := (denseFmt t.ty).dec (bfld (x.co.read a sz) 0 sz)
    if v.isZero && !p then none else some ⟨n, k, v, p⟩))

/-- Records whose key no later record repeats: the last of a position wins (R144). -/
def keepLast : List MRec → List MRec
  | [] => []
  | r :: t => if t.any (fun q => q.key == r.key) then keepLast t else r :: keepLast t

/-- The coordinate source values in list order, with RANGE where one is skipped (R144). -/
def packCoo (co : Core) (a n kr k0 kext n0 : Nat) : List PVal × Bool :=
  let rs := readRecs co a n
  let kpos (r : MRec) : Nat := r.key % 65536
  let col (r : MRec) : Nat := r.key / 65536
  let inR (r : MRec) : Bool := decide (k0 ≤ kpos r ∧ kpos r < min (k0 + kr) kext ∧ n0 ≤ col r ∧ col r < n0 + 1024)
  let rs := rs.filter (fun r => decide (kpos r ≠ 0xFFFF))
  (((keepLast (rs.filter inR)).map (fun r => ⟨col r - n0, kpos r - k0, fp32.dec r.val, r.pois⟩)).filter
      (fun p => !(p.v.isZero) || p.pois), rs.any (fun r => !(inR r)))

/-- A source value counts as nonzero (R143). -/
def PVal.nz (p : PVal) : Bool := !p.v.isZero

/-- Values of one octet of one column, by ascending offset. -/
def octetVals (vs : List PVal) (col o : Nat) : List PVal :=
  sortBy (·.off) (vs.filter (fun p => p.col == col && p.off / 8 == o && p.nz))

/-- a ranks before b under TRIM: greater magnitude, a NaN above all, the lower offset on a tie (R145). -/
def trimBefore (a b : PVal) : Bool :=
  if a.v.isNan || b.v.isNan then (a.v.isNan && !b.v.isNan) || (a.v.isNan && b.v.isNan && decide (a.off < b.off))
  else
    let x := a.v.withSign false
    let y := b.v.withSign false
    y.lt x || (!(x.lt y) && decide (a.off < b.off))

/-- The values of an octet kept under the bound, and those dropped, each by ascending offset. -/
def trimOctet (g : Nat) (ps : List PVal) : List PVal × List PVal :=
  let rank (p : PVal) : Nat := (ps.filter (fun q => trimBefore q p)).length
  (ps.filter (fun p => decide (rank p < g)), ps.filter (fun p => decide (g ≤ rank p)))

/-- The slots of a column: index and value of each of the 32 slots, none for a vacant one (R146). -/
def packSlots (g : Nat) (kept : Nat → List PVal) : List (Nat × Option PVal) :=
  (List.range 32).map (fun s =>
    match (kept (s / g))[s % g]? with
    | some p => (p.off, some p)
    | none => (vacIdx g s, none))

/-- The bytes of a packed slice and its flags (R143, R146). -/
def packSlice (form fmt : Nat) (ss : List (Nat × Option PVal)) : List Byte × Nat :=
  let val (o : Option PVal) : Xv := match o with | some p => p.v | none => Xv.zero
  let idx := ss.map (fun p => BitVec.ofNat 8 p.1)
  if form = 0 then
    let ws := ss.map (fun p => match p.2 with | some q => bf16.rne q.v | none => (0, 0))
    (idx ++ ws.flatMap (fun w => leBytes 2 w.1), orFlags (ws.map Prod.snd))
  else
    let (cs, sc, fl) := mxBlock fmt (ss.map (fun p => val p.2)) (fun _ => none)
    let cs := (cs.zip ss).map (fun (c, p) => if p.2.isSome then c else 0)
    (idx ++ packElems fmt cs ++ leBytes 1 sc ++ List.replicate 7 0, fl)

/-- Relief fields of PACK and UNPACK by their offsets, each condition at the lowest field that it involves: K0 a multiple of Kr (G and
K0) is judged where G has a meaning, K0 < K_ext involves both (R129, R627). -/
def packFields (g kext k0 form stride : Nat) (og oe ok os of_ flagsMax flags : Nat) : List (Nat × Bool) :=
  let gOk := decide (g = 1 ∨ g = 2 ∨ g = 4 ∨ g = 8)
  [(os, decide (stride % 8 = 0 ∧ (if form = 0 then 128 else 72) ≤ stride)), (oe, kextOk kext),
   (min og ok, !gOk || decide (k0 % (256 / g) = 0)), (min oe ok, decide (k0 < kext)), (og, gOk), (of_, decide (flags < flagsMax))]

/-- An element code of the MX8 class (R89, R291). -/
def mx8Field (form fmt : Nat) : Bool := form == 0 || isMx8 fmt

/-- A field refusal of PACK and UNPACK: the data is the field number alone (R149). -/
def packBad (f : Option Nat) : Except Refuse Unit := match f with | none => .ok () | some n => .error (fieldBad 0x5208 n)

/-- PACK's plan from its operand block (R143 to R148). An empty view packs nothing (R342). -/
def planPackOf (s : State) (b : List Byte) (x : IssueCtx) : Except Refuse Plan := do
  let src := bfld b 0 4
  let nrec := bfld b 4 4
  let wa := bfld b 8 4
  let ws := bfld b 12 4
  let kext := bfld b 16 2
  let k0 := bfld b 18 2
  let n0 := bfld b 20 2
  let g := bfld b 22 1
  let fl := bfld b 23 1
  let coo := bit fl 0
  let trim := bit fl 1
  let form := bits fl 2 2
  let fmt := bfld b 24 1
  let kr := 256 / g
  let td ← (if coo then pure [] else rdDesc x.co 0x38 src)
  packBad (blockChecks b [(0, 25)] (packFields g kext k0 form ws 22 16 18 12 23 8 fl ++
    [(0, !coo || al8 src), (4, !coo || decide (1 ≤ nrec ∧ nrec ≤ 1048576)), (24, mx8Field form fmt)]))
  packBad (if coo then none else s.denseBad x td kr 22)
  let at_ (n : Nat) : Nat := wa + n * ws + (if form = 0 then 16 else 0)
  let len := if form = 0 then 96 else 72
  chk ((!coo || inStore src (8 * nrec)) && (List.range 1024).all (fun n => dstOk x.c (at_ n) len)) (opndBad 0x38 1)
  let t := tdOf td
  let nCol := if !coo && viewCount (s.tdExts x.c x.l t) == 0 then 0 else 1024
  let (vs, rg) := if coo then packCoo x.co src nrec kr k0 kext n0
    else (if nCol = 0 then [] else s.packDense x t kr k0 kext, false)
  let cols := (List.range 1024).map (fun n => vs.filter (fun p => p.col == n))
  let oct (n o : Nat) : List PVal := octetVals (cols.getD n []) n o
  let full := (List.range 1024).findSome? (fun n => ((List.range (kr / 8)).find? (fun o => decide (g < (oct n o).length))).map
    (fun o => (n, (o, (oct n o).length))))
  let p := if trim then 1 else 2
  let cyc := if coo then p * ceilDiv nrec 16 + 1064 else p * ceilDiv (kr * 1024 * tyBytes t.ty) 512 + 40
  let dropped := (List.range 1024).flatMap (fun n => (List.range (kr / 8)).flatMap (fun o => (trimOctet g (oct n o)).2))
  let l1 := dropped.foldl (fun (a : Nat × Nat) d =>
    let (m, f) := fp32.rne (d.v.withSign false)
    let (r, f') := fAdd a.1 m
    (r, a.2 ||| f ||| f')) (0, 0)
  let outs := (List.range nCol).map (fun n =>
    let (bs, f) := packSlice form fmt (packSlots g (fun o => (trimOctet g (oct n o)).1))
    let pz := (cols.getD n []).any (·.pois)
    ((⟨false, at_ n, bs, pz⟩ : Put), f ||| (if pz then fPOISON else 0)))
  let base := if rg then fRANGE else 0
  let entry : Entry := match (if trim then none else full) with
    | some (n, (o, c)) => { pendFault := some (0x1301, [(4, n), (4, o), (4, c)]), flags := base }
    | none => { flags := base ||| orFlags (outs.map Prod.snd) ||| (if dropped ≠ [] then fTRIM ||| l1.2 else 0),
                status := b2n (outs.any (·.1.pois)), puts := outs.map Prod.fst,
                fields := [BitVec.ofNat 32 dropped.length, BitVec.ofNat 32 l1.1] }
  pure { entry := { entry with block := b, doneCycle := x.cyc + cyc },
         reads := if coo then [(src, 8 * nrec)] else
           (List.range (min kr (kext - k0) * nCol)).map (fun i => (s.denseAddr x t (i / 1024) (i % 1024), tyBytes t.ty)),
         writes := (List.range nCol).map (fun n => (at_ n, len)),
         upd := fun co => { co with mrgFree := x.cyc + cyc } }

/-- PACK's plan. -/
def planPack (s : State) (w : BitVec 128) (x : IssueCtx) : Except Refuse Plan := do
  let b ← rdBlock x.co 0x38 (64 * wf w 71 53) 64 64
  planPackOf s b x

/-- One live slot that UNPACK reads: slot, index, value as FP32, flags, poison of the value and of the index. -/
structure USlot where
  /-- Slot. -/
  s : Nat
  /-- Index. -/
  idx : Nat
  /-- FP32 value. -/
  v : Nat
  /-- FLAGS. -/
  fl : Nat
  /-- The value is poisoned. -/
  pois : Bool
  deriving DecidableEq, Repr

/-- A column slice as UNPACK reads it: live slots, malformed or out-of-range slots seen, a poisoned index; a NaN weight is the canonical
NaN with NV (R62, R128, R147). -/
def unpackSlice (co : Core) (g k0 kext form fmt a : Nat) : List USlot × Bool × Bool :=
  let ia := if form = 0 then a + 16 else a
  let idx (s : Nat) : Nat := leNat (co.read (ia + s) 1)
  let stat (s : Nat) : Nat := slotStatus g k0 kext s (idx s)
  let sc := leNat (co.read (a + 64) 1)
  let val (s : Nat) : Nat × Nat × Bool :=
    if form = 0 then
      let (r, f) := fp32.rne (bf16.dec (bfld (co.read (a + 48 + 2 * s) 2) 0 2))
      (r, f, co.poisoned (a + 48 + 2 * s) 2)
    else
      let v := elemVal fmt (elemAt fmt (co.read (a + 32 + s) 1) 0)
      let x := if sc = 0xFF then Xv.nan else match v with
        | .fin n m e => .fin n m (e + scaleExp sc)
        | y => y
      let (r, f) := fp32.rne x
      (r, f, co.poisoned (a + 32 + s) 1 || co.poisoned (a + 64) 1)
  (((List.range 32).filter (fun s => stat s == 3)).map (fun s => let v := val s; ⟨s, idx s, v.1, v.2.1, v.2.2 || co.poisoned (ia + s) 1⟩),
   (List.range 32).any (fun s => stat s == 1 || stat s == 2), co.poisoned ia 32)

/-- UNPACK's plan; the values of a dense view are written in element order (R147, R148, R342, R345). -/
def planUnpack (s : State) (w : BitVec 128) (x : IssueCtx) : Except Refuse Plan := do
  let b ← rdBlock x.co 0x39 (64 * wf w 71 53) 64 64
  let wa := bfld b 0 4
  let ws := bfld b 4 4
  let dst := bfld b 8 4
  let kext := bfld b 12 2
  let k0 := bfld b 14 2
  let cb := bfld b 16 2
  let g := bfld b 18 1
  let fl := bfld b 19 1
  let coo := bit fl 0
  let form := bits fl 1 1
  let bf := bit fl 2
  let fmt := bfld b 20 1
  let kr := 256 / g
  let td ← (if coo then pure [] else rdDesc x.co 0x39 dst)
  packBad (blockChecks b [(0, 21)] (packFields g kext k0 form ws 18 12 14 4 19 8 fl ++
    [(8, !coo || al8 dst), (20, mx8Field form fmt), (19, coo || decide ((tdOf td).ty = b2n bf))]))
  packBad (if coo then none else s.denseBad x td kr 18)
  let len := if form = 0 then 112 else 65
  let t := tdOf td
  let kn := if !coo && viewCount (s.tdExts x.c x.l t) == 0 then 0 else min kr (kext - k0)
  let cols := (List.range 1024).map (fun n => unpackSlice x.co g k0 kext form fmt (wa + n * ws))
  let live := (cols.map (fun c => c.1.length)).foldl (· + ·) 0
  chk ((List.range 1024).all (fun n => inStore (wa + n * ws) len) &&
       (if coo then dstOk x.c dst (8 * live)
        else (List.range (kn * 1024)).all (fun i => dstOk x.c (s.denseAddr x t (i / 1024) (i % 1024)) (tyBytes t.ty)))) (opndBad 0x39 1)
  let flags := orFlags (cols.map (fun c => orFlags (c.1.map (fun u => u.fl ||| (if u.pois then fPOISON else 0))) |||
    (if c.2.1 then fRANGE else 0) ||| (if c.2.2 then fPOISON else 0)))
  let recs : List MRec := cols.zipIdx.flatMap (fun (c, n) => c.1.map (fun u => ⟨(cb + n) % 65536 * 65536 + (k0 + u.idx), u.v, u.pois⟩))
  let cell (n k : Nat) (c : List USlot × Bool × Bool) : Put × Nat :=
    let hit := c.1.filter (fun u => u.idx == k)
    let v := match hit with
      | [] => 0
      | [u] => u.v
      | _ => leNat ((List.range 4).map (Config.openByte 2))
    let (r, f) := if bf then bf16.rne (fp32.dec v) else (v, 0)
    (⟨false, s.denseAddr x t k n, leBytes (if bf then 2 else 4) r, hit.any (·.pois) || c.2.2⟩, f)
  let dense := (List.range kn).flatMap (fun k => cols.zipIdx.map (fun (c, n) => cell n k c))
  let puts := if coo then recPuts dst recs else dense.map Prod.fst
  let cyc := if coo then 64 + ceilDiv live 16 + 40 else ceilDiv (kr * 1024 * (if bf then 2 else 4)) 512 + 40
  pure { entry := { block := b, flags := if coo then flags else if kn = 0 then 0 else flags ||| orFlags (dense.map Prod.snd),
                    status := b2n (puts.any (·.pois)), fields := if coo then [BitVec.ofNat 32 live] else [],
                    puts := puts, doneCycle := x.cyc + cyc },
         reads := (List.range 1024).map (fun n => (if form = 0 then (wa + n * ws + 16, 96) else (wa + n * ws, len))),
         writes := if coo then [(dst, 8 * live)] else dense.map (fun p => (p.1.addr, p.1.bytes.length)),
         upd := fun co => { co with mrgFree := x.cyc + cyc } }

/-- PACK: a relief tile built from a dense region or a coordinate list (R143). -/
def execPack (core : Fin 48) (w : BitVec 128) (s : State) : Res := .next (s.issue1 core 2 0x38 w (planPack s w))
/-- UNPACK: a relief tile expanded (R147). -/
def execUnpack (core : Fin 48) (w : BitVec 128) (s : State) : Res := .next (s.issue1 core 2 0x39 w (planUnpack s w))

end Sys2Proof.Machine
end

