-- ==== Sys2Proof/Machine/Sfu.lean ====
section
/-! DEFINITION. The correctly rounded quotient, reciprocal and square root (R200, R300), and the function of each SFU
opcode. -/
namespace Sys2Proof.Machine
open Sys2Proof

/-- rne of a quotient a / b x 2^e with enough bits and a sticky bit (R73). -/
def Fmt.rneDiv (f : Fmt) (neg : Bool) (a b : Nat) (e : Int) : Nat × Nat :=
  let k := Nat.log2 b + 40
  f.rne (.fin neg (2 * (a * 2 ^ k / b) + (if a * 2 ^ k % b ≠ 0 then 1 else 0)) (e - (k : Nat) - 1))

/-- The correctly rounded square root of an exact value (R300). -/
def Fmt.sqrt (f : Fmt) : Xv → Nat × Nat
  | .nan => (f.nan, fNV)
  | .inf n => if n then (f.nan, fNV) else (f.encInf false, 0)
  | .fin n m e =>
    if m = 0 then (f.encMag n 0 0, 0)
    else if n then (f.nan, fNV)
    else
      let m' := if e % 2 = 0 then m else 2 * m
      let e' := if e % 2 = 0 then e else e - 1
      let s := isqrt (m' * 2 ^ 128)
      f.rne (.fin false (2 * s + (if s * s = m' * 2 ^ 128 then 0 else 1)) (e' / 2 - 64 - 1))

/-- The correctly rounded reciprocal (R200). -/
def recip (v : Nat) : Nat × Nat :=
  match fp32.dec v with
  | .nan => (fp32.nan, fNV)
  | .inf n => (fp32.encMag n 0 0, 0)
  | .fin n m e => if m = 0 then (fp32.encInf n, fDZ) else fp32.rneDiv n 1 m (-e)

/-- The function of an SFU opcode on an FP32 value: result and flags (R200, R308). -/
def sfuOp (opc v : Nat) : Nat × Nat :=
  match opc with
  | 0x50 => exp2f v
  | 0x51 => log2f v
  | 0x52 => recip v
  | 0x53 => rsqrtf v
  | 0x54 => oddUnit 3 v
  | 0x55 => oddUnit 4 v
  | 0x56 => sigmf v
  | 0x57 => gatef 6 v
  | _ => gatef 7 v

end Sys2Proof.Machine
end

