-- ==== Sys2Proof/Machine/Vector.lean ====
section
/-! DEFINITION. The vector engine: sources, predicates, element-wise operations, reductions, MASKGEN, CVT, SR, SMAX and the
online operations (R185 to R208, R292 to R298). -/
namespace Sys2Proof.Machine
open Sys2Proof

/-- One source element: value, FP32 bits, poison and the flags of its reading. -/
structure VEl where
  /-- Value. -/
  v : Xv := Xv.zero
  /-- FP32 bits; for a BF16 element its code in the upper half. -/
  raw : Nat := 0
  /-- Poison. -/
  pois : Bool := false
  /-- FLAGS. -/
  fl : Nat := 0
  deriving DecidableEq, Repr

/-- Byte address of element e of a tile operand (R185). -/
def tileAddr (bf : Bool) (t e : Nat) : Nat := t * 16384 + (if bf then 2 * e else 4 * e)

/-- Tile registers that n elements span (R186). -/
def tileSpan (bf : Bool) (n : Nat) : Nat := ceilDiv n (if bf then 8192 else 4096)

/-- Bytes of the tile registers. -/
def Core.tread (co : Core) (a n : Nat) : List Byte := memRead co.treg a n

/-- Poison in the tile registers. -/
def Core.tpois (co : Core) (a n : Nat) : Bool := poisRead co.tregPois 4 a n

/-- An FP32 element. -/
def vel32 (raw : Nat) (p : Bool) : VEl := ⟨fp32.dec raw, raw, p, 0⟩

/-- Element e of a tile operand. -/
def Core.tileEl (co : Core) (bf : Bool) (t e : Nat) : VEl :=
  let a := tileAddr bf t e
  let c := bfld (co.tread a (if bf then 2 else 4)) 0 (if bf then 2 else 4)
  vel32 (if bf then c * 65536 else c) (co.tpois a (if bf then 2 else 4))

/-- Fields of an accumulator source: array, tile, m0, n0 (R293). -/
def accSrc (d : Nat) : Nat × Nat × Nat × Nat := (bits d 13 12, bits d 11 8, 4 * bits d 7 3, 128 * bits d 2 0)

/-- The array that an accumulator source reads, as the first cycle of the issue tick leaves it (R113). -/
def IssueCtx.accArr (x : IssueCtx) (a : Nat) : Arr := x.co.arrAt x.c x.l a x.c.cycle

/-- Rows of an accumulator source that fail the drain check (R221, R222). -/
def IssueCtx.accBad (x : IssueCtx) (dchk : Bool) (d n : Nat) : List Nat :=
  if bits d 15 14 = 1 then
    let (a, t, m0, _) := accSrc d
    let ar := x.accArr a
    ar.badChecks dchk t (mOfCode (ar.half t).m) (ar.half t).w40 ((List.range (ceilDiv n 128)).map (m0 + ·))
  else []

/-- The n elements of a source descriptor (R187, R293). -/
def IssueCtx.src (x : IssueCtx) (dchk : Bool) (d n : Nat) : List VEl :=
  match bits d 15 14 with
  | 0 => (List.range n).map (x.co.tileEl (bits d 8 5 == 1) (bits d 13 9))
  | 1 =>
    let (a, t, m0, n0) := accSrc d
    let ar := x.accArr a
    let h := ar.half t
    let m := mOfCode h.m
    let bad := x.accBad dchk d n
    (List.range n).map (fun e =>
      let r := m0 + e / 128
      let c := n0 + e % 128
      let (v, f) := if h.w40 then fp32.rne (w40.dec (ar.elem t m true r c)) else (ar.elem t m false r c, 0)
      { vel32 v (ar.elemPois t m h.w40 r c || bad.contains r) with fl := f })
  | _ => (List.range n).map (fun e =>
      let j := e / 2 ^ bits d 3 0
      let a := bits d 13 9 * 16384 + 512 * bits d 8 4 + 4 * j
      vel32 (bfld (x.co.tread a 4) 0 4) (x.co.tpois a 4))

/-- A source descriptor fits: format, span, layout of the half, position (R186, R187, R293). -/
def IssueCtx.srcOk (x : IssueCtx) (d n : Nat) : Bool :=
  match bits d 15 14 with
  | 0 => decide (bits d 8 5 ≤ 1 ∧ bits d 13 9 + tileSpan (bits d 8 5 == 1) n ≤ 32)
  | 1 =>
    let (a, t, m0, _) := accSrc d
    let h := (x.co.arr a).half t
    decide (h.m ≠ 0 ∧ t % 8 < tilesOf (mOfCode h.m) h.w40 ∧ m0 + ceilDiv n 128 ≤ mOfCode h.m)
  | _ => decide (bits d 8 4 + ((n - 1) / 2 ^ bits d 3 0) / 128 ≤ 31)

/-- A source is of accumulator form. -/
def isAcc (d : Nat) : Bool := bits d 15 14 == 1
/-- A source element is BF16. -/
def isBf (d : Nat) : Bool := bits d 15 14 == 0 && bits d 8 5 == 1

/-- Accumulator tiles that a source names. -/
def accOf (d : Nat) : List (Nat × Nat) := if isAcc d then [((accSrc d).1, (accSrc d).2.1)] else []

/-- A predicate bit and the poison of its word (R190). -/
def Core.predBit (co : Core) (tp e : Nat) : Bool × Bool :=
  let a := tp * 16384 + 4 * (e / 32)
  (bit (bfld (co.tread a 4) 0 4) (e % 32), co.tpois a 4)

/-- Predicate of every element: unmasked, poison; all unmasked without PRED. -/
def IssueCtx.preds (x : IssueCtx) (on : Bool) (tp n : Nat) : List (Bool × Bool) :=
  if on then (List.range n).map (x.co.predBit tp) else List.replicate n (true, false)

/-! Writes to tile registers. -/

/-- FP32 words of a destination. -/
def putWords (t : Nat) (vs : List (Nat × (Nat × Bool))) : List Put :=
  vs.map (fun (e, v, p) => ⟨true, tileAddr false t e, leBytes 4 v, p⟩)

/-- Elements of a destination: FP32 words, or BF16 halves with the pairs that fill a word written as one. -/
def putEls (bf : Bool) (t : Nat) (vs : List (Option (Nat × Bool))) : List Put :=
  if bf then
    (List.range (ceilDiv vs.length 2)).flatMap (fun i =>
      match vs.getD (2 * i) none, vs.getD (2 * i + 1) none with
      | some a, some b => [⟨true, tileAddr true t (2 * i), leBytes 2 a.1 ++ leBytes 2 b.1, a.2 || b.2⟩]
      | some a, none => [⟨true, tileAddr true t (2 * i), leBytes 2 a.1, a.2⟩]
      | none, some b => [⟨true, tileAddr true t (2 * i + 1), leBytes 2 b.1, b.2⟩]
      | none, none => [])
  else vs.zipIdx.filterMap (fun (o, e) => o.map (fun v => ⟨true, tileAddr false t e, leBytes 4 v.1, v.2⟩))

/-- The predicate bits that a comparison writes; masked and tail bits are not among them (R186, R190, R191). -/
def predBits (t : Nat) (vs : List (Option (Bool × Bool))) : List (Nat × (Bool × Bool)) :=
  vs.zipIdx.filterMap (fun (o, e) => o.map (fun q => (131072 * t + e, q)))

/-! Element-wise operations (R193, R295). -/

/-- MIN or MAX of two values: a NaN gives NaN, -0 is less than +0 (R193). -/
def minMax (mx : Bool) (a b : Xv) : Xv :=
  if a.isNan || b.isNan then .nan
  else
    let less := a.lt b || (a.isZero && b.isZero && a.neg && !b.neg)
    if mx then (if less then b else a) else (if less then a else b)

/-- The exact result of an arithmetic opcode (R193, R308). -/
def arith (opc : Nat) (a b c : Xv) : Xv :=
  match opc with
  | 0x40 => a.add b
  | 0x41 => a.sub b
  | 0x42 => a.mul b
  | 0x43 => (a.mul b).add c
  | 0x44 => minMax false a b
  | 0x45 => minMax true a b
  | 0x46 => a.withSign false
  | 0x47 => a.opp
  | _ => a

/-- A comparison opcode: result and flags (R193). -/
def cmpOp (opc : Nat) (a b : Xv) : Bool × Nat :=
  if a.isNan || b.isNan then (false, fNV)
  else (match opc with | 0x49 => a.eqv b | 0x4A => a.lt b | _ => a.lt b || a.eqv b, 0)

/-- rne into FP32 or BF16. -/
def rndTo (bf : Bool) (v : Xv) : Nat × Nat := if bf then bf16.rne v else fp32.rne v

/-- The exact copy that SEL makes of an element into its destination format. -/
def selCopy (bf : Bool) (e : VEl) : Nat :=
  if !bf then e.raw else if e.raw % 65536 = 0 then e.raw / 65536 else (bf16.rne e.v).1

/-- One element of the group: result, poison and flags; none where masked (R295). -/
def elemOut (opc : Nat) (bf : Bool) (pr : Bool × Bool) (a b c : VEl) : Option (Nat × Bool) × Nat :=
  let p2 := a.pois || b.pois || c.pois || pr.2
  let pf (p : Bool) : Nat := if p then fPOISON else 0
  if opc = 0x4C then
    let e := if pr.1 then a else b
    let p := e.pois || pr.2
    (some (selCopy bf e, p), pf p)
  else if !pr.1 then (none, 0)
  else if 0x50 ≤ opc ∧ opc ≤ 0x58 then
    let (r, f) := sfuOp opc (fp32.rne a.v).1
    let (o, f2) := if bf then bf16.rne (fp32.dec r) else (r, 0)
    (some (o, p2), f ||| f2 ||| a.fl ||| pf p2)
  else
    let (o, f) := rndTo bf (arith opc a.v b.v c.v)
    (some (o, p2), f ||| a.fl ||| b.fl ||| c.fl ||| pf p2)

/-- Beats of an instruction: elements at a rate, the accumulator port's where a source is of that form (R207). -/
def vbeats (acc : Bool) (n rate : Nat) : Nat := ceilDiv n (if acc then 128 else rate)

/-- Cycles from the last beat to the last write: with an accumulator source 8 in every row (R207; log entry 75). -/
def vtail (acc : Bool) (extra : Nat) : Nat := if acc then 8 else extra

/-- A vector instruction's refusal of the lowest failing field (R208, R627). -/
def vecBad (opc : Nat) (fs : List (Nat × Bool)) : Except Refuse Unit :=
  match ((fs.filter (fun f => !f.2)).map Prod.fst).foldl (fun m y => match m with | none => some y | some z => some (min y z)) none with
  | none => .ok ()
  | some f => .error (paramBad 0x520B opc f)

/-- The tile-register word ranges of a destination of some registers (R189). -/
def destRegs (t k : Nat) : List (Nat × Nat) := (List.range k).map (fun i => ((t + i) * 4096, 4096))

/-- The plan of a vector instruction from its writes. -/
def vecPlan (x : IssueCtx) (block : List Byte) (puts : List Put) (fl : Nat) (bad : List Nat) (regs : List (Nat × Nat))
    (rd : List Nat) (acc : List (Nat × Nat)) (beats extra : Nat) : Plan :=
  { entry := { block := block, flags := fl, status := b2n (puts.any (·.pois)), puts := puts, badRows := bad, tregs := regs,
               beatEnd := x.cyc + beats, doneCycle := x.cyc + beats + extra },
    tr := rd, tw := regs.map (fun r => r.1 / 4096), accR := acc,
    writes := (puts.filter (fun p => !p.tile)).map (fun p => (p.addr, p.bytes.length)) }

/-- The operand buffers after sources were read at issue: each source's elements from the start of its buffer (R481). -/
def Core.fillVbuf (srcs : List (List VEl)) (co : Core) : Core :=
  { co with vbuf := srcs.zipIdx.foldl (fun t (vs, b) =>
      vs.zipIdx.foldl (fun t (v, e) => tabSet 0 t (8192 * b + e) (BitVec.ofNat 32 v.raw)) t) co.vbuf }

/-- Failing drain-check rows of sources, as codes. -/
def IssueCtx.badCodes (x : IssueCtx) (dchk : Bool) (ds : List Nat) (n : Nat) : List Nat :=
  ds.flatMap (fun d => (x.accBad dchk d n).map (checkCode (accSrc d).1 (accSrc d).2.1))

/-- The element-wise group: ADD to SEL and the special functions (R193, R200, R294, R295). -/
def planElem (dchk : Bool) (w : BitVec 128) (x : IssueCtx) : Except Refuse Plan := do
  let opc := wOpc w
  let n := wf w 71 59 + 1
  let td := wf w 58 54
  let bf := wf w 53 53 == 1
  let tp := wf w 52 48
  let sa := wf w 47 32
  let bscal := wModBit w 2
  let (_, ub, uc) := v1Uses opc
  let sb := wf w 31 16
  let sc := wf w 15 0
  let cmp := decide (0x49 ≤ opc ∧ opc ≤ 0x4B)
  let useB := ub && !bscal
  let useC := uc && !bscal
  vecBad opc [(0x100, !useC || x.srcOk sc n), (0x110, !useB || x.srcOk sb n), (0x120, x.srcOk sa n),
              (0x135, cmp || decide (td + tileSpan bf n ≤ 32))]
  let as := x.src dchk sa n
  let bs := if bscal then List.replicate n (vel32 (wf w 31 0) false) else if ub then x.src dchk sb n else List.replicate n {}
  let cs := if useC then x.src dchk sc n
    else if opc = 0x43 then (List.range n).map (x.co.tileEl bf td) else List.replicate n {}
  let ps := x.preds (wModBit w 0 || opc == 0x4C) tp n
  let ds := [sa] ++ (if useB then [sb] else []) ++ (if useC then [sc] else [])
  let acc := ds.any isAcc
  let bad := x.badCodes dchk ds n
  let allBf := bf && ds.all isBf
  let rate := if 0x54 ≤ opc then 64 else if 0x50 ≤ opc then 128 else if allBf then 512 else 256
  let extra := vtail acc (if 0x54 ≤ opc then 20 else if 0x50 ≤ opc then 16 else 6)
  let regs := destRegs td (if cmp then 1 else tileSpan bf n)
  let srcs := [as] ++ (if useB then [bs] else []) ++ (if useC then [cs] else [])
  let at_ (l : List VEl) (e : Nat) : VEl := l.getD e {}
  if cmp then
    let os := (List.range n).map (fun e =>
      let pr := ps.getD e (true, false)
      let a := at_ as e
      let b := at_ bs e
      let p := a.pois || b.pois || pr.2
      if pr.1 then
        let (r, f) := cmpOp opc a.v b.v
        (some (r, p), f ||| a.fl ||| b.fl ||| (if p then fPOISON else 0))
      else (none, 0))
    let bs := predBits td (os.map Prod.fst)
    let pl := vecPlan x [] [] (orFlags (os.map Prod.snd)) bad regs (vecReadRegs w) (ds.flatMap accOf) (vbeats acc n rate) extra
    pure { pl with entry := { pl.entry with bits := bs, status := b2n (bs.any (·.2.2)) }, upd := Core.fillVbuf srcs }
  else
    let os := (List.range n).map (fun e => elemOut opc bf (ps.getD e (true, false)) (at_ as e) (at_ bs e) (at_ cs e))
    pure { vecPlan x [] (putEls bf td (os.map Prod.fst)) (orFlags (os.map Prod.snd)) bad regs (vecReadRegs w)
      (ds.flatMap accOf) (vbeats acc n rate) extra with upd := Core.fillVbuf srcs }

/-! Reductions (R195 to R198, R296). -/

/-- Least power of two not below n, by doubling from 1 (R195). -/
def padLen (n : Nat) : Nat := 2 ^ ceilLog2 n

/-- red_tree on FP32 codes: pairs combined in a fixed order, one rounding a node (R195). -/
def redTree (op : Xv → Xv → Xv) : Nat → List Nat → Nat × Nat
  | 0, xs => (xs.headD 0, 0)
  | d + 1, xs =>
    let ps := (List.range (xs.length / 2)).map (fun i =>
      fp32.rne (op (fp32.dec (xs.getD (2 * i) 0)) (fp32.dec (xs.getD (2 * i + 1) 0))))
    let (r, fl) := redTree op d (ps.map Prod.fst)
    (r, fl ||| orFlags (ps.map Prod.snd))

/-- Identity of a reduction code: SUM, PROD, MAX, MIN, ARGMAX, ARGMIN (R197). -/
def redIdent (op : Nat) : Nat :=
  match op with | 0 => 0 | 1 => oneCode | 2 => fp32.encInf true | 3 => fp32.encInf false | _ => 0xFFFFFFFF

/-- The operation of a reduction code. -/
def redOp (op : Nat) : Xv → Xv → Xv :=
  match op with | 0 => Xv.add | 1 => Xv.mul | 2 => minMax true | _ => minMax false

/-- red_tree over a list padded with the identity. -/
def redList (op : Nat) (xs : List Nat) : Nat × Nat :=
  let k := ceilLog2 xs.length
  redTree (redOp op) k (xs ++ List.replicate (2 ^ k - xs.length) (redIdent op))

/-- ARGMAX or ARGMIN of indexed values: the first NaN, else the winner with the lowest index (R197, R198). -/
def argBest (mx : Bool) (xs : List (Nat × Xv)) : Nat × Nat :=
  match xs.find? (fun p => p.2.isNan) with
  | some p => (p.1, fNV)
  | none =>
    match xs with
    | [] => (0xFFFFFFFF, 0)
    | p :: r =>
      let less (a b : Xv) : Bool := a.lt b || (a.isZero && b.isZero && a.neg && !b.neg)
      ((r.foldl (fun b q => if (if mx then less b.2 q.2 else less q.2 b.2) then q else b) p).1, 0)

/-- One reduction over elements with their predicates and indices: result word, poison, flags (R196, R197). -/
def reduce (op : Nat) (xs : List (Nat × (VEl × (Bool × Bool)))) : Nat × Bool × Nat :=
  let un := xs.filter (fun q => q.2.2.1)
  let p := un.any (fun q => q.2.1.pois) || xs.any (fun q => q.2.2.2)
  let pf := (if p then fPOISON else 0) ||| orFlags (un.map (fun q => q.2.1.fl))
  if un = [] then (redIdent op, p, fEMPTY ||| pf)
  else if 4 ≤ op then
    let (r, f) := argBest (op == 4) (un.map (fun q => (q.1, q.2.1.v)))
    (r, p, f ||| pf)
  else
    let vs := xs.map (fun q => if q.2.2.1 then (fp32.rne q.2.1.v).1 else redIdent op)
    let (r, f) := redList op vs
    (r, p, f ||| (if (fp32.dec r).isNan then fNV else 0) ||| pf)

/-- RROW and RCOL (R196, R294, R296). -/
def planReduce (col dchk : Bool) (w : BitVec 128) (x : IssueCtx) : Except Refuse Plan := do
  let opc := wOpc w
  let n := wf w 71 59 + 1
  let td := wf w 58 54
  let sa := wf w 47 32
  let bf := isBf sa
  let rl := if bf then 256 else 128
  let op := wOpx w
  let form := decide (bits sa 15 14 ≤ 1) && !(col && bf)
  let rows := n / rl
  vecBad opc [(0x120, form && x.srcOk sa n && (col || decide (n % rl = 0))), (0x13B, !col || decide (n % 128 = 0)),
              (0x136, decide (td + tileSpan false (if col then 128 else rows) ≤ 32))]
  let xs := x.src dchk sa n
  let es := xs.zip (x.preds (wModBit w 0) (wf w 52 48) n)
  let el (i : Nat) : VEl × (Bool × Bool) := es.getD i ({}, (true, false))
  let rs := if col then (List.range 128).map (fun c => reduce op ((List.range rows).map (fun r => (r, el (128 * r + c)))))
    else (List.range rows).map (fun r => reduce op ((List.range rl).map (fun c => (c, el (rl * r + c)))))
  pure { vecPlan x [] (putWords td (rs.zipIdx.map (fun (r, i) => (i, (r.1, r.2.1))))) (orFlags (rs.map (fun r => r.2.2)))
    (x.badCodes dchk [sa] n) (destRegs td 1) (vecReadRegs w) (accOf sa) (vbeats (isAcc sa) n 256) (vtail (isAcc sa) 12) with upd := Core.fillVbuf [xs] }

/-! MASKGEN (R201, R202). -/

/-- MASKGEN's plan. -/
def planMaskgen (w : BitVec 128) (x : IssueCtx) : Except Refuse Plan := do
  let n := wf w 71 59 + 1
  let td := wf w 58 54
  let b ← rdBlock x.co 0x5C (64 * wf w 53 35) 16 64
  let q0 := bfld b 0 4
  let k0 := bfld b 4 4
  let win := bfld b 8 4
  let klen := bfld b 12 4
  let opx := wOpx w
  let rl := if bit opx 0 then 256 else 128
  let window := bit opx 1
  let klim := bit opx 2
  vecBad 0x5C [(0, decide (q0 + (n - 1) / rl ≤ 262143)), (4, decide (k0 + rl - 1 ≤ 262143)),
               (8, !window || decide (win ≤ 262143)), (12, !klim || decide (1 ≤ klen ∧ klen ≤ 262144))]
  let bit_ (e : Nat) : Bool :=
    let q := q0 + e / rl
    let k := k0 + e % rl
    decide (e < n ∧ k ≤ q) && (!window || decide (q - k < win + 1)) && (!klim || decide (k < klen))
  let ws := (List.range (ceilDiv n 32)).map (fun i =>
    (i, ((List.range 32).foldl (fun s j => s + b2n (bit_ (32 * i + j)) * 2 ^ j) 0, false)))
  pure (vecPlan x b (putWords td ws) 0 [] (destRegs td 1) [] [] (ceilDiv n 1024) 4)

/-! CVT and SR (R194, R297, R298). -/

/-- An MX operand of CVT: block j of the tile register, its values and poison (R297). -/
def IssueCtx.mxTile (x : IssueCtx) (fmt t n : Nat) : List VEl :=
  let eb := if fmt = 6 then 16 else 32
  (List.range (n / 32)).flatMap (fun j =>
    let b := x.co.tread (t * 16384 + eb * j) eb
    let sa := t * 16384 + 8192 + j
    let sc := leNat (x.co.tread sa 1)
    (List.range 32).map (fun i =>
      let p := x.co.tpois (t * 16384 + eb * j + i * eb / 32) 1 || x.co.tpois sa 1
      if sc = 0xFF then ⟨.nan, fp32.nan, p, fNV⟩
      else
        let v := match elemVal fmt (elemAt fmt b i) with | .fin s m e => .fin s m (e + scaleExp sc) | y => y
        ⟨v, (fp32.rne v).1, p, 0⟩))

/-- CVT's plan. -/
def planCvt (dchk : Bool) (w : BitVec 128) (x : IssueCtx) : Except Refuse Plan := do
  let n := wf w 71 59 + 1
  let td := wf w 58 54
  let sa := wf w 47 32
  let dst := wOpx w
  let sr := wModBit w 1
  let sfmt := if bits sa 15 14 = 0 then bits sa 8 5 else 0
  let smx := isMx sfmt
  let dmx := isMx dst
  let okS := if smx then decide (n % 32 = 0) else decide (sfmt ≤ 1) && x.srcOk sa n
  vecBad 0x5D [(0x120, okS && !(smx && dmx) && decide (smx ∨ dmx ∨ sfmt ≠ dst)), (0x13B, !dmx || decide (n % 32 = 0)),
               (0x136, dmx || decide (td + tileSpan (dst == 1) n ≤ 32))]
  let xs := if smx then x.mxTile sfmt (bits sa 13 9) n else x.src dchk sa n
  let q := x.key 0
  let rb (e : Nat) : Nat := q.bits (e / 128) (e % 128) 0
  let base := orFlags (xs.map (fun v => v.fl ||| (if v.pois then fPOISON else 0)))
  let bad := x.badCodes dchk [sa] n
  let acc := isAcc sa
  let allBf := (sfmt == 1) && (dst == 1)
  let fin (puts : List Put) (fl regs : Nat) : Plan :=
    { vecPlan x [] puts (fl ||| base) bad (destRegs td regs) (vecReadRegs w) (accOf sa)
      (vbeats acc n (if allBf then 512 else 256)) (vtail acc 6) with upd := Core.fillVbuf [xs] }
  if dmx then
    let eb := if dst = 6 then 16 else 32
    let bs := (List.range (n / 32)).map (fun j =>
      let blk := (xs.drop (32 * j)).take 32
      let (cs, sc, fl) := mxBlock dst (blk.map (·.v)) (fun i => if sr then some (rb (32 * j + i)) else none)
      let p := blk.any (·.pois)
      ([(⟨true, td * 16384 + eb * j, packElems dst cs, p⟩ : Put), ⟨true, td * 16384 + 8192 + j, leBytes 1 sc, p⟩], fl))
    pure (fin (bs.flatMap Prod.fst) (orFlags (bs.map Prod.snd)) 1)
  else
    let f := if dst = 0 then fp32 else bf16
    let os := xs.zipIdx.map (fun (v, e) =>
      let (o, fl) := if sr then f.srRound (rb e) v.v else f.rne v.v
      (some (o, v.pois), fl))
    pure (fin (putEls (dst == 1) td (os.map Prod.fst)) (orFlags (os.map Prod.snd)) (tileSpan (dst == 1) n))

/-- SR's plan: FP32 to BF16 by sr_round (R194). -/
def planSr (dchk : Bool) (w : BitVec 128) (x : IssueCtx) : Except Refuse Plan := do
  let n := wf w 71 59 + 1
  let td := wf w 58 54
  let sa := wf w 47 32
  vecBad 0x5E [(0x120, !(isBf sa) && x.srcOk sa n), (0x136, decide (td + tileSpan true n ≤ 32))]
  let xs := x.src dchk sa n
  let ps := x.preds (wModBit w 0) (wf w 52 48) n
  let q := x.key 0
  let os := (xs.zip ps).zipIdx.map (fun ((v, pr), e) =>
    if pr.1 then
      let (o, fl) := bf16.srRound (q.bits (e / 128) (e % 128) 0) v.v
      let p := v.pois || pr.2
      (some (o, p), fl ||| v.fl ||| (if p then fPOISON else 0))
    else (none, 0))
  let acc := isAcc sa
  pure { vecPlan x [] (putEls true td (os.map Prod.fst)) (orFlags (os.map Prod.snd)) (x.badCodes dchk [sa] n)
    (destRegs td (tileSpan true n)) (vecReadRegs w) (accOf sa) (vbeats acc n 256) (vtail acc 6) with upd := Core.fillVbuf [xs] }

/-! SMAX (R203). -/

/-- One segment of SMAX: results and flags. -/
def smaxSeg (c : Nat) (xs : List (VEl × (Bool × Bool))) : List Nat × Nat :=
  let un := (xs.filter (fun p => p.2.1)).map (fun p => p.1.v)
  if un.any Xv.isNan then (xs.map (fun _ => fp32.nan), fNV)
  else
    let infs := (un.filter (fun v => v.isInf && !v.neg)).length
    if 0 < infs then
      let (r, f) := fp32.rneDiv false 1 infs 0
      (xs.map (fun p => if p.2.1 && p.1.v.isInf && !p.1.v.neg then r else 0), fINFIN ||| f)
    else
      let (m, f0) := redList 2 (xs.map (fun p => if p.2.1 then (fp32.rne p.1.v).1 else fp32.encInf true))
      if m = fp32.encInf true then (xs.map (fun _ => 0), fALLMASK)
      else
        let es := xs.map (fun p =>
          if p.2.1 then
            let (d, f1) := fp32.rne ((p.1.v.sub (fp32.dec m)).mul (fp32.dec c))
            let (e, f2) := exp2f d
            (e, f1 ||| f2)
          else (0, 0))
        let (s, f3) := redList 0 (es.map Prod.fst)
        let (r, f4) := recip s
        let ys := es.map (fun e => fp32.rne ((fp32.dec e.1).mul (fp32.dec r)))
        (ys.map Prod.fst, f0 ||| orFlags (es.map Prod.snd) ||| f3 ||| f4 ||| orFlags (ys.map Prod.snd))

/-- SMAX's plan (R203, R294). -/
def planSmax (dchk : Bool) (w : BitVec 128) (x : IssueCtx) : Except Refuse Plan := do
  let n := wf w 71 59 + 1
  let td := wf w 58 54
  let sa := wf w 47 32
  let seg := 2 ^ wOpx w
  let c := wf w 31 0
  let cOk := match fp32.dec c with | .fin neg m _ => !neg && decide (m ≠ 0) | _ => false
  vecBad 0x5F [(0x100, cOk), (0x120, !(isBf sa) && x.srcOk sa n), (0x136, decide (td + tileSpan false n ≤ 32)),
               (0x13B, decide (n % seg = 0))]
  let vs := x.src dchk sa n
  let es := vs.zip (x.preds (wModBit w 0) (wf w 52 48) n)
  let outs := (List.range (n / seg)).map (fun i =>
    let xs := (es.drop (seg * i)).take seg
    let (ys, f) := smaxSeg c xs
    let p := xs.any (fun q => (q.2.1 && q.1.pois) || q.2.2)
    (ys.map (fun y => some (y, p)), f ||| orFlags ((xs.filter (fun q => q.2.1)).map (fun q => q.1.fl)) ||| (if p then fPOISON else 0)))
  let acc := isAcc sa
  pure { vecPlan x [] (putEls false td (outs.flatMap Prod.fst)) (orFlags (outs.map Prod.snd)) (x.badCodes dchk [sa] n)
    (destRegs td (tileSpan false n)) (vecReadRegs w) (accOf sa) (if acc then ceilDiv n 128 else 2 * ceilDiv n 256 + ceilDiv n 128) (vtail acc 48) with upd := Core.fillVbuf [vs] }

/-! Online operations (R205, R206). -/

/-- An FP32 word of the core store with its poison. -/
def Core.word (co : Core) (a : Nat) : VEl := vel32 (bfld (co.read a 4) 0 4) (co.poisoned a 4)

/-- f[m] of OMAX from mp, mx and c (R206). -/
def omaxF (mp mx c : Nat) : Nat × Nat :=
  let p := fp32.dec mp
  let m := fp32.dec mx
  if p.eqv m then (oneCode, 0)
  else if p = .inf true then (0, 0)
  else
    let (d, f1) := fp32.rne ((p.sub m).mul (fp32.dec c))
    let (e, f2) := exp2f d
    (e, f1 ||| f2)

/-- FP32 words of the core store written. -/
def putStore (a : Nat) (vs : List (Nat × Bool)) : List Put := vs.zipIdx.map (fun (v, i) => ⟨false, a + 4 * i, leBytes 4 v.1, v.2⟩)

/-- The plan of an online operation (R205, R206, R292, R294). -/
def planOnline (w : BitVec 128) (x : IssueCtx) : Except Refuse Plan := do
  let opc := wOpc w
  let m := wf w 71 59 + 1
  let td := wf w 58 54
  let ra := 64 * wf w 53 35
  let fromMem := wOpx w == 1
  let va := 64 * wf w 34 16
  let tv := wf w 15 11
  let c := wf w 31 0
  let cOk := match fp32.dec c with | .fin neg mm _ => !neg && decide (mm ≠ 0) | _ => false
  vecBad opc [(0x100, opc != 0x60 || cOk), (0x13B, decide (16 ≤ m ∧ m ≤ 128))]
  let useV := opc == 0x61 || opc == 0x62
  chk ((if opc = 0x63 then inStore ra (64 + 12 * m) else dstOk x.c ra (64 + 12 * m)) &&
       (!(useV && fromMem) || inStore va (4 * m))) (opndBad opc 1)
  let co := x.co
  let ms := List.range m
  let v (i : Nat) : VEl := if fromMem then co.word (va + 4 * i) else co.tileEl false tv i
  let mx (i : Nat) : VEl := co.word (ra + 64 + 4 * i)
  let sm (i : Nat) : VEl := co.word (ra + 64 + 4 * m + 4 * i)
  let mp (i : Nat) : VEl := co.word (ra + 64 + 8 * m + 4 * i)
  let cv := co.word ra
  let pf (p : Bool) : Nat := if p then fPOISON else 0
  let fin (puts : List Put) (fl : Nat) (regs : List (Nat × Nat)) : Plan :=
    let p := vecPlan x [] puts fl [] regs (vecReadRegs w) [] (ceilDiv m 8) 24
    { p with reads := (if opc = 0x60 then [] else [(ra, 64 + 12 * m)]) ++ (if useV && fromMem then [(va, 4 * m)] else []) }
  match opc with
  | 0x60 =>
    pure (fin (putStore ra [(c, false)] ++ putStore (ra + 64) (ms.map (fun _ => (fp32.encInf true, false)) ++
      ms.map (fun _ => (0, false)) ++ ms.map (fun _ => (fp32.encInf true, false)))) 0 [])
  | 0x61 =>
    let rs := ms.map (fun i =>
      let (nm, f0) := fp32.rne (minMax true (mx i).v (v i).v)
      let (f, f1) := omaxF (mx i).raw nm cv.raw
      let pm := (mx i).pois || (v i).pois
      ((nm, pm), (f, pm || cv.pois), f0 ||| f1 ||| pf (pm || cv.pois)))
    pure (fin (putStore (ra + 64) (rs.map (·.1)) ++ putStore (ra + 64 + 8 * m) (ms.map (fun i => (if (mx i).v.isNan then fp32.nan else (mx i).raw, (mx i).pois))) ++
      putWords td (rs.zipIdx.map (fun (r, i) => (i, r.2.1)) ++ rs.zipIdx.map (fun (r, i) => (128 + i, r.1))))
      (orFlags (rs.map (·.2.2))) (destRegs td 1))
  | 0x62 =>
    let rs := ms.map (fun i =>
      let (f, f1) := omaxF (mp i).raw (mx i).raw cv.raw
      let (s, f2) := fp32.rne (((sm i).v.mul (fp32.dec f)).add (v i).v)
      let p := (mp i).pois || (mx i).pois || cv.pois || (sm i).pois || (v i).pois
      ((s, p), f1 ||| f2 ||| pf p))
    pure (fin (putStore (ra + 64 + 4 * m) (rs.map Prod.fst)) (orFlags (rs.map Prod.snd)) [])
  | _ =>
    let rs := ms.map (fun i =>
      let p := (mx i).pois || (sm i).pois
      let (g, f) := match (mx i).v with
        | .nan => (fp32.nan, fNV)
        | .inf n => if n then (0, fALLMASK) else (fp32.nan, fNV ||| fINFIN)
        | .fin _ _ _ => recip (sm i).raw
      ((g, p), f ||| pf p))
    pure (fin (putWords td (rs.zipIdx.map (fun (r, i) => (i, r.1)))) (orFlags (rs.map Prod.snd)) (destRegs td 1))

/-- Issue of an element-wise instruction. -/
def State.issueElem (s : State) (n opc : Nat) (w : BitVec 128) : State := s.issue1 n 3 opc w (planElem s.cfg.dchk w)

/-- ADD: a + b (R193). -/
def execAdd (core : Fin 48) (w : BitVec 128) (s : State) : Res := .next (s.issueElem core 0x40 w)
/-- SUB: a - b (R193). -/
def execSub (core : Fin 48) (w : BitVec 128) (s : State) : Res := .next (s.issueElem core 0x41 w)
/-- MUL: a x b (R193). -/
def execMul (core : Fin 48) (w : BitVec 128) (s : State) : Res := .next (s.issueElem core 0x42 w)
/-- FMA: a x b + c, one rounding (R193). -/
def execFma (core : Fin 48) (w : BitVec 128) (s : State) : Res := .next (s.issueElem core 0x43 w)
/-- MIN: the smaller (R193). -/
def execMin (core : Fin 48) (w : BitVec 128) (s : State) : Res := .next (s.issueElem core 0x44 w)
/-- MAX: the larger (R193). -/
def execMax (core : Fin 48) (w : BitVec 128) (s : State) : Res := .next (s.issueElem core 0x45 w)
/-- ABS: |a| (R193). -/
def execAbs (core : Fin 48) (w : BitVec 128) (s : State) : Res := .next (s.issueElem core 0x46 w)
/-- NEG: -a (R193). -/
def execNeg (core : Fin 48) (w : BitVec 128) (s : State) : Res := .next (s.issueElem core 0x47 w)
/-- MOV: a (R193). -/
def execMov (core : Fin 48) (w : BitVec 128) (s : State) : Res := .next (s.issueElem core 0x48 w)
/-- CMPEQ: predicate bit of a = b (R193). -/
def execCmpeq (core : Fin 48) (w : BitVec 128) (s : State) : Res := .next (s.issueElem core 0x49 w)
/-- CMPLT: predicate bit of a < b (R193). -/
def execCmplt (core : Fin 48) (w : BitVec 128) (s : State) : Res := .next (s.issueElem core 0x4A w)
/-- CMPLE: predicate bit of a <= b (R193). -/
def execCmple (core : Fin 48) (w : BitVec 128) (s : State) : Res := .next (s.issueElem core 0x4B w)
/-- SEL: a where the selector is 1, else b (R193). -/
def execSel (core : Fin 48) (w : BitVec 128) (s : State) : Res := .next (s.issueElem core 0x4C w)
/-- EXP2: a special function of each element (R200). -/
def execExp2 (core : Fin 48) (w : BitVec 128) (s : State) : Res := .next (s.issueElem core 0x50 w)
/-- LOG2: a special function of each element (R200). -/
def execLog2 (core : Fin 48) (w : BitVec 128) (s : State) : Res := .next (s.issueElem core 0x51 w)
/-- RCP: a special function of each element (R200). -/
def execRcp (core : Fin 48) (w : BitVec 128) (s : State) : Res := .next (s.issueElem core 0x52 w)
/-- RSQRT: a special function of each element (R200). -/
def execRsqrt (core : Fin 48) (w : BitVec 128) (s : State) : Res := .next (s.issueElem core 0x53 w)
/-- TANH: a special function of each element (R200). -/
def execTanh (core : Fin 48) (w : BitVec 128) (s : State) : Res := .next (s.issueElem core 0x54 w)
/-- ERF: a special function of each element (R200). -/
def execErf (core : Fin 48) (w : BitVec 128) (s : State) : Res := .next (s.issueElem core 0x55 w)
/-- SIGM: a special function of each element (R200). -/
def execSigm (core : Fin 48) (w : BitVec 128) (s : State) : Res := .next (s.issueElem core 0x56 w)
/-- SILU: a special function of each element (R200). -/
def execSilu (core : Fin 48) (w : BitVec 128) (s : State) : Res := .next (s.issueElem core 0x57 w)
/-- GELU: a special function of each element (R200). -/
def execGelu (core : Fin 48) (w : BitVec 128) (s : State) : Res := .next (s.issueElem core 0x58 w)
/-- RROW: rows reduced (R196). -/
def execRrow (core : Fin 48) (w : BitVec 128) (s : State) : Res := .next (s.issue1 core 3 0x5A w (planReduce false s.cfg.dchk w))
/-- RCOL: columns reduced (R196). -/
def execRcol (core : Fin 48) (w : BitVec 128) (s : State) : Res := .next (s.issue1 core 3 0x5B w (planReduce true s.cfg.dchk w))
/-- MASKGEN: a predicate made from positions (R201). -/
def execMaskgen (core : Fin 48) (w : BitVec 128) (s : State) : Res := .next (s.issue1 core 3 0x5C w (planMaskgen w))
/-- CVT: conversion between formats (R298). -/
def execCvt (core : Fin 48) (w : BitVec 128) (s : State) : Res := .next (s.issue1 core 3 0x5D w (planCvt s.cfg.dchk w))
/-- SR: stochastic rounding to BF16 (R194). -/
def execSr (core : Fin 48) (w : BitVec 128) (s : State) : Res := .next (s.issue1 core 3 0x5E w (planSr s.cfg.dchk w))
/-- SMAX: the soft maximum of segments (R203). -/
def execSmax (core : Fin 48) (w : BitVec 128) (s : State) : Res := .next (s.issue1 core 3 0x5F w (planSmax s.cfg.dchk w))
/-- OINIT: an online record begun (R206). -/
def execOinit (core : Fin 48) (w : BitVec 128) (s : State) : Res := .next (s.issue1 core 3 0x60 w (planOnline w))
/-- OMAX: running maxima (R206). -/
def execOmax (core : Fin 48) (w : BitVec 128) (s : State) : Res := .next (s.issue1 core 3 0x61 w (planOnline w))
/-- OSUM: running sums (R206). -/
def execOsum (core : Fin 48) (w : BitVec 128) (s : State) : Res := .next (s.issue1 core 3 0x62 w (planOnline w))
/-- OFIN: the final scales (R206). -/
def execOfin (core : Fin 48) (w : BitVec 128) (s : State) : Res := .next (s.issue1 core 3 0x63 w (planOnline w))

end Sys2Proof.Machine
end

