-- ==== Sys2Proof/Machine/Update.lean ====
section
/-! DEFINITION. UPDATE and GNORM (R299 to R305, R393). -/
namespace Sys2Proof.Machine
open Sys2Proof

/-! Unsigned E5M3 (R393). -/

/-- The value of an E5M3 code. -/
def e5m3Dec (c : Nat) : Xv :=
  let e := c / 8 % 32
  let f := c % 8
  if e = 31 then (if f = 0 then .inf false else .nan)
  else if e = 0 then .fin false f (-26)
  else .fin false (8 + f) ((e : Int) - 27)

/-- sr_round into E5M3 (R74, R393): code and flags. -/
def e5m3Sr (r : Nat) : Xv → Nat × Nat
  | .nan => (0xFF, fNV)
  | .inf _ => (0xF8, 0)
  | .fin _ m e =>
    if m = 0 then (0, 0)
    else
      let u := max (floorLog2 m e) (-23) - 3
      let (n, ix) := shiftFloor m (e - u)
      let fr := (shiftFloor m (e - u + 32)).1 % 2 ^ 32
      let n := if r < fr then n + 1 else n
      let (n, u) := if n = 16 then (8, u + 1) else (n, u)
      if 3 < u then (0xF8, fOF ||| fNX)
      else ((if n < 8 then n else (u + 27).toNat * 8 + (n - 8)),
            (if ix then fNX else 0) ||| (if ix && decide (floorLog2 m e < -23) then fUF else 0))

/-! UPDATE (R299 to R302). -/

/-- The scalars of UPDATE: clip scale and the block's nine. -/
structure Adam where
  /-- cs. -/
  cs : Xv
  /-- beta1, c1, beta2, c2, eps, lr, lwd, bc1, bc2 as values, eps as FP32 too. -/
  b1 : Xv
  c1 : Xv
  b2 : Xv
  c2 : Xv
  eps : Xv
  lr : Xv
  lwd : Xv
  bc1 : Xv
  bc2 : Xv

/-- One live slot updated: the new slot and its flags (R301). -/
def adamSlot (p : Adam) (r : Nat → Nat) (g : Nat) (x : Slot) : Slot × Nat :=
  let f (v : Xv) : Nat × Nat := fp32.rne v
  let d := fp32.dec
  let (gx, f1) := f ((d g).mul p.cs)
  let (mt, f2) := f ((p.b1.mul (bf16.dec x.m)).add (p.c1.mul (d gx)))
  let (vt, f3) := f ((p.b2.mul (e5m3Dec x.v)).add (p.c2.mul ((d gx).mul (d gx))))
  let (a, f4) := f ((d mt).mul p.bc1)
  let (b, f5) := f ((d vt).mul p.bc2)
  let (s, f6) := fp32.sqrt (d b)
  let (de, f7) := f ((d s).add p.eps)
  let (rc, f8) := recip de
  let (u, f9) := f ((d a).mul (d rc))
  let w := bf16.dec x.w
  let (w', f10) := bf16.srRound (r 2) ((w.sub (p.lr.mul (d u))).sub (p.lwd.mul w))
  let (m', f11) := bf16.srRound (r 0) (d mt)
  let (v', f12) := e5m3Sr (r 1) (d vt)
  ({ x with w := w', m := m', v := v' }, orFlags [f1, f2, f3, f4, f5, f6, f7, f8, f9, f10, f11, f12])

/-- UPDATE on line j: LINES, SKIPPED, POISONED, RANGE_SLOTS are the first four counts (R301, R306). -/
def updateLine (p : Adam) (q : Key) (kext stamp j : Nat) (gs : List (Nat × Bool)) (pois : Bool) (l : List Byte) : LineOut :=
  let r := lineSkip pois l
  if r ≠ 0 then { reason := r, counts := [0, 1, 0, 0], flags := if r = 1 then fPOISON else 0 }
  else
    let ss := lineSlots l
    let live (s : Nat) (x : Slot) : Bool := isLive l kext s x
    if ss.zipIdx.any (fun (x, s) => live s x && (gs.getD s (0, false)).2) then
      { reason := 5, counts := [0, 0, 1, 0], flags := fPOISON }
    else
      let bad := (ss.zipIdx.filter (fun (x, s) => decide (lineStat l kext s x.idx = 1 ∨ lineStat l kext s x.idx = 2))).length
      let os := ss.zipIdx.map (fun (x, s) =>
        if live s x then adamSlot p (fun k => q.bits j s k) (gs.getD s (0, false)).1 x else (x, 0))
      { line := some (lineBuild l (os.map Prod.fst) stamp 0 (bfld l 13 1)), counts := [1, 0, 0, bad],
        flags := orFlags (os.map Prod.snd) ||| (if bad ≠ 0 then fRANGE else 0) }

/-- An FP32 scalar that is finite; with the sign condition of its field. -/
def finiteF (b : List Byte) (o : Nat) (pos : Bool) : Bool :=
  match fp32.dec (bfld b o 4) with
  | .fin n m _ => if pos then !n && decide (m ≠ 0) else !n || decide (m = 0)
  | _ => false

/-- A scalar from 0 to 1. -/
def unitF (b : List Byte) (o : Nat) : Bool :=
  finiteF b o false && !((Xv.fin false 1 0).lt (fp32.dec (bfld b o 4)))

/-- UPDATE's plan. -/
def planUpdate (w : BitVec 128) (x : IssueCtx) : Except Refuse Plan := do
  let b ← rdBlock x.co 0x68 (64 * wf w 53 35) 64 64
  let la := bfld b 0 4
  let nl := bfld b 4 4
  let home := bfld b 8 8
  let ga := bfld b 16 4
  let csa := bfld b 20 4
  let kext := bfld b 24 2
  match blockChecks b [(0, 26), (28, 36)]
      [(0, decide (la % 256 = 0)), (4, decide (1 ≤ nl ∧ nl ≤ 65536)), (8, homeOk home), (16, decide (ga % 128 = 0)),
       (20, decide (csa % 64 = 0)), (24, kextOk kext), (28, unitF b 28), (32, unitF b 32), (36, unitF b 36), (40, unitF b 40),
       (44, finiteF b 44 true), (48, finiteF b 48 false), (52, finiteF b 52 false), (56, finiteF b 56 true),
       (60, finiteF b 60 true)] with
  | some f => .error (paramBad 0x520E 0x68 f)
  | none => pure ()
  chk (dstOk x.c la (256 * nl) && inStore ga (128 * nl) && inStore csa 64) (opndBad 0x68 1)
  let v (o : Nat) : Xv := fp32.dec (bfld b o 4)
  let cs := x.co.word csa
  let p : Adam := ⟨cs.v, v 28, v 32, v 36, v 40, v 44, v 48, v 52, v 56, v 60⟩
  let outs := (List.range nl).map (fun j =>
    let gs := (List.range 32).map (fun s => let g := x.co.word (ga + 128 * j + 4 * s); (g.raw, g.pois || cs.pois))
    updateLine p (x.key 0) kext (x.c.step.toNat % 2 ^ 32) j gs (x.co.poisoned (la + 256 * j) 256) (x.co.read (la + 256 * j) 256))
  let done := x.cyc + 3 * nl + 32
  let counts := (List.range 4).map (fun i => (outs.map (fun o => o.counts.getD i 0)).foldl (· + ·) 0)
  let e := linesEntry la home 0 outs [] counts (fun j => x.cyc + 32 + 3 * (j + 1)) done
  let refs := if home = 0 then outs.zipIdx.filterMap (fun (o, j) =>
      if o.reason = 5 then some (0x1305, [(8, 256 * j), (4, x.c.step.toNat)]) else none) else []
  pure { entry := { e with block := b, beatEnd := done, events := e.events ++ refs },
         reads := [(la, 256 * nl), (ga, 128 * nl), (csa, 4)], writes := [(la, 256 * nl)] }

/-- UPDATE: one optimiser step on staged parameter lines (R301). -/
def execUpdate (core : Fin 48) (w : BitVec 128) (s : State) : Res := .next (s.issue1 core 3 0x68 w (planUpdate w))

/-! GNORM (R304, R305). -/

/-- Writes into a GNORM record. -/
def recPut (a : Nat) (b : List Byte) (p : Bool) : Put := ⟨false, a, b, p⟩

/-- GNORM's plan: 0 SQ, 1 FIN, 2 CLR. -/
def planGnorm (dchk : Bool) (w : BitVec 128) (x : IssueCtx) : Except Refuse Plan := do
  let n := wf w 71 59 + 1
  let tp := wf w 58 54
  let ra := 64 * wf w 53 35
  let sa := wf w 31 16
  let mode := wOpx w
  let co := x.co
  let rb := co.read ra 64
  let cOk := match fp32.dec (bfld rb 16 4) with
    | .fin s m _ => !s && decide (m ≠ 0)
    | .inf s => !s
    | .nan => false
  if mode = 0 then vecBad 0x69 [(0x110, x.srcOk sa n)] else pure ()
  if mode = 1 ∧ inStore ra 64 ∧ !cOk then .error (paramBad 0x520E 0x69 16) else pure ()
  chk (dstOk x.c ra 64) (opndBad 0x69 1)
  let fin (puts : List Put) (fl beats extra : Nat) : Plan :=
    { vecPlan x [] puts fl [] [] (vecReadRegs w) [] beats extra with reads := [(ra, 64)] }
  match mode with
  | 0 =>
    let un := ((x.src dchk sa n).zip (x.preds (wModBit w 0) tp n)).filter (fun q => q.2.1)
    let t := un.foldl (fun a q => a.add (q.1.v.mul q.1.v)) Xv.zero
    let (s, f) := w40.rne ((w40.dec (bfld rb 8 5)).add t)
    let p := un.any (fun q => q.1.pois || q.2.2) || co.poisoned (ra + 8) 5
    let pl := fin [recPut (ra + 8) (leBytes 5 s) p] (f ||| orFlags (un.map (fun q => q.1.fl)) ||| (if p then fPOISON else 0))
      (vbeats (isAcc sa) n 256) (if isAcc sa then 12 else 10)
    pure { pl with accR := accOf sa, entry := { pl.entry with badRows := x.badCodes dchk [sa] n } }
  | 1 =>
    let (nm, f1) := fp32.sqrt (w40.dec (bfld rb 8 5))
    let c := fp32.dec (bfld rb 16 4)
    let (cs, f2, nf) := match fp32.dec nm with
      | .nan => (fp32.nan, fNV, true)
      | .inf _ => (0, 0, true)
      | v => if v.lt c || v.eqv c then (oneCode, 0, false)
        else
          let (r, g1) := recip nm
          let (o, g2) := fp32.rne (c.mul (fp32.dec r))
          (o, g1 ||| g2, false)
    let flags := bfld rb 13 1 % 2 + (if nf then 2 else bfld rb 13 1 / 2 % 2 * 2)
    let p := co.poisoned (ra + 8) 8 || co.poisoned (ra + 16) 4
    let pl := fin [recPut ra (leBytes 4 cs ++ leBytes 4 nm) p, recPut (ra + 13) (leBytes 1 flags) p]
      (f1 ||| f2 ||| (if p then fPOISON else 0)) 40 0
    pure { pl with entry := { pl.entry with fields := [BitVec.ofNat 32 flags], perTensor := decide (flags % 2 = 1) } }
  | _ => pure (fin [recPut ra (List.replicate 14 0) false] 0 8 0)

/-- GNORM in mode SQ: the squares of a source added to S (R305). -/
def execGnormSq (core : Fin 48) (w : BitVec 128) (s : State) : Res :=
  .next (if wOpx w = 0 then s.issue1 core 3 0x69 w (planGnorm s.cfg.dchk w) else s)
/-- GNORM in mode FIN: the norm and the clip scale (R305). -/
def execGnormFin (core : Fin 48) (w : BitVec 128) (s : State) : Res :=
  .next (if wOpx w = 1 then s.issue1 core 3 0x69 w (planGnorm s.cfg.dchk w) else s)
/-- GNORM in mode CLR: the record cleared (R305). -/
def execGnormClr (core : Fin 48) (w : BitVec 128) (s : State) : Res :=
  .next (if wOpx w = 2 then s.issue1 core 3 0x69 w (planGnorm s.cfg.dchk w) else s)

end Sys2Proof.Machine
end

