-- ==== Sys2Proof/Machine/Memory.lean ====
section
/-! DEFINITION. The memory system: reads and writes with poison, and the translation of job virtual addresses (R370, R383 to
R389). -/
namespace Sys2Proof.Machine
open Sys2Proof

/-- A byte range lies wholly in a region that remote operations may reach: the mappable HBM or the populated part of one
core's window (R365). -/
def rangeOk (a n : Nat) : Bool :=
  decide (a + n ≤ hbmEnd) ||
  (decide (csBase ≤ a) && decide ((a - csBase) / csWin < 48) && decide ((a - csBase) % csWin + n ≤ storeSize))

/-! Bytes with their poison. -/

/-- A byte and its poison. -/
abbrev PByte := Byte × Bool

/-- Poison marks after a write of marked bytes: a unit that any poisoned byte touches is marked, a unit wholly overwritten
by clean bytes is cleared (R232, R233). -/
def poisBytes (p : PSet) (unit a : Nat) (bs : List PByte) : PSet :=
  if bs.isEmpty then p
  else
    (List.range ((a + bs.length - 1) / unit + 1 - a / unit)).foldl (fun p i =>
      let u := a / unit + i
      let lo := max a (u * unit)
      let hi := min (a + bs.length) ((u + 1) * unit)
      if ((bs.drop (lo - a)).take (hi - lo)).any Prod.snd then psAdd p u
      else if hi - lo = unit then psDel p u else p) p

/-- Bytes of a memory with the poison of the units they lie in. -/
def pread (m : Mem) (p : PSet) (unit a n : Nat) : List PByte :=
  (List.range n).map (fun i => (memGet m (a + i), psHas p ((a + i) / unit)))

/-- Marked bytes of a core store. -/
def Core.pread (c : Core) (a n : Nat) : List PByte := Machine.pread c.store c.storePois 4 a n
/-- Marked bytes written to a core store. -/
def Core.pwrite (c : Core) (a : Nat) (bs : List PByte) : Core :=
  { c with store := memWrite c.store a (bs.map Prod.fst), storePois := poisBytes c.storePois 4 a bs }
/-- Marked bytes of the tile registers. -/
def Core.ptread (c : Core) (a n : Nat) : List PByte := Machine.pread c.treg c.tregPois 4 a n
/-- Marked bytes written to the tile registers. -/
def Core.ptwrite (c : Core) (a : Nat) (bs : List PByte) : Core :=
  { c with treg := memWrite c.treg a (bs.map Prod.fst), tregPois := poisBytes c.tregPois 4 a bs }
/-- An address lies in a stack whose Plinth is being reset: its requests are answered by poisoned error responses (R554). -/
def State.quietAt (s : State) (a : Nat) : Bool := s.rst.quiet.contains (s.cfg.stackOf (a / 256 * 256)).1

/-- Bytes that a request brings: poisoned where a Plinth that is being reset answers it (R231, R554; log entry 17). -/
def State.answered (s : State) (a : Nat) (bs : List PByte) : List PByte :=
  if s.rst.quiet.isEmpty then bs else bs.zipIdx.map (fun (b, i) => (b.1, b.2 || s.quietAt (a + i)))

/-- Marked bytes of HBM. -/
def State.hread (s : State) (a n : Nat) : List PByte := s.answered a (Machine.pread s.hbm s.hbmPois 64 a n)

/-- Bytes that a write leaves: where a Plinth that is being reset does not take it, the old ones, poisoned (R231, R554; log entry
17). -/
def State.taken (s : State) (a : Nat) (bs : List PByte) : List PByte :=
  if s.rst.quiet.isEmpty then bs
  else bs.zipIdx.map (fun (b, i) => if s.quietAt (a + i) then (memGet s.hbm (a + i), true) else b)

/-- Sectors after a Plinth write: a sector that any poisoned byte is written to becomes poisoned as a whole, one wholly
overwritten by clean bytes is cleared, one partly overwritten keeps its mark (R232, R233, R370). -/
def State.hwrite (s : State) (a : Nat) (bs : List PByte) : State :=
  let bs := s.taken a bs
  { s with hbm := memWrite s.hbm a (bs.map Prod.fst), hbmPois := poisBytes s.hbmPois 64 a bs,
           mediaErr := dropErrs s.mediaErr a bs.length }

/-- Units that the unpoisoned ones among some writes (address, bytes, poison) overwrite completely together, and none of them alone, and
that no poisoned one touches (R233). -/
def unitsCovered (unit : Nat) (ws : List (Nat × (Nat × Bool))) : List Nat :=
  let clean := ws.filter (fun w => !w.2.2 && decide (0 < w.2.1))
  let part := clean.filter (fun w => !(decide (w.1 % unit = 0) && decide (w.2.1 % unit = 0)))
  ((part.flatMap (fun w => [w.1 / unit, (w.1 + w.2.1 - 1) / unit])).eraseDups).filter (fun u =>
    (List.range unit).all (fun i => clean.any (fun w => decide (w.1 ≤ unit * u + i ∧ unit * u + i < w.1 + w.2.1))) &&
    !(ws.any (fun w => w.2.2 && overlaps w.1 w.2.1 (unit * u) unit)))

/-- The marks of words or sectors cleared that the writes of one transfer overwrite completely (R233). -/
def State.clearCovered (s : State) (n : Nat) (store hbm : List (Nat × (Nat × Bool))) : State :=
  let s := s.modCore n (fun co => { co with storePois := (unitsCovered 4 store).foldl psDel co.storePois })
  { s with hbmPois := (unitsCovered 64 hbm).foldl psDel s.hbmPois }

/-! Marked elements. -/

/-- Some byte is poisoned. -/
def anyPois (bs : List PByte) : Bool := bs.any Prod.snd
/-- The number in marked bytes. -/
def pNat (bs : List PByte) : Nat := leNat (bs.map Prod.fst)
/-- A number as marked bytes. -/
def pBytes (n v : Nat) (p : Bool) : List PByte := (leBytes n v).map (fun b => (b, p))

/-! Translation (R383 to R386, R389). -/

/-- A translation fault: REASON 1 MISS, 2 PERM, 3 TARGET, 4 POISON, and the entry's address. -/
structure XlErr where
  /-- REASON of XL_FAULT. -/
  reason : Nat
  /-- Entry address. -/
  entry : Nat
  /-- Job virtual address. -/
  va : Nat
  /-- The access was a write. -/
  write : Bool
  deriving DecidableEq, Repr

/-- The walk of the two-level table: a leaf, or the reason and the entry's address (R384, R385). -/
def State.walk (s : State) (root : Option (Nat × Nat)) (va : Nat) : Except (Nat × Nat) XlEnt :=
  match root with
  | none => .error (1, 0)
  | some (ntop, base) =>
    let a1 := base + 8 * bits va 51 30
    if 2 ^ 52 ≤ va ∨ ntop ≤ bits va 51 30 then .error (1, 0)
    else if hbmEnd < a1 + 8 then .error (3, a1)
    else if s.hbmPoisoned a1 8 then .error (4, a1)
    else
      let e1 := bfld (s.hbmRead a1 8) 0 8
      if !bit e1 0 then .error (1, a1)
      else if bits e1 11 8 ≠ 0 ∨ bits e1 63 44 ≠ 0 then .error (3, a1)
      else if bit e1 1 then
        let fr := bits e1 43 30 * 2 ^ 30
        if bits e1 29 12 ≠ 0 ∨ hbmEnd < fr + 2 ^ 30 then .error (3, a1)
        else .ok ⟨va / 2 ^ 30, true, fr, bit e1 2, bit e1 3, bits e1 7 4⟩
      else
        let t := bits e1 43 12 * 4096
        let a2 := t + 8 * bits va 29 21
        if hbmEnd < t + 4096 then .error (3, a1)
        else if s.hbmPoisoned a2 8 then .error (4, a2)
        else
          let e2 := bfld (s.hbmRead a2 8) 0 8
          let fr := bits e2 43 21 * 2 ^ 21
          if !bit e2 0 then .error (1, a2)
          else if bits e2 11 8 ≠ 0 ∨ bits e2 63 44 ≠ 0 ∨ bits e2 20 12 ≠ 0 ∨ !bit e2 1 ∨ hbmEnd < fr + 2 ^ 21 then .error (3, a2)
          else .ok ⟨va / 2 ^ 21, false, fr, bit e2 2, bit e2 3, bits e2 7 4⟩

/-- Bytes of the page of a leaf. -/
def XlEnt.size (e : XlEnt) : Nat := if e.big then 2 ^ 30 else 2 ^ 21

/-- The entry covers a job virtual address. -/
def XlEnt.covers (e : XlEnt) (va : Nat) : Bool := decide (e.vpage = va / e.size)

/-- Two leaves translate an address in common. -/
def XlEnt.meets (e x : XlEnt) : Bool :=
  decide (x.vpage * x.size < (e.vpage + 1) * e.size ∧ e.vpage * e.size < (x.vpage + 1) * x.size)

/-- The entry of the level-2 table that a level-1 entry points to, where a walk reads it. -/
def State.walkNext (s : State) (a1 va : Nat) : Option Nat :=
  let e1 := bfld (s.hbmRead a1 8) 0 8
  let t := bits e1 43 12 * 4096
  if s.hbmPoisoned a1 8 ∨ !bit e1 0 ∨ bits e1 11 8 ≠ 0 ∨ bits e1 63 44 ≠ 0 ∨ bit e1 1 ∨ hbmEnd < t + 4096 then none
  else some (t + 8 * bits va 29 21)

/-- A walk through the slices: at most two reads, charged to the partition that XLATE names (R379, R387). -/
def State.walkThrough (s : State) (root : Option (Nat × Nat)) (va : Nat) : State × Except (Nat × Nat) XlEnt :=
  match root with
  | none => (s, s.walk root va)
  | some (ntop, base) =>
    let a1 := base + 8 * bits va 51 30
    if 2 ^ 52 ≤ va ∨ ntop ≤ bits va 51 30 ∨ hbmEnd < a1 + 8 then (s, s.walk root va)
    else
      let s := s.touch a1 8 s.cfg.tblpart false false
      match s.walkNext a1 va with
      | none => (s, s.walk root va)
      | some a2 =>
        let s := s.touch a2 8 s.cfg.tblpart false false
        (s, s.walk root va)

/-- A core's cache with a leaf that a walk found; every older entry that it meets is gone, so no access returns to an old translation
(R386). -/
def Core.xlKeep (co : Core) (e : XlEnt) : Core := { co with xlCache := (e :: co.xlCache.filter (fun x => !e.meets x)).take 128 }

/-- Translation of one address for an access of a core: through the core's cache, or by a walk that fills it. Whether a
cached entry is still held is a free value; an evicted entry is gone whatever the walk finds (R386; log entry 16). -/
def State.xlate (s : State) (n : Nat) (root : Option (Nat × Nat)) (va : Nat) (rd wr : Bool) :
    State × Except XlErr (Nat × Nat) :=
  let co := s.core n
  let finish (s : State) (e : XlEnt) : State × Except XlErr (Nat × Nat) :=
    if (rd && !e.rd) || (wr && !e.wr) then (s, .error ⟨2, 0, va, wr⟩)
    else (s, .ok (e.frame + va % e.size, e.part))
  let fill (s : State) : State × Except XlErr (Nat × Nat) :=
    let s := s.modCore n (fun co => { co with xlCache := co.xlCache.filter (fun x => !(x.covers va)) })
    match s.walkThrough root va with
    | (s, .error (r, a)) => (s, .error ⟨r, a, va, wr⟩)
    | (s, .ok e) => finish (s.modCore n (fun co => co.xlKeep e)) e
  match co.xlCache.find? (fun e => e.covers va) with
  | some e =>
    let s' := { s with free := s.free + 1 }
    if Config.draw s.free % 2 = 0 then finish s' e else fill s'
  | none => fill s

/-- A range cut at 2 MiB boundaries: start and length of each part. -/
def pagesOf (a n : Nat) : List (Nat × Nat) :=
  if n = 0 then []
  else
    (List.range ((a + n - 1) / 2097152 + 1 - a / 2097152)).map (fun i =>
      let lo := max a ((a / 2097152 + i) * 2097152)
      let hi := min (a + n) ((a / 2097152 + i + 1) * 2097152)
      (lo, hi - lo))

/-- Every part of a range translated: local address, length and partition of each, or the first fault (R385). -/
def State.xlRange (s : State) (n : Nat) (root : Option (Nat × Nat)) (rd wr : Bool) :
    List (Nat × Nat) → State × Except XlErr (List (Nat × (Nat × Nat)))
  | [] => (s, .ok [])
  | (a, len) :: r =>
    match s.xlate n root a rd wr with
    | (s, .error e) => (s, .error e)
    | (s, .ok (l, part)) =>
      match s.xlRange n root rd wr r with
      | (s, .error e) => (s, .error e)
      | (s, .ok ps) => (s, .ok ((l, (len, part)) :: ps))

/-- Where the bytes of an access lie: parts of the core store of a core, or parts of local HBM. -/
inductive Place where
  | store (n a len : Nat)
  | hbm (parts : List (Nat × (Nat × Nat)))
  deriving DecidableEq, Repr

/-- The place of an access in a space: the core store, or job virtual addresses translated for the access. -/
def State.place (s : State) (n : Nat) (root : Option (Nat × Nat)) (virt : Bool) (a len : Nat) (rd wr : Bool) :
    State × Except XlErr Place :=
  if virt then
    match s.xlRange n root rd wr (pagesOf a len) with
    | (s, .error e) => (s, .error e)
    | (s, .ok ps) => (s, .ok (.hbm ps))
  else (s, .ok (.store n a len))

/-- Marked bytes of a place. -/
def State.pget (s : State) : Place → List PByte
  | .store n a len => (s.core n).pread a len
  | .hbm ps => ps.flatMap (fun p => s.hread p.1 p.2.1)

/-- The home slices of a place accessed. -/
def State.ptouch (s : State) (write : Bool) : Place → State
  | .store _ _ _ => s
  | .hbm ps => ps.foldl (fun s p => s.touch p.1 p.2.1 p.2.2 write false) s

/-- A place read through its home slices. -/
def State.pread (s : State) (p : Place) : State × List PByte :=
  let s := s.ptouch false p
  (s, s.pget p)

/-- Marked bytes written to a place. -/
def State.pput (s : State) (bs : List PByte) : Place → State
  | .store n a _ => s.modCore n (fun co => co.pwrite a bs)
  | .hbm ps => (ps.foldl (fun (q : State × List PByte) p => (q.1.hwrite p.1 (q.2.take p.2.1), q.2.drop p.2.1)) (s, bs)).1

/-- The event code of a translation fault (R390). -/
def XlErr.code (e : XlErr) : Nat := 0x2200 + e.reason

/-- A translation fault: XL_FAULT set, the instruction's cursor and fault flag recorded, and the cell's resolvable fault
raised (R385, R389, R472, R473). -/
def State.xlFault (s : State) (k n st ord cursor : Nat) (e : XlErr) : State :=
  let s := s.modCore n (fun co =>
    { co.modEntry st ord (fun x => { x with cursor := BitVec.ofNat 64 cursor, faulted := true }) with
      xlFault := BitVec.ofNat 64 (e.va % 2 ^ 52 + e.reason * 2 ^ 52 + b2n e.write * 2 ^ 55) })
  let last : EvF := if e.reason = 1 ∨ e.reason = 2 then .val 1 (b2n e.write) else .val 8 e.entry
  s.raiseFault k e.code [.core n, .val 8 e.va, last] ((s.cell k).lcore n) st ord true

end Sys2Proof.Machine
end

