-- ==== Sys2Proof/Machine/Dma.lean ====
section
/-! DEFINITION. Local transfers of the DMA stream: DMA, COPY, XPOSE, PERMUTE, GATHER, SCATTER (R309 to R317, R344 to
R360). The data moves when the command is taken, element by element from the cursor, up to the end or a translation
fault; DMA_COMPLETE ends the instruction (log entry 17). -/
namespace Sys2Proof.Machine
open Sys2Proof

/-- A DATA_PARAM refusal for a failing field (R333). -/
def dataBad (opc : Nat) (f : Option Nat) : Except Refuse Unit :=
  match f with
  | none => .ok ()
  | some n => .error (paramBad 0x520F opc n)

/-- Checks of an address field of 8 bytes: a job virtual address has zero upper bits; a core-store offset uses 4 bytes
(R312). -/
def addrField (b : List Byte) (off : Nat) (virt : Bool) : List (Nat × Bool) :=
  if virt then [(off, decide (bfld b off 8 < 2 ^ 52))]
  else (List.range 4).map (fun i => (off + 4 + i, decide (b.getD (off + 4 + i) 0 = 0)))

/-- An address field's value in its space. -/
def addrOf (b : List Byte) (off : Nat) (virt : Bool) : Nat := if virt then bfld b off 8 else bfld b off 4

/-- Some row of `rows` rows of `len` bytes at a stride touches the range from lo to hi. -/
def rowsHit (base rows stride len lo hi : Nat) : Bool :=
  let x := if lo < base + len ∨ stride = 0 then 0 else (lo - base - len) / stride + 1
  decide (x < rows ∧ base + x * stride < hi ∧ lo < base + x * stride + len)

/-- Rows lie in the core store. -/
def rowsIn (base rows stride len : Nat) : Bool := decide (rows = 0) || inStore base ((rows - 1) * stride + len)

/-- Rows may be a destination: in the core store and clear of the ranges of R329 and R353. -/
def rowsDst (c : Cell) (base rows stride len : Nat) : Bool :=
  rowsIn base rows stride len && !rowsHit base rows stride len ringBase (ringBase + 0x18000) &&
  !rowsHit base rows stride len c.pwin (c.pwin + 4096) &&
  (match c.bounce with | none => true | some b => !rowsHit base rows stride len b (b + 4194304))

/-! Element adds (R310). -/

/-- Bytes of an add type: FP32, BF16, INT32, INT64. -/
def atSize (t : Nat) : Nat := match t with | 0 => 4 | 1 => 2 | 2 => 4 | _ => 8

/-- One add of a type: the sum and its flags; integers wrap. -/
def atAdd (t a b : Nat) : Nat × Nat :=
  match t with
  | 0 => fp32.rne ((fp32.dec a).add (fp32.dec b))
  | 1 => bf16.rne ((bf16.dec a).add (bf16.dec b))
  | 2 => ((a + b) % 2 ^ 32, 0)
  | _ => ((a + b) % 2 ^ 64, 0)

/-- Marked bytes added element by element: the sums, poisoned where either input is, and the flags. -/
def addBytes (t : Nat) (a b : List PByte) : List PByte × Nat :=
  let w := atSize t
  let rs := (List.range (a.length / w)).map (fun i =>
    let x := (a.drop (i * w)).take w
    let y := (b.drop (i * w)).take w
    let (r, f) := atAdd t (pNat x) (pNat y)
    (pBytes w r (anyPois x || anyPois y), f))
  (rs.flatMap Prod.fst, orFlags (rs.map Prod.snd))

/-! Transfers. -/

/-- What one element of a transfer does: source and destination, or a skip; RANGE; poison of its index. -/
structure Elem where
  /-- Source and destination address; none for a skipped row. -/
  ends : Option (Nat × Nat) := none
  /-- The skip sets RANGE. -/
  range : Bool := false
  /-- The index is poisoned. -/
  pois : Bool := false
  deriving DecidableEq, Repr

/-- A transfer in element order. -/
structure Xfer where
  /-- Elements. -/
  count : Nat
  /-- Bytes of an element. -/
  len : Nat
  /-- The source is in job virtual space. -/
  sv : Bool
  /-- The destination is in job virtual space. -/
  dv : Bool
  /-- Element k, with the core as it is then. -/
  elem : Core → Nat → Elem
  /-- Hull intersection of a bounced transfer. -/
  meet : Option (Nat × Nat) := none
  /-- Add type of an accumulating transfer. -/
  acc : Option Nat := none
  /-- An overlapping transfer without the bounce buffer, whose elements are all read before any is written (R349). -/
  early : Bool := false

/-- An address that may be negative, as the unsigned number it wraps to; every such number is past the job virtual
space. -/
def vaOf (i : Int) : Nat := sNat 64 i

/-- The add type of a word with ACC set (R310). -/
def accOfWord (w : BitVec 128) : Option Nat := if wModBit w 0 then some (bits (wMod w) 2 1) else none

/-- LINEAR (R314, R349): 64 B units, descending where the destination overlaps above the source. -/
def linearX (w : BitVec 128) (b : List Byte) : Xfer :=
  let sp := bfld b 1 1
  let sv := bit sp 0
  let dv := bit sp 1
  let src := addrOf b 8 sv
  let dst := addrOf b 16 dv
  let n := bfld b 24 8 / 64
  let down := sv == dv && decide (src < dst ∧ dst < src + 64 * n)
  ⟨n, 64, sv, dv, fun _ k => let i := if down then n - 1 - k else k; ⟨some (src + 64 * i, dst + 64 * i), false, false⟩,
   none, accOfWord w, false⟩

/-- The hull intersection of two hulls in one space, none where they share no byte (R348). -/
def meetOf (same : Bool) (a b : Int × Int) : Option (Nat × Nat) :=
  if same && decide (0 < hullShare a b) then some ((hullMeet a b).1.toNat, (hullMeet a b).2.toNat) else none

/-- FWDVIEW (R314, R356): bytes 0 to 127 of each line; where it overlaps, all of them read first (R349; log entry 17). -/
def fwdX (b : List Byte) : Xfer :=
  let sp := bfld b 1 1
  let sv := bit sp 0
  let dv := bit sp 1
  let n := bfld b 24 8
  let src := addrOf b 8 sv
  let dst := addrOf b 16 dv
  { count := n, len := 128, sv := sv, dv := dv,
    elem := fun _ k => ⟨some (src + 256 * k, dst + k * bfld b 48 4), false, false⟩,
    early := (meetOf (sv == dv) (rowsHull src n 256 128) (rowsHull dst n (bfld b 48 4) 128)).isSome }

/-- The hull of a descriptor's local view. -/
def State.tdHull (s : State) (c : Cell) (l : Nat) (t : TDesc) : Int × Int :=
  hullOf t.base t.steps (s.tdExts c l t) (tyBytes t.ty)

/-- TENSOR (R314, R346): source element k goes to destination element k. -/
def State.tensorX (s : State) (c : Cell) (l : Nat) (w : BitVec 128) (b : List Byte) : Xfer :=
  let a := tdOf (bsub b 64 128)
  let d := tdOf (bsub b 192 128)
  let ns := s.tdExts c l a
  ⟨viewCount ns, tyBytes a.ty, a.virt, d.virt,
   fun _ k => ⟨some (vaOf (elemAddr a.base a.steps ns k), vaOf (elemAddr d.base d.steps (s.tdExts c l d) k)), false, false⟩,
   meetOf (a.virt == d.virt) (s.tdHull c l a) (s.tdHull c l d), accOfWord w, false⟩

/-- XPOSE (R316): ascending r, then c, with c fastest (R347). -/
def xposeX (b : List Byte) : Xfer :=
  let es := bfld b 0 1
  let r := bfld b 12 4
  let c := bfld b 16 4
  ⟨r * c, es, false, false,
   fun _ k => ⟨some (bfld b 4 4 + k / c * bfld b 20 4 + k % c * es, bfld b 8 4 + k % c * bfld b 24 4 + k / c * es), false, false⟩,
   meetOf true (rowsHull (bfld b 4 4) r (bfld b 20 4) (c * es)) (rowsHull (bfld b 8 4) c (bfld b 24 4) (r * es)), none, false⟩

/-- Entry d of PERM (R312). -/
def permAt (b : List Byte) (d : Nat) : Nat := bits (bfld b 8 4) (3 * d + 2) (3 * d)

/-- PERMUTE (R316, R347): the destination's element order; source index PERM[d] is destination index d. -/
def State.permuteX (s : State) (c : Cell) (l : Nat) (b : List Byte) : Xfer :=
  let a := tdOf (bsub b 64 128)
  let d := tdOf (bsub b 192 128)
  let ns := s.tdExts c l a
  let ds := s.tdExts c l d
  ⟨viewCount ds, tyBytes a.ty, a.virt, d.virt,
   fun _ k =>
    let j := viewIdx ds k
    let i := (List.range ns.length).map (fun p =>
      ((List.range ds.length).find? (fun q => permAt b q == p)).elim 0 (fun q => j.getD q 0))
    ⟨some (vaOf (elemAddr a.base a.steps ns (viewLin ns i)), vaOf (elemAddr d.base d.steps ds k)), false, false⟩,
   meetOf (a.virt == d.virt) (s.tdHull c l a) (s.tdHull c l d), none, false⟩

/-- GATHER and SCATTER (R317): the skip tests on index i, then one row. -/
def indexX (scatter : Bool) (w : BitVec 128) (b : List Byte) : Xfer :=
  let v := bit (bfld b 16 1) 0
  let rb := bfld b 24 4
  let n := bfld b 4 4
  let lin (i : Nat) : Nat := bfld b 32 4 + i * bfld b 36 4
  let idx := rowsHull (bfld b 8 8) (bfld b 20 4) (bfld b 28 4) rb
  let ln := rowsHull (bfld b 32 4) n (bfld b 36 4) rb
  ⟨n, rb, !scatter && v, scatter && v,
   fun co k =>
    let a := bfld b 0 4 + 4 * k
    let x := bfld (co.read a 4) 0 4
    let p := co.poisoned a 4
    if x = 0xFFFFFFFF then ⟨none, false, p⟩
    else if bfld b 20 4 ≤ x then ⟨none, true, p⟩
    else
      let e := addrOf b 8 v + x * bfld b 28 4
      ⟨some (if scatter then (lin k, e) else (e, lin k)), false, p⟩,
   if scatter then meetOf (!v) ln idx else meetOf (!v) idx ln, if scatter then accOfWord w else none, false⟩

/-- The transfer that an entry of the DMA stream performs. -/
def State.xferOf (s : State) (c : Cell) (l : Nat) (e : Entry) : Xfer :=
  let b := e.block
  match wOpc e.word with
  | 0x80 => if bfld b 0 1 = 0 then linearX e.word b else if bfld b 0 1 = 1 then s.tensorX c l e.word b else fwdX b
  | 0x82 => xposeX b
  | 0x83 => s.permuteX c l b
  | 0x84 => indexX false e.word b
  | _ => indexX true e.word b

/-! The run of a transfer. -/

/-- What a run gathers. -/
structure XferOut where
  /-- Elements moved. -/
  moved : Nat := 0
  /-- Rows skipped. -/
  skipped : Nat := 0
  /-- FLAGS. -/
  flags : Nat := 0
  /-- An output carries poison (R330). -/
  pois : Bool := false
  /-- Core-store writes: address, bytes, poison. -/
  store : List (Nat × (Nat × Bool)) := []
  /-- HBM writes: address, bytes, poison. -/
  hbm : List (Nat × (Nat × Bool)) := []
  deriving DecidableEq, Repr

/-- What a run has gathered with one element more written to a place. -/
def XferOut.wrote (o : XferOut) (p : Place) (bs : List PByte) : XferOut :=
  let q := anyPois bs
  let o := { o with moved := o.moved + 1, flags := o.flags ||| (if q then fPOISON else 0), pois := o.pois || q }
  match p with
  | .store _ a len => { o with store := o.store ++ [(a, (len, q))] }
  | .hbm ps => { o with hbm := o.hbm ++ ps.map (fun r => (r.1, (r.2.1, q))) }

/-- Marked source bytes of an element: from the bounce buffer where they lie in the intersection, else from memory. -/
def State.xferRead (s : State) (n : Nat) (c : Cell) (x : Xfer) (a : Nat) : State × Except XlErr (List PByte) :=
  let read (s : State) (a len : Nat) : State × Except XlErr (List PByte) :=
    match s.place n c.root x.sv a len true false with
    | (s, .error e) => (s, .error e)
    | (s, .ok p) =>
      let (s, bs) := s.pread p
      (s, .ok bs)
  match x.meet, c.bounce with
  | some (lo, hi), some bb =>
    let e := a + x.len
    let m1 := min e (max a lo)
    let m2 := max m1 (min e hi)
    match read s a (m1 - a) with
    | (s, .error er) => (s, .error er)
    | (s, .ok p1) =>
      match read s m2 (e - m2) with
      | (s, .error er) => (s, .error er)
      | (s, .ok p3) => (s, .ok (p1 ++ (s.core n).pread (bb + (m1 - lo)) (m2 - m1) ++ p3))
  | _, _ => read s a x.len

/-- One element: read, add where the transfer accumulates, write (R314, R317, R345). -/
def State.xferElem (s : State) (n : Nat) (c : Cell) (x : Xfer) (el : Elem) (o : XferOut) :
    State × Except XlErr XferOut :=
  let o := { o with flags := o.flags ||| (if el.pois then fPOISON else 0) ||| (if el.range then fRANGE else 0) }
  match el.ends with
  | none => (s, .ok { o with skipped := o.skipped + 1 })
  | some (sa, da) =>
    match s.xferRead n c x sa with
    | (s, .error e) => (s, .error e)
    | (s, .ok bs) =>
      match s.place n c.root x.dv da x.len x.acc.isSome true with
      | (s, .error e) => (s, .error e)
      | (s, .ok p) =>
        let bs := if el.pois then bs.map (fun q => (q.1, true)) else bs
        let (s, out, fl) := match x.acc with
          | none => (s, bs, 0)
          | some t =>
            let (s, old) := s.pread p
            (s, addBytes t old bs)
        let s := (s.ptouch true p).pput out p
        (s, .ok ({ o with flags := o.flags ||| fl }.wrote p out))

/-- Elements k on, while fuel lasts: the state, the element reached and the fault that stopped it. -/
def State.xferLoop (n : Nat) (c : Cell) (x : Xfer) : Nat → State → Nat → XferOut → State × (Nat × (XferOut × Option XlErr))
  | 0, s, k, o => (s, k, o, none)
  | fuel + 1, s, k, o =>
    match s.xferElem n c x (x.elem (s.core n) k) o with
    | (s, .error e) => (s, k, o, some e)
    | (s, .ok o) => State.xferLoop n c x fuel s (k + 1) o

/-- The first phase of a bounced transfer: the bytes of the intersection copied into the bounce buffer (R349; their place
in the buffer is log entry 17). -/
def State.bounceIn (n : Nat) (c : Cell) (virt : Bool) (bb : Nat) : List (Nat × (Nat × Nat)) → State → State × Option XlErr
  | [], s => (s, none)
  | (a, off, len) :: r, s =>
    match s.place n c.root virt a len true false with
    | (s, .error e) => (s, some e)
    | (s, .ok p) =>
      let (s, bs) := s.pread p
      State.bounceIn n c virt bb r (s.modCore n (fun co => co.pwrite (bb + off) bs))

/-- The elements of a transfer read, and the places of their destinations found, before any is written; a fault leaves nothing
written (R349). -/
def State.readAhead (n : Nat) (c : Cell) (x : Xfer) : List Nat → State → State × Except XlErr (List (List PByte × Place))
  | [], s => (s, .ok [])
  | k :: r, s =>
    match (x.elem (s.core n) k).ends with
    | none => State.readAhead n c x r s
    | some (sa, da) =>
      match s.xferRead n c x sa with
      | (s, .error e) => (s, .error e)
      | (s, .ok bs) =>
        match s.place n c.root x.dv da x.len false true with
        | (s, .error e) => (s, .error e)
        | (s, .ok p) =>
          match State.readAhead n c x r s with
          | (s, .error e) => (s, .error e)
          | (s, .ok l) => (s, .ok ((bs, p) :: l))

/-- The fields that a run has gathered so far, added to those of the entry (R331). -/
def XferOut.into (o : XferOut) (e : Entry) : Entry :=
  let idx := wOpc e.word = 0x84 ∨ wOpc e.word = 0x85
  let old := (e.fields.getD 0 0).toNat + (e.fields.getD 1 0).toNat * 2 ^ 32
  let m := old + o.moved
  { e with flags := e.flags ||| o.flags, status := if o.pois then e.status ||| 1 else e.status,
           fields := if idx then [BitVec.ofNat 32 ((e.fields.getD 0 0).toNat + o.moved),
                                  BitVec.ofNat 32 ((e.fields.getD 1 0).toNat + o.skipped)]
                     else [BitVec.ofNat 32 m, BitVec.ofNat 32 (m / 2 ^ 32)] }

/-- A transfer runs from its cursor, to its end or to a translation fault (R358 to R360). -/
def State.runXfer (s : State) (k n : Nat) (e : Entry) : State :=
  let c := s.cell k
  let x := s.xferOf c (c.lcore n) e
  let cur := e.cursor.toNat
  let el := cur % 2 ^ 48
  let p1 := match x.meet, c.bounce with
    | some (lo, hi), some bb =>
      if bit cur 63 then (s, none)
      else
        let cuts := (List.range (ceilDiv (hi - lo) 64)).map (fun i => (lo + 64 * i, 64 * i, min 64 (hi - (lo + 64 * i))))
        State.bounceIn n c x.sv bb cuts s
    | _, _ => (s, none)
  match p1 with
  | (s, some er) => s.xlFault k n 4 e.ord el er
  | (s, none) =>
    let ph := if x.meet.isSome then 2 ^ 63 else 0
    let fin (s : State) (i : Nat) (o : XferOut) : State :=
      (s.clearCovered n o.store o.hbm).modCore n (fun co => co.modEntry 4 e.ord (fun e =>
        { o.into e with cursor := BitVec.ofNat 64 (ph + i), done := true, faulted := false }))
    if x.early then
      match State.readAhead n c x ((List.range (x.count - el)).map (el + ·)) s with
      | (s, .error er) => s.xlFault k n 4 e.ord el er
      | (s, .ok l) =>
        let s := l.foldl (fun s q => (s.ptouch true q.2).pput q.1 q.2) s
        fin s (max el x.count) (l.foldl (fun o q => o.wrote q.2 q.1) {})
    else
      match State.xferLoop n c x (x.count - el) s el {} with
      | (s, i, o, some er) =>
        ((s.clearCovered n o.store o.hbm).modCore n (fun co => co.modEntry 4 e.ord o.into)).xlFault k n 4 e.ord (ph + i) er
      | (s, i, o, none) => fin s i o

/-! COPY (R315). -/

/-- COPY: all bytes read, then all written, between the core store and the tile registers; its cursor counts units of 64 B (R315, R358). -/
def Core.runCopy (co : Core) (e : Entry) : Core :=
  let b := e.block
  let kd := bfld b 0 1
  let len := bfld b 12 4
  let bs := if bit kd 0 then co.ptread (bfld b 4 4) len else co.pread (bfld b 4 4) len
  let co := if bit kd 1 then co.ptwrite (bfld b 8 4) bs else co.pwrite (bfld b 8 4) bs
  let p := anyPois bs
  co.modEntry 4 e.ord (fun e =>
    { e with done := true, cursor := BitVec.ofNat 64 (len / 64), fields := [BitVec.ofNat 32 (len / 64), 0], status := e.status ||| b2n p,
             flags := e.flags ||| (if p then fPOISON else 0) })

/-! Plans. -/

/-- The overlap rule at issue (R350). -/
def overlapOk (c : Cell) (opc : Nat) (m : Option (Nat × Nat)) : Except Refuse Unit :=
  match m with
  | none => .ok ()
  | some (lo, hi) =>
    chk (c.bounce.isSome && decide (hi - lo ≤ 4194304)) (0x5213, [.val 2 opc, .val 4 (hi - lo)])

/-- The bounce buffer is taken by a bounced transfer (R351). -/
def takeBounce (ord : Nat) (m : Option (Nat × Nat)) (co : Core) : Core :=
  if m.isSome then { co with bounceBusy := some ord } else co

/-- The start cursor that a block names lies below the element count, or is 0 (R358, R360). -/
def cursorOk (cur count : Nat) : Bool :=
  decide (bits cur 62 48 = 0) && decide (cur % 2 ^ 48 = 0 ∨ cur % 2 ^ 48 < count)

/-- The range of a descriptor's view as a destination in the core store. -/
def State.tdDst (s : State) (x : IssueCtx) (t : TDesc) : Bool :=
  let ns := s.tdExts x.c x.l t
  t.virt || (List.range (viewCount ns)).all (fun k =>
    let a := elemAddr t.base t.steps ns k
    decide (0 ≤ a) && dstOk x.c a.toNat (tyBytes t.ty))

/-- The core-store bytes of a descriptor's view, element by element, for the hazard detector (R270). -/
def State.tdRange (s : State) (x : IssueCtx) (t : TDesc) : List (Nat × Nat) :=
  if t.virt then []
  else
    let ns := s.tdExts x.c x.l t
    (List.range (viewCount ns)).map (fun k => ((elemAddr t.base t.steps ns k).toNat, tyBytes t.ty))

/-- Rows of a length that lie a stride apart, for the hazard detector (R270). -/
def rowRanges (a n stride len : Nat) : List (Nat × Nat) := (List.range n).map (fun i => (a + i * stride, len))

/-- The lowest failing field of two descriptors: 0x200 and 0x280 plus the offset (R627). -/
def State.descsBad (s : State) (x : IssueCtx) (a d : List Byte) : Option Nat :=
  match s.tdBad x.c x.l a with
  | some o => some (0x200 + o)
  | none => (s.tdBad x.c x.l d).map (0x280 + ·)

/-- The first dimension at which two lists of extents differ. -/
def firstDiff : List Nat → List Nat → Nat → Option Nat
  | a :: r, b :: q, i => if a = b then firstDiff r q (i + 1) else some i
  | [], [], _ => none
  | _, _, i => some i

/-- DMA's plan (R312, R314, R346). -/
def planDma (s : State) (w : BitVec 128) (x : IssueCtx) : Except Refuse Plan := do
  let b ← rdBlock x.co 0x80 (64 * wf w 71 53) 64 64
  let form := bfld b 0 1
  let ten := form == 1
  let a ← (if ten then rdDesc x.co 0x80 (bfld b 32 4) else pure [])
  let d ← (if ten then rdDesc x.co 0x80 (bfld b 36 4) else pure [])
  let acc := wModBit w 0
  let at_ := bits (wMod w) 2 1
  let sv := bit (bfld b 1 1) 0
  let dv := bit (bfld b 1 1) 1
  let len := bfld b 24 8
  let ta := tdOf a
  let td := tdOf d
  let full := b ++ a ++ d
  let x' := s.xferOf x.c x.l { word := w, block := full }
  let accTy := match at_ with | 0 => 0 | 1 => 1 | 2 => 16 | _ => 17
  dataBad 0x80 (blockChecks b [(0, 2), (8, 24), (32, 20)]
    ([(0, decide (form ≤ 2) && !(form == 2 && acc)), (1, decide (bfld b 1 1 < 4))] ++
     (if ten then [] else addrField b 8 sv ++ addrField b 16 dv) ++
     (if form = 0 then [(24, decide (len % 64 = 0 ∧ 64 ≤ len ∧ len ≤ 2 ^ 40))] else []) ++
     (if form = 2 then [(24, decide (1 ≤ len ∧ len ≤ 16777216)), (48, decide (bfld b 48 4 % 128 = 0))] else []) ++
     [(if ten then 40 else 24, cursorOk (bfld b 40 8) x'.count || decide (bits (bfld b 40 8) 62 48 ≠ 0)),
      (40, decide (bits (bfld b 40 8) 62 48 = 0))]))
  if ten then
    dataBad 0x80 (if acc && !(ta.ty == accTy) then some 0x161 else s.descsBad x a d)
    dataBad 0x80 (if ta.ty ≠ td.ty then some 0x208 else if ta.dims.length ≠ td.dims.length then some 0x209
      else (firstDiff (s.tdLens x.c x.l ta) (s.tdLens x.c x.l td) 0).map (fun i => 0x220 + 16 * i))
  let sa := addrOf b 8 sv
  let da := addrOf b 16 dv
  let st := if form = 2 then 256 else 64
  let dt := if form = 2 then bfld b 48 4 else 64
  chk (if ten then s.tdDst x td
       else (sv || rowsIn sa x'.count st x'.len) && (dv || rowsDst x.c da x'.count dt x'.len)) (opndBad 0x80 1)
  overlapOk x.c 0x80 x'.meet
  let hull (v : Bool) (a t : Nat) : List (Nat × Nat) := if v then [] else rowRanges a x'.count t x'.len
  pure { entry := { block := full, unit := x.ord % 2, cursor := BitVec.ofNat 64 (bfld b 40 8) },
         reads := (if ten then s.tdRange x ta else hull sv sa st) ++
                  (if acc then (if ten then s.tdRange x td else hull dv da dt) else []),
         writes := if ten then s.tdRange x td else hull dv da dt,
         upd := takeBounce x.ord x'.meet }

/-- Tile registers that a byte range touches. -/
def tregsOf (a n : Nat) : List Nat := (List.range ((a + n - 1) / 16384 + 1 - a / 16384)).map (a / 16384 + ·)

/-- COPY's plan (R312, R315). -/
def planCopy (w : BitVec 128) (x : IssueCtx) : Except Refuse Plan := do
  let b ← rdBlock x.co 0x81 (64 * wf w 71 53) 64 64
  let kd := bfld b 0 1
  let src := bfld b 4 4
  let dst := bfld b 8 4
  let len := bfld b 12 4
  dataBad 0x81 (blockChecks b [(0, 1), (4, 12)]
    [(0, decide (kd < 4)), (4, !(bit kd 0) || decide (src + len ≤ 524288)), (8, !(bit kd 1) || decide (dst + len ≤ 524288)),
     (12, decide (len % 64 = 0 ∧ 64 ≤ len ∧ len ≤ 2097152))])
  chk ((bit kd 0 || inStore src len) && (bit kd 1 || dstOk x.c dst len)) (opndBad 0x81 1)
  pure { entry := { block := b, unit := x.ord % 2 },
         reads := if bit kd 0 then [] else [(src, len)], writes := if bit kd 1 then [] else [(dst, len)],
         tr := if bit kd 0 then tregsOf src len else [], tw := if bit kd 1 then tregsOf dst len else [] }

/-- XPOSE's plan (R312, R316, R350). -/
def planXpose (w : BitVec 128) (x : IssueCtx) : Except Refuse Plan := do
  let b ← rdBlock x.co 0x82 (64 * wf w 71 53) 64 64
  let es := bfld b 0 1
  let r := bfld b 12 4
  let c := bfld b 16 4
  dataBad 0x82 (blockChecks b [(0, 1), (4, 24)]
    [(0, decide (es = 1 ∨ es = 2 ∨ es = 4)), (12, decide (1 ≤ r ∧ r ≤ 65536)), (16, decide (1 ≤ c ∧ c ≤ 65536))])
  chk (rowsIn (bfld b 4 4) r (bfld b 20 4) (c * es) && rowsDst x.c (bfld b 8 4) c (bfld b 24 4) (r * es)) (opndBad 0x82 1)
  let x' := xposeX b
  overlapOk x.c 0x82 x'.meet
  pure { entry := { block := b, unit := x.ord % 2 },
         reads := rowRanges (bfld b 4 4) r (bfld b 20 4) (c * es), writes := rowRanges (bfld b 8 4) c (bfld b 24 4) (r * es),
         upd := takeBounce x.ord x'.meet }

/-- PERM names each source dimension exactly once (R316). -/
def permOk (b : List Byte) (rank : Nat) : Bool :=
  (List.range rank).all (fun p => ((List.range rank).filter (fun d => permAt b d == p)).length == 1)

/-- PERMUTE's plan (R312, R316, R347, R350). -/
def planPermute (s : State) (w : BitVec 128) (x : IssueCtx) : Except Refuse Plan := do
  let b ← rdBlock x.co 0x83 (64 * wf w 71 53) 64 64
  let a ← rdDesc x.co 0x83 (bfld b 0 4)
  let d ← rdDesc x.co 0x83 (bfld b 4 4)
  let ta := tdOf a
  let td := tdOf d
  let diff (f : TDesc → List Nat) : Option Nat :=
    firstDiff ((List.range td.dims.length).map (fun i => (f ta).getD (permAt b i) 0)) (f td) 0
  dataBad 0x83 (blockChecks b [(0, 12)] [(8, permOk b ta.dims.length && decide (bfld b 8 4 < 2 ^ 18))])
  dataBad 0x83 (s.descsBad x a d)
  dataBad 0x83 (if ta.ty ≠ td.ty then some 0x208 else if ta.dims.length ≠ td.dims.length then some 0x209
    else ((diff (s.tdLens x.c x.l)).orElse (fun _ => diff (s.tdExts x.c x.l))).map (fun i => 0x220 + 16 * permAt b i))
  chk (s.tdDst x td) (opndBad 0x83 1)
  let full := b ++ a ++ d
  let x' := s.permuteX x.c x.l full
  overlapOk x.c 0x83 x'.meet
  pure { entry := { block := full, unit := x.ord % 2 }, reads := s.tdRange x ta, writes := s.tdRange x td,
         upd := takeBounce x.ord x'.meet }

/-- The plan of GATHER and SCATTER (R312, R317, R350). -/
def planIndex (scatter : Bool) (w : BitVec 128) (x : IssueCtx) : Except Refuse Plan := do
  let opc := if scatter then 0x85 else 0x84
  let b ← rdBlock x.co opc (64 * wf w 71 53) 64 64
  let v := bit (bfld b 16 1) 0
  let n := bfld b 4 4
  let rb := bfld b 24 4
  let xrs := bfld b 28 4
  let nr := bfld b 20 4
  let xb := addrOf b 8 v
  let lb := bfld b 32 4
  let lrs := bfld b 36 4
  let part := scatter && wModBit w 0 && decide (xrs < rb ∧ xrs % atSize (bits (wMod w) 2 1) ≠ 0 ∧ 1 < nr)
  dataBad opc (blockChecks b [(0, 17), (20, 20)] ([(0, decide (bfld b 0 4 % 4 = 0)), (4, decide (1 ≤ n ∧ n ≤ 1048576))] ++
    addrField b 8 v ++ [(16, decide (bfld b 16 1 < 2)), (24, decide (rb % 64 = 0 ∧ 64 ≤ rb ∧ rb ≤ 65536) && !part)]))
  chk (inStore (bfld b 0 4) (4 * n) &&
       (if scatter then rowsIn lb n lrs rb && (v || rowsDst x.c xb nr xrs rb)
        else (v || rowsIn xb nr xrs rb) && rowsDst x.c lb n lrs rb)) (opndBad opc 1)
  let x' := indexX scatter w b
  overlapOk x.c opc x'.meet
  let lin := rowRanges lb n lrs rb
  let idx := if v then [] else rowRanges xb nr xrs rb
  pure { entry := { block := b, unit := x.ord % 2 },
         reads := [(bfld b 0 4, 4 * n)] ++ (if scatter then lin else idx),
         writes := if scatter then idx else lin, upd := takeBounce x.ord x'.meet }

/-! Issue and run. -/

/-- The entry of a DMA-stream instruction that has just issued. -/
def State.justIssued (s s' : State) (n : Nat) : Option Entry :=
  let ord := tabGet 0 (s.core n).ord 4
  match (s.core n).entry 4 ord with
  | some _ => none
  | none => (s'.core n).entry 4 ord

/-- A local transfer runs, by its opcode. -/
def State.runLocal (s : State) (n : Nat) (e : Entry) : State :=
  match s.cellOf n with
  | none => s
  | some k =>
    if wOpc e.word = 0x81 then s.modCore n (fun co => co.runCopy e) else s.runXfer k n e

/-- A local transfer issued, and run if it issued; `errs` are sectors that have come to be in error since (R369). -/
def State.issueLocal (s : State) (n opc : Nat) (w : BitVec 128) (errs : List SectorErr)
    (plan : IssueCtx → Except Refuse Plan) : State :=
  let s' := s.issue1 n 4 opc w plan
  match s.justIssued s' n with
  | none => s'
  | some e => (s'.decay errs).runLocal n e

/-- DMA: LINEAR, TENSOR or FWDVIEW (R314). -/
def execDma (core : Fin 48) (w : BitVec 128) (errs : List SectorErr) (s : State) : Res :=
  .next (s.issueLocal core 0x80 w errs (planDma s w))

/-- COPY between the core store and the tile registers (R315). -/
def execCopy (core : Fin 48) (w : BitVec 128) (s : State) : Res := .next (s.issueLocal core 0x81 w [] (planCopy w))

/-- XPOSE: a transpose (R316). -/
def execXpose (core : Fin 48) (w : BitVec 128) (s : State) : Res := .next (s.issueLocal core 0x82 w [] (planXpose w))

/-- PERMUTE: the dimensions of a tensor permuted (R316). -/
def execPermute (core : Fin 48) (w : BitVec 128) (errs : List SectorErr) (s : State) : Res :=
  .next (s.issueLocal core 0x83 w errs (planPermute s w))

/-- GATHER: indexed rows to a linear list (R317). -/
def execGather (core : Fin 48) (w : BitVec 128) (errs : List SectorErr) (s : State) : Res :=
  .next (s.issueLocal core 0x84 w errs (planIndex false w))

/-- SCATTER: a linear list to indexed rows (R317). -/
def execScatter (core : Fin 48) (w : BitVec 128) (errs : List SectorErr) (s : State) : Res :=
  .next (s.issueLocal core 0x85 w errs (planIndex true w))

end Sys2Proof.Machine
end

