-- ==== Sys2Proof/Machine/Export.lean ====
section
/-! DEFINITION. The export FIFO, delta records, refusal lists, and the HOME writes of CARVE, MODEL and UPDATE
(R151, R152, R404 to R413). -/
namespace Sys2Proof.Machine
open Sys2Proof

/-! The FIFO (R407 to R409). -/

/-- Payload words of a record (R407). -/
def ExpRec.nw (r : ExpRec) : Nat := match r.kind with | 0 => r.words.length | 1 => 1 | 2 => 32 | 3 => 2 | _ => 0

/-- Bytes of a record (R407); a step-start record has no header of its own (R493; log entry 25). -/
def ExpRec.size (r : ExpRec) : Nat := if r.kind = 5 then 8 * r.words.length else 16 + 8 * r.nw

/-- Bytes that spill: the records between the 64 oldest and the 63 newest, one after another, in units of 64 B (R408). -/
def spillBytes (q : List ExpRec) : Nat := alignUp ((((q.drop 64).take (q.length - 127)).map ExpRec.size).foldl (· + ·) 0) 64

/-- A list of records fits the registers, one tail entry kept for a gap marker, and the ring (R408). -/
def fifoFits (ring : Nat) (q : List ExpRec) : Bool := decide (q.length ≤ 127) || decide (spillBytes q ≤ ring)

/-- A gap record over a range of lines. -/
def gapRec (lo hi n : Nat) (open_ : Bool) : ExpRec := { kind := 1, line := lo, hi := hi, count := n, open_ := open_ }

/-- The newest record is an open gap marker. -/
def gapOpen (q : List ExpRec) : Bool := match q.getLast? with | some r => r.open_ | none => false

/-- The bytes of a record (R407). Kind 5, the model's own, is a step-start record queued among the line records (R493). -/
def ExpRec.bytes (r : ExpRec) : List Byte :=
  let head (map : Nat) : List Byte :=
    leBytes 4 r.stamp.toNat ++ leBytes 4 map ++ leBytes 6 r.line ++ leBytes 1 r.kind ++ leBytes 1 r.nw
  match r.kind with
  | 0 => head (r.words.foldl (fun m w => m + 2 ^ w.1) 0) ++ r.words.flatMap (fun w => leBytes 8 w.2.toNat)
  | 1 => head 0 ++ leBytes 8 (r.hi + 2 ^ 36 * min r.count (2 ^ 28 - 1))
  | 5 => r.words.flatMap (fun w => leBytes 8 w.2.toNat)
  | _ => head 0 ++ r.words.flatMap (fun w => leBytes 8 w.2.toNat)

/-- A record as its bytes in the spill ring give it back (R407, R408). -/
def ExpRec.ofRing (r : ExpRec) (b : List Byte) : ExpRec :=
  let ws (n off : Nat) : List (BitVec 64) := (List.range n).map (fun i => BitVec.ofNat 64 (bfld b (off + 8 * i) 8))
  if r.kind = 5 then { r with words := (ws r.words.length 0).zipIdx.map (fun (w, i) => (i, w)), ringAt := none }
  else
    let k := bfld b 14 1
    let idx := if k = 0 then (List.range 32).filter (fun i => bit (bfld b 4 4) i) else List.range (bfld b 15 1)
    { r with kind := k, stamp := BitVec.ofNat 32 (bfld b 0 4), line := bfld b 8 6 % 2 ^ 36, ringAt := none,
             hi := if k = 1 then bfld b 16 8 % 2 ^ 36 else 0, count := if k = 1 then bfld b 16 8 / 2 ^ 36 else 0,
             words := if k = 1 then [] else idx.zip (ws (b.length / 8 - 2) 16) }

/-- The parts of the spill ring that bytes at a position take: address, first byte, length. -/
def Cfg.ringParts (c : Cfg) (pos n : Nat) : List (Nat × (Nat × Nat)) :=
  let o := pos % c.ring.2
  let m := min n (c.ring.2 - o)
  [(c.ring.1 + o, 0, m), (c.ring.1, m, n - m)]

/-- The record at a place of the FIFO goes to the spill ring in local HBM, where it is not there yet (R408). -/
def State.spillAt (s : State) (i : Nat) : State :=
  match s.exp.fifo[i]? with
  | none => s
  | some r =>
    if r.ringAt.isSome then s
    else
      let b := r.bytes
      let s := (s.cfg.ringParts s.exp.spillPos b.length).foldl (fun s p =>
        (s.touchPhys p.1 p.2.2 true).hwrite p.1 ((bsub b p.2.1 p.2.2).map (fun x => (x, false)))) s
      { s with exp := { s.exp with fifo := s.exp.fifo.set i { r with ringAt := some s.exp.spillPos }, spillPos := s.exp.spillPos + b.length } }

/-- The records that leave the tail registers: that between the 63 newest and the 64 oldest which came last, and the one before it, which
stays behind where a gap marker took the reserved entry (R408, R409). -/
def State.spill (s : State) : State :=
  let n := s.exp.fifo.length
  ((List.range 2).filter (fun j => decide (129 ≤ n + j))).foldl (fun s j => s.spillAt (n + j - 65)) s

/-- A record that comes back from the spill ring into the head registers; a poisoned sector leaves its words unreadable (R408,
R410). -/
def State.unspill (s : State) : State :=
  match s.exp.fifo[63]? with
  | none => s
  | some r =>
    match r.ringAt with
    | none => s
    | some pos =>
      let ps := s.cfg.ringParts pos r.size
      let s := ps.foldl (fun s p => s.touchPhys p.1 p.2.2 false) s
      let bs := ps.flatMap (fun p => s.hread p.1 p.2.2)
      let r' := if anyPois bs then { r with ringAt := none, bad := true, lost := anyPois (bs.take 16) } else r.ofRing (bs.map Prod.fst)
      { s with exp := { s.exp with fifo := s.exp.fifo.set 63 r',
                                   ue := if anyPois bs then satAdd s.exp.ue 1 else s.exp.ue } }

/-- New records may be emitted: not from phase 2 of an orderly removal on (R565). -/
def State.mayEmit (s : State) : Bool := decide (s.pwr.rphase < 2)

/-- A record that arrives: accepted, closing an open gap marker, or dropped into one; from phase 2 of a removal on none is emitted (R409,
R565). -/
def State.expPush (s : State) (r : ExpRec) (step : Nat) : State :=
  let q := s.exp.fifo
  if !s.mayEmit then s
  else if fifoFits s.cfg.ring.2 (q ++ [r]) then
    { s with exp := { s.exp with fifo := q.map (fun (x : ExpRec) => { x with open_ := false }) ++ [r] } }.spill
  else
    match q.getLast? with
    | some g =>
      if g.open_ then
        let g' := { g with line := min g.line r.line, hi := max g.hi r.line, count := min (g.count + 1) (2 ^ 28 - 1) }
        { s with exp := { s.exp with fifo := q.dropLast ++ [g'] } }
      else
        let s := { s with exp := { s.exp with fifo := q ++ [gapRec r.line r.line 1 true], gaps := satAdd s.exp.gaps 1 } }
        s.log 0x8101 [.val 8 (r.line * 256), .val 4 step]
    | none => s

/-- The EXPREG item whose range holds a local address (R417). -/
def Cfg.expreg (c : Cfg) (a : Nat) : Option (Nat × (Nat × Nat)) :=
  c.expregs.find? (fun r => decide (r.1 ≤ a ∧ a < r.1 + r.2.1))

/-- The nonzero words of the XOR of two lines (R407). -/
def xorWords (old new : List Byte) : List (Nat × BitVec 64) :=
  (List.range 32).filterMap (fun i =>
    let x := BitVec.ofNat 64 (bfld old (8 * i) 8) ^^^ BitVec.ofNat 64 (bfld new (8 * i) 8)
    if x = 0 then none else some (i, x))

/-- The delta record of a committed line write; true where one was emitted (R406, R407). -/
def State.delta (s : State) (a : Nat) (old new : List Byte) (pois : Bool) (step : Nat) : State × Bool :=
  match s.cfg.expreg a with
  | none => ({ s with exp := { s.exp with noexp := satAdd s.exp.noexp 1 } }, false)
  | some _ =>
    match xorWords old new with
    | [] => (s, false)
    | ws => (s.expPush { kind := 0, line := a / 256, stamp := BitVec.ofNat 32 (bfld new 0 4), words := ws, pois := pois } step, s.mayEmit)

/-- One atomic 256 B line write at the home slice with its delta record, for which the line's old value is read (R376, R406). -/
def State.lineWrite (s : State) (a part : Nat) (line : List Byte) (pois : Bool) (step : Nat) : State × Bool :=
  let s := if (s.cfg.expreg a).isSome then s.touch a 256 part false false else s
  let old := s.hbmRead a 256
  let s := (s.touch a 256 part true false).hwrite a (line.map (fun b => (b, pois)))
  s.delta a old line pois step

/-! Refusal lists (R404, R417). -/

/-- The 16 bytes of a refusal entry (R404). -/
def refBytes (va step phase reason : Nat) : List Byte :=
  leBytes 8 va ++ leBytes 4 step ++ leBytes 1 phase ++ leBytes 1 reason ++ [0, 0]

/-- The REFLIST item of an owner: 0xFF for this device, else a mirror's source slot. -/
def Cfg.reflist (c : Cfg) (owner : Nat) : Option (Nat × Nat) :=
  (c.reflists.find? (fun r => r.2.2 == owner)).map (fun r => (r.1, r.2.1))

/-- An entry written to this device's refusal ring, and its REFUSAL record (R404, R409). -/
def State.refuseLine (s : State) (k : Nat) (h : HomeWrite) : State :=
  let c := s.cell k
  let b := refBytes h.va (c.step.toNat % 2 ^ 32) h.phase h.reason
  let s := match s.cfg.reflist 0xFF with
    | none => s
    | some (base, len) =>
      let p := s.exp.refPos % (len / 16)
      let s := (s.touchPhys (base + 16 * p) 16 true).hwrite (base + 16 * p) (b.map (fun x => (x, false)))
      { s with exp := { s.exp with refPos := p + 1 } }
  let (s, at_) := s.walkThrough c.root h.va
  let line := match at_ with
    | .ok e => (e.frame + h.va % e.size) / 256
    | .error _ => leNat ((List.range 5).map (Config.openByte 3)) % 2 ^ 36
  s.expPush { kind := 3, line := line,
              words := [(0, BitVec.ofNat 64 (bfld b 0 8)), (1, BitVec.ofNat 64 (bfld b 8 8))] } c.step.toNat

/-- The event of a line left unwritten: MASK_LINE_SKIP for R153, UPD_REFUSED for a poisoned gradient; poison that reaches UPDATE is the
escalation fault of R219, recorded as UPD_REFUSED. -/
def State.skipEvent (s : State) (k n : Nat) (e : Entry) (h : HomeWrite) : State :=
  let c := s.cell k
  let upd := wOpc e.word == 0x68
  let s := if 1 ≤ h.reason ∧ h.reason ≤ 4 then s.log 0x1304 [.val 4 h.addr, .val 1 h.reason]
    else if h.reason = 5 then s.log 0x1305 [.val 8 h.va, .val 4 c.step.toNat] else s
  if upd && s.cfg.calEsc && (h.reason == 5 || h.reason == 1) then s.fault k 0x1305 (c.lcore n) e.stream e.ord false else s

/-- The cursor after one more line of HOME work: the first line not yet written (R167). -/
def nextLine (e : Entry) (h : HomeWrite) : BitVec 64 := BitVec.ofNat 64 ((h.va - bfld e.block 8 8) / 256 + 1)

/-- A line is finished: its cycle lies before the present tick, or in it where the units advance (R152, R254). -/
def Cell.finished (c : Cell) (h : HomeWrite) : Bool :=
  decide (h.at_ ≤ c.cycle) || (c.advances && decide (h.at_ ≤ c.cycle + 8))

/-- HOME_LINE_WRITE: the next finished line of the stream's oldest instruction leaves: one atomic 256 B Plinth write with
its delta record, or the report of a line left unwritten; a translation fault stops the instruction at that line
(R151 to R153, R376, R404, R406). -/
def execHomeLineWrite (core : Fin 48) (stream : Fin 6) (s : State) : Res :=
  match s.cellOf core, (s.core core).inflight.find? (fun e => e.stream == stream.val && decide (e.home ≠ []) && !e.faulted) with
  | some k, some e =>
    let c := s.cell k
    match e.home with
    | [] => .next s
    | h :: rest =>
      if !c.finished h ∨ 2 < c.ctx.toNat then .next s
      else if h.reason ≠ 0 then
        let s := s.modCore core (fun co => (co.applyPuts h.puts).modEntry stream e.ord (fun e =>
          { e with home := rest, cursor := nextLine e h }))
        .next ((s.skipEvent k core e h).refuseLine k h)
      else
        match s.xlate core c.root h.va false true with
        | (s, .error er) => .next (s.xlFault k core stream e.ord ((h.va - bfld e.block 8 8) / 256) er)
        | (s, .ok (a, part)) =>
          let (s, em) := s.lineWrite a part h.line h.pois c.step.toNat
          let s := s.modCore core (fun co => (co.applyPuts h.puts).modEntry stream e.ord (fun e =>
            { e with home := rest, cursor := nextLine e h, homeOut := e.homeOut + 1 }))
          .next (s.modCell k (fun c => { c with deltas := c.deltas + b2n em }))
  | _, _ => .next s

/-- PLINTH_WRITE_ACK: a Plinth acknowledges one HOME write of the stream's oldest instruction that waits for one, in
the core or, while the cell is PREEMPTED, in its image (R152, R482). -/
def execPlinthWriteAck (core : Fin 48) (stream : Fin 6) (s : State) : Res :=
  let waits (e : Entry) : Bool := e.stream == stream.val && decide (0 < e.homeOut)
  let ack (co : Core) (e : Entry) : Core := co.modEntry stream e.ord (fun e => { e with homeOut := e.homeOut - 1 })
  match (s.core core).inflight.find? waits, s.cellOf core with
  | some e, _ => .next (s.modCore core (fun co => ack co e))
  | none, some k =>
    let c := s.cell k
    match c.img with
    | none => .next s
    | some im =>
      let l := c.lcore core
      match (im.cores.getD l {}).inflight.find? waits with
      | none => .next s
      | some e => .next (s.setCell k { c with img := some { im with cores := im.cores.set l (ack (im.cores.getD l {}) e) } })
  | none, none => .next s

end Sys2Proof.Machine
end

