-- ==== Sys2Proof/Machine/Tcd.lean ====
section
/-! DEFINITION. Control sessions: keys, responses, closing, and what a request that went through the fabric answers
(R522 to R534, R538, R539). -/
namespace Sys2Proof.Machine
open Sys2Proof

/-! Statuses of R529. -/

/-- STATUS 0 DONE. -/
def stDone : Nat := 0
/-- STATUS 1 ACCEPTED. -/
def stAccepted : Nat := 1
/-- STATUS 2 REFUSED. -/
def stRefused : Nat := 2
/-- STATUS 3 ROLE. -/
def stRole : Nat := 3
/-- STATUS 4 BUSY. -/
def stBusy : Nat := 4
/-- STATUS 5 FORMAT. -/
def stFormat : Nat := 5

/-- What a command answers: a STATUS and a payload, or nothing yet. -/
abbrev Rsp := Option (Nat × List Byte)

/-- DONE with a payload. -/
def done (b : List Byte) : Rsp := some (stDone, b)

/-- REFUSED with an event's code and its data (R529). -/
def refused (code : Nat) (data : List Byte) : Rsp := some (stRefused, leBytes 2 code ++ data)

/-- FORMAT. -/
def badFormat : Rsp := some (stFormat, [])

/-! Messages (R522, R523). -/

/-- The header of a request (R522). -/
def msgHeader (m : Msg) (op len : Nat) : List Byte :=
  leBytes 2 0x0100 ++ leBytes 2 op ++ leBytes 4 m.session ++ leBytes 4 m.epoch ++ leBytes 4 m.seq ++ leBytes 1 m.tfleet ++
    leBytes 1 m.tslot ++ [0, 0] ++ leBytes 2 len ++ leBytes 10 0

/-- The TAG of a request verifies under the key of an epoch (R523). -/
def Session.verifies (ss : Session) (m : Msg) (op : Nat) (payload : List Byte) (epoch : Nat) : Bool :=
  decide (m.tag = (hmac (ss.ks epoch) (msgHeader m op payload.length ++ payload)).take 16)

/-! Sessions. -/

/-- A session by its id. -/
def State.session? (s : State) (id : Nat) : Option Session := s.hst.sessions.find? (fun x => x.id == id)

/-- The state with a session changed. -/
def State.modSession (s : State) (id : Nat) (f : Session → Session) : State :=
  { s with hst := { s.hst with sessions := s.hst.sessions.map (fun x => if x.id = id then f x else x) } }

/-- A response sent in a session: RESPONSE set, the request's OPCODE, EPOCH and SEQ, under the key of that EPOCH (R522, R523, R529; log
entry 29). -/
def State.respond (s : State) (ss : Session) (op epoch seq status : Nat) (payload : List Byte) : State :=
  s.sendTcd ss.port (some (ss.ks epoch)) op ss.id epoch seq 1 status payload

/-- The final response of a request: kept among the 64 most recent of its epoch (R527, R529). -/
def State.finalResponse (s : State) (id op epoch seq status : Nat) (payload : List Byte) : State :=
  match s.session? id with
  | none => s
  | some ss =>
    let s := s.respond ss op epoch seq status payload
    s.modSession id (fun x =>
      if x.epoch = epoch then
        { x with kept := ((seq, (status, payload)) :: x.kept).take 64, queued := x.queued.filter (fun q => q ≠ seq) }
      else x)

/-- The number of a session's role in TCD_SESSION (log entry 28). -/
def Session.role (ss : Session) : Nat := Config.code (b2n ss.owner)

/-- A session closed, with the cause 1 SESSION_CLOSE, 2 idle timeout, 3 reset, 4 change of owner; TCD_SESSION gives the cause's
number (R526, R546; log entry 28). -/
def State.closeSession (s : State) (id cause : Nat) : State :=
  match s.session? id with
  | none => s
  | some ss =>
    let s := { s with hst := { s.hst with sessions := s.hst.sessions.filter (fun x => x.id ≠ id),
                                          fwds := s.hst.fwds.filter (fun f => f.1 ≠ id),
                                          waiting := s.hst.waiting.filter (fun w => !(w.id == id && w.frm == 0)) } }
    if ss.open_ then s.log 0x4102 [.eth ss.port, .val 4 ss.id, .val 1 ss.role, .val 1 2, .val 1 (Config.code (2 + cause))] else s

/-- Every session of some ports closed by a reset, and their queue pairs moved to Reset (R526, R542). -/
def State.closeAll (s : State) (ports : List Nat) : State :=
  let ids := (s.hst.sessions.filter (fun x => ports.contains x.port)).map (fun x => x.id)
  let s := ids.foldl (fun s id => s.closeSession id 3) s
  let gone := (s.hst.qps.filter (fun q => ports.contains q.port)).map (fun q => q.qpn)
  { s with hst := { s.hst with qps := s.hst.qps.filter (fun q => !ports.contains q.port),
                               rdma := s.hst.rdma.filter (fun o => !gone.contains o.qpn) } }

/-! Forwarded requests (R532, R534). -/

/-- A forwarded request ends with a status and a payload. -/
def State.fwdEnd (s : State) (id epoch seq status : Nat) (payload : List Byte) : State :=
  match s.hst.fwds.find? (fun f => f.1 == id && f.2.1 == epoch && f.2.2.1 == seq) with
  | some x =>
    let s := { s with hst := { s.hst with
      fwds := s.hst.fwds.filter (fun f => !(f.1 == id && f.2.1 == epoch && f.2.2.1 == seq)) } }
    s.finalResponse id x.2.2.2.2 epoch seq status payload
  | none => s

/-! RDMA through the fabric (R538, R539). -/

/-- The state with a queue pair changed. -/
def State.modQp (s : State) (qpn : Nat) (f : Qp → Qp) : State :=
  { s with hst := { s.hst with qps := s.hst.qps.map (fun q => if q.qpn = qpn then f q else q) } }

/-- A queue pair by its number. -/
def State.qp? (s : State) (qpn : Nat) : Option Qp := s.hst.qps.find? (fun q => q.qpn == qpn)

/-- Bytes of a path MTU code: 3, 4 and 5 for 1,024, 2,048 and 4,096 (R536; log entry 40). -/
def pmtuBytes (code : Nat) : Nat := 2 ^ (7 + code)

/-- The bytes that a READ has gathered. -/
def RdmaOp.bytes (o : RdmaOp) : List Byte :=
  o.data.foldl (fun b d => bput b d.1 d.2) (List.replicate ((o.data.map (fun d => d.1 + d.2.length)).foldl max 0) 0)

/-- What an RDMA request that is complete answers, as RoCEv2 packets: an acknowledgement, READ responses, or a NAK; a NAK
takes the place of the READ response that carries a poisoned word, and the responses before it are sent; a WRITE that landed
poison is acknowledged (R538, R539). Kinds: 0 Acknowledge, 1 READ response, 2 NAK Remote Access Error, 3 NAK Remote
Operational Error, 4 CNP, 5 WRITE of the requester, 6 NAK PSN Sequence Error, 7 NAK Invalid Request. -/
def RdmaOp.reply (o : RdmaOp) (pmtu : Nat) : List (Nat × List Byte) :=
  if o.err ≠ 0 then [(o.err, leBytes 4 o.psn)]
  else if !o.read then [(0, leBytes 4 o.psn)]
  else match o.pois with
    | none => [(1, o.bytes)]
    | some off =>
      let k := (off - o.off) / pmtu
      let nak := (3, leBytes 4 ((o.psn + k) % 2 ^ 24))
      if k = 0 then [nak] else [(1, o.bytes.take (k * pmtu)), nak]

/-- RoCEv2 packets sent on their priority of a port: queue pair, kind and data of each (R536, R541). -/
def State.sendRoce (s : State) (port : Nat) (ps : List (Nat × (Nat × List Byte))) : State :=
  s.sendEthAll port (s.cfg.qos.getD 0 0) (ps.map (fun p => .roce (s.wire port (s.cfg.qos.getD 2 0)) p.1 p.2.1 p.2.2))

/-- The answer of an RDMA request that is complete, with HOST_POISON for a READ of poisoned data (R538, R539). -/
def State.rdmaFinish (s : State) (o : RdmaOp) : State :=
  match s.qp? o.qpn with
  | none => s
  | some q =>
    let s := match o.pois with
      | some off => if o.read ∧ o.err = 0 then s.log 0x4302 [.val 4 o.window, .val 4 off] else s
      | none => s
    s.sendRoce q.port ((o.reply (pmtuBytes q.pmtu)).map (fun r => (o.qpn, r.1, r.2)))

/-- An RDMA request after one of its packets was answered; `none` where the fabric failed. -/
def RdmaOp.answer (o : RdmaOp) (flow seq : Nat) (r : Option Packet) : RdmaOp :=
  match o.need.find? (fun d => d.1 == flow && d.2.1 == seq) with
  | none => o
  | some d =>
    let o := { o with need := o.need.filter (fun d => !(d.1 == flow && d.2.1 == seq)) }
    match r with
    | none => { o with err := 3 }
    | some p =>
      if p.ptype = 0x13 then { o with err := 3 }
      else { o with data := if p.ptype = 0x14 then o.data ++ [(d.2.2, p.data)] else o.data,
                    pois := match o.pois, p.pois with
                      | none, w :: _ => some (o.off + d.2.2 + 4 * w)
                      | some x, w :: _ => some (min x (o.off + d.2.2 + 4 * w))
                      | x, [] => x }

/-- The complete requests that may be answered, and the rest: a queue pair answers in order (R536, R538). -/
def rdmaSplit (ops : List RdmaOp) : List RdmaOp × List RdmaOp :=
  ops.foldl (fun (a : List RdmaOp × List RdmaOp) o =>
    if o.need.isEmpty && !a.2.any (fun k => k.qpn == o.qpn) then (a.1 ++ [o], a.2) else (a.1, a.2 ++ [o])) ([], [])

/-- Every complete RDMA request is answered in the order of its queue pair. -/
def State.rdmaFlush (s : State) : State :=
  let x := rdmaSplit s.hst.rdma
  x.1.foldl State.rdmaFinish { s with hst := { s.hst with rdma := x.2 } }

/-- Every RDMA request that waits for a packet is told of its answer. -/
def State.rdmaAnswer (s : State) (flow seq : Nat) (r : Option Packet) : State :=
  ({ s with hst := { s.hst with rdma := s.hst.rdma.map (fun (o : RdmaOp) => o.answer flow seq r) } }).rdmaFlush

/-- A request that this device sent for its host fails in the fabric: STATUS UNREACHABLE, or a NAK (R534, R538). -/
def State.hostFailed (s : State) (flow seq : Nat) : State :=
  let s := match (tabGet {} s.gal.tx flow).unacked.find? (fun u => u.1.seq == seq) with
    | none => s
    | some (p, _) =>
      if p.ptype = 0x0D ∧ p.fields.getD 0 0 % 16 = 0 then
        s.fwdEnd (p.fields.getD 1 0) (p.fields.getD 2 0) (p.fields.getD 3 0) 8 []
      else s
  s.rdmaAnswer flow seq none

end Sys2Proof.Machine
end

