-- ==== Sys2Proof/Machine/Codewords.lean ====
section
/-! DEFINITION. Flits and codewords of a link: the CRC of a flit, the flits of a packet, control flits, the Reed-Solomon code and the
striping over lanes (R421 to R424, R448). -/
namespace Sys2Proof.Machine
open Sys2Proof

/-! Flits (R423, R448). -/

/-- One bit step of the CRC-16 with polynomial 0x1021. -/
def crc16Bits : Nat → BitVec 16 → BitVec 16
  | 0, c => c
  | k + 1, c => crc16Bits k (if c.msb then (c <<< 1) ^^^ 0x1021 else c <<< 1)

/-- The CRC-16 of a flit body (R423). -/
def crc16 (b : List Byte) : BitVec 16 :=
  b.foldl (fun c x => crc16Bits 8 (c ^^^ (BitVec.setWidth 16 x <<< (8 : Nat)))) 0xFFFF

/-- A flit from its 62-byte body (R423). -/
def mkFlit (body : List Byte) : List Byte :=
  let b := bsub body 0 62
  b ++ leBytes 2 (crc16 b).toNat

/-- A flit's CRC matches. -/
def flitOk (f : List Byte) : Bool := decide (bfld f 62 2 = (crc16 (bsub f 0 62)).toNat)

/-- Payload flits of a packet (R448). -/
def pkNflit (p : Packet) : Nat := ceilDiv p.data.length 60

/-- The virtual channel of a packet: VC0 or VC1 for requests, VC2 or VC3 for the rest (R449, R451). -/
def pkVc (p : Packet) : Nat := 2 * p.cls + b2n p.upper

/-- The 56-bit GPA of a packet's destination. -/
def pkGpa (p : Packet) : Nat := p.fleet * 2 ^ 50 + p.slot * 2 ^ 44 + p.addr

/-- Bytes of the type fields of each PTYPE: those of R312 that the target needs in R312's order, then those that the specification gives
no place for (R448; log entry 21). -/
def fieldSizes : Nat → List Nat
  | 0x01 => [4, 2, 1, 2, 4]
  | 0x02 => [4]
  | 0x03 => [1, 1, 8, 8]
  | 0x04 | 0x05 => [4, 1, 2, 2, 2, 4]
  | 0x06 => [1]
  | 0x07 => [2, 2, 2, 2, 4]
  | 0x08 => [2, 2, 4]
  | 0x09 => [1, 4, 4, 8]
  | 0x0A => [8, 4]
  | 0x0B => [8, 8]
  | 0x0C => [8, 1, 4, 8, 2]
  | 0x0D => [1, 4, 4, 4, 2, 4, 4, 2]
  | 0x10 => [2, 1, 1, 2, 1, 8]
  | 0x11 => [4]
  | 0x13 => [1, 2, 2]
  | 0x14 => [2]
  | 0x20 => [1, 2, 8, 1, 4]
  | 0x21 => [1]
  | 0x22 | 0x23 | 0x24 => [2, 4]
  | 0x25 => [1, 1, 2]
  | 0x26 => [1, 2]
  | 0x27 => [1, 1, 1]
  | _ => []

/-- The type fields of a packet as they travel. -/
def fieldBytes : List Nat → List Nat → List Byte
  | [], _ => []
  | n :: r, fs => leBytes n (fs.headD 0) ++ fieldBytes r fs.tail

/-- The header flit of a packet (R448). -/
def pkHeader (p : Packet) : List Byte :=
  mkFlit (leBytes 1 p.ptype ++ leBytes 1 (p.cls + 2 * b2n p.upper + 4 * b2n p.alt) ++ leBytes 1 (pkNflit p) ++
    leBytes 1 (p.hops % 32) ++ leBytes 7 (pkGpa p) ++ leBytes 2 (p.sslot + 64 * p.sfleet) ++ leBytes 2 p.sinc ++
    leBytes 2 p.dinc ++ leBytes 4 p.seq ++ leBytes 2 p.tag ++ leBytes 1 p.ttoken ++ leBytes 1 (p.tcell % 16) ++
    leBytes 1 (p.tlcore % 64) ++ bsub (fieldBytes (fieldSizes p.ptype) p.fields) 0 36)

/-- The flits of a packet: the header, then 60 data bytes and a poison mask in each (R448). -/
def pkFlits (p : Packet) : List (List Byte) :=
  pkHeader p :: (List.range (pkNflit p)).map (fun i =>
    let mask := (List.range 15).foldl (fun m w => m + b2n (psHas p.pois (15 * i + w)) * 2 ^ w) 0
    mkFlit (bsub p.data (60 * i) 60 ++ leBytes 2 mask))

/-- Data bytes that a packet's type fields give it; none where the packet carries none (R448; log entry 21). -/
def pkLen (p : Packet) : Nat :=
  let f (i : Nat) : Nat := p.fields.getD i 0
  match p.ptype with
  | 0x01 => min 4096 (f 0 - f 4)
  | 0x04 | 0x05 => min 4096 (f 0 - f 5)
  | 0x09 => if f 0 ≤ 1 then min 64 (f 2 - f 1) else f 2
  | 0x0C => f 4
  | 0x10 => if f 0 = 0x507 then 32 else 0
  | 0x0D => f 7
  | 0x14 => f 0
  | 0x15 => 8
  | _ => 0

/-- A packet is one that its flits spell: every field within its width, and as many data bytes as its fields say. -/
def pkSpelled (p : Packet) : Bool :=
  decide (p.ptype < 256 ∧ p.cls < 2 ∧ p.hops < 32 ∧ p.fleet < 64 ∧ p.slot < 64 ∧ p.addr < 2 ^ 44 ∧ p.sfleet < 64 ∧ p.sslot < 64 ∧
    p.sinc < 65536 ∧ p.dinc < 65536 ∧ p.seq < 2 ^ 32 ∧ p.tag < 65536 ∧ p.ttoken < 256 ∧ p.tcell < 16 ∧ p.tlcore < 64 ∧
    (p.fields = [] ∨ p.fields.length = (fieldSizes p.ptype).length) ∧ p.data.length = pkLen p) &&
  (p.fields.zip (fieldSizes p.ptype)).all (fun q => decide (q.1 < 256 ^ q.2)) &&
  psWf p.pois && p.pois.all (fun w => decide (4 * w < p.data.length))

/-- A virtual channel of a port. -/
def Port.vc (p : Port) (v : Nat) : VcSt := tabGet {} p.vcs v

/-- A control flit: CKIND, the newest codeword accepted, a NAK of the codeword expected, the flits freed of each channel, and a segment
of a handshake message (R423). -/
def Port.ctlFlit (p : Port) (kind : Nat) (nak : Bool) (seg : List Byte) : List Byte :=
  mkFlit (leBytes 1 kind ++ [0] ++ leBytes 2 (if p.ackOk then (p.rxNext - 1).toNat + 0x8000 else 0) ++
    leBytes 2 (if nak then p.rxNext.toNat + 0x8000 else 0) ++ (List.range 4).flatMap (fun v => leBytes 4 (p.vc v).owed) ++ bsub seg 0 40)

/-- An IDLE control flit that says nothing (R423, R424). -/
def idleFlit : List Byte := mkFlit []

/-! The Reed-Solomon code RS(544, 514) over GF(2^10) (R422; log entry 19). -/

/-- A field element times x, under the polynomial x^10 + x^3 + 1. -/
def gfX (a : BitVec 10) : BitVec 10 := if a.msb then (a <<< (1 : Nat)) ^^^ 0x009 else a <<< (1 : Nat)

/-- The product of two field elements. -/
def gfMul (a b : BitVec 10) : BitVec 10 :=
  ((List.range 10).foldl (fun (q : BitVec 10 × BitVec 10) i => (if b.getLsbD i then q.1 ^^^ q.2 else q.1, gfX q.2)) (0, a)).1

/-- The coefficients of the generator below its leading one, highest first: the product of x + x^j for j from 0 to 29. -/
def rsGen : List (BitVec 10) :=
  (((List.range 30).foldl (fun (q : List (BitVec 10) × BitVec 10) _ =>
    (List.zipWith (· ^^^ ·) (q.1 ++ [0]) (0 :: q.1.map (gfMul q.2)), gfX q.2)) ([1], 1)).1).drop 1

/-- The 30 check symbols of a message: the remainder of its division by the generator. -/
def rsParity (gen msg : List (BitVec 10)) : List (BitVec 10) :=
  msg.foldl (fun r m =>
    let f := m ^^^ r.headD 0
    List.zipWith (fun a g => a ^^^ gfMul f g) (r.drop 1 ++ [0]) gen) (List.replicate 30 0)

/-- The message of a codeword in 10-bit symbols: CMASK, CSEQ and the flits (R422). -/
def TxCw.message (w : TxCw) : List (BitVec 10) :=
  let m := w.cmask.toNat + w.cseq.toNat * 2 ^ 10 + leNat (w.flits.flatMap id) * 2 ^ 20
  (List.range 514).map (fun j => BitVec.ofNat 10 (m / 2 ^ (10 * j)))

/-- The 544 symbols of a codeword: the message, then the check symbols (R422). -/
def TxCw.symbols (w : TxCw) : List (BitVec 10) := w.message ++ rsParity rsGen w.message

/-- The codeword that a message spells (R422). -/
def cwOf (msg : List (BitVec 10)) : TxCw :=
  let m := msg.foldr (fun x n => x.toNat + 1024 * n) 0
  let b := leBytes 640 (m / 2 ^ 20)
  { cseq := BitVec.ofNat 10 (m / 2 ^ 10), cmask := BitVec.ofNat 10 m, flits := (List.range 10).map (fun i => bsub b (64 * i) 64) }

/-! The decoder (R422): syndromes, the shortest register that makes them, the roots of its polynomial, the values of the errors. -/

/-- The inverse of a field element: the product of its powers 2, 4, ... 512. -/
def gfInv (a : BitVec 10) : BitVec 10 :=
  ((List.range 9).foldl (fun (q : BitVec 10 × BitVec 10) _ => let s := gfMul q.2 q.2; (gfMul q.1 s, s)) (1, a)).1

/-- A power of x. -/
def gfExp (n : Nat) : BitVec 10 := (List.range (n % 1023)).foldl (fun a _ => gfX a) 1

/-- A polynomial's value, its coefficients highest first. -/
def gfEval (p : List (BitVec 10)) (x : BitVec 10) : BitVec 10 := p.foldl (fun v c => gfMul v x ^^^ c) 0

/-- The syndromes of a received word: its values at the 30 roots of the generator. -/
def rsSyndromes (word : List (BitVec 10)) : List (BitVec 10) := (List.range 30).map (fun j => gfEval word (gfExp j))

/-- The sum of two polynomials, lowest coefficient first. -/
def gfAdd : List (BitVec 10) → List (BitVec 10) → List (BitVec 10)
  | [], b => b
  | a, [] => a
  | x :: a, y :: b => (x ^^^ y) :: gfAdd a b

/-- The error locator under construction: itself, the one before its last change of length, its length, the steps since, and the
discrepancy then. -/
structure Locator where
  c : List (BitVec 10) := [1]
  b : List (BitVec 10) := [1]
  len : Nat := 0
  m : Nat := 1
  d : BitVec 10 := 1
  deriving DecidableEq, Repr

/-- One step of the construction, with syndrome n. -/
def Locator.step (syn : List (BitVec 10)) (q : Locator) (n : Nat) : Locator :=
  let d := (List.range (q.len + 1)).foldl (fun v i => v ^^^ gfMul (q.c.getD i 0) (syn.getD (n - i) 0)) 0
  if d = 0 then { q with m := q.m + 1 }
  else
    let f := gfMul d (gfInv q.d)
    let c := gfAdd q.c (List.replicate q.m 0 ++ q.b.map (gfMul f))
    if 2 * q.len ≤ n then { c := c, b := q.c, len := n + 1 - q.len, m := 1, d := d } else { q with c := c, m := q.m + 1 }

/-- The value of the error at power p, by Forney's formula. -/
def rsValue (syn c : List (BitVec 10)) (p : Nat) : BitVec 10 :=
  let xi := gfExp (1023 - p)
  let om := (List.range 30).map (fun k => (List.range (k + 1)).foldl (fun v i => v ^^^ gfMul (c.getD i 0) (syn.getD (k - i) 0)) 0)
  let dc := (c.drop 1).zipIdx.map (fun (a, i) => if i % 2 = 0 then a else 0)
  gfMul (gfExp p) (gfMul (gfEval om.reverse xi) (gfInv (gfEval dc.reverse xi)))

/-- A received word decoded: the message and the places of the symbols corrected, at most 15; none where it is uncorrectable. A word whose
check symbols are those of its message has no error (R422). -/
def rsDecode (word : List (BitVec 10)) : Option (List (BitVec 10) × List Nat) :=
  if word.drop 514 = rsParity rsGen (word.take 514) then some (word.take 514, [])
  else
    let syn := rsSyndromes word
    let q : Locator := (List.range 30).foldl (fun q n => q.step syn n) {}
    let roots := (List.range 544).filter (fun p => decide (gfEval q.c.reverse (gfExp (1023 - p)) = 0))
    if 15 < q.len ∨ roots.length ≠ q.len then none
    else
      let at_ (i : Nat) : BitVec 10 := if roots.contains (543 - i) then rsValue syn q.c (543 - i) else 0
      some ((word.take 514).zipIdx.map (fun (w, i) => w ^^^ at_ i), roots.map (fun p => 543 - p))

/-! Lanes (R421, R422, R434). -/

/-- Healthy logical lanes in ascending order. -/
def healthyLanes (h : BitVec 20) : List Nat := (List.range 20).filter (fun l => h.getLsbD l)

/-- The physical lane of a logical lane under a lane map; identity for an empty one. -/
def physLane (m : List Nat) (l : Nat) : Nat := if m.isEmpty then l else m.getD l l

/-- The logical lane whose receive contact is a physical lane. -/
def Port.rxLogical (p : Port) (phys : Nat) : Nat := ((List.range 20).find? (fun l => physLane p.rxmap l == phys)).getD phys

/-- The logical lanes of a port whose receive contacts a set of physical lanes names. -/
def Port.rxHealthy (p : Port) (phys : BitVec 20) : BitVec 20 :=
  if p.rxmap.isEmpty then phys
  else (List.range 20).foldl (fun (h : BitVec 20) l => if phys.getLsbD (physLane p.rxmap l) then h ||| BitVec.ofNat 20 (2 ^ l) else h) 0

/-- The widest width that a number of healthy lanes fills; 0 below four (R434). -/
def widthOf (n : Nat) : Nat := if 20 ≤ n then 20 else if 16 ≤ n then 16 else if 10 ≤ n then 10 else if 8 ≤ n then 8 else if 4 ≤ n then 4 else 0

/-- The width that both directions can run: each direction uses the lanes that are healthy at its receiver (R431, R434). -/
def Port.bestWidth (p : Port) : Nat := min (widthOf (healthyLanes p.healthy).length) (widthOf (healthyLanes p.txHealthy).length)

/-- The active logical lanes of the receive direction (R434). -/
def Port.rxActive (p : Port) : List Nat := (healthyLanes p.healthy).take p.width.toNat

/-- What a codeword puts on each physical lane of a port: the lane, whether its polarity is inverted, and its symbols in order (R421,
R422). -/
def Port.lanes (p : Port) (w : TxCw) : Lanes :=
  let act := (healthyLanes p.txHealthy).take p.width.toNat
  let syms := w.symbols
  act.zipIdx.map (fun (l, i) =>
    (physLane p.txmap l, bit p.inv.1 l, (List.range (ceilDiv (syms.length - i) act.length)).filterMap (fun j => syms[i + j * act.length]?)))

/-- The symbols of a logical lane, from what arrives on its receive contact: a polarity other than the one set for the lane is taken the
wrong way (R421). -/
def Port.rxLane (p : Port) (ls : Lanes) (l : Nat) : List (BitVec 10) :=
  match ls.find? (fun x => x.1 == physLane p.rxmap l) with
  | none => []
  | some x => if x.2.1 = bit p.inv.2 l then x.2.2 else x.2.2.map Config.flipped

/-- The 544 symbols received, in order: those of the active logical lanes, round-robin (R422). -/
def Port.word (p : Port) (ls : Lanes) : List (BitVec 10) :=
  let cols := p.rxActive.map (p.rxLane ls)
  (List.range 544).map (fun j => (cols.getD (j % cols.length) []).getD (j / cols.length) 0)

/-- What a port receives, decoded: the codeword and the physical lane of each symbol corrected; none where it is uncorrectable (R422,
R434). -/
def Port.decode (p : Port) (ls : Lanes) : Option (TxCw × List Nat) :=
  (rsDecode (p.word ls)).map (fun r => (cwOf r.1, r.2.map (fun j => physLane p.rxmap (p.rxActive.getD (j % p.rxActive.length) 0))))

/-- The contents of a codeword that is sent again: IDLE flits where they were not kept (R424, R427). -/
def TxCw.filled (w : TxCw) : TxCw := if w.flits.isEmpty then { w with cmask := 0x3FF, flits := List.replicate 10 idleFlit } else w

/-- A codeword as it leaves a port. -/
def Port.line (p : Port) (i : Nat) (w : TxCw) : Out := .codeword i w.filled (p.lanes w.filled)

/-! Codewords of a port (R422, R424, R427). -/

/-- Codewords whose contents the replay buffer holds. -/
def Port.kept (p : Port) : Nat := (p.replay.filter (fun w => !w.flits.isEmpty)).length

/-- Something waits to be told to the partner: a codeword accepted, a NAK, or flits freed. -/
def Port.news (p : Port) : Bool := p.ackDue || p.nakDue || p.vcs.any (fun v => decide (v.2.owed ≠ 0))

/-- The port after a control flit has told the partner all of that. -/
def Port.told (p : Port) : Port :=
  { p with ackDue := false, nakDue := false, vcs := (p.vcs.map (fun v => (v.1, { v.2 with owed := 0 }))).filter (fun v => decide (v.2 ≠ {})) }

/-- A codeword formed from control flits and data flits and filled with IDLE flits; it takes the next CSEQ and waits in the replay
buffer. A full buffer keeps no contents more; what is formed then has control flits alone (R422, R424, R427; log entry 19). -/
def Port.form (p : Port) (ctl data : List (List Byte)) : Port × TxCw :=
  let n := ctl.length
  let d := data.length
  let fill := List.replicate (10 - (n + d)) idleFlit
  let mask := (List.range 10).foldl (fun (m : BitVec 10) i => if i < n ∨ n + d ≤ i then m ||| BitVec.ofNat 10 (2 ^ i) else m) 0
  let w : TxCw := { cseq := p.txNext, cmask := mask, flits := ctl ++ data ++ fill }
  ({ p with txNext := p.txNext + 1, replay := p.replay ++ [if p.kept < 960 then w else { w with flits := [] }],
            sinceCtl := if ctl.isEmpty && fill.isEmpty then p.sinceCtl + 1 else 0 }, w)

/-- The data flits that the next codeword takes: one place is given to a LINK flit with what waits to be told, where fewer than 10 data
flits wait or 10 codewords have passed since the last control flit; a NAK goes at once (R424). -/
def Port.next (p : Port) (data : List (List Byte)) : Port × (TxCw × Nat) :=
  let say := p.news && (p.nakDue || decide (data.length < 10) || decide (9 ≤ p.sinceCtl))
  let d := data.take (if say then 9 else 10)
  let (q, w) := p.form (if say then [p.ctlFlit 1 p.nakDue []] else []) d
  (if say then q.told else q, w, d.length)

/-- Up to ten of the control flits that wait, in one codeword; the first of them tells what there is to tell (R423, R424). -/
def Port.nextCtl (p : Port) : Port × TxCw :=
  let cut := p.ctlq.take 10
  let (q, w) := p.form (cut.zipIdx.map (fun (g, j) => (if j = 0 then p else p.told).ctlFlit g.1 (j = 0 && p.nakDue) g.2)) []
  ({ q.told with ctlq := p.ctlq.drop 10 }, w)

end Sys2Proof.Machine
end

