-- ==== Sys2Proof/Machine/Links.lean ====
section
/-! DEFINITION. Link ports: credits, replay, routing onto a port, the port states and the link commands (R420 to R442, R448 to R451,
R454, R460). -/
namespace Sys2Proof.Machine
open Sys2Proof

/-! Sending (R426 to R428). -/

/-- A port carries packets of the gallery layer (R430, R438). -/
def Port.up (p : Port) : Bool := decide (p.state = .up)

/-- The waiting packets that may start, in order, with their places: a packet waits behind an earlier one of its channel, for credits for
all its flits, and for room in the replay buffer (R427, R428). `n` is the flits of those that start before. -/
def Port.starts (p : Port) : List (PortPk × Nat) → List Nat → Nat → Port × List (Packet × Nat)
  | [], _, _ => (p, [])
  | (t, i) :: r, bl, n =>
    let v := pkVc t.pk
    let k := pkNflit t.pk + 1
    if t.last.isSome then Port.starts p r bl n
    else if bl.contains v ∨ (p.vc v).cred < k ∨ 960 < p.kept + ceilDiv (n + k) 9 + 1 then Port.starts p r (v :: bl) n
    else
      let q := Port.starts { p with vcs := tabMod {} p.vcs v (fun x => { x with cred := x.cred - k }) } r bl (n + k)
      (q.1, (t.pk, i) :: q.2)

/-- The flits of the packets that start, in order; the last of each names its packet's place. -/
def startFlits (l : List (Packet × Nat)) : List (List Byte × Option Nat) :=
  l.flatMap (fun q => let fs := pkFlits q.1; fs.dropLast.map (fun f => (f, none)) ++ [(fs.getLastD [], some q.2)])

/-- Flits sent in codewords, while fuel lasts; a packet whose last flit goes is marked with the CSEQ (R422, R424). -/
def Port.sendFlits : Nat → Port → List (List Byte × Option Nat) → Port × List TxCw
  | 0, p, _ => (p, [])
  | k + 1, p, l =>
    if l.isEmpty then (p, [])
    else
      let (p, w, n) := p.next (l.map Prod.fst)
      let ends := (l.take n).filterMap Prod.snd
      let p := { p with txq := p.txq.zipIdx.map (fun (t, i) => if ends.contains i then { t with last := some w.cseq.toNat } else t) }
      let q := Port.sendFlits k p (l.drop n)
      (q.1, w :: q.2)

/-- A port sends what it may: UP or DRAINING. -/
def State.pump (s : State) (i : Nat) : State :=
  let p := s.port i
  if p.state = .up ∨ p.state = .draining then
    let (p, l) := p.starts p.txq.zipIdx [] 0
    let fs := startFlits l
    let (p, ws) := Port.sendFlits fs.length p fs
    ((s.modPort i (fun _ => p)).emitAll (l.map (fun q => .packet i q.1))).emitAll (ws.map (p.line i))
  else s

/-- A port that carries codewords: in the handshake, UP or DRAINING. -/
def Port.carries (p : Port) : Bool := decide (p.state = .auth ∨ p.state = .up ∨ p.state = .draining)

/-- One codeword without data: control flits that wait, or what waits to be told and IDLE flits. A port is never silent: with a full
replay buffer it goes on with codewords of control flits, and with every CSEQ outstanding it sends its newest codeword again (R422, R424,
R427; log entry 19). -/
def State.sendIdle (s : State) (i : Nat) : State :=
  let p := s.port i
  if !p.carries then s
  else if 1023 ≤ p.replay.length then s.emitAll ((p.replay.drop (p.replay.length - 1)).map (p.line i))
  else
    let (q, w) := if p.ctlq.isEmpty ∨ 960 ≤ p.kept then let x := p.next []; (x.1, x.2.1) else p.nextCtl
    (s.modPort i (fun _ => q)).emit (q.line i w)

/-- A codeword time on every port: a port that is never silent fills its stream (R422, R424; log entry 19). -/
def State.linkTick (s : State) : State := (List.range 8).foldl State.sendIdle s

/-- The control flits that wait, sent as far as the replay buffer has room (R427). -/
def State.flushCtl : Nat → State → Nat → State
  | 0, s, _ => s
  | k + 1, s, i => if (s.port i).ctlq.isEmpty ∨ 960 ≤ (s.port i).kept then s else State.flushCtl k (s.sendIdle i) i

/-- Control flits that wait their turn in codewords of their own, ten to a codeword (R423, R427). -/
def State.sendControl (s : State) (i kind : Nat) (segs : List (List Byte)) : State :=
  let s := s.modPort i (fun p => { p with ctlq := p.ctlq ++ segs.map (fun g => (kind, g)) })
  State.flushCtl (s.port i).ctlq.length s i

/-- A handshake message sent in AUTH segments of 40 B (R423, R432). -/
def State.sendHand (s : State) (i kind : Nat) (msg : List Byte) : State :=
  (s.sendControl i 2 ((List.range (ceilDiv msg.length 40)).map (fun j => bsub msg (40 * j) 40))).emit (.hand i kind)

/-- A packet handed to a port (R450); `src` is the packet as it came and `arr` the port it arrived on. -/
def State.portSend (s : State) (i : Nat) (pk src : Packet) (arr : Option Nat) : State :=
  (s.modPort i (fun p => { p with txq := p.txq ++ [{ pk := pk, src := src, arr := arr }] })).pump i

/-! Routing (R447, R450, R451). -/

/-- The dimension of a port's role: X, Y, Z or AUX (R451). -/
def roleDim (r : Nat) : Nat := (r + 1) / 2

/-- The flow key of a fleet and slot. -/
def flowKey (f sl : Nat) : Nat := 64 * f + sl

/-- This device's own flow key. -/
def State.ownKey (s : State) : Nat := flowKey s.gal.fleet.toNat s.gal.slot.toNat

/-- A fleet and slot of the gallery: both below the products of the box and of the fleets (R444). -/
def Cfg.hasPlace (c : Cfg) (f sl : Nat) : Bool :=
  decide (sl < c.box.1 * (c.box.2.1 * c.box.2.2) ∧ f < c.tiles.1 * (c.tiles.2.1 * c.tiles.2.2))

/-- A port that takes new packets or lets them wait: UP, or in RETRAIN with no DRAIN to resume after it (R438, R450; log entry 19). -/
def Port.takes (p : Port) : Bool := decide (p.state = .up) || (decide (p.state = .retrain) && !p.drainAfter)

/-- The port that a packet leaves through and whether it is the alternate one; none where the packet cannot be routed. A
port that is being reset takes none (R444, R450, R554). -/
def State.routePort (s : State) (pk : Packet) : Option (Nat × Bool) :=
  let e := (tabGet 0 s.gal.routes (flowKey pk.fleet pk.slot)).toNat
  let pri := bits e 2 0
  let alt := bits e 5 3
  if !s.cfg.hasPlace pk.fleet pk.slot ∨ !bit e 7 ∨ 31 < pk.hops then none
  else if (s.port pri).takes && !s.rst.quiet.contains (32 + pri) then some (pri, false)
  else if bit e 6 && (s.port alt).up && !s.rst.quiet.contains (32 + alt) then some (alt, true)
  else none

/-- A packet routed and handed to its port; `arr` is the port it arrived on. None where it cannot be routed. -/
def State.routeSend (s : State) (pk : Packet) (arr : Option Nat) : Option State :=
  match s.routePort pk with
  | none => none
  | some (o, alt) =>
    let up0 := pk.upper || (match arr with | some a => (s.port a).dateline | none => false)
    let turned := match arr with
      | some a => decide (roleDim (s.port a).role ≠ roleDim (s.port o).role)
      | none => false
    let up := if alt then true else (if turned then false else up0) || (s.port o).dateline
    some (s.portSend o { pk with upper := up, alt := alt } pk arr)

/-! Remote faults (R454, R460, R467, R484). -/

/-- The entry holds an outstanding packet of a flow and SEQ. -/
def Entry.owns (e : Entry) (flow seq : Nat) : Bool := e.dests.any (fun d => d.1 == flow && d.2.1 == seq)

/-- The live core whose entry owns a packet. -/
def State.ownerCore (s : State) (flow seq : Nat) : Option (Nat × Entry) :=
  (coreIds.filterMap (fun n => ((s.core n).inflight.find? (·.owns flow seq)).map (fun e => (n, e)))).head?

/-- The cell, logical core and entry of a context image that owns a packet. -/
def State.ownerImg (s : State) (flow seq : Nat) : Option (Nat × (Nat × Entry)) :=
  (cellIds.filterMap (fun k => match (s.cell k).img with
    | none => none
    | some im => (im.cores.zipIdx.filterMap (fun (co, l) =>
        (co.inflight.find? (·.owns flow seq)).map (fun e => (k, l, e)))).head?)).head?

/-- A core of a context image changed. -/
def State.modImg (s : State) (k l : Nat) (f : Core → Core) : State :=
  s.modCell k (fun c => { c with img := c.img.map (fun im =>
    { im with cores := im.cores.zipIdx.map (fun (co, i) => if i = l then f co else co) }) })

/-- Local address of the in-flight table of a logical core in a context image (R480, R481). -/
def Cell.tableAt (c : Cell) (l : Nat) : Nat := c.area.toNat + 2097152 + l * 33554432 + 28049408 + 119104

/-- The entries of a core that the in-flight table holds (R481). -/
def Core.table (co : Core) : List Entry := (co.inflight.filter (fun e => decide (e.stream < 6))).take 80

/-- The cursor of an entry in the in-flight table: of RPUT, RGET and RADD the packets acknowledged, of RATOM whether its packet was
sent (R482). -/
def Entry.cursorNow (e : Entry) : Nat :=
  match wOpc e.word with
  | 0x90 | 0x91 | 0x93 => e.acked
  | 0x92 => min 1 e.sent
  | _ => e.cursor.toNat

/-- The cursor and the remote fields of every entry of an image's core written into its in-flight table (R481, R482, R484). -/
def State.imgTable (s : State) (k l : Nat) : State :=
  match (s.cell k).img with
  | none => s
  | some im =>
    (im.cores.getD l {}).table.zipIdx.foldl (fun s (e, i) =>
      let a := (s.cell k).tableAt l + 256 * i + 128
      let s := (s.touchPhys (a - 40) 8 true).hbmWrite (a - 40) (leBytes 8 e.cursorNow) false
      (s.touchPhys a 18 true).hbmWrite a
        (leBytes 8 e.sent ++ leBytes 8 e.acked ++ leBytes 1 e.outcome ++ leBytes 1 e.cause) false) s

/-- The entry of a context image changed, in the model and in its bytes. -/
def State.modImgEntry (s : State) (k l st ord : Nat) (f : Entry → Entry) : State :=
  (s.modImg k l (fun co => co.modEntry st ord f)).imgTable k l

/-- The entry that owns a packet changed, wherever it is held. -/
def State.modOwner (s : State) (flow seq : Nat) (f : Entry → Entry) : State :=
  match s.ownerCore flow seq with
  | some (n, e) => s.modCore n (fun co => co.modEntry e.stream e.ord f)
  | none =>
    match s.ownerImg flow seq with
    | some (k, l, e) => s.modImgEntry k l e.stream e.ord f
    | none => s

/-- REM_FAULT for the operation that owns a packet: causes 1 timeout, 2 target error with its event code, 3 no route,
4 slot dead, 5 stale destination. A cell that is PREEMPTED has the outcome written into its image instead (R484). -/
def State.remFault (s : State) (flow seq cause ev : Nat) : State :=
  let mark (e : Entry) : Entry := { e with cause := cause, outcome := 2 }
  match s.ownerCore flow seq with
  | some (n, e) =>
    if e.faulted then s
    else
      match s.cellOf n with
      | none => s
      | some k =>
        let s := s.modCore n (fun co => co.modEntry e.stream e.ord (fun e =>
          { mark e with faulted := true, cursor := if wOpc e.word = 0x94 then e.cursor else BitVec.ofNat 64 e.acked }))
        s.raiseFault k 0x3201 ([.val 1 (flow / 64), .val 1 (flow % 64), .val 1 cause] ++ (if cause = 2 then [.val 2 ev] else []))
          ((s.cell k).lcore n) e.stream e.ord (cause == 1)
  | none =>
    match s.ownerImg flow seq with
    | some (k, l, e) => s.modImgEntry k l e.stream e.ord mark
    | none => s.hostFailed flow seq

/-- A packet of a flow and SEQ leaves the source's list (R454). -/
def State.popTx (s : State) (flow seq : Nat) : State :=
  { s with gal := { s.gal with tx := tabMod {} s.gal.tx flow (fun f =>
      { f with unacked := f.unacked.filter (fun u => !(u.1.seq == seq)) }) } }

/-- The ERR packet that a forwarding device returns for a packet which no port carries: cause 2, NOROUTE, and the flow that cannot be
reached (R450, R460, R471; log entry 21). -/
def State.noRouteErr (s : State) (pk : Packet) : Packet :=
  { ptype := 0x13, cls := 1, fleet := pk.sfleet, slot := pk.sslot, sfleet := s.gal.fleet.toNat, sslot := s.gal.slot.toNat,
    sinc := s.gal.incarn.toNat, dinc := pk.sinc, seq := pk.seq, tag := pk.tag, fields := [2, 0x3205, flowKey pk.fleet pk.slot] }

/-- One unroutable packet counted (R450). -/
def State.countNoroute (s : State) : State := { s with gal := { s.gal with noroute := satAdd s.gal.noroute 1 } }

/-- A packet of this device's own may enter the fabric: in QUARANTINED only heartbeats and responses to control datagrams (R457). -/
def State.mayInject (s : State) (pk : Packet) : Bool :=
  s.gal.state != .quarantined || pk.ptype == 0x20 || (pk.ptype == 0x0D && pk.fields.getD 0 0 == 1)

/-- A packet that cannot be routed: at its source the operation fails; at a forwarding device it is discarded and ERR with NOROUTE
returns to the source (R450). -/
def State.unroutable (s : State) (pk : Packet) : State :=
  let s := s.countNoroute
  let s := s.log 0x3205 [.val 1 pk.fleet, .val 1 pk.slot, .val 4 pk.hops]
  if flowKey pk.sfleet pk.sslot = s.ownKey then
    if pk.cls = 0 then s.remFault (flowKey pk.fleet pk.slot) pk.seq 3 0 else s
  else if s.mayInject (s.noRouteErr pk) then
    match s.routeSend (s.noRouteErr pk) none with | some s => s | none => s
  else s

/-- A packet sent or forwarded. -/
def State.transmit (s : State) (pk : Packet) (arr : Option Nat) : State :=
  match s.routeSend pk arr with
  | some s => s
  | none => s.unroutable pk

/-! Port transitions (R430, R436, R437). -/

/-- A port with its connection state cleared. -/
def Port.clear (p : Port) (st : PortSt) (why : Nat) : Port :=
  { p with state := st, downwhy := BitVec.ofNat 4 why, width := 0, pvalid := false, firstTry := true, replay := [], vcs := [],
           txq := [], rxLeft := (0, 0), rxNext := 0, txNext := 0, nakPend := false, ackOk := false, ackDue := false, nakDue := false,
           ackedTo := none, ctlq := [], laneErr := [], sinceCtl := 0, authIn := [], gotHello := false, gotCert := false, chainOk := false, drainAfter := false }

/-- A port leaves its state; the packets it held go back to the gallery layer as it took them (R437, R451). -/
def State.portLeave (s : State) (i : Nat) (st : PortSt) (why : Nat) : State :=
  let back := (s.port i).txq
  let s := s.modPort i (fun p => p.clear st why)
  back.foldl (fun s t => s.transmit t.src t.arr) s

/-- A port goes DOWN; a failure is logged as LNK_DOWN (R431, R435, R438). -/
def State.portDown (s : State) (i why : Nat) (fail : Bool) : State :=
  let s := s.portLeave i .down why
  if fail then s.log 0x3102 [.link i, .val 1 why] else s

/-- A port is quarantined: 1 authentication, 2 protocol, 3 credit, 4 forged packets, 5 command (R436). -/
def State.portQuar (s : State) (i cause : Nat) : State :=
  let s := s.portLeave i .quarantined 8
  let s := s.modPort i (fun p => { p with quars := p.quars + 1 })
  s.log 0x3105 [.link i, .val 1 cause]

/-- A protocol violation (R435), by its place in the list there. -/
def State.portProto (s : State) (i v : Nat) : State := (s.log 0x3107 [.link i, .val 1 (Config.code (64 + v))]).portQuar i 2

/-- A failed training attempt: DOWN, logged the first time since the port entered DOWN (R431). -/
def State.trainFail (s : State) (i why : Nat) : State :=
  let first := (s.port i).firstTry
  let s := s.modPort i (fun p => { p.clear .down why with firstTry := false })
  if first then s.log 0x3102 [.link i, .val 1 why] else s

/-! Training and the handshake (R431 to R433). -/

/-- LNK_TRAIN_ATTEMPT: a port in DOWN tries to train (R431). -/
def execLnkTrainAttempt (port : Fin 8) (s : State) : Res :=
  if (s.port port).state = .down ∧ (s.port port).role ≠ 0 then
    .next (s.modPort port (fun p => { p with state := .training }))
  else .next s

/-- TRAINING_STEP_TIMEOUT: a step exceeds its limit (R431). -/
def execTrainingStepTimeout (port : Fin 8) (s : State) : Res :=
  if (s.port port).state = .training then .next (s.trainFail port 1) else .next s

/-- The eye height and width of a lane recorded, and LANE_WEAK after three weak trainings in a row (R596, R597). -/
def State.eyeRecord (s : State) (i : Nat) (l : (Nat × Nat) × Nat) : State :=
  let ((eye, width), lane) := l
  let p := s.port i
  let (first, old) := ((p.eye.find? (fun x => x.1 == lane)).map Prod.snd).getD (eye, [])
  let weak := if 100 * eye < 60 * first then tabGet 0 p.weak lane + 1 else 0
  let s := s.modPort i (fun p =>
    { p with eye := (p.eye.filter (fun x => !(x.1 == lane))) ++ [(lane, first, ((eye, width) :: old).take 32)], weak := tabSet 0 p.weak lane weak })
  if weak = 3 then s.log 0x7506 [.link i, .val 1 lane, .val 4 eye] else s

/-- A trained port enters AUTH with a fresh nonce, at a width that both directions can run (R431, R432, R434). -/
def Port.toAuth (p : Port) (healthy peer : BitVec 20) (n : BitVec 256) : Port :=
  let q := { p with state := .auth, healthy := healthy, txHealthy := peer, nonce := n, gotHello := false, gotCert := false }
  { q with width := BitVec.ofNat 5 q.bestWidth }

/-- This device's HELLO: its nonce and its claims (R432; log entry 67). -/
def State.helloMsg (s : State) (p : Port) : List Byte :=
  nonceBytes p.nonce ++ leBytes 1 s.gal.fleet.toNat ++ leBytes 1 s.gal.slot.toNat ++ leBytes 2 s.gal.incarn.toNat ++ leBytes 1 p.role

/-- TRAINING_DONE: the width is selected from the healthy lanes, named as physical receive lanes here and as logical lanes at the partner,
and the handshake begins: HELLO with a random nonce, then CERT (R421, R431, R432, R434, R596). -/
def execTrainingDone (port : Fin 8) (healthy : LaneSets) (eyes : List (Nat × Nat)) (s : State) : Res :=
  if (s.port port).state = .training then
    let own := (s.port port).rxHealthy healthy.own
    if min (widthOf (healthyLanes own).length) (widthOf (healthyLanes healthy.peer).length) = 0 then .next (s.trainFail port 3)
    else
      let s := (eyes.take 20).zipIdx.foldl (fun s x => s.eyeRecord port x) s
      let n := Config.random s.free
      let s := { s with free := s.free + 1 }
      let s := s.modPort port (fun p => p.toAuth own healthy.peer n)
      .next ((s.sendHand port 1 (s.helloMsg (s.port port))).sendHand port 2 Config.devCert)
  else .next s

/-- The message that this device signs (R432). -/
def State.ownSignMsg (s : State) (p : Port) : List Byte :=
  let (f, sl, _, r) := p.claims
  ascii "T48LINK" ++ [0] ++ nonceBytes p.nonce ++ nonceBytes p.pnonce ++
    leBytes 1 s.gal.fleet.toNat ++ leBytes 1 s.gal.slot.toNat ++ leBytes 2 s.gal.incarn.toNat ++ leBytes 1 p.role ++
    leBytes 1 f ++ leBytes 1 sl ++ leBytes 1 r

/-- The handshake is over: UP, or what follows UP (R430, R435). -/
def Port.linked (p : Port) : Bool := decide (p.state = .up ∨ p.state = .retrain ∨ p.state = .draining)

/-- LINK_HELLO: the peer's nonce and claims, answered by SIGN (R432). -/
def execLinkHello (port : Fin 8) (h : Hello) (s : State) : Res :=
  let p := s.port port
  if p.state = .auth then
    let s := s.modPort port (fun p => { p with pnonce := h.nonce, gotHello := true, claims := (h.fleet, h.slot, h.inc, h.role) })
    .next (s.sendHand port 3 (Config.pssSign (s.ownSignMsg (s.port port))))
  else if p.linked then .next (s.portProto port 4) else .next s

/-- LINK_CERT: the peer's device certificate, whose key it carries, and the chain to the manufacturing CA (R432, R433). -/
def execLinkCert (port : Fin 8) (cert chain : List Byte) (s : State) : Res :=
  let p := s.port port
  if p.state = .auth then
    .next (s.modPort port (fun p => { p with gotCert := true, chainOk := Config.chainValid (cert ++ chain), peerKey := Config.certKey cert }))
  else if p.linked then .next (s.portProto port 4) else .next s

/-- Two torus roles are opposite, or either is AUX (R433). -/
def rolesMeet (a b : Nat) : Bool := a == 7 || b == 7 || (decide (1 ≤ a ∧ 1 ≤ b ∧ a ≠ b) && decide ((a + 1) / 2 = (b + 1) / 2))

/-- The message that the peer signs (R432). -/
def State.signMsg (s : State) (p : Port) : List Byte :=
  let (f, sl, inc, r) := p.claims
  ascii "T48LINK" ++ [0] ++ nonceBytes p.pnonce ++ nonceBytes p.nonce ++
    leBytes 1 f ++ leBytes 1 sl ++ leBytes 2 inc ++ leBytes 1 r ++
    leBytes 1 s.gal.fleet.toNat ++ leBytes 1 s.gal.slot.toNat ++ leBytes 1 p.role

/-- The first failing check of R433, by its reason code. -/
def State.authReason (s : State) (p : Port) (sig : List Byte) : Option Nat :=
  if !p.chainOk then some 1
  else if !p.peers.contains (sha256 p.peerKey) then some 2
  else if !pssValid p.peerKey (s.signMsg p) sig then some 3
  else if !rolesMeet p.role p.claims.2.2.2 then some 4
  else none

/-- LINK_SIGN: the checks of R433 decide UP or QUARANTINED. Every channel starts with credits for the partner's VCBUF, which no message
tells: a free value within R440 (R428; log entry 19). -/
def execLinkSign (port : Fin 8) (sig : List Byte) (s : State) : Res :=
  let p := s.port port
  if p.state = .auth ∧ p.gotHello ∧ p.gotCert then
    match s.authReason p sig with
    | some r => .next ((s.log 0x3104 [.link port, .val 1 r]).portQuar port 1)
    | none =>
      let (f, sl, inc, r) := p.claims
      let s := s.modPort port (fun p =>
        { p with state := .up, pfleet := BitVec.ofNat 6 f, pslot := BitVec.ofNat 6 sl, pinc := BitVec.ofNat 16 inc,
                 prole := BitVec.ofNat 3 r, pvalid := true, phash := BitVec.ofNat 32 (bfld (sha256 p.peerKey) 0 4),
                 ups := satAdd p.ups 1, authTo := 0,
                 vcs := (List.range 4).foldl (fun t v =>
                   tabSet {} t v { cred := Config.peerVcbuf s.free v, cap := Config.peerVcbuf s.free v }) [] })
      let s := { s with free := s.free + 1 }
      .next ((s.log 0x3101 [.link port, .val 1 p.width.toNat, .val 1 f, .val 1 sl, .val 2 inc]).pump port)
  else if p.linked then .next (s.portProto port 4) else .next s

/-- AUTH_TIMEOUT: 1 s without all three messages; the third in a row quarantines the port (R433). -/
def execAuthTimeout (port : Fin 8) (s : State) : Res :=
  let p := s.port port
  if p.state = .auth then
    let s := s.log 0x3104 [.link port, .val 1 5]
    let s := s.modPort port (fun p => { p with authTo := p.authTo + 1 })
    .next (if 3 ≤ p.authTo + 1 then (s.portQuar port 1).modPort port (fun p => { p with authTo := 0 }) else s.portDown port 5 true)
  else .next s

/-! Lanes (R434, R439). -/

/-- Lanes of a port have become unhealthy, and `h` and `tx` are those that are left, by direction: RETRAIN at a lower width where an active
lane is among them; DOWN with LOS where no lane is locked, with WIDTH below four healthy ones (R434, R439). -/
def State.lanesLeft (s : State) (i : Nat) (h tx : BitVec 20) : State :=
  let p := s.port i
  let used := p.rxActive.any (fun l => !h.getLsbD l) || ((healthyLanes p.txHealthy).take p.width.toNat).any (fun l => !tx.getLsbD l)
  let s := s.modPort i (fun p => { p with healthy := h, txHealthy := tx })
  if !used then s
  else if h = 0 then s.portDown i 1 true
  else if (s.port i).bestWidth = 0 then s.portDown i 3 true
  else s.modPort i (fun p => { p with state := .retrain, drainAfter := p.drainAfter || decide (p.state = .draining) })

/-- LANE_UNHEALTHY: physical receive lanes lose lock, or the partner begins a width change since the logical lanes named have failed at its
receiver (R421, R434; log entry 19). An active one: RETRAIN, or DOWN; during TRAINING or AUTH training starts again (R434, R439). -/
def execLaneUnhealthy (port : Fin 8) (l : LaneLoss) (s : State) : Res :=
  let p := s.port port
  let h := if l.peer then p.healthy else p.healthy &&& ~~~(p.rxHealthy l.lanes)
  let tx := if l.peer then p.txHealthy &&& ~~~l.lanes else p.txHealthy
  if p.state = .training ∨ p.state = .auth then
    .next (s.modPort port (fun p => { p.clear .training p.downwhy.toNat with firstTry := p.firstTry, healthy := h, txHealthy := tx }))
  else if p.linked then .next (s.lanesLeft port h tx)
  else .next s

/-- RETRAIN_DONE: the port is UP again at the widest width that the healthy lanes of both directions fill; it never grows here (R434). -/
def execRetrainDone (port : Fin 8) (s : State) : Res :=
  let p := s.port port
  if p.state = .retrain then
    let w := min p.width.toNat p.bestWidth
    let s := s.modPort port (fun p =>
      { p with state := if p.drainAfter then .draining else .up, drainAfter := false, width := BitVec.ofNat 5 w,
               degrades := if w < p.width.toNat then satAdd p.degrades 1 else p.degrades })
    let s := if w < p.width.toNat then
        s.log 0x3103 [.link port, .val 1 p.width.toNat, .val 1 w, .val 4 (~~~p.healthy).toNat]
      else s
    .next (s.pump port)
  else .next s

/-- RETRAIN_TIMEOUT: RETRAIN did not end within 20 us (R434). -/
def execRetrainTimeout (port : Fin 8) (s : State) : Res :=
  if (s.port port).state = .retrain then .next (s.portDown port 4 true) else .next s

/-! Codewords (R422 to R428, R435). -/

/-- Codewords that an ACK covers leave the replay buffer, and with them the packets that are wholly acknowledged. -/
def Port.ack (p : Port) (c : Nat) : Port :=
  match findIdx? (fun (e : TxCw) => e.cseq.toNat == c) p.replay with
  | none => p
  | some j =>
    let gone := (p.replay.take (j + 1)).map (fun e => e.cseq.toNat)
    { p with replay := p.replay.drop (j + 1), ackedTo := some (BitVec.ofNat 10 c),
             txq := p.txq.filter (fun t => match t.last with | some x => !gone.contains x | none => true) }

/-- A codeword was sent: it waits in the replay buffer, or is the newest acknowledged one (R435). -/
def Port.sent (p : Port) (c : Nat) : Bool :=
  p.replay.any (fun e => e.cseq.toNat == c) || decide (p.ackedTo = some (BitVec.ofNat 10 c))

/-- The codewords from a CSEQ on, in order: what a replay sends. -/
def Port.fromCseq (p : Port) (c : Nat) : List TxCw := p.replay.dropWhile (fun e => !(e.cseq.toNat == c))

/-- The replay buffer with one more replay counted of every codeword that is sent again. -/
def Port.replayed (p : Port) (c : Nat) : List TxCw :=
  p.replay.takeWhile (fun e => !(e.cseq.toNat == c)) ++ (p.fromCseq c).map (fun e => { e with reps := e.reps + 1 })

/-- A replay from a codeword on; where a CSEQ is replayed the eighth time in a row without ACK passing it, the port goes down (R427). -/
def State.replayFrom (s : State) (i c : Nat) : State :=
  let p := s.port i
  let s := s.modPort i (fun p => { p with replays := satAdd p.replays 1, replay := p.replayed c })
  if (p.fromCseq c).any (fun e => decide (8 ≤ e.reps + 1)) then s.portDown i 2 true
  else s.emitAll ((p.fromCseq c).map (p.line i))

/-- What the flits of a codeword lead to. -/
inductive FlitEnd where
  | ok (p : Port) (naks : List Nat) (bye : Bool)
  | bad (v : Nat)
  deriving DecidableEq, Repr

/-- One control flit (R423, R435). -/
def Port.control (p : Port) (f : List Byte) (naks : List Nat) (bye : Bool) : FlitEnd :=
  let ck := bfld f 0 1
  let a := bfld f 2 2
  let n := bfld f 4 2
  let crs := (List.range 4).map (fun v => (v, bfld f (6 + 4 * v) 4))
  if 3 < ck then .bad 3
  else if (bit a 15 && !p.sent (bits a 9 0)) || (bit n 15 && !p.replay.any (fun e => e.cseq.toNat == bits n 9 0)) then .bad 1
  else if p.state ≠ .auth ∧ crs.any (fun q => decide ((p.vc q.1).cap < (p.vc q.1).cred + q.2)) then .bad 2
  else if ck = 2 ∧ p.state ≠ .auth then .bad 4
  else
    let p := if bit a 15 then p.ack (bits a 9 0) else p
    let p := if ck = 2 then { p with authIn := p.authIn ++ bsub f 22 40 } else p
    let p := if p.state = .auth then p else { p with vcs := crs.foldl (fun t q => tabMod {} t q.1 (fun x => { x with cred := x.cred + q.2 })) p.vcs }
    .ok p (if bit n 15 then naks ++ [bits n 9 0] else naks) (bye || ck == 3)

/-- One data flit: held in its virtual channel's buffer until the gallery layer takes its packet. One beyond the credits granted, those
of flits freed and not yet returned among them, overruns them (R426, R428, R435). -/
def Port.dataFlit (p : Port) (f : List Byte) (naks : List Nat) (bye : Bool) : FlitEnd :=
  if p.state = .auth then .bad 5
  else
    let (left, vc) := if p.rxLeft.1 = 0 then (bfld f 2 1, 2 * (bfld f 1 1 % 2) + bfld f 1 1 / 2 % 2) else (p.rxLeft.1 - 1, p.rxLeft.2)
    if p.vcbuf.getD vc 0 < (p.vc vc).buf.length + (p.vc vc).owed + 1 then .bad 6
    else .ok { p with rxLeft := (left, vc), vcs := tabMod {} p.vcs vc (fun x => { x with buf := x.buf ++ [f] }) } naks bye

/-- The flits of an accepted codeword in order. -/
def Port.takeFlits (p : Port) : List (List Byte × Bool) → List Nat → Bool → FlitEnd
  | [], naks, bye => .ok p naks bye
  | (f, ctl) :: r, naks, bye =>
    match (if ctl then p.control f naks bye else p.dataFlit f naks bye) with
    | .bad v => .bad v
    | .ok p naks bye => Port.takeFlits p r naks bye

/-- The corrected symbols of a codeword counted in the register and by physical lane; how many of a lane's earlier ones lie within 1 ms
is a free value (R434, R441; log entry 20). -/
def State.countCorr (s : State) (i : Nat) (errs : List Nat) : State :=
  errs.eraseDups.foldl (fun s l =>
      let n := Config.draw s.free % (tabGet 0 (s.port i).laneErr l + 1) + errs.count l
      { s.modPort i (fun p => { p with laneErr := tabSet 0 p.laneErr l n }) with free := s.free + 1 })
    (s.modPort i (fun p => { p with corr := satAdd p.corr errs.length }))

/-- The logical lanes whose count exceeds DEGTHR (R434). -/
def Port.noisy (p : Port) : BitVec 20 :=
  (p.laneErr.filter (fun x => decide (p.degthr < x.2))).foldl (fun (h : BitVec 20) x => h ||| BitVec.ofNat 20 (2 ^ p.rxLogical x.1)) 0

/-- Lanes that exceed DEGTHR become unhealthy (R434). -/
def State.checkNoise (s : State) (i : Nat) : State :=
  let p := s.port i
  if p.linked ∧ p.noisy &&& p.healthy ≠ 0 then s.lanesLeft i (p.healthy &&& ~~~p.noisy) p.txHealthy else s

/-- A codeword that is not accepted is answered with NAK at once; of a CSEQ that has a NAK out a second one goes only after 2 us, and
whether that time has passed is a free value (R424, R426; log entry 20). -/
def State.nakCodeword (s : State) (i : Nat) : State :=
  let again := !(s.port i).nakPend || decide (Config.draw s.free % 2 = 0)
  let s := { s with free := s.free + b2n (s.port i).nakPend }
  let s := s.modPort i (fun p => { p with nakPend := true, nakDue := p.nakDue || again })
  if again then s.sendIdle i else s

/-- What a port is after it has accepted a codeword in order, before its flits are taken. -/
def Port.accepted (p : Port) : Port := { p with rxNext := p.rxNext + 1, nakPend := false, nakDue := false, ackOk := true, ackDue := true }

/-- The flits of an accepted codeword taken: control flits acknowledge, ask for resends and return credits (R423, R426, R435, R438). -/
def State.takeCodeword (s : State) (i : Nat) (cw : TxCw) : State :=
  match (s.port i).accepted.takeFlits (cw.flits.zipIdx.map (fun (f, j) => (f, cw.cmask.getLsbD j))) [] false with
  | .bad v => (s.modPort i Port.accepted).portProto i v
  | .ok p naks bye =>
    let s := s.modPort i (fun _ => p)
    let s := naks.foldl (fun s c => if (s.port i).state = .down then s else s.replayFrom i c) s
    if bye && (s.port i).state != .down then s.portDown i 7 false
    else if (s.port i).state = .auth then State.flushCtl (s.port i).ctlq.length s i
    else s.pump i

/-- CODEWORD_RECEIVE: what the lanes bring is decoded; a codeword in order with every CRC right is accepted, one that is uncorrectable or
has a bad flit is answered with NAK and discarded; a noisy lane ends in RETRAIN (R421 to R428, R434, R435). -/
def execCodewordReceive (port : Fin 8) (lanes : Lanes) (s : State) : Res :=
  let p := s.port port
  if p.carries then
    match p.decode lanes with
    | none => .next ((s.modPort port (fun p => { p with uncorr := satAdd p.uncorr 1 })).nakCodeword port)
    | some (cw, errs) =>
      let s := s.countCorr port errs
      let badF := (cw.flits.filter (fun f => !flitOk f)).length
      let s := if badF ≠ 0 then (s.modPort port (fun p => { p with crcbad := satAdd p.crcbad badF })).nakCodeword port
        else if cw.cseq ≠ p.rxNext then s
        else s.takeCodeword port cw
      .next (s.checkNoise port)
  else .next s

/-- REPLAY_TIMEOUT: the oldest unacknowledged codeword has waited 10 us (R427). -/
def execReplayTimeout (port : Fin 8) (s : State) : Res :=
  let p := s.port port
  match p.replay with
  | [] => .next s
  | e :: _ => if p.carries then .next (s.replayFrom port e.cseq.toNat) else .next s

/-- CREDIT_TIMEOUT: a channel with data waiting has had no credits for CREDIT_TO; the third within 60 s quarantines the
port. Whether the earlier ones lie within 60 s is a free value (R435; log entry 20). -/
def execCreditTimeout (port : Fin 8) (vc : Fin 4) (s : State) : Res :=
  let p := s.port port
  let waits := p.txq.any (fun t => t.last.isNone && pkVc t.pk == vc.val)
  if p.linked ∧ waits ∧ (p.vc vc).cred = 0 then
    let s := s.log 0x3106 [.link port, .val 1 vc.val]
    let recent := decide (Config.draw s.free % 2 = 0)
    let s := { s with free := s.free + 1 }
    let n := if recent then p.credTos + 1 else 1
    let s := s.modPort port (fun p => { p with credTos := if 3 ≤ n then 0 else n })
    .next (if 3 ≤ n then s.portQuar port 3 else s.portDown port 10 true)
  else .next s

/-! Commands (R436, R438, R441). -/

/-- LNK_RETRAIN: a full retraining, which passes through DOWN (R434). -/
def execLnkRetrain (port : Fin 8) (s : State) : Res :=
  let st := (s.port port).state
  if st = .up ∨ st = .retrain ∨ st = .draining ∨ st = .auth ∨ st = .training then .next (s.portDown port 6 false) else .next s

/-- LNK_DRAIN: an UP port begins an orderly detach; in RETRAIN the detach waits (R438, R439). -/
def execLnkDrain (port : Fin 8) (s : State) : Res :=
  let st := (s.port port).state
  if st = .up then .next (s.modPort port (fun p => { p with state := .draining }))
  else if st = .retrain then .next (s.modPort port (fun p => { p with drainAfter := true }))
  else .next s

/-- LNK_DRAIN_END: every packet is acknowledged, or 100 us have passed: BYE, then DOWN with reason LOCAL (R438). -/
def execLnkDrainEnd (port : Fin 8) (s : State) : Res :=
  if (s.port port).state = .draining then
    let (p, w) := (s.port port).form [(s.port port).ctlFlit 3 (s.port port).nakDue []] []
    .next (((s.modPort port (fun _ => p)).emit (p.line port w)).portDown port 6 false)
  else .next s

/-- LNK_UNQUAR: a quarantined port goes to DOWN (R436). -/
def execLnkUnquar (port : Fin 8) (s : State) : Res :=
  if (s.port port).state = .quarantined then .next (s.modPort port (fun p => { p.clear .down 8 with quars := p.quars })) else .next s

/-- LNK_QUAR: the port is quarantined at once (R436). -/
def execLnkQuar (port : Fin 8) (s : State) : Res :=
  if (s.port port).state = .quarantined then .next s else .next (s.portQuar port 5)

/-- BYE_RECEIVE: the partner detaches (R438). -/
def execByeReceive (port : Fin 8) (s : State) : Res :=
  let st := (s.port port).state
  if st = .up ∨ st = .draining ∨ st = .retrain then .next (s.portDown port 7 false) else .next s

end Sys2Proof.Machine
end

