-- ==== Sys2Proof/Machine/Gal.lean ====
section
/-! DEFINITION. The delivery of gallery packets: flows and their sequence numbers, responses, resends, the first-hop
filter, and forwarding (R443 to R460). A packet for this device itself waits in its own flow and is taken by the
command of its type with no port (R443; log entry 22). -/
namespace Sys2Proof.Machine
open Sys2Proof

/-! Flows at the source (R454). -/

/-- The source side of a flow. -/
def State.flow (s : State) (f : Nat) : TxFlow := tabGet {} s.gal.tx f

/-- The state with a flow changed. -/
def State.modFlow (s : State) (f : Nat) (g : TxFlow → TxFlow) : State :=
  { s with gal := { s.gal with tx := tabMod {} s.gal.tx f g } }

/-- The incarnation of a slot as this device knows it. -/
def State.incOf (s : State) (f : Nat) : BitVec 16 := if f = s.ownKey then s.gal.incarn else tabGet 0 s.gal.incs f

/-- A packet of this device's own enters the fabric (R457). -/
def State.inject (s : State) (pk : Packet) : State := if s.mayInject pk then s.transmit pk none else s

/-- A packet's source and destination fields filled in for a destination. -/
def State.address (s : State) (dst : Nat) (pk : Packet) : Packet :=
  { pk with fleet := dst / 64, slot := dst % 64, sfleet := s.gal.fleet.toNat, sslot := s.gal.slot.toNat,
            sinc := s.gal.incarn.toNat, dinc := (s.incOf dst).toNat }

/-- A request given the next SEQ of its flow and held until it is acknowledged (R454). -/
def State.queueReq (s : State) (dst : Nat) (pk : Packet) : State × Packet :=
  let pk := { s.address dst pk with cls := 0, seq := (s.flow dst).nextSeq }
  (s.modFlow dst (fun f => { f with nextSeq := (f.nextSeq + 1) % 2 ^ 32, unacked := f.unacked ++ [(pk, 0)] }), pk)

/-- A queued request enters the fabric where it lies within the 256 of its flow (R454); one for this device itself waits
for its command. -/
def State.launch (s : State) (dst : Nat) (pk : Packet) : State :=
  if dst = s.ownKey then s
  else if ((s.flow dst).unacked.take 256).any (fun u => u.1.seq == pk.seq) then s.inject pk else s

/-- A request sent. -/
def State.sendReq (s : State) (dst : Nat) (pk : Packet) : State :=
  let (s, pk) := s.queueReq dst pk
  s.launch dst pk

/-- A control packet sent to another device (R449). -/
def State.sendCtl (s : State) (dst ptype : Nat) (fields : List Nat) : State :=
  s.inject { s.address dst { ptype := ptype, fields := fields } with cls := 1 }

/-- A request leaves its flow; the next one beyond the 256 enters the fabric. -/
def State.popReq (s : State) (flow seq : Nat) : State :=
  let u := (s.flow flow).unacked
  let had := u.any (fun x => x.1.seq == seq)
  let s := s.popTx flow seq
  let s := s.modFlow flow (fun f => if f.busyAt = some seq then { f with busyAt := none } else f)
  if flow = s.ownKey ∨ !had then s
  else match u[256]? with
    | some (p, _) => s.inject p
    | none => s

/-- The requests of a flow from a SEQ on sent again, in order (R454). -/
def State.resendFrom (s : State) (flow seq : Nat) (count : Bool) : State :=
  let win := (s.flow flow).unacked.take 256
  let hit := (win.dropWhile (fun u => !(u.1.seq == seq))).map (fun u => u.1)
  let bump (f : TxFlow) : TxFlow :=
    if count then { f with unacked := f.unacked.map (fun u => if hit.any (fun p => p.seq == u.1.seq) then (u.1, u.2 + 1) else u) }
    else f
  let s := s.modFlow flow bump
  let s := { s with gal := { s.gal with resent := satAdd s.gal.resent hit.length } }
  hit.foldl (fun s p => s.inject p) s

/-- Every pending operation of a flow fails with cause 1 (R454). -/
def State.failFlow (s : State) (flow : Nat) : State :=
  let seqs := (s.flow flow).unacked.map (fun u => u.1.seq)
  let owned := seqs.any (fun q => (s.ownerCore flow q).isSome || (s.ownerImg flow q).isSome)
  let s := seqs.foldl (fun s q => s.remFault flow q 1 0) s
  if owned then s else s.modFlow flow (fun f => { f with unacked := f.unacked.map (fun u => (u.1, 0)) })

/-- Resends that count toward E2E_TRIES; once a SEQ has been resent that often the flow fails, but not in FENCED (R454,
R469). -/
def State.retryFlow (s : State) (flow seq : Nat) : State :=
  let out := ((s.flow flow).unacked.take 256).any (fun u => u.1.seq == seq && decide (s.cfg.e2eTries ≤ u.2))
  if out && s.gal.state != .fenced then s.failFlow flow else s.resendFrom flow seq true

/-! Responses at the source (R318, R331, R454, R460). -/

/-- A remote operation has all its effect in place: nothing is outstanding, and for XCH the rows are sent and those of
the experts owned here have landed (R318, R321). -/
def Entry.complete (e : Entry) : Bool :=
  e.dests.isEmpty && (wOpc e.word != 0x94 || (decide (e.xchPhase = 3) && e.xchPosted))

/-- An entry whose packet was answered: one more acknowledged, the packet gone, done once it is complete. -/
def Entry.answered (e : Entry) (flow seq : Nat) : Entry :=
  let e := { e with acked := e.acked + 1, dests := e.dests.filter (fun d => !(d.1 == flow && d.2.1 == seq)) }
  { e with done := e.done || e.complete }

/-- An entry after poisoned data landed or left. -/
def Entry.poisonIf (e : Entry) (p : Bool) : Entry :=
  if p then { e with flags := e.flags ||| fPOISON, status := e.status ||| 1 } else e

/-- Payload bytes of a packet with their poison. -/
def pkBytes (p : Packet) : List PByte := p.data.zipIdx.map (fun (b, i) => (b, psHas p.pois (i / 4)))

/-- Marked bytes as payload and poison mask. -/
def poisWords (bs : List PByte) : PSet :=
  (List.range (ceilDiv bs.length 4)).filter (fun w => ((bs.drop (4 * w)).take 4).any Prod.snd)

/-- The bytes of an image's poison bitmap that cover a core-store range, the bits of the range taken from the marks of its core (R480). -/
def State.imgMarks (s : State) (k l a n : Nat) (marks : PSet) : State :=
  if n = 0 then s
  else
    let base := (s.cell k).area.toNat + 2097152 + l * 33554432 + 27000832
    let lo := a / 4
    let hi := (a + n - 1) / 4
    (List.range (hi / 8 + 1 - lo / 8)).foldl (fun s i =>
      let q := lo / 8 + i
      let old := byteAt (s.hbmRead (base + q) 1) 0
      let b := (List.range 8).foldl (fun v j =>
        let w := 8 * q + j
        v + b2n (if lo ≤ w ∧ w ≤ hi then psHas marks w else bit old j) * 2 ^ j) 0
      (s.touchPhys (base + q) 1 true).hbmWrite (base + q) (leBytes 1 b) false) s

/-- Marked bytes written to a core store of a context image, in the model and in its bytes, with their marks in its poison bitmap (R480,
R484). -/
def State.imgWrite (s : State) (k l a : Nat) (bs : List PByte) : State :=
  let s := s.modImg k l (fun co => co.pwrite a bs)
  let at_ := (s.cell k).area.toNat + 2097152 + l * 33554432 + a
  let s := (s.touchPhys at_ bs.length true).hbmWrite at_ (bs.map Prod.fst) false
  s.imgMarks k l a bs.length ((s.cell k).img.elim [] (fun im => (im.cores.getD l {}).storePois))

/-- The effect of an answer on the operation that owns the packet: the data lands at LADDR, the old value fills the
record (R318, R319, R331). -/
def Entry.answer (e : Entry) (flow seq : Nat) (r : Packet) : Entry :=
  let v := leNat r.data
  let e := if r.ptype = 0x15 then { e with fields := [BitVec.ofNat 32 v, BitVec.ofNat 32 (v / 2 ^ 32)] } else e
  (e.poisonIf (!r.pois.isEmpty)).answered flow seq

/-- Offset from LADDR at which the data of a packet lands. -/
def Entry.landAt (e : Entry) (flow seq : Nat) : Nat :=
  bfld e.block 8 4 + ((e.dests.find? (fun d => d.1 == flow && d.2.1 == seq)).elim 0 (fun d => d.2.2))

/-- ACK, GETDATA or ATOMDATA of a request: its data lands, its entry advances, and the request leaves its flow. An entry
of a context image that is done has its post added to the image's scoreboard (R454, R484, R538). -/
def State.onAck (s : State) (flow seq : Nat) (r : Packet) : State :=
  let data := if r.ptype = 0x10 then [] else pkBytes r
  let s := match s.ownerCore flow seq with
    | some (n, e) =>
      let a := e.landAt flow seq
      s.modCore n (fun co => (co.pwrite a data).modEntry e.stream e.ord (fun e => e.answer flow seq r))
    | none =>
      match s.ownerImg flow seq with
      | none => s.rdmaAnswer flow seq (some r)
      | some (k, l, e) =>
        let s := s.imgWrite k l (e.landAt flow seq) data
        let e' := e.answer flow seq r
        let fin := e'.done && e'.outcome != 1
        let s := s.modImgEntry k l e.stream e.ord (fun e =>
          { e.answer flow seq r with outcome := if fin then 1 else (e.answer flow seq r).outcome })
        if fin then s.postImg k l (wPost e.word) 1 else s
  s.popReq flow seq

/-- ERR of a request: the operation faults with the target's event; a request that the target consumed leaves its flow
(R460). -/
def State.onErr (s : State) (flow seq : Nat) (r : Packet) : State :=
  let cause := r.fields.getD 0 0
  let ev := r.fields.getD 1 0
  let s := s.remFault flow seq cause ev
  if cause = 5 ∨ ev = 0x3205 then s else s.popReq flow seq

/-- BUSY of a request: it is sent again after RETRYDLY (R454). -/
def State.onBusy (s : State) (flow seq : Nat) : State := s.modFlow flow (fun f => { f with busyAt := some seq })

/-- A response handled at the source, by its type. -/
def State.onResponse (s : State) (flow seq : Nat) (r : Packet) : State :=
  match r.ptype with
  | 0x12 => s.onBusy flow seq
  | 0x13 => s.onErr flow seq r
  | _ => s.onAck flow seq r

/-! The first-hop filter (R456). -/

/-- A packet is for this device. -/
def State.forMe (s : State) (pk : Packet) : Bool := flowKey pk.fleet pk.slot == s.ownKey

/-- A packet stands at the head of its channel's receive buffer: the flits there are the ones that spell it (R426, R428, R448). -/
def Port.heads (p : Port) (pk : Packet) : Bool :=
  pkSpelled pk && decide ((p.vc (pkVc pk)).buf.take (pkNflit pk + 1) = pkFlits pk)

/-- The receive buffer of a packet is freed and its credits return (R423, R428). -/
def State.freeFlits (s : State) (p : Nat) (pk : Packet) : State :=
  let n := pkNflit pk + 1
  s.modPort p (fun q => { q with vcs := tabMod {} q.vcs (pkVc pk) (fun v => { v with buf := v.buf.drop n, owed := v.owed + n }) })

/-- A forged packet: logged, and the port quarantined at FORGELIM in a second. How many of the earlier ones lie within the
second is a free value (R456; log entry 20). -/
def State.forged (s : State) (p : Nat) (pk : Packet) : State :=
  let s := s.log 0x3202 [.link p, .val 1 pk.sfleet, .val 1 pk.sslot]
  let s := { s with gal := { s.gal with forged := satAdd s.gal.forged 1 } }
  let n := Config.draw s.free % ((s.port p).forged + 1) + 1
  let s := { s with free := s.free + 1 }
  let s := s.modPort p (fun q => { q with forged := n })
  if s.cfg.forgelim ≤ n then s.portQuar p 4 else s

/-- The FENCE packet for a packet of a stale incarnation (R456). -/
def State.fenceFor (s : State) (pk : Packet) : Packet :=
  { s.address (flowKey pk.sfleet pk.sslot) { ptype := 0x26, fields := [pk.sslot, pk.sinc] } with cls := 1, dinc := pk.sinc }

/-- A packet of a stale incarnation: logged, and FENCE returned over the arrival port on the first hop, where that port takes packets
and the device may send it (R438, R456, R457). -/
def State.fencedPk (s : State) (p : Nat) (pk : Packet) : State :=
  let src := flowKey pk.sfleet pk.sslot
  let cur := (tabGet 0 s.gal.incs src).toNat
  let s := s.log 0x3203 [.link p, .val 1 pk.sfleet, .val 1 pk.sslot, .val 2 pk.sinc, .val 2 cur]
  let s := { s with gal := { s.gal with fencedCnt := satAdd s.gal.fencedCnt 1 } }
  if pk.hops = 0 ∧ (s.port p).takes ∧ s.mayInject (s.fenceFor pk) then s.portSend p (s.fenceFor pk) (s.fenceFor pk) none else s

/-- The checks of every received packet but the last; true where it passes (R456). -/
def State.filter (s : State) (p : Nat) (pk : Packet) : State × Bool :=
  let q := s.port p
  let src := flowKey pk.sfleet pk.sslot
  if pk.hops = 0 ∧ !(q.pvalid && src == flowKey q.pfleet.toNat q.pslot.toNat) then (s.forged p pk, false)
  else if pk.cls = 0 ∧ pk.sinc = 0 then (s.forged p pk, false)
  else if (tabGet 0 s.gal.incs src).toNat ≠ pk.sinc ∨ pk.sinc = 0 then (s.fencedPk p pk, false)
  else (s, true)

/-- A port delivers a packet to the gallery layer: past the handshake, and the packet stands at the head of its channel. -/
def State.delivers (s : State) (p : Nat) (pk : Packet) : Bool := (s.port p).linked && (s.port p).heads pk

/-! Requests at the target (R454). -/

/-- What a target does with a request in order: it answers, or it cannot take the request now. -/
inductive Ans where
  | resp (ptype : Nat) (fields : List Nat) (data : List PByte)
  | busy
  deriving DecidableEq, Repr

/-- The acknowledgement. -/
def ackAns : Ans := .resp 0x10 [] []
/-- ERR with the target's event (R460). -/
def errAns (ev : Nat) : Ans := .resp 0x13 [2, ev, 0] []

/-- A response packet to a request. -/
def State.respPk (s : State) (pk : Packet) (ptype : Nat) (fields : List Nat) (data : List PByte) : Packet :=
  { s.address (flowKey pk.sfleet pk.sslot) { ptype := ptype, fields := fields } with
    cls := 1, dinc := pk.sinc, seq := pk.seq, tag := pk.tag, data := data.map Prod.fst, pois := poisWords data }

/-- ERR with cause STALE_DEST (R456, R460). -/
def State.staleErr (s : State) (pk : Packet) : Packet := s.respPk pk 0x13 [5, 0, 0] []

/-- The target side of a request's flow. -/
def pkRx (pk : Packet) : Nat := 65536 * flowKey pk.sfleet pk.sslot + pk.sinc

/-- The state with the target side of a flow changed. -/
def State.modRx (s : State) (k : Nat) (g : RxFlow → RxFlow) : State :=
  { s with gal := { s.gal with rx := tabMod {} s.gal.rx k g } }

/-- A request that passed the filter, by its SEQ: executed in order, answered from the kept response, or refused with NAK
(R454). -/
def State.deliver (s : State) (pk : Packet) (exec : Packet → State → State × Ans) : State :=
  let k := pkRx pk
  let r := tabGet {} s.gal.rx k
  let d := (pk.seq + 2 ^ 32 - r.expect % 2 ^ 32) % 2 ^ 32
  if d = 0 then
    match exec pk s with
    | (s, .busy) => s.inject (s.respPk pk 0x12 [] [])
    | (s, .resp t fs data) =>
      let a := s.respPk pk t fs data
      let s := s.modRx k (fun r =>
        { r with expect := (r.expect + 1) % 2 ^ 32, kept := ((pk.seq, a) :: r.kept).take 256 })
      s.inject a
  else if d < 2 ^ 31 then
    let again := !r.naked || decide (Config.draw s.free % 2 = 0)
    let s := { s with free := s.free + b2n r.naked }
    let s := s.modRx k (fun r => { r with naked := true })
    if again then s.inject (s.respPk pk 0x11 [r.expect] []) else s
  else
    match r.kept.find? (fun x => x.1 == pk.seq) with
    | some x => s.inject x.2
    | none => s

/-- A request received on a port, or taken from this device's own flow: the filter, the stale-destination check and the
delivery (R443, R454, R456). -/
def State.receiveReq (s : State) (port : Option (Fin 8)) (pk : Packet) (ty : Nat)
    (exec : Packet → State → State × Ans) : State :=
  if pk.ptype ≠ ty ∨ pk.cls ≠ 0 ∨ !s.forMe pk then s
  else
    match port with
    | none =>
      let f := s.flow s.ownKey
      match f.unacked with
      | [] => s
      | u :: _ =>
        if u.1 = pk ∧ f.busyAt = none then
          match exec pk s with
          | (s, .busy) => s.onBusy s.ownKey pk.seq
          | (s, .resp t fs data) => s.onResponse s.ownKey pk.seq (s.respPk pk t fs data)
        else s
    | some p =>
      if s.delivers p pk then
        let s := s.freeFlits p pk
        match s.filter p pk with
        | (s, false) => s
        | (s, true) =>
          if pk.dinc ≠ s.gal.incarn.toNat then s.inject (s.staleErr pk) else s.deliver pk exec
      else s

/-- A response or control packet received on a port: the filter, the stale-destination check and its effect (R456; log entry 23). -/
def State.receiveCtl (s : State) (port : Option (Fin 8)) (pk : Packet) (ty : Nat) (eff : Nat → Packet → State → State) :
    State :=
  if pk.ptype ≠ ty ∨ pk.cls ≠ 1 ∨ !s.forMe pk then s
  else
    match port with
    | none => s
    | some p =>
      if s.delivers p pk then
        let s := s.freeFlits p pk
        match s.filter p pk with
        | (s, false) => s
        | (s, true) => if pk.dinc ≠ s.gal.incarn.toNat then s.inject (s.staleErr pk) else eff p pk s
      else s

/-- The flow that a response belongs to: that of its source, or the one that a NOROUTE error names (R450; log entry 21). -/
def respFlow (pk : Packet) : Nat :=
  if pk.ptype = 0x13 ∧ pk.fields.getD 1 0 = 0x3205 then pk.fields.getD 2 0 else flowKey pk.sfleet pk.sslot

/-- A response to a request that is still outstanding. -/
def respEff (eff : Nat → State → State) (_ : Nat) (pk : Packet) (s : State) : State :=
  let flow := respFlow pk
  if (s.flow flow).unacked.any (fun u => u.1.seq == pk.seq) then eff flow s else s

/-! Commands. -/

/-- PACKET_FORWARD: a packet for another device: filtered, its HOPS raised, and sent on (R450, R451, R456). -/
def execPacketForward (port : Option (Fin 8)) (pk : Packet) (s : State) : Res :=
  match port with
  | none => .next s
  | some p =>
    if s.delivers p pk && !s.forMe pk then
      let s := s.freeFlits p pk
      match s.filter p pk with
      | (s, false) => .next s
      | (s, true) => .next (s.transmit { pk with hops := pk.hops + 1 } (some p.val))
    else .next s

/-- NAK_RECEIVE: the flow is resent from the SEQ named (R454). -/
def execNakReceive (port : Option (Fin 8)) (pk : Packet) (s : State) : Res :=
  .next (s.receiveCtl port pk 0x11 (fun _ pk s =>
    let f := flowKey pk.sfleet pk.sslot
    if (s.flow f).unacked.any (fun u => u.1.seq == pk.fields.getD 0 0) then s.retryFlow f (pk.fields.getD 0 0) else s))

/-- BUSY_RECEIVE: the request waits RETRYDLY (R454). -/
def execBusyReceive (port : Option (Fin 8)) (pk : Packet) (s : State) : Res :=
  .next (s.receiveCtl port pk 0x12 (respEff (fun f s => s.onBusy f pk.seq)))

/-- BUSY_RETRY_TIMER: RETRYDLY after a BUSY the flow is resent from its SEQ, without counting (R454). -/
def execBusyRetryTimer (flow : Nat) (s : State) : Res :=
  match (s.flow flow).busyAt with
  | none => .next s
  | some q =>
    let s := s.modFlow flow (fun f => { f with busyAt := none })
    .next (if flow = s.ownKey then s else s.resendFrom flow q false)

/-- ERR_RECEIVE: the operation faults (R460). -/
def execErrReceive (port : Option (Fin 8)) (pk : Packet) (s : State) : Res :=
  .next (s.receiveCtl port pk 0x13 (respEff (fun f s => s.onErr f pk.seq pk)))

/-- GETDATA_RECEIVE: the bytes of an RGET land at LADDR (R318). -/
def execGetdataReceive (port : Option (Fin 8)) (pk : Packet) (s : State) : Res :=
  .next (s.receiveCtl port pk 0x14 (respEff (fun f s => s.onAck f pk.seq pk)))

/-- ATOMDATA_RECEIVE: the old value of an RATOM lands at LADDR (R318, R319). -/
def execAtomdataReceive (port : Option (Fin 8)) (pk : Packet) (s : State) : Res :=
  .next (s.receiveCtl port pk 0x15 (respEff (fun f s => s.onAck f pk.seq pk)))

/-- E2E_TIMEOUT: E2E_TO passed without an ACK: the flow is resent from its oldest SEQ (R454). -/
def execE2eTimeout (flow : Nat) (s : State) : Res :=
  match (s.flow flow).unacked with
  | [] => .next s
  | u :: _ => .next (if flow = s.ownKey then s else s.retryFlow flow u.1.seq)

end Sys2Proof.Machine
end

