-- ==== Sys2Proof/Machine/Target.lean ====
section
/-! DEFINITION. What the target of a gallery request does: PUT, GETREQ, ATOM, SIGNAL, XCNT (R318, R319, R321, R323,
R354, R355, R365, R377). -/
namespace Sys2Proof.Machine
open Sys2Proof

/-! Refusals at the target. -/

/-- The source of a packet as one number, the poster of its tokens. -/
def pkFrom (pk : Packet) : Nat := flowKey pk.sfleet pk.sslot

/-- MEM_ADDR: the packet's byte range breaks R365; nothing is read or written. -/
def State.memAddr (s : State) (pk : Packet) : State × Ans :=
  (s.log 0x2106 [.val 8 pk.addr, .val 1 pk.sslot, .val 2 pk.sinc], errAns 0x2106)

/-- LAND_REFUSED: a landing outside the staging partition (R354). -/
def State.landRefused (s : State) (pk : Packet) (core n : Nat) : State × Ans :=
  (s.log 0x2301 [.core core, .val 4 ((pk.addr - csBase) % csWin), .val 4 n, .val 1 pk.sslot, .val 2 pk.sinc], errAns 0x2301)

/-- The token that a packet's operation names, posted once its effect is in place (R318). -/
def State.postPk (s : State) (pk : Packet) (n : Nat) : State :=
  if pk.ttoken = 0 then s else s.postTo (pk.tcell % 16) pk.tlcore pk.ttoken n (pkFrom pk)

/-! Landings in a core store (R354, R355, R269, R270). -/

/-- The hazard that landing data meets: kind 5 on a granule with a reader or writer in flight, kind 4 on a retained one. -/
def Core.landHazard (co : Core) (l : Nat) (r : Nat × Nat) : Option (Nat × (Nat × BitVec 32)) :=
  ((granules r).filterMap (fun g =>
    let t := tabGet {} co.tags g
    if t.writer.isSome || !t.readers.isEmpty then
      some (5, (g, t.who l 7 (if t.writer.isSome then 1 else 3)))
    else if t.retain then some (4, (g, t.retId)) else none)).head?

/-- The LAND bits of a staging range set or cleared (R268). -/
def Core.landTag (co : Core) (r : Nat × Nat) (b : Bool) : Core :=
  { co with tags := (granules r).foldl (fun t g => tabMod {} t g (fun x => { x with land := b })) co.tags }

/-- The cell is frozen by a landing (R271). -/
def State.landFreeze (s : State) (k : Nat) (h : Nat × (Nat × BitVec 32)) (frm : Nat) : State :=
  let (kind, g, who) := h
  let s := s.log 0x5101 [.val 1 kind, .val 4 g, .val 4 frm, .val 4 who.toNat,
    .val 4 (s.cell k).tick.toNat]
  s.modCell k (fun c => c.freeze none)

/-- Data landed at an offset of a core store; `more` says that the transfer goes on, `off` how much of it landed before. -/
def State.landStore (s : State) (k n a : Nat) (bs : List PByte) (more : Bool) (off frm : Nat) : State :=
  let s' := s.modCore n (fun co => co.pwrite a bs)
  if !s.cfg.debug then s'
  else
    let r := if more then (a, bs.length) else (a - off, off + bs.length)
    let s' := s'.modCore n (fun co => co.landTag r more)
    match (s.core n).landHazard ((s.cell k).lcore n) (a, bs.length) with
    | none => s'
    | some h => s'.landFreeze k h frm

/-- A range lies wholly in the staging partition of a cell (R354). -/
def Cell.inStaging (c : Cell) (a n : Nat) : Bool :=
  match c.staging with
  | none => false
  | some (o, sz) => decide (o ≤ a ∧ a + n ≤ o + sz)

/-- What a landing at a local address meets: the cell and the offset, busy, or a refusal. -/
inductive Landing where
  | hbm
  | store (k n off : Nat)
  | busy
  | refused (n : Nat)
  deriving DecidableEq, Repr

/-- Where a range that meets R365 lands (R354, R484). -/
def State.landing (s : State) (a n : Nat) : Landing :=
  match csCore a with
  | none => .hbm
  | some c =>
    match s.cellOf c with
    | none => .refused c
    | some k =>
      if (s.cell k).ctx = 3 then .busy
      else if (s.cell k).inStaging ((a - csBase) % csWin) n then .store k c ((a - csBase) % csWin) else .refused c

/-! PUT (R318, R321, R354). -/

/-- A row of an XCH is in: one more row landed of its GROUP and expert (R321). -/
def State.rowLanded (s : State) (grp ex : Nat) : State :=
  let key (x : Nat × (Nat × Nat)) : Bool := x.1 == grp && x.2.1 == ex
  { s with gal := { s.gal with xchLanded :=
    match s.gal.xchLanded.find? key with
    | some _ => s.gal.xchLanded.map (fun x => if key x then (x.1, (x.2.1, x.2.2 + 1)) else x)
    | none => s.gal.xchLanded ++ [(grp, (ex, 1))] } }

/-- What follows once the bytes of a PUT have landed: an XCH row counts with its last packet, and the token is posted (R318, R321). -/
def State.putDone (s : State) (pk : Packet) (last : Bool) : State :=
  (if pk.fields.getD 2 0 = 1 ∧ last then s.rowLanded (pk.fields.getD 1 0) (pk.fields.getD 3 0) else s).postPk pk 1

/-- A PUT lands its bytes. Fields: LEN, GROUP, kind (1 an XCH row), expert, offset (log entry 21). -/
def tgtPut (pk : Packet) (s : State) : State × Ans :=
  let bs := pkBytes pk
  let off := pk.fields.getD 4 0
  let last := decide (pk.fields.getD 0 0 ≤ off + bs.length)
  if !rangeOk pk.addr bs.length then s.memAddr pk
  else match s.landing pk.addr bs.length with
    | .busy => (s, .busy)
    | .refused n => s.landRefused pk n bs.length
    | .hbm => ((((s.touchPhys pk.addr bs.length true).hwrite pk.addr bs).putDone pk last), ackAns)
    | .store k n o => ((s.landStore k n o bs (!last) off (pkFrom pk)).putDone pk last, ackAns)

/-- The experts that an XCH owns: those whose GPA names this device and whose owner is its SRCIDX (R312, R321). -/
def State.xchOwned (s : State) (e : Entry) : List Nat :=
  (List.range (bfld e.block 20 2)).filter (fun i =>
    let g := bfld e.block (64 + 16 * i) 8
    flowKey (bits g 55 50) (bits g 49 44) == s.ownKey && bfld e.block (64 + 16 * i + 12) 2 == bfld e.block 24 2)

/-- The owner of XCH experts posts its token once the rows of every expert it owns have landed (R321): an in-flight XCH,
with the rows it received. -/
def State.xchOwner (s : State) (e : Entry) : Option Nat :=
  let b := e.block
  let grp := bfld b 26 2
  let rows := (s.xchOwned e).map (fun i =>
    let cs := s.gal.xchCnt.filter (fun x => x.1 == grp && x.2.1 == i)
    let want := min ((cs.map (fun x => x.2.2.2.1)).foldl (· + ·) 0) (bfld b (64 + 16 * i + 8) 4)
    let got := ((s.gal.xchLanded.find? (fun x => x.1 == grp && x.2.1 == i)).map (fun x => x.2.2)).getD 0
    (decide (cs.length = bfld b 22 2 ∧ want ≤ got), want))
  if rows.all Prod.fst then some ((rows.map Prod.snd).foldl (· + ·) 0) else none

/-- Every XCH in flight whose experts are complete posts its token and may end (R321, R331). -/
def State.xchCheck (s : State) : State :=
  coreIds.foldl (fun s n =>
    ((s.core n).inflight.filter (fun e => wOpc e.word == 0x94 && !e.xchPosted)).foldl (fun s e =>
      match s.xchOwner e with
      | none => s
      | some r =>
        let owns := !(s.xchOwned e).isEmpty
        let s := s.modCore n (fun co => co.modEntry 4 e.ord (fun e =>
          let e := { e with xchPosted := true,
                            fields := [e.fields.getD 0 0, e.fields.getD 1 0, BitVec.ofNat 32 r] }
          { e with done := e.done || e.complete }))
        if owns ∧ bfld e.block 28 1 ≠ 0 then
          s.postTo (bfld e.block 29 1 % 16) (bfld e.block 30 1) (bfld e.block 28 1) 1 e.id.toNat
        else s) s) s

/-- PUT_RECEIVE (R354). -/
def execPutReceive (port : Option (Fin 8)) (pk : Packet) (s : State) : Res :=
  .next (s.receiveReq port pk 0x01 tgtPut).xchCheck

/-! GETREQ (R318, R354). -/

/-- A GETREQ reads its range: any byte of HBM or of a core store. Field: the length. -/
def tgtGet (errs : List SectorErr) (pk : Packet) (s : State) : State × Ans :=
  let n := pk.fields.getD 0 0
  if !rangeOk pk.addr n ∨ 4096 < n then s.memAddr pk
  else
    let (s, bs) := match csCore pk.addr with
      | none =>
        let s := (s.decay errs).touchPhys pk.addr n false
        (s, s.hread pk.addr n)
      | some c => (s, ((s.core c).pread ((pk.addr - csBase) % csWin) n).map (fun (q : PByte) => (q.1, q.2 || s.rst.quiet.contains (64 + c))))
    (s.postPk pk 1, .resp 0x14 [n] bs)

/-- GETREQ_RECEIVE: the bytes go back as GETDATA; `errs` are sectors that have come to be in error since (R318, R369). -/
def execGetreqReceive (port : Option (Fin 8)) (pk : Packet) (errs : List SectorErr) (s : State) : Res :=
  .next (s.receiveReq port pk 0x02 (tgtGet errs))

/-! ATOM (R319, R377). -/

/-- The new value of an atomic, by OP, SIZE, old value, OPERAND and COMPARE (R319). -/
def atomNew (op sz old opd cmp : Nat) : Nat :=
  let w := 8 * sz
  let m := 2 ^ w
  match op with
  | 0 => (old + opd) % m
  | 1 => if sInt w old ≤ sInt w opd then old else opd % m
  | 2 => if sInt w old ≤ sInt w opd then opd % m else old
  | 3 => old &&& (opd % m)
  | 4 => old ||| (opd % m)
  | 5 => old ^^^ (opd % m)
  | 6 => opd % m
  | 7 => if old = cmp % m then opd % m else old
  | 8 => (fp32.rne ((fp32.dec old).add (fp32.dec (opd % m)))).1
  | _ => (bf16.rne ((bf16.dec old).add (bf16.dec (opd % m)))).1

/-- An ATOM executes in the home slice: the stored bytes change, a poisoned sector stays poisoned and the old value
returns poisoned. Fields: OP, SIZE, OPERAND, COMPARE (R319, R377). -/
def tgtAtom (pk : Packet) (s : State) : State × Ans :=
  let op := pk.fields.getD 0 0
  let sz := pk.fields.getD 1 0
  if !rangeOk pk.addr sz then s.memAddr pk
  else match csCore pk.addr with
    | some c => s.landRefused pk c sz
    | none =>
      let s := s.touchAtom pk.addr sz
      let p := s.hbmPoisoned pk.addr sz
      let old := leNat (s.hbmRead pk.addr sz)
      let new := atomNew op sz old (pk.fields.getD 2 0) (pk.fields.getD 3 0)
      let s := s.hwrite pk.addr (pBytes sz new p)
      (s.postPk pk 1, .resp 0x15 [] (pBytes 8 old p))

/-- ATOM_RECEIVE (R319). -/
def execAtomReceive (port : Option (Fin 8)) (pk : Packet) (s : State) : Res := .next (s.receiveReq port pk 0x03 tgtAtom)

/-! SIGNAL (R323). -/

/-- A SIGNAL posts its COUNT; while the cell is PREEMPTED it is answered BUSY (R323, R484). Field: COUNT. -/
def tgtSignal (pk : Packet) (s : State) : State × Ans :=
  if (s.cell (pk.tcell % 16)).ctx = 3 then (s, .busy) else (s.postPk pk (pk.fields.getD 0 0), ackAns)

/-- SIGNAL_RECEIVE (R323). -/
def execSignalReceive (port : Option (Fin 8)) (pk : Packet) (s : State) : Res := .next (s.receiveReq port pk 0x06 tgtSignal)

/-! XCNT (R321). -/

/-- The base of each peer that sent a count, in ascending SRCIDX (R321). -/
def xchBases (cs : List (Nat × (Nat × (Nat × Nat)))) : List (Nat × (Nat × Nat)) :=
  cs.map (fun c => (c.2.2.1, (c.2.2.2, ((cs.filter (fun d => decide (d.1 < c.1))).map (fun d => d.2.1)).foldl (· + ·) 0)))

/-- A count arrives; once all NPEER counts of the expert are in, each peer is sent its base. A count that arrives for a
GROUP still in use is answered BUSY. Fields: NPEER, SRCIDX, GROUP, expert, count; TAG names the peer's operation. -/
def tgtXcnt (pk : Packet) (s : State) : State × Ans :=
  let f (i : Nat) : Nat := pk.fields.getD i 0
  let mine (x : Nat × (Nat × (Nat × (Nat × (Nat × Nat))))) : Bool := x.1 == f 2 && x.2.1 == f 3
  if s.gal.xchCnt.any (fun x => mine x && x.2.2.1 == f 1) then (s, .busy)
  else
    let s := { s with gal := { s.gal with xchCnt := s.gal.xchCnt ++ [(f 2, (f 3, (f 1, (f 4, (pkFrom pk, pk.tag)))))] } }
    let cs := (s.gal.xchCnt.filter mine).map (fun x => x.2.2)
    let s := if cs.length = f 0 then
        (xchBases cs).foldl (fun s b => s.sendReq b.1 { ptype := 0x08, tag := b.2.1, fields := [f 2, f 3, b.2.2] }) s
      else s
    (s, ackAns)

/-- XCNT_RECEIVE (R321). -/
def execXcntReceive (port : Option (Fin 8)) (pk : Packet) (s : State) : Res :=
  .next (s.receiveReq port pk 0x07 tgtXcnt).xchCheck

end Sys2Proof.Machine
end

