-- ==== Sys2Proof/Machine/Reduce.lean ====
section
/-! DEFINITION. Adds at the target: slotted and arrival-order contributions, gradient windows, and the global norm
(R320, R377, R395, R398 to R403, R458, R459). -/
namespace Sys2Proof.Machine
open Sys2Proof

/-! Contributions and records (R320, R398, R458). -/

/-- The running sum of a record as marked bytes. -/
def AddRec.bytes (r : AddRec) : List PByte := pkBytes { data := r.sum, pois := r.sumPois }

/-- The record with another running sum. -/
def AddRec.withSum (r : AddRec) (bs : List PByte) : AddRec := { r with sum := bs.map Prod.fst, sumPois := poisWords bs }

/-- Value of element s of a gradient line (R395, R398). -/
def gradVal (line : List PByte) (i : Nat) : Xv :=
  let e := leNat ((line.drop 32).take 1 |>.map Prod.fst)
  let c := leNat ((line.drop i).take 1 |>.map Prod.fst)
  if e = 255 then .nan else (elemVal 3 c).mul (.fin false 1 (scaleExp e))

/-- One gradient contribution folded into the FP32 sums of its lines; a poisoned sector poisons its whole record (R398). -/
def gradFold (sum con : List PByte) : List PByte :=
  (List.range (con.length / 64)).flatMap (fun j =>
    let line := (con.drop (64 * j)).take 64
    let old := (sum.drop (128 * j)).take 128
    let p := anyPois line
    (List.range 32).flatMap (fun i =>
      let o := (old.drop (4 * i)).take 4
      pBytes 4 (fp32.rne ((fp32.dec (pNat o)).add (gradVal line i))).1 (p || anyPois o)))

/-- One contribution folded into a record (R320, R398). -/
def AddRec.fold (r : AddRec) (con : List PByte) : AddRec :=
  let s := if r.window.isSome then gradFold r.bytes con else (addBytes (b2n r.bf16) r.bytes con).1
  { r.withSum s with next := r.next + 1 }

/-- Held contributions folded while the next one is held. -/
def AddRec.absorb : Nat → AddRec → AddRec
  | 0, r => r
  | k + 1, r =>
    match r.held.find? (fun h => h.1 == r.next) with
    | none => r
    | some h =>
      AddRec.absorb k { r.fold (pkBytes { data := h.2.1, pois := h.2.2 }) with held := r.held.filter (fun x => !(x.1 == h.1)) }

/-- Two contributions belong to one piece of one record: GROUP, GPA and LEN of the record, address of the piece (R448, R458). -/
def AddRec.same (r q : AddRec) : Bool := r.group == q.group && r.base == q.base && r.addr == q.addr && r.len == q.len

/-- The state with a record put in place of the one of its name, or dropped. -/
def State.setAdd (s : State) (r : AddRec) (keep : Bool) : State :=
  { s with gal := { s.gal with adds := s.gal.adds.filter (fun q => !(q.same r)) ++ (if keep then [r] else []) } }

/-! The exact accumulator of a window (R401). -/

/-- The accumulator with the square of a value added: the sum, NaN, infinity. -/
def GradW.addSq (g : GradW) (v : Xv) : GradW :=
  match v with
  | .nan => { g with nan := true }
  | .inf _ => { g with inf := true }
  | .fin _ m e =>
    match g.acc with
    | none => g
    | some (a, x) =>
      match (Xv.fin false a.toNat x).add (.fin false (m * m) (2 * e)) with
      | .fin _ m' e' => { g with acc := some (m', e') }
      | _ => g

/-- The value of an accumulator; NaN takes precedence over infinity. -/
def accXv (acc : Option (Int × Int)) (nan inf : Bool) : Xv :=
  if nan then .nan else if inf then .inf false
  else match acc with | some (a, x) => .fin false a.toNat x | none => .nan

/-- The window adds the squares of the records that carry no poison. -/
def GradW.addRecord (g : GradW) (bs : List PByte) : GradW :=
  (List.range (bs.length / 128)).foldl (fun g j =>
    let r := (bs.drop (128 * j)).take 128
    if anyPois r then g
    else (List.range 32).foldl (fun g i => g.addSq (fp32.dec (pNat ((r.drop (4 * i)).take 4)))) g) g

/-- A window's cycle ends: its sum is kept and the next cycle starts (R400, R401). -/
def GradW.endCycle (g : GradW) : GradW :=
  { ended := true, lastS := BitVec.ofNat 40 (w40.rne (accXv g.acc g.nan g.inf)).1, lAcc := g.acc, lNan := g.nan, lInf := g.inf }

/-! The norm (R401 to R403). -/

/-- The step number of the device: that of its lowest-numbered cell (log entry 24). -/
def State.devStep (s : State) : Nat :=
  ((cellIds.find? (fun k => (s.cell k).exists_)).map (fun k => (s.cell k).step.toNat)).getD 0

/-- A gradient window's state. -/
def State.win (s : State) (i : Nat) : GradW := tabGet {} s.exp.wins i

/-- S and FALLBACK written into a window's GNORM record, and its token posted (R304, R402). -/
def State.writeNorm (s : State) (i : Nat) (v : Nat) (fb : Bool) : State :=
  match s.cfg.gradwins[i]? with
  | none => s
  | some (_, _, k, l, t, off) =>
    let bytes (old : Nat) : List PByte := (leBytes 5 v ++ leBytes 1 (old / 2 * 2 + b2n fb)).map (fun b => (b, false))
    let s := if (s.cell k).ctx = 3 then
        match (s.cell k).img with
        | none => s
        | some im => s.imgWrite k l (off + 8) (bytes (leNat ((im.cores.getD l {}).read (off + 13) 1)))
      else match (s.cell k).pcore l with
        | none => s
        | some n => s.modCore n (fun co => co.pwrite (off + 8) (bytes (leNat (co.read (off + 13) 1))))
    s.postTo k l t 1 s.ownKey

/-- The windows end their part in the norm of the step. -/
def State.normDone (s : State) (fb : Bool) : State :=
  { s with exp := { s.exp with
    normWait := false
    greFb := fb
    wins := (s.exp.wins.map (fun w => (w.1, { w.2 with ended := false }))).filter (fun w => decide (w.2 ≠ {})) } }

/-- Every window's record written with its own sum and FALLBACK 1 (R402, R403). -/
def State.normOwn (s : State) : State :=
  (List.range s.cfg.gradwins.length).foldl (fun s i => s.writeNorm i (s.win i).lastS.toNat true) s

/-- The slots of NORMSET; this device alone when none is named. -/
def State.normSlots (s : State) : List Nat :=
  if s.cfg.normset = 0 then [s.gal.slot.toNat] else (List.range 64).filter (fun i => s.cfg.normset.testBit i)

/-- Once every S_d is held the global S is formed and written (R402). -/
def State.normTry (s : State) : State :=
  if s.exp.normWait && s.normSlots.all (fun i => psHas s.exp.normHave i) then
    let v := s.normSlots.foldl (fun a i => (w40.rne ((w40.dec a).add (w40.dec (tabGet 0 s.exp.normGot i).toNat))).1) 0
    ((List.range s.cfg.gradwins.length).foldl (fun s i => s.writeNorm i v false) s).normDone false
  else s

/-- An S_d held (R402). -/
def State.normPut (s : State) (slot v : Nat) : State :=
  { s with exp := { s.exp with normGot := tabSet 0 s.exp.normGot slot (BitVec.ofNat 40 v), normHave := psAdd s.exp.normHave slot } }

/-- The device's last window cycle of the step has ended: mode 1 writes the records; mode 0 sends S_d (R402). -/
def State.normEnd (s : State) : State :=
  if !(List.range s.cfg.gradwins.length).all (fun i => (s.win i).ended) then s
  else if s.cfg.gnormPer then s.normOwn.normDone s.exp.greFb
  else
    let t := (List.range s.cfg.gradwins.length).foldl (fun a i =>
      let g := s.win i
      match accXv g.lAcc g.lNan g.lInf, a with
      | .nan, _ => .nan
      | x, a => if a.isNan then .nan else x.add a) Xv.zero
    let v := (w40.rne t).1
    let s := s.normPut s.gal.slot.toNat v
    let s := (s.normSlots.filter (fun i => i ≠ s.gal.slot.toNat)).foldl (fun s i =>
      s.sendReq (flowKey s.gal.fleet.toNat i) { ptype := 0x0B, fields := [s.devStep % 2 ^ 64, v] }) s
    { s with exp := { s.exp with normWait := true } }.normTry

/-! Reductions of a window (R398 to R400). -/

/-- The token that a completed record posts (R320). -/
def State.postRec (s : State) (r : AddRec) : State :=
  let (t, k, l, f) := r.post
  if t = 0 then s else s.postTo (k % 16) l t 1 f

/-- A complete record of a window is reduced: its values written, its squares added, its token posted; the cycle ends once
every record has been reduced (R398, R400, R401). -/
def State.reduce (s : State) (i : Nat) (r : AddRec) : State :=
  let bs := r.bytes
  let s := (s.touchPhys r.addr bs.length true).hwrite r.addr bs
  let g := (s.win i).addRecord bs
  let g := { g with doneLines := g.doneLines ++ [r.addr], reduced := g.reduced + bs.length }
  let full := match s.cfg.gradwins[i]? with | some w => decide (w.2.1 ≤ g.reduced) | none => false
  let s := (s.setAdd r false).postRec r
  let s := { s with exp := { s.exp with wins := tabSet {} s.exp.wins i (if full then g.endCycle else g),
                                        greDone := if full then satAdd s.exp.greDone 1 else s.exp.greDone } }
  if full then s.normEnd else s

/-- Once every piece of a record holds its COUNT contributions, the whole range is written and its token posted once; until then
nothing of the target changes (R320). -/
def State.flushRec (s : State) (r : AddRec) : State :=
  let ps := s.gal.adds.filter (fun q => q.window.isNone && q.group == r.group && q.base == r.base && q.len == r.len)
  if ps.all (fun q => decide (q.next = q.count)) && decide (r.len ≤ (ps.map (·.sum.length)).foldl (· + ·) 0) then
    ps.foldl (fun s q =>
      ((s.touchAtom q.addr q.sum.length).hwrite q.addr q.bytes).setAdd q false |>.postRec q) s
  else s

/-- Complete records that may be reduced in the present cycle are reduced, while fuel lasts. -/
def State.settle (i : Nat) : Nat → State → State
  | 0, s => s
  | k + 1, s =>
    match s.gal.adds.find? (fun r => r.window == some i && decide (r.next = r.count) && !(s.win i).doneLines.contains r.addr) with
    | none => s
    | some r => State.settle i k (s.reduce i r)

/-- The gradient window that a range touches. -/
def Cfg.gradwinAt (c : Cfg) (a n : Nat) : Option (Nat × (Nat × Nat)) :=
  (c.gradwins.zipIdx.find? (fun w => decide (w.1.1 < a + n ∧ a < w.1.1 + w.1.2.1))).map (fun w => (w.2, (w.1.1, w.1.2.1)))

/-- GRED_REFUSED (R399). -/
def State.gredRefused (s : State) (pk : Packet) (a cause : Nat) : State × Ans :=
  (s.log 0x2302 [.val 8 a, .val 1 pk.sslot, .val 2 pk.sinc, .val 1 cause], errAns 0x2302)

/-! ADDS (R320, R398, R458, R459). -/

/-- Bytes held in ADDBUF. -/
def State.addHeld (s : State) : Nat :=
  (s.gal.adds.map (fun r => (r.held.map (fun h => h.2.1.length)).foldl (· + ·) 0)).foldl (· + ·) 0

/-- A contribution of a record that it may join: folded if it is next, else held where ADDBUF has room, else BUSY; a
complete record takes effect (R458, R459). -/
def State.addsInto (s : State) (pk : Packet) (r : AddRec) (src : Nat) (con : List PByte) : State × Ans :=
  if r.seen.any (fun x => x.1 == src) then
    (s.log 0x3204 [.val 1 pk.sslot, .val 2 r.group, .val 2 src], errAns 0x3204)
  else
    let r := { r with seen := r.seen ++ [(src, pk.seq)] }
    let post := (pk.ttoken, pk.tcell, pk.tlcore, pkFrom pk)
    if src = r.next then
      let s := if r.next = 0 ∧ r.window.isNone then s.touchPhys r.addr con.length false else s
      let r := if r.next = 0 then
          r.withSum (if r.window.isSome then List.replicate (2 * con.length) (0, false) else s.hread r.addr con.length)
        else r
      let r := AddRec.absorb r.held.length (r.fold con)
      if r.next = r.count then
        let r := { r with post := post }
        match r.window with
        | none => ((s.setAdd r true).flushRec r, ackAns)
        | some i =>
          let s := s.setAdd r true
          (State.settle i s.gal.adds.length s, ackAns)
      else (s.setAdd r true, ackAns)
    else if s.addHeld + con.length ≤ s.cfg.addbuf then
      (s.setAdd { r with held := r.held ++ [(src, (con.map Prod.fst, poisWords con))] } true, ackAns)
    else (s, .busy)

/-- ADDS at the target. Fields: LEN, TYPE, GROUP, SRCIDX, COUNT, offset (log entry 21). -/
def tgtAdds (pk : Packet) (s : State) : State × Ans :=
  let f (i : Nat) : Nat := pk.fields.getD i 0
  let con := pkBytes pk
  let base := pk.addr - f 5
  if !rangeOk pk.addr con.length then s.memAddr pk
  else if (csCore pk.addr).isSome then s.landRefused pk ((csCore pk.addr).getD 0) con.length
  else match s.cfg.gradwinAt base (f 0) with
    | none =>
      let new : AddRec := { group := f 2, base := base, addr := pk.addr, len := f 0, count := f 4, bf16 := f 1 == 1 }
      s.addsInto pk ((s.gal.adds.find? (·.same new)).getD new) (f 3) con
    | some (i, wb, wl) =>
      let ta := base + 2 * f 5
      if f 1 ≠ 0 then s.gredRefused pk ta 1
      else if !(decide (wb ≤ base) && decide (base + 2 * f 0 ≤ wb + wl)) then s.gredRefused pk ta 3
      else
        let new : AddRec := { group := f 2, base := base, addr := ta, len := f 0, count := f 4, window := some i }
        match s.gal.adds.find? (·.same new) with
        | none => s.addsInto pk new (f 3) con
        | some r => if r.count ≠ f 4 then s.gredRefused pk ta 4 else s.addsInto pk r (f 3) con

/-- ADDS_RECEIVE (R458). -/
def execAddsReceive (port : Option (Fin 8)) (pk : Packet) (s : State) : Res := .next (s.receiveReq port pk 0x04 tgtAdds)

/-! ADDA (R320, R377, R399). -/

/-- ADDA at the target: a line-add as it arrives. Fields as ADDS. -/
def tgtAdda (pk : Packet) (s : State) : State × Ans :=
  let f (i : Nat) : Nat := pk.fields.getD i 0
  let con := pkBytes pk
  let base := pk.addr - f 5
  if !rangeOk pk.addr con.length then s.memAddr pk
  else if (csCore pk.addr).isSome then s.landRefused pk ((csCore pk.addr).getD 0) con.length
  else match s.cfg.gradwinAt base (f 0) with
    | some _ => s.gredRefused pk (base + 2 * f 5) (if f 1 ≠ 0 then 1 else 2)
    | none =>
      let s := s.touchAtom pk.addr con.length
      let s := s.hwrite pk.addr (addBytes (b2n (f 1 == 1)) (s.hread pk.addr con.length) con).1
      (s.postPk pk 1, ackAns)

/-- ADDA_RECEIVE (R320). -/
def execAddaReceive (port : Option (Fin 8)) (pk : Packet) (s : State) : Res := .next (s.receiveReq port pk 0x05 tgtAdda)

/-! NORM (R402, R403). -/

/-- An S_d arrives; one of another step is discarded. Fields: step, S. -/
def tgtNorm (pk : Packet) (s : State) : State × Ans :=
  let f (i : Nat) : Nat := pk.fields.getD i 0
  if f 0 = s.devStep % 2 ^ 64 ∧ pk.sfleet = s.gal.fleet.toNat then
    ((s.normPut pk.sslot (f 1)).normTry, ackAns)
  else (s, ackAns)

/-- NORM_RECEIVE (R402). -/
def execNormReceive (port : Option (Fin 8)) (pk : Packet) (s : State) : Res := .next (s.receiveReq port pk 0x0B tgtNorm)

/-- GNORM_TIMEOUT: a device still without every S_d falls back to its own sums (R403). -/
def execGnormTimeout (s : State) : Res :=
  if s.exp.normWait then
    let miss := (s.normSlots.filter (fun i => !psHas s.exp.normHave i)).foldl (fun m i => m + 2 ^ i) 0
    .next ((s.normOwn.normDone true).log 0x1306 [.val 4 s.devStep, .val 8 miss])
  else .next s

end Sys2Proof.Machine
end

