-- ==== Sys2Proof/Machine/Remote.lean ====
section
/-! DEFINITION. The remote operations RPUT, RGET, RATOM, RADD and XCH, their packets, XBASE, and SEAL (R234, R309 to R321,
R326, R333, R482). Operands in the core store are read when the packets are made (log entry 8). -/
namespace Sys2Proof.Machine
open Sys2Proof

/-! Packets of an operation. -/

/-- The flow that a GPA names (R443). -/
def gpaFlow (g : Nat) : Nat := flowKey (bits g 55 50) (bits g 49 44)

/-- The local address of a GPA (R443). -/
def gpaLocal (g : Nat) : Nat := g % 2 ^ 44

/-- One packet of an operation: the flow, the packet, and the place number by which its answer is told apart (for RPUT,
RGET and RADD the byte offset; for XCH the expert of a count, or 4,096 and 16 times the row plus the piece). -/
structure OpPk where
  /-- Flow. -/
  flow : Nat
  /-- Packet. -/
  pk : Packet
  /-- Place. -/
  off : Nat
  deriving DecidableEq, Repr

/-- Pieces of at most 4,096 bytes of a length: offset and size (R448). -/
def pieces (len : Nat) : List (Nat × Nat) :=
  (List.range (ceilDiv len 4096)).map (fun i => (4096 * i, min 4096 (len - 4096 * i)))

/-- A packet with marked bytes as payload. -/
def Packet.carry (p : Packet) (bs : List PByte) : Packet := { p with data := bs.map Prod.fst, pois := poisWords bs }

/-- The packets of RPUT, RGET, RATOM and RADD, in order (R318 to R320). -/
def Core.opPackets (co : Core) (e : Entry) (tag : Nat) : List OpPk :=
  let b := e.block
  let g := bfld b 0 8
  let la := bfld b 8 4
  let tok (o : Nat) (last : Bool) (p : Packet) : Packet :=
    if last then { p with ttoken := bfld b o 1, tcell := bfld b (o + 1) 1 % 16, tlcore := bfld b (o + 2) 1 % 64 } else p
  let mk (off : Nat) (p : Packet) : OpPk := ⟨gpaFlow g, { p with addr := gpaLocal g + off, tag := tag }, off⟩
  let len := bfld b 12 4
  match wOpc e.word with
  | 0x90 => (pieces len).map (fun (off, n) =>
      let last := decide (len ≤ off + n)
      mk off (tok 16 last (Packet.carry { ptype := 0x01, fields := [len, 0, 0, 0, off] } (co.pread (la + off) n))))
  | 0x91 => (pieces len).map (fun (off, n) => mk off (tok 16 (decide (len ≤ off + n)) { ptype := 0x02, fields := [n] }))
  | 0x92 => [mk 0 (tok 32 true { ptype := 0x03, fields := [bfld b 12 1, bfld b 13 1, bfld b 16 8, bfld b 24 8] })]
  | 0x93 => (pieces len).map (fun (off, n) =>
      mk off (tok 24 (decide (len ≤ off + n)) (Packet.carry
        { ptype := if bfld b 17 1 = 0 then 0x04 else 0x05,
          fields := [len, bfld b 16 1, bfld b 18 2, bfld b 20 2, bfld b 22 2, off] } (co.pread (la + off) n))))
  | _ => []

/-! XCH (R321). -/

/-- DEST as a list. -/
def Core.xchDest (co : Core) (b : List Byte) : List Nat :=
  (List.range (bfld b 8 4)).map (fun i => leNat (co.read (bfld b 4 4 + 4 * i) 4))

/-- The number of rows of each expert. -/
def xchCounts (ds : List Nat) : Tab Nat := ds.foldl (fun t e => tabMod 0 t e (· + 1)) []

/-- Entry e of ETAB, read at issue: GPA, CAP, owner's SRCIDX. -/
def etab (b : List Byte) (e : Nat) : Nat × (Nat × Nat) :=
  (bfld b (64 + 16 * e) 8, (bfld b (64 + 16 * e + 8) 4, bfld b (64 + 16 * e + 12) 2))

/-- Phase 1: the counts sent to the owners (R321). -/
def Core.xchCountPks (co : Core) (e : Entry) (tag : Nat) : List OpPk :=
  let b := e.block
  let cs := xchCounts (co.xchDest b)
  (List.range (bfld b 20 2)).map (fun i =>
    let g := (etab b i).1
    ⟨gpaFlow g, { ptype := 0x07, addr := gpaLocal g, tag := tag,
                  fields := [bfld b 22 2, bfld b 24 2, bfld b 26 2, i, tabGet 0 cs i] }, i⟩)

/-- Key of an expert's base in the base table: an operation's bases lie together (R481; log entry 11). -/
def baseKey (ord e : Nat) : Nat := 4096 * (ord % 256) + e

/-- Expert and position of each row (R321). -/
def Core.xchPlaces (co : Core) (ord : Nat) (b : List Byte) : List (Nat × Nat) :=
  ((co.xchDest b).foldl (fun (q : Tab Nat × List (Nat × Nat)) e =>
    let r := tabGet 0 q.1 e
    (tabSet 0 q.1 e (r + 1), q.2 ++ [(e, tabGet 0 co.xbase (baseKey ord e) - 1 + r)])) ([], [])).2

/-- Phase 3: the rows below CAP, in order; the others are dropped (R321). -/
def Core.xchRowPks (co : Core) (e : Entry) (tag : Nat) : List OpPk :=
  let b := e.block
  let rb := bfld b 12 4
  ((co.xchPlaces e.ord b).zipIdx.filter (fun (p, _) => decide (p.2 < (etab b p.1).2.1))).flatMap (fun (p, i) =>
    let g := (etab b p.1).1
    (pieces rb).zipIdx.map (fun (q, j) =>
      let bs := co.pread (bfld b 0 4 + i * rb + q.1) q.2
      ⟨gpaFlow g, Packet.carry { ptype := 0x01, addr := gpaLocal g + p.2 * rb + q.1, tag := tag,
                                 fields := [rb, bfld b 26 2, 1, p.1, q.1] } bs,
       4096 + 16 * i + j⟩))

/-- Rows that phase 3 drops (R321). -/
def Core.xchDropped (co : Core) (ord : Nat) (b : List Byte) : Nat :=
  ((co.xchPlaces ord b).filter (fun p => decide ((etab b p.1).2.1 ≤ p.2))).length

/-! Sending (R318, R454, R482). -/

/-- TAG of an operation: the core and the low bits of its ORD (log entry 21). -/
def opTag (n ord : Nat) : Nat := 256 * n + ord % 256

/-- The packet of a SIGNAL, to another device or to this one (R323). -/
def signalPk (own : Nat) (w : BitVec 128) : OpPk :=
  ⟨if wf w 59 59 = 1 then flowKey (wf w 71 66) (wf w 65 60) else own,
    { ptype := 0x06, ttoken := wf w 48 41, tcell := wf w 58 55, tlcore := wf w 54 49, fields := [wf w 40 33] }, 0⟩

/-- One packet of an entry queued, held by the entry, and launched; a faulted entry sends nothing more (R473). -/
def State.sendOp (n st ord : Nat) (s : State) (o : OpPk) : State :=
  match (s.core n).entry st ord with
  | none => s
  | some e =>
    if e.faulted then s
    else
      let (s, pk) := s.queueReq o.flow o.pk
      let s := s.modCore n (fun co => co.modEntry st ord (fun e =>
        (e.poisonIf (!pk.pois.isEmpty && (wOpc e.word != 0x91))) |> fun e =>
          { e with sent := e.sent + 1, dests := e.dests ++ [(o.flow, (pk.seq, o.off))] }))
      s.launch o.flow pk

/-- Packets of an entry sent in order. -/
def State.sendOps (s : State) (n st ord : Nat) (os : List OpPk) : State := os.foldl (State.sendOp n st ord) s

/-- An XCH enters phase 3: its rows are sent, or it is complete at once (R321). -/
def State.xchRows (s : State) (n : Nat) (e : Entry) : State :=
  let co := s.core n
  let os := co.xchRowPks e (opTag n e.ord)
  let drop := co.xchDropped e.ord e.block
  let s := s.modCore n (fun co => co.modEntry 4 e.ord (fun e =>
    { e with xchPhase := 3, cursor := BitVec.ofNat 64 (3 * 2 ^ 62 + bfld e.block 8 4),
             fields := [BitVec.ofNat 32 (bfld e.block 8 4 - drop), BitVec.ofNat 32 drop, e.fields.getD 2 0] }))
  let s := s.sendOps n 4 e.ord os
  s.modCore n (fun co => co.modEntry 4 e.ord (fun e => { e with done := e.done || e.complete }))

/-- A remote operation that has just issued: XCH writes its counts and sends them; the others send all their packets. -/
def State.startRemote (s : State) (n : Nat) (e : Entry) : State :=
  let co := s.core n
  if wOpc e.word = 0x94 then
    let cs := xchCounts (co.xchDest e.block)
    let out := (List.range (bfld e.block 20 2)).flatMap (fun i => leBytes 4 (tabGet 0 cs i))
    let p := co.poisoned (bfld e.block 4 4) (4 * bfld e.block 8 4)
    let s := s.modCore n (fun co =>
      (co.write (bfld e.block 32 4) out p).modEntry 4 e.ord (fun e =>
        { e.poisonIf p with xchPhase := 2, cursor := BitVec.ofNat 64 (2 ^ 63) }))
    (s.sendOps n 4 e.ord (co.xchCountPks e (opTag n e.ord))).xchCheck
  else s.sendOps n 4 e.ord (co.opPackets e (opTag n e.ord))

/-- The outstanding packets of a remote operation or a SIGNAL sent again: those that their flow still holds under their SEQ, with
their resend counts at 0, and those that it lost as new requests to the destination's current incarnation (R474, R486). -/
def State.rearm (s : State) (n : Nat) (e : Entry) : State :=
  let co := s.core n
  let held (d : Nat × (Nat × Nat)) : Bool := (s.flow d.1).unacked.any (fun u => u.1.seq == d.2.1)
  let offs := (e.dests.filter (fun d => !held d)).map (fun d => d.2.2)
  let flows := ((e.dests.filter held).map (fun d => d.1)).eraseDups
  let all := if wOpc e.word = 0x94 then
      co.xchCountPks e (opTag n e.ord) ++ (if e.xchPhase = 3 then co.xchRowPks e (opTag n e.ord) else [])
    else if wOpc e.word = 0xA1 then [signalPk s.ownKey e.word] else co.opPackets e (opTag n e.ord)
  let s := s.modCore n (fun co => co.modEntry e.stream e.ord (fun e =>
    { e with dests := e.dests.filter held, faulted := false, outcome := 0, cause := 0 }))
  let s := (flows.filter (fun f => f ≠ s.ownKey)).foldl (fun s f =>
    let s := s.modFlow f (fun x => { x with unacked := x.unacked.map (fun u => (u.1, 0)) })
    match (s.flow f).unacked with
    | u :: _ => s.resendFrom f u.1.seq false
    | [] => s) s
  s.sendOps n e.stream e.ord (all.filter (fun o => offs.contains o.off))

/-- A remote operation issued, and started if it issued. -/
def State.issueRemote (s : State) (n opc : Nat) (w : BitVec 128) (plan : IssueCtx → Except Refuse Plan) : State :=
  let s' := s.issue1 n 4 opc w plan
  match s.justIssued s' n with
  | none => s'
  | some e => s'.startRemote n e

/-! Plans. -/

/-- A REM_PARAM refusal for a failing field (R333). -/
def remBad (opc : Nat) (f : Option Nat) : Except Refuse Unit :=
  match f with
  | none => .ok ()
  | some n => .error (paramBad 0x5210 opc n)

/-- A GPA field at offset 0 whose byte range R365 accepts at the source. -/
def gpaOk (g n align : Nat) (store : Bool) : Bool :=
  decide (g < 2 ^ 56 ∧ g % align = 0) && rangeOk (gpaLocal g) n && (store || (csCore (gpaLocal g)).isNone)

/-- The plan of RPUT and RGET (R312, R318, R365). -/
def planPutGet (get : Bool) (w : BitVec 128) (x : IssueCtx) : Except Refuse Plan := do
  let opc := if get then 0x91 else 0x90
  let b ← rdBlock x.co opc (64 * wf w 71 53) 64 64
  let len := bfld b 12 4
  let la := bfld b 8 4
  remBad opc (blockChecks b [(0, 19)]
    [(0, gpaOk (bfld b 0 8) len 64 true), (12, decide (len % 64 = 0 ∧ 64 ≤ len ∧ len ≤ 16777216))])
  chk (if get then dstOk x.c la len else inStore la len) (opndBad opc 1)
  pure { entry := { block := b, unit := x.ord % 2, fields := [BitVec.ofNat 32 len] },
         reads := if get then [] else [(la, len)], writes := if get then [(la, len)] else [] }

/-- RATOM's plan (R312, R319, R354). -/
def planRatom (w : BitVec 128) (x : IssueCtx) : Except Refuse Plan := do
  let b ← rdBlock x.co 0x92 (64 * wf w 71 53) 64 64
  let op := bfld b 12 1
  let sz := bfld b 13 1
  let pair := decide ((sz = 2 ↔ op = 9) ∧ (op = 8 → sz = 4))
  remBad 0x92 (blockChecks b [(0, 14), (16, 16), (32, 3)]
    [(0, gpaOk (bfld b 0 8) sz (if sz = 0 then 1 else sz) false), (12, decide (op ≤ 9) && pair), (13, decide (sz = 2 ∨ sz = 4 ∨ sz = 8))])
  chk (dstOk x.c (bfld b 8 4) 8) (opndBad 0x92 1)
  pure { entry := { block := b, unit := x.ord % 2 }, writes := [(bfld b 8 4, 8)] }

/-- RADD's plan (R312, R320, R354). -/
def planRadd (w : BitVec 128) (x : IssueCtx) : Except Refuse Plan := do
  let b ← rdBlock x.co 0x93 (64 * wf w 71 53) 64 64
  let len := bfld b 12 4
  let cnt := bfld b 22 2
  remBad 0x93 (blockChecks b [(0, 27)]
    [(0, gpaOk (bfld b 0 8) len 256 false), (12, decide (len % 256 = 0 ∧ 256 ≤ len ∧ len ≤ 16777216)),
     (16, decide (bfld b 16 1 < 2)), (17, decide (bfld b 17 1 < 2)), (20, decide (bfld b 20 2 < cnt)),
     (22, decide (1 ≤ cnt ∧ cnt ≤ 4096))])
  chk (inStore (bfld b 8 4) len) (opndBad 0x93 1)
  pure { entry := { block := b, unit := x.ord % 2, fields := [BitVec.ofNat 32 len],
                    status := if bfld b 17 1 = 1 then 2 else 0 }, reads := [(bfld b 8 4, len)] }

/-- XCH's plan (R312, R321, R365). -/
def planXch (w : BitVec 128) (x : IssueCtx) : Except Refuse Plan := do
  let b ← rdBlock x.co 0x94 (64 * wf w 71 53) 64 64
  let rows := bfld b 0 4
  let dest := bfld b 4 4
  let n := bfld b 8 4
  let rb := bfld b 12 4
  let et := bfld b 16 4
  let ne := bfld b 20 2
  let out := bfld b 32 4
  remBad 0x94 (blockChecks b [(0, 31), (32, 4)]
    [(8, decide (n ≤ 1048576)), (12, decide (rb % 64 = 0 ∧ 64 ≤ rb ∧ rb ≤ 65536)), (20, decide (1 ≤ ne ∧ ne ≤ 4096)),
     (22, decide (1 ≤ bfld b 22 2 ∧ bfld b 22 2 ≤ 4096))])
  chk (inStore rows (n * rb) && inStore dest (4 * n) && inStore et (16 * ne) && dstOk x.c out (4 * ne)) (opndBad 0x94 1)
  let tab := x.co.read et (16 * ne)
  let full := b ++ tab
  remBad 0x94 (if (x.co.xchDest b).all (fun e => decide (e < ne)) then none else some 4)
  remBad 0x94 (if (List.range ne).all (fun i =>
      let (g, cap, _) := etab full i
      gpaOk g (cap * rb) 1 true && decide (bfld full (64 + 16 * i + 14) 2 = 0)) then none else some 16)
  pure { entry := { block := full, unit := x.ord % 2 }, reads := [(rows, n * rb), (dest, 4 * n), (et, 16 * ne)],
         writes := [(out, 4 * ne)], upd := fun co => { co with xbase := co.xbase.filter (fun q => !decide (q.1 / 4096 = x.ord % 256)) } }

/-- RPUT (R318). -/
def execRput (core : Fin 48) (w : BitVec 128) (s : State) : Res := .next (s.issueRemote core 0x90 w (planPutGet false w))

/-- RGET (R318). -/
def execRget (core : Fin 48) (w : BitVec 128) (s : State) : Res := .next (s.issueRemote core 0x91 w (planPutGet true w))

/-- RATOM (R319). -/
def execRatom (core : Fin 48) (w : BitVec 128) (s : State) : Res := .next (s.issueRemote core 0x92 w (planRatom w))

/-- RADD (R320). -/
def execRadd (core : Fin 48) (w : BitVec 128) (s : State) : Res := .next (s.issueRemote core 0x93 w (planRadd w))

/-- XCH (R321). -/
def execXch (core : Fin 48) (w : BitVec 128) (s : State) : Res := .next (s.issueRemote core 0x94 w (planXch w))

/-! XBASE (R321). -/

/-- A base arrives for the XCH that its TAG names; once every expert's base is in, the rows are sent. A PREEMPTED cell
answers BUSY (R484). Fields: GROUP, expert, base. -/
def tgtXbase (pk : Packet) (s : State) : State × Ans :=
  let f (i : Nat) : Nat := pk.fields.getD i 0
  let n := pk.tag / 256
  match s.cellOf n with
  | none => (s, ackAns)
  | some k =>
    if (s.cell k).ctx = 3 then (s, .busy)
    else
      match (s.core n).inflight.find? (fun e => wOpc e.word == 0x94 && e.ord % 256 == pk.tag % 256 &&
          bfld e.block 26 2 == f 0 && decide (e.xchPhase < 3)) with
      | none => (s, ackAns)
      | some e =>
        let s := s.modCore n (fun co => { co with xbase := tabSet 0 co.xbase (baseKey e.ord (f 1)) (f 2 + 1) })
        let all := (List.range (bfld e.block 20 2)).all (fun i => decide (tabGet 0 (s.core n).xbase (baseKey e.ord i) ≠ 0))
        (if all then s.xchRows n e else s, ackAns)

/-- XBASE_RECEIVE (R321). -/
def execXbaseReceive (port : Option (Fin 8)) (pk : Packet) (s : State) : Res :=
  .next (s.receiveReq port pk 0x08 tgtXbase).xchCheck

/-! SEAL (R234, R326). -/

/-- The 32-bit words of a byte string. -/
def words32 (bs : List Byte) : List Nat := (List.range (bs.length / 4)).map (fun i => bfld bs (4 * i) 4)

/-- The bytes of a range that a mode reads: all, or bytes 16 to 223 of each line (R234). -/
def sealBytes (mode : Nat) (bs : List PByte) : List PByte :=
  if mode = 1 then (List.range (bs.length / 256)).flatMap (fun j => (bs.drop (256 * j + 16)).take 208) else bs

/-- The sub-seals of a range: H over the words of each unit of 1 MiB or 4,096 lines; in LINE mode over each line (R234). -/
def subSeals (kappa mode : Nat) (bs : List PByte) : List Nat :=
  let u := if mode = 2 then 256 else 1048576
  (List.range (ceilDiv bs.length u)).map (fun j =>
    sealH kappa (words32 ((sealBytes mode ((bs.drop (u * j)).take u)).map Prod.fst)))

/-- A seal: h, the mode, and POISONED (R234). -/
def sealWord (h mode : Nat) (p : Bool) : Nat := h + mode * 2 ^ 61 + b2n p * 2 ^ 63

/-- What SEAL writes over a range: the bytes at SOUT, the bytes at SUBOUT, the fields of the record (R234, R326, R331). -/
def sealOut (kappa mode : Nat) (bs : List PByte) : List Byte × (List Byte × List (BitVec 32)) :=
  let p := anyPois (sealBytes mode bs)
  let subs := subSeals kappa mode bs
  if mode = 2 then
    let out := subs.zipIdx.flatMap (fun (h, j) => leBytes 8 (sealWord h 2 (anyPois ((bs.drop (256 * j)).take 256))))
    (out, [], [])
  else
    let v := sealWord (sealH kappa subs) mode p
    (leBytes 8 v, subs.flatMap (leBytes 8), [BitVec.ofNat 32 v, BitVec.ofNat 32 (v / 2 ^ 32), BitVec.ofNat 32 subs.length])

/-- SEAL runs over its range from the beginning, or faults at its translation (R326, R482). -/
def State.runSeal (s : State) (k n : Nat) (e : Entry) : State :=
  let b := e.block
  let c := s.cell k
  match s.place n c.root (bit (bfld b 8 1) 0) (addrOf b 0 (bit (bfld b 8 1) 0)) (bfld b 16 8) true false with
  | (s, .error er) => s.xlFault k n 4 e.ord 0 er
  | (s, .ok p) =>
    let (s, bs) := s.pread p
    let mode := bfld b 9 1
    let (out, subs, fs) := sealOut ((s.cfg.sealkey.getD 0).toNat) mode bs
    let po := anyPois (sealBytes mode bs)
    s.modCore n (fun co =>
      let co := co.write (bfld b 24 4) out false
      let co := if bfld b 28 4 = 0 then co else co.write (bfld b 28 4) subs false
      co.modEntry 4 e.ord (fun e => { e.poisonIf po with fields := fs, done := true, faulted := false }))

/-- SEAL's plan (R312, R326, R333). -/
def planSeal (s : State) (w : BitVec 128) (x : IssueCtx) : Except Refuse Plan := do
  let b ← rdBlock x.co 0xB0 (64 * wf w 71 53) 64 64
  let v := bit (bfld b 8 1) 0
  let mode := bfld b 9 1
  let len := bfld b 16 8
  let sub := bfld b 28 4
  let outLen := if mode = 2 then 8 * (len / 256) else 8
  let subLen := if mode = 2 ∨ sub = 0 then 0 else 8 * ceilDiv len 1048576
  match blockChecks b [(0, 10), (16, 16)]
      (addrField b 0 v ++ [(0, s.cfg.sealkey.isSome), (8, decide (bfld b 8 1 < 2)), (9, decide (mode < 3)),
       (16, decide (len % 256 = 0 ∧ 256 ≤ len ∧ len ≤ (if mode = 2 then 16777216 else 2 ^ 44)))]) with
  | some n => .error (fieldBad 0x5212 n)
  | none => .ok ()
  chk ((v || inStore (addrOf b 0 v) len) && dstOk x.c (bfld b 24 4) outLen && dstOk x.c sub subLen) (opndBad 0xB0 1)
  pure { entry := { block := b, unit := x.ord % 2 }, reads := if v then [] else [(addrOf b 0 v, len)],
         writes := (bfld b 24 4, outLen) :: (if subLen = 0 then [] else [(sub, subLen)]) }

/-- SEAL: the fingerprint of a byte range (R326). -/
def execSealOp (core : Fin 48) (w : BitVec 128) (errs : List SectorErr) (s : State) : Res :=
  let s' := s.issue1 core 4 0xB0 w (planSeal s w)
  match s.justIssued s' core, s'.cellOf core with
  | some e, some k => .next ((s'.decay errs).runSeal k core e)
  | _, _ => .next s'

end Sys2Proof.Machine
end

