-- ==== Sys2Proof/Machine/ExpFlow.lean ====
section
/-! DEFINITION. The export engine and delta-apply at the partner (R408 to R416, R493). A record travels in pieces of at
most 64 bytes, so that it can be partly sent (R412; log entry 25). -/
namespace Sys2Proof.Machine
open Sys2Proof

/-! Gaps (R407, R410, R414). -/

/-- A GAP record over every EXPREG range (R410, R413, R512). -/
def Cfg.fullGap (c : Cfg) : Option ExpRec :=
  match c.expregs with
  | [] => none
  | r :: rs =>
    let lo := rs.foldl (fun m x => min m x.1) r.1
    let hi := rs.foldl (fun m x => max m (x.1 + x.2.1)) (r.1 + r.2.1)
    some (gapRec (lo / 256) (hi / 256 - 1) (((r :: rs).map (fun x => x.2.1 / 256)).foldl (· + ·) 0) false)

/-- The mirror address that the source's EXPREG items pair with a local line address; the address itself where none
does (R414). -/
def Cfg.mirrorOf (c : Cfg) (a : Nat) : Nat :=
  match c.expreg a with
  | some (rb, _, mb) => mb + (a - rb)
  | none => a

/-- A GAP cut to each EXPREG range that it touches: mirror address of its lowest and highest line there. -/
def Cfg.gapParts (c : Cfg) (r : ExpRec) : List (Nat × Nat) :=
  c.expregs.filterMap (fun x =>
    let lo := max (r.line * 256) x.1
    let hi := min (r.hi * 256 + 256) (x.1 + x.2.1)
    if lo < hi then some (x.2.2 + (lo - x.1), x.2.2 + (hi - 256 - x.1)) else none)

/-! Sending (R411 to R413). -/

/-- The partner's flow. -/
def Cfg.partnerKey (c : Cfg) : Option Nat := c.expPartner.map (fun p => flowKey p.1 p.2)

/-- The partner is reachable: its route entry leads to a usable port. -/
def State.partnerUp (s : State) : Bool :=
  match s.cfg.expPartner with
  | none => false
  | some (f, sl) => (s.routePort { fleet := f, slot := sl }).isSome

/-- The export engine may send: a partner that is reachable, no pause, and a gallery state that does not stop it (R411,
R457, R469, R512). -/
def State.mayExport (s : State) : Bool :=
  s.partnerUp && !s.exp.pause && !s.exp.ward && !(s.gal.state == .fenced || s.gal.state == .quarantined)

/-- One EXPREC packet: piece offset, record size, mirror address and highest mirror line of the record. Fields: kind 0
line record, 1 step-start record, 2 mirror line of a fill, 3 bytes of its refusal list, 4 bytes of its snapshot buffer; offset, size, highest
mirror line (R412, R509; log entry 21). -/
def expPk (kind off size mlo mhi : Nat) (data : List Byte) (pois : Bool) : Packet :=
  { ptype := 0x09, addr := mlo, fields := [kind, off, size, mhi], data := data,
    pois := if pois then List.range (ceilDiv data.length 4) else [] }

/-- The packets of a piece of a record, and whether the record is then wholly sent. -/
def Cfg.expPieces (c : Cfg) (r : ExpRec) (sent : Nat) : List Packet × Bool :=
  let b := r.bytes
  let m := c.mirrorOf (r.line * 256)
  if r.kind = 1 then ((c.gapParts r).map (fun q => expPk 0 0 b.length q.1 (q.2 / 256) b r.pois), true)
  else
    let n := min 64 (b.length - sent)
    ([expPk (b2n (r.kind == 5)) sent b.length m (m / 256) ((b.drop sent).take n) r.pois], decide (b.length ≤ sent + n))

/-- EXP_STAT shows whether the partner is reachable (R411, R418). -/
def State.noteLinkup (s : State) : State := { s with exp := { s.exp with linkup := s.partnerUp } }

/-- The gap marker that follows a reset is sent (R413). -/
def State.clearAfterReset (s : State) : State := { s with exp := { s.exp with afterReset := false } }

/-- The packets of a record's piece, sent to the partner (R411, R412). -/
def State.sendPieces (s : State) (dst : Nat) (ps : List Packet) : State := ps.foldl (fun s p => s.sendReq dst p) s

/-- The words of the record at the head are read, once: what the code of each finds is a free value (1 a corrected error, 2 a double one,
else none); every corrected and every double error is counted, and a double one makes the record unusable, in words 0 or 1 its header too.
A record that the ring already gave back unusable is not read again (R410; log entry 25). -/
def State.readHead (s : State) : State :=
  match s.exp.headRead, s.exp.fifo with
  | false, r :: rest =>
    let es := if r.bad then [] else (List.range (r.size / 8)).map (Config.fifoEcc s.free)
    { s with free := s.free + 1,
             exp := { s.exp with headRead := true, ce := satAdd s.exp.ce (es.count 1), ue := satAdd s.exp.ue (es.count 2),
                                 fifo := { r with bad := r.bad || es.contains 2, lost := r.lost || (es.take 2).contains 2 } :: rest } }
  | _, _ => s

/-- The record at the head as it is sent: an abort, a gap in place of a damaged record, over every EXPREG range where its header is
lost, or itself (R410 to R413). -/
def Exp.toSend (x : Exp) (c : Cfg) (r : ExpRec) : ExpRec :=
  if x.aborting then { kind := 4, line := r.line }
  else if r.lost then c.fullGap.getD (gapRec r.line r.line 1 false)
  else if r.bad then gapRec r.line r.line 1 false else r

/-- The head of the FIFO after a piece of it was sent (R412). -/
def State.advanceHead (s : State) (rest : List ExpRec) (fin : Bool) : State :=
  let s := { s with exp := { s.exp with
    fifo := if fin then rest else s.exp.fifo
    headRead := s.exp.headRead && !fin
    headSent := if fin then 0 else s.exp.headSent + 64
    aborting := s.exp.aborting && !fin } }
  if fin then s.unspill else s

/-- EXPORT_SEND: the engine sends the next piece of the record at the head: after a warm reset first a GAP over every
range; a record made unusable by a double-bit error goes as a GAP of its line (R410, R411, R413). -/
def execExportSend (s : State) : Res :=
  let s := s.noteLinkup
  match s.cfg.partnerKey with
  | none => .next s
  | some dst =>
    if !s.mayExport then .next s
    else if s.exp.afterReset then
      .next (match s.cfg.fullGap with
        | some g => s.clearAfterReset.sendPieces dst (s.cfg.expPieces g 0).1
        | none => s.clearAfterReset)
    else
      let s := s.readHead
      match s.exp.fifo with
      | [] => .next s
      | r :: rest =>
        let r := s.exp.toSend s.cfg r
        let (ps, fin) := s.cfg.expPieces r s.exp.headSent
        .next ((s.sendPieces dst ps).advanceHead rest fin)

/-- EXP_DROP_RECORD: the head record is abandoned where it is partly sent, or replaced by a GAP of its line; no effect in
the last 16 bytes of a record or on an empty FIFO (R412). -/
def execExpDropRecord (s : State) : Res :=
  match s.exp.fifo with
  | [] => .next s
  | r :: rest =>
    let sent := s.exp.headSent
    if s.exp.aborting ∨ (sent ≠ 0 ∧ r.size - sent ≤ 16) then .next s
    else
      let e := { s.exp with drops := satAdd s.exp.drops 1 }
      if sent = 0 then .next { s with exp := { e with fifo := gapRec r.line r.line 1 r.open_ :: rest } }
      else .next { s with exp := { e with aborting := true, headSent := 0 } }

/-- EXP_PAUSE: EXP_CTRL.PAUSE written (R411). -/
def execExpPause (on : Bool) (s : State) : Res := .next { s with exp := { s.exp with pause := on } }

/-! Delta-apply (R414). -/

/-- The MIRROR item of a source slot whose region holds a mirror line, with its index. -/
def Cfg.mirrorAt (c : Cfg) (slot a : Nat) : Option (Nat × (Nat × (Nat × (Nat × (Nat × Bool))))) :=
  (c.mirrors.zipIdx.find? (fun m => m.1.2.2.2.1 == slot && decide (m.1.1 ≤ a ∧ a < m.1.1 + m.1.2.1))).map (fun m => (m.2, m.1))

/-- A mirror line's stale bit set or cleared, in the set and in the bitmap in HBM (R414, R417). -/
def State.setStale (s : State) (m : Nat × (Nat × (Nat × (Nat × Bool)))) (a : Nat) (b : Bool) : State :=
  let i := (a - m.1) / 256
  let ba := m.2.2.1 + i / 8
  let s := s.touchPhys ba 1 true
  let old := (memGet s.hbm ba).toNat
  let new := old - b2n (bit old (i % 8)) * 2 ^ (i % 8) + b2n b * 2 ^ (i % 8)
  let s := s.hwrite ba [(BitVec.ofNat 8 new, false)]
  let was := psHas s.exp.stale (a / 256)
  { s with exp := { s.exp with stale := psPut s.exp.stale (a / 256) b, asked := psDel s.exp.asked (a / 256),
                               staleCnt := if b == was then s.exp.staleCnt else if b then satAdd s.exp.staleCnt 1 else s.exp.staleCnt - (if s.exp.staleCnt = 0 then 0 else 1) } }

/-- Every mirror line of a source between two lines marked stale, in all its MIRROR regions (R414). -/
def State.staleRange (s : State) (slot lo hi : Nat) : State :=
  (s.cfg.mirrors.filter (fun m => m.2.2.2.1 == slot)).foldl (fun s m =>
    let l := max lo (m.1 / 256)
    let h := min hi ((m.1 + m.2.1) / 256 - 1)
    (List.range (h + 1 - l)).foldl (fun s i => s.setStale m ((l + i) * 256) true) s) s

/-- An entry appended to the mirror refusal list of a source slot (R414, R417). -/
def State.mirrorRefusal (s : State) (slot : Nat) (b : List Byte) : State :=
  match s.cfg.reflist slot with
  | none => s
  | some (base, len) =>
    let p := tabGet 0 s.exp.mirPos slot % (len / 16)
    let s := (s.touchPhys (base + 16 * p) 16 true).hwrite (base + 16 * p) (b.map (fun x => (x, false)))
    { s with exp := { s.exp with mirPos := tabSet 0 s.exp.mirPos slot (p + 1) } }

/-- A record applied whole at the partner: mirror address, highest mirror line, its bytes and poison (R414). -/
def State.applyRec (s : State) (slot a hi : Nat) (b : List Byte) (pois : Bool) : State :=
  match s.cfg.mirrorAt slot a with
  | none => s.log 0x8102 [.val 1 slot, .val 8 (bfld b 8 6 * 256)]
  | some (_, m) =>
    let stale := psHas s.exp.stale (a / 256)
    let s := if bfld b 14 1 = 0 ∧ !stale then s.touchPhys a 256 false else s
    let line := s.hbmRead a 256
    let put (s : State) (l : List Byte) : State :=
      (s.touchPhys a 256 true).hwrite a (l.map (fun x => (x, pois)))
    match bfld b 14 1 with
    | 0 =>
      if stale then s
      else
        let map := bfld b 4 4
        let ws := (List.range 32).filter (fun i => bit map i)
        let new := (ws.zipIdx).foldl (fun l (i, j) =>
          bput l (8 * i) (leBytes 8 (BitVec.ofNat 64 (bfld l (8 * i) 8) ^^^ BitVec.ofNat 64 (bfld b (16 + 8 * j) 8)).toNat)) line
        let bad := pois || decide (bfld new 0 4 ≠ bfld b 0 4) || decide (bfld new 4 4 ≠ lineCrc new)
        let s := put s new
        if bad then s.setStale m a true else s
    | 1 => s.staleRange slot (a / 256) hi
    | 2 =>
      let l := bsub b 16 256
      let s := put s l
      let s := { s with exp := { s.exp with resentCnt := satAdd s.exp.resentCnt 1, asked := psDel s.exp.asked (a / 256) } }
      if pois then s.setStale m a true
      else if stale && decide (bfld l 4 4 = lineCrc l) then s.setStale m a false else s
    | 3 => s.mirrorRefusal slot (bsub b 16 16)
    | _ => s.setStale m a true

/-- A step-start record received from the slot whose mirror is item m: kept at SNAPBUF + 64 KiB x (m + 1) (R493). -/
def State.keepStart (s : State) (slot : Nat) (b : List Byte) : State :=
  match findIdx? (fun (m : Nat × (Nat × (Nat × (Nat × Bool)))) => m.2.2.2.1 == slot) s.cfg.mirrors with
  | none => s
  | some i =>
    let a := s.cfg.snapbuf.1 + 65536 * (i + 1)
    (s.touchPhys a b.length true).hwrite a (b.map (fun x => (x, false)))

/-! What a fill takes from the partner (R507, R509, R510). -/

/-- The local address whose mirror lies at an address of the partner. -/
def Cfg.unmirror (c : Cfg) (m : Nat) : Option Nat :=
  (c.expregs.find? (fun r => decide (r.2.2 ≤ m ∧ m < r.2.2 + r.2.1))).map (fun r => r.1 + (m - r.2.2))

/-- Where the bytes of a fill land: a mirror line at the address that this device's EXPREG items pair with it, the refusal list in this
device's own, the rest in its snapshot buffer (R414, R509). -/
def Cfg.fillAt (c : Cfg) (kind addr off : Nat) : Option Nat :=
  match kind with
  | 2 => c.unmirror addr
  | 3 => (c.reflist 0xFF).bind (fun r => if off < r.2 then some (r.1 + off) else none)
  | _ => some (c.snapbuf.1 + off)

/-- Bytes of a fill written in place, poison and all (R509). -/
def State.takeFill (s : State) (pk : Packet) : State :=
  match s.cfg.fillAt (pk.fields.getD 0 0) pk.addr (pk.fields.getD 1 0) with
  | some a => (s.touchPhys a pk.data.length true).hwrite a (pkBytes pk)
  | none => s

/-! What the acting head is told of a mirror (R512; log entry 30). -/

/-- A filled slot is known to have a mirror without stale lines. -/
def State.noteFresh (s : State) (slot : Nat) : State := { s with gal := { s.gal with exposed := psDel s.gal.exposed slot } }

/-- The devices of HEADS told that this device's mirrors hold no stale line any more. Fields of the acknowledgement: 0x512, slot. -/
def State.tellFresh (s : State) (was : BitVec 40) : State :=
  if was = 0 ∨ s.exp.staleCnt ≠ 0 ∨ s.gal.state = .standalone then s
  else
    let me := s.gal.slot.toNat
    let s := (s.cfg.heads.filter (fun h => decide (h ≠ me ∧ h < 64))).foldl (fun s h =>
      s.sendCtl (flowKey s.gal.fleet.toNat h) 0x10 [0x512, me, 0, 0, 0, 0]) s
    s.noteFresh me

/-- A snapshot ends the staleness of the mirrors whose RESEND bit is clear (R415; log entry 47). -/
def State.endStale (s : State) : State :=
  let s' := (s.cfg.mirrors.filter (fun m => !m.2.2.2.2)).foldl (fun s m =>
    (s.exp.stale.filter (fun l => decide (m.1 ≤ 256 * l ∧ 256 * l < m.1 + m.2.1))).foldl (fun s l => s.setStale m (256 * l) false) s) s
  s'.tellFresh s.exp.staleCnt

/-- EXPREC at the partner: pieces gathered, and the record applied once its last byte is in. An ABORT discards what was
received (R412, R414). What a fill is sent goes to its place (R509). -/
def tgtExprec (pk : Packet) (s : State) : State × Ans :=
  let f (i : Nat) : Nat := pk.fields.getD i 0
  let k := pkFrom pk
  if 2 ≤ f 0 then (s.takeFill pk, ackAns)
  else
  let b := if f 1 = 0 then pk.data else tabGet [] s.exp.rxPart k ++ pk.data
  let pois := !pk.pois.isEmpty || (decide (f 1 ≠ 0) && psHas s.exp.rxPois k)
  if b.length < f 2 then
    ({ s with exp := { s.exp with rxPart := tabSet [] s.exp.rxPart k b, rxPois := psPut s.exp.rxPois k pois } }, ackAns)
  else
    let s := { s with exp := { s.exp with rxPart := tabSet [] s.exp.rxPart k [], rxPois := psPut s.exp.rxPois k false } }
    ((if f 0 = 1 then s.keepStart pk.sslot b else s.applyRec pk.sslot pk.addr (f 3) b pois).tellFresh s.exp.staleCnt, ackAns)

/-- EXPREC_RECEIVE (R414). -/
def execExprecReceive (port : Option (Fin 8)) (pk : Packet) (s : State) : Res := .next (s.receiveReq port pk 0x09 tgtExprec)

/-! Stale lines asked for again (R415). -/

/-- A FULL record of a line of this device, read and queued in one operation (R415). -/
def State.pushFull (s : State) (a : Nat) : State :=
  let s := s.touchPhys a 256 false
  let l := s.hbmRead a 256
  s.expPush
    { kind := 2, line := a / 256, stamp := BitVec.ofNat 32 (bfld l 0 4), pois := s.hbmPoisoned a 256,
      words := (List.range 32).map (fun i => (i, BitVec.ofNat 64 (bfld l (8 * i) 8))) } s.devStep

/-- RESEND at the source: each line is answered by a FULL record. Fields: first mirror line, count. -/
def tgtResend (pk : Packet) (s : State) : State × Ans :=
  let f (i : Nat) : Nat := pk.fields.getD i 0
  let lo := f 0
  ((List.range (min (f 1) 4096)).foldl (fun s i =>
    match s.cfg.unmirror ((lo + i) * 256) with
    | some a => s.pushFull a
    | none => s) s, ackAns)

/-- RESEND_RECEIVE (R415). -/
def execResendReceive (port : Option (Fin 8)) (pk : Packet) (s : State) : Res := .next (s.receiveReq port pk 0x0A tgtResend)

/-- The length of the run of consecutive numbers at the head of a rising list. -/
def runLen : List Nat → Nat
  | [] => 0
  | [_] => 1
  | x :: y :: r => if y = x + 1 then 1 + runLen (y :: r) else 1

/-- Stale lines of a region that no request has asked for yet; all of them again, once every one has been asked for and no request is
outstanding (R415). -/
def Exp.toAsk (x : Exp) (base len out : Nat) : List Nat :=
  let st := x.stale.filter (fun l => decide (base ≤ l * 256 ∧ l * 256 < base + len))
  let new := st.filter (fun l => !psHas x.asked l)
  if new.isEmpty && out == 0 then st else new

/-- MIRROR_RESEND_REQUEST: the partner asks for the next run of at most 4,096 stale lines of a mirror in ascending order, while RESEND
is set and fewer than 8 requests are outstanding (R415). -/
def execMirrorResendRequest (mirror : Nat) (s : State) : Res :=
  match s.cfg.mirrors[mirror]? with
  | none => .next s
  | some (base, len, _, slot, rs) =>
    let dst := flowKey s.gal.fleet.toNat slot
    let out := ((s.flow dst).unacked.filter (fun u => u.1.ptype == 0x0A)).length
    let st := (s.exp.toAsk base len out).take 4096
    match st with
    | [] => .next s
    | l :: _ =>
      if rs ∧ out < 8 then
        let n := runLen st
        let s := { s with exp := { s.exp with asked := psPutRange s.exp.asked l n true } }
        .next (s.sendReq dst { ptype := 0x0A, fields := [l, n] })
      else .next s

end Sys2Proof.Machine
end

