-- ==== Sys2Proof/Machine/Compare.lean ====
section
/-! DEFINITION. The seal comparison of replicas: seals, sub-seals, line seals, lines, partner copies, and the repair of
differing lines (R235 to R237). The layout of the SEALX packets is the model's (log entry 26). -/
namespace Sys2Proof.Machine
open Sys2Proof

/-! The shard. -/

/-- The LINES ranges of the shard: those of SNAP, else the EXPREG ranges (log entry 26). -/
def Cfg.shard (c : Cfg) : List (Nat × Nat) :=
  if c.snapSec then (c.sranges.filter (fun r => r.2.2 == 0)).map (fun r => (r.1, r.2.1))
  else c.expregs.map (fun r => (r.1, r.2.1))

/-- Lines of the shard. -/
def Cfg.shardLines (c : Cfg) : Nat := ((c.shard.map (fun r => r.2 / 256))).foldl (· + ·) 0

/-- Local address of line j of the shard. -/
def lineAddr : List (Nat × Nat) → Nat → Nat
  | [], _ => 0
  | r :: rs, j => if j < r.2 / 256 then r.1 + 256 * j else lineAddr rs (j - r.2 / 256)

/-- Lines i to i + n - 1 of the shard as marked bytes. -/
def State.shardBytes (s : State) (i n : Nat) : List PByte :=
  (List.range n).flatMap (fun j => s.hread (lineAddr s.cfg.shard (i + j)) 256)

/-- Lines of the shard read through their home slices (R374). -/
def State.readShard (s : State) (is : List Nat) : State := is.foldl (fun s i => s.touchPhys (lineAddr s.cfg.shard i) 256 false) s

/-- Units of 4,096 lines. -/
def Cfg.shardUnits (c : Cfg) : Nat := ceilDiv c.shardLines 4096

/-- The key of the seals, as a number. -/
def Cfg.key (c : Cfg) : Nat := (c.sealkey.getD 0).toNat

/-- The sub-seal of unit j in mode LINES, with its POISONED bit. -/
def State.unitSeal (s : State) (j : Nat) : BitVec 64 :=
  let bs := s.shardBytes (4096 * j) (min 4096 (s.cfg.shardLines - 4096 * j))
  let rd := sealBytes 1 bs
  BitVec.ofNat 64 (sealWord (sealH s.cfg.key (words32 (rd.map Prod.fst))) 1 (anyPois rd))

/-- The seal of the shard in mode LINES. -/
def State.shardSeal (s : State) : BitVec 64 :=
  let us := (List.range s.cfg.shardUnits).map s.unitSeal
  BitVec.ofNat 64 (sealWord (sealH s.cfg.key (us.map (fun u => u.toNat % 2 ^ 61))) 1 (us.any (·.msb)))

/-- The LINE-mode seal of line i. -/
def State.lineSeal (s : State) (i : Nat) : BitVec 64 :=
  let bs := s.shardBytes i 1
  BitVec.ofNat 64 (sealWord (sealH s.cfg.key (words32 (bs.map Prod.fst))) 2 (anyPois bs))

/-! Gathering. -/

/-- Members of the group. -/
def State.cmpMembers (s : State) : List Nat := s.cfg.sealSlots

/-- The other members. -/
def State.cmpOthers (s : State) : List Nat := s.cmpMembers.filter (fun m => m ≠ s.gal.slot.toNat)

/-- A value held. -/
def SealCmp.word (c : SealCmp) (slot ph i : Nat) : Option (BitVec 64) :=
  (c.words.find? (fun w => w.1 == slot && w.2.1 == ph && w.2.2.1 == i)).map (fun w => w.2.2.2)

/-- Every member's value of an index is held, all are equal, and none is poisoned. -/
def SealCmp.same (c : SealCmp) (ms : List Nat) (ph i : Nat) : Bool :=
  let vs := ms.map (fun m => c.word m ph i)
  vs.all (fun v => match v with | some x => !x.msb && decide (v = vs.headD none) | none => false)

/-- Every member's values of a list of indices are held. -/
def SealCmp.full (c : SealCmp) (ms : List Nat) (ph : Nat) (is : List Nat) : Bool :=
  ms.all (fun m => is.all (fun i => (c.word m ph i).isSome))

/-- The state with the comparison changed. -/
def State.modCmp (s : State) (f : SealCmp → SealCmp) : State := { s with snp := { s.snp with cmp := s.snp.cmp.map f } }

/-- Values of this device held and sent to the other members, 256 to a packet. Fields: step, phase, count, then the
data: index and value pairs of 16 bytes. -/
def State.cmpSend (s : State) (ph : Nat) (vs : List (Nat × BitVec 64)) : State :=
  let me := s.gal.slot.toNat
  let st := match s.snp.cmp with | some c => c.step | none => 0
  let s := s.modCmp (fun c => { c with phase := ph, words := c.words ++ vs.map (fun v => (me, (ph, v))) })
  let cuts := (List.range (ceilDiv vs.length 256)).map (fun i => (vs.drop (256 * i)).take 256)
  s.cmpOthers.foldl (fun s m => cuts.foldl (fun s cut =>
    s.sendReq (flowKey s.gal.fleet.toNat m)
      { ptype := 0x0C, fields := [st, ph, cut.length, 0, 16 * cut.length], data := cut.flatMap (fun v => leBytes 8 v.1 ++ leBytes 8 v.2.toNat) }) s) s

/-- Units that differ. -/
def State.diffUnits (s : State) (c : SealCmp) : List Nat :=
  (List.range s.cfg.shardUnits).filter (fun j => !c.same s.cmpMembers 2 j)

/-- Lines of the differing units. -/
def State.diffScope (s : State) (c : SealCmp) : List Nat :=
  (s.diffUnits c).flatMap (fun j => (List.range (min 4096 (s.cfg.shardLines - 4096 * j))).map (4096 * j + ·))

/-- Lines that differ. -/
def State.diffLines (s : State) (c : SealCmp) : List Nat := (s.diffScope c).filter (fun i => !c.same s.cmpMembers 3 i)

/-- A line's value held. -/
def lineOf (l : List (Nat × (Nat × (Bool × List Byte)))) (slot i : Nat) : Option (Bool × List Byte) :=
  (l.find? (fun x => x.1 == slot && x.2.1 == i)).map (fun x => x.2.2)

/-! Resolution (R236, R237). -/

/-- The value that more than half of the members hold unpoisoned, with a member that holds it (R236). -/
def SealCmp.majority (c : SealCmp) (ms : List Nat) (i : Nat) : Option (Nat × List Byte) :=
  let vs := ms.filterMap (fun m => match lineOf c.lines m i with | some (false, b) => some (m, b) | _ => none)
  vs.find? (fun v => decide (ms.length < 2 * (vs.filter (fun u => u.2 == v.2)).length))

/-- For two members: the value of the member whose line equals its partner copy, where the other member's line differs
from its own partner copy and that copy equals this value (R236). -/
def SealCmp.pairValue (c : SealCmp) (a b i : Nat) : Option (Nat × List Byte) :=
  match lineOf c.lines a i, lineOf c.lines b i, lineOf c.copies a i, lineOf c.copies b i with
  | some (pa, la), some (pb, lb), some (false, ca), some (false, cb) =>
    let da := pa || la != ca
    let db := pb || lb != cb
    if da && !db && ca == lb then some (b, lb) else if db && !da && cb == la then some (a, la) else none
  | _, _, _, _ => none

/-- The value that a differing line takes, with the slot it comes from. -/
def State.cmpValue (s : State) (c : SealCmp) (i : Nat) : Option (Nat × List Byte) :=
  match s.cmpMembers with
  | [a, b] => c.pairValue a b i
  | ms => c.majority ms i

/-- The TAINT bit of every cell set (R237). -/
def State.taintAll (s : State) : State :=
  (cellIds.filter (fun k => (s.cell k).exists_)).foldl (fun s k => s.modCell k (fun c => { c with taint := true })) s

/-- A line that cannot be resolved is poisoned and TAINT is set (R237). -/
def State.unresolve (s : State) (a : Nat) : State :=
  { s.touchPhys a 256 true with hbmPois := psPutRange (s.touchPhys a 256 true).hbmPois (a / 64) 4 true }.taintAll.rcFlag 64

/-- One differing line repaired or left unresolved (R236, R237). -/
def State.cmpResolve (s : State) (c : SealCmp) (i : Nat) : State :=
  let a := lineAddr s.cfg.shard i
  match s.cmpValue c i with
  | none => (s.unresolve a).log 0x1403 [.val 8 a]
  | some (src, v) =>
    if lineOf c.lines s.gal.slot.toNat i = some (false, v) then s
    else
      let s := (s.lineWrite a (s.cfg.physPart a) v false c.step).1
      ((s.rcAdd 5 1).rcFlag 32).log 0x1402 [.val 8 a, .val 1 src]

/-- The comparison ends. -/
def State.cmpEnd (s : State) : State :=
  s.modCmp (fun c => { c with phase := 9, words := [], lines := [], copies := [] })

/-- This device's own lines held and sent to the other members. Fields: step, phase 4, index, poison. -/
def State.cmpLines (s : State) (is : List Nat) : State :=
  let st := match s.snp.cmp with | some c => c.step | none => 0
  let s := s.modCmp (fun c => { c with phase := 4 })
  is.foldl (fun s i =>
    let s := s.readShard [i]
    let bs := s.shardBytes i 1
    let v := (anyPois bs, bs.map Prod.fst)
    let s := s.modCmp (fun c => { c with lines := c.lines ++ [(s.gal.slot.toNat, (i, v))] })
    s.cmpOthers.foldl (fun s m => s.sendReq (flowKey s.gal.fleet.toNat m)
      { ptype := 0x0C, fields := [st, 4, i, b2n v.1, v.2.length], data := v.2 }) s) s

/-- A partner copy held, and sent to the other member. Fields: step, phase 7, index, stale. -/
def State.cmpCopy (s : State) (i : Nat) (v : Bool × List Byte) : State :=
  let st := match s.snp.cmp with | some c => c.step | none => 0
  let s := s.modCmp (fun c => { c with copies := c.copies ++ [(s.gal.slot.toNat, (i, v))] })
  s.cmpOthers.foldl (fun s m => s.sendReq (flowKey s.gal.fleet.toNat m)
    { ptype := 0x0C, fields := [st, 7, i, b2n v.1, v.2.length], data := v.2 }) s

/-- The partner is asked for its copies of the differing lines; a line that is not exported has none. Fields: step,
phase 5, index, mirror address. -/
def State.cmpAsk (s : State) (is : List Nat) : State :=
  let st := match s.snp.cmp with | some c => c.step | none => 0
  let s := s.modCmp (fun c => { c with phase := 5 })
  is.foldl (fun s i =>
    let a := lineAddr s.cfg.shard i
    match s.cfg.partnerKey, s.cfg.expreg a with
    | some dst, some (rb, _, mb) =>
      let m := mb + (a - rb)
      s.sendReq dst { ptype := 0x0C, fields := [st, 5, i, m, 0] }
    | _, _ => s.cmpCopy i (true, [])) s

/-- The comparison goes on as far as what is held allows (R235). -/
def State.cmpStep : Nat → State → State
  | 0, s => s
  | k + 1, s =>
    match s.snp.cmp with
    | none => s
    | some c =>
      let ms := s.cmpMembers
      match c.phase with
      | 1 =>
        if !c.full ms 1 [0] then s
        else if c.same ms 1 0 then s.cmpEnd
        else
          let s := s.readShard (List.range s.cfg.shardLines)
          State.cmpStep k (s.cmpSend 2 ((List.range s.cfg.shardUnits).map (fun j => (j, s.unitSeal j))))
      | 2 =>
        if !c.full ms 2 (List.range s.cfg.shardUnits) then s
        else
          let s := s.readShard (s.diffScope c)
          State.cmpStep k (s.cmpSend 3 ((s.diffScope c).map (fun i => (i, s.lineSeal i))))
      | 3 =>
        if !c.full ms 3 (s.diffScope c) then s
        else
          let ds := s.diffLines c
          let s := s.log 0x1401 [.val 4 c.step, .val 4 ds.length]
          if s.cfg.divlim < ds.length then
            let s := ds.foldl (fun s i => s.unresolve (lineAddr s.cfg.shard i)) s
            (s.log 0x1403 [.val 8 (lineAddr s.cfg.shard (ds.headD 0)), .val 8 (lineAddr s.cfg.shard (ds.getLastD 0))]).cmpEnd
          else State.cmpStep k (s.cmpLines ds)
      | 4 =>
        let ds := s.diffLines c
        if !ms.all (fun m => ds.all (fun i => (lineOf c.lines m i).isSome)) then s
        else if ms.length = 2 then State.cmpStep k (s.cmpAsk ds)
        else (ds.foldl (fun s i => s.cmpResolve c i) s).cmpEnd
      | 5 =>
        let ds := s.diffLines c
        if !ms.all (fun m => ds.all (fun i => (lineOf c.copies m i).isSome)) then s
        else (ds.foldl (fun s i => s.cmpResolve c i) s).cmpEnd
      | _ => s

/-- The comparison held for a step; a new one replaces an older one. -/
def State.cmpFor (s : State) (step : Nat) : State :=
  match s.snp.cmp with
  | some c => if c.step = step then s else { s with snp := { s.snp with cmp := some { step := step } } }
  | none => { s with snp := { s.snp with cmp := some { step := step } } }

/-- A comparison is due at the STEP_END of a step (R235; log entry 26). -/
def State.cmpDue (s : State) (step : Nat) : Bool :=
  decide (2 ≤ s.cfg.sealSlots.length) && decide (step % s.cfg.sealCad = 0)

/-- The comparison begins on this device: its seal sent (R235). -/
def State.cmpBegin (s : State) (step : Nat) : State :=
  let s := s.cmpFor step
  match s.snp.cmp with
  | some c =>
    if c.phase = 0 then
      let s := s.readShard (List.range s.cfg.shardLines)
      State.cmpStep 8 (s.cmpSend 1 [(0, s.shardSeal)])
    else s
  | none => s

/-- SEALX at a member or at a partner (R235, R236). -/
def tgtSealx (pk : Packet) (s : State) : State × Ans :=
  let f (i : Nat) : Nat := pk.fields.getD i 0
  let ph := f 1
  if ph = 5 then
    let a := f 3
    let s := if (s.cfg.mirrorAt pk.sslot a).isSome then s.touchPhys a 256 false else s
    let v : Bool × List Byte := match s.cfg.mirrorAt pk.sslot a with
      | some _ => (psHas s.exp.stale (a / 256) || s.hbmPoisoned a 256, s.hbmRead a 256)
      | none => (true, [])
    (s.sendReq (pkFrom pk) { ptype := 0x0C, fields := [f 0, 6, f 2, b2n v.1, v.2.length], data := v.2 }, ackAns)
  else
    let s := s.cmpFor (f 0)
    let s := match ph with
      | 4 => s.modCmp (fun c => { c with lines := c.lines ++ [(pk.sslot, (f 2, (decide (f 3 = 1), pk.data)))] })
      | 6 => s.cmpCopy (f 2) (decide (f 3 = 1), pk.data)
      | 7 => s.modCmp (fun c => { c with copies := c.copies ++ [(pk.sslot, (f 2, (decide (f 3 = 1), pk.data)))] })
      | _ => s.modCmp (fun c => { c with words := c.words ++ (List.range (f 2)).map (fun j =>
          (pk.sslot, (ph, (bfld pk.data (16 * j) 8, BitVec.ofNat 64 (bfld pk.data (16 * j + 8) 8))))) })
    (State.cmpStep 8 s, ackAns)

/-- SEALX_RECEIVE (R235). -/
def execSealxReceive (port : Option (Fin 8)) (pk : Packet) (s : State) : Res := .next (s.receiveReq port pk 0x0C tgtSealx)

end Sys2Proof.Machine
end

