-- ==== Sys2Proof/Machine/Rendez.lean ====
section
/-! DEFINITION. The SYN stream and rendezvous: WAIT, SIGNAL, RDV, TICKMARK, ARRIVE, RELEASE, RDVNAK (R257, R258, R322 to
R325, R461 to R463). A rendezvous of a device that heads it is handled without packets. -/
namespace Sys2Proof.Machine
open Sys2Proof

/-! The acting head. -/

/-- Slots of the box (R444). -/
def Cfg.nslots (c : Cfg) : Nat := c.box.1 * (c.box.2.1 * c.box.2.2)

/-- This device is the acting head; a device without a fleet is its own. -/
def State.isHead (s : State) : Bool :=
  s.gal.state == .standalone || (s.gal.state == .active && s.gal.acthead == s.gal.slot)

/-- A rendezvous (R462). -/
def State.rdvAt (s : State) (name : Nat) : Rdv := tabGet {} s.gal.rdvs name

/-- The state with a rendezvous changed. -/
def State.modRdv (s : State) (name : Nat) (f : Rdv → Rdv) : State :=
  { s with gal := { s.gal with rdvs := tabMod {} s.gal.rdvs name f } }

/-- Slots of the box that take part in a rendezvous; this device alone without a fleet (R461). -/
def State.rdvSlots (s : State) (name : Nat) : List Nat :=
  if s.gal.state = .standalone then [s.gal.slot.toNat]
  else match s.cfg.rdvDef name with
    | some (sl, _) => (List.range s.cfg.nslots).filter (fun i => sl.testBit i)
    | none => []

/-! RDV instructions in flight. -/

/-- The NAME of a RDV word. -/
def rdvName (w : BitVec 128) : Nat := wf w 69 54

/-- An entry is a NAMED RDV of a name that waits. -/
def Entry.waitsRdv (e : Entry) (name : Nat) : Bool :=
  wOpc e.word == 0xA2 && wf e.word 71 70 == 1 && rdvName e.word == name && !e.done

/-- A cell has reached a NAMED rendezvous: one of its RDV instructions waits, live or in its context image (R462). -/
def State.reached (s : State) (name k : Nat) : Bool :=
  let c := s.cell k
  c.members.any (fun n => (s.core n).inflight.any (·.waitsRdv name)) ||
  (match c.img with | some im => im.cores.any (fun co => co.inflight.any (·.waitsRdv name)) | none => false)

/-- The cells of this device that take part in a rendezvous. -/
def State.rdvCells (s : State) (name : Nat) : List Nat :=
  cellIds.filter (fun k => (s.cell k).exists_ && s.inRdv name k)

/-! RELEASE and RDVNAK (R258, R462, R484). -/

/-- The waiting instructions of a rendezvous in the cores of a cell: core, stream and ORD; the STEP_END that a cell waits for has not
issued, so it is the next instruction of the SYN stream of logical core 0 (R258, R324). -/
def State.rdvWaiting (s : State) (name k : Nat) : List (Nat × (Nat × Nat)) :=
  let c := s.cell k
  if name = 0 then
    (if !c.released && s.cellDrained c then ((c.pcore 0).map (fun n => (n, 5, tabGet 0 (s.core n).ord 5))).toList else [])
  else c.members.flatMap (fun n => ((s.core n).inflight.filter (·.waitsRdv name)).map (fun e => (n, e.stream, e.ord)))

/-- The waiting instructions of a rendezvous in a context image: logical core, stream and ORD (R484). -/
def State.rdvSaved (s : State) (name k : Nat) : List (Nat × (Nat × Nat)) :=
  match (s.cell k).img with
  | none => []
  | some im => im.cores.zipIdx.flatMap (fun (co, l) => (co.inflight.filter (·.waitsRdv name)).map (fun e => (l, e.stream, e.ord)))

/-- RDV_SKEW is raised at each RDV that waits, which stops there (R462, R472, R473); in a context image its entry is marked, so that it
faults again once the cell resumes (log entry 11). -/
def State.rdvSkew (s : State) (name headEpoch : Nat) : State :=
  let ep := (s.rdvAt name).epoch
  let fs : List EvF := [.val 2 name, .val 4 ep, .val 4 headEpoch]
  let s' := (s.rdvCells name).foldl (fun s k =>
    let s := (s.rdvWaiting name k).foldl (fun s (w : Nat × (Nat × Nat)) =>
      (s.modCore w.1 (fun co => co.modEntry w.2.1 w.2.2 (fun e => { e with faulted := true }))).raiseFault k 0x3302 fs
        ((s.cell k).lcore w.1) w.2.1 w.2.2 false) s
    (s.rdvSaved name k).foldl (fun s (w : Nat × (Nat × Nat)) =>
      (s.modImgEntry k w.1 w.2.1 w.2.2 (fun e => { e with faulted := true })).log 0x3302 fs) s) s
  s'.modRdv name (fun r => { r with sentArrive := false })

/-- The waiting RDV instructions of a core end with the epoch of the occurrence. -/
def Core.rdvDone (co : Core) (name ep : Nat) : Core :=
  { co with inflight := co.inflight.map (fun e =>
      if e.waitsRdv name then { e with done := true, fields := [BitVec.ofNat 32 ep], cursor := BitVec.ofNat 64 (2 ^ 63 + ep % 2 ^ 32) }
      else e) }

/-- The rendezvous's name is the commit rendezvous of DLC (R505). -/
def Cfg.isCommit (cf : Cfg) (name : Nat) : Bool := match cf.dlc with | some (_, nm) => decide (nm = name) | none => false

/-- The waits of a cell, or of its image, that a release ends (R258, R484). -/
def State.releaseCell (s : State) (name ep k : Nat) : State :=
  let c := s.cell k
  let s := c.members.foldl (fun s n => s.modCore n (fun co => co.rdvDone name ep)) s
  let s := match c.img with
    | none => s
    | some im => (List.range im.cores.length).foldl (fun s l => (s.modImg k l (fun co => co.rdvDone name ep)).imgTable k l) s
  s.modCell k (fun c => { c with
    released := c.released || decide (name = 0)
    commitDone := c.commitDone || s.cfg.isCommit name })

/-- The device's own notes of a release: the commit rendezvous was passed; a comparison ends with its step (R484, R505). -/
def State.noteRelease (s : State) (name : Nat) : State :=
  { s with
    gal := { s.gal with commitSeen := if name = 0 then false else s.gal.commitSeen || s.cfg.isCommit name }
    snp := { s.snp with cmp := if name = 0 then none else s.snp.cmp } }

/-- A rendezvous completes on this device: its RDV instructions end, in live cells and in context images; STEP_END may
issue; the commit rendezvous is noted; the epoch advances (R258, R462, R484, R505). -/
def State.onRelease (s : State) (name ep : Nat) : State :=
  if ep ≠ (s.rdvAt name).epoch then s.rdvSkew name ep
  else
    let s := (s.rdvCells name).foldl (fun s k => s.releaseCell name ep k) s
    (s.modRdv name (fun r => { epoch := r.epoch + 1 })).noteRelease name

/-- An ARRIVE at the acting head: a wrong epoch is answered RDVNAK; the last one sends RELEASE to every participant
(R462). Fields of RELEASE and RDVNAK: NAME, epoch. -/
def State.onArrive (s : State) (slot name ep : Nat) : State :=
  let me := s.gal.slot.toNat
  let r := s.rdvAt name
  if ep ≠ r.epoch then
    if slot = me then s.rdvSkew name r.epoch
    else s.sendCtl (flowKey s.gal.fleet.toNat slot) 0x24 [name, r.epoch]
  else
    let s := s.modRdv name (fun r => { r with arrived := if r.arrived.contains slot then r.arrived else r.arrived ++ [slot] })
    let all := s.rdvSlots name
    if all.all (fun i => (s.rdvAt name).arrived.contains i) then
      let s := (all.filter (fun i => i ≠ me)).foldl (fun s i => s.sendCtl (flowKey s.gal.fleet.toNat i) 0x23 [name, ep]) s
      s.onRelease name ep
    else s

/-- ARRIVE sent to the acting head (R462). -/
def State.sendArrive (s : State) (name : Nat) : State :=
  let ep := (s.rdvAt name).epoch
  let s := s.modRdv name (fun r => { r with sentArrive := true })
  if s.isHead then s.onArrive s.gal.slot.toNat name ep
  else s.sendCtl (flowKey s.gal.fleet.toNat s.gal.acthead.toNat) 0x22 [name, ep]

/-- Every participating cell of this device has reached a NAMED rendezvous: the device arrives (R462). -/
def State.rdvReach (s : State) (name : Nat) : State :=
  let ks := s.rdvCells name
  if !(s.rdvAt name).sentArrive && !ks.isEmpty && ks.all (s.reached name) then s.sendArrive name else s

/-- ARRIVE sent again for every rendezvous that is pending (R463). -/
def State.rearrive (s : State) : State :=
  (s.gal.rdvs.map Prod.fst).foldl (fun s name => if (s.rdvAt name).sentArrive then s.sendArrive name else s) s

/-! Instructions of the SYN stream. -/

/-- The plan of an instruction that completes at the end of its issue tick (R322, R325, R328). -/
def synPlan (x : IssueCtx) : Plan := { entry := { doneCycle := x.c.cycle + 8 } }

/-- WAIT: its tokens and fences are all of it (R322). -/
def execWait (core : Fin 48) (w : BitVec 128) (s : State) : Res := .next (s.issue1 core 5 0xA0 w (fun x => .ok (synPlan x)))

/-- The entry of an instruction of a stream that has just issued. -/
def State.justIssuedOn (s s' : State) (n st : Nat) : Option Entry :=
  let ord := tabGet 0 (s.core n).ord st
  match (s.core n).entry st ord with
  | some _ => none
  | none => (s'.core n).entry st ord

/-- A cell and a logical core of this device exist (R333). -/
def State.lcoreOk (s : State) (k l : Nat) : Bool := ((s.cell k).pcore l).isSome

/-- SIGNAL's plan (R323, R333). -/
def planSignal (s : State) (w : BitVec 128) (x : IssueCtx) : Except Refuse Plan := do
  let k := wf w 58 55
  let l := wf w 54 49
  if wf w 59 59 = 0 then
    chk ((s.cell k).exists_) (paramBad 0x5211 0xA1 0x137)
    chk (s.lcoreOk k l) (paramBad 0x5211 0xA1 0x131)
  pure (synPlan x)

/-- SIGNAL: a post of COUNT follows, in the flow of its destination, the data that this core sent there before; the instruction holds its
packet until the post has landed (R323, R328). -/
def execSignal (core : Fin 48) (w : BitVec 128) (s : State) : Res :=
  let s' := s.issue1 core 5 0xA1 w (planSignal s w)
  match s.justIssuedOn s' core 5 with
  | none => .next s'
  | some e => .next (s'.sendOps core 5 e.ord [signalPk s.ownKey w])

/-- RDV's plan: a NAME without an RDVDEF item is refused (R324, R333, R461). STEP_END issues once it is ready, and then is
done. -/
def planRdv (s : State) (w : BitVec 128) (x : IssueCtx) : Except Refuse Plan := do
  let nm := rdvName w
  chk (s.cfg.rdvDef nm).isSome (paramBad 0x5211 0xA2 0x136)
  let ep := (s.rdvAt nm).epoch
  if wf w 71 70 = 0 then
    pure { synPlan x with entry := { doneCycle := x.c.cycle + 8, done := true, fields := [BitVec.ofNat 32 (ep - 1)] } }
  else pure { entry := { cursor := BitVec.ofNat 64 (ep % 2 ^ 32) } }

/-- RDV: joins a rendezvous (R324, R462). -/
def execRdv (core : Fin 48) (w : BitVec 128) (s : State) : Res :=
  let s' := s.issue1 core 5 0xA2 w (planRdv s w)
  match s.justIssuedOn s' core 5 with
  | none => .next s'
  | some _ => .next (if wf w 71 70 = 0 then s' else s'.rdvReach (rdvName w))

/-- TICKMARK: logs its label and the counter value of its issue tick (R325). -/
def execTickmark (core : Fin 48) (w : BitVec 128) (s : State) : Res :=
  let s' := s.issue1 core 5 0xA3 w (fun x => .ok (synPlan x))
  match s.justIssuedOn s' core 5, s.cellOf core with
  | some e, some k =>
    .next (s'.log 0x5104 [.val 8 s'.timeNow.1.toNat, .cell k, .val 1 ((s.cell k).lcore core), .val 4 (wf w 71 40), .val 4 e.issueTick])
  | _, _ => .next s'

/-! Commands of the rendezvous. -/

/-- STEP_END_ARRIVE_READY: every participating cell has ended its work, and the seal comparison, which begins here where
one is due, has ended: the device arrives (R235, R258, R462). -/
def execStepEndArriveReady (s : State) : Res :=
  let ks := s.rdvCells 0
  let ready := !ks.isEmpty && !(s.rdvAt 0).sentArrive &&
    ks.all (fun k => !(s.cell k).released && s.cellDrained (s.cell k))
  if s.operational && ready then
    let step := s.devStep
    if s.cmpDue step then
      let s := s.cmpBegin step
      match s.snp.cmp with
      | some c => .next (if c.phase = 9 then s.sendArrive 0 else s)
      | none => .next s
    else .next (s.sendArrive 0)
  else .next s

/-- ARRIVE_RECEIVE at the acting head. Fields: NAME, epoch (R462). -/
def execArriveReceive (port : Option (Fin 8)) (pk : Packet) (s : State) : Res :=
  .next (s.receiveCtl port pk 0x22 (fun _ pk s =>
    if s.isHead && pk.sfleet == s.gal.fleet.toNat then s.onArrive pk.sslot (pk.fields.getD 0 0) (pk.fields.getD 1 0) else s))

/-- RELEASE_RECEIVE (R258, R462). -/
def execReleaseReceive (port : Option (Fin 8)) (pk : Packet) (s : State) : Res :=
  .next (s.receiveCtl port pk 0x23 (fun _ pk s => s.onRelease (pk.fields.getD 0 0) (pk.fields.getD 1 0)))

/-- RDVNAK_RECEIVE: the cells that wait fault (R462). -/
def execRdvnakReceive (port : Option (Fin 8)) (pk : Packet) (s : State) : Res :=
  .next (s.receiveCtl port pk 0x24 (fun _ pk s => s.rdvSkew (pk.fields.getD 0 0) (pk.fields.getD 1 0)))

/-- RDV_TIMEOUT: RDVTO after the first ARRIVE of an occurrence the head logs the missing slots (R463). -/
def execRdvTimeout (name : Nat) (s : State) : Res :=
  let r := s.rdvAt name
  if s.isHead && !r.arrived.isEmpty then
    let miss := ((s.rdvSlots name).filter (fun i => !r.arrived.contains i)).foldl (fun m i => m + 2 ^ i) 0
    .next (s.log 0x3301 [.val 2 name, .val 4 r.epoch, .val 8 miss])
  else .next s

end Sys2Proof.Machine
end

