-- ==== Sys2Proof/Machine/Heads.lean ====
section
/-! DEFINITION. Heartbeats, heads and deputies, fencing, and death declarations up to their acknowledgement (R453, R457,
R465 to R469). -/
namespace Sys2Proof.Machine
open Sys2Proof

/-! Gallery states. -/

/-- The device enters a gallery state; outside ACTIVE and STANDALONE every cell is held (R457, R468, R469). -/
def State.setGal (s : State) (g : GalSt) : State :=
  let s := { s with gal := { s.gal with state := g } }
  let h := !(g == .standalone || g == .active)
  (cellIds.filter (fun k => (s.cell k).exists_)).foldl (fun s k =>
    s.modCell k (fun c => { c with holds := { c.holds with headless := h } })) s

/-- This device enters QUARANTINED: fenced under an incarnation, over a port (R457). -/
def State.quarantine (s : State) (inc port : Nat) : State :=
  (s.setGal .quarantined).log 0x3306 [.val 1 s.gal.slot.toNat, .val 2 inc, .link port]

/-- A slot's rank among HEADS (R446). -/
def Cfg.rankOf (c : Cfg) (slot : Nat) : Option Nat := findIdx? (fun h => h == slot) c.heads

/-- This device is named in HEADS and holds a slot. -/
def State.deputy (s : State) : Bool := (s.cfg.rankOf s.gal.slot.toNat).isSome && s.gal.role != 1

/-- The slots that are live to this device, itself among them (R465). -/
def State.liveSlots (s : State) : List Nat :=
  (List.range s.cfg.nslots).filter (fun i => i == s.gal.slot.toNat || decide (0 < tabGet 0 s.gal.hbLeft i))

/-- GAL_LIVE and NLIVE brought up to date on the head and the deputies (R465, R470). -/
def State.showLive (s : State) : State :=
  if s.deputy then
    { s with gal := { s.gal with live := BitVec.ofNat 64 (s.liveSlots.foldl (fun m i => m + 2 ^ i) 0),
                                 nlive := BitVec.ofNat 7 s.liveSlots.length } }
  else s

/-- Code of a gallery state (R470). -/
def galCode : GalSt → Nat
  | .standalone => 0 | .active => 1 | .headless => 2 | .fenced => 3 | .quarantined => 4

/-! Heartbeats (R465, R468). -/

/-- HB_TIMER: HBIV: a member sends HB to every device of HEADS, and the acting head HEADBEAT to every slot; the count of
intervals for which a slot still counts as heard goes down. Heartbeats stop in STANDBY and from removal phase 3 (R565, R568). Fields of HB: slot, incarnation, step, GAL_STATE, identity
hash; of HEADBEAT: the head's slot (R465; log entry 27). -/
def execHbTimer (s : State) : Res :=
  if s.gal.state = .standalone ∨ s.gal.role = 1 ∨ !s.operational ∨ 3 ≤ s.pwr.rphase then .next s
  else
    let me := s.gal.slot.toNat
    let fl := s.gal.fleet.toNat
    let hb : List Nat := [me, s.gal.incarn.toNat, s.devStep % 2 ^ 64, galCode s.gal.state, bfld s.mgmt.idHash 0 4]
    let s := { s with gal := { s.gal with hbLeft := (s.gal.hbLeft.map (fun (e : Nat × Nat) => (e.1, e.2 - 1))).filter (fun (e : Nat × Nat) => decide (e.2 ≠ 0)) } }
    let s := (s.cfg.heads.filter (fun h => decide (h ≠ me ∧ h < 64))).foldl (fun (s : State) h => s.sendCtl (flowKey fl h) 0x20 hb) s
    let s := if s.isHead then
        ((List.range s.cfg.nslots).filter (fun i => decide (i ≠ me))).foldl (fun (s : State) i => s.sendCtl (flowKey fl i) 0x21 [me]) s
      else s
    .next s.showLive

/-- The first bytes of the key hash of the device that was assigned to a slot (R507). -/
def State.assigned (s : State) (slot : Nat) : Option Nat :=
  match tabGet [] s.gal.owners slot with
  | [] => none
  | h => some (bfld h 0 4)

/-- HB_RECEIVE at a head or deputy: the slot is live; at the acting head an HB from a device other than the one assigned to
the slot is answered with FENCE (R465, R507). -/
def execHbReceive (port : Option (Fin 8)) (pk : Packet) (s : State) : Res :=
  .next (s.receiveCtl port pk 0x20 (fun _ pk s =>
    if pk.sfleet ≠ s.gal.fleet.toNat then s
    else
      match s.isHead, s.assigned pk.sslot with
      | true, some h =>
        if h = pk.fields.getD 4 0 then
          { s with gal := { s.gal with hbLeft := tabSet 0 s.gal.hbLeft pk.sslot s.cfg.hbmiss } }.showLive
        else s.sendCtl (pkFrom pk) 0x26 [pk.sslot, pk.sinc]
      | _, _ => { s with gal := { s.gal with hbLeft := tabSet 0 s.gal.hbLeft pk.sslot s.cfg.hbmiss } }.showLive))

/-- A device records an acting head; a new one is sent every pending ARRIVE (R463, R468). -/
def State.followHead (s : State) (h : Nat) : State :=
  if s.gal.acthead.toNat = h then s
  else { s with gal := { s.gal with acthead := BitVec.ofNat 6 h } }.rearrive

/-- HEADBEAT_RECEIVE: the device follows the acting head; a deputy that heads the fleet yields to a lower rank; a HEADLESS
device returns to ACTIVE. The time spent HEADLESS is a free value (R468). -/
def execHeadbeatReceive (port : Option (Fin 8)) (pk : Packet) (s : State) : Res :=
  .next (s.receiveCtl port pk 0x21 (fun _ pk s =>
    if pk.sfleet ≠ s.gal.fleet.toNat then s
    else
      match s.gal.state with
      | .headless =>
        let us := Config.draw s.free % 2 ^ 32
        let s := { s with free := s.free + 1 }
        let s := (s.setGal .active).followHead pk.sslot
        s.log 0x3308 [.val 1 s.gal.slot.toNat, .val 1 pk.sslot, .val 4 us]
      | .active =>
        if s.isHead then
          match s.cfg.rankOf pk.sslot, s.cfg.rankOf s.gal.slot.toNat with
          | some a, some b => if a < b then s.followHead pk.sslot else s
          | _, _ => s
        else s.followHead pk.sslot
      | _ => s))

/-- HEADBEAT_TIMEOUT: no HEADBEAT for HBMISS x HBIV: HEADLESS, every cell held (R468). -/
def execHeadbeatTimeout (us : Nat) (s : State) : Res :=
  if s.gal.state = .active ∧ !s.isHead ∧ s.gal.role ≠ 1 then
    .next ((s.setGal .headless).log 0x3307 [.val 1 s.gal.slot.toNat, .val 1 s.gal.acthead.toNat, .val 4 us])
  else .next s

/-- The device enters FENCED (R466, R468, R469). -/
def State.enterFenced (s : State) : State :=
  let live := s.liveSlots.length
  (s.setGal .fenced).log 0x3305 [.val 4 live, .val 4 s.cfg.nslots]

/-- HEADLESS_FENCE_TIMER: 5 x HBMISS x HBIV without an acting head: FENCED (R468). -/
def execHeadlessFenceTimer (s : State) : Res :=
  if s.gal.state = .headless then .next s.enterFenced else .next s

/-! Death (R466, R467). -/

/-- A capture in progress ends without a record, and the cells go on (R513). -/
def State.dropCapture (s : State) : State :=
  let s := (cellIds.filter (fun k => (s.cell k).exists_)).foldl (fun s k =>
    s.modCell k (fun c => { c with holds := { c.holds with capture := false } })) s
  { s with snp := { s.snp with state := if s.snp.upGen.isSome then .upload else .idle } }

/-- A slot's incarnation changes to a new one: the table, and every pending operation to the old incarnation fails with
cause 4; the flow to the slot starts afresh, and no heartbeat of the old incarnation counts any more (R454, R465, R467). A capture in
progress ends without a record, and the export engine pauses where the slot is the partner (R512, R513). -/
def State.onDeath (s : State) (flow inc : Nat) : State :=
  let own := decide (flow / 64 = s.gal.fleet.toNat)
  let s := { s with gal := { s.gal with incs := tabSet 0 s.gal.incs flow (BitVec.ofNat 16 inc),
                                        hbLeft := if own then tabSet 0 s.gal.hbLeft (flow % 64) 0 else s.gal.hbLeft } }
  let s := if own ∧ s.snp.state = .capture then s.dropCapture else s
  let s := if s.cfg.expPartner = some (flow / 64, flow % 64) then { s with exp := { s.exp with ward := true } } else s
  let seqs := (s.flow flow).unacked.map (fun u => u.1.seq)
  (seqs.foldl (fun s q => s.remFault flow q 4 0) s).modFlow flow (fun _ => {})

/-- The incarnation after one (R445). -/
def nextInc (i : Nat) : Nat := if i = 65535 then 1 else i + 1

/-- The devices of HEADS of another fleet: that fleet's acting head is the one among them that answers (R446, R466; log entry 27). -/
def Cfg.headsOf (c : Cfg) (f : Nat) : List Nat := (c.heads.filter (fun h => decide (h < 64))).map (flowKey f)

/-- A slot of this fleet counts as dead from a declaration on, until it is filled (R505). -/
def State.noteDead (s : State) (slot inc : Nat) : State :=
  { s with gal := { s.gal with deadSlots := (s.gal.deadSlots.filter (fun d => d.1 ≠ slot)) ++ [(slot, inc)] } }

/-- One slot declared dead by the acting head: its incarnation moves, DEATH goes to every live slot and to the acting head
of every other fleet, and the acknowledgements are awaited (R466; log entry 27). Fields: fleet, slot, incarnation. -/
def State.declare (s : State) (live : List Nat) (slot : Nat) : State :=
  let fl := s.gal.fleet.toNat
  let me := s.gal.slot.toNat
  let old := (tabGet 0 s.gal.incs (flowKey fl slot)).toNat
  let inc := nextInc old
  let s := s.log 0x3303 [.val 1 slot, .val 2 old, .val 2 inc]
  let own := (live.filter (fun i => i ≠ me)).map (flowKey fl)
  let fs := s.cfg.fleets.filter (fun f => f ≠ fl)
  let s := (own ++ fs.flatMap s.cfg.headsOf).foldl (fun s d => s.sendCtl d 0x25 [fl, slot, inc]) s
  let s := s.onDeath (flowKey fl slot) inc
  { s with gal := { s.gal with deaths := s.gal.deaths ++ [⟨slot, inc, own ++ fs.map (fun f => 4096 + f), false⟩] } }

/-- Slots declared dead and not yet refilled. -/
def State.deadNow (s : State) (i : Nat) : Bool :=
  s.gal.deaths.any (fun d => d.slot == i) || s.gal.deadSlots.any (fun d => d.1 == i)

/-- FENCE_RECEIVE: this device is fenced. Fields: slot, incarnation (R457). -/
def execFenceReceive (port : Option (Fin 8)) (pk : Packet) (s : State) : Res :=
  .next (s.receiveCtl port pk 0x26 (fun p pk s =>
    if s.gal.state = .quarantined then s else s.quarantine (pk.fields.getD 1 0) p))

/-- A declaration acknowledged: fields 0x25, the dead slot's fleet, 0, the slot, whether this device has completed the commit rendezvous of
the step, 0 (R467, R505; log entry 30). -/
def State.ackDeath (s : State) (dst flow : Nat) (commit : Bool) : State :=
  s.sendCtl dst 0x10 [0x25, flow / 64, 0, flow % 64, b2n commit, 0]

/-- The acting head of another fleet passes a declaration on to its own slots and waits for their acknowledgements, or acknowledges at once
where it has no other slot (R466, R467). -/
def State.relay (s : State) (flow inc frm : Nat) : State :=
  let own := (s.liveSlots.filter (fun i => i ≠ s.gal.slot.toNat))
  let s := own.foldl (fun s i => s.sendCtl (flowKey s.gal.fleet.toNat i) 0x25 [flow / 64, flow % 64, inc]) s
  if own.isEmpty then s.ackDeath frm flow false
  else { s with gal := { s.gal with relays := (s.gal.relays.filter (fun r => r.flow ≠ flow)) ++ [⟨flow, inc, frm, own⟩] } }

/-- DEATH names this device's own slot: it is fenced, where the incarnation is the one that it has or the next one (R457; log entry 23). -/
def State.ownDeath (s : State) (inc port : Nat) : State :=
  let me := s.gal.incarn.toNat
  if s.gal.state = .quarantined ∨ (inc ≠ me ∧ inc ≠ nextInc me) then s else s.quarantine me port

/-- DEATH_RECEIVE: the incarnation table is updated, pending operations to the old incarnation fail, and the acting head is
answered; a device that is named itself is fenced; the acting head of another fleet relays the packet to its own slots and answers the head
that declared once they have (R457, R466, R467; log entries 27, 30). A packet whose incarnation the table holds already is only answered. -/
def execDeathReceive (port : Option (Fin 8)) (pk : Packet) (s : State) : Res :=
  .next (s.receiveCtl port pk 0x25 (fun p pk s =>
    let flow := flowKey (pk.fields.getD 0 0) (pk.fields.getD 1 0)
    let inc := pk.fields.getD 2 0
    let fl := s.gal.fleet.toNat
    if flow = s.ownKey then s.ownDeath inc p
    else
      let s := if (tabGet 0 s.gal.incs flow).toNat = inc then s else s.onDeath flow inc
      let s := if flow / 64 = fl ∧ s.deputy then s.noteDead (flow % 64) inc else s
      if pk.sfleet ≠ fl then (if s.isHead then s.relay flow inc (pkFrom pk) else s)
      else s.ackDeath (flowKey fl s.gal.acthead.toNat) flow s.gal.commitSeen))

/-- A route entry replaced: its port and VALID; ALT and ALTEN stay (R447, R453). -/
def State.setRoute (s : State) (flow e : Nat) : State :=
  let old := tabGet 0 s.gal.routes flow
  { s with gal := { s.gal with routes := tabSet 0 s.gal.routes flow (old &&& 0x78 ||| BitVec.ofNat 8 e &&& 0x87) } }

/-- ROUTESET_RECEIVE: a route entry replaced. Fields: fleet, slot, entry (R453). -/
def execRoutesetReceive (port : Option (Fin 8)) (pk : Packet) (s : State) : Res :=
  .next (s.receiveCtl port pk 0x27 (fun _ pk s => s.setRoute (flowKey (pk.fields.getD 0 0) (pk.fields.getD 1 0)) (pk.fields.getD 2 0)))

end Sys2Proof.Machine
end

