-- ==== Sys2Proof/Machine/TcdCmd.lean ====
section
/-! DEFINITION. Control datagrams: the path of a request from its TAG to its response, and the commands of a session
itself (R522 to R535, R578). -/
namespace Sys2Proof.Machine
open Sys2Proof

/-! The request path. -/

/-- Where a command's answer goes: session, EPOCH and SEQ; the flow of the device that forwarded it plus 1, or 0; and the
role of the session. -/
structure TcdCtx where
  /-- SESSION. -/
  id : Nat := 0
  /-- EPOCH. -/
  epoch : Nat := 0
  /-- SEQ. -/
  seq : Nat := 0
  /-- Flow of the forwarding device plus 1; 0 for a session of this device. -/
  frm : Nat := 0
  /-- OWNER role. -/
  owner : Bool := false
  /-- OPCODE. -/
  op : Nat := 0
  deriving DecidableEq, Repr

/-- What a command does: a state and an answer. -/
abbrev Eff := TcdCtx → State → State × Rsp

/-- A command refused with an event (R529). -/
def State.refuseCmd (s : State) (code : Nat) (fs : List EvF) : State × Rsp :=
  (s.log code fs, refused code (fs.flatMap EvF.bytes))

/-- A TCDF message sent in packets of at most 4,096 bytes, which the target puts together again. Fields: kind (0 a request, 16 one of the
OWNER role, 1 a response, 2 part of a store object, 3 its failure), session or target, EPOCH, SEQ, OPCODE or STATUS, the bytes of the whole
message, the offset and the bytes of this packet (R448, R449, R532; log entry 21). -/
def State.sendTcdf (s : State) (dst kind id epoch seq code : Nat) (payload : List Byte) : State :=
  (List.range (max 1 (ceilDiv payload.length 4096))).foldl (fun s i =>
    let d := (payload.drop (4096 * i)).take 4096
    s.sendReq dst { ptype := 0x0D, fields := [kind, id, epoch, seq, code, payload.length, 4096 * i, d.length], data := d }) s

/-- The answer of a command sent: to the session, or back through the fabric (R529, R532). -/
def State.answer (s : State) (c : TcdCtx) (status : Nat) (payload : List Byte) : State :=
  if c.frm = 0 then s.finalResponse c.id c.op c.epoch c.seq status payload
  else s.sendTcdf (c.frm - 1) 1 c.id c.epoch c.seq status payload

/-- STATUS ACCEPTED sent for a command whose final response comes later; the session keeps its SEQ as unfinished (R529). -/
def State.accept (s : State) (c : TcdCtx) (payload : List Byte) : State :=
  if c.frm = 0 then
    let s := s.modSession c.id (fun x => { x with queued := if x.queued.contains c.seq then x.queued else x.queued ++ [c.seq] })
    match s.session? c.id with
    | some ss => s.respond ss c.op c.epoch c.seq stAccepted payload
    | none => s
  else s.answer c stAccepted payload

/-- A message whose TAG does not verify: counted, and logged at most once per second per port; whether a second has
passed since the last record, and the number of messages within it, are free values (R523). -/
def State.badTag (s : State) (m : Msg) : State :=
  let p := m.port.val
  let first := !(s.eth p).authLogged
  let due := first || decide (Config.draw s.free % 2 = 0)
  let n := if first then 1 else Config.draw (s.free + 1) % 2 ^ 32
  let s := if first then s else { s with free := s.free + 2 }
  let s := s.modEth p (fun e => { e with badtag := satAdd e.badtag 1, authLogged := true })
  if due then s.log 0x4101 [.eth p, .val 4 m.src.toNat, .val 4 n] else s

/-- Code of the load engine's state (R45). -/
def LoadSt.code : LoadSt → Nat
  | .idle => 0 | .receiving => 1 | .verifying => 2 | .pending => 3 | .applying => 4

/-- What an acknowledgement that the load engine does not write itself reports of it: its state code, for the four commands of a load
(R45). DESIGN CHOICE: a device that answers a forwarded command itself reports its own load engine, the spec naming no other (log
entry 35). -/
def State.loadState (s : State) (op : Nat) : List Byte := if 0x20 ≤ op ∧ op ≤ 0x23 then leBytes 1 s.arm.state.code else []

/-- The role that a command needs is not the session's: STATUS ROLE, and for the armature commands ROLE_DENIED (R43,
R525). -/
def State.roleRefused (s : State) (c : TcdCtx) (op : Nat) : State :=
  if 0x20 ≤ op ∧ op ≤ 0x23 then s.log 0x7002 [.val 4 c.id, .val 2 op] else s

/-- A request forwarded to its target: UNREACHABLE where no such slot exists or without a VALID route, DEAD where the incarnation table holds 0
(R444, R532, R534). Whether it takes more than 1 ms, so that ACCEPTED is sent first, is a free value (R529; log entry 29). -/
def State.forward (s : State) (c : TcdCtx) (port dst op : Nat) (payload : List Byte) : State :=
  if !s.cfg.hasPlace (dst / 64) (dst % 64) ∨ !bit (tabGet 0 s.gal.routes dst).toNat 7 then s.answer c 8 []
  else if s.incOf dst = 0 then s.answer c 9 []
  else
    let s := s.modEth port (fun e => { e with fwd := e.fwd + 1 })
    let long := decide (Config.draw s.free % 2 = 1)
    let s := { s with free := s.free + 1 }
    let s := if long then s.accept c [] else s.modSession c.id (fun x => { x with queued := x.queued ++ [c.seq] })
    let s := { s with hst := { s.hst with fwds := s.hst.fwds ++ [(c.id, c.epoch, c.seq, dst, op)] } }
    s.sendTcdf dst (16 * b2n c.owner) c.id c.epoch c.seq op payload

/-- A request of a session, received from a device or from here, has begun and not finished: RESTORE and ARM_COMMIT take longer than
their command (R527, R533). -/
def State.engaged (s : State) (id frm : Nat) : Bool :=
  let mine (r : List Nat) : Bool := r.headD 0 == id && r.getD 3 0 == frm && !r.isEmpty
  mine s.snp.reply || mine s.arm.reply

/-- An earlier request of a session has not finished, or waits itself (R527, R533). -/
def State.unfinished (s : State) (id frm : Nat) : Bool := s.engaged id frm || s.hst.waiting.any (fun w => w.id == id && w.frm == frm)

/-- A request put behind an unfinished one (R527, R533). -/
def State.await (s : State) (c : TcdCtx) (payload : List Byte) : State :=
  { s with hst := { s.hst with waiting := s.hst.waiting ++ [⟨c.id, c.epoch, c.seq, c.frm, c.owner, c.op, payload⟩] } }

/-- The payload length that a command takes; the session's own take theirs (R531). -/
def opLenOk (op n : Nat) : Bool :=
  match op with
  | 0x04 | 0x05 | 0x06 | 0x13 | 0x23 | 0x50 | 0x51 => n == 0
  | 0x07 | 0x30 | 0x31 | 0x32 | 0x42 => n == 1
  | 0x08 | 0x33 | 0x44 => n == 4
  | 0x10 => n == 10
  | 0x11 => decide (24 ≤ n) && n % 8 == 0
  | 0x12 => n == 6
  | 0x20 | 0x22 => n == 8
  | 0x21 => decide (17 ≤ n)
  | 0x40 => n == 16
  | 0x41 => n == 40
  | 0x43 => n == 32
  | 0x45 => n == 12
  | 0x60 => n == 32
  | _ => false

/-- A frame of one priority received: where its buffer is past 75 % full a pause frame goes out; how full it is is not given (R541; log
entry 20). -/
def State.fillBuffer (s : State) (port : Nat) : State :=
  let pause := decide (Config.draw s.free % 2 = 1)
  let s := { s with free := s.free + 1 }
  if pause then (s.modEth port (fun e => { e with pauseTx := satAdd e.pauseTx 1 })).emit (.frame { s.wire port 0 with ect := false } 4) else s

/-- A request of the expected SEQ: the role, then this device or the fabric. `obs` marks a command that an OBSERVER may
send, `here` one of the session itself, `post` what follows a DONE. -/
def State.tcdRun (s : State) (m : Msg) (owner : Bool) (op : Nat) (payload : List Byte) (obs here : Bool) (eff : Eff)
    (post : State → State) : State :=
  let c : TcdCtx := ⟨m.session, m.epoch, m.seq, 0, owner, op⟩
  if !obs && !owner then (s.roleRefused c op).answer c stRole (s.loadState op)
  else if !opLenOk op payload.length then s.answer c stFormat (s.loadState op)
  else if !here && (m.tslot == 255 || flowKey m.tfleet m.tslot == s.ownKey) && s.unfinished m.session 0 then
    (s.accept c (s.loadState op)).await c payload
  else if here || m.tslot == 255 || flowKey m.tfleet m.tslot == s.ownKey then
    match eff c s with
    | (s, some (st, p)) =>
      if st = stDone then post (s.answer c st p)
      else if st = stAccepted then s.accept c p
      else s.answer c st p
    | (s, none) => s.accept c []
  else s.forward c m.port.val (flowKey m.tfleet m.tslot) op payload

/-- The session as a request finds it: after REKEY the next epoch begins with SEQ 0 (R528). -/
def Session.enter (ss : Session) (m : Msg) : Session :=
  if ss.rekeyed && m.epoch == ss.epoch + 1 && m.seq == 0 then
    { ss with epoch := ss.epoch + 1, expect := 0, kept := [], queued := [], rekeyed := false }
  else ss

/-- A request received: TAG, EPOCH and SEQ; a port that is being reset takes none (R523, R527, R528, R554). A halted management processor executes nothing (R573). -/
def State.tcd (s : State) (m : Msg) (op : Nat) (payload : List Byte) (obs here : Bool) (eff : Eff)
    (post : State → State) : State :=
  let s := s.fillBuffer m.port.val
  match s.session? m.session with
  | none => s
  | some ss0 =>
    if ss0.port ≠ m.port.val ∨ !ss0.open_ ∨ s.mgmt.halted ∨ s.rst.quiet.contains (48 + m.port.val) then s
    else if !ss0.verifies m op payload m.epoch then s.badTag m
    else
      let ss := ss0.enter m
      let s := s.modSession m.session (fun x => x.enter m)
      if m.epoch ≠ ss.epoch then
        if m.epoch < ss.epoch then s else s.respond ss op m.epoch m.seq 6 (s.loadState op)
      else if m.seq = ss.expect then
        if ss.rekeyed then s
        else if 64 ≤ ss.queued.length then s.respond ss op m.epoch m.seq stBusy (s.loadState op)
        else
          let s := s.modSession m.session (fun x => { x with expect := x.expect + 1 })
          s.tcdRun m ss.owner op payload obs here eff post
      else if m.seq < ss.expect then
        if ss.expect ≤ m.seq + 64 then
          match ss.kept.find? (fun k => k.1 == m.seq) with
          | some (_, st, p) => s.respond ss op m.epoch m.seq st p
          | none => if ss.queued.contains m.seq then s.respond ss op m.epoch m.seq stAccepted (s.loadState op) else s
        else s
      else
        let again := !ss.naked || decide (Config.draw s.free % 2 = 0)
        let s := { s with free := s.free + b2n ss.naked }
        let s := s.modSession m.session (fun x => { x with naked := true })
        if again then s.respond ss op m.epoch m.seq 7 (leBytes 4 ss.expect) else s

/-! Ownership (R586). -/

/-- The ownership record in force: epoch and key hash; no hash for no owner. -/
def Mgmt.owner (g : Mgmt) : Nat × List Byte := if g.own1.1 ≤ g.own0.1 then g.own0 else g.own1

/-- The role of a host key: true OWNER, false OBSERVER, none for neither (R525, R589). -/
def State.roleOf (s : State) (key : List Byte) : Option Bool :=
  let h := sha256 key
  if s.rst.ovr then some true
  else if s.mgmt.owner.2 ≠ [] ∧ h = s.mgmt.owner.2 then some true
  else if s.cfg.observers.contains h then some false
  else none

/-! Sessions (R524 to R528). -/

/-- A message of the opening handshake sent: a zero TAG, and EPOCH and SEQ of the request (R522 to R524, R529). -/
def State.sendOpen (s : State) (port : Nat) (no : MsgNo) (id status : Nat) (payload : List Byte) : State :=
  s.sendTcd port none 2 id no.epoch no.seq 1 status payload

/-- SESSION_OPEN: BUSY past the sessions limit, ROLE for an unknown key, else SESSION_KEY with a fresh session id, a device
nonce, the encrypted secret, the device certificate chain and a signature; the host's key is the one that its certificate carries (R524 to
R526). -/
def execSessionOpen (port : Fin 3) (no : MsgNo) (cert nonce : List Byte) (s : State) : Res :=
  let p := port.val
  let key := Config.certKey cert
  if !(s.eth p).up then .next s
  else if nonce.length ≠ 32 ∨ cert = [] then .next (s.sendOpen p no 0 stFormat [])
  else if s.cfg.maxSess ≤ s.hst.sessions.length then .next (s.sendOpen p no 0 stBusy [])
  else match s.roleOf key with
    | none => .next (s.sendOpen p no 0 stRole [])
    | some owner =>
      let secret := nonceBytes (Config.random s.free)
      let nd := nonceBytes (Config.random (s.free + 1))
      let id := s.hst.nextId
      let c := Config.oaep key secret
      let sign := Config.pssSign (ascii "T48TCD" ++ [0] ++ nonce ++ nd ++ leBytes 4 id ++ sha256 c)
      let ss : Session := { id := id, port := p, owner := owner, key := sha256 key, secret := secret, nonces := nonce ++ nd }
      let s := { s with free := s.free + 2, hst := { s.hst with sessions := s.hst.sessions ++ [ss], nextId := id + 1 } }
      .next (s.sendOpen p no id stDone (leBytes 4 id ++ nd ++ c ++ Config.devCert ++ sign))

/-- SESSION_CONFIRM: the session opens when the message verifies with EPOCH 1 and SEQ 0; on an open session a duplicate is answered from
its kept response, and one whose TAG does not verify is counted (R523, R524, R527). -/
def execSessionConfirm (m : Msg) (s : State) : Res :=
  match s.session? m.session with
  | none => .next s
  | some ss =>
    if ss.port ≠ m.port.val then .next s
    else if !ss.verifies m 3 [] 1 then .next (if ss.open_ then s.badTag m else s)
    else if m.epoch ≠ 1 ∨ m.seq ≠ 0 then .next s
    else if ss.open_ then
      match ss.epoch == 1 && decide (ss.expect ≤ 64), ss.kept.find? (fun k => k.1 == 0) with
      | true, some (_, st, p) => .next (s.respond ss 3 1 0 st p)
      | _, _ => .next s
    else
      let s := s.modSession m.session (fun x => { x with open_ := true, expect := 1 })
      let s := s.log 0x4102 [.eth ss.port, .val 4 ss.id, .val 1 ss.role, .val 1 1, .val 1 (Config.code 2)]
      .next (s.finalResponse m.session 3 1 0 stDone [])

/-- SESSION_CONFIRM_TIMEOUT: 5 s without confirmation; the session is abandoned (R524). -/
def execSessionConfirmTimeout (id : Nat) (s : State) : Res :=
  match s.session? id with
  | some ss => if ss.open_ then .next s else .next (s.closeSession id 2)
  | none => .next s

/-- SESSION_CLOSE (R526). -/
def execSessionClose (m : Msg) (s : State) : Res :=
  .next (s.tcd m 0x0004 [] true true (fun _ s => (s, done [])) (fun s => s.closeSession m.session 1))

/-- SESSION_IDLE_TIMEOUT (R526). -/
def execSessionIdleTimeout (id : Nat) (s : State) : Res :=
  match s.session? id with
  | some ss => if ss.open_ then .next (s.closeSession id 2) else .next s
  | none => .next s

/-- REKEY: the last message of its epoch (R528). -/
def execRekey (m : Msg) (s : State) : Res :=
  .next (s.tcd m 0x0005 [] true true
    (fun _ s => (s.modSession m.session (fun x => { x with rekeyed := true }), done [])) id)

/-- KEEPALIVE: a verified message, which keeps the session from its idle timeout (R526, R531). -/
def execKeepalive (m : Msg) (s : State) : Res := .next (s.tcd m 0x0006 [] true true (fun _ s => (s, done [])) id)

/-! Notifications (R530). -/

/-- EVT_SUBSCRIBE: the session receives records of a severity and above; NOTIFY SEQ starts at 0 (R530). -/
def execEvtSubscribe (m : Msg) (sev : Nat) (s : State) : Res :=
  .next (s.tcd m 0x0007 (leBytes 1 sev) true true
    (fun _ s => if 4 < sev then (s, badFormat)
      else (s.modSession m.session (fun x => { x with minSev := some sev, nseq := 0, notes := [], lost := false }), done [])) id)

/-- NOTIFY_ACK: the notification of that SEQ, and those before it, are acknowledged (R530). -/
def execNotifyAck (m : Msg) (ack : BitVec 32) (s : State) : Res :=
  .next (s.tcd m 0x0008 (leBytes 4 ack.toNat) true true
    (fun _ s => (s.modSession m.session (fun x => { x with notes := x.notes.filter (fun n => decide (ack.toNat < n.1)) }),
      done [])) id)

/-- NOTIFY_RESEND_TIMER: every 100 ms the unacknowledged notifications go out again, each at most 10 times (R530). -/
def execNotifyResendTimer (id : Nat) (s : State) : Res :=
  match s.session? id with
  | none => .next s
  | some ss =>
    if !ss.open_ ∨ ss.minSev = none then .next s
    else
      let again := ss.notes.filter (fun n => decide (n.2.2.1 < 10))
      let s := again.foldl (fun s n => s.sendNote ss n) s
      .next (s.modSession id (fun x => { x with notes := again.map (fun n => (n.1, (n.2.1, n.2.2.1 + 1, n.2.2.2))) }))

/-! EVT_READ (R531, R578). -/

/-- An event record by its index, from retained memory or the flash ring. -/
def Evt.record (e : Evt) (i : Nat) : Option EvRec :=
  match e.recs.find? (fun r => r.index.toNat == i) with
  | some r => some r
  | none => e.flash.find? (fun r => r.index.toNat == i)

/-- EVT_READ's effect: the records, or EVT_GONE with the first index that neither place holds (R578). -/
def effEvtRead (first count : Nat) : Eff := fun _ s =>
  if count = 0 ∨ 256 < count then (s, badFormat)
  else
    let is := (List.range count).map (fun i => (first + i) % 2 ^ 32)
    match is.find? (fun i => (s.evt.record i).isNone) with
    | some i => s.refuseCmd 0x7004 [.val 4 i]
    | none => (s, done (is.flatMap (fun i => ((s.evt.record i).map EvRec.bytes).getD [])))

/-- EVT_READ (R531). -/
def execEvtRead (m : Msg) (first count : Nat) (s : State) : Res :=
  .next (s.tcd m 0x0012 (leBytes 4 first ++ leBytes 2 count) true false (effEvtRead first count) id)

/-! STATUS, TOKEN_POST and CELL_RESET (R531). -/

/-- GAL_ID as a word (R470). -/
def Gal.idWord (g : Gal) : Nat := g.fleet.toNat + g.slot.toNat * 2 ^ 6 + g.incarn.toNat * 2 ^ 12 + g.role.toNat * 2 ^ 28

/-- GAL_STATE as a word (R470). -/
def Gal.stateWord (g : Gal) : Nat := galCode g.state + g.acthead.toNat * 2 ^ 3 + g.nlive.toNat * 2 ^ 9

/-- CTX_STAT as a word (R488). -/
def Cell.ctxWord (c : Cell) : Nat := c.ctx.toNat + c.refuse.toNat * 2 ^ 16

/-- SNP_STAT as a word (R516). -/
def Snp.statWord (p : Snp) : Nat :=
  (match p.state with | .idle => 0 | .capture => 1 | .drain => 2 | .upload => 3 | .restore => 4) +
    b2n p.gen0.isSome * 2 ^ 3 + b2n p.gen1.isSome * 2 ^ 4 + b2n p.lock0 * 2 ^ 5 + b2n p.lock1 * 2 ^ 6

/-- STATUS's effect (R531). -/
def effStatus : Eff := fun _ s =>
  (s, done (leBytes 8 s.gal.idWord ++ leBytes 8 s.gal.stateWord ++
    cellIds.flatMap (fun k => leBytes 8 (s.cell k).ctxWord) ++
    leBytes 1 s.arm.state.code ++ leBytes 8 s.snp.statWord))

/-- STATUS (R531). -/
def execStatus (m : Msg) (s : State) : Res := .next (s.tcd m 0x0013 [] true false effStatus id)

/-- TOKEN_POST's effect: the post lands when the command executes (R249, R531). The host is poster 0xFFFF_FFFF (log entry
28). -/
def effTokenPost (cell lcore token count : Nat) : Eff := fun _ s =>
  if 16 ≤ cell ∨ !s.lcoreOk cell lcore ∨ token = 0 ∨ 255 < token ∨ count = 0 ∨ 255 < count then (s, badFormat)
  else (s.postTo cell lcore token count (Config.code 7), done [])

/-- TOKEN_POST (R531). -/
def execTokenPost (m : Msg) (cell lcore token count : Nat) (s : State) : Res :=
  .next (s.tcd m 0x0033 (leBytes 1 cell ++ leBytes 1 lcore ++ leBytes 1 token ++ leBytes 1 count) false false
    (effTokenPost cell lcore token count) id)

end Sys2Proof.Machine
end

