-- ==== Sys2Proof/Machine/Snap.lean ====
section
/-! DEFINITION. Snapshots and restore: step-start records, captures, drains, uploads, receipts, and the checks and effects
of a restore (R166, R238, R405, R490 to R504, R516). -/
namespace Sys2Proof.Machine
open Sys2Proof

/-! Copies of memory. -/

/-- The bytes of a range, numbered from 0. -/
def memSlice (m : Mem) (a n : Nat) : Mem :=
  (m.filter (fun e => decide (a ≤ e.1 ∧ e.1 < a + n))).map (fun e => (e.1 - a, e.2))

/-- A range replaced by bytes numbered from 0. -/
def memPut (m : Mem) (a n : Nat) (src : Mem) : Mem :=
  (src.filter (fun e => decide (e.1 < n))).foldl (fun q e => tabSet 0 q (e.1 + a) e.2)
    (m.filter (fun e => decide (e.1 < a) || decide (a + n ≤ e.1)))

/-- Poison of the sectors of a range cleared. -/
def clearPois (p : PSet) (a n : Nat) : PSet := p.filter (fun x => !decide (a / 64 ≤ x ∧ x < (a + n) / 64))

/-- A range of HBM replaced, through its home slices, by bytes numbered from 0. -/
def State.hbmPut (s : State) (a n : Nat) (src : Mem) : State :=
  let s := s.touchPhys a n true
  { s with hbm := memPut s.hbm a n src, hbmPois := clearPois s.hbmPois a n, mediaErr := dropErrs s.mediaErr a n }

/-- Ranges of HBM read through their home slices. -/
def State.readRanges (s : State) (rs : List (Nat × Nat)) : State := rs.foldl (fun s r => s.touchPhys r.1 r.2 false) s

/-- Bytes padded with zeros, or cut, to a length. -/
def padTo (n : Nat) (b : List Byte) : List Byte := b.take n ++ List.replicate (n - b.length) 0

/-! Records (R492, R493, R497). -/

/-- The ranges of a record: base, length, kind and data offset; the refusal list of this device last (R497). -/
def Cfg.snapRanges (c : Cfg) : List (Nat × (Nat × (Nat × Nat))) :=
  let ref := match c.reflist 0xFF with | some (b, l) => (b, l, 2) | none => (0, 0, 2)
  ((c.sranges ++ [ref]).foldl (fun acc r => (acc.1 ++ [(r.1, r.2.1, r.2.2, acc.2)], acc.2 + alignUp r.2.1 2097152))
    ([], 2097152)).1

/-- CURSOR and CSTEP of the cursor block; without a DLC item there is none, and a record gives CURSOR 0 and its own STEP as CSTEP (R492,
R497; log entry 31). -/
def State.cursorBlock (s : State) : Nat × Nat :=
  match s.cfg.dlc, (s.cell 0).pcore 0 with
  | some (off, _), some n => (leNat ((s.core n).read off 8), leNat ((s.core n).read (off + 8) 4))
  | _, _ => (0, 0)

/-- The table of rendezvous epochs, STEP_END first (R479). -/
def State.epochTable (s : State) : List Byte :=
  let names := (0 :: (s.cfg.rdvdefs.map (fun r => r.1)).filter (fun n => n ≠ 0)).take 64
  padTo 512 (names.flatMap (fun n => leBytes 2 n ++ [0, 0] ++ leBytes 4 (s.rdvAt n).epoch))

/-- SHA-256 of a device-scope section in force; zero where it is absent. -/
def State.secHash (s : State) (kind : Nat) : List Byte :=
  match s.arm.inForce.bind (fun a => a.secs.find? (fun x => x.kind == kind && x.inst == 0xFFFF)) with
  | some x => sha256 x.body
  | none => leBytes 32 0

/-- SERIAL of the armature in force; 0 when none is (R34, R610). -/
def ArmSt.serial (a : ArmSt) : Nat := match a.inForce with | some x => bfld x.header 80 8 | none => 0

/-- The PROG hashes of cells 0 to 15; zero for an absent cell. -/
def State.progHashes (s : State) : List Byte :=
  cellIds.flatMap (fun k => padTo 32 (if (s.cell k).exists_ then (s.cell k).progHash else []))

/-- A record of R497 with its ranges' seals; the time is a free value. -/
def State.snapRecord (s : State) (kind step : Nat) (cur : Nat × Nat) (seals : List Nat) : State × List Byte :=
  let (t, s) := s.timeNow
  let rs := s.cfg.snapRanges
  let head := ascii "SNAP" ++ leBytes 2 0x0100 ++ leBytes 1 kind ++ leBytes 1 rs.length ++ leBytes 8 step ++ leBytes 8 cur.1 ++
    leBytes 4 (if s.cfg.dlc.isSome then cur.2 else step) ++ leBytes 1 s.gal.fleet.toNat ++ leBytes 1 s.gal.slot.toNat ++ leBytes 2 s.gal.incarn.toNat ++
    s.secHash 0x0001 ++ s.progHashes ++ padTo 32 s.mgmt.idHash ++ leBytes 8 s.arm.serial ++ leBytes 8 t.toNat ++ leBytes 16 0 ++
    s.epochTable
  let body := rs.zipIdx.flatMap (fun (r, i) => leBytes 8 r.1 ++ leBytes 8 r.2.1 ++ leBytes 1 r.2.2.1 ++ leBytes 7 0 ++
    leBytes 8 r.2.2.2 ++ leBytes 8 (seals.getD i 0))
  (s, head ++ body ++ sha256 (head ++ body))

/-- The seal of some bytes in a mode (R234). -/
def Cfg.sealOf (c : Cfg) (mode : Nat) (bs : List PByte) : Nat :=
  sealWord (sealH c.key (subSeals c.key mode bs)) mode (anyPois (sealBytes mode bs))

/-- The seal of a range: mode LINES for kind 0, mode DATA otherwise (R234, R497). -/
def State.rangeSeal (s : State) (a n kind : Nat) : Nat := s.cfg.sealOf (if kind = 0 then 1 else 0) (s.hread a n)

/-- The step-start record of a new step written to SNAPBUF, and sent to the partner in order with the delta records (R493;
log entry 25). -/
def State.stepStart (s : State) (step : Nat) : State :=
  if !s.cfg.snapSec then s
  else
    let (s, r) := s.snapRecord 0 step s.cursorBlock []
    let s := s.hbmPut s.cfg.snapbuf.1 65536 ((r.zipIdx.map (fun (b, i) => (i, b))).filter (fun e => decide (e.2 ≠ 0)))
    if s.cfg.expPartner.isSome then
      s.expPush { kind := 5, words := (List.range (ceilDiv r.length 8)).map (fun i => (i, BitVec.ofNat 64 (bfld r (8 * i) 8))) } step
    else s

/-! Capture (R498, R513). -/

/-- A capture is due at the STEP_END that begins a step (R498). -/
def State.captureDue (s : State) (step : Nat) : Bool :=
  s.cfg.snapSec && (s.snp.take || decide ((step - 1) % s.cfg.interval = 0 ∧ 0 < step))

/-- Why a capture point is skipped: 1 a drain runs, 2 both generations are locked (R499). -/
def Snp.skip (p : Snp) : Option Nat :=
  if p.drainGen.isSome || p.pendingStore then some 1 else if p.lock0 && p.lock1 then some 2 else none

/-- The engine state that stands once a capture, drain or restore ends. -/
def Snp.rest (p : Snp) : SnpSt :=
  if p.drainGen.isSome || p.pendingStore then .drain else if p.upGen.isSome then .upload else .idle

/-- The cells released from a capture. -/
def State.endCapture (s : State) : State :=
  let s := s.holdAll (fun h => { h with capture := false })
  { s with snp := { s.snp with state := s.snp.rest } }

/-- At a capture point the cells are held and the capture begins, or the point is skipped (R498, R499). -/
def State.capturePoint (s : State) (step : Nat) : State :=
  if !s.captureDue step then s
  else
    let s := { s with snp := { s.snp with take := false } }
    match s.snp.skip with
    | some r => (s.log 0x8302 [.val 4 step, .val 1 r]).endCapture
    | none =>
      let s := s.holdAll (fun h => { h with capture := true })
      { s with snp := { s.snp with state := .capture, drainStep := step } }

/-! Step receipts (R229, R238). -/

/-- The signed part of a receipt (R229, R238). -/
def State.receiptBytes (s : State) (step : Nat) (seals : List Nat) (rs : List (Nat × (Nat × (Nat × Nat)))) (flags t : Nat) :
    List Byte :=
  let meas := match s.arm.inForce with | some a => sha256 a.header | none => leBytes 32 0
  let cnt := s.snp.rcCnt
  ascii "RCPT" ++ leBytes 2 0x0100 ++ leBytes 2 rs.length ++ leBytes 8 step ++ leBytes 8 s.cursorBlock.1 ++
    leBytes 2 s.gal.fleet.toNat ++ leBytes 2 s.gal.slot.toNat ++ leBytes 2 s.gal.incarn.toNat ++ [0, 0] ++ meas ++
    padTo 32 s.mgmt.idHash ++ leBytes 4 flags ++ leBytes 4 0 ++ leBytes 8 t ++
    (List.range 6).flatMap (fun i => leBytes 4 (cnt.getD i 0)) ++ leBytes 24 0 ++
    rs.zipIdx.flatMap (fun (r, i) => leBytes 8 r.1 ++ leBytes 8 r.2.1 ++ leBytes 2 i ++ leBytes 2 (if r.2.2.1 = 0 then 1 else 0) ++
      leBytes 4 0 ++ leBytes 8 (seals.getD i 0))

/-- A receipt kept as the newest, and the counts since the last one at 0 (R229, R238). -/
def Snp.addReceipt (p : Snp) (b : List Byte) : Snp := { p with receipts := b :: p.receipts, rcCnt := [0, 0, 0, 0, 0, 0], rcFlags := 0 }

/-- The step receipt of a snapshot, with bit 7 while a cell points heightened, and its event; the counters, the flags and the step-taint
bits start again (R229, R230, R238, R240, R305). -/
def State.takeReceipt (s : State) (step : Nat) (seals : List Nat) : State :=
  let ks := cellIds.filter (fun k => (s.cell k).exists_)
  let flags := b2n (ks.any (fun k => (s.cell k).taint)) + 2 * b2n (ks.any (fun k => (s.cell k).perTensor)) +
    128 * b2n (ks.any (fun k => decide ((s.cell k).heighten ≠ 0))) ||| s.snp.rcFlags
  let rs := s.cfg.snapRanges
  let (t, s) := s.timeNow
  let b := s.receiptBytes step seals rs flags t.toNat
  let s := { s with snp := s.snp.addReceipt (b ++ Config.pssSign b) }.log 0x1404 [.val 4 step, .val 4 rs.length]
  ks.foldl (fun s k => s.modCell k (fun c => { c with taint := false, perTensor := false })) s

/-! Drains (R499, R500). -/

/-- The generation that a drain writes: the older one where it is not locked (R499). -/
def Snp.pick (p : Snp) : Nat := if (if p.older = 0 then p.lock0 else p.lock1) then 1 - p.older else p.older

/-- The state with generation g set. -/
def Snp.setGen (p : Snp) (g : Nat) (v : Option (Nat × (List Byte × Mem))) : Snp :=
  if g = 0 then { p with gen0 := v } else { p with gen1 := v }

/-- Generation g. -/
def Snp.gen (p : Snp) (g : Nat) : Option (Nat × (List Byte × Mem)) := if g = 0 then p.gen0 else p.gen1

/-- The state with the lock of generation g set or cleared. -/
def Snp.setLock (p : Snp) (g : Nat) (b : Bool) : Snp := if g = 0 then { p with lock0 := b } else { p with lock1 := b }

/-- The ranges of a record: base, length, kind, data offset, seal. -/
def recordRanges (r : List Byte) : List (Nat × (Nat × (Nat × (Nat × Nat)))) :=
  (List.range (bfld r 7 1)).map (fun i =>
    let o := 1152 + 40 * i
    (bfld r o 8, bfld r (o + 8) 8, bfld r (o + 16) 1, bfld r (o + 24) 8, bfld r (o + 32) 8))

/-- The requester queue pair of a STORE target, ready on a port that is up (R500, R540). -/
def State.storeQp? (s : State) (target : Nat) : Option Qp :=
  s.hst.qps.find? (fun q => q.store == some target && q.state == .rts && (s.eth q.port).up)

/-- A WRITE of the requester for a STORE target: remote base VA plus an offset, the remote R_Key, the length and the bytes (R540). -/
def Cfg.storeWrite (c : Cfg) (target off : Nat) (b : List Byte) : List Byte :=
  match c.stores.find? (fun x => x.1 == target) with
  | some (_, _, key, va, _) => leBytes 8 (va + off) ++ leBytes 4 key ++ leBytes 4 b.length ++ b
  | none => []

/-- The parts of a store object in the order in which they are written: each range from its data offset, and the record last
(R498, R499). -/
def objectParts (r : List Byte) (m : Mem) : List (Nat × List Byte) :=
  (recordRanges r).flatMap (fun x => (List.range (ceilDiv x.2.1 2097152)).map (fun i =>
    (x.2.2.2.1 + 2097152 * i, memRead m (x.2.2.2.1 + 2097152 * i) (min 2097152 (x.2.1 - 2097152 * i))))) ++ [(2097152 - 65536, r)]

/-- One WRITE of the requester: it takes the next PSN and waits for its acknowledgement; `origin` is 0 for this device's own and 1 + the flow
of the device that forwarded it (R536, R540). -/
def State.sendWrite (s : State) (q : Qp) (origin : Nat) (b : List Byte) : State :=
  (s.modQp q.qpn (fun x => { x with psn := (x.psn + 1) % 2 ^ 24, out := x.out ++ [(x.psn, origin, b)] })).sendRoce q.port [(q.qpn, 5, b)]

/-- An object written by the requester for a STORE target, from an offset of the target's object (R499, R540). -/
def State.writeStore (s : State) (q : Qp) (origin target off : Nat) (ps : List (Nat × List Byte)) : State :=
  ps.foldl (fun s p => s.sendWrite q origin (s.cfg.storeWrite target (off + p.1) p.2)) s

/-- The pieces of an object that travel one a packet: offset and bytes (R448). -/
def storePieces (off : Nat) (ps : List (Nat × List Byte)) : List (Nat × List Byte) :=
  ps.flatMap (fun p => (List.range (ceilDiv p.2.length 4096)).map (fun i => (off + p.1 + 4096 * i, (p.2.drop (4096 * i)).take 4096)))

/-- An object forwarded to the acting head, which writes it to its own target of the same number at this device's offset and reports each
part as written (R500, R540; log entry 21). -/
def State.forwardStore (s : State) (target off : Nat) (ps : List (Nat × List Byte)) : State :=
  let xs := storePieces off ps
  let s := { s with snp := { s.snp with upLeft := xs.length } }
  xs.foldl (fun s x => s.sendReq (flowKey s.gal.fleet.toNat s.gal.acthead.toNat)
    { ptype := 0x0D, fields := [2, target, 0, 0, 0, x.2.length, 0, x.2.length], addr := x.1, data := x.2 }) s

/-- WRITEs of this device's own are outstanding. -/
def Hst.writing (h : Hst) : Bool := h.qps.any (fun q => q.out.any (fun o => o.2.1 == 0))

/-- The ranges of a snapshot as far as its first poisoned sector, which is where the copy ends (R498). -/
def State.beforePois (s : State) : List (Nat × (Nat × (Nat × Nat))) → List (Nat × (Nat × (Nat × Nat)))
  | [] => []
  | r :: rs =>
    match s.hbmPois.find? (fun x => decide (r.1 / 64 ≤ x ∧ 64 * x < r.1 + r.2.1)) with
    | some x => [(r.1, 64 * x - r.1, r.2.2)]
    | none => r :: s.beforePois rs

/-- The ranges of a snapshot copied into the snapshot buffer (R498). -/
def State.copyRanges (s : State) (sb : Nat) (rs : List (Nat × (Nat × (Nat × Nat)))) : State :=
  rs.foldl (fun s r => s.hbmPut (sb + r.2.2.2) r.2.1 (memSlice s.hbm r.1 r.2.1)) s

/-- The upload under way has failed: SNAP_FAIL cause 2 with its generation, which is unlocked (R500, R540). -/
def State.uploadFailed (s : State) : State :=
  match s.snp.upGen with
  | none => s
  | some g =>
    let s := s.log 0x8303 [.val 4 ((s.snp.gen g).elim 0 (·.1)), .val 1 g, .val 1 2]
    let p := { s.snp.setLock g false with upGen := none, upLeft := 0 }
    { s with snp := { p with state := if p.state = .upload then p.rest else p.state } }

/-- A store drain or an upload ends in failure: SNAP_FAIL cause 2 (R499, R540). -/
def State.storeFailed (s : State) : State :=
  if s.snp.pendingStore then
    let s := s.log 0x8303 [.val 4 s.snp.drainStep, .val 1 0, .val 1 2]
    let p := { s.snp with pendingStore := false }
    { s with snp := { p with state := if p.state = .drain then p.rest else p.state } }
  else s.uploadFailed

/-- The WRITEs of a requester that are outstanding fail: this device's own end the drain or the upload, and a device that forwarded one is
told (R499, R500, R540; log entry 21). -/
def State.requesterFails (s : State) (q : Qp) : State :=
  if q.out.isEmpty then s
  else
    let s := s.modQp q.qpn (fun x => { x with out := [], tries := 0 })
    ((q.out.map (fun o => o.2.1)).eraseDups).foldl (fun s o =>
      if o = 0 then s.storeFailed else s.sendTcdf (o - 1) 3 (q.store.getD 0) 0 0 0 []) s

/-- The host port that a STORE target names is up (R500). -/
def State.hostUp (s : State) (target : Nat) : Bool :=
  match s.cfg.stores.find? (fun x => x.1 == target) with
  | some x => (s.eth x.2.1).up
  | none => false

/-- The drain that follows a capture: to a generation of the module's flash, or to the store, through the requester queue pair; without a
ready one it fails at once (R498, R499, R540). -/
def State.startDrain (s : State) (rec_ : List Byte) : State :=
  let g := s.snp.pick
  let p := { s.snp with drainRec := rec_, pendingStore := s.cfg.target == 1, drainGen := if s.cfg.target = 1 then none else some g }
  let (t, off) := s.cfg.storetgt.getD (0, 0)
  if s.cfg.target = 1 then
    let s := { s with snp := p }
    match s.storeQp? t with
    | some q =>
      let s := s.touchPhys s.cfg.snapbuf.1 s.cfg.snapbuf.2 false
      s.writeStore q 0 t off (objectParts rec_ (memSlice s.hbm s.cfg.snapbuf.1 s.cfg.snapbuf.2))
    | none => s.storeFailed
  else { s with snp := p.setGen g none }

/-- The upload of a generation begins: through the device's own host port where that is up, which needs a ready queue pair, and otherwise
through the acting head; where there is neither, it fails (R500, R540). -/
def State.startUpload (s : State) (g : Nat) : State :=
  let (t, off) := s.cfg.storetgt.getD (0, 0)
  match s.snp.gen g, s.hostUp t, s.storeQp? t with
  | some (_, rec_, m), true, some q => s.writeStore q 0 t off (objectParts rec_ m)
  | some (_, rec_, m), false, _ => if s.isHead then s.uploadFailed else s.forwardStore t off (objectParts rec_ m)
  | _, _, _ => s.uploadFailed

/-- SNAP_CAPTURE_DONE: the ranges are copied into SNAPBUF and sealed, the record is written, the cells go on, and the drain
begins; a poisoned sector ends the capture there with SNAP_FAIL cause 3 (R498, R499). Mirror lines whose source is not asked again are
stale no more (R415). -/
def execSnapCaptureDone (us : Nat) (s : State) : Res :=
  if s.snp.state ≠ .capture then .next s
  else
    let step := s.snp.drainStep
    let rs := s.cfg.snapRanges
    let sb := s.cfg.snapbuf.1
    let s := s.readRanges (rs.map (fun r => (r.1, r.2.1)))
    let bad := rs.any (fun r => anyPois (s.hread r.1 r.2.1))
    if bad then .next (((s.copyRanges sb (s.beforePois rs)).log 0x8303 [.val 4 step, .val 1 s.snp.pick, .val 1 3]).endCapture)
    else
      let seals := rs.map (fun r => s.rangeSeal r.1 r.2.1 r.2.2.1)
      let s := s.copyRanges sb rs
      let (s, rec_) := s.snapRecord 1 step s.cursorBlock seals
      let s := (s.touchPhys (sb + 2097152 - 65536) rec_.length true).hwrite (sb + 2097152 - 65536) (rec_.map (fun b => (b, false)))
      let s := if s.cfg.receipt then s.takeReceipt step seals else s
      let s := (s.startDrain rec_).endStale
      .next ((s.log 0x8301 [.val 4 step, .val 4 us]).endCapture)

/-- Bytes of a generation: its ranges, and its record. -/
def recBytes (r : List Byte) : Nat := r.length + ((recordRanges r).map (fun x => x.2.1)).foldl (· + ·) 0

/-- Flash bytes counted; FLASH_WEAR as they pass 190 PB and 200 PB (R596). -/
def State.flashWritten (s : State) (n : Nat) : State :=
  let old := s.mgmt.wornAt
  let s := { s with mgmt := { s.mgmt with wornAt := old + n } }
  [190, 200].foldl (fun s pb =>
    if old < pb * 10 ^ 15 ∧ pb * 10 ^ 15 ≤ old + n then s.log 0x7507 [.val 4 pb] else s) s

/-- SNAP_FLASH_DRAIN_DONE: the generation becomes valid with its record, or SNAP_FAIL cause 1 leaves it invalid; with target
2 every KFULL-th generation is then uploaded and locked until the upload ends (R499, R500). -/
def execSnapFlashDrainDone (ok : Bool) (s : State) : Res :=
  match s.snp.drainGen with
  | none => .next s
  | some g =>
    let step := s.snp.drainStep
    if ok then
      let s := s.touchPhys s.cfg.snapbuf.1 s.cfg.snapbuf.2 false
      let data := memSlice s.hbm s.cfg.snapbuf.1 s.cfg.snapbuf.2
      let s := s.flashWritten (recBytes s.snp.drainRec)
      let p := s.snp.setGen g (some (step, s.snp.drainRec, data.filter (fun e => decide (2097152 ≤ e.1))))
      let p := { p with drainGen := none, older := 1 - g, snapCnt := p.snapCnt + 1 }
      let up := s.cfg.target == 2 && decide (p.snapCnt % s.cfg.kfull = 0) && p.upGen.isNone
      let p := if up then { p.setLock g true with upGen := some g } else p
      let s := { s with snp := { p with state := if p.state = .drain then p.rest else p.state } }
      .next (if up then s.startUpload g else s)
    else
      let s := s.log 0x8303 [.val 4 step, .val 1 g, .val 1 1]
      let p := { s.snp with drainGen := none }
      .next { s with snp := { p with state := if p.state = .drain then p.rest else p.state } }

/-- SNAP_STORE_DRAIN_DONE: the object is complete once every WRITE of it is acknowledged; on a write error, SNAP_FAIL cause 2 (R499,
R540). -/
def execSnapStoreDrainDone (ok : Bool) (s : State) : Res :=
  if !s.snp.pendingStore then .next s
  else if !ok then .next s.storeFailed
  else if s.hst.writing then .next s
  else
    let p := { s.snp with pendingStore := false }
    .next { s with snp := { p with state := if p.state = .drain then p.rest else p.state } }

/-- SNAP_UPLOAD_DONE: the upload of a generation ends once every part of it is written, and the generation is unlocked (R500, R540). -/
def execSnapUploadDone (s : State) : Res :=
  match s.snp.upGen with
  | none => .next s
  | some g =>
    match s.snp.gen g with
    | none => .next s.uploadFailed
    | some (step, rec_, _) =>
      if s.hst.writing ∨ s.snp.upLeft ≠ 0 then .next s
      else
        let s := s.log 0x8304 [.val 4 step, .val 4 (recBytes rec_)]
        let p := { s.snp.setLock g false with upGen := none }
        .next { s with snp := { p with state := if p.state = .upload then p.rest else p.state } }

/-- SNP_CTRL.TAKE: a capture at the next STEP_END (R498, R516). -/
def execSnpTake (s : State) : Res := .next (if s.cfg.snapSec then { s with snp := { s.snp with take := true } } else s)

/-- SNP_CTRL.ABORTUP: an upload ends and its generation is unlocked (R500, R516). -/
def State.abortUpload (s : State) : State :=
  match s.snp.upGen with
  | none => s
  | some g =>
    let p := { s.snp.setLock g false with upGen := none, upLeft := 0 }
    { s with snp := { p with state := if p.state = .upload then p.rest else p.state },
             hst := { s.hst with qps := s.hst.qps.map (fun q => { q with out := q.out.filter (fun o => o.2.1 ≠ 0) }) } }

/-- SNP_ABORTUP (R500). -/
def execSnpAbortup (s : State) : Res := .next s.abortUpload

/-! The stamp check (R166, R405). -/

/-- Lines of a range as bytes. -/
def memLines (m : Mem) (a n : Nat) : List (Nat × List Byte) :=
  (List.range (n / 256)).map (fun i => (a + 256 * i, memRead m (a + 256 * i) 256))

/-- The key of a line: STAMP, then MPHASE. -/
def lineKey (l : List Byte) : Nat := bfld l 0 4 * 4 + bfld l 14 1 % 4

/-- A line's CRC is valid. -/
def lineCrcOk (l : List Byte) : Bool := decide (bfld l 4 4 = lineCrc l)

/-- Entries of a refusal list: job virtual address and key. -/
def refEntries (b : List Byte) : List (Nat × Nat) :=
  (List.range (b.length / 16)).map (fun i => (bfld b (16 * i) 8, bfld b (16 * i + 8) 4 * 4 + bfld b (16 * i + 12) 1 % 4))

/-- A job virtual address is mapped to a local line by the tables of some cell. -/
def State.mapsTo (s : State) (va line : Nat) : Bool :=
  cellIds.any (fun k => match s.walk (s.cell k).root va with
    | .ok e => decide ((e.frame + va % e.size) / 256 = line / 256)
    | .error _ => false)

/-- The walks by which the entries of a refusal list find their lines, through the home slices (R374, R405). -/
def State.mapWalks (s : State) (es : List (Nat × Nat)) : State :=
  es.foldl (fun s e => (cellIds.filter (fun k => (s.cell k).exists_)).foldl (fun s k => (s.walkThrough (s.cell k).root e.1).1) s) s

/-- The first line of a shard that the refusal list does not explain, with its key and K_max; a line whose CRC is invalid is corrupt and
does not count (R405). -/
def State.stampMixed (s : State) (ls : List (Nat × List Byte)) (es : List (Nat × Nat)) : Option (Nat × (Nat × Nat)) :=
  let good := ls.filter (fun l => lineCrcOk l.2)
  let kmax := (good.map (fun l => lineKey l.2)).foldl max 0
  (good.find? (fun l => decide (lineKey l.2 < kmax) &&
    !es.any (fun e => decide (lineKey l.2 < e.2 ∧ e.2 ≤ kmax) && s.mapsTo e.1 l.1))).map (fun l => (l.1, lineKey l.2, kmax))

/-! The checks of a restore (R501, R502, R510). -/

/-- A restore may begin: every cell is PREEMPTED, newly reset, or under a recovery (R501). -/
def State.mayRestore (s : State) : Bool :=
  s.snp.recovering || (cellIds.filter (fun k => (s.cell k).exists_)).all (fun k =>
    decide ((s.cell k).ctx = 3) || (s.cell k).reset)

/-- A record is present and well-formed, of the KIND its source calls for (check 1). -/
def recordOk (r : List Byte) (kind : Nat) : Bool :=
  let n := 1152 + 40 * bfld r 7 1
  decide (bsub r 0 4 = ascii "SNAP" ∧ bfld r 4 2 = 0x0100 ∧ bfld r 6 1 = kind ∧ n + 32 ≤ r.length) &&
    decide (bsub r n 32 = sha256 (r.take n))

/-- Fleet, slot, incarnation and writer match this device (check 2); `anyKey` for a store object or a mirror. -/
def State.recordMine (s : State) (r : List Byte) (anyKey : Bool) : Bool :=
  decide (bfld r 28 1 = s.gal.fleet.toNat ∧ bfld r 29 1 = s.gal.slot.toNat ∧ bfld r 30 2 ≤ s.gal.incarn.toNat) &&
    (anyKey || decide (bsub r 576 32 = padTo 32 s.mgmt.idHash))

/-- The CELLMAP and PROG hashes equal those in force (check 3). -/
def State.recordProg (s : State) (r : List Byte) : Bool :=
  decide (bsub r 32 32 = s.secHash 0x0001 ∧ bsub r 64 512 = s.progHashes)

/-- What a restore finds: the state after copying, and the event and its data where a check fails. -/
abbrev Checked := State × Option (Nat × List EvF)

/-- RESTORE_FAIL with its source and reason. -/
def restoreFail (source reason : Nat) : Option (Nat × List EvF) := some (0x8203, [.val 1 source, .val 1 reason])

/-- The line that makes a record skewed, and its STAMP (check 4): a STAMP that is not below STEP. -/
def skewLine (ls : List (Nat × List Byte)) (step : Nat) : Option (Nat × Nat) :=
  (ls.find? (fun l => decide (step % 2 ^ 32 ≤ bfld l.2 0 4))).map (fun l => (l.1, bfld l.2 0 4))

/-- The ranges of a record written from the object that was read; a restore from HBM finds them in place. -/
def State.putRestored (s : State) (data : Option Mem) (rs : List (Nat × (Nat × (Nat × (Nat × Nat))))) : State :=
  match data with
  | none => s
  | some d => rs.foldl (fun s x => s.hbmPut x.1 x.2.1 (memSlice d x.2.2.2.1 x.2.1)) s

/-- The seals that the partner has sent with its mirror. They lie 32 KiB into SNAPBUF: a count, then base and length of each mirror region
at the partner, and its seal (R510; log entry 30). -/
def State.fillSeals (s : State) : List (Nat × (Nat × Nat)) :=
  let a := s.cfg.snapbuf.1 + 32768
  (List.range (min 16 (bfld (s.hbmRead a 8) 0 8))).map (fun i =>
    let b := s.hbmRead (a + 8 + 24 * i) 24
    (bfld b 0 8, bfld b 8 8, bfld b 16 8))

/-- The copy of a mirror region on a fill: the lines that it was written to (R509, R510). -/
def State.copyOf (s : State) (base len : Nat) : List PByte :=
  (List.range (len / 256)).flatMap (fun i => match s.cfg.unmirror (base + 256 * i) with | some a => s.hread a 256 | none => [])

/-- The checks of R501 on a record and, where the data is copied, on its data; the sources are 0 HBM, 1 flash, 2 store and
3 a mirror received under R510, which reports as HBM. `named` is 1 + the STEP of the command, or 0. The seals of a mirror are those that
the partner has taken over it (R510; log entry 30). -/
def State.restoreCheck (s : State) (src named : Nat) (r : List Byte) (data : Option Mem) : Checked :=
  let rsrc := if src = 3 then 0 else src
  let kind := if src = 0 ∨ src = 3 then 0 else 1
  let step := bfld r 8 8
  let rs := recordRanges r
  let lines (m : Mem) (x : Nat × (Nat × (Nat × (Nat × Nat)))) : List (Nat × List Byte) :=
    match data with
    | none => memLines m x.1 x.2.1
    | some d => (memLines d x.2.2.2.1 x.2.1).map (fun l => (l.1 - x.2.2.2.1 + x.1, l.2))
  if !recordOk r kind then (s, restoreFail rsrc 1)
  else if !s.recordMine r (decide (2 ≤ src)) then (s, restoreFail rsrc 2)
  else if !s.recordProg r then (s, restoreFail rsrc 3)
  else
    let s := if data.isNone then s.readRanges (rs.map (fun x => (x.1, x.2.1))) else s
    let skew := (rs.filter (fun x => x.2.2.1 == 0)).findSome? (fun x => skewLine (lines s.hbm x) step)
    let cs := decide (bfld r 24 4 ≠ step % 2 ^ 32)
    let other := decide (named ≠ 0 ∧ named ≠ step + 1)
    if cs || other || skew.isSome then
      (s, some (0x8204, [.val 4 step, .val 4 (bfld r 24 4), .val 8 (skew.getD (0, 0)).1, .val 4 (skew.getD (0, 0)).2]))
    else
      let s := (s.putRestored data rs).readRanges (rs.map (fun x => (x.1, x.2.1)))
      let sealBad := data.isSome && rs.any (fun x =>
        let v := s.rangeSeal x.1 x.2.1 x.2.2.1
        decide (v ≠ x.2.2.2.2) || bit v 63) || (src == 3 && s.fillSeals.any (fun x =>
          let v := s.cfg.sealOf 1 (s.copyOf x.1 x.2.1)
          decide (v ≠ x.2.2) || bit v 63))
      if sealBad then (s, restoreFail rsrc 4)
      else
        let es := (rs.filter (fun x => x.2.2.1 == 2)).flatMap (fun x => refEntries (s.hbmRead x.1 x.2.1))
        let s := s.mapWalks es
        let mixed := ((rs.filter (fun x => x.2.2.1 == 0)).zipIdx).findSome? (fun (x, i) =>
          (s.stampMixed (memLines s.hbm x.1 x.2.1) es).map (fun m => (i, m)))
        let corrupt := (rs.filter (fun x => x.2.2.1 == 0)).flatMap (fun x =>
          ((memLines s.hbm x.1 x.2.1).filter (fun l => !lineCrcOk l.2)).map Prod.fst)
        let s := { s with snp := { s.snp with corrupt := corrupt } }
        match mixed with
        | some (i, m) => (s, some (0x8201, [.val 4 i, .val 8 m.1, .val 4 m.2.1, .val 4 m.2.2]))
        | none => (s, none)

/-! The effects of a restore (R503). -/

/-- The rendezvous epochs of a record in force, every open occurrence discarded (R462, R503). -/
def State.setEpochs (s : State) (b : List Byte) : State :=
  let names := (0 :: (s.cfg.rdvdefs.map (fun r => r.1)).filter (fun n => n ≠ 0)).take 64
  let shut := (s.gal.rdvs.map (fun (e : Nat × Rdv) => (e.1, ({ epoch := e.2.epoch } : Rdv)))).filter
    (fun (e : Nat × Rdv) => decide (e.2 ≠ {}))
  let s := { s with gal := { s.gal with rdvs := shut } }
  (names.zipIdx).foldl (fun s (n, i) =>
    let ep := bfld b (8 * i + 4) 4
    if bfld b (8 * i) 2 = n ∧ (i = 0 ∨ n ≠ 0) then s.modRdv n (fun _ => { epoch := ep }) else s) s

/-- Every gradient window cycle, slotted-add record and held contribution emptied (R503). -/
def State.emptyAdds (s : State) : State :=
  { s with gal := { s.gal with adds := [] },
           exp := { s.exp with wins := [], normGot := [], normHave := [], normWait := false, greDone := 0, greFb := false } }

/-- A cell at a step number. -/
def Cell.atStep (c : Cell) (step : Nat) : Cell := { c with step := BitVec.ofNat 64 step }

/-- A cell after a restore: no image, held until the fleet resumes (R503). -/
def Cell.restored (c : Cell) : Cell := { c with img := none, holds := { c.holds with restore := true } }

/-- The data loader's cursor of a restored snapshot (R503). -/
def State.restoreCursor (s : State) (b : List Byte) : State :=
  match s.cfg.dlc, (s.cell 0).pcore 0 with
  | some (off, _), some n => s.modCore n (fun co => co.write off (b ++ leBytes 4 0) false)
  | _, _ => s

/-- No commit rendezvous has been passed in the step (R505). -/
def State.clearCommit (s : State) : State := { s with gal := { s.gal with commitSeen := false } }

/-- A restore that passed its checks: steps, epochs, cursor block, class C resets, windows, and the cells held at tick 0
(R503). -/
def State.restoreApply (s : State) (src : Nat) (r : List Byte) : State :=
  let step := bfld r 8 8
  let ks := cellIds.filter (fun k => (s.cell k).exists_)
  let s := ks.foldl (fun s k => s.modCell k (fun c => c.atStep step)) s
  let s := (s.setEpochs (bsub r 640 512)).restoreCursor (bsub r 16 12)
  let s := ks.foldl (fun s k => (s.commandReset k).modCell k Cell.restored) s
  let s := ((ks.foldl State.reclockCell s).emptyAdds).clearCommit
  s.log 0x8202 [.val 1 (if src = 3 then 0 else src), .val 4 step]

end Sys2Proof.Machine
end

