-- ==== Sys2Proof/Machine/Recover.lean ====
section
/-! DEFINITION. Losing a slot: the live set, the decision of the acting head, fills, restores and the resume of the fleet
(R466, R467, R500 to R514). What the head and the devices tell each other beyond the packets of R449 travels as
acknowledgements and forwarded control datagrams (log entry 30). -/
namespace Sys2Proof.Machine
open Sys2Proof

/-! Routes of a fill (R453, R507). -/

/-- The coordinates of a number in a box, the first dimension fastest (R444). -/
def boxCoord (b : Nat × (Nat × Nat)) (n : Nat) : Nat × (Nat × Nat) := (n % b.1, n / b.1 % b.2.1, n / (b.1 * b.2.1))

/-- The gallery coordinate of a device, by its flow: fleet and slot (R444). -/
def Cfg.coord (c : Cfg) (f : Nat) : Nat × (Nat × Nat) :=
  let x := boxCoord c.box (f % 64)
  let t := boxCoord c.tiles (f / 64)
  (t.1 * c.box.1 + x.1, t.2.1 * c.box.2.1 + x.2.1, t.2.2 * c.box.2.2 + x.2.2)

/-- The size of the gallery's torus in each dimension (R444). -/
def Cfg.torus (c : Cfg) : Nat × (Nat × Nat) := (c.box.1 * c.tiles.1, c.box.2.1 * c.tiles.2.1, c.box.2.2 * c.tiles.2.2)

/-- The devices of the gallery (R444). -/
def Cfg.places (c : Cfg) : List Nat :=
  (List.range (c.tiles.1 * (c.tiles.2.1 * c.tiles.2.2))).flatMap (fun f => (List.range c.nslots).map (flowKey f))

/-- The coordinate one step away in the direction of a torus role: 1 X+, 2 X-, 3 Y+, 4 Y-, 5 Z+, 6 Z- (R440). -/
def Cfg.stepTo (c : Cfg) (a : Nat × (Nat × Nat)) (role : Nat) : Nat × (Nat × Nat) :=
  let n := c.torus
  let mv (k x : Nat) : Nat := if role % 2 = 1 then (x + 1) % k else (x + k - 1) % k
  if role ≤ 2 then (mv n.1 a.1, a.2) else if role ≤ 4 then (a.1, mv n.2.1 a.2.1, a.2.2) else (a.1, a.2.1, mv n.2.2 a.2.2)

/-- The torus role that one step in a direction of a ring takes: + where the way up is the shorter or a tie. -/
def ringRole (n frm dst dim : Nat) : Option Nat :=
  let up := (dst + n - frm) % n
  if up = 0 then none else some (if up * 2 ≤ n then 1 + 2 * dim else 2 + 2 * dim)

/-- The role of the port that leads from a device toward another without passing through a dead one: in dimension order, then the long way
round a ring (R452, R453; log entry 30). -/
def Cfg.toward (c : Cfg) (frm dst dead : Nat) : Option Nat :=
  let a := c.coord frm
  let b := c.coord dst
  let n := c.torus
  let rs := (ringRole n.1 a.1 b.1 0).toList ++ (ringRole n.2.1 a.2.1 b.2.1 1).toList ++ (ringRole n.2.2 a.2.2 b.2.2 2).toList
  (rs ++ rs.map (fun r => if r % 2 = 1 then r + 1 else r - 1)).find? (fun r => decide (c.stepTo a r ≠ c.coord dead))

/-- The torus neighbours of a device, in its fleet and in the fleets beside it (R444, R453). -/
def Cfg.neighbours (c : Cfg) (f : Nat) : List Nat :=
  let near := (List.range 6).map (fun i => c.stepTo (c.coord f) (i + 1))
  c.places.filter (fun g => decide (g ≠ f) && near.contains (c.coord g))

/-- The port of this device with a role; the ports of the gallery are taken to be wired alike (log entry 30). -/
def State.portOf (s : State) (role : Nat) : Nat := (findIdx? (fun i => (s.port i).role == role) (List.range 8)).getD 0

/-- The new route entries for a slot that a spare takes: at each anchor the AUX port, at each neighbour the port toward the
first anchor (R453). -/
def State.fillRoutes (s : State) (slot : Nat) (sp : SpareCfg) : List (Nat × Nat) :=
  let key := flowKey s.gal.fleet.toNat
  let anchors := (key sp.a0, 128 + sp.p0) :: (if sp.a1 = 255 then [] else [(key sp.a1, 128 + sp.p1)])
  anchors ++ ((s.cfg.neighbours (key slot)).filter (fun i => !anchors.any (fun a => a.1 == i))).filterMap (fun i =>
    (s.cfg.toward i (key sp.a0) (key slot)).map (fun r => (i, 128 + s.portOf r)))

/-- ROUTESET sent for a fill; an entry of this device is set at once (R453, R507). -/
def State.sendRoutes (s : State) (slot : Nat) (sp : SpareCfg) : State :=
  let fl := s.gal.fleet.toNat
  (s.fillRoutes slot sp).foldl (fun s (i, e) =>
    if i = s.ownKey then s.setRoute (flowKey fl slot) e else s.sendCtl i 0x27 [fl, slot, e]) s

/-! Decisions of the acting head (R505, R507, R512, R513). -/

/-- Spares that hold no slot and are in no fill. -/
def State.freeSpares (s : State) : List SpareCfg :=
  s.cfg.spares.filter (fun x => !s.snp.usedSpares.contains x.num && !s.snp.fills.any (fun (f : Fill) => f.spare == x.num))

/-- The step that the fleet is in, as the head knows it. -/
def State.curStep (s : State) : Nat := s.devStep % 2 ^ 32

/-- The bitmap of dead slots. -/
def State.deadMap (s : State) : Nat := (s.gal.deadSlots.map (fun d => 2 ^ d.1)).foldl (· + ·) 0

/-- Number of a fill's phase in what the head tells the deputies; 4 says that the fill has failed, 5 that its slot lives again. -/
def fillCode : FillSt → Nat
  | .attach => 0 | .copy => 1 | .check => 2 | .ready => 3

/-- A ward whose partner has been replaced goes on with a gap over everything, and says so (R512). -/
def State.wardReady (s : State) (slot : Nat) : State :=
  if s.exp.ward ∧ s.cfg.expPartner = some (s.gal.fleet.toNat, slot) then
    let s := { s with exp := { s.exp with ward := false } }
    let s := match s.cfg.fullGap with | some g => s.expPush g s.devStep | none => s
    s.log 0x8407 [.val 1 s.gal.slot.toNat, .val 1 slot]
  else s

/-- The other devices of HEADS told of a fill, so that a deputy can take it over, and, of a fill that is READY, every live slot, so that the
ward goes on (R512, R513; log entry 30). Fields of the acknowledgement: 0x507, slot, spare, incarnation, number; the key hash is its data. -/
def State.tellFill (s : State) (f : Fill) (code : Nat) : State :=
  let me := s.gal.slot.toNat
  let dsts := if code = 3 then (s.liveSlots ++ s.cfg.heads).eraseDups else s.cfg.heads
  (dsts.filter (fun h => decide (h ≠ me ∧ h < 64))).foldl (fun s h =>
    s.inject { s.address (flowKey s.gal.fleet.toNat h) { ptype := 0x10, fields := [0x507, f.slot, f.spare, f.inc, code, 0], data := padTo 32 f.hash }
               with cls := 1 }) s

/-- What the acting head tells of a fill: kept by a deputy, and heeded by the ward (R512, R513). -/
def State.noteFill (s : State) (fs : List Nat) (hash : List Byte) : State :=
  let slot := fs.getD 1 0
  let s := if fs.getD 4 0 = 3 then s.wardReady slot else s
  if !s.deputy then s
  else
    let rest := s.snp.fills.filter (fun (f : Fill) => f.slot ≠ slot)
    let ph : Option FillSt := match fs.getD 4 0 with | 0 => some .attach | 1 => some .copy | 2 => some .check | 3 => some .ready | _ => none
    match ph with
    | none =>
      let s := { s with snp := { s.snp with fills := rest } }
      if fs.getD 4 0 = 5 then
        { s with snp := { s.snp with usedSpares := s.snp.usedSpares ++ [fs.getD 2 0], restored := [] },
                 gal := { s.gal with deadSlots := s.gal.deadSlots.filter (fun d => d.1 ≠ slot) } }
      else s
    | some p =>
      let f : Fill := { slot := slot, spare := fs.getD 2 0, inc := fs.getD 3 0, phase := p, hash := hash }
      let s := s.noteDead slot f.inc
      { s with snp := { s.snp with fills := rest ++ [f] },
               gal := { s.gal with owners := tabSet [] s.gal.owners slot hash,
                                   exposed := if p = .ready then psAdd s.gal.exposed slot else s.gal.exposed } }

/-- The head's own command to a slot, as a forwarded control datagram of session 0 (log entry 30). -/
def State.headCmd (s : State) (slot op : Nat) (payload : List Byte) : State :=
  s.sendTcdf (flowKey s.gal.fleet.toNat slot) 16 0 0 0 op payload

/-- A RESTORE of the head's own: sources 0 a step restart at the STEP that follows, 3 an escalation (log entry 30). -/
def State.headRestore (s : State) (src step : Nat) : State :=
  (s.liveSlots.filter (fun i => i ≠ s.gal.slot.toNat)).foldl (fun s i =>
    s.headCmd i 0x40 (leBytes 1 src ++ leBytes 7 0 ++ leBytes 8 step)) s

/-- This device is under an escalated recovery: its cells are held, and a restore of the host may come (R501, R505). -/
def State.beginEscalated (s : State) : State :=
  let s := s.holdAll (fun h => { h with restore := true })
  { s with snp := { s.snp with recovering := true, restored := [] } }

/-- The fleet returns to layer 3: causes 1 commit passed, 2 partner lost, 3 fill failed (R505). -/
def State.escalate (s : State) (cause : Nat) : State :=
  let s := s.log 0x8409 [.val 4 s.curStep, .val 1 cause]
  let s := s.snp.fills.foldl (fun (s : State) (f : Fill) => s.tellFill f 4) s
  let s := (s.headRestore 3 0).beginEscalated
  { s with snp := { s.snp with rstate := .escalated, fills := [] } }

/-- The head waits for the host (R505, R507). -/
def State.recoveryWait (s : State) : State :=
  let s := s.log 0x8405 [.val 8 s.deadMap, .val 4 s.freeSpares.length]
  { s with snp := { s.snp with rstate := .wait } }

/-- Dead slots that no fill has. -/
def State.unfilled (s : State) : List (Nat × Nat) :=
  s.gal.deadSlots.filter (fun d => !s.snp.fills.any (fun (f : Fill) => f.slot == d.1))

/-- A dead slot is assigned to a device, and ATTACH begins (R507). -/
def State.startFill (s : State) (slot inc spare : Nat) (hash : List Byte) : State :=
  let s := s.log 0x8401 [.val 1 slot, .val 4 (bfld hash 0 4), .val 2 inc]
  let f : Fill := { slot := slot, spare := spare, hash := hash, inc := inc }
  let s := { s with snp := { s.snp with rstate := .filling, fills := s.snp.fills ++ [f] },
                    gal := { s.gal with owners := tabSet [] s.gal.owners slot hash } }
  let s := s.tellFill f 0
  match s.cfg.spares.find? (fun (x : SpareCfg) => x.num == spare) with
  | some sp => s.sendRoutes slot sp
  | none => s

/-- A deputy that becomes the acting head takes over the fills it was told of: those in COPY or later go on, those in ATTACH begin again
with the same assignment; a dead slot without one waits (R513). -/
def State.takeOverFills (s : State) : State :=
  if s.snp.fills.isEmpty ∧ s.unfilled.isEmpty then s
  else
    let s := { s with snp := { s.snp with rstate := if s.unfilled.isEmpty then .filling else .wait } }
    (s.snp.fills.filter (fun (f : Fill) => f.phase == .attach)).foldl (fun (s : State) (f : Fill) =>
      match s.cfg.spares.find? (fun (x : SpareCfg) => x.num == f.spare) with
      | some sp => s.sendRoutes f.slot sp
      | none => s) s

/-- DEPUTY_TAKEOVER_TIMER: a HEADLESS deputy whose turn has come heads the fleet if more than half of the slots are live to
it, and takes over its fills (R468, R513). -/
def execDeputyTakeoverTimer (s : State) : Res :=
  match s.cfg.rankOf s.gal.slot.toNat with
  | none => .next s
  | some r =>
    let live := s.liveSlots.length
    if s.gal.state = .headless ∧ s.gal.role ≠ 1 ∧ s.cfg.nslots < 2 * live then
      let s := (s.setGal .active).followHead s.gal.slot.toNat
      .next (s.log 0x3304 [.val 1 s.gal.slot.toNat, .val 1 r, .val 1 live]).takeOverFills
    else .next s

/-- Every dead slot without a fill is assigned to a free spare (R507). -/
def State.autofill (s : State) : State :=
  (s.unfilled.zip s.freeSpares).foldl
    (fun (s : State) (d : (Nat × Nat) × SpareCfg) => s.startFill d.1.1 d.1.2 d.2.num d.2.hash) s

/-- The partner of a slot as the head finds it: this device for a slot whose mirror it holds. -/
def State.partnerOf (s : State) (slot : Nat) : Nat :=
  if s.cfg.mirrors.any (fun m => m.2.2.2.1 == slot) then s.gal.slot.toNat else Config.partnerOf s.gal.fleet.toNat slot

/-- This device restarts the step: its cells are reset under class C and held for a restore from its own step-start record, whose STEP the
head names (R502, R506). -/
def State.beginRestart (s : State) (step : Nat) : State :=
  let s := (cellIds.filter (fun k => (s.cell k).exists_)).foldl State.commandReset s
  let s := s.holdAll (fun h => { h with restore := true })
  { s with snp := { s.snp with recovering := true, state := .restore, restoring := some (0, 0, step + 1), restored := [] } }

/-- The live devices restart the step from HBM (R506). -/
def State.restartFleet (s : State) : State :=
  let step := s.devStep % 2 ^ 64
  (s.headRestore 0 step).beginRestart step

/-- The live devices restart where they have not yet, and the dead slots are filled, or wait for the host (R505, R507). -/
def State.recover (s : State) : State :=
  let s := if s.snp.recovering then s else s.restartFleet
  let s := { s with snp := { s.snp with rstate := .restart } }
  if s.cfg.autofill then s.autofill else s.recoveryWait

/-- The fills of slots whose partner is a slot that has died end with FILL_ABORT cause 2 (R513). -/
def State.abortFills (s : State) (slot : Nat) : State :=
  (s.snp.fills.filter (fun (f : Fill) => s.partnerOf f.slot == slot)).foldl (fun (s : State) (f : Fill) => s.log 0x8403 [.val 1 f.slot, .val 1 2]) s

/-- The head decides the recovery of a slot whose declaration is complete: a slot in a fill is filled anew; else the rows of R505 in order.
A mirror that is not yet free of stale lines counts as lost (R505, R512, R513). -/
def State.decide_ (s : State) (slot inc : Nat) (commit : Bool) : State :=
  if s.snp.rstate = .escalated then s
  else
    let old := s.snp.fills.find? (fun (f : Fill) => f.slot == slot)
    let s := { s with snp := { s.snp with fills := s.snp.fills.filter (fun (f : Fill) => f.slot ≠ slot),
                                           usedSpares := s.snp.usedSpares ++ (old.map (fun (f : Fill) => f.spare)).toList } }
    let p := s.partnerOf slot
    match old with
    | some f =>
      match s.freeSpares with
      | sp :: _ => (s.log 0x8404 [.val 1 slot, .val 1 f.spare, .val 1 sp.num]).startFill slot inc sp.num sp.hash
      | [] => s.recoveryWait
    | none =>
      if commit || s.gal.commitSeen then s.escalate 1
      else if s.snp.fills.any (fun (f : Fill) => s.partnerOf f.slot == slot && f.phase != .ready) then (s.abortFills slot).escalate 2
      else if p = 0xFF ∨ s.deadNow p ∨ s.snp.fills.any (fun (f : Fill) => f.slot == p) ∨ psHas s.gal.exposed p then s.escalate 2
      else if s.freeSpares.length < s.unfilled.length then s.recoveryWait
      else s.recover

/-- A declaration whose every acknowledgement is in: the slot counts as dead, and the head decides (R467, R505). -/
def State.declared (s : State) (d : Death) : State :=
  let s := { s with gal := { s.gal with deaths := s.gal.deaths.filter (fun (x : Death) => x.slot ≠ d.slot) } }
  (s.noteDead d.slot d.inc).decide_ d.slot d.inc d.commit

/-- A slot that is not live may be declared dead: no declaration of it is under way, and it is not dead already, unless a device that took
it in a fill past ATTACH has fallen silent (R466, R513). -/
def State.mayDeclare (s : State) (i : Nat) : Bool :=
  !s.gal.deaths.any (fun d => d.slot == i) &&
    (!s.gal.deadSlots.any (fun (d : Nat × Nat) => d.1 == i) || s.snp.fills.any (fun (f : Fill) => f.slot == i && f.phase != .attach))

/-- A head that waits goes on once spares have come for every dead slot (R513). -/
def State.waitOver (s : State) : State :=
  if s.snp.rstate = .wait ∧ s.cfg.autofill ∧ !s.unfilled.isEmpty ∧ s.unfilled.length ≤ s.freeSpares.length then s.recover else s

/-- LIVE_SET_CHECK: at least half of the slots live, and each that is not is declared dead; otherwise the head is fenced
(R466). -/
def execLiveSetCheck (s : State) : Res :=
  if !s.isHead || s.gal.state == .standalone then .next s
  else
    let live := s.liveSlots
    if s.cfg.nslots ≤ 2 * live.length then
      let dead := (List.range s.cfg.nslots).filter (fun i => !live.contains i && s.mayDeclare i)
      let s := dead.foldl (fun s i => s.declare live i) s
      let whole := s.gal.deaths.filter (fun d => d.waitAck.isEmpty)
      .next (whole.foldl State.declared s).waitOver.showLive
    else .next s.enterFenced

/-- A notified device's acknowledgement of a declaration at the acting head; the last one completes it (R467, R505). -/
def State.deathAck (s : State) (slot frm : Nat) (commit : Bool) : State :=
  if !s.isHead then s
  else match s.gal.deaths.find? (fun d => d.slot == slot) with
    | none => s
    | some d =>
      if !d.waitAck.contains frm then s
      else
        let d := { d with waitAck := d.waitAck.filter (fun i => i ≠ frm), commit := d.commit || commit }
        let s := { s with gal := { s.gal with deaths := s.gal.deaths.map (fun x => if x.slot = slot then d else x) } }
        if d.waitAck.isEmpty then s.declared d else s

/-- DEATH_ACK_RECEIVE: a slot of the own fleet acknowledges a declaration, and says whether it has completed the commit rendezvous (R467,
R505). -/
def execDeathAckReceive (slot : Fin 64) (a : DeathAck) (s : State) : Res :=
  .next (s.deathAck slot.val (flowKey s.gal.fleet.toNat a.frm.val) a.commit)

/-- A slot of this fleet acknowledges a declaration of another one; the last acknowledgement goes on to the head that declares (R466,
R467). -/
def State.relayAck (s : State) (flow frm : Nat) : State :=
  match s.gal.relays.find? (fun r => r.flow == flow) with
  | none => s
  | some r =>
    let left := r.waitAck.filter (fun i => i ≠ frm)
    let rest := s.gal.relays.filter (fun r => r.flow ≠ flow)
    let s := { s with gal := { s.gal with relays := if left.isEmpty then rest else rest ++ [{ r with waitAck := left }] } }
    if left.isEmpty ∧ !r.waitAck.isEmpty then s.ackDeath r.frm flow false else s

/-! Resume (R503, R511, R512, R531). -/

/-- The recovery is over on this device. -/
def State.endRecovering (s : State) : State := { s with snp := { s.snp with recovering := false } }

/-- This device is released: its held cells go on, FENCED is left, and an export stream that its partner's death still pauses begins again
with a gap over everything (R469, R503, R511, R512). -/
def State.resumeHere (s : State) : State :=
  let s := s.holdAll (fun h => { h with restore := false })
  let s := if s.gal.state = .fenced then s.setGal .active else s
  let s := s.endRecovering
  match s.cfg.expPartner with
  | some (_, p) => s.wardReady p
  | none => s

/-- FLEET_RESUME sent to every slot, and the recovery is over (R511, R531). -/
def State.resumeFleet (s : State) : State :=
  let me := s.gal.slot.toNat
  let s := ((List.range s.cfg.nslots).filter (fun i => i ≠ me)).foldl (fun s i => s.headCmd i 0x42 [0]) s
  let filled := s.snp.fills.filter (fun (f : Fill) => f.phase == FillSt.ready)
  let s := filled.foldl (fun (s : State) (f : Fill) => s.tellFill f 5) s
  let s := { s with
    gal := { s.gal with deadSlots := s.gal.deadSlots.filter (fun d => !filled.any (fun (f : Fill) => f.slot == d.1)) },
    snp := { s.snp with rstate := .normal, restored := [], usedSpares := s.snp.usedSpares ++ filled.map (fun (f : Fill) => f.spare),
                        fills := s.snp.fills.filter (fun (f : Fill) => f.phase != FillSt.ready) } }
  s.resumeHere

/-- Every fill is READY, every dead slot has one, and every live device has restarted: RECOVERY_RESUME (R511). -/
def State.tryResume (s : State) : State :=
  let fills := s.snp.fills
  let want := s.liveSlots.filter (fun i => !fills.any (fun (f : Fill) => f.slot == i))
  if s.isHead && s.snp.recovering && !fills.isEmpty && s.unfilled.isEmpty && s.gal.deaths.isEmpty &&
      fills.all (fun (f : Fill) => f.phase == .ready) && want.all (fun i => s.snp.restored.contains i) then
    (s.log 0x8406 [.val 4 s.curStep, .val 4 fills.length]).resumeFleet
  else s

/-- The head learns that a slot has restored: a fill becomes READY, a live device is done (R507, R511). A device that rejoins its own slot
is restored by the host, in whatever phase (R514). The time of a fill is a free value. -/
def State.onRestored (s : State) (slot : Nat) : State :=
  match s.snp.fills.find? (fun (f : Fill) => f.slot == slot && (f.phase == .check || decide (8 ≤ f.spare))) with
  | some f =>
    let ms := Config.draw s.free % 2 ^ 32
    let s := (s.tellFill f 3).wardReady slot
    let s := { s with free := s.free + 1,
                      gal := { s.gal with exposed := psAdd s.gal.exposed slot },
                      snp := { s.snp with fills := s.snp.fills.map (fun (f : Fill) => if f.slot = slot then { f with phase := .ready } else f) } }
    (s.log 0x8402 [.val 1 slot, .val 4 ms]).tryResume
  | none => ({ s with snp := { s.snp with restored := s.snp.restored ++ [slot] } }).tryResume

/-- A device tells the acting head how its restore under a recovery ended: a fill whose CHECK failed ends with FILL_ABORT
cause 3, and the recovery escalates; a device that cannot rejoin leaves its slot to the host (R507, R514). -/
def State.onReport (s : State) (slot ok : Nat) : State :=
  if !s.snp.recovering ∨ s.snp.rstate = .escalated then s
  else if ok = 1 then s.onRestored slot
  else
    match s.snp.fills.find? (fun (f : Fill) => f.slot == slot) with
    | some f =>
      let s := s.log 0x8403 [.val 1 slot, .val 1 3]
      if 8 ≤ f.spare then
        let s := s.tellFill f 4
        ({ s with snp := { s.snp with fills := s.snp.fills.filter (fun (x : Fill) => x.slot ≠ slot) } }).recoveryWait
      else s.escalate 3
    | none => s.escalate 3

/-- A deputy keeps which slots have restored, for the case that it heads the fleet later (R511, R513). -/
def State.noteReport (s : State) (slot ok : Nat) : State :=
  if ok = 1 ∧ s.deputy then { s with snp := { s.snp with restored := s.snp.restored ++ [slot] } } else s

/-- The end of a restore told to every device of HEADS, and taken here. Fields of the acknowledgement: 0x503, slot, 1 done or 0 failed, 0,
0, the STEP (R507, R511; log entry 30). -/
def State.report (s : State) (ok : Nat) : State :=
  if s.gal.state = .standalone then s
  else
    let me := s.gal.slot.toNat
    let s := (s.cfg.heads.filter (fun h => decide (h ≠ me ∧ h < 64))).foldl (fun s h =>
      s.sendCtl (flowKey s.gal.fleet.toNat h) 0x10 [0x503, me, ok, 0, 0, s.devStep % 2 ^ 64]) s
    if s.isHead then s.onReport me ok else s.noteReport me ok

/-- What a device of this fleet, or the head of another, tells in an acknowledgement that answers no request, by its first field: 0x503 the
end of a restore, 0x507 a fill, 0x512 a mirror free of stale lines, 0x25 a declaration acknowledged (R467, R507, R511 to R513; log entry
30). -/
def State.onNews (s : State) (pk : Packet) : State :=
  let f (i : Nat) : Nat := pk.fields.getD i 0
  let own := decide (pk.sfleet = s.gal.fleet.toNat)
  match f 0 with
  | 0x503 => if own then (if s.isHead then s.onReport pk.sslot (f 2) else s.noteReport pk.sslot (f 2)) else s
  | 0x507 => if own && !s.isHead && pk.sslot == s.gal.acthead.toNat then s.noteFill pk.fields pk.data else s
  | 0x512 => if own && pk.sslot == f 1 then s.noteFresh (f 1) else s
  | 0x25 =>
    if f 1 = s.gal.fleet.toNat then s.deathAck (f 3) (if own then pkFrom pk else 4096 + pk.sfleet) (f 4 == 1)
    else if own then s.relayAck (flowKey (f 1) (f 3)) pk.sslot else s
  | _ => s

/-- ACK_RECEIVE: a request's acknowledgement at its source, or news of a recovery (R454, R467, R511, R513). -/
def execAckReceive (port : Option (Fin 8)) (pk : Packet) (s : State) : Res :=
  .next (s.receiveCtl port pk 0x10 (fun p pk s =>
    if pk.fields.getD 0 0 = 0 then respEff (fun flow s => s.onAck flow pk.seq pk) p pk s else s.onNews pk))

/-! RESTORE (R501 to R503). -/

/-- The record and data of a source: the step-start record, a flash generation, or the store object. -/
def State.restoreSource (s : State) (src gen : Nat) (obj : Option StoreObj) : List Byte × Option Mem :=
  match src with
  | 1 => match s.snp.gen gen with | some (_, r, m) => (r, some m) | none => ([], some [])
  | 2 => match obj with
    | none => ([], some [])
    | some o =>
      let rs := recordRanges o.record
      (o.record, some ((rs.zip o.ranges).foldl (fun m (r, b) =>
        memPut m r.2.2.2.1 r.2.1 ((b.zipIdx.map (fun (x, i) => (i, x))).filter (fun e => decide (e.2 ≠ 0)))) []))
  | _ => (s.hbmRead s.cfg.snapbuf.1 65536, none)

/-- RESTORE's effect: refused in the wrong state, and, where the source lies in the module, by its first checks; then the
restore begins with every cell held (R501). -/
def effRestore (source gen : Nat) (step : BitVec 64) : Eff := fun c s =>
  if c.frm ≠ 0 ∧ c.id = 0 then (if source = 3 then s.beginEscalated else s.beginRestart step.toNat, done [])
  else if 2 < source ∨ 1 < gen then (s, badFormat)
  else if !s.mayRestore then s.refuseCmd 0x8203 [.val 1 source, .val 1 7]
  else
    let s := if source = 0 then s.touchPhys s.cfg.snapbuf.1 65536 false else s
    let first : Option (Nat × List EvF) :=
      if source = 2 then none
      else
        let (r, _) := s.restoreSource source gen none
        if !recordOk r (if source = 0 then 0 else 1) then restoreFail source 1
        else if !s.recordMine r false then restoreFail source 2
        else if !s.recordProg r then restoreFail source 3 else none
    match first with
    | some (code, fs) => s.refuseCmd code fs
    | none =>
      let s := s.holdAll (fun h => { h with restore := true })
      ({ s with snp := { s.snp with state := .restore, restoring := some (source, gen, if source = 2 ∨ step ≠ 0 then step.toNat + 1 else 0),
                                     reply := [c.id, c.epoch, c.seq, c.frm, b2n c.owner, c.op] } }, none)

/-- RESTORE (R501, R531). -/
def execRestore (m : Msg) (source gen : Nat) (step : BitVec 64) (s : State) : Res :=
  .next (s.tcd m 0x0040 (leBytes 1 source ++ leBytes 1 gen ++ leBytes 6 0 ++ leBytes 8 step.toNat) false false
    (effRestore source gen step) id)

/-- The command that began a restore is answered. -/
def State.restoreReply (s : State) (status : Nat) (payload : List Byte) : State :=
  match s.snp.reply with
  | [id, epoch, seq, frm, _, op] =>
    ({ s with snp := { s.snp with reply := [] } }).answer ⟨id, epoch, seq, frm, true, op⟩ status payload
  | _ => s

/-- The restore in progress is over. -/
def State.endRestoring (s : State) : State := { s with snp := { s.snp with restoring := none, state := s.snp.rest } }

/-- A restore refused: its event, the holds released unless the fleet recovers, and the answers. -/
def State.restoreRefused (s : State) (code : Nat) (fs : List EvF) : State :=
  let s := s.log code fs
  let s := if s.snp.recovering then s else s.holdAll (fun h => { h with restore := false })
  (s.restoreReply stRefused (leBytes 2 code ++ fs.flatMap EvF.bytes)).report 0

/-- After a restore from the mirror that the partner sent, every mirror line is stale (R512). -/
def State.staleMirrors (s : State) (src : Nat) : State :=
  if src = 3 then
    s.cfg.mirrors.foldl (fun s m => (List.range (m.2.1 / 256)).foldl (fun s i => s.setStale m (m.1 + 256 * i) true) s) s
  else s

/-- The end of a restore: the checks in order; the first failure ends the restore with the record in force unchanged; success
has the effects of R503. `obj` is what the store holds (R501 to R503, R506, R510). -/
def State.restoreEnd (s : State) (obj : Option StoreObj) : State :=
  match s.snp.restoring with
  | none => s
  | some (src, gen, step) =>
    let s := if src = 0 ∨ src = 3 then s.touchPhys s.cfg.snapbuf.1 65536 false else s
    let (r, data) := s.restoreSource src gen obj
    let (s, bad) := s.restoreCheck src step r data
    let s := s.endRestoring
    match bad with
    | some (code, fs) => s.restoreRefused code fs
    | none => (((s.restoreApply src r).staleMirrors src).restoreReply stDone []).report 1

/-! Fills (R507 to R512, R514). -/

/-- SLOT_ASSIGN's effect at the acting head: a dead slot is assigned to the device of a key hash, which holds no other slot (R507, R514). -/
def effSlotAssign (slot : Nat) (hash : List Byte) : Eff := fun _ s =>
  match s.isHead, s.unfilled.find? (fun d => d.1 == slot) with
  | true, some d =>
    if hash.length ≠ 32 ∨ s.gal.owners.any (fun o => o.1 != slot && o.2 == hash) then (s, badFormat)
    else
      let s := if s.snp.recovering then s else s.restartFleet
      let n := ((s.cfg.spares.find? (fun x => x.hash == hash)).map (fun x => x.num)).getD 8
      (s.startFill slot d.2 n hash, done [])
  | _, _ => (s, badFormat)

/-- SLOT_ASSIGN (R507, R531). -/
def execSlotAssign (m : Msg) (slot : Nat) (hash : List Byte) (s : State) : Res :=
  .next (s.tcd m 0x0041 (leBytes 1 slot ++ leBytes 7 0 ++ hash) false false (effSlotAssign slot hash) id)

/-- A fill moves to a phase; from COPY on its device is heard like any slot (R507, R513). -/
def State.fillPhase (s : State) (slot : Nat) (p : FillSt) : State :=
  let s := (s.snp.fills.filter (fun (f : Fill) => f.slot == slot)).foldl (fun (s : State) (f : Fill) => s.tellFill f (fillCode p)) s
  { s with snp := { s.snp with fills := s.snp.fills.map (fun (f : Fill) => if f.slot = slot then { f with phase := p } else f) },
           gal := { s.gal with hbLeft := if p = .copy then tabSet 0 s.gal.hbLeft slot s.cfg.hbmiss else s.gal.hbLeft } }

/-- Bytes of HBM sent to a fill in an EXPREC packet: kind, address and offset, poison and all (R509; log entry 21). -/
def State.sendFill (s : State) (dst kind addr off a n : Nat) : State :=
  let s := s.touchPhys a n false
  s.sendReq dst (Packet.carry { ptype := 0x09, addr := addr, fields := [kind, off, n, addr / 256] } (s.hread a n))

/-- The seals of the mirror regions of a slot, as the fill is sent them: a count, then base, length and seal of each (R510). -/
def State.mirrorSeals (s : State) (slot : Nat) : List Byte :=
  let ms := s.cfg.mirrors.filter (fun m => m.2.2.2.1 == slot)
  padTo 512 (leBytes 8 ms.length ++ ms.flatMap (fun m => leBytes 8 m.1 ++ leBytes 8 m.2.1 ++ leBytes 8 (s.rangeSeal m.1 m.2.1 0)))

/-- COPY at the partner: every line of the mirror up to the first stale one, then the refusal list, the step-start record and the seals of
the mirror, each of which the fill puts in its own place (R414, R507, R509, R510). -/
def State.sendMirror (s : State) (slot : Nat) : State :=
  let dst := flowKey s.gal.fleet.toNat slot
  match findIdx? (fun (m : Nat × (Nat × (Nat × (Nat × Bool)))) => m.2.2.2.1 == slot) s.cfg.mirrors with
  | none => s
  | some mi =>
    let lines := (s.cfg.mirrors.filter (fun m => m.2.2.2.1 == slot)).flatMap (fun m =>
      (List.range (m.2.1 / 256)).map (fun i => m.1 + 256 * i))
    let good := lines.takeWhile (fun a => !psHas s.exp.stale (a / 256))
    let s := good.foldl (fun s a => s.sendFill dst 2 a 0 a 256) s
    if good.length < lines.length then s
    else
      let s := match s.cfg.reflist slot with
        | some (base, len) => (List.range (len / 256)).foldl (fun s i => s.sendFill dst 3 0 (256 * i) (base + 256 * i) 256) s
        | none => s
      let r := s.cfg.snapbuf.1 + 65536 * (mi + 1)
      let s := (List.range 128).foldl (fun s i => s.sendFill dst 4 0 (256 * i) (r + 256 * i) 256) s
      let b := s.mirrorSeals slot
      (List.range 2).foldl (fun s i =>
        s.sendReq dst { ptype := 0x09, fields := [4, 32768 + 256 * i, 256, 0], data := bsub b (256 * i) 256 }) s

/-- FILL_ATTACH_DONE: the spare's link is UP and its armature in force; COPY begins, at the head by its table and at the
partner by sending (R507, R509). -/
def execFillAttachDone (slot : Fin 64) (s : State) : Res :=
  let s' := if s.isHead && s.snp.fills.any (fun (f : Fill) => f.slot == slot.val && f.phase == .attach) then s.fillPhase slot.val .copy else s
  .next (if decide (slot.val ≠ s.gal.slot.toNat) && s.cfg.mirrors.any (fun m => m.2.2.2.1 == slot.val) then s'.sendMirror slot.val else s')

/-- FILL_COPY_DONE: the last byte is acknowledged and CHECK begins, on the spare by a restore of the copied data; a stale
mirror line aborts the fill, and the recovery escalates (R507, R509, R510). -/
def execFillCopyDone (slot : Fin 64) (stale : Bool) (s : State) : Res :=
  let s' := if s.isHead && s.snp.fills.any (fun (f : Fill) => f.slot == slot.val && f.phase == .copy) then
      (if stale then (s.log 0x8403 [.val 1 slot.val, .val 1 1]).escalate 3 else s.fillPhase slot.val .check)
    else s
  if s.gal.role = 2 ∧ s.gal.slot.toNat = slot.val ∧ !stale then
    let s'' := s'.holdAll (fun h => { h with restore := true })
    let s'' := s''.cfg.sranges.foldl (fun s r => if r.2.2 = 1 then s.hbmPut r.1 r.2.1 [] else s) s''
    .next { s'' with snp := { s''.snp with recovering := true, state := .restore, restoring := some (3, 0, 0) } }
  else .next s'

/-- FLEET_RESUME's effect: this device is released; with ALL, on the acting head, every slot is (R469, R503, R531). -/
def effFleetResume (all : Bool) : Eff := fun _ s =>
  if all then (if s.isHead then (s.resumeFleet, done []) else (s, badFormat))
  else (s.resumeHere, done [])

/-- FLEET_RESUME (R531). -/
def execFleetResume (m : Msg) (all : Bool) (s : State) : Res :=
  .next (s.tcd m 0x0042 (leBytes 1 (b2n all)) false false (effFleetResume all) id)

end Sys2Proof.Machine
end

