-- ==== Sys2Proof/Machine/Complete.lean ====
section
/-! DEFINITION. Completion: INSTR_COMPLETE, the step boundary of STEP_END, and DMA_COMPLETE (R51, R87, R96, R108, R114,
R223, R243, R246, R258, R263, R329 to R332, R493, R498). -/
namespace Sys2Proof.Machine
open Sys2Proof

/-! The step boundary (R51, R223, R243, R258, R593). -/

/-- A core at the start of a new step: streams at their first instruction, the window empty, the units' cycles counted from
0, and a re-plan of its island in force. Scoreboard counts and stores are kept, and with them the detector's marks of instructions
whose post has not been consumed, under an ORD that no instruction of the new step has (R223, R243, R247, R258, R269, R593). -/
def Core.newStep (co : Core) (debug : Bool) (pwin : Nat) : Core :=
  let old (r : Nat × Nat) : Nat × Nat := (r.1, r.2 + 2 ^ 32)
  let kept (r : Nat × Nat) : Bool := co.awaits.any (fun a => a.2.2 == r)
  let clear (t : Tab Tag) : Tab Tag :=
    (t.map (fun (e : Nat × Tag) => (e.1, { e.2 with writer := (e.2.writer.filter kept).map old,
                                                    readers := (e.2.readers.filter kept).map old }))).filter
      (fun (e : Nat × Tag) => decide (e.2 ≠ {}))
  let co := { co with ptr := [], ord := [], lastSlot := [], inSlot := [], window := [], mrgFree := 0, bcastFree := 0,
                      awaits := co.awaits.map (fun (a : Nat × (Nat × (Nat × Nat))) => (a.1, (a.2.1, old a.2.2))),
                      tags := clear co.tags, tregTags := clear co.tregTags }
  let co := co.putWindow pwin
  let co := (List.range 4).foldl (fun co a =>
    co.modArr a (fun ar => { ar with lastEnd := 0, drainEnd := 0, retryEnd := 0 })) co
  let co := if debug then co.retag else co
  match co.replan with
  | some (f, v) => { co with planFreq := BitVec.ofNat 12 f, planVolt := BitVec.ofNat 12 v, replan := none }
  | none => co

/-- A cell at the start of a new step (R243, R258, R273). -/
def Cell.newStep (c : Cell) : Cell :=
  { c with step := c.step + 1, tick := 0, run0 := .hold, run1 := .hold, run2 := .hold, uh := 0, held := 0, deltas := 0,
           released := false, commitDone := false }

/-- A PENDING mode-2 load takes effect at the completion of STEP_END epoch ep; without an epoch, at the first one of which no cell had
already completed its STEP_END (R50, R51). -/
def ArmSt.applyDue (a : ArmSt) (ep : Nat) : Bool :=
  a.state == .pending && a.mode == 2 && ((a.epoch == 0 && !a.midEnd) || decide (a.epoch.toNat = ep ∧ 0 < ep))

/-- A PENDING mode-2 load whose epoch is past is discarded (R51). -/
def State.armLate (s : State) (ep : Nat) : State :=
  let a := s.arm
  if a.state = .pending ∧ a.mode = 2 ∧ a.epoch ≠ 0 ∧ a.epoch.toNat < ep then
    (({ s with arm := { a with state := .idle, next := none } }).endApply).log 0x7105 [.val 4 ep]
  else s

/-- The gradient norms of the step that ended are gone. -/
def State.clearNorms (s : State) : State :=
  { s with exp := { s.exp with greDone := 0, normGot := [], normHave := [], normWait := false } }

/-- The load engine applies the verified armature (R48, R49). -/
def State.startApplying (s : State) : State := { s with arm := { s.arm with state := .applying } }

/-- STEP_END completed in every participating cell: the gradient cycles of the step are over, the step-start record is
written, a capture begins or is skipped, and a mode-2 apply begins (R51, R400, R403, R493, R498). -/
def State.deviceBoundary (s : State) (step ep : Nat) : State :=
  let s := s.clearNorms.armLate ep
  let s := s.stepStart step
  let s := s.capturePoint step
  if s.arm.applyDue ep then (s.holdAll (fun h => { h with apply := true })).startApplying
  else { s with arm := { s.arm with midEnd := false } }

/-- The holds with which a cell waits at its boundary for the other cells of the device: for a capture or an apply that is
due (R51, R498). -/
def State.boundaryHolds (s : State) (k : Nat) (step ep : Nat) : Holds → Holds := fun h =>
  let others := (s.rdvCells 0).filter (fun j => j ≠ k && !(s.cell j).released)
  let cap := if others.isEmpty then s.captureDue step && s.snp.skip.isNone else others.any (fun j => (s.cell j).holds.capture)
  { h with capture := h.capture || cap, apply := h.apply || s.arm.applyDue ep }

/-- STEP_END of a cell completes (R258). -/
def State.stepEnd (s : State) (k : Nat) : State :=
  let step := (s.cell k).step.toNat + 1
  let ep := (s.rdvAt 0).epoch - 1
  let f := s.boundaryHolds k step ep
  let s := (s.cell k).members.foldl (fun s n => (s.modCore n (fun co => co.newStep s.cfg.debug (s.cell k).pwin)).reclock n) s
  let s := s.modCell k (fun c => { c.newStep with holds := f c.holds })
  if (s.rdvCells 0).all (fun j => !(s.cell j).released) then s.deviceBoundary step ep else s

/-! INSTR_COMPLETE (R96, R249). -/

/-- An instruction can complete in the present tick: its last write lies in it, and what it waits for outside has come, a remote SIGNAL's
acknowledgement among it (R96, R318, R454). -/
def Entry.canEnd (e : Entry) (c : Cell) : Bool :=
  c.due e && !e.inRetry && !e.faulted && (e.arrOp.isNone || e.streaming) && (e.point.isNone || e.done) &&
    e.home.isEmpty && e.homeOut == 0 && (wOpc e.word != 0xA2 || e.done) && (wOpc e.word != 0xA1 || e.dests.isEmpty)

/-- Every instruction of the present tick that can issue has issued and every group that can has started to stream, or the completion
lies before the tick. -/
def State.settled (s : State) (c : Cell) (e : Entry) : Bool :=
  decide (e.doneCycle ≤ c.cycle) || (!(decide (c.run0 = .run) && (s.unissued c).any (·.isNone)) &&
    c.members.all (fun n => !((s.core n).startDue (if c.advances then c.cycle + 8 else c.cycle))))

/-- The last effect of an array product: its adds, less counts that a later BEGIN discarded, its record fields, its pointing-window entry (R108, R114, R141, R223,
R225, R230). -/
def State.endProduct (s : State) (k n : Nat) (e : Entry) (o : ArrOp) : State × Entry :=
  let c := s.cell k
  let co := s.core n
  let (ds, cf) := e.addsBelow co o o.stages
  let (ar, fl) := (co.arr o.arr).finishOp e o (c.keyOf e) ds (e.addsNew co o o.stages).1 s.cfg.dchk (co.onTile o.arr o.tile (some e.ord))
  let rel := isRelief o.opc
  let flags := e.flags ||| (if o.keepw then 0 else e.wset.flags) ||| cf ||| fl |||
    (if rel ∧ e.wset.rangeSlots ≠ 0 then fRANGE else 0)
  let e' := { e with flags := flags, status := e.status ||| b2n (flags &&& fPOISON != 0 || !e.badRows.isEmpty),
                     fields := BitVec.ofNat 32 e.cal :: (if rel then [BitVec.ofNat 32 e.wset.rangeSlots] else []) }
  let we : WinEntry := { word := e.word, op := o, front := e.wset, id := e.id, step := c.step,
                         digest := digestOf s.cfg.kappa o ds, kind := o.exposed }
  let co := co.modArr o.arr (fun _ => if co.beginsOn o.arr o.tile e.ord then ar.discardTile o.tile else ar)
  let co := (co.ageWindow (if e.cal = 2 then none else some we)).putWindow c.pwin
  let co := if s.cfg.debug then co.retag else co
  ((s.setCore n co).modCell k (fun c => c.countHeighten n we), e')

/-- The outcome of an MVP's checksum passes: CAL_RETRY_OK or CAL_MISMATCH of unit 4 (R215, R218, R219). -/
def State.endMvp (s : State) (k n : Nat) (e : Entry) : State :=
  let s := s.modCore n (fun co => co.setMvu e)
  let l := (s.cell k).lcore n
  if e.cal = 1 then
    let s := s.modCore n (fun co => { co with retry60 := satAdd co.retry60 1 })
    let s := (s.rcAdd 0 1).log 0x1101 [.core n, .arr 4, .val 4 e.id.toNat, .val 4 0]
    if s.cfg.calThr < (s.core n).retry60.toNat then s.markSuspect n 4 else s
  else if e.cal = 2 then
    let s := s.modCore n (fun co => { co with mism := satAdd co.mism 1 })
    (s.rcAdd 1 1).blame k [n] 1 0x1102 [.core n, .arr 4, .val 4 e.id.toNat, .val 4 (32 * e.badRows.foldl min 32)] l 1 e.ord
  else s

/-- An event of a line that UPDATE left unwritten reports a poisoned datum: UPD_REFUSED, or MASK_LINE_SKIP with reason 1 (R153, R219). -/
def poisonEvent (ev : Nat × List (Nat × Nat)) : Bool := ev.1 == 0x1305 || (ev.1 == 0x1304 && ev.2.contains (1, 1))

/-- The events that an instruction logs as it completes; a poisoned datum that reaches UPDATE is the escalation of R219, recorded as
UPD_REFUSED (R153, R219, R233). -/
def State.endEvents (s : State) (k n : Nat) (e : Entry) : State :=
  let s := e.events.foldl (fun s ev => s.log ev.1 (ev.2.map (fun f => .val f.1 f.2))) s
  let esc := wOpc e.word == 0x68 && s.cfg.calEsc && e.events.any poisonEvent
  if esc then s.fault k 0x1305 ((s.cell k).lcore n) e.stream e.ord false else s

/-- Its completion frees the tile that a DRAIN released, unless an instruction is still at work on it (R120). -/
def State.freeTile (s : State) (n : Nat) (e : Entry) : State :=
  match e.release with
  | some (a, t) => s.modCore n (fun co =>
      if co.onTile a t none then co
      else co.modArr a (fun ar => { ar with tiles := tabMod {} ar.tiles t (fun x => { x with st := .free }) }))
  | none => s

/-- The record of STEP_END carries the cell's taint in bit 0 of F1 (R229; log entry 72). -/
def Entry.withTaint (e : Entry) (taint : Bool) : Entry :=
  if isStepEnd e.word then { e with fields := e.fields.take 1 ++ [BitVec.ofNat 32 (b2n taint)] } else e

/-- What ends every instruction: the events of its results, its record, and what STEP_END begins (R96, R229, R305). -/
def State.endInstr (s : State) (k n : Nat) (e : Entry) : State :=
  let s := if e.perTensor then s.modCell k (fun c => { c with perTensor := true }) else s
  let s := s.endEvents k n e
  let s := s.finish n (e.withTaint (s.cell k).taint)
  if isStepEnd e.word && e.stream == 5 then s.stepEnd k else s

/-- The effect of an instruction's last cycle, by its kind, and its completion; the rows that the broadcasts have read by then are kept
(R95). -/
def State.complete (s : State) (k n : Nat) (e : Entry) : State :=
  let c := s.cell k
  let s := s.modCore n (fun co => co.captureRows (if c.advances then c.cycle + 8 else c.cycle))
  match e.pendFault with
  | some (code, fs) =>
    let s := s.modCore n (fun co => (co.land e).modEntry e.stream e.ord (fun e => { e with faulted := true, puts := [], bits := [], lines := [] }))
    s.raiseFault k code (fs.map (fun f => .val f.1 f.2)) ((s.cell k).lcore n) e.stream e.ord false
  | none =>
    let (s, e) := match e.arrOp with
      | some o => s.endProduct k n e o
      | none => (s, e)
    let s := if e.mvu.isSome then s.endMvp k n e
      else if e.arrOp.isNone then s.checkEvents k n e else s
    (s.freeTile n e).endInstr k n e

/-- INSTR_COMPLETE: an instruction of a stream other than DMA completes at the end of a tick (R96). -/
def execInstrComplete (core : Fin 48) (stream : Fin 6) (s : State) : Res :=
  match s.cellOf core with
  | none => .next s
  | some k =>
    let c := s.cell k
    if !s.operational || stream == 4 then .next s
    else match (s.core core).inflight.find? (fun e => e.stream == stream.val && e.canEnd c) with
      | none => .next s
      | some e => .next (if s.settled c e then s.complete k core e else s)

/-! DMA_COMPLETE (R332). -/

/-- The counts and landings of the experts that an ending XCH owns are gone; those of other experts of the GROUP stay (R321). -/
def State.endXch (s : State) (e : Entry) : State :=
  let mine (x : Nat × Nat) : Bool := x.1 == bfld e.block 26 2 && (s.xchOwned e).contains x.2
  { s with gal := { s.gal with xchCnt := s.gal.xchCnt.filter (fun x => !(mine (x.1, x.2.1))),
                               xchLanded := s.gal.xchLanded.filter (fun x => !(mine (x.1, x.2.1))) } }

/-- DMA_COMPLETE: a transfer, remote operation or SEAL whose every effect is in place writes its record, and its post lands
(R318, R321, R332). -/
def execDmaComplete (core : Fin 48) (ord : Nat) (s : State) : Res :=
  match (s.core core).entry 4 ord with
  | none => .next s
  | some e =>
    if !e.done || e.faulted || !s.operational then .next s
    else
      let s := s.modCore core (fun co => if co.bounceBusy = some ord then { co with bounceBusy := none } else co)
      let s := if wOpc e.word = 0x94 then s.endXch e else s
      .next (s.finish core e)

end Sys2Proof.Machine
end

