-- ==== Sys2Proof/Machine/Fault.lean ====
section
/-! DEFINITION. Faults, pre-emption, context images and resume (R472 to R489). What R480 and R481 place in the image lies
there as bytes; what they give no place to is kept beside it (log entry 11). -/
namespace Sys2Proof.Machine
open Sys2Proof

/-! The end of a fault hold (R474, R475). -/

/-- SPMSP, MERGE or PACK stopped by its own fault starts again from its beginning: it reads its operands anew and takes its cycles again
(R174, R175, R482). -/
def State.restart (s : State) (k n : Nat) (e : Entry) : State :=
  let c := s.cell k
  let x : IssueCtx := { n := n, k := k, l := c.lcore n, st := e.stream, co := s.core n, c := c, ord := e.ord, cyc := c.cycle }
  let plan := match wOpc e.word with
    | 0x30 => planSpmspOf e.block x
    | 0x31 => planMergeOf e.block x
    | _ => planPackOf s e.block x
  match plan with
  | .error r => (s.modCore n (fun co => co.modEntry e.stream e.ord (fun e => { e with faulted := true }))).refuse x r
  | .ok p => s.modCore n (fun co => p.upd (co.modEntry e.stream e.ord (fun e =>
      { p.entry with word := e.word, id := e.id, stream := e.stream, ord := e.ord, grp := e.grp, issueTick := e.issueTick })))

/-- An entry stopped by a fault goes on from its cursor: a transfer, a SEAL, the packets of a remote operation, or the HOME
writes of a line instruction; a merge instruction starts again (R174, R474, R482, R486). -/
def State.resumeEntry (s : State) (n : Nat) (e : Entry) : State :=
  let s := s.modCore n (fun co => co.modEntry e.stream e.ord (fun e => { e with faulted := false }))
  match s.cellOf n, (s.core n).entry e.stream e.ord with
  | some k, some e =>
    let opc := wOpc e.word
    if e.pendFault.isSome then s.restart k n e
    else if opc = 0xA1 then s.rearm n e
    else if e.stream ≠ 4 then s
    else if 0x80 ≤ opc ∧ opc ≤ 0x85 then s.runLocal n e
    else if 0x90 ≤ opc ∧ opc ≤ 0x94 then s.rearm n e
    else if opc = 0xB0 then s.runSeal k n e
    else s
  | _, _ => s

/-- Every faulted entry of a cell goes on. -/
def State.resumeAll (s : State) (k : Nat) : State :=
  (s.cell k).members.foldl (fun s n =>
    ((s.core n).inflight.filter (·.faulted)).foldl (fun s e => s.resumeEntry n e) s) s

/-- FLT_RETRY: every outstanding fault is resolvable and resolved; the faulted units resume from their cursors, and the
cell runs again (R474, R475). `us` is the time in the hold. -/
def execFltRetry (cell : Fin 16) (us : Nat) (s : State) : Res :=
  let c := s.cell cell
  if c.ctx = 1 then
    if c.faults.all (·.resolvable) then
      let s := c.faults.foldl (fun s f => s.log 0x5301 [.cell cell, .val 2 f.code.toNat, .val 4 us]) s
      let s := s.modCell cell (fun c => { c with ctx := 0, faults := [], holds := { c.holds with fault := false } })
      .next (s.resumeAll cell)
    else .next (s.startPreempt cell (c.preemptCause 1))
  else .next s

/-- A fault hold ends in a pre-emption with cause FAULT (R474). -/
def State.giveUp (s : State) (k : Nat) : State := if (s.cell k).ctx = 1 then s.startPreempt k ((s.cell k).preemptCause 1) else s

/-- FLT_GIVEUP (R474). -/
def execFltGiveup (cell : Fin 16) (s : State) : Res := .next (s.giveUp cell)

/-- FLT_BUDGET_EXPIRY: the budget ends, measured from the first event (R474, R475). -/
def execFltBudgetExpiry (cell : Fin 16) (s : State) : Res := .next (s.giveUp cell)

/-! Pre-emption (R476, R478, R487). -/

/-- A host request pre-empts a running or fault-held cell; a cell that the hazard detector froze gets cause HAZARD. -/
def State.hostPreempt (s : State) (k : Nat) : State :=
  let c := s.cell k
  if c.exists_ && decide (c.ctx = 0 ∨ c.ctx = 1) then s.startPreempt k (c.preemptCause 0) else s

/-- CTX_CTRL.PREEMPT (R476, R488). -/
def execCtxPreempt (cell : Fin 16) (s : State) : Res := .next (s.hostPreempt cell)

/-- CELL_PREEMPT's effect. -/
def effCellPreempt (cell : Nat) : Eff := fun _ s =>
  if 16 ≤ cell ∨ !(s.cell cell).exists_ then (s, badFormat) else (s.hostPreempt cell, done [])

/-- CELL_PREEMPT (R476, R531). -/
def execCellPreempt (m : Msg) (cell : Nat) (s : State) : Res :=
  .next (s.tcd m 0x0030 (leBytes 1 cell) false false (effCellPreempt cell) id)

/-! The bytes of an image (R479 to R481). -/

/-- The base of a logical core's region. -/
def Cell.region (c : Cell) (l : Nat) : Nat := c.area.toNat + 2097152 + l * 33554432

/-- The record fields of an entry that the lines written so far have given: those of the lines still to be written taken off
(R167, R481). -/
def Entry.fieldsSoFar (e : Entry) : List Nat :=
  e.fields.zipIdx.map (fun (f, i) => f.toNat - ((e.home ++ e.lines).map (fun h => h.counts.getD i 0)).foldl (· + ·) 0)

/-- An in-flight entry as 256 bytes (R481). -/
def Entry.image (e : Entry) : List Byte :=
  padTo 256 (leBytes 16 e.word.toNat ++ padTo 64 e.block ++ leBytes 4 e.id.toNat ++ leBytes 1 e.stream ++ leBytes 1 e.unit ++
    leBytes 1 (1 + 2 * b2n e.inRetry + 4 * b2n e.faulted + 8 * b2n e.loading) ++ [0] ++ leBytes 8 e.cursorNow ++
    (List.range 8).flatMap (fun i => leBytes 4 (e.fieldsSoFar.getD i 0)) ++ leBytes 8 e.sent ++ leBytes 8 e.acked ++
    leBytes 1 e.outcome ++ leBytes 1 e.cause)

/-- A column slice of a weight set as 128 bytes; the load's parameters at bytes 104 to 110 (log entry 11). -/
def Slice.image (x : Slice) (w : WSet) : List Byte :=
  let el := if x.codes.length ≤ 32 then x.codes.flatMap (fun c => leBytes 2 c.toNat) else x.codes.flatMap (fun c => leBytes 1 c.toNat)
  padTo 128 (padTo 32 x.idx ++ padTo 64 el ++ padTo 4 (padTo 2 x.scales) ++ leBytes 4 x.live.toNat ++ leBytes 1 w.g ++ leBytes 2 w.k0 ++
    leBytes 2 w.kext ++ leBytes 1 w.form ++ leBytes 1 w.wfmt)

/-- ACC_LAYOUTa as a word (R111). -/
def Arr.layoutWord (a : Arr) : Nat :=
  a.h0.m + 16 * b2n a.h0.w40 + 256 * a.h1.m + 4096 * b2n a.h1.w40 +
    ((List.range 16).map (fun t =>
      let x := tabGet {} a.tiles t
      (match x.st with | .free => 0 | .open => 1 | .ended => 2) * 2 ^ (16 + 2 * t) + b2n x.long * 2 ^ (48 + t))).foldl (· + ·) 0

/-- The accumulator state of one array as 64 KiB: its layout word, then for each tile 4,032 bytes: ADDS, prescaler and
LONGSUM, and 24 bytes for each row: cs, emax with its presence, and L32 (log entry 11). -/
def Arr.stateImage (a : Arr) : List Byte :=
  padTo 65536 (leBytes 8 a.layoutWord ++ (List.range 16).flatMap (fun t =>
    let x := tabGet {} a.tiles t
    padTo 4032 (leBytes 2 x.adds ++ leBytes 1 x.presc ++ leBytes 1 (b2n x.long) ++ leBytes 4 0 ++ (List.range 128).flatMap (fun r =>
      padTo 24 (leBytes 8 (tabGet 0 x.cs r).toNat ++
        (match tabGet none x.emax r with | none => leBytes 8 0 | some e => leBytes 4 (sNat 32 e) ++ leBytes 4 1) ++ leBytes 4 x.l32)))))

/-- The word of a slice's image that holds the element of a slot. -/
def Slice.wordOf (x : Slice) (s : Nat) : Nat := (if x.codes.length ≤ 32 then 32 + 2 * s else 32 + s) / 4

/-- Offset of the image of a column slice in a core's region: array, set (0 front, 1 back), DPU (R480). -/
def sliceAt (a f n : Nat) : Nat := 25690112 + 262144 * a + 131072 * f + 128 * n

/-- The poisoned words of a weight set in the region. -/
def WSet.poisonWords (w : WSet) (a f : Nat) : List Nat :=
  w.slices.flatMap (fun (n, x) => ((List.range 64).filter x.pois.getLsbD).map (fun s => sliceAt a f n / 4 + x.wordOf s))

/-- The poisoned 32-bit words of a core's region (R480). -/
def Core.poisonWords (co : Core) : List Nat :=
  co.storePois ++ (List.range 4).flatMap (fun a => (co.arr a).pois.map (· + (20971520 + 1048576 * a) / 4) ++
    (co.arr a).front.poisonWords a 0 ++ (co.arr a).back.poisonWords a 1) ++ co.tregPois.map (· + 25165824 / 4)

/-- The base table of the oldest XCH in flight; without one it is 0 (R321, R481). -/
def Core.xchBases (co : Core) : List Nat :=
  match co.inflight.find? (fun e => wOpc e.word == 0x94) with
  | some e => (List.range 4096).map (fun i => tabGet 0 co.xbase (baseKey e.ord i) - 1)
  | none => List.replicate 4096 0

/-- The bytes with their numbers. -/
def numbered (b : List Byte) : Mem := (b.zipIdx.map (fun (x, i) => (i, x))).filter (fun e => decide (e.2 ≠ 0))

/-- The schedule record (R481). -/
def Core.schedule (co : Core) : List Byte :=
  let head := (List.range 6).flatMap (fun st => leBytes 4 (tabGet 0 co.ptr st)) ++ (List.range 6).flatMap (fun st => leBytes 4 (tabGet 0 co.ord st)) ++
    (List.range 256).flatMap (fun t => leBytes 1 (co.token t)) ++ padTo 16 (leBytes 4 co.flg.toNat) ++
    (List.range 1024).flatMap (fun i => leBytes 4 (tabGet 0 co.mvu i).toNat)
  head ++ (List.range 24576).flatMap (fun i => leBytes 4 (tabGet 0 co.vbuf i).toNat) ++ co.xchBases.flatMap (leBytes 4) ++
    co.table.flatMap Entry.image

/-- The region of a logical core written (R480). -/
def State.saveCore (s : State) (k l : Nat) (co : Core) : State :=
  let b := (s.cell k).region l
  let s := s.hbmPut b 33554432 []
  let s := s.hbmPut b 20971520 co.store
  let s := (List.range 4).foldl (fun s a => s.hbmPut (b + 20971520 + 1048576 * a) 1048576 (co.arr a).ram) s
  let s := s.hbmPut (b + 25165824) 524288 co.treg
  let s := (List.range 4).foldl (fun s a => ([(co.arr a).front, (co.arr a).back].zipIdx).foldl (fun s (w, f) =>
    (List.range 1024).foldl (fun s n =>
      s.hbmPut (b + sliceAt a f n) 128 (numbered ((tabGet {} w.slices n).image w))) s) s) s
  let s := (List.range 4).foldl (fun s a => s.hbmPut (b + 26738688 + 65536 * a) 65536 (numbered (co.arr a).stateImage)) s
  let s := s.hbmPut (b + 27000832) 835584
    (co.poisonWords.foldl (fun m w => tabMod 0 m (w / 8) (fun x => x ||| BitVec.ofNat 8 (2 ^ (w % 8)))) [])
  s.hbmPut (b + 28049408) 262144 (numbered co.schedule)

/-- The header of the image (R479). -/
def State.imageHeader (s : State) (k time : Nat) : List Byte :=
  let c := s.cell k
  let first := match c.faults with | f :: _ => f.code.toNat | [] => 0
  let flags := b2n c.taint + 2 * b2n c.perTensor + 4 * b2n (!c.faults.isEmpty) + 8 * b2n c.imgOvf
  ascii "CTXI" ++ leBytes 2 0x0100 ++ leBytes 1 1 ++ leBytes 1 c.pcause ++ leBytes 1 k ++ leBytes 1 c.members.length ++
    leBytes 6 c.mask.toNat ++ leBytes 8 s.arm.serial ++ padTo 32 c.progHash ++ padTo 32 s.mgmt.idHash ++ leBytes 8 c.step.toNat ++
    leBytes 8 s.cursorBlock.1 ++ leBytes 8 c.tick.toNat ++ leBytes 4 c.held.toNat ++ leBytes 4 flags ++ leBytes 4 c.heighten ++
    leBytes 2 first ++ leBytes 2 0 ++ leBytes 8 c.deltas ++ leBytes 8 time ++ leBytes 112 0 ++ s.epochTable

/-- A core as it is saved: the adds of the rows already written are in the RAM, and each array instruction's cursor is the
first row whose adds are not (R482). -/
def Core.saveAdds (co : Core) (c : Cell) : Core :=
  co.inflight.foldl (fun co e =>
    match e.arrOp with
    | none => co
    | some o =>
      if e.stream ≠ 0 then co
      else
        let n := e.stagesBefore o c.cycle
        let (ds, cf) := e.addsNew co o n
        let (ar, fl) := (co.arr o.arr).addList o (c.keyOf e) ds
        (co.modArr o.arr (fun _ => ar)).modEntry 0 e.ord (fun e =>
          { e with addsDone := max e.addsDone n, cursor := BitVec.ofNat 64 (max e.addsDone n), flags := e.flags ||| cf ||| fl })) co

/-- A core as it is saved: the lines finished before the held tick lie in its store, and the cursor of each CARVE, MODEL and
UPDATE without HOME is its first line not yet written (R152, R167, R482). -/
def Core.saveLines (co : Core) (cyc : Nat) : Core :=
  co.inflight.foldl (fun co e =>
    let (out, rest) := e.lines.partition (fun h => decide (h.at_ ≤ cyc))
    if out.isEmpty then co
    else (co.applyPuts (out.flatMap (·.puts))).modEntry e.stream e.ord (fun e =>
      { e with lines := rest, cursor := e.cursor + BitVec.ofNat 64 out.length })) co

/-- A core whose instructions in flight stand in the context image. -/
def Core.emptied (co : Core) : Core := { co with inflight := [] }

/-- A cell whose save starts with no overflow of its area noted. -/
def Cell.fits (c : Cell) : Cell := { c with imgOvf := false }

/-- A cell saved (R476): PREEMPTED, with its image as it stood at `c`. -/
def Cell.saved (x c : Cell) (cores : List Core) : Cell :=
  { x with ctx := 3, img := some { cores := cores, faults := c.faults, perTensor := c.perTensor, uh := c.uh,
                                   released := c.released, commitDone := c.commitDone, heightQ := c.heightQ } }

/-- PREEMPT_SAVE_DONE: the image of the held cell is written and marked valid, and the cores are parked; an uncorrectable
write to the area makes the image invalid and resets the cell (R476, R487). -/
def execPreemptSaveDone (cell : Fin 16) (bad : Bool) (us : Nat) (s : State) : Res :=
  let c := s.cell cell
  if decide (c.ctx ≠ 2) || !decide (c.run0 = .hold ∧ c.run1 = .hold ∧ c.run2 = .hold) then .next s
  else if bad then .next (s.ctxInvalid cell 2)
  else
    let s := s.modCell cell Cell.fits
    let (t, s) := s.timeNow
    let cores := c.members.map (fun n => (((s.core n).saveAdds c).saveMvp c c.keyOf).saveLines c.cycle)
    let head := s.imageHeader cell t.toNat
    let s := s.hbmPut c.area.toNat 2097152 (numbered head)
    let s := cores.zipIdx.foldl (fun s (co, l) => s.saveCore cell l co) s
    let s := c.members.foldl (fun s n => s.modCore n Core.emptied) s
    let s := (s.setValid cell 2).modCell cell (fun x => x.saved c cores)
    .next ((s.reclockCell cell).log 0x5302 [.cell cell, .val 1 c.pcause, .val 4 c.tick.toNat, .val 4 us])

/-! Resume (R485, R486). -/

/-- The in-flight table of a logical core as it lies in the context area: the valid entries' 256 bytes (R481). -/
def State.imgEntries (s : State) (k l : Nat) : List (List Byte) :=
  ((List.range 80).map (fun i => s.hbmRead ((s.cell k).tableAt l + 256 * i) 256)).filter (fun b => bit (byteAt b 86) 0)

/-- The first condition of R485 that fails, read from the image in the context area. -/
def State.resumeRefuse (s : State) (k : Nat) : Option Nat :=
  let c := s.cell k
  let h := s.hbmRead c.area.toNat 256
  if c.area = 0 ∨ bsub h 0 4 ≠ ascii "CTXI" ∨ bfld h 4 2 ≠ 0x0100 ∨ bfld h 6 1 ≠ 2 then some 1
  else if bsub h 56 32 ≠ padTo 32 s.mgmt.idHash ∨ bfld h 8 1 ≠ k ∨ bfld h 10 6 ≠ c.mask.toNat then some 2
  else if bfld h 16 8 ≠ s.arm.serial ∨ bsub h 24 32 ≠ padTo 32 c.progHash then some 3
  else if bfld h 7 1 = 2 then some 4
  else if c.imgOvf || bit (bfld h 116 4) 3 then some 5
  else if (List.range c.members.length).any (fun l => (s.imgEntries k l).any (fun b => byteAt b 144 == 3)) then some 6
  else none

/-- A resume begins, or is refused with CTX_REFUSED (R485). -/
def State.startResume (s : State) (k : Nat) : State × Option Nat :=
  let s := if (s.cell k).area = 0 then s else s.touchPhys (s.cell k).area.toNat 256 false
  match s.resumeRefuse k with
  | none => ((s.modCell k (fun c => { c with ctx := 4 })).wake, none)
  | some r =>
    ((s.modCell k (fun c => { c with refuse := BitVec.ofNat 16 r })).log 0x5305 [.cell k, .val 1 r], some r)

/-- The cell is PREEMPTED or has been reset (R485). -/
def Cell.mayResume (c : Cell) : Bool := c.exists_ && (decide (c.ctx = 3) || (decide (c.ctx = 0) && c.reset))

/-- CTX_CTRL.RESUME (R485, R488). -/
def execCtxResume (cell : Fin 16) (s : State) : Res :=
  .next (if (s.cell cell).mayResume then (s.startResume cell).1 else s)

/-- CELL_RESUME's effect. -/
def effCellResume (cell : Nat) : Eff := fun _ s =>
  if 16 ≤ cell ∨ !(s.cell cell).mayResume then (s, badFormat)
  else match s.startResume cell with
    | (s, none) => (s, done [])
    | (s, some r) => (s, refused 0x5305 (leBytes 1 cell ++ leBytes 1 r))

/-- CELL_RESUME (R485, R531). -/
def execCellResume (m : Msg) (cell : Nat) (s : State) : Res :=
  .next (s.tcd m 0x0031 (leBytes 1 cell) false false (effCellResume cell) id)

/-- The poisoned words of a bitmap between two word numbers, counted from the first. -/
def bitmapWords (m : Mem) (lo n : Nat) : PSet :=
  m.flatMap (fun e => ((List.range 8).filter (fun i => e.2.getLsbD i && decide (lo ≤ 8 * e.1 + i ∧ 8 * e.1 + i < lo + n))).map
    (fun i => 8 * e.1 + i - lo))

/-- The 32-bit words of a range of HBM that lie in poisoned sectors, counted from its start (R232). -/
def State.sectorWords (s : State) (a n : Nat) : PSet :=
  (s.hbmPois.filter (fun x => decide (a ≤ 64 * x ∧ 64 * x < a + n))).flatMap (fun x => (List.range 16).map (fun i => (64 * x - a) / 4 + i))

/-- A table of numbers read from an image. -/
def imgTab (b : List Byte) (off w n : Nat) : Tab Nat :=
  (List.range n).foldl (fun t i => tabSet 0 t i (bfld b (off + w * i) w)) []

/-- Slots of a slice whose element lies in a poisoned word of its image. -/
def Slice.marked (x : Slice) (pz : Nat → Bool) : BitVec 64 :=
  (List.range 64).foldl (fun m s => if s < x.codes.length && pz (x.wordOf s) then m ||| BitVec.ofNat 64 (2 ^ s) else m) 0

/-- A column slice from the 128 bytes of its image, with its marks; what the bytes repeat stays as it was kept (R480). -/
def Slice.ofImage (x : Slice) (w : WSet) (b : List Byte) (pz : Nat → Bool) : Slice :=
  let y : Slice := if b = x.image w then x
    else
      let wide := decide (x.codes.length ≤ 32)
      { x with idx := b.take 32, scales := bsub b 96 2, live := BitVec.ofNat 32 (bfld b 100 4),
               codes := if wide then (List.range 32).map (fun i => BitVec.ofNat 16 (bfld b (32 + 2 * i) 2))
                 else (List.range 64).map (fun i => BitVec.ofNat 16 (byteAt b (32 + i))) }
  let kept (u : Nat) : Bool := (List.range 64).any (fun s => x.pois.getLsbD s && x.wordOf s == u)
  if (List.range 32).all (fun u => pz u == kept u) then y else { y with pois := y.marked pz }

/-- A weight set from the images of its slices: the parameters of the load from the first one (R480). -/
def WSet.ofImage (w : WSet) (rd : Nat → List Byte) (pz : Nat → Nat → Bool) : WSet :=
  let sl := (List.range 1024).foldl (fun t n => tabSet {} t n ((tabGet {} w.slices n).ofImage w (rd n) (pz n))) []
  let b := rd 0
  { w with slices := sl, loaded := w.loaded || decide (sl ≠ []), g := bfld b 104 1, k0 := bfld b 105 2, kext := bfld b 107 2, form := bfld b 109 1,
           wfmt := bfld b 110 1 }

/-- The layout and tile states of an array from their 64 KiB; what the bytes repeat stays as it was kept (R111, R480). -/
def Arr.ofState (a : Arr) (b : List Byte) : Arr :=
  if b = a.stateImage then a
  else
    let lw := bfld b 0 8
    let tile (t : Nat) : Tile :=
      let o := 8 + 4032 * t
      let row (r : Nat) : Nat := o + 8 + 24 * r
      { st := match bits lw (17 + 2 * t) (16 + 2 * t) with | 1 => .open | 2 => .ended | _ => .free
        adds := bfld b o 2, presc := bfld b (o + 2) 1, long := bit lw (48 + t), l32 := bfld b (row 0 + 16) 4
        cs := (List.range 128).foldl (fun c r => tabSet 0 c r (BitVec.ofNat 40 (bfld b (row r) 8))) []
        emax := (List.range 128).foldl (fun c r =>
          tabSet none c r (if bfld b (row r + 12) 4 = 0 then none else some (BitVec.ofNat 32 (bfld b (row r + 8) 4)).toInt)) [] }
    { a with h0 := ⟨bits lw 3 0, bit lw 4⟩, h1 := ⟨bits lw 11 8, bit lw 12⟩,
             tiles := (List.range 16).foldl (fun c t => tabSet {} c t (tile t)) [] }

/-- What the in-flight table gives of an entry: flags, cursor and the remote fields (R481). -/
def Entry.fromTable (e : Entry) (b : List Byte) : Entry :=
  { e with faulted := bit (byteAt b 86) 2, inRetry := bit (byteAt b 86) 1, loading := bit (byteAt b 86) 3, sent := bfld b 128 8, acked := bfld b 136 8,
           outcome := byteAt b 144, cause := byteAt b 145,
           cursor := if bfld b 88 8 = e.cursorNow then e.cursor else BitVec.ofNat 64 (bfld b 88 8) }

/-- The bytes of the table name an entry: its word, logical id and stream. -/
def Entry.named (e : Entry) (b : List Byte) : Bool :=
  bfld b 0 16 == e.word.toNat && bfld b 80 4 == e.id.toNat && byteAt b 84 == e.stream

/-- An entry that only the table holds: its instruction starts again from its word, its block and its cursor (R481, R482). -/
def Entry.ofTable (b : List Byte) (ord : Nat) : Entry :=
  let e : Entry := { word := BitVec.ofNat 128 (bfld b 0 16), block := bsub b 16 64, id := BitVec.ofNat 32 (bfld b 80 4), stream := byteAt b 84,
                     unit := byteAt b 85, fields := (List.range 8).map (fun i => BitVec.ofNat 32 (bfld b (96 + 4 * i) 4)) }
  { e.fromTable b with ord := ord - (ord - bfld b 80 4 % 2 ^ 23) % 2 ^ 23, grp := ord - (ord - bfld b 80 4 % 2 ^ 23) % 2 ^ 23, doneCycle := 0 }

/-- The instructions in flight of a core as its table gives them: those that were kept, brought up to date, and those that only the table
holds. -/
def Core.withTable (co : Core) (tb : List (List Byte)) : Core :=
  let kept := co.inflight.map (fun e => match tb.find? e.named with | some b => e.fromTable b | none => e)
  let new := tb.filter (fun b => !(co.inflight.any (fun e => e.named b)))
  { co with inflight := kept ++ new.map (fun b => Entry.ofTable b (tabGet 0 co.ord (byteAt b 84))) }

/-- A core restored from its region; what the image gives no place to is as it was kept (R480, R481, R486; log entry 11). -/
def State.loadCore (s : State) (k l : Nat) (kept : Core) : Core :=
  let b := (s.cell k).region l
  let bits := memSlice s.hbm (b + 27000832) 835584
  let marks (at_ words : Nat) : PSet := (bitmapWords bits (at_ / 4) words).foldl psAdd (s.sectorWords (b + at_) (4 * words))
  let sch := s.hbmRead (b + 28049408) 119104
  let co := { kept with
    store := memSlice s.hbm b 20971520,
    storePois := marks 0 5242880,
    treg := memSlice s.hbm (b + 25165824) 524288,
    tregPois := marks 25165824 131072,
    ptr := imgTab sch 0 4 6,
    ord := imgTab sch 24 4 6,
    tokens := (imgTab sch 48 1 256).filter (fun e => decide (e.1 ≠ 0)),
    flg := BitVec.ofNat 12 (bfld sch 304 4),
    mvu := (List.range 1024).foldl (fun t i => tabSet 0 t i (BitVec.ofNat 32 (bfld sch (320 + 4 * i) 4))) [],
    vbuf := (List.range 24576).foldl (fun t i => tabSet 0 t i (BitVec.ofNat 32 (bfld sch (4416 + 4 * i) 4))) [],
    xlCache := [] }
  let co := co.withTable (s.imgEntries k l)
  let co := match co.inflight.find? (fun e => wOpc e.word == 0x94) with
    | some e => { co with xbase := (List.range 4096).foldl (fun t i =>
        let v := bfld sch (102720 + 4 * i) 4
        if v = tabGet 0 kept.xbase (baseKey e.ord i) - 1 then t else tabSet 0 t (baseKey e.ord i) (v + 1)) kept.xbase }
    | none => co
  (List.range 4).foldl (fun co a => co.modArr a (fun ar =>
    let set (w : WSet) (f : Nat) : WSet :=
      w.ofImage (fun n => s.hbmRead (b + sliceAt a f n) 128) (fun n u => psHas (marks (sliceAt a f n) 32) u)
    { ar.ofState (s.hbmRead (b + 26738688 + 65536 * a) 65536) with
      front := set ar.front 0, back := set ar.back 1
      ram := memSlice s.hbm (b + 20971520 + 1048576 * a) 1048576
      pois := marks (20971520 + 1048576 * a) 262144 })) co

/-- The epochs of an image's header in force (R462). -/
def State.imageEpochs (s : State) (b : List Byte) : State :=
  let names := (0 :: (s.cfg.rdvdefs.map (fun r => r.1)).filter (fun n => n ≠ 0)).take 64
  (names.zipIdx).foldl (fun s (n, i) =>
    let ep := bfld b (8 * i + 4) 4
    if bfld b (8 * i) 2 = n ∧ 0 < ep then s.modRdv n (fun r => { r with epoch := ep }) else s) s

/-- What an island keeps of its own when a core's context is loaded: clock plan, droop, throttle, health and survey state. -/
def Core.withLive (co live : Core) : Core :=
  { co with planFreq := live.planFreq, planVolt := live.planVolt, vmax := live.vmax, replan := live.replan,
            droop := live.droop, droopFreq := live.droopFreq, throttle := live.throttle, slow := live.slow,
            halved := live.halved, hot := live.hot, temp := live.temp, suspect := live.suspect,
            retry60 := live.retry60, mism := live.mism, calCause := live.calCause, survDue := live.survDue,
            survHist := live.survHist, roBase := live.roBase, suspCount := live.suspCount, suspLast := live.suspLast }

/-- A cell as its context image's header gives it back (R482, R484). -/
def Cell.ofImage (c : Cell) (h : List Byte) (im : CtxImg) : Cell :=
  let fl := bfld h 116 4
  { c with
    step := BitVec.ofNat 64 (bfld h 88 8), tick := BitVec.ofNat 48 (bfld h 104 8), held := BitVec.ofNat 32 (bfld h 112 4),
    taint := c.taint || bit fl 0, perTensor := bit fl 1, heighten := bfld h 120 4, deltas := bfld h 128 8, uh := im.uh,
    released := im.released, commitDone := im.commitDone, heightQ := im.heightQ, ctx := 0, faults := [], img := none,
    run0 := .hold, run1 := .hold, run2 := .hold, reset := false, imgOvf := false,
    holds := { c.holds with fault := false, hazard := false }, frozen := none }

/-- The instructions of a core that wait on a resolved fault start again. -/
def State.rearmAll (s : State) (n : Nat) : State :=
  ((s.core n).inflight.filter (fun e => e.outcome == 2 && !e.faulted)).foldl (fun s e => s.rearm n e) s

/-! Instructions that only the bytes of an image hold (R482, R486). -/

/-- The plan of the instruction or group at the head of a stream that runs on a unit of the core, as far as readiness depends on it;
a DMA-stream instruction takes its place in the engine and, where it bounces, the buffer (R94, R150, R207, R313, R351). -/
def State.planOf (s : State) (n : Nat) (ws : List (BitVec 128)) (x : IssueCtx) : Except Refuse (List Plan) :=
  let one (p : Except Refuse Plan) : Except Refuse (List Plan) := p.map (fun q => [q])
  let w := ws.headD 0
  let opc := wOpc w
  let dchk := s.cfg.dchk
  if isProduct opc then planProduct ws x
  else match opc with
  | 0x18 => one (planDrain dchk w x)
  | 0xB1 => one (s.planPointOf (s.pointChoice x.c n) w x)
  | 0x20 => one (planMvp w [] x)
  | 0x30 => one (planSpmsp w x)
  | 0x31 => one (planMerge w x)
  | 0x32 => one (planSort w x)
  | 0x33 => one (planTopkidx w x)
  | 0x38 => one (planPack s w x)
  | 0x39 => one (planUnpack s w x)
  | 0x3A => one (planCarve w x)
  | 0x3B => one (planModel w x)
  | 0x3C => one (planMstat w x)
  | 0x5A => one (planReduce false dchk w x)
  | 0x5B => one (planReduce true dchk w x)
  | 0x5C => one (planMaskgen w x)
  | 0x5D => one (planCvt dchk w x)
  | 0x5E => one (planSr dchk w x)
  | 0x5F => one (planSmax dchk w x)
  | 0x68 => one (planUpdate w x)
  | 0x69 => one (planGnorm dchk w x)
  | _ =>
    if x.st = 3 ∧ 0x40 ≤ opc ∧ opc ≤ 0x58 then one (planElem dchk w x)
    else if x.st = 3 ∧ 0x60 ≤ opc ∧ opc ≤ 0x63 then one (planOnline w x)
    else if x.st = 4 then
      let b := decide (s.bounceExt x.co x.c x.l w ≠ 0)
      .ok [{ upd := fun co => { co with bounceBusy := if b then some x.ord else co.bounceBusy } }]
    else one (planNop x)

/-- The plan of an instruction of a saved table, from its word. -/
def State.planSaved (s : State) (w : BitVec 128) (x : IssueCtx) : Except Refuse Plan :=
  match wOpc w with
  | 0x80 => planDma s w x
  | 0x81 => planCopy w x
  | 0x82 => planXpose w x
  | 0x83 => planPermute s w x
  | 0x84 => planIndex false w x
  | 0x85 => planIndex true w x
  | 0x90 => planPutGet false w x
  | 0x91 => planPutGet true w x
  | 0x92 => planRatom w x
  | 0x93 => planRadd w x
  | 0x94 => planXch w x
  | 0xA1 => planSignal s w x
  | 0xA2 => planRdv s w x
  | 0xB0 => planSeal s w x
  | _ => (s.planOf x.n [w] x).map (fun ps => ps.headD {})

/-- An instruction that only the in-flight table held is planned again from its word and its saved block, and goes on from its cursor: rows
whose adds are written and lines already written are left out (R482, R486; log entry 11). -/
def State.rebuild (s : State) (k n : Nat) (e : Entry) : State :=
  let c := s.cell k
  let co := (blockRead e.word).foldl (fun (co : Core) r => co.write r.1 (e.block.take r.2) false) (s.core n)
  let x : IssueCtx := { n := n, k := k, l := c.lcore n, st := e.stream, co := co, c := c, ord := e.ord, cyc := c.cycle }
  let cur := e.cursor.toNat
  match s.planSaved e.word x with
  | .error _ => s
  | .ok p =>
    let f : Entry := { p.entry with
      word := e.word, id := e.id, stream := e.stream, ord := e.ord, grp := e.grp, issueTick := c.tick.toNat, cursor := e.cursor, sent := e.sent,
      acked := e.acked, outcome := e.outcome, cause := e.cause, faulted := e.faulted || decide (e.stream = 4),
      addsDone := if p.entry.arrOp.isSome then cur else 0, home := p.entry.home.drop cur, lines := p.entry.lines.drop cur,
      done := p.entry.done || (wOpc e.word == 0xA2 && e.cursor.getLsbD 63) }
    s.modCore n (fun co => p.upd (co.modEntry e.stream e.ord (fun _ => f)))

/-- The instructions of a restored core that its kept image does not hold. -/
def State.rebuildAll (s : State) (k n : Nat) (kept : Core) : State :=
  ((s.core n).inflight.filter (fun e => !(kept.inflight.any (fun q => q.stream == e.stream && q.ord == e.ord)))).foldl
    (fun s e => s.rebuild k n e) s

/-- A remote operation of an image whose outcome has not come (R485). -/
def Entry.outcomeOpen (e : Entry) : Bool :=
  e.stream == 4 && e.outcome == 0 && !e.done && decide (0x90 ≤ wOpc e.word ∧ wOpc e.word ≤ 0x94) && (!e.dests.isEmpty || decide (e.acked < e.sent))

/-- RESUME_DONE: every outcome of an injected request is in; the image in the context area is restored and left with VALID 0, and its
instructions in flight go on from their cursors (R223, R229, R482, R484 to R486). -/
def execResumeDone (cell : Fin 16) (s : State) : Res :=
  let c := s.cell cell
  if c.ctx ≠ 4 then .next s
  else
    let im := c.img.getD {}
    let cores := (List.range c.members.length).map (fun l => s.loadCore cell l (im.cores.getD l {}))
    if cores.any (fun co => co.inflight.any Entry.outcomeOpen) then .next s
    else
      let s := s.readRanges ((c.area.toNat, 2097152) :: (List.range c.members.length).map (fun l => (c.region l, 33554432)))
      let h := s.hbmRead c.area.toNat 768
      let s := c.members.zipIdx.foldl (fun s (n, l) =>
        s.setCore n ((s.loadCore cell l (im.cores.getD l {})).withLive (s.core n))) s
      let s := s.imageEpochs (bsub h 256 512)
      let s := s.modCell cell (fun c => c.ofImage h im)
      let s := c.members.zipIdx.foldl (fun s (n, l) => s.rebuildAll cell n (im.cores.getD l {})) s
      let s := (s.setValid cell 0).reclockCell cell
      let s := s.log 0x5304 [.cell cell, .val 4 (bfld h 104 8), .val 4 (bfld h 88 8)]
      .next ((c.members.foldl State.rearmAll s).resumeAll cell)

/-! CELL_RESET (R487, R531, R547). -/

/-- CELL_RESET's effect. -/
def effCellReset (cell : Nat) : Eff := fun _ s =>
  if 16 ≤ cell ∨ !(s.cell cell).exists_ then (s, badFormat) else (s.commandReset cell, done [])

/-- CELL_RESET (R531). -/
def execCellReset (m : Msg) (cell : Nat) (s : State) : Res :=
  .next (s.tcd m 0x0032 (leBytes 1 cell) false false (effCellReset cell) id)

end Sys2Proof.Machine
end

