-- ==== Sys2Proof/Machine/Plinths.lean ====
section
/-! DEFINITION. What the Plinths do of themselves: the patrol, flushes, repair and retirement, temporary lines, the
regulators, and the discarding of cached translations (R371 to R381, R386). -/
namespace Sys2Proof.Machine
open Sys2Proof

/-- The stack answers: it is trained and not in self-refresh (R363, R552). -/
def Plinth.up (p : Plinth) : Bool := p.trained && !p.selfRef

/-- The stack whose media hold an error. -/
def State.errStack (s : State) (e : SectorErr) : Nat := (s.cfg.stackOf e.addr).1

/-- A patrol of one stack meets every error of its media, those that have come since among them (R371). -/
def State.patrol (s : State) (pl : Nat) (found : List SectorErr) : State :=
  if (s.plinth pl).up then (s.decay found).meet 1 (fun e => s.errStack e == pl) else s

/-- PATROL_TIMER: the daily patrol of a stack (R371). -/
def execPatrolTimer (pl : Fin 20) (found : List SectorErr) (s : State) : Res := .next (s.patrol pl.val found)

/-- PLC_SCRUB: a patrol that PLC_CMD asks for, with what it finds, runs and ends (R371, R388; log entry 10). -/
def execPlcScrub (pl : Fin 20) (found : List SectorErr) (s : State) : Res :=
  .next ((s.patrol pl.val found).modPlinth pl.val (fun p => { p with scrubbing := p.scrubbing && !p.up }))

/-- Every dirty line written back; the lines stay valid (R378). The flush is in progress until the regulator has served its
write-backs (R388). -/
def Plinth.flush (p : Plinth) : Plinth :=
  let ds := p.slice.filter (fun l => l.dirty)
  { p with
    queue := p.queue ++ ds.map (fun l => { part := l.part, cost := 256, flush := true })
    slice := p.slice.map (fun l => { l with dirty := false })
    flushing := p.flushing || !ds.isEmpty }

/-- PLC_FLUSH: write back every line that is dirty when the command arrives (R378). -/
def execPlcFlush (pl : Fin 20) (s : State) : Res :=
  .next (if (s.plinth pl.val).up then s.modPlinth pl.val Plinth.flush else s)

/-- Key of a bank in the count of spare rows. -/
def bankKey (chan bank : Nat) : Nat := 65536 * chan + bank

/-- A copy inside a stack meets the errors of the sectors it copies, and is in progress for at most some Plinth cycles (R372, R373,
R388). -/
def State.copyMedia (s : State) (pl bound : Nat) (p : Nat → Bool) : State :=
  (s.meet 2 (fun e => s.errStack e == pl && p (s.cfg.stackOf e.addr).2)).modPlinth pl (fun x => { x with copyLeft := bound })

/-- ROW_REPAIR: the row is copied into a spare row of its bank, corrected or poisoned, and redirected to it, within 20 us or 32,000
Plinth cycles (R372). A bank without one has no repair; the firmware then retires the frame (R373, R595). -/
def execRowRepair (pl : Fin 20) (chan bank row : Nat) (s : State) : Res :=
  let p := s.plinth pl.val
  let used := tabGet 0 p.bankSpares (bankKey chan bank)
  if p.up && decide (chan < 32) && decide (used < Config.spareRows) then
    let s := (s.copyMedia pl.val 32000 (fun sa => Config.rowOf sa == (chan, (bank, row)))).modPlinth pl.val (fun p => { p with
      repaired := (p.repaired.filter (fun r => !(r == (chan, (bank, row))))) ++ [(chan, (bank, row))],
      wants := p.wants.filter (fun r => !(r == (chan, (bank, row)))),
      rowCe := p.rowCe.filter (fun e => !(e.1 == (chan, (bank, row)))),
      bankSpares := tabSet 0 p.bankSpares (bankKey chan bank) (used + 1) })
    .next (s.log 0x2102 [.stack pl.val, .val 4 chan, .val 4 bank, .val 4 row])
  else .next s

/-- FRAME_RETIRE: a 2 MiB stack frame is copied to one of 64 spare frames within 50 us, or 80,000 Plinth cycles; when all are in use
the request fails with MEM_SPARE_OUT and the frame stays in service (R373). -/
def execFrameRetire (pl : Fin 20) (frame : Nat) (s : State) : Res :=
  let p := s.plinth pl.val
  if p.up && decide (frame < 36864) then
    if 64 ≤ p.retired.length then .next (s.log 0x2104 [.stack pl.val, .val 4 frame])
    else
      let s := (s.copyMedia pl.val 80000 (fun sa => sa / 2097152 == frame)).modPlinth pl.val (fun p => { p with retired := p.retired ++ [frame] })
      .next (s.log 0x2103 [.stack pl.val, .val 4 frame, .val 4 (63 - p.retired.length)])
  else .next s

/-- NOALLOC_LINE_RELEASE: a line that an atomic allocated in a NOALLOC partition is written back and released (R375). -/
def execNoallocLineRelease (pl : Fin 20) (line : Nat) (s : State) : Res :=
  let p := s.plinth pl.val
  match p.slice.find? (fun l => l.addr == line && l.temp) with
  | some l =>
    let p := if l.dirty then p.ask l.part 256 else p
    .next (s.modPlinth pl.val (fun _ => { p with slice := p.slice.filter (fun x => !(x.addr == line)) }))
  | none => .next s

/-! Regulators (R380, R381). Buckets hold 32nds of a byte: one Plinth cycle of 1 GB/s over 20 stacks is 1/32 byte. -/

/-- Depth of the buckets of a partition. -/
def PartCfg.depth (c : PartCfg) : Nat := c.burst * 1024 * 32

/-- One cycle's filling of every bucket (R380). -/
def Plinth.refill (p : Plinth) (c : Cfg) : Plinth :=
  (List.range 16).foldl (fun p i =>
    let pc := c.part i
    { p with bktG := tabSet 0 p.bktG i (Nat.min (tabGet 0 p.bktG i + pc.guar) pc.depth),
             bktC := tabSet 0 p.bktC i (Nat.min (tabGet 0 p.bktC i + pc.cap) pc.depth) }) p

/-- The debit of a served request, and its charge to PLC_BP.SERVED (R380, R388). -/
def Plinth.serve (p : Plinth) (r : MemReq) : Plinth :=
  let b := tabGet 0 p.servedB r.part + r.cost
  { p with bktG := tabSet 0 p.bktG r.part (tabGet 0 p.bktG r.part - 32 * r.cost),
           bktC := tabSet 0 p.bktC r.part (tabGet 0 p.bktC r.part - 32 * r.cost),
           served := tabSet 0 p.served r.part (tabGet 0 p.served r.part + BitVec.ofNat 32 (b / 2 ^ 20)),
           servedB := tabSet 0 p.servedB r.part (b % 2 ^ 20) }

/-- Requests whose bucket G holds their cost are served, oldest first; the others stay (R380). -/
def Plinth.serveG (p : Plinth) : Plinth :=
  p.queue.foldl (fun (p : Plinth) (r : MemReq) =>
    if 32 * r.cost ≤ tabGet 0 p.bktG r.part then p.serve r else { p with queue := p.queue ++ [r] }) { p with queue := [] }

/-- The oldest waiting request of a partition whose bucket C holds its cost. -/
def Plinth.nextC (p : Plinth) (i : Nat) : Option Nat :=
  findIdx? (fun (r : MemReq) => r.part == i && decide (32 * r.cost ≤ tabGet 0 p.bktC i)) p.queue

/-- Requests whose bucket C holds their cost are served, partitions round-robin (R380). -/
def Plinth.serveC : Nat → Plinth → Plinth
  | 0, p => p
  | n + 1, p =>
    let turn := (List.range 16).filterMap (fun k =>
      let i := (p.rr + k) % 16
      (p.nextC i).map (fun j => (i, j)))
    match turn with
    | [] => p
    | (i, j) :: _ =>
      match p.queue[j]? with
      | none => p
      | some r =>
        Plinth.serveC n { p.serve r with queue := p.queue.eraseIdx j, rr := (i + 1) % 16 }

/-- What waits is waiting on bucket C; an interval of 1 us (1,600 cycles) in which a partition waited counts once (R388). -/
def Plinth.noteWaits (p : Plinth) : Plinth :=
  let w := p.queue.foldl (fun w (r : MemReq) => psAdd w r.part) p.waited
  if 1599 ≤ p.cyc then
    { p with cyc := 0, waited := [],
             capped := w.foldl (fun t i => tabSet 0 t i (satAdd (tabGet 0 t i) 1)) p.capped }
  else { p with cyc := p.cyc + 1, waited := w }

/-- A copy in progress comes nearer to its bound, or has ended (R372, R373). -/
def Plinth.copyOn (p : Plinth) (ended : Bool) : Plinth := { p with copyLeft := if ended then 0 else p.copyLeft - 1 }

/-- One Plinth cycle of a regulator. -/
def Plinth.regulate (p : Plinth) (c : Cfg) : Plinth :=
  let p := (p.refill c).serveG
  let p := (Plinth.serveC p.queue.length p).noteWaits
  { p with flushing := p.queue.any (fun r => r.flush) }

/-- REGULATOR_SERVE: one Plinth cycle of the regulators of a stack (R380); whether a copy in progress ends with it, before its bound,
is a free value (log entry 10). -/
def execRegulatorServe (pl : Fin 20) (s : State) : Res :=
  let p := s.plinth pl.val
  if !p.up then .next s
  else
    let s := if p.copyLeft = 0 then s
      else { s with free := s.free + 1 }.modPlinth pl.val (fun x => x.copyOn (decide (Config.draw s.free % 2 = 0)))
    .next (s.modPlinth pl.val (fun p => p.regulate s.cfg))

/-- XL_INVAL: every cached translation of a core is discarded (R386, R389). -/
def Core.xlDiscard (co : Core) : Core := { co with xlCache := [] }

/-- XL_INVAL written in XL_CTRL of a core (R386, R389). -/
def execXlInval (core : Fin 48) (s : State) : Res := .next (s.modCore core.val Core.xlDiscard)

end Sys2Proof.Machine
end

