-- ==== Sys2Proof/Machine/Sections.lean ====
section
/-! DEFINITION. The armature bit-stream: header, section table, items, and what verification asks of the contents of every
section (R34 to R41, R239, R244, R257, R261 to R263, R276, R352, R382, R387, R417, R440, R446, R447, R495, R496, R521,
R626). -/
namespace Sys2Proof.Machine
open Sys2Proof

/-! Bytes. -/

/-- Every byte is zero. -/
def allZero (b : List Byte) : Bool := b.all (fun x => x == 0)

/-- Bytes a to a + n - 1 are zero. -/
def zeroAt (b : List Byte) (a n : Nat) : Bool := allZero ((b.drop a).take n)

/-- 2 MiB. -/
def mib2 : Nat := 2097152

/-- A range that is a multiple of 2 MiB in base and length and lies within mappable local HBM (R364). -/
def rangeMib (a n : Nat) : Bool := decide (a % mib2 = 0 ∧ n % mib2 = 0 ∧ a + n ≤ hbmEnd)

/-- Two ranges overlap. -/
def meetsRange (a b : Nat × Nat) : Bool := decide (0 < a.2 ∧ 0 < b.2 ∧ a.1 < b.1 + b.2 ∧ b.1 < a.1 + a.2)

/-- No two of the ranges overlap. -/
def disjointAll : List (Nat × Nat) → Bool
  | [] => true
  | r :: t => t.all (fun x => !(meetsRange r x)) && disjointAll t

/-- No number stands twice in a list. -/
def noTwice : List Nat → Bool
  | [] => true
  | x :: t => !(t.contains x) && noTwice t

/-! Items (R38, R39). -/

/-- An item: TYPE and VALUE. -/
abbrev Item := Nat × List Byte

/-- The items of a section body; none where the layout of R38 is broken. The first argument bounds their number. -/
def itemsFrom : Nat → List Byte → Option (List Item)
  | 0, b => if allZero b then some [] else none
  | n + 1, b =>
    if allZero b then some []
    else if b.length < 8 then none
    else
      let vlen := bfld b 4 4
      let next := alignUp (8 + vlen) 8
      if bfld b 2 2 ≠ 0 ∨ b.length < 8 + vlen then none
      else if !(zeroAt b (8 + vlen) (next - (8 + vlen))) then none
      else (itemsFrom n (b.drop next)).map (fun t => (bfld b 0 2, (b.drop 8).take vlen) :: t)

/-- The items of a section body. -/
def itemsOf (b : List Byte) : Option (List Item) := itemsFrom (b.length / 8 + 1) b

/-- An item type that a section kind recognises: VLEN where it is fixed, and how many items of the type a section may hold
(R39 and the owning chapters). -/
def itemRule (kind typ : Nat) : Option (Option Nat × Nat) :=
  let many : Nat := 2 ^ 32
  match kind, typ with
  | 0x0001, 0x8001 => some (some 24, 16)
  | 0x0002, 0x8201 => some (some 8, 1)
  | 0x0002, 0x8202 => some (some 8, 1)
  | 0x0002, 0x8203 => some (some 8, 1)
  | 0x0003, 0x8B01 => some (some 8, 1)
  | 0x0004, 0x8301 => some (some 16, 1)
  | 0x0004, 0x8302 => some (some 16, many)
  | 0x0004, 0x8303 => some (some 24, 64)
  | 0x0005, 0x8401 => some (some 16, 16)
  | 0x0005, 0x8402 => some (some 8, 1)
  | 0x0006, 0x8701 => some (some 16, 1)
  | 0x0006, 0x8702 => some (some 8, 1)
  | 0x0006, 0x8703 => some (some 40, 8)
  | 0x0006, 0x8704 => some (some 24, 64)
  | 0x0006, 0x8705 => some (some 16, 1)
  | 0x0006, 0x8706 => some (some 16, 1)
  | 0x0006, 0x8707 => some (some 136, 64)
  | 0x0007, 0x8801 => some (some 72, 64)
  | 0x0008, 0x8601 => some (some 16, 8)
  | 0x0008, 0x8602 => some (some 52, 8)
  | 0x0008, 0x8603 => some (some 40, 64)
  | 0x0008, 0x8604 => some (some 16, 8)
  | 0x0009, 0x8A01 => some (some 48, 3)
  | 0x0009, 0x8A02 => some (some 8, 1)
  | 0x0009, 0x8A03 => some (some 32, 16)
  | 0x0009, 0x8A04 => some (some 32, 64)
  | 0x0009, 0x8A05 => some (some 48, 8)
  | 0x0009, 0x8A06 => some (some 8, 1)
  | 0x0009, 0x8A07 => some (some 8, 1)
  | 0x000A, 0x8501 => some (some 16, 1)
  | 0x000A, 0x8502 => some (some 8, 1)
  | 0x000A, 0x8503 => some (some 24, 16)
  | 0x000A, 0x8504 => some (some 32, 16)
  | 0x000A, 0x8505 => some (some 24, 17)
  | 0x000A, 0x8506 => some (some 24, 64)
  | 0x000A, 0x8507 => some (some 8, 1)
  | 0x0101, 0x8101 => some (some 8, 1)
  | 0x0101, 0x8102 => some (none, many)
  | 0x0101, 0x8103 => some (some 8, many)
  | 0x0102, 0x8111 => some (none, many)
  | 0x0103, 0x8021 => some (some 4, 1)
  | 0x0103, 0x8022 => some (some 4, 1)
  | 0x0103, 0x8023 => some (some 4, 1)
  | 0x0103, 0x8024 => some (some 8, 1)
  | 0x0103, 0x8025 => some (some 8, 1)
  | 0x0103, 0x8026 => some (none, 1)
  | 0x0103, 0x8027 => some (some 8, 1)
  | 0x0104, 0x8901 => some (some 8, 1)
  | 0x0104, 0x8902 => some (some 24, 32)
  | 0x0104, 0x8903 => some (some 16, 1)
  | 0x0104, 0x8904 => some (some 8, 1)
  | 0x0104, 0x8905 => some (some 16, 1)
  | _, _ => none

/-- The item type has CRITICAL (R38). -/
def critical (typ : Nat) : Bool := bit typ 15

/-- The items of a section have the form that R38 and R39 ask for. -/
def itemsForm (kind : Nat) (body : List Byte) : Bool :=
  match itemsOf body with
  | none => false
  | some is =>
    is.all (fun (i : Item) =>
      match itemRule kind i.1 with
      | none => !(critical i.1) && decide ((is.filter (fun (j : Item) => j.1 == i.1)).length ≤ 1)
      | some (vlen, most) =>
        (match vlen with | some n => decide (i.2.length = n) | none => true) &&
        decide ((is.filter (fun (j : Item) => j.1 == i.1)).length ≤ most))

/-- The recognised items of a section. -/
def itemsKnown (kind : Nat) (body : List Byte) : List Item :=
  ((itemsOf body).getD []).filter (fun (i : Item) => (itemRule kind i.1).isSome)

/-- The items of a section that are skipped and counted (R39). -/
def itemsSkipped (kind : Nat) (body : List Byte) : Nat :=
  (((itemsOf body).getD []).filter (fun (i : Item) => (itemRule kind i.1).isNone)).length

/-! Sections (R36, R37). -/

/-- A section by KIND and INSTANCE. -/
def sec? (secs : List SecRec) (kind inst : Nat) : Option SecRec := secs.find? (fun x => x.kind == kind && x.inst == inst)

/-- A section is present. -/
def hasSec (secs : List SecRec) (kind inst : Nat) : Bool := (sec? secs kind inst).isSome

/-- The recognised items of a section; none where it is absent. -/
def secItems (secs : List SecRec) (kind inst : Nat) : List Item :=
  match sec? secs kind inst with | some x => itemsKnown kind x.body | none => []

/-- The values of the items of a type, in their order. -/
def valsOf (is : List Item) (typ : Nat) : List (List Byte) := (is.filter (fun (i : Item) => i.1 == typ)).map (fun i => i.2)

/-- The value of the one item of a type. -/
def val? (is : List Item) (typ : Nat) : Option (List Byte) := (valsOf is typ).head?

/-- INSTANCE of a device-scope section. -/
def devInst : Nat := 0xFFFF

/-- Scope of a section kind: true for cell, false for device, none for a kind that R37 does not list. -/
def kindScope (kind : Nat) : Option Bool :=
  if kind = 0x0002 ∨ kind = 0x0003 ∨ kind = 0x0101 ∨ kind = 0x0102 then some true
  else if kind = 0x0001 ∨ (0x0004 ≤ kind ∧ kind ≤ 0x000A) ∨ kind = 0x0103 ∨ kind = 0x0104 then some false
  else none

/-- The section kind is swappable (R37). -/
def swappable (kind : Nat) : Bool := bit kind 8

/-! Header (R34, R48). -/

/-- LENGTH of a header. -/
def hdrLength (h : List Byte) : Nat := bfld h 8 8
/-- DELTA of a header. -/
def hdrDelta (h : List Byte) : Bool := bit (bfld h 36 4) 0
/-- PERSIST of a header. -/
def hdrPersist (h : List Byte) : Bool := bit (bfld h 36 4) 1
/-- SERIAL of a header. -/
def hdrSerial (h : List Byte) : Nat := bfld h 80 8
/-- BASE_SERIAL of a header. -/
def hdrBase (h : List Byte) : Nat := bfld h 88 8

/-- A LENGTH that R34 permits. -/
def lengthOk (n : Nat) : Bool := decide (n % 64 = 0 ∧ 320 ≤ n ∧ n ≤ 268369920)

/-- The end of the last section that the table names (R34). -/
def sectionsEnd (raw : List Byte) : Nat :=
  ((List.range (bfld raw 34 2)).map (fun i => bfld raw (256 + 32 * i + 8) 8 + bfld raw (256 + 32 * i + 16) 8)).foldl max 0

/-- Check 1, FORMAT: the total received is LENGTH + 384, and LENGTH the end of the last section (R34, R48). -/
def checkFormat (h : List Byte) (total : Nat) : Bool :=
  decide (256 ≤ total ∧ bfld h 0 4 = 0x41524D54 ∧ bfld h 4 2 = 0x0100 ∧ bfld h 6 2 = 256 ∧ total = hdrLength h + 384 ∧
    1 ≤ bfld h 34 2 ∧ bfld h 34 2 ≤ 64 ∧ bfld h 36 4 < 4 ∧ hdrSerial h ≠ 0 ∧ hdrLength h = sectionsEnd h) &&
  lengthOk (hdrLength h) && (hdrDelta h || decide (hdrBase h = 0)) && zeroAt h 96 160

/-- Check 2, TARGET. -/
def checkTarget (h : List Byte) : Bool :=
  decide (bsub h 16 16 = ascii "FNT-T48-1440-L" ++ [0, 0] ∧ bfld h 32 2 = 0x00B0)

/-! Section table (R36). -/

/-- One entry of the section table: KIND, INSTANCE, OFFSET, SLEN. -/
structure TabEnt where
  /-- KIND. -/
  kind : Nat := 0
  /-- INSTANCE. -/
  inst : Nat := 0
  /-- OFFSET. -/
  off : Nat := 0
  /-- SLEN. -/
  len : Nat := 0
  deriving DecidableEq, Repr

/-- Entry i of the table. -/
def tabEnt (raw : List Byte) (i : Nat) : TabEnt :=
  let e := (raw.drop (256 + 32 * i)).take 32
  ⟨bfld e 0 2, bfld e 2 2, bfld e 8 8, bfld e 16 8⟩

/-- The entries of the table. -/
def tabEnts (raw : List Byte) : List TabEnt := (List.range (bfld raw 34 2)).map (tabEnt raw)

/-- An entry stands where R36 allows it: its reserved bytes zero, its kind known, its instance in scope, its range inside. -/
def tabEntOk (raw : List Byte) (i : Nat) : Bool :=
  let e := (raw.drop (256 + 32 * i)).take 32
  let t := tabEnt raw i
  zeroAt e 4 4 && zeroAt e 24 8 &&
  (match kindScope t.kind with
   | some true => decide (t.inst ≤ 15)
   | some false => decide (t.inst = devInst)
   | none => false) &&
  decide (t.off % 64 = 0 ∧ 8 ≤ t.len ∧ 256 + 32 * bfld raw 34 2 ≤ t.off ∧ t.off + t.len ≤ hdrLength raw)

/-- The entries in the order of their offsets. -/
def sortEnts (es : List TabEnt) : List TabEnt :=
  es.foldl (fun (acc : List TabEnt) (e : TabEnt) =>
    acc.takeWhile (fun (x : TabEnt) => decide (x.off ≤ e.off)) ++ e :: acc.dropWhile (fun (x : TabEnt) => decide (x.off ≤ e.off))) []

/-- Gaps between the sections are zero bytes, and so is one between the table and the first section, which R36 does not name
(R36; log entry 68). -/
def gapsOk (raw : List Byte) : Nat → List TabEnt → Bool
  | _, [] => true
  | pos, e :: t => decide (pos ≤ e.off) && zeroAt raw pos (e.off - pos) && gapsOk raw (e.off + e.len) t

/-- The section table obeys R36. -/
def tableOk (raw : List Byte) : Bool :=
  let n := bfld raw 34 2
  let es := tabEnts raw
  decide (256 + 32 * n ≤ hdrLength raw) && (List.range n).all (tabEntOk raw) &&
  noTwice (es.map (fun e => 65536 * e.kind + e.inst)) && gapsOk raw (256 + 32 * n) (sortEnts es)

/-- The sections of a bit-stream, in the order of its table. -/
def sections (raw : List Byte) : List SecRec :=
  (tabEnts raw).map (fun e => { kind := e.kind, inst := e.inst, body := (raw.drop e.off).take e.len })

/-! Cells (R40, R41). -/

/-- One CELL item: CELL_NO, CORE_MASK, CELL_SEED. -/
structure CellItem where
  /-- CELL_NO. -/
  no : Nat := 0
  /-- CORE_MASK. -/
  mask : Nat := 0
  /-- CELL_SEED. -/
  seed : Nat := 0
  deriving DecidableEq, Repr

/-- A CELL item as a value gives it. -/
def cellItem (v : List Byte) : CellItem := ⟨byteAt v 0, bfld v 2 6, bfld v 8 8⟩

/-- The CELL items of a CELLMAP. -/
def cellItems (secs : List SecRec) : List CellItem := (valsOf (secItems secs 0x0001 devInst) 0x8001).map cellItem

/-- Cores of a mask, ascending (R260). -/
def coresOf (mask : Nat) : List Nat := coreIds.filter (fun n => bit mask n)

/-- Population count of a mask. -/
def nlcOf (mask : Nat) : Nat := (coresOf mask).length

/-- The masks of a CELLMAP are nonzero and share no core (R41). -/
def masksOk : List CellItem → Bool
  | [] => true
  | c :: t => decide (c.mask ≠ 0) && t.all (fun d => decide (c.mask &&& d.mask = 0)) && masksOk t

/-- R41 on a CELLMAP and the cell-scope sections around it. -/
def cellsOk (secs : List SecRec) : Bool :=
  let cs := cellItems secs
  noTwice (cs.map (fun c => c.no)) && masksOk cs &&
  cs.all (fun c => decide (15 < c.no) || (hasSec secs 0x0002 c.no && hasSec secs 0x0003 c.no && hasSec secs 0x0101 c.no)) &&
  secs.all (fun x => kindScope x.kind != some true || cs.any (fun c => c.no == x.inst))

/-- Sections that R37 requires. -/
def presenceOk (secs : List SecRec) : Bool :=
  hasSec secs 0x0001 devInst && hasSec secs 0x0004 devInst && hasSec secs 0x0005 devInst && hasSec secs 0x0103 devInst &&
  (!(hasSec secs 0x0006 devInst) || (hasSec secs 0x0007 devInst && hasSec secs 0x0008 devInst))

/-- ROOT items name cells of the CELLMAP, each at most once (R387). -/
def rootsOk (secs : List SecRec) : Bool :=
  let rs := (valsOf (secItems secs 0x0005 devInst) 0x8401).map (fun v => byteAt v 0)
  noTwice rs && rs.all (fun k => (cellItems secs).any (fun c => c.no == k))

/-! Contents of one item. -/

/-- A CELL value (R40). -/
def okCell (v : List Byte) : Bool := decide (byteAt v 0 ≤ 15 ∧ byteAt v 1 = 0) && zeroAt v 16 8

/-- MEMPART items (R382). -/
def okMempart (i : Item) : Bool :=
  let v := i.2
  match i.1 with
  | 0x8301 => zeroAt v 9 7
  | 0x8302 => decide (byteAt v 0 ≤ 15 ∧ byteAt v 1 ≤ 1 ∧ bfld v 4 4 ≤ 16400 ∧ 1 ≤ bfld v 8 4 ∧ bfld v 8 4 ≤ 49150 ∧
      4 ≤ bfld v 12 4 ∧ bfld v 12 4 ≤ 65536 ∧ bfld v 4 4 ≤ bfld v 8 4) && zeroAt v 2 2
  | 0x8303 => decide (bfld v 0 8 % mib2 = 0 ∧ bfld v 8 8 % mib2 = 0 ∧ bfld v 0 8 < bfld v 8 8 ∧ bfld v 8 8 ≤ 0x16800000000 ∧
      byteAt v 16 ≤ 15) && zeroAt v 17 7
  | _ => true

/-- MEMPART as a whole (R382). -/
def okMempartAll (is : List Item) : Bool :=
  let ps := valsOf is 0x8302
  let rs := (valsOf is 0x8303).map (fun v => (bfld v 0 8, bfld v 8 8 - bfld v 0 8))
  is.all okMempart && decide ((ps.map (fun v => bfld v 4 4)).sum ≤ 16400) && noTwice (ps.map (fun v => byteAt v 0)) &&
  disjointAll rs

/-- XLATE items (R387). -/
def okXlate (i : Item) : Bool :=
  let v := i.2
  match i.1 with
  | 0x8401 => decide (byteAt v 0 ≤ 15 ∧ 1 ≤ bfld v 4 4 ∧ bfld v 4 4 ≤ 4194304 ∧ bfld v 8 8 % 4096 = 0 ∧ bfld v 8 8 < hbmEnd) &&
      zeroAt v 1 3
  | 0x8402 => decide (byteAt v 0 ≤ 15) && zeroAt v 1 7
  | _ => true

/-- The ranges of a STORE section with PWIN's default (R352). -/
def storeRanges (is : List Item) : List (Nat × Nat) :=
  let one (t : Nat) : List (Nat × Nat) := (valsOf is t).map (fun v => (bfld v 0 4, bfld v 4 4))
  one 0x8201 ++ (if (val? is 0x8202).isSome then one 0x8202 else [(0x13E7000, 4096)]) ++ one 0x8203

/-- STORE as a whole (R352). -/
def okStore (is : List Item) : Bool :=
  is.all (fun (i : Item) =>
    let a := bfld i.2 0 4
    let n := bfld i.2 4 4
    match i.1 with
    | 0x8201 => decide (a % 65536 = 0 ∧ n % 65536 = 0 ∧ 65536 ≤ n ∧ n ≤ 16777216)
    | 0x8202 => decide (a % 4096 = 0 ∧ n = 4096)
    | 0x8203 => decide (a % 65536 = 0 ∧ n = 4194304)
    | _ => true) &&
  (storeRanges is).all (fun r => decide (r.1 + r.2 ≤ storeSize) && !(meetsRange r (0x13E8000, 0x18000))) &&
  disjointAll (storeRanges is)

/-- ACCFMT (R626). -/
def okAccfmt (is : List Item) : Bool :=
  (valsOf is 0x8B01).all (fun v =>
    let m := byteAt v 0
    let f := byteAt v 1
    decide (1 ≤ m ∧ m ≤ 4 ∧ 1 ≤ f ∧ f ≤ 2 ∧ ¬(m = 4 ∧ f = 2)) && zeroAt v 2 6)

/-- CHECK items (R237, R239). -/
def okCheck (i : Item) : Bool :=
  let v := i.2
  let w := leNat v
  match i.1 with
  | 0x8021 => decide (w ≤ 65536)
  | 0x8022 => decide (w ≤ 1)
  | 0x8023 => decide (w ≤ 1)
  | 0x8024 => decide (bits w 7 0 ≤ 1 ∧ bits w 31 8 = 0 ∧ 1 ≤ bits w 63 32 ∧ bits w 63 32 ≤ 1000000)
  | 0x8025 => decide (2 ≤ w ∧ w ≤ sealP - 2)
  | 0x8026 => decide (8 ≤ v.length ∧ 1 ≤ byteAt v 0 ∧ byteAt v 0 ≤ 8 ∧ v.length = 8 + 2 * byteAt v 0 ∧ 1 ≤ byteAt v 1 ∧
      1 ≤ bfld v 2 2 ∧ bfld v 2 2 ≤ 4096) && zeroAt v 4 4
  | 0x8027 => decide (1 ≤ bits w 15 0 ∧ bits w 63 17 = 0)
  | _ => true

/-- CHECK as a whole: SEALKEY is required with NREP of 2 or more, or a SNAP section (R239). -/
def okCheckAll (is : List Item) (snap : Bool) : Bool :=
  let nrep := match val? is 0x8026 with | some v => byteAt v 0 | none => 1
  is.all okCheck && ((val? is 0x8025).isSome || !(decide (2 ≤ nrep) || snap))

/-! PROG and CONST (R244, R257, R261 to R263, R276). -/

/-- The words of a STREAM value. -/
def streamWords (v : List Byte) : List (BitVec 128) :=
  (List.range (bfld v 4 4)).map (fun i => BitVec.ofNat 128 (leNat ((v.drop (8 + 16 * i)).take 16)))

/-- Slots of a stream: every word legal, at most 8 in a slot; the last slot, or none where a rule is broken (R244, R276). The
state is the slot, the number in it, and whether a word stood before. -/
def slotsFrom (stream : Nat) : Nat × Nat → List (BitVec 128) → Option Nat
  | (slot, _), [] => some slot
  | (slot, n), w :: t =>
    let d := wDelta w
    let n' := if d = 0 then n + 1 else 1
    if wordOk stream w && decide (n' ≤ 8) then slotsFrom stream (slot + d, n') t else none

/-- Slot of the last word of a stream, or none where a rule is broken. -/
def lastSlotOf (stream : Nat) (ws : List (BitVec 128)) : Option Nat := slotsFrom stream (0, 0) ws

/-- PROG as a whole: the cell's population count where a CELLMAP gives it (R257, R261, R262). -/
def okProg (is : List Item) (pop : Option Nat) : Bool :=
  match val? is 0x8101 with
  | none => false
  | some h =>
    let nlc := byteAt h 0
    let ss := valsOf is 0x8102
    let ts := valsOf is 0x8103
    let syn := match ss.find? (fun v => byteAt v 0 == 0 && byteAt v 1 == 5) with | some v => streamWords v | none => []
    zeroAt h 1 3 && decide (1000 ≤ bfld h 4 4 ∧ bfld h 4 4 ≤ 60000000) &&
    (match pop with | some n => decide (nlc = n) | none => true) &&
    ss.all (fun v => decide (8 ≤ v.length ∧ byteAt v 0 < nlc ∧ byteAt v 1 ≤ 5 ∧ bfld v 4 4 ≤ 4194304 ∧
      v.length = 8 + 16 * bfld v 4 4) && zeroAt v 2 2) &&
    noTwice (ss.map (fun v => 8 * byteAt v 0 + byteAt v 1)) &&
    ts.all (fun v => decide (byteAt v 0 < nlc ∧ 1 ≤ byteAt v 1 ∧ 1 ≤ byteAt v 2) && zeroAt v 3 5) &&
    noTwice (ts.map (fun v => 256 * byteAt v 0 + byteAt v 1)) &&
    (match syn.getLast?, lastSlotOf 5 syn with
     | some w, some e =>
       isStepEnd w && ss.all (fun v =>
         match lastSlotOf (byteAt v 1) (streamWords v) with | some x => decide (x ≤ e) | none => false)
     | _, _ => false)

/-- CONST as a whole (R263). -/
def okConst (is : List Item) (pop : Option Nat) : Bool :=
  (valsOf is 0x8111).all (fun v =>
    decide (16 ≤ v.length ∧ bfld v 8 8 % 64 = 0 ∧ bfld v 8 8 + (v.length - 16) ≤ storeSize) && zeroAt v 1 7 &&
    (match pop with | some n => decide (byteAt v 0 < n) | none => true))

/-! EXPORT (R417). -/

/-- EXPORT items. -/
def okExport (secs : List SecRec) (i : Item) : Bool :=
  let v := i.2
  match i.1 with
  | 0x8501 => rangeMib (bfld v 0 8) (bfld v 8 8) && decide (mib2 ≤ bfld v 8 8 ∧ bfld v 8 8 ≤ 4294967296)
  | 0x8502 => decide (byteAt v 0 < 64 ∧ byteAt v 1 < 64) && zeroAt v 2 6 && hasSec secs 0x0006 devInst
  | 0x8503 => rangeMib (bfld v 0 8) (bfld v 8 8)
  | 0x8504 => rangeMib (bfld v 0 8) (bfld v 8 8) && decide (byteAt v 24 < 64 ∧ byteAt v 25 ≤ 1) && zeroAt v 26 6 &&
      !(meetsRange (bfld v 0 8, bfld v 8 8) (bfld v 16 8, bfld v 8 8 / 2048)) && hasSec secs 0x0006 devInst
  | 0x8505 => rangeMib (bfld v 0 8) (bfld v 8 8) && decide (byteAt v 16 = 255 ∨ byteAt v 16 < 64) && zeroAt v 17 7
  | 0x8506 => rangeMib (bfld v 0 8) (bfld v 8 8) && decide (1 ≤ byteAt v 18 ∧ byteAt v 19 = 0 ∧ bfld v 20 4 % 64 = 0) &&
      (cellItems secs).any (fun c => c.no == byteAt v 16 && decide (byteAt v 17 < nlcOf c.mask))
  | _ => true

/-- The ranges of an EXPORT section. -/
def exportRanges (is : List Item) : List (Nat × Nat) :=
  (is.filter (fun (i : Item) => decide (i.1 ≠ 0x8502 ∧ i.1 ≠ 0x8507))).map (fun i => (bfld i.2 0 8, bfld i.2 8 8))

/-- EXPORT as a whole. -/
def okExportAll (secs : List SecRec) (is : List Item) : Bool := is.all (okExport secs) && disjointAll (exportRanges is)

/-! LINKMAP (R420, R440). -/

/-- A lane map is a permutation of 0 to 19. -/
def lanesOk (l : List Byte) : Bool := (List.range 20).all (fun i => l.any (fun x => decide (x.toNat = i)))

/-- LINKMAP items. -/
def okLinkmap (i : Item) : Bool :=
  let v := i.2
  let p := byteAt v 0
  let r := byteAt v 1
  match i.1 with
  | 0x8601 => decide (p ≤ 7 ∧ (if p < 6 then r ≤ 6 else r = 0 ∨ r = 7) ∧ byteAt v 2 ≤ 1 ∧ byteAt v 3 = 0 ∧
      1 ≤ bfld v 4 4 ∧ bfld v 4 4 ≤ 1000000 ∧ 10 ≤ bfld v 8 4 ∧ bfld v 8 4 ≤ 60000 ∧ 1 ≤ bfld v 12 4 ∧ bfld v 12 4 ≤ 1000000)
  | 0x8602 => decide (p ≤ 7 ∧ bfld v 44 4 < 2 ^ 20 ∧ bfld v 48 4 < 2 ^ 20) && zeroAt v 1 3 && lanesOk (bsub v 4 20) &&
      lanesOk (bsub v 24 20)
  | 0x8603 => decide (p ≤ 7) && zeroAt v 1 7
  | 0x8604 => decide (p ≤ 7) && zeroAt v 1 3 && zeroAt v 12 4 &&
      (List.range 4).all (fun k => decide (1024 ≤ bfld v (4 + 2 * k) 2 ∧ bfld v (4 + 2 * k) 2 ≤ 21504)) &&
      decide (((List.range 4).map (fun k => bfld v (4 + 2 * k) 2)).sum ≤ 24576)
  | _ => true

/-- The role that a LINKMAP gives a port; off by default. -/
def roleIn (is : List Item) (p : Nat) : Nat :=
  match (valsOf is 0x8601).reverse.find? (fun v => byteAt v 0 == p) with | some v => byteAt v 1 | none => 0

/-- LINKMAP as a whole. -/
def okLinkmapAll (is : List Item) : Bool :=
  let roles := (List.range 8).map (roleIn is)
  is.all okLinkmap && noTwice (roles.filter (fun r => decide (r ≠ 0 ∧ r ≠ 7))) &&
  (List.range 8).all (fun p =>
    let n := ((valsOf is 0x8603).filter (fun v => byteAt v 0 == p)).length
    decide (roles.getD p 0 = 0 ∨ (1 ≤ n ∧ n ≤ 8)))

/-! FLEET and ROUTE (R444, R446, R447). -/

/-- A slot number, or 0xFF for none. -/
def slotOrNone (b : Nat) : Bool := decide (b < 64 ∨ b = 255)

/-- FLEET items. -/
def okFleet (i : Item) : Bool :=
  let v := i.2
  match i.1 with
  | 0x8701 =>
    let p := byteAt v 8 * byteAt v 9 * byteAt v 10
    let f := byteAt v 11 * byteAt v 12 * byteAt v 13
    decide (byteAt v 0 < 64 ∧ byteAt v 2 ≤ 1 ∧ byteAt v 3 = 0 ∧ byteAt v 7 = 0 ∧
      (if byteAt v 2 = 0 then byteAt v 1 < 64 ∧ 1 ≤ bfld v 4 2 else byteAt v 1 ≤ 7 ∧ bfld v 4 2 = 0) ∧
      16 ≤ p ∧ p ≤ 64 ∧ 1 ≤ f ∧ f ≤ 64) && slotOrNone (byteAt v 6) && zeroAt v 14 2
  | 0x8702 => (List.range 4).all (fun k => slotOrNone (byteAt v k)) && zeroAt v 4 4
  | 0x8703 => decide (byteAt v 0 ≤ 7 ∧ byteAt v 1 < 64 ∧ 6 ≤ byteAt v 2 ∧ byteAt v 2 ≤ 7 ∧
      ((byteAt v 3 = 255 ∧ byteAt v 4 = 255) ∨ (byteAt v 3 < 64 ∧ 6 ≤ byteAt v 4 ∧ byteAt v 4 ≤ 7))) && zeroAt v 5 3
  | 0x8704 => zeroAt v 2 2 && zeroAt v 14 2 && zeroAt v 20 4 && decide (1 ≤ bfld v 16 4 ∧ bfld v 16 4 ≤ 3600000)
  | 0x8705 => decide (50 ≤ bfld v 0 4 ∧ bfld v 0 4 ≤ 100000 ∧ 3 ≤ byteAt v 4 ∧ 1 ≤ byteAt v 5 ∧ 1 ≤ byteAt v 6 ∧ byteAt v 7 = 0 ∧
      5 ≤ bfld v 8 4 ∧ bfld v 8 4 ≤ 100000 ∧ 1 ≤ bfld v 12 4 ∧ bfld v 12 4 ≤ 10000)
  | 0x8706 => rangeMib (bfld v 0 8) (bfld v 8 8) && decide (mib2 ≤ bfld v 8 8 ∧ bfld v 8 8 ≤ 1073741824)
  | 0x8707 => decide (byteAt v 0 < 64) && zeroAt v 1 7
  | _ => true

/-- FLEET as a whole: with the PARTNER of the EXPORT section. -/
def okFleetAll (is ex : List Item) : Bool :=
  let heads := match val? is 0x8702 with | some v => (List.range 4).map (byteAt v) | none => []
  is.all okFleet && (val? is 0x8702).isSome && noTwice (heads.filter (fun h => decide (h ≠ 255))) &&
  noTwice ((valsOf is 0x8703).map (fun v => byteAt v 0)) && noTwice ((valsOf is 0x8707).map (fun v => byteAt v 0)) &&
  (match val? is 0x8701 with
   | none => false
   | some v =>
     match val? ex 0x8502 with
     | none => true
     | some p => decide (byteAt p 0 = byteAt v 0 ∧ byteAt p 1 = byteAt v 6))

/-- ROUTE items. -/
def okRoute (i : Item) : Bool := decide (byteAt i.2 0 < 64) && zeroAt i.2 1 7

/-! SNAP (R495, R496). -/

/-- SNAP items. -/
def okSnap (i : Item) : Bool :=
  let v := i.2
  match i.1 with
  | 0x8901 => decide (1 ≤ bfld v 0 4 ∧ bfld v 0 4 ≤ 65535 ∧ byteAt v 4 ≤ 2 ∧ 1 ≤ byteAt v 5 ∧ byteAt v 6 ≤ 3 ∧ byteAt v 7 = 0)
  | 0x8902 => rangeMib (bfld v 0 8) (bfld v 8 8) && decide (byteAt v 16 ≤ 1) && zeroAt v 17 7
  | 0x8903 => rangeMib (bfld v 0 8) (bfld v 8 8)
  | 0x8904 => decide (bfld v 0 4 % 16 = 0) && zeroAt v 6 2
  | 0x8905 => zeroAt v 4 4 && decide (bfld v 8 8 % mib2 = 0)
  | _ => true

/-- SNAP as a whole, beside the EXPORT and FLEET sections; the name of DLC is looked up where the sections in force are `known`: a
DELTA with no armature in force fails check 8 (R50, R496). -/
def okSnapAll (known : Bool) (is : List Item) (ex : Option (List Item)) (fl : List Item) : Bool :=
  let rs := (valsOf is 0x8902).map (fun v => (bfld v 0 8, bfld v 8 8))
  let total := (rs.map (fun r => r.2)).sum
  let exi := ex.getD []
  let own := ((valsOf exi 0x8505).filter (fun v => byteAt v 16 == 255)).map (fun v => alignUp (bfld v 8 8) mib2)
  let regs := (valsOf exi 0x8503).map (fun v => (bfld v 0 8, bfld v 8 8))
  is.all okSnap &&
  (match val? is 0x8901, val? is 0x8903 with
   | some p, some b =>
     let buf := (bfld b 0 8, bfld b 8 8)
     decide (mib2 + (rs.map (fun r => alignUp r.2 mib2)).sum + own.sum ≤ buf.2) &&
     rs.all (fun r => !(meetsRange buf r)) && (exportRanges exi).all (fun r => !(meetsRange buf r)) &&
     (decide (byteAt p 4 = 0) || (val? is 0x8905).isSome)
   | _, _ => false) &&
  (ex.isNone || (valsOf is 0x8902).all (fun v => decide (byteAt v 16 = 1) ||
    regs.any (fun r => decide (r.1 ≤ bfld v 0 8 ∧ bfld v 0 8 + bfld v 8 8 ≤ r.1 + r.2)))) &&
  (match val? is 0x8904 with
   | none => true
   | some d => !known || (valsOf fl 0x8704).any (fun v => bfld v 0 2 == bfld d 4 2)) &&
  decide (total ≤ 3848290697216 - 4194304)

/-! ETHCFG (R521). -/

/-- ETHCFG items. -/
def okEth (i : Item) : Bool :=
  let v := i.2
  match i.1 with
  | 0x8A01 => decide (byteAt v 0 ≤ 2 ∧ (byteAt v 1 ≤ 4 ∨ byteAt v 0 = 2) ∧ byteAt v 2 ≤ 1 ∧ byteAt v 3 = 0 ∧ bfld v 4 2 ≤ 4094 ∧ byteAt v 20 ≤ 32 ∧
      byteAt v 40 ≤ 128) && zeroAt v 6 2 && zeroAt v 14 2 && zeroAt v 21 3 && zeroAt v 41 7
  | 0x8A02 => decide (1024 ≤ bfld v 0 2 ∧ 1 ≤ byteAt v 2 ∧ byteAt v 2 ≤ 16 ∧ 10 ≤ byteAt v 3) && zeroAt v 4 4
  | 0x8A04 => decide (byteAt v 1 ≤ 3 ∧ bfld v 8 8 % 4096 = 0 ∧ bfld v 8 8 < 2 ^ 56 ∧ bfld v 16 8 % 4096 = 0 ∧ bfld v 16 8 ≤ 2 ^ 44) &&
      zeroAt v 2 2 && zeroAt v 24 8 && rangeOk (bfld v 8 8 % 2 ^ 44) (bfld v 16 8)
  | 0x8A05 => decide (byteAt v 1 ≤ 1) && zeroAt v 2 2 && zeroAt v 40 8
  | 0x8A06 => decide (byteAt v 0 ≤ 7 ∧ byteAt v 1 ≤ 7 ∧ byteAt v 0 ≠ byteAt v 1 ∧ byteAt v 2 ≤ 63 ∧ byteAt v 3 ≤ 63 ∧ byteAt v 4 ≤ 1) &&
      zeroAt v 5 3
  | 0x8A07 => decide (byteAt v 0 ≤ 2 ∧ byteAt v 1 ≤ 127 ∧ byteAt v 2 ≤ 2) && zeroAt v 3 5
  | _ => true

/-! Checks 6 and 7 over the sections that would be in force. -/

/-- The contents of one section among the others; `known` says that a CELLMAP is known (R48 check 7). -/
def contentOk (secs : List SecRec) (known : Bool) (x : SecRec) : Bool :=
  let is := itemsKnown x.kind x.body
  let pop := if known then ((cellItems secs).find? (fun c => c.no == x.inst)).map (fun c => nlcOf c.mask) else none
  let ex := if hasSec secs 0x000A devInst then some (secItems secs 0x000A devInst) else none
  let snap := hasSec secs 0x0104 devInst
  itemsForm x.kind x.body &&
  (match x.kind with
   | 0x0001 => is.all (fun i => okCell i.2) && !is.isEmpty
   | 0x0002 => okStore is
   | 0x0003 => okAccfmt is
   | 0x0004 => okMempartAll is
   | 0x0005 => is.all okXlate
   | 0x0006 => okFleetAll is (ex.getD [])
   | 0x0007 => is.all okRoute
   | 0x0008 => okLinkmapAll is
   | 0x0009 => is.all okEth
   | 0x000A => okExportAll secs is
   | 0x0101 => okProg is pop
   | 0x0102 => okConst is pop
   | 0x0103 => okCheckAll is snap
   | 0x0104 => okSnapAll known is ex (secItems secs 0x0006 devInst)
   | _ => true)

/-- The sections in force after a DELTA: its own, and those in force that it does not name (R50). -/
def mergeSecs (old new : List SecRec) : List SecRec := old.filter (fun x => !(hasSec new x.kind x.inst)) ++ new

/-- Check 6 on a bit-stream, beside the armature in force for a DELTA (R48, R50). -/
def checkStructure (raw : List Byte) (inForce : Option Armature) : Bool :=
  let own := sections raw
  tableOk raw &&
  (if hdrDelta raw then
    own.all (fun x => swappable x.kind) &&
    (match inForce with
     | none => true
     | some a => own.all (fun x => kindScope x.kind != some true || (cellItems a.secs).any (fun c => c.no == x.inst)))
   else presenceOk own && cellsOk own && rootsOk own)

/-- The sections that would be in force. -/
def newSecs (raw : List Byte) (inForce : Option Armature) : List SecRec :=
  if hdrDelta raw then mergeSecs (match inForce with | some a => a.secs | none => []) (sections raw) else sections raw

/-- Check 7. -/
def checkContent (raw : List Byte) (inForce : Option Armature) : Bool :=
  let secs := newSecs raw inForce
  let known := !(hdrDelta raw) || inForce.isSome
  secs.all (contentOk secs known)

/-- Check 8. -/
def checkBase (raw : List Byte) (inForce : Option Armature) : Bool :=
  !(hdrDelta raw) || (match inForce with | some a => decide (hdrBase raw = hdrSerial a.header) | none => false)

/-- KIND and INSTANCE of the sections that differ between two armatures: their SHA-256 differs, or only one has them
(R50). -/
def differing (old new : List SecRec) : List (Nat × Nat) :=
  let keys := old.map (fun x => (x.kind, x.inst)) ++ (new.filter (fun x => !(hasSec old x.kind x.inst))).map (fun x => (x.kind, x.inst))
  keys.filter (fun k =>
    match sec? old k.1 k.2, sec? new k.1 k.2 with
    | some a, some b => decide (sha256 a.body ≠ sha256 b.body)
    | _, _ => true)

/-- A cell that mode 1 does not name is the same in both CELLMAPs (R50). -/
def cellSame (old new : List CellItem) (no : Nat) : Bool :=
  old.find? (fun c => c.no == no) == new.find? (fun c => c.no == no)

/-- Check 9: the apply mode permits the sections that differ (R50). -/
def checkScope (raw : List Byte) (inForce : Option Armature) (mode : Nat) (mask : BitVec 16) : Bool :=
  (!(hdrDelta raw) || decide (mode = 2)) &&
  (match inForce with
   | none => true
   | some a =>
     let new := newSecs raw inForce
     let diff := differing a.secs new
     let oc := cellItems a.secs
     let nc := cellItems new
     if mode = 0 then true
     else if mode = 2 then diff.all (fun k => swappable k.1)
     else
       diff.all (fun k => k.1 == 0x0001 || (kindScope k.1 == some true && mask.getLsbD k.2)) &&
       (List.range 16).all (fun no => mask.getLsbD no || cellSame oc nc no) &&
       nc.all (fun c => !(mask.getLsbD c.no) ||
         oc.all (fun d => mask.getLsbD d.no || decide (c.mask &&& d.mask = 0))))

end Sys2Proof.Machine
end

