-- ==== Sys2Proof/Machine/Apply.lean ====
section
/-! DEFINITION. What the sections of an armature set: device-scope settings, cells, the gallery's identity and tables, and
link ports (R37, R40, R239, R261, R263, R352, R382, R387, R417, R440, R446, R447, R470, R495, R521, R626). -/
namespace Sys2Proof.Machine
open Sys2Proof

/-! Device-scope settings. -/

/-- MEMPART and XLATE (R382, R387). -/
def Cfg.ofMem (c : Cfg) (secs : List SecRec) : Cfg :=
  let is := secItems secs 0x0004 devInst
  { c with
    nearmap := match val? is 0x8301 with | some v => BitVec.ofNat 72 (bfld v 0 9) | none => 0
    parts := (valsOf is 0x8302).foldl (fun (t : Tab PartCfg) v =>
      tabSet {} t (byteAt v 0) { noalloc := bit (byteAt v 1) 0, guar := bfld v 4 4, cap := bfld v 8 4, burst := bfld v 12 4 }) []
    pranges := (valsOf is 0x8303).map (fun v => (bfld v 0 8, (bfld v 8 8, byteAt v 16)))
    tblpart := match val? (secItems secs 0x0005 devInst) 0x8402 with | some v => byteAt v 0 | none => 0 }

/-- CHECK (R239). -/
def Cfg.ofCheck (c : Cfg) (secs : List SecRec) : Cfg :=
  let is := secItems secs 0x0103 devInst
  let num (t d : Nat) : Nat := match val? is t with | some v => leNat v | none => d
  let pol := (val? is 0x8026).getD []
  { c with
    prate := num 0x8021 1024
    dchk := bit (num 0x8022 0) 0
    debug := bit (num 0x8023 0) 0
    gnormPer := decide (bits (num 0x8024 0) 7 0 = 1)
    gnormTo := match val? is 0x8024 with | some v => bfld v 4 4 | none => 5000
    sealkey := (val? is 0x8025).map (fun v => BitVec.ofNat 61 (leNat v))
    sealSlots := (List.range (byteAt pol 0)).map (fun i => bfld pol (8 + 2 * i) 2)
    sealCad := if pol = [] then 1 else byteAt pol 1
    divlim := if pol = [] then 64 else bfld pol 2 2
    calThr := bits (num 0x8027 16) 15 0
    calEsc := match val? is 0x8027 with | some v => bit (leNat v) 16 | none => true }

/-- FLEET (R446). -/
def Cfg.ofFleet (c : Cfg) (secs : List SecRec) : Cfg :=
  let is := secItems secs 0x0006 devInst
  let id := (val? is 0x8701).getD []
  let tm := val? is 0x8705
  let tf (a n d : Nat) : Nat := match tm with | some v => bfld v a n | none => d
  let ab := val? is 0x8706
  if !(hasSec secs 0x0006 devInst) then c
  else { c with
    partner := if byteAt id 6 = 255 then none else some (byteAt id 6)
    box := (byteAt id 8, (byteAt id 9, byteAt id 10))
    tiles := (byteAt id 11, (byteAt id 12, byteAt id 13))
    heads := match val? is 0x8702 with | some v => (List.range 4).map (byteAt v) | none => []
    spares := (valsOf is 0x8703).map (fun v =>
      { num := byteAt v 0, a0 := byteAt v 1, p0 := byteAt v 2, a1 := byteAt v 3, p1 := byteAt v 4, hash := bsub v 8 32 })
    rdvdefs := (valsOf is 0x8704).map (fun v => (bfld v 0 2, (bfld v 4 8, (bfld v 12 2, bfld v 16 4))))
    hbiv := tf 0 4 200
    hbmiss := tf 4 1 10
    e2eTo := tf 8 4 20
    retryDly := tf 12 4 5
    e2eTries := tf 5 1 16
    forgelim := tf 6 1 16
    addbufBase := match ab with | some v => bfld v 0 8 | none => 0
    addbuf := match ab with | some v => bfld v 8 8 | none => 0
    fleets := (valsOf is 0x8707).map (fun v => byteAt v 0) }

/-- EXPORT (R417). -/
def Cfg.ofExport (c : Cfg) (secs : List SecRec) : Cfg :=
  let is := secItems secs 0x000A devInst
  if !(hasSec secs 0x000A devInst) then c
  else { c with
    exportSec := true
    ring := match val? is 0x8501 with | some v => (bfld v 0 8, bfld v 8 8) | none => (0, 0)
    expPartner := (val? is 0x8502).map (fun v => (byteAt v 0, byteAt v 1))
    expregs := (valsOf is 0x8503).map (fun v => (bfld v 0 8, (bfld v 8 8, bfld v 16 8)))
    mirrors := (valsOf is 0x8504).map (fun v => (bfld v 0 8, (bfld v 8 8, (bfld v 16 8, (byteAt v 24, bit (byteAt v 25) 0)))))
    reflists := (valsOf is 0x8505).map (fun v => (bfld v 0 8, (bfld v 8 8, byteAt v 16)))
    gradwins := (valsOf is 0x8506).map (fun v =>
      (bfld v 0 8, (bfld v 8 8, (byteAt v 16, (byteAt v 17, (byteAt v 18, bfld v 20 4))))))
    normset := match val? is 0x8507 with | some v => leNat v | none => 0 }

/-- SNAP (R495). -/
def Cfg.ofSnap (c : Cfg) (secs : List SecRec) : Cfg :=
  let is := secItems secs 0x0104 devInst
  let p := (val? is 0x8901).getD []
  if !(hasSec secs 0x0104 devInst) then c
  else { c with
    snapSec := true
    interval := bfld p 0 4
    target := byteAt p 4
    kfull := byteAt p 5
    receipt := bit (byteAt p 6) 0
    autofill := bit (byteAt p 6) 1
    sranges := (valsOf is 0x8902).map (fun v => (bfld v 0 8, (bfld v 8 8, byteAt v 16)))
    snapbuf := match val? is 0x8903 with | some v => (bfld v 0 8, bfld v 8 8) | none => (0, 0)
    dlc := (val? is 0x8904).map (fun v => (bfld v 0 4, bfld v 4 2))
    storetgt := (val? is 0x8905).map (fun v => (bfld v 0 4, bfld v 8 8)) }

/-- ETHCFG (R521). -/
def Cfg.ofEth (c : Cfg) (secs : List SecRec) : Cfg :=
  let is := secItems secs 0x0009 devInst
  let tc := val? is 0x8A02
  { c with
    tcdPort := match tc with | some v => bfld v 0 2 | none => 50731
    maxSess := match tc with | some v => byteAt v 2 | none => 16
    idleTo := match tc with | some v => byteAt v 3 | none => 60
    observers := valsOf is 0x8A03
    windows := (valsOf is 0x8A04).map (fun v => (byteAt v 0, (byteAt v 1, (bfld v 4 4, (bfld v 8 8, bfld v 16 8)))))
    stores := (valsOf is 0x8A05).map (fun v => (byteAt v 0, (byteAt v 1, (bfld v 4 4, (bfld v 24 8, bfld v 32 8)))))
    storeIps := (valsOf is 0x8A05).map (fun v => (byteAt v 0, bsub v 8 16))
    ethModes := (valsOf is 0x8A01).foldl (fun (t : Tab (List Byte)) v => tabSet [] t (byteAt v 0) v) []
    qos := match val? is 0x8A06 with | some v => (List.range 5).map (byteAt v) | none => [3, 6, 26, 48, 1]
    ptpCfg := match val? is 0x8A07 with | some v => (List.range 3).map (byteAt v) | none => [2, 0, 0] }

/-- Every device-scope setting that the sections give; without a section, its defaults. -/
def Cfg.ofSecs (secs : List SecRec) : Cfg :=
  ((((((({} : Cfg).ofMem secs).ofCheck secs).ofFleet secs).ofExport secs).ofSnap secs).ofEth secs)

/-! Cells. -/

/-- The settings that the sections give a cell (R40, R261, R263, R352, R387, R626). -/
def Cell.configure (c : Cell) (secs : List SecRec) (ci : CellItem) : Cell :=
  let st := secItems secs 0x0002 ci.no
  let pg := secItems secs 0x0101 ci.no
  let ac := (val? (secItems secs 0x0003 ci.no) 0x8B01).getD []
  let rt := (valsOf (secItems secs 0x0005 devInst) 0x8401).find? (fun v => byteAt v 0 == ci.no)
  { c with
    mask := BitVec.ofNat 48 ci.mask
    seed := BitVec.ofNat 64 ci.seed
    accM := if ac = [] then 3 else byteAt ac 0
    accFmt := if ac = [] then 1 else byteAt ac 1
    staging := (val? st 0x8201).map (fun v => (bfld v 0 4, bfld v 4 4))
    pwin := match val? st 0x8202 with | some v => bfld v 0 4 | none => 0x13E7000
    bounce := (val? st 0x8203).map (fun v => bfld v 0 4)
    root := rt.map (fun v => (bfld v 4 4, bfld v 8 8))
    holdlim := match val? pg 0x8101 with | some v => bfld v 4 4 | none => 1000
    prog := (valsOf pg 0x8102).foldl (fun (t : Tab (List (BitVec 128))) v =>
      tabSet [] t (8 * byteAt v 0 + byteAt v 1) (streamWords v)) []
    progHash := match sec? secs 0x0101 ci.no with | some x => sha256 x.body | none => []
    tokInit := (valsOf pg 0x8103).map (fun v => (byteAt v 0, (byteAt v 1, byteAt v 2)))
    consts := (valsOf (secItems secs 0x0102 ci.no) 0x8111).map (fun v => (byteAt v 0, (bfld v 8 8, v.drop 16))) }

/-- A cell that no CELL item names any more: only its CTX registers and its image in HBM remain (R488). -/
def Cell.remove (c : Cell) : Cell :=
  { area := c.area, areaLen := c.areaLen, budget := c.budget, cause := c.cause, img := c.img, holds := { c.holds with apply := false } }

/-- The configuration of cell k put in force, and its members reset with their CONST blocks and scoreboards; a cell of a device
under a supply warning, HEADLESS, FENCED or QUARANTINED is held (R263, R468, R561). -/
def State.applyCell (s : State) (secs : List SecRec) (k : Nat) : State :=
  match (cellItems secs).find? (fun c => c.no == k) with
  | none => s.setCell k (s.cell k).remove
  | some ci =>
    let c := ((s.cell k).configure secs ci).resetC
    let held := decide (s.gal.state = .headless ∨ s.gal.state = .fenced ∨ s.gal.state = .quarantined)
    let c := { c with holds := { c.holds with supply := s.pwr.supwarn, headless := held } }
    let s := s.setCell k c
    c.members.foldl (fun s n => s.modCore n (fun co => co.resetMember c (c.lcore n))) s

/-- A swap of mode 2 in cell k: the new programs from stream position 0, CONST blocks and scoreboards, the tick counter at 0; nothing is reset (R51,
R243, R263). -/
def State.swapCell (s : State) (secs : List SecRec) (k : Nat) : State :=
  match (cellItems secs).find? (fun c => c.no == k) with
  | none => s
  | some ci =>
    let c := { (s.cell k).configure secs ci with tick := 0 }
    let s := s.setCell k c
    c.members.foldl (fun s n => s.modCore n (fun co =>
      { (co.writeConsts c.consts (c.lcore n)).setBoard c.tokInit (c.lcore n) with ptr := [], ord := [], lastSlot := [], inSlot := [] })) s

/-- The clock register of every core brought up to date (R42, R606). -/
def State.reclockAll (s : State) : State := coreIds.foldl State.reclock s

/-! The gallery (R445 to R447, R470). -/

/-- The incarnation table that FLEET gives, with this device's own entry (R445, R446). -/
def incTable (is : List Item) (fleet slot inc : Nat) (member : Bool) : Tab (BitVec 16) :=
  let t := (valsOf is 0x8707).foldl (fun (t : Tab (BitVec 16)) v =>
    (List.range 64).foldl (fun (t : Tab (BitVec 16)) i =>
      tabSet 0 t (flowKey (byteAt v 0) i) (BitVec.ofNat 16 (bfld v (8 + 2 * i) 2))) t) []
  if member then tabSet 0 t (flowKey fleet slot) (BitVec.ofNat 16 inc) else t

/-- The route table that ROUTE gives (R447). -/
def routeTable (is : List Item) : Tab (BitVec 8) :=
  (valsOf is 0x8801).foldl (fun (t : Tab (BitVec 8)) v =>
    (List.range 64).foldl (fun (t : Tab (BitVec 8)) i => tabSet 0 t (flowKey (byteAt v 0) i) (v.getD (8 + i) 0)) t) []

/-- The gallery engine right after its sections are put in force: a member is ACTIVE under the head device, and every slot
counts as heard for one live-set interval; a member whose own key a SPARE item names is a spare that holds a slot (R446, R465, R470,
R508; log entry 33). Without FLEET it is STANDALONE. -/
def Gal.ofSecs (secs : List SecRec) (c : Cfg) (key : List Byte) : Gal :=
  let is := secItems secs 0x0006 devInst
  if !(hasSec secs 0x0006 devInst) then {}
  else
    let id := (val? is 0x8701).getD []
    let member := byteAt id 2 = 0
    { fleet := BitVec.ofNat 6 (byteAt id 0)
      slot := BitVec.ofNat 6 (byteAt id 1)
      incarn := BitVec.ofNat 16 (bfld id 4 2)
      role := if !member then 1 else if c.spares.any (fun x => x.hash == padTo 32 key) then 2 else 0
      state := .active
      acthead := BitVec.ofNat 6 ((c.heads.head?).getD 0)
      incs := incTable is (byteAt id 0) (byteAt id 1) (bfld id 4 2) member
      routes := routeTable (secItems secs 0x0007 devInst)
      hbLeft := (List.range (c.box.1 * c.box.2.1 * c.box.2.2)).foldl (fun t i => tabSet 0 t i c.hbmiss) [] }

/-! Link ports (R420, R430, R440). -/

/-- The settings that LINKMAP gives a port; without FLEET every role is off (R37). -/
def Port.configure (p : Port) (secs : List SecRec) (i : Nat) : Port :=
  let is := if hasSec secs 0x0006 devInst then secItems secs 0x0008 devInst else []
  let last (t : Nat) : Option (List Byte) := (valsOf is t).reverse.find? (fun v => byteAt v 0 == i)
  let po := (last 0x8601).getD []
  { p with
    role := byteAt po 1
    dateline := bit (byteAt po 2) 0
    creditTo := if po = [] then 100 else bfld po 4 4
    retryiv := if po = [] then 1000 else bfld po 8 4
    degthr := if po = [] then 12800 else bfld po 12 4
    txmap := match last 0x8602 with | some v => (List.range 20).map (fun k => byteAt v (4 + k)) | none => []
    rxmap := match last 0x8602 with | some v => (List.range 20).map (fun k => byteAt v (24 + k)) | none => []
    inv := match last 0x8602 with | some v => (bfld v 44 4, bfld v 48 4) | none => (0, 0)
    peers := ((valsOf is 0x8603).filter (fun v => byteAt v 0 == i)).map (fun v => bsub v 8 32)
    vcbuf := match last 0x8604 with
      | some v => (List.range 4).map (fun k => bfld v (4 + 2 * k) 2)
      | none => [6144, 6144, 6144, 6144] }

/-- A port right after a W, M or P reset or an armature apply: its registers at their reset values, its Patina history
kept; DOWN where it has a role, with a reason (R430, R439, R441). -/
def Port.fresh (p : Port) (why : Nat) : Port :=
  { role := p.role, dateline := p.dateline, creditTo := p.creditTo, retryiv := p.retryiv, degthr := p.degthr, txmap := p.txmap,
    rxmap := p.rxmap, inv := p.inv, peers := p.peers, vcbuf := p.vcbuf, eye := p.eye, weak := p.weak, quars := p.quars,
    state := if p.role = 0 then .off else .down, downwhy := BitVec.ofNat 4 why }

/-- Every port configured and fresh. -/
def State.applyPorts (s : State) (secs : List SecRec) (why : Nat) : State :=
  (List.range 8).foldl (fun s i => s.modPort i (fun p => (p.configure secs i).fresh why)) s

/-! The device. -/

/-- A local address whose media were those of another local address under an older map (R366, R367). -/
def Cfg.moved (c old : Cfg) (a : Nat) : Nat := c.localOf (old.stackOf a).1 (old.stackOf a).2

/-- What the media hold, seen through the map of another configuration: the contents stay, their local addresses change where the
mode of their span does (R367). -/
def State.remap (s : State) (c : Cfg) : State :=
  if c.nearmap = s.cfg.nearmap then s
  else
    let f := c.moved s.cfg
    { s with
      hbm := s.hbm.foldl (fun m e => tabSet 0 m (f e.1) e.2) []
      hbmPois := s.hbmPois.foldl (fun p x => psAdd p (f (64 * x) / 64)) []
      mediaErr := s.mediaErr.map (fun e => { e with addr := f e.addr })
      plinths := (s.plinths.map (fun (e : Nat × Plinth) =>
        (e.1, { e.2 with slice := e.2.slice.map (fun l => { l with addr := f l.addr }) }))).filter
          (fun (e : Nat × Plinth) => decide (e.2 ≠ {})) }

/-- Every section put in force outside a running device: with nothing in force, or during a reset (R37, R50, R470). -/
def State.applyAll (s : State) (secs : List SecRec) (why : Nat) : State :=
  let c := Cfg.ofSecs secs
  let s := { s.remap c with cfg := c, gal := Gal.ofSecs secs c s.mgmt.idHash, exp := { s.exp with afterReset := c.exportSec } }
  let s := s.applyPorts secs why
  let s := cellIds.foldl (fun s k => s.applyCell secs k) s
  s.reclockAll

end Sys2Proof.Machine
end

