-- ==== Sys2Proof/Machine/Resets.lean ====
section
/-! DEFINITION. The reset classes: what each leaves of every part of the module, and the start of a W reset (R11, R12, R110,
R378, R413, R484, R487, R526, R542, R547, R548, R552, R569). -/
namespace Sys2Proof.Machine
open Sys2Proof

/-! Parts under a W reset (R552, R569). -/

/-- A core after a W reset: its plan, its suspect state and its island's temperature are kept; the CLK_CUR fields are at their reset
values (R569, R606; log entry 34). -/
def Core.warm (co : Core) : Core :=
  let co := co.takePlan
  { planFreq := co.planFreq, planVolt := co.planVolt, vmax := co.vmax, hot := co.hot, temp := co.temp, suspect := co.suspect,
    retry60 := co.retry60, mism := co.mism, calCause := co.calCause, survDue := co.survDue, survHist := co.survHist,
    roBase := co.roBase, suspCount := co.suspCount, suspLast := co.suspLast }

/-- A core after a P or M reset: its plan and its Patina records (R569, R590, R597). -/
def Core.cold (co : Core) : Core :=
  let co := co.takePlan
  { planFreq := co.planFreq, planVolt := co.planVolt, vmax := co.vmax, temp := co.temp, survHist := co.survHist,
    roBase := co.roBase, suspCount := co.suspCount, suspLast := co.suspLast }

/-- A remote operation of an image whose outcome is still to come. -/
def Entry.waiting (e : Entry) : Bool := e.stream == 4 && e.outcome == 0 && !e.done && !e.dests.isEmpty

/-- A context image after a W reset: every pending outcome is 3, lost (R484). -/
def CtxImg.lose (im : CtxImg) : CtxImg :=
  { im with cores := im.cores.map (fun co =>
      { co with inflight := co.inflight.map (fun e => if e.waiting then { e with outcome := 3 } else e) }) }

/-- A cell after a W reset: its configuration, its step number, the RWS fields and an image in HBM are kept (R110, R488,
R569). -/
def Cell.warm (c : Cell) : Cell :=
  { c.resetC with
    taint := false, perTensor := false, heighten := 0, deltas := 0, budget := 0x7D0,
    img := if c.ctx = 2 then none else c.img.map CtxImg.lose
    holds := { supply := c.holds.supply, warm := true } }

/-- A cell that a W reset finds: an image being written becomes invalid with CTX_INVALID, reason 3; pending outcomes of a
finished image become 3 in its bytes too (R484, R487). -/
def State.warmCell (s : State) (k : Nat) : State :=
  let c := s.cell k
  let s := if c.ctx = 2 then (s.setValid k 3).log 0x5303 [.cell k, .val 1 3] else s
  let s := s.setCell k c.warm
  match (s.cell k).img with
  | none => s
  | some im => (List.range im.cores.length).foldl (fun s l => s.imgTable k l) s

/-- A Plinth in a W reset: its dirty lines are written back and its slice is empty, its stack enters self-refresh, its W
fields are at their reset values (R378, R388, R552). -/
def Plinth.warm (p : Plinth) : Plinth :=
  { rate := p.rate, qrate := p.qrate, ce := p.ce, ue := p.ue, repaired := p.repaired, bankSpares := p.bankSpares,
    retired := p.retired, trained := p.trained, selfRef := true, boost := p.boost, hotHalf := p.hotHalf, hour := p.hour,
    rowCe := p.rowCe, wants := p.wants, rateLog := p.rateLog, ceTot := p.ceTot, ueTot := p.ueTot }

/-- A Plinth after a P or M reset: its Patina records (R363, R372, R373). -/
def Plinth.cold (p : Plinth) : Plinth :=
  { rate := p.rate, qrate := p.qrate, repaired := p.repaired, bankSpares := p.bankSpares, retired := p.retired, hour := p.hour,
    rowCe := p.rowCe, wants := p.wants, rateLog := p.rateLog, ceTot := p.ceTot, ueTot := p.ueTot }

/-- The armature in force lies here (R44). -/
def armBase : Nat := 0x167E0000000
/-- The staging area (R44). -/
def stagingBase : Nat := 0x167F0000000
/-- Length of each area (R44). -/
def armAreaLen : Nat := 0x10000000

/-- The bytes and poison marks of a range of HBM discarded. -/
def State.dropHbm (s : State) (a n : Nat) : State :=
  { s with hbm := s.hbm.filter (fun (e : Nat × Byte) => !decide (a ≤ e.1 ∧ e.1 < a + n)),
           hbmPois := s.hbmPois.filter (fun (x : Nat) => !decide (a ≤ 64 * x ∧ 64 * x < a + n)) }

/-- The load engine in a W reset: a partly received load and a PENDING mode-2 load are discarded with ARM_ABORT; an apply in
mode 0 rides on (R50, R51, R55, R610). -/
def State.warmArm (s : State) : State :=
  let a := s.arm
  let lost := a.state == .receiving || a.state == .verifying || a.state == .pending
  let s := if lost then (s.log 0x7102 [.val 4 a.received.toNat]).dropHbm stagingBase armAreaLen else s
  let a := { a with reason := 0, received := 0, total := 0, skipped := 0 }
  { s with arm := if a.state = .applying ∧ a.mode.toNat = 0 then { a with epoch := 0, cells := 0 }
    else { a with state := .idle, mode := 0, epoch := 0, cells := 0, next := none, nextSkip := 0, reply := [], midEnd := false } }

/-- The load engine after a P or M reset: the persisted copies, less one whose writing was interrupted (R55, R569). -/
def ArmSt.cold (a : ArmSt) : ArmSt := { copy0 := a.copy0, copy1 := a.copy1, nextCopy := a.nextCopy }

/-- The export engine after any reset: emptied; the positions of the refusal-list rings and the stale bitmaps, which lie in
HBM, are kept under a W reset (R413, R418; log entry 34). -/
def Exp.warm (x : Exp) : Exp :=
  { ce := x.ce, ue := x.ue, stale := x.stale, refPos := x.refPos, mirPos := x.mirPos, afterReset := true }

/-- The snapshot engine after any reset: the flash generations and what the firmware keeps (R516, R569). -/
def Snp.warm (p : Snp) : Snp :=
  { gen0 := p.gen0, gen1 := p.gen1, older := p.older, snapCnt := p.snapCnt, receipts := p.receipts, rcCnt := p.rcCnt, rcFlags := p.rcFlags }

/-- The snapshot engine after a P or M reset. -/
def Snp.cold (p : Snp) : Snp := { gen0 := p.gen0, gen1 := p.gen1, older := p.older }

/-! W reset. -/

/-- Every section in force put in force again at a W reset; a FLEET section that is only kept leaves the epochs as they are
(R462, R470, R569). -/
def State.reapply (s : State) : State :=
  match s.arm.inForce with
  | none => { s with gal := {}, cfg := {} }
  | some a =>
    let c := Cfg.ofSecs a.secs
    let g := Gal.ofSecs a.secs c s.mgmt.idHash
    let keep : Tab Rdv := (s.gal.rdvs.map (fun (e : Nat × Rdv) => (e.1, { e.2 with arrived := [], sentArrive := false }))).filter
      (fun (e : Nat × Rdv) => decide (e.2 ≠ {}))
    let s := { s with cfg := c, gal := { g with rdvs := keep } }
    let s := s.applyPorts a.secs 9
    cellIds.foldl (fun s k => if (s.cell k).exists_ then
      let c := s.cell k
      c.members.foldl (fun s n => s.modCore n (fun co => co.resetMember c (c.lcore n))) s else s) s

/-- An Ethernet port whose link and sessions stay while its registers take their W values (R545, R569). -/
def Eth.keepLink (e : Eth) : Eth := { up := e.up, mode := e.mode, paused := e.paused, authLogged := e.authLogged }

/-- The Ethernet ports in a W reset: the exit from STANDBY keeps MGT, whose sessions stay open (R552, R569). -/
def State.warmEths (s : State) (cause : Nat) : Tab Eth :=
  if cause = 11 ∧ s.eth 2 ≠ {} then tabSet {} [] 2 (s.eth 2).keepLink else []

/-- The start of a W reset, cause bit `cause`: the steps of R552 up to the stages. The exit from STANDBY leaves the sessions of
MGT open (R547, R552, R569). -/
def State.startWarm (s : State) (cause : Nat) : State :=
  let s := { s with pwr := { s.pwr with state := if s.pwr.state = PwrSt.standby then PwrSt.active else s.pwr.state, standbyIn := false } }
  let s := { s with rst := { s.rst with cause := s.rst.cause ||| BitVec.ofNat 12 (2 ^ cause), stage := 3, cls := .w, active := false,
                                        quiet := [], retried := false },
                    mgmt := { s.mgmt with patTot := tabMod 0 s.mgmt.patTot 4 (· + 1) } }
  let s := cellIds.foldl (fun (s : State) k => if decide (s.cell k ≠ ({} : Cell)) then s.warmCell k else s) s
  let s := (List.range 20).foldl (fun (s : State) p => s.modPlinth p Plinth.warm) s
  let s := (List.range 8).foldl (fun (s : State) i => s.modPort i (fun p => p.fresh 9)) s
  let s := s.warmArm
  let s := s.closeAll (if cause = 11 then [0, 1] else [0, 1, 2])
  let s := { s with cores := (s.cores.map (fun (e : Nat × Core) => (e.1, e.2.warm))).filter (fun (e : Nat × Core) => decide (e.2 ≠ ({} : Core))),
                    eths := s.warmEths cause, exp := s.exp.warm, snp := s.snp.warm, calPoints := 0, calPmiss := 0 }
  { s with gal := { s.gal with tx := [], rx := [], adds := [], xchCnt := [], xchLanded := [], deaths := [], deadSlots := [], relays := [] }
           hst := { s.hst with tcdfIn := [], waiting := [] } }

/-! P and M resets. -/

/-- What a P and an M reset share: everything but the management's records, the straps and contacts, and the always-on
domain (R569). -/
def State.cold (s : State) : State :=
  { s with
    cores := (s.cores.map (fun (e : Nat × Core) => (e.1, e.2.cold))).filter (fun (e : Nat × Core) => decide (e.2 ≠ ({} : Core)))
    cells := [], hbm := [], hbmPois := [], mediaErr := []
    plinths := (s.plinths.map (fun (e : Nat × Plinth) => (e.1, e.2.cold))).filter (fun (e : Nat × Plinth) => decide (e.2 ≠ ({} : Plinth)))
    ports := (s.ports.map (fun (e : Nat × Port) => (e.1, ({ eye := e.2.eye, weak := e.2.weak, quars := e.2.quars } : Port)))).filter
      (fun (e : Nat × Port) => decide (e.2 ≠ ({} : Port)))
    eths := [], arm := s.arm.cold, cfg := {}, gal := {}, exp := {}, snp := s.snp.cold, hst := { nextId := s.hst.nextId, nextQpn := s.hst.nextQpn },
    calPoints := 0, calPmiss := 0
    evt := { s.evt with seen := 0, suppr := 0, wins := [] }
    mgmt := { s.mgmt with
      fwState := .idle, fwReason := 0, svnStaged := 0, svnRun := 0, fwMeas := [], running := [], stageB := [], ownStage := [], sramce := 0, halted := false, survOther := [], survHrs := [], survCnt := 0, survLow := 255, patHour := [],
      trlpSeq := none, trlpNext := 0, loaderIp := 0, imageOk := s.mgmt.imageOk && s.mgmt.fwState != .installing }
    rst := { s.rst with
      stage := 1, lastBlk := 0, active := false, timedOut := false, poisoned := 0, bqto := 0x64, recovery := false, refok := false,
      pll := false, pllOsc := false, quiet := [], modeApply := false, retried := false, counted := false }
    pwr := { s.pwr with
      state := .active, rphase := 0, target := false, warns := 0, warnLast := 0, throttle := false, standbyIn := false,
      reinsert := false } }

/-- An M reset with its cause bit: the sessions close, and the state of R569 goes (R526, R547, R569). -/
def State.startModule (s : State) (cause : Nat) : State :=
  let s := (s.closeAll [0, 1, 2]).cold
  { s with rst := { s.rst with cause := s.rst.cause ||| BitVec.ofNat 12 (2 ^ cause), cls := .m }
           mgmt := { s.mgmt with patTot := tabMod 0 s.mgmt.patTot 3 (· + 1) } }

/-- A P reset: RST_CAUSE holds bit 0 alone, RST_TRIP and the fields of reset letter P are cleared, the clock counts from 0
again (R544, R548, R569, R605). -/
def State.startPower (s : State) : State :=
  let s := s.cold
  { s with
    rst := { s.rst with cause := 1, cls := .p, tripKind := 0, tripInst := 0, tripTemp := 0, tripPend := false }
    pwr := { s.pwr with supwarn := false, vin := 0, vmin := 0xFFFF, warnMin := 0xFFFF, alert := 0 }
    ptp := {}
    mgmt := { s.mgmt with patTot := tabMod 0 s.mgmt.patTot 2 (· + 1) } }

end Sys2Proof.Machine
end

