-- ==== Sys2Proof/Machine/Patina.lean ====
section
/-! DEFINITION. The flash copy of the event log, suppression windows, and the Patina (R578, R579, R590, R596 to R599, R608). -/
namespace Sys2Proof.Machine
open Sys2Proof

/-! The event log in flash, and suppression (R578, R579). -/

/-- The records of retained memory that the flash ring does not hold yet, newest first. -/
def Evt.fresh (e : Evt) : List EvRec :=
  e.recs.takeWhile (fun (r : EvRec) => match e.flash with
    | x :: _ => decide (r.index ≠ x.index)
    | [] => true)

/-- The records of retained memory copied to the flash ring of 2^24 records. -/
def Evt.copy (e : Evt) : Evt := { e with flash := (e.fresh ++ e.flash).take 16777216 }

/-- The management firmware runs (R550, R573). -/
def State.fwUp (s : State) : Bool := !s.pwr.off && !s.mgmt.halted && !s.rst.recovery && decide (3 ≤ s.rst.stage)

/-- The retained log copied to flash (R578). -/
def State.copyLog (s : State) : State := { s with evt := s.evt.copy }

/-- EVT_LOG_COPY_TIMER: every second (R578). -/
def execEvtLogCopyTimer (s : State) : Res :=
  if !s.fwUp then .next s
  else .next (s.copyLog.flashWritten (32 * s.evt.fresh.length))

/-- SUPPRESSION_WINDOW_CLOSE: the window closes; EVT_SUPPRESSED tells of records suppressed (R579; log entry 37). -/
def execSuppressionWindowClose (code : BitVec 16) (kind inst : Nat) (s : State) : Res :=
  let hit (w : SupWin) : Bool := w.code == code && w.kind == kind && w.inst == inst
  match s.evt.wins.find? hit with
  | none => .next s
  | some w =>
    let s := { s with evt := { s.evt with wins := s.evt.wins.filter (fun (w : SupWin) => !hit w) } }
    .next (if w.supp = 0 then s else s.log 0x7003 [.val 2 code.toNat, .val 1 kind, .val 2 inst, .val 4 w.supp])

/-! Months (R598). -/

/-- The month of a time in nanoseconds since the PTP epoch, 1 January 1970: 12 x year + month - 1, in the Gregorian calendar
(log entry 37). -/
def monthOf (ns : Nat) : Nat :=
  let z := ns / 86400000000000 + 719468
  let doe := z % 146097
  let yoe := (doe - doe / 1460 + doe / 36524 - doe / 146096) / 365
  let doy := doe - (365 * yoe + yoe / 4 - yoe / 100)
  let mp := (5 * doy + 2) / 153
  let m := if mp < 10 then mp + 3 else mp - 9
  12 * (yoe + z / 146097 * 400 + (if m ≤ 2 then 1 else 0)) + m - 1

/-- A calendar bucket: month, UNTIMED, counts. -/
abbrev Bucket := Nat × (Bool × Tab Nat)

/-- Counts added to counts; keys 2 and 3 hold a maximum. -/
def patAdd (t new : Tab Nat) : Tab Nat :=
  new.foldl (fun (t : Tab Nat) (e : Nat × Nat) =>
    tabMod 0 t e.1 (fun x => if e.1 = 2 ∨ e.1 = 3 then max x e.2 else x + e.2)) t

/-- The calendar with counts entered: in the bucket of the month, a new one where the newest is of another month, 84 at most;
while the clock has not locked, in the last dated bucket, which is marked UNTIMED (R598). -/
def patEnter (bs : List Bucket) (month : Option Nat) (new : Tab Nat) : List Bucket :=
  match month, bs with
  | none, [] => []
  | none, b :: r => (b.1, (true, patAdd b.2.2 new)) :: r
  | some m, [] => [(m, (false, patAdd [] new))]
  | some m, b :: r => if b.1 = m then (m, (b.2.1, patAdd b.2.2 new)) :: r else ((m, (false, patAdd [] new)) :: b :: r).take 84

/-! Projection (R598). -/

/-- A survey of an island: time, voltage, frequency, margin, ring-oscillator frequency. -/
abbrev Survey := Nat × (Nat × (Nat × (Nat × Nat)))

/-- Months until a least-squares line through the planned voltages of an island's surveys reaches V_MAX, counted from the newest
survey; at most 254; 255 with fewer than 4 surveys (R598; log entry 37). -/
def projection (h : List Survey) (vmax : Nat) : Nat :=
  if h.length < 4 then 255
  else
    let n : Int := h.length
    let ts : List Int := h.map (fun (x : Survey) => (x.1 : Int))
    let vs : List Int := h.map (fun (x : Survey) => (x.2.1 : Int))
    let st := ts.foldl (· + ·) 0
    let sv := vs.foldl (· + ·) 0
    let stv := (List.zipWith (· * ·) ts vs).foldl (· + ·) 0
    let stt := (ts.map (fun t => t * t)).foldl (· + ·) 0
    let num := n * stv - st * sv
    let den := n * stt - st * st
    if num ≤ 0 then 254
    else
      let left := (st * num + ((vmax : Int) * n - sv) * den) / (n * num) - ts.head?.getD 0
      if left ≤ 0 then 0 else min 254 (left.toNat / Config.monthNs)

/-- The projection of a core island. -/
def Core.projection (co : Core) : Nat := Machine.projection co.survHist co.vmax.toNat

/-! The summary and the copies (R597, R598, R608). Totals are keyed 0 hours, 1 energy, 2 P, 3 M and 4 W resets, 5 failed starts,
6 owner epochs, 7 thermal cycles, 8 and 9 highest core and HBM temperature, 10 lowest margin of the last survey, 20 thermal
trips, and 65536 + code for events. -/

/-- A total. -/
def Mgmt.tot (g : Mgmt) (k : Nat) : Nat := tabGet 0 g.patTot k

/-- Key of an event's total. -/
def evTot (code : Nat) : Nat := 65536 + code

/-- The 64 B summary. -/
def State.patSummary (s : State) : List Byte :=
  let g := s.mgmt
  let pls := (List.range 20).map s.plinth
  let proj := (coreIds.map (fun n => (s.core n).projection)).foldl min 255
  let rates := (List.range 20).foldl (fun (x : Nat) i => x + (s.plinth i).rate.toNat % 4 * 4 ^ i) 0
  leBytes 4 (g.tot 0) ++ leBytes 4 (g.tot 1) ++ leBytes 4 (g.tot 7) ++ leBytes 1 (g.tot 8) ++ leBytes 1 (g.tot 9) ++
    leBytes 1 (g.tot 10) ++ leBytes 1 proj ++
    leBytes 4 ((pls.map (fun (p : Plinth) => p.repaired.length)).foldl (· + ·) 0) ++
    leBytes 2 ((pls.map (fun (p : Plinth) => p.retired.length)).foldl (· + ·) 0) ++
    leBytes 1 ((coreIds.filter (fun n => (s.core n).suspect)).length) ++ [0] ++
    leBytes 4 (g.wornAt / 10 ^ 12) ++ leBytes 4 (g.tot (evTot 0x1102)) ++ leBytes 4 (g.tot (evTot 0x1201)) ++
    leBytes 4 (g.tot (evTot 0x2101)) ++ leBytes 4 (g.tot (evTot 0x6101)) ++ leBytes 5 rates ++ leBytes 15 0

/-- The counts since the last write, with extra entries, moved to the totals and the calendar. The month is that of the PTP
time (R598). -/
def State.patFlush (s : State) (extra : Tab Nat) : State :=
  let (t, s) := s.timeNow
  let g := s.mgmt
  let month := if t.toNat < 2 ^ 63 then some (monthOf t.toNat) else none
  let tot := g.patHour.foldl (fun (x : Tab Nat) (e : Nat × Nat) => tabMod 0 x (evTot e.1) (· + e.2)) g.patTot
  { s with mgmt := { g with patTot := tot, patHour := [], patCal := patEnter g.patCal month (extra ++ g.patHour) } }

/-- The islands besides the cores that have a survey: 64 + n Plinth n, 96 + n link port n, 112 + n Ethernet port n, 120 the
management domain (R20, R591; log entry 37). -/
def otherIslands : List Nat :=
  (List.range 20).map (· + 64) ++ (List.range 8).map (· + 96) ++ (List.range 3).map (· + 112) ++ [120]

/-- A list of numbers with its length, so that lists can follow one another. -/
def sized (l : List Nat) : List Nat := l.length :: l

/-- A table as numbers. -/
def tabNums (t : Tab Nat) : List Nat := sized (t.flatMap (fun e => [e.1, e.2]))

/-- What the HBM section holds of a stack (R597). -/
def Plinth.patina (p : Plinth) : List Nat :=
  [p.qrate.toNat, p.rate.toNat] ++ sized (p.rateLog.flatMap (fun e => [e.1, e.2])) ++
    sized (p.repaired.flatMap (fun r => [r.1, r.2.1, r.2.2])) ++ sized p.retired ++ [p.ceTot, p.ueTot]

/-- What the Survey section holds of a core island (R597). -/
def Core.patina (co : Core) : List Nat :=
  [co.vmax.toNat, co.roBase] ++ sized (co.survHist.flatMap (fun x => [x.1, x.2.1, x.2.2.1, x.2.2.2.1, x.2.2.2.2]))

/-- What the Links section holds of a port (R597). -/
def Port.patina (p : Port) : List Nat :=
  sized (p.eye.flatMap (fun x => x.1 :: x.2.1 :: sized (x.2.2.flatMap (fun y => [y.1, y.2])))) ++ [p.quars]

/-- The ten sections of the Patina in the order of R608, as numbers (R597). -/
def State.patSections (s : State) : List (List Nat) :=
  let g := s.mgmt
  let proj := coreIds.map (fun n => (s.core n).projection)
  [(List.range 7).map g.tot,
   tabNums g.patHist ++ [g.tot 7, g.tot 20] ++ (List.range 2).flatMap (fun i => let e := tabGet (0, 0) g.patExt i; [e.1, e.2]),
   (List.range 24).flatMap (fun r =>
     [(tabGet (0, 0) g.patExt (16 + r)).1, (tabGet (0, 0) g.patExt (16 + r)).2, (tabGet (0, 0) g.patExt (48 + r)).2]),
   (List.range 20).flatMap (fun i => (s.plinth i).patina),
   coreIds.flatMap (fun n => (s.core n).patina) ++
     otherIslands.flatMap (fun i => sized ((tabGet [] g.patRing i).flatMap (fun x => [x.1, x.2]))),
   coreIds.flatMap (fun n => [(s.core n).suspCount, (s.core n).suspLast]),
   (List.range 8).flatMap (fun i => (s.port i).patina),
   [g.wornAt] ++ (List.range 4).map (tabGet 0 g.patWear),
   sized (g.patCal.flatMap (fun b => [b.1, b2n b.2.1] ++ tabNums b.2.2)),
   proj ++ [proj.foldl min 255]]

/-- A Patina copy written: the other copy of the two, with the next sequence number (R597). -/
def State.patCommit (s : State) : State :=
  let sum := s.patSummary
  let secs := s.patSections
  let g := s.mgmt
  ({ s with mgmt := { g with patSeq := g.patSeq + 1, patCopy := 1 - g.patCopy, patVal := true, patSum := sum,
                             patSecs := secs } }).flashWritten 262144

/-- A Patina write outside the hourly one: after a survey, and in removal phase 4 (R597). -/
def State.patinaWrite (s : State) : State := (s.patFlush []).patCommit

/-- A reading taken into the lowest and highest of its sensor, each held plus 1. -/
def extend (t : Tab (Nat × Nat)) (i v : Nat) : Tab (Nat × Nat) :=
  tabMod (0, 0) t i (fun e => (if e.1 = 0 then v + 1 else min e.1 (v + 1), max e.2 (v + 1)))

/-- The 5 C bin of a temperature from 25 C to 125 C. -/
def tempBin (t : Nat) : Nat := min 19 ((t - 25) / 5)

/-- The readings of an hour, which are free values: the hottest of each core island by die and bin, the coolant, the rails, erase counts
and corrected SRAM errors (R573, R575, R597; log entry 37). -/
def State.patSense (s : State) (temps : List Nat) (draw : Nat → Nat) : Mgmt :=
  let g := s.mgmt
  let hist := temps.zipIdx.foldl (fun (t : Tab Nat) (v, n) => tabMod 0 t (20 * (n / 12) + tempBin v) (· + 1)) g.patHist
  let ext := ([0, 1] ++ (List.range 24).flatMap (fun r => [16 + r, 48 + r])).zipIdx.foldl
    (fun (t : Tab (Nat × Nat)) (i, j) => extend t i (draw j % 2 ^ 16)) g.patExt
  let wear := (List.range 4).foldl (fun (t : Tab Nat) i => tabMod 0 t i (· + draw (50 + i) % 2 ^ 8)) g.patWear
  { g with patHist := hist, patExt := ext, patWear := wear, sramce := satAdd g.sramce (draw 54) }

/-- PATINA_WRITE_TIMER: hourly. What the sensors and the flash add in an hour (energy, thermal cycles, temperatures, coolant, rails,
erase counts, corrected SRAM errors) are free values; the 60-minute window of CAL_RETRY_OK and the hour of corrected sectors end here (R219, R595, R597,
R598; log entry 37). -/
def execPatinaWriteTimer (s : State) : Res :=
  if !s.fwUp then .next s
  else
    let d (i : Nat) : Nat := Config.draw (s.free + i)
    let energy := d 0 % 2 ^ 16
    let cycles := d 1 % 2 ^ 16
    let hbm := d 2 % 256
    let temps := (List.range 48).map (fun n => d (3 + n) % 256)
    let core := temps.foldl max 0
    let t := tabMod 0 s.mgmt.patTot 0 (· + 1)
    let t := tabMod 0 t 1 (· + energy)
    let t := tabMod 0 t 7 (· + cycles)
    let t := tabMod 0 t 8 (fun x => max x core)
    let t := tabMod 0 t 9 (fun x => max x hbm)
    let hrs := (coreIds ++ otherIslands).foldl (fun (h : Tab Nat) i => tabMod 0 h i (· + 1)) s.mgmt.survHrs
    let s := { s with free := s.free + 106, mgmt := { s.patSense temps (fun i => d (51 + i)) with patTot := t, survHrs := hrs } }
    let s := coreIds.foldl (fun (s : State) n => s.modCore n (fun co => { co with retry60 := 0 })) s
    let s := (List.range 20).foldl (fun (s : State) p =>
      s.modPlinth p (fun x => { x with hour := if 10000 < x.hour then x.hour else 0 })) s
    .next (s.patFlush [(0, 1), (1, energy), (2, core), (3, hbm)]).patCommit

end Sys2Proof.Machine
end

