-- ==== Sys2Proof/Machine/Armature.lean ====
section
/-! DEFINITION. The armature load: the four commands of a load, its verification, apply and persistence (R43 to R56). -/
namespace Sys2Proof.Machine
open Sys2Proof

/-! The staging area and the answers of the load engine. -/

/-- The load engine returns to IDLE; its load and the staging area are discarded (R45 to R49). -/
def State.armIdle (s : State) : State :=
  let s := s.dropHbm stagingBase armAreaLen
  { s with arm := { s.arm with state := .idle, total := 0, received := 0, mode := 0, cells := 0, epoch := 0, next := none, nextSkip := 0 } }

/-- ARM_ABORT with the bytes received; cells that waited at their boundary for the load run on (R46, R51, R56). -/
def State.armAbort (s : State) : State := ((s.log 0x7102 [.val 4 s.arm.received.toNat]).armIdle).endApply

/-- An acknowledgement of the load engine: every one ends with the state code (R45; log entry 35). -/
def State.armAck (s : State) (st : Nat) (payload : List Byte) : State × Rsp :=
  (s, some (st, payload ++ leBytes 1 s.arm.state.code))

/-- A refusal of the load engine with its event (R46, R47). -/
def State.armRefuse (s : State) (code : Nat) (fs : List EvF) : State × Rsp :=
  (s.log code fs).armAck stRefused (leBytes 2 code ++ fs.flatMap EvF.bytes)

/-- The final response of the commit in progress (R529; log entry 35). -/
def State.armReply (s : State) (st : Nat) (payload : List Byte) : State :=
  match s.arm.reply with
  | [id, epoch, seq, frm, owner, op] =>
    let p := payload ++ leBytes 1 s.arm.state.code
    ({ s with arm := { s.arm with reply := [] } }).answer ⟨id, epoch, seq, frm, owner != 0, op⟩ st p
  | _ => s

/-- VERIFYING, PENDING or APPLYING. -/
def ArmSt.busy (a : ArmSt) : Bool := a.state == .verifying || a.state == .pending || a.state == .applying

/-! The commands. -/

/-- ARM_BEGIN's effect (R46). -/
def effArmBegin (total : Nat) : Eff := fun _ s =>
  if total < 384 || !lengthOk (total - 384) then s.armAck stFormat []
  else if s.arm.busy then s.armRefuse 0x7104 [.val 1 s.arm.state.code]
  else
    let s := if s.arm.state = .receiving then s.armAbort else s
    let s := { s with arm := { s.arm with state := .receiving, total := BitVec.ofNat 32 total, received := 0 } }
    s.armAck stDone []

/-- ARM_BEGIN (R43, R46). -/
def execArmBegin (m : Msg) (total : Nat) (s : State) : Res :=
  .next (s.tcd m 0x0020 (leBytes 8 total) false false (effArmBegin total) id)

/-- ARM_DATA's effect (R47). -/
def effArmData (offset : Nat) (data : List Byte) : Eff := fun _ s =>
  let a := s.arm
  if data.length = 0 ∨ 8192 < data.length then s.armAck stFormat []
  else if a.busy then s.armRefuse 0x7104 [.val 1 a.state.code]
  else if a.state = .idle then s.armRefuse 0x7103 [.val 4 0]
  else if offset ≠ a.received.toNat then s.armRefuse 0x7103 [.val 4 a.received.toNat]
  else if a.total.toNat < offset + data.length then s.armAck stFormat []
  else
    let s := (s.touchPhys (stagingBase + offset) data.length true).hbmWrite (stagingBase + offset) data false
    let s := { s with arm := { a with received := BitVec.ofNat 32 (offset + data.length) } }
    s.armAck stDone []

/-- ARM_DATA (R43, R47). -/
def execArmData (m : Msg) (offset : Nat) (data : List Byte) (s : State) : Res :=
  .next (s.tcd m 0x0021 (leBytes 8 offset ++ leBytes 8 0 ++ data) false false (effArmData offset data) id)

/-- ARM_COMMIT's effect (R47, R48, R50). -/
def effArmCommit (mode : Nat) (cells : BitVec 16) (epoch : BitVec 32) : Eff := fun c s =>
  let a := s.arm
  if 2 < mode then s.armAck stFormat []
  else if a.busy then s.armRefuse 0x7104 [.val 1 a.state.code]
  else if a.state = .idle then s.armRefuse 0x7103 [.val 4 0]
  else if a.received ≠ a.total then s.armRefuse 0x7103 [.val 4 a.received.toNat]
  else
    let s := { s with arm := { a with state := .verifying, mode := BitVec.ofNat 2 mode, cells := cells, epoch := epoch,
                                      reply := [c.id, c.epoch, c.seq, c.frm, b2n c.owner, c.op] } }
    s.armAck stAccepted []

/-- ARM_COMMIT (R43, R48). -/
def execArmCommit (m : Msg) (mode : Nat) (cells : BitVec 16) (epoch : BitVec 32) (s : State) : Res :=
  .next (s.tcd m 0x0022 (leBytes 1 mode ++ [0] ++ leBytes 2 cells.toNat ++ leBytes 4 epoch.toNat) false false
    (effArmCommit mode cells epoch) id)

/-- ARM_CANCEL's effect; a commit whose load is discarded in PENDING has had its final response (R46). -/
def effArmCancel : Eff := fun _ s =>
  match s.arm.state with
  | .idle => s.armAck stDone []
  | .receiving | .pending => s.armAbort.armAck stDone []
  | .verifying | .applying => s.armRefuse 0x7104 [.val 1 s.arm.state.code]

/-- ARM_CANCEL (R43, R46). -/
def execArmCancel (m : Msg) (s : State) : Res := .next (s.tcd m 0x0023 [] false false effArmCancel id)

/-- ARM_RECEIVE_TIMEOUT: 10 s in RECEIVING without an accepted chunk (R47). -/
def execArmReceiveTimeout (s : State) : Res := .next (if s.arm.state = .receiving then s.armAbort else s)

/-! Verification (R48, R49). -/

/-- The reason code of the first check of R48 that an upload fails, 0 where it passes. The owner is known by its key hash;
`ovr` skips checks 3 and 4 (R589). -/
def verifyArm (raw : List Byte) (inForce : Option Armature) (owner : List Byte) (ovr : Bool) (mode : Nat) (mask : BitVec 16) :
    Nat :=
  let len := hdrLength raw
  if !checkFormat raw raw.length then 1
  else if !checkTarget raw then 2
  else if !ovr && !(decide (owner ≠ []) && bsub raw 40 8 == owner.take 8) then 3
  else if !ovr && !pssValid owner (raw.take 256) (bsub raw len 384) then 5
  else if sha256 ((raw.take len).drop 256) ≠ bsub raw 48 32 then 4
  else if !checkStructure raw inForce then 6
  else if !checkContent raw inForce then 7
  else if !checkBase raw inForce then 8
  else if !checkScope raw inForce mode mask then 9
  else 0

/-- The armature that an upload would put in force. -/
def Armature.ofRaw (raw : List Byte) (inForce : Option Armature) : Armature := ⟨raw.take 256, newSecs raw inForce⟩

/-- Non-critical items that an upload skips (R39, R52). -/
def skippedItems (raw : List Byte) : Nat := ((sections raw).map (fun (x : SecRec) => itemsSkipped x.kind x.body)).foldl (· + ·) 0

/-- ARM_VERIFY_FAIL: the reason, IDLE, staging discarded; the armature in force stays (R49). -/
def State.verifyFail (s : State) (reason : Nat) : State :=
  let s := (s.log 0x7101 [.val 1 reason]).armIdle
  let s := { s with arm := { s.arm with reason := BitVec.ofNat 4 reason } }
  s.armReply stRefused (leBytes 2 0x7101 ++ leBytes 1 reason)

/-- The STEP_END rendezvous has completed, and STEP_END itself in some of the participating cells but not in all. -/
def State.midStepEnd (s : State) : Bool :=
  (s.rdvCells 0).any (fun k => (s.cell k).released) && !(s.rdvCells 0).all (fun k => (s.cell k).released)

/-- The apply of a verified load begins as its mode says: at once with nothing in force; a warm reset; a class C reset of the
named cells; or PENDING until the STEP_END of its epoch, unless that is past (R50, R51). -/
def State.verified (s : State) (raw : List Byte) : State :=
  let a := s.arm
  let s := { s with arm := { a with next := some (Armature.ofRaw raw a.inForce), nextSkip := skippedItems raw } }
  let go (s : State) : State := { s with arm := { s.arm with state := .applying } }
  if a.inForce.isNone then go s
  else if a.mode.toNat = 0 then
    let s := (go s).armReply stDone []
    let s := { s with rst := { s.rst with modeApply := true } }
    s.startWarm 10
  else if a.mode.toNat = 1 then
    let s := go s
    (cellIds.filter (fun k => a.cells.getLsbD k && (s.cell k).exists_)).foldl (fun (s : State) k =>
      (s.commandReset k).modCell k (fun c => { c with holds := { c.holds with apply := true } })) s
  else if a.epoch ≠ 0 ∧ a.epoch.toNat < (s.rdvAt 0).epoch then
    let now := (s.rdvAt 0).epoch - 1
    let s := (s.log 0x7105 [.val 4 now]).armIdle
    s.armReply stRefused (leBytes 2 0x7105 ++ leBytes 4 now)
  else
    let s := { s with arm := { s.arm with state := .pending, midEnd := s.midStepEnd } }
    s.armReply stDone []

/-- The end of a verification: the checks of R48 on the staged upload, and the start of the apply (R49, R50). -/
def State.verifyDone (s : State) : State :=
  let a := s.arm
  if a.state ≠ .verifying then s
  else
    let s := s.touchPhys stagingBase a.total.toNat false
    let raw := s.hbmRead stagingBase a.total.toNat
    let r := verifyArm raw a.inForce s.mgmt.owner.2 s.rst.ovr a.mode.toNat a.cells
    if r = 0 then s.verified raw else s.verifyFail r

/-! Apply and persistence (R50 to R52, R55). -/

/-- After an apply in mode 1 or 2 every port with a role enters DOWN; a QUARANTINED one stays, since neither mode applies LINKMAP anew
(R430, R436; log entry 71). -/
def State.retrainPorts (s : State) : State :=
  ((List.range 8).filter (fun i => (s.port i).role ≠ 0 ∧ (s.port i).state ≠ .quarantined)).foldl
    (fun s i => s.portDown i 9 false) s

/-- The fields of the GAL block that FLEET and ROUTE give, taken anew at an apply (R470). -/
def Gal.reload (g x : Gal) : Gal :=
  { g with fleet := x.fleet, slot := x.slot, incarn := x.incarn, role := x.role, incs := x.incs, routes := x.routes }

/-- The sections of the load put in force as its mode says; the clocks follow CHECK's DEBUG at once (R21, R50, R51, R267, R430, R470). -/
def State.putInForce (s : State) (secs : List SecRec) : State :=
  let a := s.arm
  if a.inForce.isNone ∨ a.mode.toNat = 0 then s.applyAll secs (if a.inForce.isNone then 0 else 9)
  else
    let c := Cfg.ofSecs secs
    let s := { s with cfg := c, gal := s.gal.reload (Gal.ofSecs secs c s.mgmt.idHash) }
    let s := if a.mode.toNat = 1 then (cellIds.filter (fun k => a.cells.getLsbD k)).foldl (fun (s : State) k => s.applyCell secs k) s
      else (cellIds.filter (fun k => (s.cell k).exists_)).foldl (fun (s : State) k => s.swapCell secs k) s
    s.retrainPorts.reclockAll

/-- The load engine with a new armature in force; with PERSIST its flash copy is invalid until written (R52, R55). -/
def ArmSt.withForce (a : ArmSt) (raw : List Byte) (x : Armature) : ArmSt :=
  let a := { a with inForce := some x, skipped := BitVec.ofNat 32 a.nextSkip }
  if hdrPersist x.header then
    { a with persisting := some raw, copy0 := if a.nextCopy = 0 then none else a.copy0,
             copy1 := if a.nextCopy = 0 then a.copy1 else none }
  else a

/-- The load is in force: copied to its area, reported, and written to flash where PERSIST asks for it (R52, R55). -/
def State.applied (s : State) (raw : List Byte) (x : Armature) : State :=
  let s := s.putInForce x.secs
  let s := ((s.touchPhys armBase raw.length true).dropHbm armBase armAreaLen).hbmWrite armBase raw false
  let s := ({ s with arm := s.arm.withForce raw x, rst := { s.rst with modeApply := false } }).log 0x7107 [.val 8 (hdrSerial x.header)]
  (s.armIdle.endApply.wake).armReply stDone []

/-- The apply failed: the previous sections are reinstated (R52). -/
def State.applyFail (s : State) (kind inst : Nat) : State :=
  let s := s.log 0x7106 [.val 2 kind, .val 2 inst]
  let s := if s.rst.modeApply then ({ s with rst := { s.rst with modeApply := false } }).reapply else s
  (s.armIdle.endApply).armReply stRefused (leBytes 2 0x7106 ++ leBytes 2 kind ++ leBytes 2 inst)

/-- The end of an apply: every section is in place, or an uncorrectable error struck the section `err` (KIND and INSTANCE). A mode-0
apply ends in stage 5 of its warm reset (R50 to R52). -/
def State.applyDone (s : State) (err : Option (Nat × Nat)) : State :=
  if s.arm.state ≠ .applying ∨ (s.rst.modeApply ∧ s.rst.stage ≠ 5) then s
  else match s.arm.next, err with
    | some x, none =>
      let n := hdrLength x.header + 384
      let s := s.touchPhys stagingBase n false
      s.applied (s.hbmRead stagingBase n) x
    | _, some (kind, inst) => s.applyFail kind inst
    | none, none => s

/-- ARM_PERSIST_DONE: the copy is fully written and valid; the next copy overwrites the other area (R55). -/
def execArmPersistDone (s : State) : Res :=
  match s.arm.persisting with
  | none => .next s
  | some raw =>
    let a := s.arm
    let a := if a.nextCopy = 0 then { a with copy0 := some raw } else { a with copy1 := some raw }
    .next (({ s with arm := { a with persisting := none, nextCopy := 1 - a.nextCopy } }).flashWritten raw.length)

end Sys2Proof.Machine
end

