-- ==== Sys2Proof/Machine/Boot.lean ====
section
/-! DEFINITION. The triggers of the P, M and W resets, the release stages, straps, boot count and recovery mode, and the
reset of a lone block (R547 to R559, R573, R581, R583, R605, R618, R619, R621). -/
namespace Sys2Proof.Machine
open Sys2Proof

/-! Triggers (R547). -/

/-- PWRGD driven to a level; a change is seen at the pin (R564, R621). -/
def State.setPwrgd (s : State) (b : Bool) : State :=
  if s.pwr.pwrgd = b then s else ({ s with pwr := { s.pwr with pwrgd := b } }).emit (.pin 0 b)

/-- The main rails go off, and PWRGD with them (R560, R563, R564, R566, R618). -/
def State.railsOff (s : State) : State := ({ s with pwr := { s.pwr with rails := false } }).setPwrgd false

/-- AON_POWER_UP: the always-on domain powers up: a P reset of a module whose rails are off (R547, R564). -/
def execAonPowerUp (s : State) : Res :=
  let s := s.startPower.railsOff
  .next { s with pwr := { s.pwr with off := !s.pwr.en } }

/-- MRST_ASSERT: MRST_N was low for `us` microseconds; 1 us or longer is an M reset, which begins its stages when the pin is
high again; a shorter pulse, and any pulse during removal, is ignored (R547, R548, R567, R621). -/
def execMrstAssert (us : Nat) (s : State) : Res :=
  if us = 0 ∨ s.pwr.state = .removing then .next s else .next (s.startModule 2)

/-- WATCHDOG_EXPIRY: 2 s without service; in recovery mode the ROM loader services the watchdog (R573). -/
def execWatchdogExpiry (s : State) : Res :=
  if s.pwr.off ∨ (s.rst.recovery ∧ !s.mgmt.halted) then .next s else .next (s.startModule 4)

/-- SRAM_UE: the management processor halts (R573). -/
def execSramUe (s : State) : Res :=
  if s.pwr.off then .next s else .next { s with mgmt := { s.mgmt with halted := true } }

/-- The trip level of a sensor kind (R618). -/
def tripLevel : Nat → Nat
  | 1 => 110
  | 2 => 110
  | 3 => 105
  | 4 => 70
  | _ => 256

/-- Sensors of a kind (R575, R605). -/
def tripSensors : Nat → Nat
  | 1 => 192
  | 2 => 8
  | 3 => 40
  | 4 => 1
  | _ => 0

/-- The sensor that RST_TRIP latches: the lowest kind, then the lowest instance, of those at their level (R619). -/
def tripPick (rs : List TripReading) : Option TripReading :=
  (rs.filter (fun (r : TripReading) => decide (tripLevel r.kind ≤ r.temp ∧ r.inst < tripSensors r.kind))).foldl
    (fun (b : Option TripReading) r => match b with
      | none => some r
      | some x => if r.kind < x.kind ∨ (r.kind = x.kind ∧ r.inst < x.inst) then some r else some x) none

/-- A removal that a reset ends (R567, R618). -/
def State.endRemoval (s : State) : State :=
  if s.pwr.state = .removing then { s with pwr := { s.pwr with state := .active, rphase := 0, off := true } } else s

/-- The sensor and reading of a trip kept for the event that follows the reset (R569). -/
def State.noteTrip (s : State) (r : TripReading) : State :=
  { s with rst := { s.rst with tripKind := BitVec.ofNat 3 r.kind, tripInst := BitVec.ofNat 8 r.inst,
                               tripTemp := BitVec.ofNat 8 (min 255 r.temp), tripPend := true } }

/-- The rails stay off until the temperatures allow them back. -/
def State.holdTrip (s : State) : State := { s with pwr := { s.pwr with tripHold := true } }

/-- THERMAL_TRIP: levels held for 1 ms; RST_TRIP is latched, then an M reset with the main rails off (R618, R619). -/
def execThermalTrip (readings : List TripReading) (s : State) : Res :=
  match tripPick readings with
  | none => .next s
  | some r =>
    if s.pwr.off then .next s
    else
      .next (((s.noteTrip r).endRemoval.startModule 5).railsOff).holdTrip

/-- THERMAL_TRIP_RAIL_RESTORE: at least 10 s after the trip and the coolant outlet below 50 C: the rails come back and PWRGD
is asserted (R618). -/
def execThermalTripRailRestore (s : State) : Res :=
  if !s.pwr.tripHold then .next s
  else
    let s := { s with pwr := { s.pwr with tripHold := false } }
    if s.pwr.off ∨ s.pwr.ovHold then .next s
    else .next (({ s with pwr := { s.pwr with rails := true } }).setPwrgd true)

/-- OVER_VOLTAGE: above 63 V for 10 us: an M reset with the main rails off (R560). -/
def execOverVoltage (s : State) : Res :=
  let s := (s.endRemoval.startModule 8).railsOff
  .next { s with pwr := { s.pwr with ovHold := true } }

/-- OVER_VOLTAGE_CLEAR: the input is below 60 V; the rails may come back on (R560). -/
def execOverVoltageClear (s : State) : Res :=
  if !s.pwr.ovHold then .next s
  else .next { s with pwr := { s.pwr with ovHold := false, rails := !s.pwr.off && !s.pwr.tripHold } }

/-- BOOT_TIMEOUT: 30 s from the end of stage 1 without OPERATIONAL, not counting a supply warning (R558, R563). -/
def execBootTimeout (s : State) : Res :=
  if s.rst.stage = 8 ∨ s.rst.stage = 1 ∨ s.rst.cls = .w ∨ s.rst.recovery ∨ s.pwr.supwarn ∨ s.pwr.off then .next s
  else .next (({ s with mgmt := { s.mgmt with patTot := tabMod 0 s.mgmt.patTot 5 (· + 1) } }).startModule 6)

/-! Firmware images (R580, R581, R589). -/

/-- Body length of an image. -/
def fwBody (b : List Byte) : Nat := bfld b 8 4

/-- The reason code of FW_STAT for the first test of R581 that an image fails, 0 where it verifies. The override accepts any
signature and SVN (R589). -/
def verifyFw (img : List Byte) (fuse : Nat) (ovr : Bool) : Nat :=
  if img.length < 512 ∨ bsub img 0 4 ≠ ascii "TFWI" ∨ bfld img 4 2 ≠ 0x0100 ∨ 64 < byteAt img 6 ∨ byteAt img 7 ≠ 0 ∨
      !zeroAt img 48 80 then 1
  else if 2097152 - 512 < fwBody img ∨ img.length ≠ 512 + fwBody img then 5
  else if !ovr && !pssValid (Config.romKey 0) (img.take 128) (bsub img 128 384) then 2
  else if sha256 (img.drop 512) ≠ bsub img 16 32 then 3
  else if !ovr && decide (byteAt img 6 < fuse) then 4
  else 0

/-- The image in the staging area: its header gives its length. -/
def fwStaged (m : Mem) : List Byte :=
  let h := memRead m 0 512
  if 2097152 - 512 < fwBody h then h else memRead m 0 (512 + fwBody h)

/-! The stages (R550, R551, R556 to R559). -/

/-- BOOT_STAGE_FAIL, and LASTFAIL with it (R551, R570). -/
def State.stageLog (s : State) (cause : Nat) : State :=
  let s := s.log 0x7201 [.val 1 s.rst.stage, .val 1 (Config.code (32 + cause))]
  { s with rst := { s.rst with lastFail := BitVec.ofNat 3 s.rst.stage } }

/-- A stage fails and the sequence stops at it (R551). -/
def State.stageFail (s : State) (cause : Nat) : State :=
  let s := s.stageLog cause
  { s with rst := { s.rst with stage := 0 } }

/-- Stage 1 of a P or M reset: straps sampled; the boot count read from retained memory, or from the journal where that is
invalid, and counted up in both places; recovery mode from the count or BOOT_SRC. Without the selected external reference
the stage does not complete and the attempt is counted (R556, R558, R559). -/
def State.stage1 (s : State) (extRef : Bool) : State :=
  let r := s.rst
  let count := if s.rst.rmemOk then r.bcount else r.journal
  let full := decide (count = 3)
  let next := if r.counted ∨ full then count else count + 1
  let ext := decide (r.pinClk = 0 ∨ r.pinClk = 2)
  let r := { r with
    bootSrc := r.pinBoot, clkMode := r.pinClk, ovr := r.pinOvr, bcount := next, journal := next, rmemOk := true, counted := true
    refok := extRef || !ext
    recovery := r.recovery || decide (r.pinBoot ≠ 0) || (full && !r.counted) }
  if ext && !extRef then { s with rst := r } else { s with rst := { r with stage := 2 } }

/-- The image in flash can run (R581, R583, R589). -/
def State.imageRuns (s : State) : Bool :=
  s.mgmt.imageOk && (s.mgmt.image.isEmpty || decide (verifyFw s.mgmt.image s.mgmt.fuse.toNat s.rst.ovr = 0))

/-- Recovery mode entered: the ROM loader runs, and nothing after stage 2 (R559, R583, R584). -/
def State.enterRecovery (s : State) : State :=
  let s := { s with rst := { s.rst with recovery := true, stage := 0 } }
  s.log 0x7202 [.val 4 s.rst.bcount.toNat, .val 1 s.rst.bootSrc.toNat]

/-- STRAP_RESERVED for the straps sampled at 0b11: the strap's number is free (R556; log entry 28). -/
def State.strapEvents (s : State) : State :=
  let s := if s.rst.bootSrc = 3 then s.log 0x7203 [.val 1 (Config.code 12), .val 1 3] else s
  if s.rst.clkMode = 3 then s.log 0x7203 [.val 1 (Config.code 13), .val 1 3] else s

/-- What the firmware does as it starts: it runs from the SRAM, with the image's measurement and SVN (R572); THERM_TRIP, OVERRIDE with the reset class (0 P, 1 M),
the board position in BKUP15, the Patina copy in force (R588, R589, R619, R621; log entry 36). -/
def State.firmwareStart (s : State) : State :=
  let g := s.mgmt
  let s := { s with mgmt := { g with running := g.image, svnRun := BitVec.ofNat 8 (byteAt g.image 6), fwMeas := sha256 g.image } }
  let s := if s.rst.tripPend then
      let s := s.log 0x6205 [.val 1 s.rst.tripKind.toNat, .val 2 s.rst.tripInst.toNat, .val 2 s.rst.tripTemp.toNat]
      { s with rst := { s.rst with tripPend := false }, mgmt := { s.mgmt with patTot := tabMod 0 s.mgmt.patTot 20 (· + 1) } }
    else s
  let s := if s.rst.ovr then s.log 0x7403 [.val 1 (Config.code (if s.rst.cls = .p then 10 else 11))] else s
  let s := s.strapEvents
  { s with rst := { s.rst with
      bkup := tabMod 0 s.rst.bkup 15 (fun w => (w &&& ~~~(63 : BitVec 64)) ||| BitVec.ofNat 64 s.rst.pinSlot.toNat)
      pll := true, stage := 3 } }

/-- The main rails can be on (R560, R564, R618). -/
def Pwr.railsMay (p : Pwr) : Bool := !p.off && !p.ovHold && !p.tripHold && p.en

/-- Stage 2: PWRGD, then the ROM verifies the image and starts the firmware, or enters recovery mode (R550, R559, R583). -/
def State.stage2 (s : State) : State :=
  if !s.pwr.railsMay ∨ s.mgmt.halted then s
  else
    let s := ({ s with pwr := { s.pwr with rails := true } }).setPwrgd true
    if s.rst.recovery || !s.imageRuns then s.strapEvents.enterRecovery else s.firmwareStart

/-- Rate of a stack re-planned one code lower, and the change recorded with its time (R29, R363, R551, R595, R597). -/
def State.replanRate (s : State) (st : Nat) : State :=
  let p := s.plinth st
  let r : BitVec 4 := if p.rate.toNat < 3 then p.rate + 1 else p.rate
  if r = p.rate then s
  else
    let (t, s) := s.timeNow
    (s.modPlinth st (fun p => { p with rate := r, rateLog := ((t.toNat % 2 ^ 63, r.toNat) :: p.rateLog).take 8 })).log 0x2105
      [.stack st, .val 1 p.rate.toNat, .val 1 r.toNat]

/-- Stage 3: the stacks train, or leave self-refresh; a stack with more than 10,000 corrected errors in an hour is re-planned;
a stack that fails training is logged, re-planned and retried once (R363, R550 to R552, R595). -/
def State.stage3 (s : State) (fail : Option Nat) : State :=
  match fail with
  | some st =>
    if s.rst.cls = .w ∨ s.rst.retried ∨ 20 ≤ st then s.stageFail st
    else
      let s := s.stageLog st
      ({ s with rst := { s.rst with retried := true } }).replanRate st
  | none =>
    let s := (List.range 20).foldl (fun (s : State) p =>
      let s := if s.rst.cls ≠ .w ∧ 10000 < (s.plinth p).hour then s.replanRate p else s
      s.modPlinth p (fun x => { x with trained := true, selfRef := false, hour := if s.rst.cls = .w then x.hour else 0 })) s
    { s with rst := { s.rst with stage := 4 } }

/-- The persisted copies, the one with the higher SERIAL first (R55). -/
def ArmSt.copies (a : ArmSt) : List (List Byte) :=
  match a.copy0, a.copy1 with
  | some x, some y => if hdrSerial x < hdrSerial y then [y, x] else [x, y]
  | some x, none => [x]
  | none, some y => [y]
  | none, none => []

/-- The armature of the boot in force. -/
def State.bootForce (s : State) (raw : List Byte) (x : Armature) : State :=
  { s with arm := { s.arm with inForce := some x, skipped := BitVec.ofNat 32 (skippedItems raw) } }

/-- The persisted armature put in force: the first copy that verifies (R55; log entry 36). DESIGN CHOICE: its ports with a role enter DOWN
with DOWNWHY 9 (RESET), a value that R11, R430 and R439 leave open for a boot from flash after a P or M reset; the first apply of an uploaded
armature leaves 0 there (log entry 71). -/
def State.bootArm (s : State) : State :=
  match s.arm.copies.find? (fun (b : List Byte) => decide (verifyArm b none s.mgmt.owner.2 s.rst.ovr 0 0 = 0)) with
  | none => s
  | some raw =>
    let x := Armature.ofRaw raw none
    ((((s.applyAll x.secs 9).touchPhys armBase raw.length true).hbmWrite armBase raw false).bootForce raw x).log 0x7107 [.val 8 (hdrSerial x.header)]

/-- Stage 5: the armature from flash, kept in force, or put in force by a mode-0 apply that is still to end (R50, R55, R550). -/
def State.stage5 (s : State) : State :=
  if s.rst.cls = .w ∧ s.rst.modeApply then s
  else
    let s := if s.rst.cls = .w then s.reapply else s.bootArm
    ({ s with rst := { s.rst with stage := 6 } }).reclockAll

/-- OPERATIONAL: the boot count is 0 in both places, the cells are released, and fuses are blown up to the running SVN (R550,
R558, R581). -/
def State.goOperational (s : State) : State :=
  let s := { s with rst := { s.rst with stage := 8, bcount := 0, journal := 0 } }
  let s := s.holdAll (fun h => { h with warm := false })
  let fuse := s.mgmt.fuse.toNat
  let svn := s.mgmt.svnRun.toNat
  if fuse < svn ∧ svn ≤ 64 then
    ({ s with mgmt := { s.mgmt with fuse := BitVec.ofNat 7 svn } }).log 0x7305 [.val 1 fuse, .val 1 svn]
  else s

/-- RESET_STAGE_DONE: the stage in progress completes, or its unit `fail` fails; a supply warning pauses the sequence (R550,
R551, R563). -/
def execResetStageDone (extRef : Bool) (fail : Option Nat) (s : State) : Res :=
  if s.pwr.supwarn ∨ s.pwr.state = .removing then .next s
  else if s.rst.stage = 0 ∨ s.rst.stage = 8 then .next s
  else if s.rst.stage = 1 then .next (s.stage1 extRef)
  else if s.rst.stage = 2 then .next s.stage2
  else if !s.pwr.rails ∨ (s.mgmt.halted ∧ s.rst.cls ≠ .w) then .next s
  else if s.rst.stage = 3 then .next (s.stage3 fail)
  else match fail with
    | some u => .next (s.stageFail u)
    | none =>
      if s.rst.stage = 5 then .next s.stage5
      else if s.rst.stage = 7 then .next s.goOperational
      else .next { s with rst := { s.rst with stage := s.rst.stage + 1 } }

/-- RESET_STAGE_TIMEOUT: the stage in progress exceeds its limit (R550, R551, R563). -/
def execResetStageTimeout (cause : Nat) (s : State) : Res :=
  if s.pwr.supwarn ∨ s.pwr.state = .removing ∨ s.rst.stage = 0 ∨ s.rst.stage = 8 ∨ s.pwr.off then .next s
  else .next (s.stageFail cause)

/-! A lone block (R553 to R555). -/

/-- RST_BLK names a block (R605). -/
def blockCode (b : Nat) : Bool :=
  decide (b < 20 ∨ (32 ≤ b ∧ b < 40) ∨ b = 48 ∨ b = 49 ∨ b = 50 ∨ b = 56 ∨ (64 ≤ b ∧ b < 112))

/-- BLOCK_RESET_REQUEST: a core of a cell resets its cell under class C, with its BLOCK_RESET; any other block is asked to go idle,
beside those that are resetting. A second request for a block that is resetting, and one during a W, M or P reset, is ignored (R547,
R553 to R555, R605). -/
def execBlockResetRequest (block : BitVec 8) (s : State) : Res :=
  let b := block.toNat
  if !blockCode b ∨ !s.operational ∨ b ∈ s.rst.quiet then .next s
  else match (if 64 ≤ b then s.cellOf (b - 64) else none) with
    | some k => .next ((s.commandReset k).log 0x6107 [.core (b - 64), .val 4 0])
    | none => .next { s with rst := { s.rst with
        lastBlk := block, active := true, timedOut := false, poisoned := 0, quiet := s.rst.quiet ++ [b] } }

/-- The 64 B sectors of the dirty lines of a slice poisoned (R370, R554). -/
def poisonDirty (pois : PSet) (ls : List SlLine) : PSet :=
  (ls.filter (fun l => l.dirty)).foldl (fun (p : PSet) l => psPutRange p (l.addr / 64) 4 true) pois

/-- A Plinth reset: its slice empty, its requests ended; dirty lines not written back leave poisoned sectors (R553, R554). -/
def State.resetPlinth (s : State) (p : Nat) (idle : Bool) : State :=
  let ls := (s.plinth p).slice
  let s := if idle then s else { s with hbmPois := poisonDirty s.hbmPois ls }
  s.modPlinth p (fun x => { x with slice := [], queue := [], flushing := false })

/-- The snapshot flash controller reset: a drain or upload in progress ends with SNAP_FAIL cause 1 (R499, R553). -/
def State.resetFlash (s : State) : State :=
  let s := match s.snp.drainGen with
    | none => s
    | some g =>
      let p := { s.snp with drainGen := none }
      ({ s with snp := { p with state := if p.state = SnpSt.drain then p.rest else p.state } }).log 0x8303
        [.val 4 s.snp.drainStep, .val 1 g, .val 1 1]
  match s.snp.upGen with
  | none => s
  | some g => (s.log 0x8303 [.val 4 ((s.snp.gen g).elim 0 (·.1)), .val 1 g, .val 1 1]).abortUpload

/-- An array of a parked core reset as a block: its accumulators; the weight sets stay (R553). -/
def Arr.blockReset (a : Arr) : Arr := { front := a.front, back := a.back }

/-- A parked core reset as a block: core store, accumulators, those of the MVU too, and tile registers zeroed (R103, R553). -/
def Core.blockReset (co : Core) : Core :=
  { co with
    store := [], storePois := [], treg := [], tregPois := [], mvu := [], mvuPois := []
    arrays := (co.arrays.map (fun (e : Nat × Arr) => (e.1, e.2.blockReset))).filter (fun (e : Nat × Arr) => decide (e.2 ≠ {})) }

/-- The effect of a block's reset; a quarantined port stays in quarantine (R436, R553). -/
def State.resetBlock (s : State) (b : Nat) (idle : Bool) : State :=
  if b < 20 then s.resetPlinth b idle
  else if b < 40 then
    if (s.port (b - 32)).state = .off ∨ (s.port (b - 32)).state = .quarantined then s else s.portDown (b - 32) 9 false
  else if b < 51 then
    (((s.hst.qps.filter (fun q => q.port == b - 48)).foldl State.requesterFails s).closeAll [b - 48]).modEth (b - 48) (fun e => { e with up := false, mode := 0, paused := 0 })
  else if b = 56 then s.resetFlash
  else s.modCore (b - 64) Core.blockReset

/-- The field that names a block in BLOCK_RESET (R629). -/
def blockField (b : Nat) : EvF :=
  if b < 20 then .stack b
  else if b < 40 then .link (b - 32)
  else if b < 51 then .eth (b - 48)
  else if b = 56 then .val 1 b
  else .core (b - 64)

/-- The local transfers in flight that have elements: core and entry (R332). -/
def State.transfers (s : State) : List (Nat × Entry) :=
  coreIds.flatMap (fun n => ((s.core n).inflight.filter (fun e =>
    e.stream == 4 && decide (wOpc e.word ∈ [0x80, 0x82, 0x83, 0x84, 0x85]))).map (fun e => (n, e)))

/-- A place lies partly in a stack. -/
def State.meetsStack (s : State) (b : Nat) : Place → Bool
  | .store _ _ _ => false
  | .hbm ps => ps.any (fun p => (List.range ((p.1 + p.2.1 - 1) / 256 + 1 - p.1 / 256)).any (fun i =>
      (s.cfg.stackOf ((p.1 / 256 + i) * 256)).1 == b))

/-- A poisoned error response to one request of a transfer, 64 B at most of element i from offset off: where its source or its
destination lies in the stack, what the request was to bring is poisoned (R231, R554). -/
def State.lateElem (s : State) (b n : Nat) (e : Entry) (i off : Nat) : State :=
  match s.cellOf n with
  | none => s
  | some k =>
    let c := s.cell k
    let x := s.xferOf c (c.lcore n) e
    match (x.elem (s.core n) i).ends with
    | none => s
    | some (sa, da) =>
      let len := min 64 (x.len - off)
      match s.place n c.root x.sv (sa + off) len true false with
      | (s, .error _) => s
      | (s, .ok src) =>
        match s.place n c.root x.dv (da + off) len x.acc.isSome true with
        | (s, .error _) => s
        | (s, .ok dst) =>
          if s.meetsStack b src || s.meetsStack b dst then
            let s := (s.ptouch false src).ptouch true dst
            (s.pput ((s.pget dst).map (fun q => (q.1, true))) dst).modCore n (fun co => co.modEntry 4 e.ord (fun e =>
              { e with flags := e.flags ||| fPOISON, status := e.status ||| 1 }))
          else s

/-- One request that was outstanding at a Plinth being reset: whose it was is not stated and free, a transfer's in flight or another
agent's (R554; log entry 17). -/
def State.straggler (s : State) (b : Nat) : State :=
  let ts := s.transfers
  let d (i : Nat) : Nat := Config.draw (s.free + i)
  let s := { s with free := s.free + 3 }
  match ts[d 0 % (ts.length + 1)]? with
  | none => s
  | some (n, e) =>
    match s.cellOf n with
    | none => s
    | some k =>
      let x := s.xferOf (s.cell k) ((s.cell k).lcore n) e
      s.lateElem b n e (d 1 % max 1 x.count) (64 * (d 2 % max 1 (ceilDiv x.len 64)))

/-- BLOCK_QUIESCE_END: a block is idle, or BQTO has passed with `outstanding` requests; it is reset, and they end with a
poisoned error response (R554). -/
def execBlockQuiesceEnd (block : BitVec 8) (idle : Bool) (outstanding : Nat) (s : State) : Res :=
  let b := block.toNat
  if b ∉ s.rst.quiet then .next s
  else
    let n := if idle then 0 else outstanding
    let s := s.resetBlock b idle
    let s := if b < 20 then (List.range n).foldl (fun (s : State) _ => s.straggler b) s else s
    let left := s.rst.quiet.filter (fun (x : Nat) => decide (x ≠ b))
    let s := { s with rst := { s.rst with quiet := left, lastBlk := block, active := decide (left ≠ []), timedOut := !idle, poisoned := satAdd 0 n } }
    .next (s.log 0x6107 [blockField b, .val 4 n])

end Sys2Proof.Machine
end

