-- ==== Sys2Proof/Machine/Supply.lean ====
section
/-! DEFINITION. The supply monitor, hot-plug and the power states (R557, R560 to R568, R570, R622). -/
namespace Sys2Proof.Machine
open Sys2Proof

/-! The input voltage (R560 to R563, R570). -/

/-- The lower of two readings. -/
def vLow (a b : BitVec 16) : BitVec 16 := if a.toNat ≤ b.toNat then a else b

/-- VIN takes a reading; VMIN and the lowest input of the warning in force follow it. -/
def Pwr.read (p : Pwr) (vin : BitVec 16) : Pwr :=
  { p with vin := vin, vmin := vLow p.vmin vin, warnMin := if p.supwarn then vLow p.warnMin vin else p.warnMin }

/-- The supply hold of every cell set or cleared. -/
def State.supplyHold (s : State) (b : Bool) : State :=
  cellIds.foldl (fun (s : State) k => if decide (s.cell k = {}) then s
    else s.modCell k (fun c => { c with holds := { c.holds with supply := b } })) s

/-- Every core island at half frequency, or back at its plan. -/
def State.halve (s : State) (b : Bool) : State :=
  (coreIds.foldl (fun (s : State) n => s.modCore n (fun co => { co with halved := b })) s).reclockAll

/-- SUPPLY_WARNING: the input falls through 38.5 V: every cell holds and the core clocks halve. A further fall during the
warning is a reading (R560, R561). -/
def execSupplyWarning (vin : BitVec 16) (s : State) : Res :=
  if 3850 ≤ vin.toNat then .next s
  else if s.pwr.supwarn then .next { s with pwr := s.pwr.read vin }
  else
    let p := { s.pwr with supwarn := true, warnMin := 0xFFFF, warns := satAdd s.pwr.warns 1 }
    .next (({ s with pwr := p.read vin }).supplyHold true |>.halve true)

/-- VIN_BELOW_RECOVERY: a fall below 39.5 V during the warning: the 50 us begin again (R562). -/
def execVinBelowRecovery (vin : BitVec 16) (s : State) : Res :=
  if s.pwr.supwarn ∧ vin.toNat < 3950 then .next { s with pwr := s.pwr.read vin } else .next s

/-- SUPPLY_RECOVERY_TIMER: 50 us above 39.5 V without a break, `us` microseconds after the warning began: the clocks return,
the cells resume, each enters heightened pointing, SUPPLY_WARN is logged (R230, R562). -/
def execSupplyRecoveryTimer (us : Nat) (s : State) : Res :=
  if !s.pwr.supwarn then .next s
  else
    let low := s.pwr.warnMin
    let s := { s with pwr := { s.pwr with supwarn := false, warnLast := satAdd 0 us } }
    let s := (s.supplyHold false).halve false
    let s := (cellIds.filter (fun k => (s.cell k).exists_)).foldl (fun (s : State) k => s.startHeighten k 1) s
    .next (s.log 0x6101 [.val 4 us, .val 2 low.toNat])

/-- SUPPLY_RESET_LEVEL: the input falls to 36.0 V: a P reset with the main rails off; a removal or insertion ends (R560, R563,
R567). -/
def execSupplyResetLevel (s : State) : Res :=
  let s := s.endRemoval.startPower.railsOff
  .next { s with pwr := { s.pwr with off := !s.pwr.en } }

/-- AON_LEVEL_LOSS: below 20.0 V nothing retained is left: backup registers 0, retained memory invalid, the event log only in
flash (R557, R578). -/
def execAonLevelLoss (s : State) : Res :=
  let s := s.startPower.railsOff
  let next : BitVec 32 := match s.evt.flash with
    | r :: _ => r.index + 1
    | [] => 0
  .next { s with
    rst := { s.rst with bkup := [], rmem := [], rmemOk := false, bcount := 0, lastFail := 0 }
    evt := { s.evt with recs := [], next := next }
    pwr := { s.pwr with off := true } }

/-- PWR_VMINCLR: VMIN reads 0xFFFF (R570). -/
def execPwrVminclr (s : State) : Res := .next { s with pwr := { s.pwr with vmin := 0xFFFF } }

/-! Insertion (R564, R566, R567). -/

/-- Step 3 of an insertion: leaving OFF, an M reset with cause bit 1; the main regulators soft-start (R564, R568). -/
def State.insert (s : State) : State :=
  let s := s.startModule 1
  { s with pwr := { s.pwr with off := false, rails := !s.pwr.ovHold && !s.pwr.tripHold, reinsert := false } }

/-- PRESENCE_DETECT: both presence contacts have mated; the 100 ms hold-off of EN starts (R564). -/
def execPresenceDetect (s : State) : Res :=
  if s.pwr.prsnt1 then .next s
  else .next { s with pwr := { s.pwr with prsnt0 := true, prsnt1 := true, holdoff := true } }

/-- EN_ASSERT: a rising edge of EN: the soft start of a module that is OFF; ignored until the hold-off has ended, and during
removal until the module is OFF (R547, R564, R567). -/
def execEnAssert (s : State) : Res :=
  if s.pwr.en then .next s
  else
    let s := { s with pwr := { s.pwr with en := true } }
    if s.pwr.state = .removing then .next { s with pwr := { s.pwr with reinsert := true } }
    else if s.pwr.holdoff ∨ !s.pwr.prsnt1 then .next s
    else if s.pwr.off then .next s.insert
    else .next s

/-- EN_HOLDOFF_EXPIRY: 100 ms after PRSNT1_N went low: an early EN is taken (R564). -/
def execEnHoldoffExpiry (s : State) : Res :=
  if !s.pwr.holdoff then .next s
  else
    let s := { s with pwr := { s.pwr with holdoff := false } }
    if s.pwr.en ∧ s.pwr.off then .next s.insert else .next s

/-- EN_REINSERT_DELAY: 10 ms after OFF, an EN that rose during the removal is taken as a fresh insertion (R567). -/
def execEnReinsertDelay (s : State) : Res :=
  if s.pwr.reinsert ∧ s.pwr.en ∧ s.pwr.off then .next s.insert else .next s

/-- PWRGD_TIMEOUT: rails not in regulation 50 ms after EN: the rails go off and PWR_FAIL is logged; the next rising edge of EN
tries again. Which rails failed is a free value (R564). -/
def execPwrgdTimeout (s : State) : Res :=
  if s.pwr.pwrgd ∨ !s.pwr.rails then .next s
  else
    let rails := Config.draw s.free % 2 ^ 24
    let s := ({ s with free := s.free + 1 }).railsOff
    let s := { s with pwr := { s.pwr with off := true } }
    .next (s.log 0x6104 [.val 4 rails])

/-! Removal (R565 to R567). -/

/-- The stage whose predecessors have completed. -/
def Rst.reached (r : Rst) : Nat := if r.recovery then 2 else if r.stage = 0 then r.lastFail.toNat else r.stage

/-- The units of a removal phase have been released (R550, R567). -/
def Rst.phaseApplies (r : Rst) (p : Nat) : Bool :=
  match p with
  | 1 => decide (6 ≤ r.reached)
  | 2 => decide (7 ≤ r.reached)
  | 3 => decide (7 ≤ r.reached)
  | 4 => decide (3 ≤ r.reached)
  | _ => true

/-- The phase that follows phase p. -/
def Rst.phaseAfter (r : Rst) (p : Nat) : Nat :=
  ((List.range 6).find? (fun q => decide (p < q) && r.phaseApplies q)).getD 5

/-- The phase of a removal. -/
def State.setPhase (s : State) (p : Nat) : State := { s with pwr := { s.pwr with rphase := p } }

/-- A port told to drain: at once where it is UP, after its retraining where it retrains. -/
def Port.startDrain (p : Port) : Port :=
  if p.state = .up then { p with state := .draining }
  else if p.state = .retrain then { p with drainAfter := true }
  else p

/-- The module is off after a removal. -/
def State.removed (s : State) : State := { s with pwr := { s.pwr with state := .active, rphase := 0, off := true } }

/-- A removal phase entered: 1 pre-empts every running cell; 3 drains every UP link port; 4 closes sessions and queue pairs and
writes the event log and the Patina; 5 ends with the rails off (R565). -/
def State.enterPhase (s : State) (p ms : Nat) : State :=
  let s := s.setPhase p
  match p with
  | 1 => cellIds.foldl State.hostPreempt s
  | 3 => (List.range 8).foldl (fun (s : State) i => s.modPort i Port.startDrain) s
  | 4 => (s.closeAll [0, 1, 2]).copyLog.patinaWrite
  | 5 => (s.log 0x6105 [.val 4 ms]).railsOff.removed
  | _ => s

/-- The waiting of a removal phase is over (R565). -/
def State.phaseOver (s : State) : Bool :=
  match s.pwr.rphase with
  | 1 => cellIds.all (fun k => decide ((s.cell k).ctx ≠ 2))
  | 2 => s.exp.fifo.isEmpty && !s.exp.aborting &&
      s.gal.tx.all (fun (e : Nat × TxFlow) => e.2.unacked.all (fun (u : Packet × Nat) => decide (u.1.ptype ≠ 0x09)))
  | 3 => (List.range 8).all (fun i => decide ((s.port i).state ≠ .draining ∧ (s.port i).state ≠ .retrain))
  | _ => true

/-- EN_DEASSERT: a falling edge of EN: an orderly removal from the first phase that applies (R565, R567). -/
def execEnDeassert (s : State) : Res :=
  if !s.pwr.en then .next s
  else
    let s := { s with pwr := { s.pwr with en := false, reinsert := false } }
    if s.pwr.off ∨ s.pwr.state = .removing then .next s
    else
      let old := match s.pwr.state with | .active => 0 | .idle => 1 | .standby => 2 | .removing => 3
      let s := ({ s with pwr := { s.pwr with state := .removing, standbyIn := false } }).log 0x6102 [.val 1 old, .val 1 3]
      .next (s.enterPhase (s.rst.phaseAfter 0) 0)

/-- REMOVAL_PHASE_DONE: what the phase waits for has come, `ms` milliseconds after EN fell; the next one begins (R565). -/
def execRemovalPhaseDone (ms : Nat) (s : State) : Res :=
  if s.pwr.state = .removing ∧ s.phaseOver then .next (s.enterPhase (s.rst.phaseAfter s.pwr.rphase) ms) else .next s

/-- REMOVAL_FLUSH_TIMEOUT: phase 2 reaches its limit (R565). -/
def execRemovalFlushTimeout (s : State) : Res :=
  if s.pwr.state ≠ .removing ∨ s.pwr.rphase ≠ 2 then .next s
  else
    let s := s.log 0x6106 [.val 4 s.exp.fifo.length]
    .next (s.enterPhase (s.rst.phaseAfter 2) 0)

/-- SURPRISE_REMOVAL: the input is lost, or PRSNT1_N goes high while EN is asserted: the rails are off, and nothing is saved but what the
always-on domain keeps. The other contact and EN stay as they are. Which of the two it is, the command does not name: without EN it is the
input, with EN a free value (R557, R566; log entry 77). -/
def execSurpriseRemoval (s : State) : Res :=
  let input := !s.pwr.en || decide (Config.draw s.free % 2 = 1)
  let s := ({ s with free := s.free + b2n s.pwr.en }).cold.railsOff
  .next { s with pwr := { s.pwr with prsnt1 := s.pwr.prsnt1 && input, holdoff := false, off := true } }

/-! Power states (R568). -/

/-- A cell is in the ACTIVE condition. -/
def Cell.active (c : Cell) : Bool := c.exists_ && decide (c.ctx ≠ 3)

/-- Cells in the ACTIVE condition. -/
def State.activeCells (s : State) : Nat := (cellIds.filter (fun k => (s.cell k).active)).length

/-- IDLE_ENTRY: 1 ms without a cell in the ACTIVE condition (R568). -/
def execIdleEntry (s : State) : Res :=
  if !s.operational ∨ s.pwr.state ≠ .active ∨ 0 < s.activeCells then .next s
  else .next (({ s with pwr := { s.pwr with state := .idle } }).log 0x6102 [.val 1 0, .val 1 1])

/-- PWR_REFUSED, with the number of cells in the ACTIVE condition (R568). -/
def State.pwrRefused (s : State) : State := s.log 0x6103 [.val 4 s.activeCells]

/-- PWR_TARGET: a write of 1 enters STANDBY, or is refused while a cell is in the ACTIVE condition; a write of 0 leaves STANDBY
through a W reset with cause bit 11 (R547, R568). -/
def execPwrTarget (on : Bool) (s : State) : Res :=
  if s.pwr.off ∨ s.rst.stage ≠ 8 ∨ s.pwr.state = .removing then .next s
  else if on then
    if s.pwr.state = .standby ∨ s.pwr.standbyIn then .next s
    else if 0 < s.activeCells then .next s.pwrRefused
    else .next { s with pwr := { s.pwr with target := true, standbyIn := true } }
  else
    let was := s.pwr.state
    let s := { s with pwr := { s.pwr with target := false, standbyIn := false } }
    if was ≠ .standby then .next s
    else
      let s := ({ s with pwr := { s.pwr with state := .active } }).log 0x6102 [.val 1 2, .val 1 0]
      .next (s.startWarm 11)

/-- A Plinth in standby: its slice and queue empty, its HBM in self-refresh. -/
def Plinth.asleep (x : Plinth) : Plinth := { x with slice := [], queue := [], flushing := false, selfRef := true }

/-- An Ethernet port with its link down. -/
def Eth.downed (e : Eth) : Eth := { e with up := false, mode := 0 }

/-- The module in standby. -/
def State.inStandby (s : State) : State := { s with pwr := { s.pwr with standbyIn := false, state := .standby } }

/-- A standby that is refused. -/
def State.endTarget (s : State) : State := { s with pwr := { s.pwr with standbyIn := false, target := false } }

/-- STANDBY_ENTERED: the slices have written back, every stack is in self-refresh, and the compute dies, the link ports, ETH0
and ETH1 are powered down; a cell that became active meanwhile turns the entry away (R568, R569). -/
def execStandbyEntered (s : State) : Res :=
  if !s.pwr.standbyIn then .next s
  else if 0 < s.activeCells then
    .next s.endTarget.pwrRefused
  else
    let old := if s.pwr.state = .idle then 1 else 0
    let s := (List.range 20).foldl (fun (s : State) p => s.modPlinth p Plinth.asleep) s
    let s := (List.range 8).foldl (fun (s : State) i => if (s.port i).state = .off then s else s.portDown i 9 false) s
    let s := s.closeAll [0, 1]
    let s := [0, 1].foldl (fun (s : State) i => s.modEth i Eth.downed) s
    .next (s.inStandby.log 0x6102 [.val 1 old, .val 1 2])

/-- REFCLK_FAIL: the selected external reference is lost for 10 us: the PLLs run from the on-module oscillator until the next P
or M reset (R622). -/
def execRefclkFail (s : State) : Res :=
  if s.rst.pllOsc ∨ !(s.rst.clkMode = 0 ∨ s.rst.clkMode = 2) ∨ s.pwr.off then .next s
  else .next { s with rst := { s.rst with pllOsc := true, refok := false } }

end Sys2Proof.Machine
end

