-- ==== Sys2Proof/Machine/Manage.lean ====
section
/-! DEFINITION. The management: thermal and power responses, firmware update, ownership, surveys, and the ROM recovery loader
(R572 to R594, R599 to R601, R609). -/
namespace Sys2Proof.Machine
open Sys2Proof

/-! Sensor responses (R576). -/

/-- The islands that slow together with a core: those of its cell, or the parked core alone. -/
def State.islandsOf (s : State) (n : Nat) : List Nat :=
  match s.cellOf n with
  | some k => (s.cell k).members
  | none => [n]

/-- A core island slows: its cell holds a hot island, or the module is above its power limit. -/
def State.slows (s : State) (n : Nat) : Bool := s.pwr.throttle || (s.islandsOf n).any (fun m => (s.core m).hot)

/-- Every island's THROTTLE brought up to date; an island that slows no more returns to its plan. -/
def State.rethrottle (s : State) : State :=
  coreIds.foldl (fun (s : State) n =>
    let b := s.slows n
    (s.modCore n (fun co => { co with throttle := b, slow := if b then co.slow else 0 })).reclock n) s

/-- A core above its limit, at a temperature. -/
def Core.overheated (co : Core) (temp : Int) : Core := { co with hot := true, temp := temp }

/-- Heightened pointing in the core's cell for a thermal event (R230). -/
def State.heightenOf (s : State) (n : Nat) : State :=
  match s.cellOf n with
  | some k => s.startHeighten k 3
  | none => s

/-- CORE_OVERTEMP: an island at 100 C or more: its cell slows, a thermal event under R230 (R576). -/
def execCoreOvertemp (core : Fin 48) (temp : Int) (s : State) : Res :=
  let n := core.val
  if temp < 100 ∨ (s.core n).hot ∨ s.pwr.off then .next s
  else
    let s := ((s.modCore n (fun co => co.overheated temp)).rethrottle).heightenOf n
    .next (s.log 0x6201 [.core n, .val 2 (sNat 16 temp), .val 1 1])

/-- CORE_COOLDOWN: the island at 95 C or less for 10 ms; the clocks of its cell return to plan once no island of it is hot
(R576). -/
def execCoreCooldown (core : Fin 48) (temp : Int) (s : State) : Res :=
  let n := core.val
  if 95 < temp ∨ !(s.core n).hot then .next s
  else
    let s := (s.modCore n (fun co => { co with hot := false, temp := temp })).rethrottle
    .next (s.log 0x6201 [.core n, .val 2 (sNat 16 temp), .val 1 0])

/-- THROTTLE_STEP: 1 ms of thermal or power slowing: 25 MHz off every island concerned, together (R576). -/
def execThrottleStep (s : State) : Res :=
  .next (coreIds.foldl (fun (s : State) n =>
    if s.slows n then (s.modCore n (fun co => { co with throttle := true, slow := min co.planFreq.toNat (co.slow + 25) })).reclock n else s) s)

/-- HBM_REFRESH_BOOST: a stack above 85 C refreshes at twice the rate (R368, R576). -/
def execHbmRefreshBoost (pl : Fin 20) (s : State) : Res :=
  .next (if (s.plinth pl.val).trained then s.modPlinth pl.val (fun p => { p with boost := true }) else s)

/-- HBM_REFRESH_NORMAL: 82 C or less (R576). -/
def execHbmRefreshNormal (pl : Fin 20) (s : State) : Res := .next (s.modPlinth pl.val (fun p => { p with boost := false }))

/-- HBM_HOT_START: a stack at 95 C or more; its Plinth serves at most half the peak (R576). -/
def execHbmHotStart (pl : Fin 20) (temp : Int) (s : State) : Res :=
  if temp < 95 ∨ (s.plinth pl.val).hotHalf ∨ s.pwr.off then .next s
  else
    let s := s.modPlinth pl.val (fun p => { p with hotHalf := true })
    .next (s.log 0x6202 [.stack pl.val, .val 2 (sNat 16 temp), .val 1 1])

/-- HBM_HOT_END: 90 C or less (R576). -/
def execHbmHotEnd (pl : Fin 20) (temp : Int) (s : State) : Res :=
  if 90 < temp ∨ !(s.plinth pl.val).hotHalf then .next s
  else
    let s := s.modPlinth pl.val (fun p => { p with hotHalf := false })
    .next (s.log 0x6202 [.stack pl.val, .val 2 (sNat 16 temp), .val 1 0])

/-- POWER_OVER_LIMIT: above 3,200 W over 1 ms: every island slows (R576). -/
def execPowerOverLimit (watts : Nat) (s : State) : Res :=
  if watts ≤ 3200 ∨ s.pwr.throttle ∨ s.pwr.off then .next s
  else
    let s := ({ s with pwr := { s.pwr with throttle := true } }).rethrottle
    .next (s.log 0x6203 [.val 2 watts, .val 1 1])

/-- POWER_THROTTLE_END: 3,100 W or less (R576). -/
def execPowerThrottleEnd (watts : Nat) (s : State) : Res :=
  if 3100 < watts ∨ !s.pwr.throttle then .next s
  else
    let s := ({ s with pwr := { s.pwr with throttle := false } }).rethrottle
    .next (s.log 0x6203 [.val 2 watts, .val 1 0])

/-- COOLANT_ALARM: the inlet above 40 C, or the flow, in steps of 0.05 L/min, below 6 L/min, for 1 s: logged (R575, R576; log entry
37). -/
def execCoolantAlarm (inlet : Int) (flow : Nat) (s : State) : Res :=
  if (inlet ≤ 40 ∧ 120 ≤ flow) ∨ s.pwr.off then .next s
  else .next (s.log 0x6204 [.val 2 (sNat 16 inlet), .val 2 flow])

/-! Firmware update (R582, R583, R599). -/

/-- FW_BEGIN: the staging area is emptied; an install in progress goes on (R582, R599). -/
def execFwBegin (s : State) : Res :=
  if s.mgmt.fwState = .installing ∨ !s.fwUp then .next s
  else .next { s with mgmt := { s.mgmt with stageB := [], fwState := .staging, fwReason := 0, svnStaged := 0 } }

/-- FW_VERIFY: the staged image under R581 (R582). -/
def execFwVerify (s : State) : Res :=
  let g := s.mgmt
  if g.fwState ≠ .staging ∨ !s.fwUp then .next s
  else
    let img := fwStaged g.stageB
    let r := verifyFw img g.fuse.toNat false
    if r = 0 then
      .next (({ s with mgmt := { g with fwState := .verified, svnStaged := BitVec.ofNat 8 (byteAt img 6) } }).log 0x7301
        [.val 1 (byteAt img 6), .val 4 img.length])
    else
      .next (({ s with mgmt := { g with fwState := .failed, fwReason := BitVec.ofNat 5 r } }).log 0x7302 [.val 1 r])

/-- FW_INSTALL: the image region is erased and written; ignored in any state but VERIFIED (R582, R583). -/
def execFwInstall (s : State) : Res :=
  if s.mgmt.fwState ≠ .verified ∨ !s.fwUp then .next s
  else .next { s with mgmt := { s.mgmt with fwState := .installing, imageOk := false } }

/-- FW_INSTALL_DONE: written and read back, or reason 6, flash write (R582, R600). -/
def execFwInstallDone (ok : Bool) (s : State) : Res :=
  let g := s.mgmt
  if g.fwState ≠ .installing then .next s
  else if ok then
    let img := fwStaged g.stageB
    .next (({ s with mgmt := { g with fwState := .installed, image := img, imageOk := true } }).log 0x7303 [.val 1 (byteAt img 6)])
  else .next (({ s with mgmt := { g with fwState := .failed, fwReason := 6 } }).log 0x7302 [.val 1 6])

/-! Ownership (R586, R587, R599). -/

/-- The record written to the copy that is not in force (R586). -/
def Mgmt.setOwner (g : Mgmt) (epoch : Nat) (hash : List Byte) : Mgmt :=
  if g.own1.1 ≤ g.own0.1 then { g with own1 := (epoch, hash) } else { g with own0 := (epoch, hash) }

/-- A key hash; no hash where every byte is zero. -/
def hashOrNone (b : List Byte) : List Byte := if allZero b then [] else b

/-- The offset of the first field of a transfer record that fails, none where it passes (R587). -/
def ownFails (g : Mgmt) : Option Nat :=
  let b := memRead g.ownStage 0 512
  if bsub b 0 4 ≠ ascii "OWNT" then some 0
  else if bfld b 4 2 ≠ 0x0100 then some 4
  else if !zeroAt b 6 2 then some 6
  else if bfld b 8 8 ≠ g.owner.1 + 1 then some 8
  else if bsub b 48 32 ≠ bsub g.idHash 0 32 then some 48
  else if !zeroAt b 80 48 then some 80
  else if g.owner.2 = [] ∨ !pssValid g.owner.2 (b.take 128) (bsub b 128 384) then some 128
  else none

/-- A new owner: the change counted, and the armature copies of the old owner gone (R587, R599). -/
def State.newOwner (s : State) (g : Mgmt) : State :=
  { s with mgmt := { g with patTot := tabMod 0 g.patTot 6 (· + 1) }
           arm := { s.arm with copy0 := none, copy1 := none, persisting := none } }

/-- OWN_COMMIT: the transfer record committed, or OWNER_REFUSED; FW_BUSY during an install (R587, R599). Close cause 4 is an owner
change (log entry 28). -/
def execOwnCommit (s : State) : Res :=
  if !s.fwUp then .next s
  else if s.mgmt.fwState = .installing then .next (s.log 0x7304 [.val 2 0x0011])
  else match ownFails s.mgmt with
    | some off => .next (s.log 0x7402 [.val 4 off])
    | none =>
      let g := s.mgmt
      let b := memRead g.ownStage 0 512
      let old := g.owner.2
      let epoch := bfld b 8 8
      let g := g.setOwner epoch (hashOrNone (bsub b 16 32))
      let s := s.newOwner g
      let ids := (s.hst.sessions.filter (fun (x : Session) => x.owner && x.key == old)).map (fun (x : Session) => x.id)
      let s := ids.foldl (fun (s : State) id => s.closeSession id 4) s
      .next (s.log 0x7401 [.val 4 epoch, .val 4 (bfld b 16 4)])

/-! Surveys (R590 to R594, R599). -/

/-- Every island due for a survey. -/
def State.dueAll (s : State) : State :=
  let s := coreIds.foldl (fun (s : State) n => s.modCore n (fun co => { co with survDue := true })) s
  { s with mgmt := { s.mgmt with survOther := otherIslands, survCnt := 0, survLow := 255 } }

/-- SURVEY_DUE: every 7 days (R592). -/
def execSurveyDue (s : State) : Res := .next (if s.fwUp then s.dueAll else s)

/-- SURVEY_START: SURVEY.START written (R592, R600). -/
def execSurveyStart (s : State) : Res := .next (if s.fwUp then s.dueAll else s)

/-- SURVEY_ABORT_CMD: SURVEY.ABORT ends every pending survey (R600). -/
def execSurveyAbortCmd (s : State) : Res :=
  let s := coreIds.foldl (fun (s : State) n => s.modCore n (fun co => { co with survDue := false })) s
  .next { s with mgmt := { s.mgmt with survOther := [] } }

/-- Islands that await a survey. -/
def State.survPending (s : State) : Nat :=
  (coreIds.filter (fun n => (s.core n).survDue)).length + s.mgmt.survOther.length

/-- The points at which R593 measures: the plan, then 5 mV more each up to V_MAX, then 25 MHz less each down to 1.9 GHz: frequency
and voltage. -/
def survPoints (f v vmax : Nat) : List (Nat × Nat) :=
  let up := (List.range (ceilDiv (vmax - v) 5)).map (fun i => (f, min vmax (v + 5 * (i + 1))))
  let down := (List.range ((f - 1900) / 25)).map (fun i => (f - 25 * (i + 1), max v vmax))
  (f, v) :: up ++ down

/-- What a survey decides: the index of the first point whose margin reaches 8 %, or of the largest margin; and whether 8 % was
reached. -/
def survPick (ms : List Nat) : Nat × Bool :=
  match findIdx? (fun m => decide (8 ≤ m)) ms with
  | some i => (i, true)
  | none =>
    let best := ms.foldl max 0
    ((findIdx? (fun m => m == best) ms).getD 0, false)

/-- What keeps an island from its survey: 1 its cell runs, 2 a thermal event, 3 a supply warning (R591, R599). -/
def State.survBar (s : State) (n : Nat) : Option Nat :=
  let idle : Bool := match s.cellOf n with
    | none => true
    | some k => decide ((s.cell k).ctx = 3 ∨ s.pwr.state = .idle)
  if s.pwr.supwarn then some 3 else if (s.core n).hot then some 2 else if idle then none else some 1

/-- The ring oscillator lies within 3 % of its baseline (R594). -/
def roNear (ro base : Nat) : Bool := decide (100 * (if ro ≤ base then base - ro else ro - base) ≤ 3 * base)

/-- A survey's result put in the core: history, baseline at the first survey, the re-plan, the suspect state (R593, R594,
R597). -/
def Core.surveyed (co : Core) (t ro m : Nat) (pt : Nat × Nat) (replan ok : Bool) : Core :=
  let base := if co.roBase = 0 then ro else co.roBase
  { co with
    survDue := false, roBase := base
    survHist := ((t, (pt.2, (pt.1, (m, ro)))) :: co.survHist).take 52
    replan := if replan then some pt else co.replan
    suspect := co.suspect && !(ok && !replan && roNear ro base) }

/-- The round is over once nothing is pending: SURVEY_DONE, and a Patina write (R592, R597, R601). -/
def State.surveyRound (s : State) : State :=
  if 0 < s.survPending then s
  else
    let s := s.log 0x7501 [.val 4 s.mgmt.survCnt, .val 4 s.mgmt.survLow]
    ({ s with mgmt := { s.mgmt with patTot := tabSet 0 s.mgmt.patTot 10 s.mgmt.survLow } }).patinaWrite

/-- SURVEY_ISLAND_DONE: an island's survey: MARGIN_REPLAN, MARGIN_EXHAUSTED, the suspect state; an island that is no longer idle
ends without result, with SURVEY_ABORT. The other islands are surveyed in the same window, through their ring oscillators, whose
frequencies are free values (R591 to R594, R599). -/
def execSurveyIslandDone (core : Fin 48) (r : SurveyResult) (s : State) : Res :=
  let n := core.val
  let co := s.core n
  if !co.survDue ∨ !s.fwUp then .next s
  else match s.survBar n with
    | some cause => .next (s.log 0x7505 [.core n, .val 1 (Config.code (13 + cause))])
    | none =>
      let pts := survPoints co.planFreq.toNat co.planVolt.toNat co.vmax.toNat
      let ms := (List.range pts.length).map (fun i => r.margins.getD i 0)
      let (i, ok) := survPick ms
      let pt := pts.getD i (co.planFreq.toNat, co.planVolt.toNat)
      let m := ms.getD i 0
      let (t, s) := s.timeNow
      let s := s.modCore n (fun co => co.surveyed (t.toNat % 2 ^ 63) r.ro m pt (decide (i ≠ 0)) ok)
      let g := s.mgmt
      let rings := (g.survOther.zipIdx).foldl (fun (r : Tab (List (Nat × Nat))) (i, j) =>
        tabMod [] r i (fun l => ((t.toNat % 2 ^ 63, Config.draw (s.free + j)) :: l).take 52)) g.patRing
      let hrs := (n :: g.survOther).foldl (fun (h : Tab Nat) i => tabSet 0 h i 0) g.survHrs
      let s := { s with free := s.free + g.survOther.length,
                        mgmt := { g with survCnt := g.survCnt + 1 + g.survOther.length, survLow := min g.survLow m, survOther := [],
                                         survHrs := hrs, patRing := rings } }
      let s := if i = 0 then s
        else s.log 0x7502 [.core n, .val 4 co.planVolt.toNat, .val 4 pt.2, .val 4 co.planFreq.toNat, .val 4 pt.1]
      let s := if ok then s else s.log 0x7503 [.core n, .val 4 (ms.getLast?.getD 0)]
      .next s.surveyRound

/-- SURVEY_OVERDUE: an island without a window 8 days past its due date (R592). -/
def execSurveyOverdue (island : Nat) (days : Nat) (s : State) : Res :=
  let due := if island < 48 then (s.core island).survDue else s.mgmt.survOther.contains island
  if !due ∨ days < 8 then .next s
  else .next (s.log 0x7504 [if island < 48 then .core island else .val 2 island, .val 4 days])

/-- The suspect state of a core cleared. -/
def Core.clearSuspect (co : Core) : Core := { co with suspect := false }

/-- CAL_SUSPECT_CLEAR: a write of 1 clears a core's suspect state (R219, R609). -/
def execCalSuspectClear (mask : BitVec 48) (s : State) : Res :=
  .next ((coreIds.filter (fun n => mask.getLsbD n)).foldl (fun (s : State) n => s.modCore n Core.clearSuspect) s)

/-! The ROM recovery loader (R559, R584). -/

/-- A response of the loader, kept for a repeated SEQ. -/
def State.trlpSend (s : State) (seq : BitVec 32) (status : Nat) (payload : List Byte) : State :=
  ({ s with mgmt := { s.mgmt with trlpSeq := some (seq.toNat, (status, payload)) } }).emit (.trlp seq.toNat status payload)

/-- The loader's path of a request: nothing outside recovery mode, the kept response for a repeated SEQ (R584). -/
def State.trlp (s : State) (seq : BitVec 32) (run : State → State) : State :=
  if !s.rst.recovery ∨ s.rst.stage ≠ 0 ∨ s.pwr.off then s
  else match s.mgmt.trlpSeq with
    | some (q, (st, p)) => if q = seq.toNat then s.emit (.trlp q st p) else run s
    | none => run s

/-- A refusal whose status the specification does not give: a free value other than 0 and 2 (R584). -/
def State.trlpRefuse (s : State) (seq : BitVec 32) : State :=
  ({ s with free := s.free + 1 }).trlpSend seq (3 + Config.draw s.free % 65533) []

/-- TRLP_HELLO: identity record fields and device certificate, fuse counter, ownership, OVR (R584; log entry 37). -/
def execTrlpHello (seq : BitVec 32) (s : State) : Res :=
  .next (s.trlp seq (fun s => s.trlpSend seq 0 (s.mgmt.ident ++ leBytes 1 s.mgmt.fuse.toNat ++
    leBytes 1 (b2n (s.mgmt.owner.2 ≠ [])) ++ leBytes 1 (b2n s.rst.ovr))))

/-- TRLP_LOAD: a chunk of the image, without gaps (R584). -/
def execTrlpLoad (seq : BitVec 32) (offset : Nat) (data : List Byte) (s : State) : Res :=
  .next (s.trlp seq (fun s =>
    if offset ≠ s.mgmt.trlpNext ∨ data.length = 0 ∨ 8192 < data.length ∨ 2097152 < offset + data.length then s.trlpRefuse seq
    else
      let g := s.mgmt
      ({ s with mgmt := { g with stageB := memWrite g.stageB offset data, trlpNext := offset + data.length } }).trlpSend seq 0 []))

/-- TRLP_COMMIT: the staged image verified and written, then the count at 0 and an M reset with cause bit 7 (R559, R584, R599). -/
def execTrlpCommit (seq : BitVec 32) (s : State) : Res :=
  .next (s.trlp seq (fun s =>
    let img := fwStaged s.mgmt.stageB
    let r := verifyFw img s.mgmt.fuse.toNat s.rst.ovr
    if r ≠ 0 then s.trlpSend seq 2 (leBytes 1 r)
    else
      let s := s.trlpSend seq 0 []
      let s := { s with mgmt := { s.mgmt with image := img, imageOk := true }, rst := { s.rst with bcount := 0, journal := 0 } }
      s.startModule 7))

/-- TRLP_OWNER: a key hash installed with OWNER_EPOCH 1, where no owner is installed or the override is in force (R584,
R586). -/
def execTrlpOwner (seq : BitVec 32) (hash : List Byte) (s : State) : Res :=
  .next (s.trlp seq (fun s =>
    if hash.length ≠ 32 ∨ (s.mgmt.owner.2 ≠ [] ∧ !s.rst.ovr) then s.trlpRefuse seq
    else ({ s with mgmt := { s.mgmt with own0 := (1, hashOrNone hash), own1 := (0, []) } }).trlpSend seq 0 []))

/-- TRLP_REBOOT: an M reset with cause bit 7 (R584). -/
def execTrlpReboot (seq : BitVec 32) (s : State) : Res :=
  .next (s.trlp seq (fun s => (s.trlpSend seq 0 []).startModule 7))

/-- LINK_LOCAL_FALLBACK: no address from DHCP within 10 s: a link-local one (R584). -/
def execLinkLocalFallback (s : State) : Res :=
  if s.rst.recovery ∧ s.rst.stage = 0 ∧ s.mgmt.loaderIp = 0 then .next { s with mgmt := { s.mgmt with loaderIp := 2 } } else .next s

end Sys2Proof.Machine
end

