-- ==== Sys2Proof/Machine/Registers.lean ====
section
/-! DEFINITION. The register map: what a read of a local address returns and what a write to it does, block by block
(R7 to R10, R602 to R610 and the registers that the other chapters own). -/
namespace Sys2Proof.Machine
open Sys2Proof

/-! Access. -/

/-- The state that a command run by a register write leaves. -/
def State.run (s : State) (f : State → Res) : State :=
  match f s with
  | .next t => t
  | _ => s

/-- The state after a command, where a written bit asks for it. -/
def State.onBit (s : State) (v i : Nat) (f : State → Res) : State := if bit v i then s.run f else s

/-- MEM_ADDR for an unpopulated address that the management firmware reads or writes; the numbers that stand for it are free (R365,
R390; log entry 28). -/
def State.csrMiss (s : State) (a : Nat) : State := s.log 0x2106 [.val 8 a, .val 1 (Config.code 9), .val 2 (Config.code 20)]

/-- REG_ACCESS for a host write to a register of the management firmware; the writer is the host (R605; log entry 28). -/
def State.regAccess (s : State) (a : Nat) : State := s.log 0x7001 [.val 8 a, .val 1 (Config.code 8)]

/-! CORE (R87, R111, R273, R389). -/

/-- SCHED_HOLD of a cell (R273). -/
def Cell.holdWord (c : Cell) : Nat :=
  c.held.toNat + c.lastTok.toNat * 2 ^ 32 + c.lastCause.toNat * 2 ^ 40 + c.lastCore.toNat * 2 ^ 43

/-- A read in the block of a core; SCHED registers report the cell of the core, 0 for none. -/
def State.coreRead (s : State) (n off : Nat) : Nat :=
  let co := s.core n
  let c := match s.cellOf n with | some k => s.cell k | none => {}
  match off with
  | 0x40 => co.flg.toNat
  | 0x100 => (co.arr 0).layoutWord
  | 0x108 => (co.arr 1).layoutWord
  | 0x110 => (co.arr 2).layoutWord
  | 0x118 => (co.arr 3).layoutWord
  | 0x200 => c.tick.toNat
  | 0x208 => c.holdWord
  | 0x308 => co.xlFault.toNat
  | _ => 0

/-- A write in the block of a core. -/
def State.coreWrite (s : State) (n off v : Nat) : State :=
  match off with
  | 0x40 => s.modCore n (fun co => { co with flg := co.flg &&& ~~~(BitVec.ofNat 12 v) })
  | 0x300 => if h : n < 48 then s.onBit v 0 (execXlInval ⟨n, h⟩) else s
  | _ => s

/-! RST (R605). -/

/-- A byte of the retained-memory window: of a retained record, of the boot count or LASTFAIL, or what the firmware keeps there; where
each lies is not laid out (R557, R558, R570, R578; log entry 13). -/
def State.rmemByte (s : State) (o : Nat) : Byte :=
  let p := Config.rmemPlace o
  if p < 61440 then
    match s.evt.recs.find? (fun r => r.index.toNat % 1920 == p / 32) with
    | some r => r.bytes.getD (p % 32) 0
    | none => 0
  else if p = 61440 then BitVec.ofNat 8 s.rst.bcount.toNat
  else if p = 61441 then BitVec.ofNat 8 s.rst.lastFail.toNat
  else memGet s.rst.rmem o

/-- A read in RST. -/
def State.rstRead (s : State) (off : Nat) : State × Nat :=
  let r := s.rst
  if 0x10000 ≤ off ∧ off < 0x20000 then (s, leNat ((List.range 8).map (fun i => s.rmemByte (off - 0x10000 + i))))
  else if 0x100 ≤ off ∧ off < 0x180 then (s, (tabGet 0 r.bkup ((off - 0x100) / 8)).toNat)
  else (s, match off with
    | 0x00 => r.cause.toNat
    | 0x10 => r.lastBlk.toNat + b2n r.active * 2 ^ 8 + b2n r.timedOut * 2 ^ 9 + r.poisoned.toNat * 2 ^ 16
    | 0x18 => r.tripKind.toNat + r.tripInst.toNat * 2 ^ 3 + r.tripTemp.toNat * 2 ^ 11 + b2n r.tripPend * 2 ^ 19
    | _ => 0)

/-- A write in RST: a host write to a backup register or to retained memory is discarded and logged. -/
def State.rstWrite (s : State) (host : Bool) (a off v : Nat) : State :=
  let bk := decide (0x100 ≤ off ∧ off < 0x180)
  if bk || decide (0x10000 ≤ off ∧ off < 0x20000) then
    if host then s.regAccess a
    else if bk then { s with rst := { s.rst with bkup := tabSet 0 s.rst.bkup ((off - 0x100) / 8) (BitVec.ofNat 64 v) } }
    else { s with rst := { s.rst with rmem := memWrite s.rst.rmem (off - 0x10000) (leBytes 8 v) } }
  else match off with
    | 0x00 => { s with rst := { s.rst with cause := s.rst.cause &&& ~~~(BitVec.ofNat 12 v) } }
    | 0x08 => s.onBit v 8 (execBlockResetRequest (BitVec.ofNat 8 v))
    | 0x18 => if bit v 19 then { s with rst := { s.rst with tripPend := false } } else s
    | _ => s

/-! CLK (R606). -/

/-- The slowest member of a cell, the lowest-numbered of equals: its clock and its number (R21). -/
def State.slowest (s : State) (k : Nat) : Option (Nat × Nat) :=
  (s.cell k).members.foldl (fun (b : Option (Nat × Nat)) n =>
    let f := (s.core n).curFreq.toNat
    match b with
    | none => some (f, n)
    | some x => if f < x.1 then some (f, n) else some x) none

/-- The length of a tick in ps at a clock in MHz; which neighbour an inexact length is reported as is open (log entry 38). -/
def tickPs (f : Nat) : Nat :=
  if f = 0 then 0
  else 8000000 / f + (if 8000000 % f ≠ 0 ∧ Config.tickUp f = true then 1 else 0)

/-- A read in CLK. -/
def State.clkRead (s : State) (off : Nat) : Nat :=
  if off < 0x180 then
    let c := s.core (off / 8)
    c.planFreq.toNat + c.planVolt.toNat * 2 ^ 12 + c.vmax.toNat * 2 ^ 24 + b2n c.replan.isSome * 2 ^ 36
  else if 0x200 ≤ off ∧ off < 0x380 then
    let c := s.core ((off - 0x200) / 8)
    c.curFreq.toNat + b2n c.droop * 2 ^ 12 + b2n c.throttle * 2 ^ 13 + b2n c.halved * 2 ^ 14
  else if 0x400 ≤ off ∧ off < 0x480 then
    match s.slowest ((off - 0x400) / 8) with
    | none => 0
    | some (f, n) => tickPs f % 2 ^ 16 + n * 2 ^ 16
  else if off = 0x500 then b2n s.rst.refok + b2n s.rst.pll * 2
  else 0

/-- A write in CLK: the plan fields, by the management firmware alone. -/
def State.clkWrite (s : State) (host : Bool) (off v : Nat) : State :=
  if host ∨ 0x180 ≤ off ∨ 2100 < bits v 11 0 then s
  else (s.modCore (off / 8) (fun c => { c with planFreq := BitVec.ofNat 12 v, planVolt := BitVec.ofNat 12 (v / 2 ^ 12),
                                               vmax := BitVec.ofNat 12 (v / 2 ^ 24) })).reclock (off / 8)

/-! EVT (R607). -/

/-- The oldest index of a list of records, newest first; of an empty list the specification gives none (log entry 28). -/
def Evt.oldest (l : List EvRec) : Nat := (l.getLast?.map (fun r => r.index.toNat)).getD (Config.code 18 % 2 ^ 32)

/-- A read in EVT: a place that no retained record takes reads 0. -/
def Evt.read (e : Evt) (off : Nat) : Nat :=
  if 0x10000 ≤ off ∧ off < 0x1F000 then
    match e.recs.find? (fun r => r.index.toNat % 1920 == (off - 0x10000) / 32) with
    | some r => bfld r.bytes (off % 32) 8
    | none => 0
  else match off with
    | 0x00 => e.next.toNat
    | 0x08 => Evt.oldest e.recs + Evt.oldest e.flash * 2 ^ 32
    | 0x10 => e.seen.toNat + e.suppr.toNat * 2 ^ 32
    | _ => 0

/-- A write in EVT. -/
def Evt.write (e : Evt) (off v : Nat) : Evt :=
  if off = 0x10 then { e with seen := e.seen &&& ~~~(BitVec.ofNat 5 v) } else e

/-! PAT (R608). -/

/-- Where the ten sections begin in the Patina, and where the last one ends (R608). -/
def patStarts : List Nat :=
  [0x00000, 0x01000, 0x02000, 0x03000, 0x04000, 0x1C000, 0x1D000, 0x29000, 0x2A000, 0x2E000, 0x2F000]

/-- A byte of the Patina copy in force: of a section, of the sequence number and SHA-256 over the whole copy, or 0 between them (R597,
R608; log entry 13). -/
def Mgmt.patByte (g : Mgmt) (o : Nat) : Byte :=
  let i := (patStarts.filter (fun x => decide (x ≤ o))).length - 1
  if 0x3FFC0 ≤ o then Config.patinaByte 10 (g.patSeq.toNat :: g.patSecs.flatten) (o - 0x3FFC0)
  else if 10 ≤ i then 0
  else Config.patinaByte i (g.patSecs.getD i []) (o - patStarts.getD i 0)

/-- A read in PAT. -/
def State.patRead (s : State) (off : Nat) : Nat :=
  let g := s.mgmt
  if 0x10000 ≤ off ∧ off < 0x50000 then leNat ((List.range 8).map (fun i => g.patByte (off - 0x10000 + i)))
  else if off = 0 then g.patSeq.toNat + b2n g.patVal * 2 ^ 32
  else if 0x100 ≤ off ∧ off < 0x140 then bfld g.patSum (off - 0x100) 8
  else 0

/-! CAL (R609). -/

/-- A number whose bit `i` says whether the test holds of `i`. -/
def bitsWhere (n : Nat) (p : Nat → Bool) : Nat := ((List.range n).map (fun i => b2n (p i) * 2 ^ i)).sum

/-- A read in CAL. -/
def State.calRead (s : State) (off : Nat) : Nat :=
  if 0x100 ≤ off ∧ off < 0x280 then
    let c := s.core ((off - 0x100) / 8)
    c.retry60.toNat + c.mism.toNat * 2 ^ 16 + c.calCause.toNat * 2 ^ 32
  else match off with
    | 0x00 => bitsWhere 48 (fun n => (s.core n).suspect)
    | 0x08 => s.calPoints.toNat + s.calPmiss.toNat * 2 ^ 32
    | 0x10 => bitsWhere 16 (fun k => decide (0 < (s.cell k).heighten)) + bitsWhere 16 (fun k => (s.cell k).taint) * 2 ^ 16
    | _ => 0

/-- A write in CAL. -/
def State.calWrite (s : State) (off v : Nat) : State :=
  if off = 0 then s.run (execCalSuspectClear (BitVec.ofNat 48 v)) else s

/-! ARM (R610). -/

/-- A read in ARM: EPOCH shows the epoch of a PENDING mode-2 load, CELLS the mask of a mode-1 commit. -/
def ArmSt.read (a : ArmSt) (off : Nat) : Nat :=
  match off with
  | 0x00 => a.state.code + a.reason.toNat * 2 ^ 8 + b2n a.inForce.isSome * 2 ^ 12
  | 0x08 => match a.inForce with | some x => hdrSerial x.header | none => 0
  | 0x10 => a.received.toNat + a.total.toNat * 2 ^ 32
  | 0x18 => (if a.state = .pending ∧ a.mode = 2 then a.epoch.toNat else 0) + a.mode.toNat * 2 ^ 32 +
      (if a.mode = 1 then a.cells.toNat else 0) * 2 ^ 48
  | 0x40 => a.skipped.toNat
  | o => if 0x20 ≤ o ∧ o < 0x40 then
      match a.inForce with | some x => bfld (sha256 x.header) (o - 0x20) 8 | none => 0
    else 0

/-! CTX (R488). -/

/-- A read in the CTX block of a cell. -/
def Cell.ctxRead (c : Cell) (off : Nat) : Nat :=
  match off with
  | 0x00 => c.area.toNat
  | 0x10 => c.ctxWord
  | 0x18 => c.budget.toNat
  | 0x28 => c.cause.toNat
  | _ => 0

/-- A write in the CTX block of a cell. A budget outside its range is ignored; the time in hold that FLT_CTRL.RETRY reports
is not given (log entry 20). -/
def State.ctxWrite (s : State) (k : Fin 16) (off v : Nat) : State :=
  match off with
  | 0x00 => s.modCell k.val (fun c => { c with area := BitVec.ofNat 44 v })
  | 0x08 => (s.onBit v 0 (execCtxPreempt k)).onBit v 1 (execCtxResume k)
  | 0x18 => if 100 ≤ v % 2 ^ 32 ∧ v % 2 ^ 32 ≤ 1000000 then s.modCell k.val (fun c => { c with budget := BitVec.ofNat 32 v }) else s
  | 0x20 =>
    let us := Config.draw s.free % 2 ^ 32
    let s := if bit v 0 then { s with free := s.free + 1 } else s
    (s.onBit v 0 (execFltRetry k us)).onBit v 1 (execFltGiveup k)
  | 0x28 => s.modCell k.val (fun c => { c with cause := BitVec.ofNat 25 v })
  | _ => s

/-! EXP (R418) and SNP (R516). -/

/-- A read in EXP. -/
def Exp.read (e : Exp) (off : Nat) : Nat :=
  match off with
  | 0x00 => b2n e.pause * 2
  | 0x08 => e.fifo.length % 2 ^ 32 + b2n (e.fifo.getLast?.any (·.open_)) * 2 ^ 32 + b2n e.linkup * 2 ^ 33
  | 0x10 => e.gaps.toNat + e.drops.toNat * 2 ^ 32 + e.noexp.toNat * 2 ^ 48
  | 0x18 => e.ce.toNat + e.ue.toNat * 2 ^ 32
  | 0x20 => e.staleCnt.toNat + e.resentCnt.toNat * 2 ^ 40
  | 0x28 => e.greDone.toNat + b2n e.greFb * 2 ^ 16
  | _ => 0

/-- A write in EXP. -/
def State.expWrite (s : State) (off v : Nat) : State :=
  if off = 0 then (s.onBit v 0 execExpDropRecord).run (execExpPause (bit v 1)) else s

/-- STEP of a generation, 0 when invalid. -/
def genStep (g : Option (Nat × (List Byte × Mem))) : Nat := match g with | some x => x.1 % 2 ^ 64 | none => 0

/-- Code of a recovery state (R516). -/
def rcvCode : RcvSt → Nat
  | .normal => 0 | .restart => 1 | .filling => 2 | .wait => 3 | .escalated => 4

/-- A read in SNP. -/
def Snp.read (p : Snp) (off : Nat) : Nat :=
  match off with
  | 0x00 => p.statWord
  | 0x08 => genStep p.gen0
  | 0x10 => genStep p.gen1
  | 0x20 => rcvCode p.rstate + p.fills.length % 16 * 2 ^ 3
  | 0x28 => bitsWhere 64 (fun i => p.fills.any (fun f => f.slot == i))
  | _ => 0

/-- A write in SNP. -/
def State.snpWrite (s : State) (off v : Nat) : State :=
  if off = 0x18 then (s.onBit v 0 execSnpTake).onBit v 1 execSnpAbortup else s

/-! GAL (R470). -/

/-- A read in GAL. -/
def Gal.read (g : Gal) (off : Nat) : Nat :=
  if 0x1000 ≤ off ∧ off < 0x2000 then
    ((List.range 8).map (fun i => (tabGet 0 g.routes (off - 0x1000 + i)).toNat * 2 ^ (8 * i))).sum
  else if 0x2000 ≤ off ∧ off < 0x4000 then
    ((List.range 4).map (fun i => (tabGet 0 g.incs ((off - 0x2000) / 2 + i)).toNat * 2 ^ (16 * i))).sum
  else match off with
    | 0x00 => g.idWord
    | 0x08 => g.stateWord
    | 0x10 => g.live.toNat
    | 0x18 => g.forged.toNat + g.fencedCnt.toNat * 2 ^ 16 + g.noroute.toNat * 2 ^ 32 + g.resent.toNat * 2 ^ 48
    | _ => 0

/-- A write in GAL: eight route entries or four incarnations. -/
def Gal.write (g : Gal) (off v : Nat) : Gal :=
  if 0x1000 ≤ off ∧ off < 0x2000 then
    { g with routes := (List.range 8).foldl (fun t i => tabSet 0 t (off - 0x1000 + i) (BitVec.ofNat 8 (v / 2 ^ (8 * i)))) g.routes }
  else if 0x2000 ≤ off ∧ off < 0x4000 then
    { g with incs := (List.range 4).foldl (fun t i => tabSet 0 t ((off - 0x2000) / 2 + i) (BitVec.ofNat 16 (v / 2 ^ (16 * i)))) g.incs }
  else g

/-! LNK (R441). -/

/-- Code of a port state (R430). -/
def portCode : PortSt → Nat
  | .off => 0 | .down => 1 | .training => 2 | .auth => 3 | .up => 4 | .retrain => 5 | .quarantined => 6 | .draining => 7

/-- A read in the LNK block of a port. -/
def Port.read (p : Port) (off : Nat) : Nat :=
  match off with
  | 0x08 => portCode p.state + p.width.toNat * 2 ^ 3 + p.healthy.toNat * 2 ^ 8 + p.downwhy.toNat * 2 ^ 28
  | 0x10 => p.pfleet.toNat + p.pslot.toNat * 2 ^ 6 + p.pinc.toNat * 2 ^ 12 + p.prole.toNat * 2 ^ 28 + b2n p.pvalid * 2 ^ 31 +
      p.phash.toNat * 2 ^ 32
  | 0x18 => p.corr.toNat + p.uncorr.toNat * 2 ^ 32 + p.crcbad.toNat * 2 ^ 48
  | 0x20 => p.replays.toNat + p.degrades.toNat * 2 ^ 32 + p.ups.toNat * 2 ^ 48
  | _ => 0

/-- A write in the LNK block of a port: the actions of LNK_CTRL in the order of their bits. -/
def State.lnkWrite (s : State) (p : Fin 8) (off v : Nat) : State :=
  if off = 0 then
    (((s.onBit v 0 (execLnkRetrain p)).onBit v 1 (execLnkDrain p)).onBit v 2 (execLnkUnquar p)).onBit v 3 (execLnkQuar p)
  else s

/-! ETH (R545). -/

/-- A read in ETH: three ports, then the clock. -/
def State.ethRead (s : State) (off : Nat) : State × Nat :=
  if off = 0xC0 then
    let (t, s) := s.timeNow
    (s, t.toNat)
  else if off = 0xC8 then (s, b2n s.ptp.locked + s.ptp.offset.toNat * 2 ^ 32)
  else if 0xC0 ≤ off then (s, 0)
  else
    let n := off / 0x40
    let e := s.eth n
    (s, match off % 0x40 with
      | 0x00 => b2n e.up + e.mode.toNat * 2 + (s.hst.sessions.filter (fun x => x.open_ && x.port == n)).length % 32 * 2 ^ 4
      | 0x08 => e.drop.toNat + e.pauseTx.toNat * 2 ^ 32
      | 0x10 => e.badtag.toNat + e.fwd.toNat * 2 ^ 32
      | 0x18 => (s.hst.qps.filter (fun q => q.port == n && q.store.isNone && q.state != .reset)).length % 512 + e.cnp.toNat * 2 ^ 32
      | _ => 0)

/-! PWR (R570). -/

/-- Code of a power state (R570). -/
def pwrCode : PwrSt → Nat
  | .active => 0 | .idle => 1 | .standby => 2 | .removing => 3

/-- A read in PWR. -/
def State.pwrRead (s : State) (off : Nat) : Nat :=
  let p := s.pwr
  let r := s.rst
  match off with
  | 0x00 => pwrCode p.state + b2n p.supwarn * 2 ^ 3 + b2n p.en * 2 ^ 4 + b2n p.pwrgd * 2 ^ 5 + b2n p.prsnt0 * 2 ^ 6 +
      b2n p.prsnt1 * 2 ^ 7 + p.rphase % 8 * 2 ^ 8
  | 0x08 => b2n p.target
  | 0x10 => p.vin.toNat + p.vmin.toNat * 2 ^ 16
  | 0x18 => p.warns.toNat + p.warnLast.toNat * 2 ^ 32
  | 0x20 => r.bootSrc.toNat + r.clkMode.toNat * 2 ^ 2 + b2n r.ovr * 2 ^ 4 + r.bcount.toNat * 2 ^ 8 + b2n r.recovery * 2 ^ 10 +
      r.lastFail.toNat * 2 ^ 11
  | 0x28 => r.bqto.toNat
  | _ => 0

/-- A write in PWR. A BQTO outside its range is ignored. -/
def State.pwrWrite (s : State) (off v : Nat) : State :=
  match off with
  | 0x08 => s.run (execPwrTarget (bit v 0))
  | 0x10 => s.onBit v 32 execPwrVminclr
  | 0x28 => if 10 ≤ v % 2 ^ 32 ∧ v % 2 ^ 32 ≤ 10000 then { s with rst := { s.rst with bqto := BitVec.ofNat 32 v } } else s
  | _ => s

/-! MGMT (R600). -/

/-- Code of a firmware state (R600). -/
def fwCode : FwSt → Nat
  | .idle => 0 | .staging => 1 | .verified => 2 | .installing => 3 | .installed => 4 | .failed => 5

/-- A read in MGMT. -/
def State.mgmtRead (s : State) (off : Nat) : Nat :=
  let g := s.mgmt
  match off with
  | 0x08 => fwCode g.fwState + g.fwReason.toNat * 2 ^ 3 + g.svnStaged.toNat * 2 ^ 8 + g.svnRun.toNat * 2 ^ 16 + g.fuse.toNat * 2 ^ 24
  | 0x18 => b2n (decide (g.owner.2 ≠ [])) + g.owner.1 % 2 ^ 56 * 2 ^ 8
  | 0x28 => s.survPending % 256 + (g.survHrs.map Prod.snd).foldl max 0 % 2 ^ 32 * 2 ^ 8
  | 0x30 => g.sramce.toNat
  | _ => 0

/-- A write in MGMT. -/
def State.mgmtWrite (s : State) (off v : Nat) : State :=
  if 0x100 ≤ off ∧ off < 0x300 then
    { s with mgmt := { s.mgmt with ownStage := memWrite s.mgmt.ownStage (off - 0x100) (leBytes 8 v) } }
  else if 0x10000 ≤ off ∧ off < 0x210000 then
    { s with mgmt := { s.mgmt with stageB := memWrite s.mgmt.stageB (off - 0x10000) (leBytes 8 v) } }
  else match off with
    | 0x00 => ((s.onBit v 0 execFwBegin).onBit v 1 execFwVerify).onBit v 2 execFwInstall
    | 0x10 => s.onBit v 0 execOwnCommit
    | 0x20 => (s.onBit v 0 execSurveyStart).onBit v 1 execSurveyAbortCmd
    | _ => s

/-! Plinth control (R388). -/

/-- A read in the control block of a Plinth. -/
def Plinth.read (p : Plinth) (off : Nat) : Nat :=
  if 0x100 ≤ off ∧ off < 0x180 then
    (tabGet 0 p.served ((off - 0x100) / 8)).toNat + (tabGet 0 p.capped ((off - 0x100) / 8)).toNat * 2 ^ 32
  else match off with
    | 0x08 => b2n p.flushing + b2n p.scrubbing * 2 + b2n (decide (p.copyLeft ≠ 0)) * 4 + p.rate.toNat * 2 ^ 4 + p.qrate.toNat * 2 ^ 8
    | 0x10 => p.ce.toNat + p.ue.toNat * 2 ^ 32
    | _ => 0

/-- A write in the control block of a Plinth: a patrol asked for is in progress until it has run (R371; log entry 10). -/
def State.plcWrite (s : State) (p : Fin 20) (off v : Nat) : State :=
  if off = 0 then
    let s := s.onBit v 0 (execPlcFlush p)
    if bit v 1 ∧ (s.plinth p.val).up then s.modPlinth p.val (fun x => { x with scrubbing := true }) else s
  else s

/-! The local address map (R364, R604). -/

/-- Whether an offset is a multiple of 8; another is an offset that no table assigns (R602; log entry 39). -/
def aligned (off : Nat) : Bool := off % 8 == 0

/-- Base of the CSR window. -/
def csrBase : Nat := 0xE0000000000

/-- A register of the CSR window read: block by block; outside every block, all ones. -/
def State.csrWindowRead (s : State) (o : Nat) : State × Nat :=
  let off := o % 0x100000
  if o < 0x300000 then (s, s.coreRead (o / 0x10000) (o % 0x10000))
  else match o / 0x100000 with
    | 0x10 => s.rstRead off
    | 0x11 => (s, s.clkRead off)
    | 0x12 => (s, s.evt.read off)
    | 0x13 => (s, s.patRead off)
    | 0x14 => (s, s.calRead off)
    | 0x15 => (s, s.arm.read off)
    | 0x16 => (s, if off < 0x400 then (s.cell (off / 0x40)).ctxRead (off % 0x40) else 0)
    | 0x17 => (s.noteLinkup, s.noteLinkup.exp.read off)
    | 0x18 => (s, s.snp.read off)
    | 0x19 => (s, s.gal.read off)
    | 0x1A => (s, if off < 0x800 then (s.port (off / 0x100)).read (off % 0x100) else 0)
    | 0x1B => s.ethRead off
    | 0x1C => (s, s.pwrRead off)
    | 0x20 | 0x21 | 0x22 | 0x23 => (s, s.mgmtRead (o - 0x2000000))
    | _ => (s.csrMiss (csrBase + o), 2 ^ 64 - 1)

/-- A register of the CSR window written; outside every block the write is discarded with MEM_ADDR. -/
def State.csrWindowWrite (s : State) (host : Bool) (o v : Nat) : State :=
  let off := o % 0x100000
  if o < 0x300000 then s.coreWrite (o / 0x10000) (o % 0x10000) v
  else match o / 0x100000 with
    | 0x10 => s.rstWrite host (csrBase + o) off v
    | 0x11 => s.clkWrite host off v
    | 0x12 => { s with evt := s.evt.write off v }
    | 0x13 => s
    | 0x14 => s.calWrite off v
    | 0x15 => s
    | 0x16 => if h : off / 0x40 < 16 then s.ctxWrite ⟨off / 0x40, h⟩ (off % 0x40) v else s
    | 0x17 => s.expWrite off v
    | 0x18 => s.snpWrite off v
    | 0x19 => { s with gal := s.gal.write off v }
    | 0x1A => if h : off / 0x100 < 8 then s.lnkWrite ⟨off / 0x100, h⟩ (off % 0x100) v else s
    | 0x1B => s
    | 0x1C => s.pwrWrite off v
    | 0x20 | 0x21 | 0x22 | 0x23 => s.mgmtWrite (o - 0x2000000) v
    | _ => s.csrMiss (csrBase + o)

/-- The HBM, the armature areas included: memory that a register command may name. A core store is reached through gallery addresses
alone (R42, R354, R364; log entry 39). -/
def memWindow (a : Nat) : Bool := decide (a + 8 ≤ 0x16800000000)

/-- A word read at a local address by the management firmware (R364, R365, R602). -/
def State.regRead (s : State) (a : Nat) : State × Nat :=
  if memWindow a then
    let s := s.touchPhys a 8 false
    (s, leNat (s.hbmRead a 8))
  else if csrBase ≤ a ∧ a < csrBase + 0x100000000 then
    if aligned a then s.csrWindowRead (a - csrBase) else (s, 0)
  else if 0xD0000000000 ≤ a ∧ a < 0xD0000140000 then
    (s, if aligned a then (s.plinth ((a - 0xD0000000000) / 0x10000)).read (a % 0x10000) else 0)
  else (s.csrMiss a, 2 ^ 64 - 1)

/-- A word written at a local address, for the host or by the management firmware itself (R8 to R10, R364, R365, R602,
R603). -/
def State.regWrite (s : State) (host : Bool) (a v : Nat) : State :=
  if memWindow a then (s.touchPhys a 8 true).hbmWrite a (leBytes 8 v) false
  else if csrBase ≤ a ∧ a < csrBase + 0x100000000 then
    if aligned a then s.csrWindowWrite host (a - csrBase) v else s
  else if 0xD0000000000 ≤ a ∧ a < 0xD0000140000 then
    if h : (a - 0xD0000000000) / 0x10000 < 20 then
      if aligned a then s.plcWrite ⟨(a - 0xD0000000000) / 0x10000, h⟩ (a % 0x10000) v else s
    else s
  else s.csrMiss a

/-! I2C (R623). -/

/-- The level of ALERT_N: low while a bit of I2C_ALERT is 1 (R623). -/
def State.alertN (s : State) : Bool := decide (s.pwr.alert = 0)

/-- The I2C registers by offset, at 2^44 and above in the model's numbering of addresses (log entry 39). Fields whose source
is not powered read 0; the present temperatures are free values (R575, R623). -/
def State.i2cRead (s : State) (off : Nat) : Nat :=
  let p := s.pwr
  let on (n : Nat) : Nat := if p.off then 0 else n
  match off with
  | 0 => 0x54
  | 1 => on (pwrCode p.state + b2n s.rst.recovery * 2 ^ 3)
  | 2 => p.vin.toNat % 256
  | 3 => p.vin.toNat / 256
  | 4 => on (Config.draw s.free % 256)
  | 5 => on (Config.draw (s.free + 1) % 256)
  | 6 => on (Config.draw (s.free + 2) % 256)
  | 7 => p.alert.toNat
  | _ => 0

/-- A write to an I2C register: I2C_ALERT's bits are cleared by 1. -/
def State.i2cWrite (s : State) (off v : Nat) : State :=
  if off = 7 then { s with pwr := { s.pwr with alert := s.pwr.alert &&& ~~~(BitVec.ofNat 3 v) } } else s

/-- REGISTER_WRITE: a word written to a register by the host or by the management firmware, or a byte to an I2C register,
which answers in every power state (R7 to R10, R602, R603, R623). -/
def execRegisterWrite (host : Bool) (addr : Nat) (value : BitVec 64) (s : State) : Res :=
  if 2 ^ 44 ≤ addr then .next (s.i2cWrite (addr - 2 ^ 44) value.toNat)
  else if !s.fwUp then .next s
  else .next (s.regWrite host addr value.toNat)

end Sys2Proof.Machine
end

