-- ==== Sys2Proof/Machine/HostCmd.lean ====
section
/-! DEFINITION. The host attachment: register commands, queue pairs, resets, attestation and forwarded requests, RoCEv2, the
Ethernet ports and the clock (R518 to R546, R583, R588). -/
namespace Sys2Proof.Machine
open Sys2Proof

/-! CSR_READ and CSR_WRITE (R531). -/

/-- CSR_READ's effect: the words, read in ascending order. -/
def effCsrRead (addr count : Nat) : Eff := fun _ s =>
  if count = 0 ∨ 1024 < count then (s, badFormat)
  else
    let x := (List.range count).foldl (fun (x : State × List Byte) i =>
      let r := x.1.regRead ((addr + 8 * i) % 2 ^ 64)
      (r.1, x.2 ++ leBytes 8 r.2)) (s, [])
    (x.1, done x.2)

/-- CSR_READ (R531). -/
def execCsrRead (m : Msg) (addr count : Nat) (s : State) : Res :=
  .next (s.tcd m 0x0010 (leBytes 8 addr ++ leBytes 2 count) true false (effCsrRead addr count) id)

/-- CSR_WRITE's effect: the words, written in ascending order; at most the 1,048 that one message holds (R522, R531). -/
def effCsrWrite (addr : Nat) (words : List (BitVec 64)) : Eff := fun _ s =>
  if words = [] ∨ 1048 < words.length then (s, badFormat)
  else (words.zipIdx.foldl (fun (s : State) w => s.regWrite true ((addr + 8 * w.2) % 2 ^ 64) w.1.toNat) s, done [])

/-- CSR_WRITE (R531). -/
def execCsrWrite (m : Msg) (addr : Nat) (words : List (BitVec 64)) (s : State) : Res :=
  .next (s.tcd m 0x0011 (leBytes 8 addr ++ leBytes 2 words.length ++ leBytes 6 0 ++ words.flatMap (fun w => leBytes 8 w.toNat))
    false false (effCsrWrite addr words) id)

/-! Queue pairs (R536, R537, R540). -/

/-- Responder queue pairs of a port that are not in Reset. -/
def Hst.responders (h : Hst) (port : Nat) : Nat := (h.qps.filter (fun q => q.port == port && q.store.isNone)).length

/-- QP_OPEN's effect: a responder queue pair in Ready-to-Send; the T48's QPN and PSN return. The PSN is not given (R536,
R537; log entry 40). -/
def effQpOpen (port hqpn hpsn pmtu : Nat) (gid : List Byte) : Eff := fun _ s =>
  if 1 < port ∨ pmtu < 3 ∨ 5 < pmtu ∨ gid.length ≠ 16 then (s, badFormat)
  else if 256 ≤ s.hst.responders port then (s, some (stBusy, []))
  else
    let n := s.hst.nextQpn % 2 ^ 24
    let psn := Config.draw s.free % 2 ^ 24
    let q : Qp := { qpn := n, port := port, hqpn := hqpn % 2 ^ 24, psn := psn, hpsn := hpsn % 2 ^ 24, pmtu := pmtu, gid := gid,
                    state := .rts }
    ({ s with free := s.free + 1, hst := { s.hst with qps := s.hst.qps ++ [q], nextQpn := s.hst.nextQpn + 1 } },
      done (leBytes 4 n ++ leBytes 4 psn))

/-- QP_OPEN (R531, R537). -/
def execQpOpen (m : Msg) (port hqpn hpsn pmtu : Nat) (gid : List Byte) (s : State) : Res :=
  .next (s.tcd m 0x0043 (leBytes 1 port ++ leBytes 3 0 ++ leBytes 4 hqpn ++ leBytes 4 hpsn ++ leBytes 1 pmtu ++ leBytes 3 0 ++ gid)
    false false (effQpOpen port hqpn hpsn pmtu gid) id)

/-- A queue pair moved to Reset: it is gone, with its requests. -/
def State.dropQp (s : State) (qpn : Nat) : State :=
  let s := ((s.qp? qpn).map s.requesterFails).getD s
  { s with hst := { s.hst with qps := s.hst.qps.filter (fun q => q.qpn ≠ qpn),
                               rdma := s.hst.rdma.filter (fun o => o.qpn ≠ qpn) } }

/-- QP_CLOSE's effect; an unknown QPN is in Reset already. -/
def effQpClose (qpn : Nat) : Eff := fun _ s => (s.dropQp qpn, done [])

/-- QP_CLOSE (R531). -/
def execQpClose (m : Msg) (qpn : Nat) (s : State) : Res :=
  .next (s.tcd m 0x0044 (leBytes 4 qpn) false false (effQpClose qpn) id)

/-- Line rate of a port in kb/s, by its mode (R519). -/
def Eth.lineRate (e : Eth) : Nat :=
  if e.mode = 1 then 800000000 else if e.mode = 2 then 400000000 else if e.mode = 3 then 200000000
  else if e.mode = 4 then 100000000 else 0

/-- STORE_QP's effect: the requester queue pair of a STORE target connects, in place of an earlier one (R531, R536). -/
def effStoreQp (target rqpn rpsn : Nat) : Eff := fun _ s =>
  match s.cfg.stores.find? (fun x => x.1 == target) with
  | none => (s, badFormat)
  | some (_, port, _) =>
    let n := s.hst.nextQpn % 2 ^ 24
    let q : Qp := { qpn := n, port := port, hqpn := rqpn % 2 ^ 24, psn := rpsn % 2 ^ 24, hpsn := rpsn % 2 ^ 24, state := .rts,
                    gid := (s.cfg.storeIps.find? (fun x => x.1 == target)).elim [] Prod.snd,
                    store := some target, rate := (s.eth port).lineRate }
    let s := (s.hst.qps.filter (fun x => x.store == some target)).foldl State.requesterFails s
    ({ s with hst := { s.hst with qps := s.hst.qps.filter (fun x => x.store ≠ some target) ++ [q],
                                  nextQpn := s.hst.nextQpn + 1 } }, done [])

/-- STORE_QP (R531). -/
def execStoreQp (m : Msg) (target rqpn rpsn : Nat) (s : State) : Res :=
  .next (s.tcd m 0x0045 (leBytes 1 target ++ leBytes 3 0 ++ leBytes 4 rqpn ++ leBytes 4 rpsn) false false
    (effStoreQp target rqpn rpsn) id)

/-! Resets (R531, R547, R552, R583). -/

/-- What a reset command answers before the reset: DONE, or FW_BUSY while the firmware is INSTALLING (R531, R583). -/
def effReset (op : Nat) : Eff := fun _ s =>
  if s.mgmt.fwState = .installing then s.refuseCmd 0x7304 [.val 2 op] else (s, done [])

/-- WARM_RESET: DONE, then a class W reset with cause bit 9 (R531, R547). -/
def execWarmReset (m : Msg) (s : State) : Res :=
  .next (s.tcd m 0x0050 [] false false (effReset 0x0050) (fun s => s.startWarm 9))

/-- MODULE_RESET: DONE, then a class M reset with cause bit 3 (R531, R547). -/
def execModuleReset (m : Msg) (s : State) : Res :=
  .next (s.tcd m 0x0051 [] false false (effReset 0x0051) (fun s => s.startModule 3))

/-! Attestation (R588). -/

/-- The first 256 bytes of the report. -/
def State.attestBody (s : State) (nonce : List Byte) (t : BitVec 64) : List Byte :=
  let g := s.mgmt
  ascii "ATST" ++ leBytes 2 0x0100 ++ leBytes 2 (b2n s.rst.ovr + b2n (decide (g.owner.2 = [])) * 2) ++ bsub nonce 0 32 ++
    bsub Config.romHash 0 32 ++ bsub g.fwMeas 0 32 ++ leBytes 1 g.svnRun.toNat ++ leBytes 1 g.fuse.toNat ++ leBytes 6 0 ++
    (match s.arm.inForce with | some a => sha256 a.header | none => leBytes 32 0) ++ bsub g.owner.2 0 32 ++
    leBytes 8 g.owner.1 ++ leBytes 8 t.toNat ++ bsub g.patSum 0 64

/-- ATTEST's effect: the report, its signature and the device certificate. -/
def effAttest (nonce : List Byte) : Eff := fun _ s =>
  if nonce.length ≠ 32 then (s, badFormat)
  else
    let (t, s) := s.timeNow
    let r := s.attestBody nonce t
    (s, done (r ++ Config.pssSign r ++ s.mgmt.ident))

/-- ATTEST (R531, R588). -/
def execAttest (m : Msg) (nonce : List Byte) (s : State) : Res := .next (s.tcd m 0x0060 nonce true false (effAttest nonce) id)

/-! Forwarded requests (R532, R533). -/

/-- The effect of a command by its opcode and payload, as the command itself has it (R531). -/
def opEff (op : Nat) (p : List Byte) : Eff :=
  let f (o n : Nat) : Nat := bfld p o n
  if !opLenOk op p.length then fun _ s => (s, badFormat)
  else match op with
  | 0x10 => effCsrRead (f 0 8) (f 8 2)
  | 0x11 =>
    if f 8 2 * 8 + 16 = p.length then
      effCsrWrite (f 0 8) ((List.range (f 8 2)).map (fun i => BitVec.ofNat 64 (f (16 + 8 * i) 8)))
    else fun _ s => (s, badFormat)
  | 0x12 => effEvtRead (f 0 4) (f 4 2)
  | 0x13 => effStatus
  | 0x20 => effArmBegin (f 0 8)
  | 0x21 => effArmData (f 0 8) (p.drop 16)
  | 0x22 => effArmCommit (f 0 1) (BitVec.ofNat 16 (f 2 2)) (BitVec.ofNat 32 (f 4 4))
  | 0x23 => effArmCancel
  | 0x30 => effCellPreempt (f 0 1)
  | 0x31 => effCellResume (f 0 1)
  | 0x32 => effCellReset (f 0 1)
  | 0x33 => effTokenPost (f 0 1) (f 1 1) (f 2 1) (f 3 1)
  | 0x40 => effRestore (f 0 1) (f 1 1) (BitVec.ofNat 64 (f 8 8))
  | 0x41 => effSlotAssign (f 0 1) (p.drop 8)
  | 0x42 => effFleetResume (bit (f 0 1) 0)
  | 0x43 => effQpOpen (f 0 1) (f 4 4) (f 8 4) (f 12 1) (p.drop 16)
  | 0x44 => effQpClose (f 0 4)
  | 0x45 => effStoreQp (f 0 1) (f 4 4) (f 8 4)
  | 0x50 => effReset 0x50
  | 0x51 => effReset 0x51
  | 0x60 => effAttest p
  | _ => fun _ s => (s, badFormat)

/-- Commands that an OBSERVER may send (R531). -/
def opObs (op : Nat) : Bool := [0x10, 0x12, 0x13, 0x60].contains op

/-- A forwarded request, put together again, executes with the role of its session and answers, behind an unfinished one of its session;
`h` holds kind, session, EPOCH, SEQ and OPCODE. The head's own requests carry session 0 and are taken from the acting head of this fleet
alone, without an answer (R45, R529, R532, R533; log entries 21, 30). -/
def State.fwdRun (s : State) (src : Nat) (h : List Nat) (data : List Byte) : State :=
  let f (i : Nat) : Nat := h.getD i 0
  let owner := decide (f 0 = 16)
  let c : TcdCtx := ⟨f 1, f 2, f 3, src + 1, owner, f 4⟩
  let head := flowKey s.gal.fleet.toNat s.gal.acthead.toNat
  if f 1 = 0 then (if src = head then (opEff (f 4) data c s).1 else s)
  else if !owner && !opObs (f 4) then (s.roleRefused c (f 4)).answer c stRole (s.loadState (f 4))
  else if !opLenOk (f 4) data.length then s.answer c stFormat (s.loadState (f 4))
  else if s.unfinished c.id c.frm then (s.accept c (s.loadState (f 4))).await c data
  else match opEff (f 4) data c s with
    | (s, some (st, p)) => s.answer c st p
    | (s, none) => s.answer c stAccepted []

/-- The response to a request forwarded from here, put together again: ACCEPTED is passed on, any other status ends the request; `h` holds
kind, session, EPOCH, SEQ and STATUS (R529, R532). -/
def State.fwdAnswer (s : State) (h : List Nat) (data : List Byte) : State :=
  let f (i : Nat) : Nat := h.getD i 0
  if f 4 = stAccepted then
    match s.session? (f 1), s.hst.fwds.find? (fun x => x.1 == f 1 && x.2.1 == f 2 && x.2.2.1 == f 3) with
    | some ss, some x => s.respond ss x.2.2.2.2 (f 2) (f 3) stAccepted data
    | _, _ => s
  else s.fwdEnd (f 1) (f 2) (f 3) (f 4) data

/-- Part of a store object that another device forwards: the requester writes it under this device's STORE item; without a ready requester
the sender is told of the failure (R500, R540; log entry 21). -/
def State.storeFor (s : State) (src : Nat) (pk : Packet) : State :=
  let t := pk.fields.getD 1 0
  match s.storeQp? t with
  | some q => s.writeStore q (src + 1) t 0 [(pk.addr, pk.data)]
  | none => s.sendTcdf src 3 t 0 0 0 []

/-- The bytes received so far of the TCDF message of a source. -/
def State.setTcdfIn (s : State) (src : Nat) (b : List Byte) : State := { s with hst := { s.hst with tcdfIn := tabSet [] s.hst.tcdfIn src b } }

/-- The acting head has written a part of the object that this device forwards (R500). -/
def State.partWritten (s : State) : State := { s with snp := { s.snp with upLeft := s.snp.upLeft - 1 } }

/-- A TCDF packet: part of a request of another device's session or of the response to one forwarded from here, executed once the message is
whole; part of a store object, or what became of one (R448, R449, R500, R532; log entry 21). -/
def tgtTcdf (pk : Packet) (s : State) : State × Ans :=
  let f (i : Nat) : Nat := pk.fields.getD i 0
  let src := flowKey pk.sfleet pk.sslot
  match f 0 with
  | 2 => (s.storeFor src pk, ackAns)
  | 3 => (s.uploadFailed, ackAns)
  | 4 => (s.partWritten, ackAns)
  | _ =>
    let b := (if f 6 = 0 then [] else tabGet [] s.hst.tcdfIn src) ++ pk.data
    if b.length < f 5 then (s.setTcdfIn src b, ackAns)
    else
      let s := s.setTcdfIn src []
      (if f 0 % 16 = 0 then s.fwdRun src (pk.fields.take 5) b else s.fwdAnswer (pk.fields.take 5) b, ackAns)

/-- The reset that a forwarded reset command starts once it has answered DONE, by opcode: none while the firmware is
INSTALLING, without the OWNER role, or while the command waits (R531, R533, R583). -/
def State.fwdReset (s : State) (pk : Packet) : State :=
  let f (i : Nat) : Nat := pk.fields.getD i 0
  let waits := s.hst.waiting.any (fun w => w.id == f 1 && w.epoch == f 2 && w.seq == f 3 && w.frm == flowKey pk.sfleet pk.sslot + 1)
  if f 0 ≠ 16 ∨ f 1 = 0 ∨ s.mgmt.fwState = .installing ∨ pk.data ≠ [] ∨ f 5 ≠ 0 ∨ waits then s
  else if f 4 = 0x50 then s.startWarm 9
  else if f 4 = 0x51 then s.startModule 3
  else s

/-- TCDF_RECEIVE: executed once, in the order of its flow (R454, R532, R533). -/
def execTcdfReceive (port : Option (Fin 8)) (pk : Packet) (s : State) : Res :=
  if !s.fwUp then .next s
  else
    let t := s.receiveReq port pk 0x0D tgtTcdf
    if (tabGet {} t.gal.rx (pkRx pk)).expect ≠ (tabGet {} s.gal.rx (pkRx pk)).expect then .next (t.fwdReset pk) else .next t

/-! RoCEv2, the responder (R536 to R539, R541). -/

/-- The congestion notification packet that a CE-marked RoCEv2 packet is answered with, at most once per 50 us per queue pair; whether 50 us
have passed is not given (R541; log entry 20). -/
def State.answerCe (s : State) (q : Qp) (ce : Bool) : State :=
  let again := !q.cnpOut || decide (Config.draw s.free % 2 = 1)
  let s := { s with free := s.free + 1 }
  if ce && again && decide (s.cfg.qos.getD 4 0 % 2 = 1) then
    ((s.modQp q.qpn (fun q => { q with cnpOut := true })).modEth q.port (fun e => { e with cnp := satAdd e.cnp 1 })).sendRoce q.port
      [(q.qpn, 4, [])]
  else s

/-- What an arriving RoCEv2 packet may bring about besides its own effect: a pause frame and a CNP (R541). -/
def State.congestion (s : State) (q : Qp) (ce : Bool) : State := (s.fillBuffer q.port).answerCe q ce

/-- The number that ROCE_ERR gives for an R_Key that names no window (log entry 28). -/
def noWindow : Nat := Config.code 17

/-- The range of a request in a window, as window number and GPA; the number alone where the window, its length or its
permissions do not allow it (R365, R537). `w` asks for a write. -/
def Cfg.windowAt (c : Cfg) (rkey va n : Nat) (w : Bool) : Except Nat (Nat × Nat) :=
  match c.windows.find? (fun x => x.2.2.1 == rkey) with
  | none => .error noWindow
  | some (no, perm, _, base, len) =>
    if va + n ≤ len ∧ bit perm (b2n w) then .ok (no, base + va) else .error no

/-- A request that a window does not allow: ROCE_ERR, a NAK Remote Access Error in its turn, and the queue pair in Error
(R537; log entry 40). -/
def State.accessError (s : State) (port : Nat) (q : RoceReq) (win : Nat) : State :=
  let s := s.log 0x4301 [.eth port, .val 4 q.qpn, .val 4 0x62, .val 4 win]
  let s := s.modQp q.qpn (fun x => { x with state := .error })
  ({ s with hst := { s.hst with rdma := s.hst.rdma ++ [({ qpn := q.qpn, psn := q.psn, err := 2 } : RdmaOp)] } }).rdmaFlush

/-- A request out of form: a NAK Invalid Request in its turn, and the queue pair in Error (log entry 40). -/
def State.invalidReq (s : State) (q : RoceReq) : State :=
  let s := s.modQp q.qpn (fun x => { x with state := .error })
  ({ s with hst := { s.hst with rdma := s.hst.rdma ++ [({ qpn := q.qpn, psn := q.psn, err := 7 } : RdmaOp)] } }).rdmaFlush

/-- A request served at the device that its GPA names, in packets of at most 4,096 B, this device among them (R443, R449,
R538). -/
def State.rdmaSend (s : State) (o : RdmaOp) (gpa n : Nat) (mk : Nat → Nat → Packet) : State :=
  let dst := flowKey (bits gpa 55 50) (bits gpa 49 44)
  let x := (List.range (ceilDiv n 4096)).foldl (fun (x : State × List (Nat × (Nat × Nat))) i =>
    let off := 4096 * i
    let pk := { mk off (min 4096 (n - off)) with addr := bits gpa 43 0 + off }
    (x.1.sendReq dst pk, x.2 ++ [(dst, ((x.1.flow dst).nextSeq, off))])) (s, [])
  ({ x.1 with hst := { x.1.hst with rdma := x.1.hst.rdma ++ [{ o with need := x.2 }] } }).rdmaFlush

/-- How far a PSN lies ahead of the expected one; 2^23 and more lie behind. -/
def psnAhead (psn expect : Nat) : Nat := (psn + 2 ^ 24 - expect % 2 ^ 24) % 2 ^ 24

/-- A WRITE packet of the expected PSN: First and Only name the window, Middle and Last go on in it (R536 to R538). -/
def State.rdmaWrite (s : State) (port : Nat) (x : Qp) (q : RoceReq) : State :=
  let n := q.data.length
  let s := s.modQp q.qpn (fun x => { x with hpsn := (x.hpsn + 1) % 2 ^ 24 })
  let start := decide (q.part = 0 ∨ q.part = 3)
  let key := if start then q.rkey else x.wkey - 1
  let va := if start then q.va else x.waddr
  let cont := decide (q.part = 0 ∨ q.part = 1)
  if start = decide (x.wkey ≠ 0) ∨ 3 < q.part then s.invalidReq q
  else match s.cfg.windowAt key va (if start then max n q.len else n) true with
    | .error w => s.accessError port q w
    | .ok (no, gpa) =>
      let s := s.modQp q.qpn (fun x => { x with waddr := if cont then va + n else 0, wkey := if cont then key + 1 else 0 })
      s.rdmaSend { qpn := q.qpn, psn := q.psn, window := no, off := va } gpa n
        (fun off k => { ptype := 0x01, fields := [0, 0, 0, 0, 0], data := (q.data.drop off).take k })

/-- A RoCEv2 request on a queue pair: what is not supported is dropped and counted; a PSN ahead is answered with NAK PSN
Sequence Error, a duplicate WRITE that has landed with its acknowledgement again, a duplicate READ is served again. -/
def State.roceRequest (s : State) (port : Nat) (q : RoceReq) (read : Bool) (run : Qp → State → State) : State :=
  if !(s.eth port).up ∨ s.rst.quiet.contains (48 + port) then s
  else if q.unsupported then s.modEth port (fun e => { e with drop := satAdd e.drop 1 })
  else match s.qp? q.qpn with
    | none => s
    | some x =>
      if x.port ≠ port ∨ x.state ≠ .rts ∨ x.store.isSome then s
      else
        let s := s.congestion x q.ce
        let d := psnAhead q.psn x.hpsn
        if d = 0 then run x s
        else if d < 2 ^ 23 then s.sendRoce port [(q.qpn, 6, leBytes 4 x.hpsn)]
        else if read then run x s
        else if s.hst.rdma.any (fun o => o.qpn == q.qpn && o.psn == q.psn) then s
        else s.sendRoce port [(q.qpn, 0, leBytes 4 q.psn)]

/-- RDMA_WRITE_RECEIVE: the bytes of a WRITE packet land through a window; the acknowledgement follows once they are in place
(R354, R537, R538). -/
def execRdmaWriteReceive (port : Fin 2) (q : RoceReq) (s : State) : Res :=
  .next (s.roceRequest port.val q false (fun x s => s.rdmaWrite port.val x q))

/-- READs of a queue pair not yet answered. -/
def State.readsOut (s : State) (qpn : Nat) : Nat := (s.hst.rdma.filter (fun o => o.qpn == qpn && o.read)).length

/-- A READ: its responses take a PSN each; beyond 16 outstanding it is out of form (R536, R538, R539). -/
def State.rdmaRead (s : State) (port : Nat) (x : Qp) (q : RoceReq) : State :=
  let k := max 1 (ceilDiv q.len (pmtuBytes x.pmtu))
  let s := if psnAhead q.psn x.hpsn = 0 then s.modQp q.qpn (fun x => { x with hpsn := (x.hpsn + k) % 2 ^ 24 }) else s
  if 16 ≤ s.readsOut q.qpn then s.invalidReq q
  else match s.cfg.windowAt q.rkey q.va q.len false with
    | .error w => s.accessError port q w
    | .ok (no, gpa) =>
      s.rdmaSend { qpn := q.qpn, psn := q.psn, read := true, window := no, off := q.va } gpa q.len
        (fun _ k => { ptype := 0x02, fields := [k] })

/-- RDMA_READ_REQUEST: the bytes of a window, or a NAK Remote Operational Error with HOST_POISON in place of the response that
carries a poisoned word (R537 to R539). -/
def execRdmaReadRequest (port : Fin 2) (q : RoceReq) (s : State) : Res :=
  .next (s.roceRequest port.val q true (fun x s => s.rdmaRead port.val x q))

/-! RoCEv2, the requester (R540, R541). -/

/-- A requester queue pair by its QPN. -/
def State.requester? (s : State) (qpn : Nat) : Option Qp :=
  match s.qp? qpn with
  | some q => if q.store.isSome ∧ q.state = .rts then some q else none
  | none => none

/-- A WRITE of a PSN is acknowledged by an acknowledgement of another PSN: that, or one before it (R540). -/
def psnCovers (psn : Nat) (o : Nat × (Nat × List Byte)) : Bool := decide (psnAhead o.1 psn = 0 ∨ 2 ^ 23 ≤ psnAhead o.1 psn)

/-- The acknowledged WRITEs of a requester leave it; a device that forwarded one is told (R500, R540). -/
def State.writesAcked (s : State) (q : Qp) (psn : Nat) : State :=
  let s := s.modQp q.qpn (fun x => { x with tries := 0, out := x.out.filter (fun o => !psnCovers psn o) })
  (q.out.filter (psnCovers psn)).foldl (fun s o =>
    if o.2.1 = 0 then s else s.sendTcdf (o.2.1 - 1) 4 (q.store.getD 0) 0 0 0 []) s

/-- ROCE_ACK_RECEIVE: an acknowledgement takes the WRITEs through its PSN; a NAK ends what they belong to; a CE mark is answered (R540,
R541). -/
def execRoceAckReceive (qpn psn : Nat) (a : RoceAck) (s : State) : Res :=
  match s.requester? qpn with
  | none => .next s
  | some q =>
    let s := s.congestion q a.ce
    .next (if a.nak then s.requesterFails q else s.writesAcked q psn)

/-- ROCE_RETRY_TIMEOUT: the WRITEs outstanding are sent again, from the oldest on; past the retry count of 7 they fail (R540). -/
def execRoceRetryTimeout (qpn : Nat) (s : State) : Res :=
  match s.requester? qpn with
  | none => .next s
  | some q =>
    if q.out.isEmpty then .next s
    else if q.tries < 7 then
      .next ((s.modQp qpn (fun q => { q with tries := q.tries + 1 })).sendRoce q.port (q.out.map (fun o => (qpn, 5, o.2.2))))
    else .next (s.requesterFails q)

/-- CNP_RECEIVE: the rate halves, at most once per 50 us; whether 50 us have passed is not given (R541; log entry 20). -/
def execCnpReceive (qpn : Nat) (s : State) : Res :=
  match s.requester? qpn with
  | none => .next s
  | some q =>
    if s.cfg.qos.getD 4 0 % 2 = 0 then .next s
    else
      let again := !q.cnpIn || decide (Config.draw s.free % 2 = 1)
      let s := { s with free := s.free + 1 }
      .next (if again then s.modQp qpn (fun q => { q with rate := q.rate / 2, cnpIn := true }) else s)

/-- RATE_RESTORE_TIMER: 5 Gb/s more, up to the line rate (R541). -/
def execRateRestoreTimer (qpn : Nat) (s : State) : Res :=
  match s.requester? qpn with
  | none => .next s
  | some q => .next (s.modQp qpn (fun x => { x with rate := min (max q.rate (s.eth q.port).lineRate) (q.rate + 5000000) }))

/-- What waited at a port for the end of a pause leaves, priority by priority that is paused no more (R541). -/
def State.unpause (s : State) (port : Nat) : State :=
  let e := s.eth port
  (e.held.filter (fun h => !e.paused.getLsbD h.1)).foldl (fun s h => s.emit h.2)
    (s.modEth port (fun e => { e with held := e.held.filter (fun h => e.paused.getLsbD h.1) }))

/-- PAUSE_FRAME_RECEIVE: the priorities named are paused, of the two of QOS, and what they were to send waits (R541). -/
def execPauseFrameReceive (port : Fin 2) (prios : BitVec 8) (s : State) : Res :=
  if !(s.eth port.val).up then .next s
  else
    let mask := BitVec.ofNat 8 (2 ^ (s.cfg.qos.getD 0 0)) ||| BitVec.ofNat 8 (2 ^ (s.cfg.qos.getD 1 0))
    .next ((s.modEth port.val (fun e => { e with paused := prios &&& mask })).unpause port.val)

/-! Ethernet ports (R519, R520). -/

/-- What answers a frame: 0 ARP, 1 neighbour advertisement, 2 ICMP echo, 3 ICMPv6 echo; none for a frame that is
discarded. Kind 4 is a pause frame, 5 a Delay_Req. -/
def frameReply : FrameKind → Option Nat
  | .arp => some 0 | .ndp => some 1 | .icmp => some 2 | .icmp6 => some 3
  | .tcp => none | .fragment => none | .other => none

/-- NEIGHBOUR_FRAME: ARP, neighbour discovery and echo are answered; a frame above 9,216 B or with more than one tag, a
fragment, and anything else the port does not take is discarded and counted (R520). -/
def execNeighbourFrame (port : Fin 3) (f : NbrFrame) (s : State) : Res :=
  if !(s.eth port.val).up then .next s
  else
    let drop := s.modEth port.val (fun e => { e with drop := satAdd e.drop 1 })
    if 9216 < f.len ∨ 1 < f.tags then .next drop
    else match frameReply f.kind with
      | some k =>
        let w := s.wire port.val 0
        .next (s.emit (.frame { w with ect := w.ect && decide (k ≠ 0) } k))
      | none => .next drop

/-- A port takes a mode: it is enabled, and the mode is one that its PORT item allows (R519, R521). -/
def Cfg.modeOk (c : Cfg) (port mode : Nat) : Bool :=
  let it := tabGet [] c.ethModes port
  let want := byteAt it 1
  (it.isEmpty || bit (byteAt it 2) 0) &&
    (if port = 2 then mode == 5 else decide (1 ≤ mode ∧ mode ≤ 4) && (want == 0 || want == mode))

/-- The recovery loader's port and its mode: MGT, or ETH0 at 100 GbE where BOOT_SRC is 0b10 (R559, R584). -/
def State.loaderPort (s : State) : Nat × Nat := if s.rst.bootSrc = 2 then (0, 4) else (2, 5)

/-- An Ethernet port may come up in a mode; in recovery mode the loader's alone, in its own (R519, R550, R559, R584). -/
def State.ethMay (s : State) (p mode : Nat) : Bool :=
  if s.rst.recovery then s.loaderPort == (p, mode) else decide (7 ≤ s.rst.stage) && s.cfg.modeOk p mode

/-- ETH_LINK: an Ethernet port comes up in a mode, or goes down (R519, R545, R546, R559). -/
def execEthLink (port : Fin 3) (up : Bool) (mode : Nat) (s : State) : Res :=
  let p := port.val
  let e := s.eth p
  if s.pwr.off ∨ up = e.up then .next s
  else if up then
    if s.ethMay p mode then
      let s := s.modEth p (fun e => { e with up := true, mode := BitVec.ofNat 3 mode })
      .next (if s.fwUp then s.log 0x4201 [.eth p, .val 1 mode, .val 1 1] else s)
    else .next s
  else
    let s := s.modEth p (fun e => { e with up := false, mode := 0 })
    .next (if s.fwUp then s.log 0x4201 [.eth p, .val 1 e.mode.toNat, .val 1 0] else s)

/-! Time (R543, R544). -/

/-- The clock's time without bit 63, as a timestamp (R543, R544). -/
def State.stamp (s : State) : BitVec 63 × State := let (t, s) := s.timeNow; (t.setWidth 63, s)

/-- A Delay_Req sent on the clock's port, with the time at which it leaves (R543). -/
def State.sendDelayReq (s : State) : State :=
  let (t, s) := s.stamp
  let w := s.wire (s.cfg.ptpCfg.getD 0 2) 0
  ({ s with ptp := { s.ptp with req := some (s.ptp.nextReq, t), nextReq := (s.ptp.nextReq + 1) % 2 ^ 16 } }).emit
    (.frame { w with ect := w.ect && decide (s.cfg.ptpCfg.getD 2 0 ≠ 2) } 5)

/-- The offset from the master that an exchange gives: half of what the way to the clock takes more than the way back (R543). -/
def ptpOffset (t1 t2 t3 t4 : BitVec 63) : BitVec 63 := ((t2 - t1) - (t4 - t3)).sshiftRight 1

/-- An exchange is complete: OFFSET is taken, and the time goes to the master's; the first lock clears bit 63 (R543 to R545; log entry
76). -/
def State.ptpSet (s : State) (off : BitVec 63) : State :=
  let was := s.ptp.locked
  let p := s.ptp
  let s := { s with ptp := { p with everLock := true, base := p.base - off, locked := true, offset := off.setWidth 32, req := none } }
  if was then s else s.log 0x4401 [.val 1 1, .val 4 (off.setWidth 32).toNat]

/-- PTP_MESSAGE_RECEIVE: a message of the clock's port, transport and domain, with the master's time in it: when a Sync left, or when a
Delay_Req came. A Sync, with its Follow_Up where the master takes two steps,
is followed by a Delay_Req, and the Delay_Resp completes the exchange (R521, R543, R544). -/
def execPtpMessageReceive (port : Fin 3) (m : PtpMsg) (time : BitVec 63) (s : State) : Res :=
  if !(s.eth port.val).up ∨ s.pwr.off ∨ s.cfg.ptpCfg ≠ [port.val, m.domain, m.transport] then .next s
  else
    let (t, s) := s.stamp
    match m.kind.val, s.ptp.sync, s.ptp.req with
    | 0, _, _ => .next ({ s with ptp := { s.ptp with sync := some (m.seq, t, some time) } }).sendDelayReq
    | 1, _, _ => .next { s with ptp := { s.ptp with sync := some (m.seq, t, none) } }
    | 2, some (n, t2, none), _ =>
      if n = m.seq then .next ({ s with ptp := { s.ptp with sync := some (n, t2, some time) } }).sendDelayReq else .next s
    | 3, some (_, t2, some t1), some (r, t3) => if r = m.seq then .next (s.ptpSet (ptpOffset t1 t2 t3 time)) else .next s
    | _, _, _ => .next s

/-- PTP_MASTER_LOSS: the clock goes on from the oscillator, bit 63 stays clear (R544). -/
def execPtpMasterLoss (s : State) : Res :=
  if s.ptp.locked then
    .next (({ s with ptp := { s.ptp with locked := false } }).log 0x4401 [.val 1 0, .val 4 s.ptp.offset.toNat])
  else .next s

end Sys2Proof.Machine
end

