-- ==== Sys2Proof/Machine/Queue.lean ====
section
/-! DEFINITION. Requests that wait for an earlier one of their session, and the commands that end such a one: the verification and the
apply of a load, and a restore (R45 to R52, R501 to R503, R527, R529, R533). -/
namespace Sys2Proof.Machine
open Sys2Proof

/-- What follows the DONE of a command, by its opcode (R531). -/
def opPost (op : Nat) (s : State) : State :=
  if op = 0x50 then s.startWarm 9 else if op = 0x51 then s.startModule 3 else s

/-- A request that waited executes once the session has no unfinished one before it, and is answered (R527, R533). -/
def State.serveOne (s : State) (w : Wait) : State :=
  if !s.hst.waiting.contains w ∨ s.engaged w.id w.frm then s
  else
    let s := { s with hst := { s.hst with waiting := s.hst.waiting.erase w } }
    let c : TcdCtx := ⟨w.id, w.epoch, w.seq, w.frm, w.owner, w.op⟩
    match opEff w.op w.payload c s with
    | (s, some (st, p)) =>
      if st = stAccepted then s
      else if st = stDone then opPost w.op (s.answer c st p)
      else s.answer c st p
    | (s, none) => s

/-- Every request that waited and may run, oldest first (R527, R533). -/
def State.serve (s : State) : State := s.hst.waiting.foldl State.serveOne s

/-- ARM_VERIFY_DONE: the checks of R48 on the staged upload, and the start of the apply; then what waited for it (R48 to R50, R527). -/
def execArmVerifyDone (s : State) : Res := .next s.verifyDone.serve

/-- ARM_APPLY_DONE: the end of an apply, then what waited for it (R50 to R52, R527). -/
def execArmApplyDone (err : Option (Nat × Nat)) (s : State) : Res := .next (s.applyDone err).serve

/-- RESTORE_COMPLETE: the end of a restore, then what waited for it (R501 to R503, R527). -/
def execRestoreComplete (obj : Option StoreObj) (s : State) : Res := .next (s.restoreEnd obj).serve

end Sys2Proof.Machine
end

