-- ==== Sys2Proof/Machine/Ticks.lean ====
section
/-! DEFINITION. TICK_DECISION: what the readiness unit foresees of the instructions that are still to issue before the tick it
decides, and its decision (R243 to R259, R264, R273). -/
namespace Sys2Proof.Machine
open Sys2Proof

/-! Foresight (R250, R251). -/

/-- The state as it will stand once an instruction or group has issued in a tick whose first cycle is given; a refused one changes
nothing. -/
def State.foreseeIssue (s : State) (k n l st slot start : Nat) (ws : List (BitVec 128)) : State :=
  let c := s.cell k
  let co := s.core n
  let x : IssueCtx := ⟨n, k, l, st, co, { c with tick := BitVec.ofNat 48 slot, uh := start / 8 - slot }, tabGet 0 co.ord st,
    start + co.issuedIn st slot⟩
  match s.planOf n ws x with
  | .ok ps => s.issued x ws ps
  | .error _ => s

/-- The groups of a stream whose slot is V and that have not issued. -/
def State.groupsAt (s : State) (c : Cell) (n l st v : Nat) : List (List (BitVec 128)) :=
  groupsOf (((c.due_ (s.core n) l st v).filter (fun p => decide (p.1 = v))).map Prod.snd)

/-- Every instruction of a cell with slot V issued, stream by stream. -/
def State.foreseeSlot (s : State) (k v start : Nat) : State :=
  (s.cell k).streams.foldl (fun s (n, (l, st)) =>
    (s.groupsAt (s.cell k) n l st v).foldl (fun s ws => s.foreseeIssue k n l st v start ws) s) s

/-- What the readiness unit foresees for the start of the tick two ahead: the instructions of the running ticks before it issued. -/
def State.foresee (s : State) (k : Nat) : State :=
  let c := s.cell k
  let s := if c.run0 = .run then s.foreseeSlot k c.tick.toNat c.cycle else s
  if c.run1 = .run then
    s.foreseeSlot k (c.tick.toNat + b2n (decide (c.run0 = .run))) (c.cycle + 8 * b2n (decide (c.run0 ≠ .hold)))
  else s

/-- The first unit condition that a stream's groups of slot V miss, each at its own cycle after those before it: cause (R244,
R250). -/
def State.missingOf (s : State) (k n l st v start : Nat) : List (List (BitVec 128)) → Option Nat
  | [] => none
  | g :: r =>
    match s.condition n st (s.cell k) g (start + (s.core n).issuedIn st v) v true with
    | some cause => some cause
    | none => (s.foreseeIssue k n l st v start g).missingOf k n l st v start r

/-- The first unit condition that the instructions with slot V miss in a tick whose first cycle is given: logical core, stream,
cause (R250). -/
def State.missingUnit (s : State) (k v start : Nat) : Option (Nat × (Nat × Nat)) :=
  ((s.cell k).streams.filterMap (fun (n, (l, st)) =>
    if (s.cell k).frozen = some (l, st) then none
    else (s.missingOf k n l st v start (s.groupsAt (s.cell k) n l st v)).map (fun cause => (l, (st, cause))))).head?

/-- A hold for a unit condition: the pipelines advance where they are what the instruction waits for (log entry 15). -/
def State.unitHold (s : State) (c : Cell) (st cause : Nat) : TickSt :=
  if decide (st ≤ 3) || (decide (cause = 3) && c.members.any (fun n => (s.core n).inflight.any (·.fixed))) then .unit else .hold

/-! Instruction fetch (R264). -/

/-- Offset of the PROG section of a cell in the armature in force, from the section table in its area of HBM (R36, R44). -/
def State.progOffset (s : State) (k : Nat) : Option Nat :=
  ((tabEnts (s.hbmRead armBase (256 + 32 * 64))).find? (fun e => e.kind == 0x101 && e.inst == k)).map (·.off)

/-- Offset in a PROG section of the first word of a stream; the first argument bounds the number of items (R38, R261). -/
def streamOffset (l st : Nat) : Nat → Nat → List Byte → Option Nat
  | 0, _, _ => none
  | n + 1, pos, b =>
    if allZero b then none
    else if bfld b 0 2 = 0x8102 ∧ bfld b 8 1 = l ∧ bfld b 9 1 = st then some (pos + 16)
    else let next := alignUp (8 + bfld b 4 4) 8; streamOffset l st n (pos + next) (b.drop next)

/-- The instruction words of slot V in the armature's area: address, logical core, stream and stream position (R44, R264). -/
def State.fetchWords (s : State) (k v : Nat) : List (Nat × (Nat × (Nat × Nat))) :=
  let c := s.cell k
  match s.progOffset k, s.arm.inForce.bind (fun a => a.secs.find? (fun x => x.kind == 0x101 && x.inst == k)) with
  | some off, some sec =>
    c.streams.flatMap (fun (n, (l, st)) =>
      match streamOffset l st (sec.body.length / 8 + 1) 0 sec.body with
      | none => []
      | some o =>
        let p := tabGet 0 (s.core n).ptr st
        ((c.due_ (s.core n) l st v).zipIdx.filter (fun (q, _) => decide (q.1 = v))).map (fun (_, j) =>
          (armBase + off + o + 16 * (p + j), (l, (st, p + j)))))
  | _, _ => []

/-- The fetch of the instruction words of slot V: each is a read of HBM, so a media error that waits in one is met here (R264,
R374, R393). -/
def State.fetch (s : State) (k v : Nat) : State :=
  (s.fetchWords k v).foldl (fun s w => s.touchPhys w.1 16 false) s

/-- An instruction of slot V lies in an uncorrectable sector of the armature's area: logical core, stream and stream position of the
first one (R44, R264). -/
def State.fetchBad (s : State) (k v : Nat) : Option (Nat × (Nat × Nat)) :=
  ((s.fetchWords k v).find? (fun w => s.hbmPoisoned w.1 16)).map Prod.snd

/-- The instruction words of the slot about to be decided, fetched, with the fault of one that cannot be, which has its stream
position; no event of its own is named, so FLT_CAUSE holds MEM_UE (R264, R472; log entry 64). -/
def State.fetchFault (s : State) (k : Nat) : State :=
  let c := s.cell k
  let v := c.tick.toNat + c.ahead
  if c.blocked then s
  else
    let s := s.fetch k v
    match s.fetchBad k v with
    | some (l, (st, p)) => s.fault k 0x2101 l st p false
    | none => s

/-! The decision. -/

/-- The decision for the tick two ahead, with the fields of SCHED_HOLD (R251, R273). `late` names the logical core whose words are
not ready. -/
def State.decide2 (s : State) (k : Nat) (late : Option Nat) : Cell :=
  let c := s.cell k
  let v := c.tick.toNat + c.ahead
  if c.blocked then
    { c.holdBy 0 (if c.holds.hazard then 5 else 4) 0 with run2 := .hold }
  else
    match s.missingToken c v with
    | some (l, t) => { c.holdBy t 0 l with run2 := .hold }
    | none =>
      match late with
      | some l => { c.holdBy 0 2 l with run2 := .hold }
      | none =>
        match (s.foresee k).missingUnit k v (8 * (c.uticks + c.uahead)) with
        | some (l, (st, cause)) => { c.holdBy 0 cause l with run2 := s.unitHold c st cause }
        | none => { c with run2 := .run }

/-- The tick that begins was decided to run, and an instruction of its slot cannot issue after all, because a Calipers retry or a
re-execution has taken its array since: the tick is held for that unit (R94, R216, R256; log entry 15). -/
def State.lateHold (s : State) (k : Nat) : State :=
  let c := s.cell k
  if c.run0 = .run then
    match s.missingUnit k c.tick.toNat c.cycle with
    | some (l, (st, cause)) => s.setCell k { c.holdBy 0 cause l with run0 := s.unitHold c st cause }
    | none => s
  else s

/-- TICK_DECISION: an elapsed tick begins, and the readiness unit decides the tick two ahead (R251). `late` names the logical core, if
any, whose instruction words of that tick are not decoded and ready (R264). The tick before must have done its work; the rows
that its cycles brought into the broadcasts have been read (R95). -/
def execTickDecision (cell : Fin 16) (late : Option (Fin 48)) (s : State) : Res :=
  let c := s.cell cell
  if s.operational && c.exists_ && !(s.tickBusy c) then
    let c1 := c.endTick (decide (s.unissued c ≠ []) || c.frozen.isSome)
    let s := c.members.foldl (fun s n => s.modCore n (fun co => co.captureRows c1.cycle)) (s.setCell cell c1)
    let s := (s.lateHold cell).fetchFault cell
    .next (s.setCell cell (s.decide2 cell (late.map (·.val))))
  else .next s

end Sys2Proof.Machine
end

