-- ==== Sys2Proof/Machine/Dispatch.lean ====
section
/-! DEFINITION. One arm for each command: a direct call of its meaning. -/
namespace Sys2Proof.Machine
open Sys2Proof

/-- The effect of a command on everything but the queue. -/
def exec (i : Instr) (s : State) : Host.Outcome State Fault Refusal :=
  match i with
  | .armBegin m total => Sys2Proof.Machine.execArmBegin m total s
  | .armData m offset data => Sys2Proof.Machine.execArmData m offset data s
  | .armCommit m mode cells epoch => Sys2Proof.Machine.execArmCommit m mode cells epoch s
  | .armCancel m => Sys2Proof.Machine.execArmCancel m s
  | .armReceiveTimeout => Sys2Proof.Machine.execArmReceiveTimeout s
  | .armVerifyDone => Sys2Proof.Machine.execArmVerifyDone s
  | .armApplyDone err => Sys2Proof.Machine.execArmApplyDone err s
  | .armPersistDone => Sys2Proof.Machine.execArmPersistDone s
  | .tickDecision cell late => Sys2Proof.Machine.execTickDecision cell late s
  | .schedStall cell => Sys2Proof.Machine.execSchedStall cell s
  | .instrComplete core stream => Sys2Proof.Machine.execInstrComplete core stream s
  | .nop core stream w => Sys2Proof.Machine.execNop core stream w s
  | .mma core ws => Sys2Proof.Machine.execMma core ws s
  | .conv core ws => Sys2Proof.Machine.execConv core ws s
  | .smma core ws => Sys2Proof.Machine.execSmma core ws s
  | .tsp core ws => Sys2Proof.Machine.execTsp core ws s
  | .sgrad core ws => Sys2Proof.Machine.execSgrad core ws s
  | .arrayStreamStart core arr => Sys2Proof.Machine.execArrayStreamStart core arr s
  | .drain core w => Sys2Proof.Machine.execDrain core w s
  | .calRetryStart core arr errs => Sys2Proof.Machine.execCalRetryStart core arr errs s
  | .calRetryDone core arr errs => Sys2Proof.Machine.execCalRetryDone core arr errs s
  | .point core w => Sys2Proof.Machine.execPoint core w s
  | .pointReexecDone core flips => Sys2Proof.Machine.execPointReexecDone core flips s
  | .pointThirdExecDone core flips => Sys2Proof.Machine.execPointThirdExecDone core flips s
  | .heightenedReexec cell => Sys2Proof.Machine.execHeightenedReexec cell s
  | .droopTrip core mhz => Sys2Proof.Machine.execDroopTrip core mhz s
  | .mvp core w errs => Sys2Proof.Machine.execMvp core w errs s
  | .spmsp core w => Sys2Proof.Machine.execSpmsp core w s
  | .merge core w => Sys2Proof.Machine.execMerge core w s
  | .sort core w => Sys2Proof.Machine.execSort core w s
  | .topkidx core w => Sys2Proof.Machine.execTopkidx core w s
  | .pack core w => Sys2Proof.Machine.execPack core w s
  | .unpack core w => Sys2Proof.Machine.execUnpack core w s
  | .carve core w => Sys2Proof.Machine.execCarve core w s
  | .model core w => Sys2Proof.Machine.execModel core w s
  | .mstat core w => Sys2Proof.Machine.execMstat core w s
  | .plinthWriteAck core stream => Sys2Proof.Machine.execPlinthWriteAck core stream s
  | .homeLineWrite core stream => Sys2Proof.Machine.execHomeLineWrite core stream s
  | .add core w => Sys2Proof.Machine.execAdd core w s
  | .sub core w => Sys2Proof.Machine.execSub core w s
  | .mul core w => Sys2Proof.Machine.execMul core w s
  | .fma core w => Sys2Proof.Machine.execFma core w s
  | .min core w => Sys2Proof.Machine.execMin core w s
  | .max core w => Sys2Proof.Machine.execMax core w s
  | .abs core w => Sys2Proof.Machine.execAbs core w s
  | .neg core w => Sys2Proof.Machine.execNeg core w s
  | .mov core w => Sys2Proof.Machine.execMov core w s
  | .cmpeq core w => Sys2Proof.Machine.execCmpeq core w s
  | .cmplt core w => Sys2Proof.Machine.execCmplt core w s
  | .cmple core w => Sys2Proof.Machine.execCmple core w s
  | .sel core w => Sys2Proof.Machine.execSel core w s
  | .exp2 core w => Sys2Proof.Machine.execExp2 core w s
  | .log2 core w => Sys2Proof.Machine.execLog2 core w s
  | .rcp core w => Sys2Proof.Machine.execRcp core w s
  | .rsqrt core w => Sys2Proof.Machine.execRsqrt core w s
  | .tanh core w => Sys2Proof.Machine.execTanh core w s
  | .erf core w => Sys2Proof.Machine.execErf core w s
  | .sigm core w => Sys2Proof.Machine.execSigm core w s
  | .silu core w => Sys2Proof.Machine.execSilu core w s
  | .gelu core w => Sys2Proof.Machine.execGelu core w s
  | .rrow core w => Sys2Proof.Machine.execRrow core w s
  | .rcol core w => Sys2Proof.Machine.execRcol core w s
  | .maskgen core w => Sys2Proof.Machine.execMaskgen core w s
  | .cvt core w => Sys2Proof.Machine.execCvt core w s
  | .sr core w => Sys2Proof.Machine.execSr core w s
  | .smax core w => Sys2Proof.Machine.execSmax core w s
  | .oinit core w => Sys2Proof.Machine.execOinit core w s
  | .omax core w => Sys2Proof.Machine.execOmax core w s
  | .osum core w => Sys2Proof.Machine.execOsum core w s
  | .ofin core w => Sys2Proof.Machine.execOfin core w s
  | .update core w => Sys2Proof.Machine.execUpdate core w s
  | .gnormSq core w => Sys2Proof.Machine.execGnormSq core w s
  | .gnormFin core w => Sys2Proof.Machine.execGnormFin core w s
  | .gnormClr core w => Sys2Proof.Machine.execGnormClr core w s
  | .dma core w errs => Sys2Proof.Machine.execDma core w errs s
  | .copy core w => Sys2Proof.Machine.execCopy core w s
  | .xpose core w => Sys2Proof.Machine.execXpose core w s
  | .permute core w errs => Sys2Proof.Machine.execPermute core w errs s
  | .gather core w errs => Sys2Proof.Machine.execGather core w errs s
  | .scatter core w errs => Sys2Proof.Machine.execScatter core w errs s
  | .dmaComplete core ord => Sys2Proof.Machine.execDmaComplete core ord s
  | .rput core w => Sys2Proof.Machine.execRput core w s
  | .rget core w => Sys2Proof.Machine.execRget core w s
  | .ratom core w => Sys2Proof.Machine.execRatom core w s
  | .radd core w => Sys2Proof.Machine.execRadd core w s
  | .xch core w => Sys2Proof.Machine.execXch core w s
  | .sealOp core w errs => Sys2Proof.Machine.execSealOp core w errs s
  | .wait core w => Sys2Proof.Machine.execWait core w s
  | .signal core w => Sys2Proof.Machine.execSignal core w s
  | .rdv core w => Sys2Proof.Machine.execRdv core w s
  | .tickmark core w => Sys2Proof.Machine.execTickmark core w s
  | .stepEndArriveReady => Sys2Proof.Machine.execStepEndArriveReady s
  | .packetForward port pk => Sys2Proof.Machine.execPacketForward port pk s
  | .putReceive port pk => Sys2Proof.Machine.execPutReceive port pk s
  | .getreqReceive port pk errs => Sys2Proof.Machine.execGetreqReceive port pk errs s
  | .atomReceive port pk => Sys2Proof.Machine.execAtomReceive port pk s
  | .addsReceive port pk => Sys2Proof.Machine.execAddsReceive port pk s
  | .addaReceive port pk => Sys2Proof.Machine.execAddaReceive port pk s
  | .signalReceive port pk => Sys2Proof.Machine.execSignalReceive port pk s
  | .xcntReceive port pk => Sys2Proof.Machine.execXcntReceive port pk s
  | .xbaseReceive port pk => Sys2Proof.Machine.execXbaseReceive port pk s
  | .normReceive port pk => Sys2Proof.Machine.execNormReceive port pk s
  | .gnormTimeout => Sys2Proof.Machine.execGnormTimeout s
  | .sealxReceive port pk => Sys2Proof.Machine.execSealxReceive port pk s
  | .ackReceive port pk => Sys2Proof.Machine.execAckReceive port pk s
  | .nakReceive port pk => Sys2Proof.Machine.execNakReceive port pk s
  | .busyReceive port pk => Sys2Proof.Machine.execBusyReceive port pk s
  | .busyRetryTimer flow => Sys2Proof.Machine.execBusyRetryTimer flow s
  | .errReceive port pk => Sys2Proof.Machine.execErrReceive port pk s
  | .getdataReceive port pk => Sys2Proof.Machine.execGetdataReceive port pk s
  | .atomdataReceive port pk => Sys2Proof.Machine.execAtomdataReceive port pk s
  | .e2eTimeout flow => Sys2Proof.Machine.execE2eTimeout flow s
  | .hbTimer => Sys2Proof.Machine.execHbTimer s
  | .liveSetCheck => Sys2Proof.Machine.execLiveSetCheck s
  | .hbReceive port pk => Sys2Proof.Machine.execHbReceive port pk s
  | .headbeatReceive port pk => Sys2Proof.Machine.execHeadbeatReceive port pk s
  | .headbeatTimeout us => Sys2Proof.Machine.execHeadbeatTimeout us s
  | .deputyTakeoverTimer => Sys2Proof.Machine.execDeputyTakeoverTimer s
  | .headlessFenceTimer => Sys2Proof.Machine.execHeadlessFenceTimer s
  | .arriveReceive port pk => Sys2Proof.Machine.execArriveReceive port pk s
  | .releaseReceive port pk => Sys2Proof.Machine.execReleaseReceive port pk s
  | .rdvnakReceive port pk => Sys2Proof.Machine.execRdvnakReceive port pk s
  | .rdvTimeout name => Sys2Proof.Machine.execRdvTimeout name s
  | .deathReceive port pk => Sys2Proof.Machine.execDeathReceive port pk s
  | .deathAckReceive slot a => Sys2Proof.Machine.execDeathAckReceive slot a s
  | .fenceReceive port pk => Sys2Proof.Machine.execFenceReceive port pk s
  | .routesetReceive port pk => Sys2Proof.Machine.execRoutesetReceive port pk s
  | .tcdfReceive port pk => Sys2Proof.Machine.execTcdfReceive port pk s
  | .exprecReceive port pk => Sys2Proof.Machine.execExprecReceive port pk s
  | .resendReceive port pk => Sys2Proof.Machine.execResendReceive port pk s
  | .mirrorResendRequest mirror => Sys2Proof.Machine.execMirrorResendRequest mirror s
  | .exportSend => Sys2Proof.Machine.execExportSend s
  | .expDropRecord => Sys2Proof.Machine.execExpDropRecord s
  | .expPause on => Sys2Proof.Machine.execExpPause on s
  | .patrolTimer pl found => Sys2Proof.Machine.execPatrolTimer pl found s
  | .plcFlush pl => Sys2Proof.Machine.execPlcFlush pl s
  | .plcScrub pl found => Sys2Proof.Machine.execPlcScrub pl found s
  | .rowRepair pl chan bank row => Sys2Proof.Machine.execRowRepair pl chan bank row s
  | .frameRetire pl frame => Sys2Proof.Machine.execFrameRetire pl frame s
  | .noallocLineRelease pl line => Sys2Proof.Machine.execNoallocLineRelease pl line s
  | .regulatorServe pl => Sys2Proof.Machine.execRegulatorServe pl s
  | .xlInval core => Sys2Proof.Machine.execXlInval core s
  | .codewordReceive port cw => Sys2Proof.Machine.execCodewordReceive port cw s
  | .replayTimeout port => Sys2Proof.Machine.execReplayTimeout port s
  | .lnkTrainAttempt port => Sys2Proof.Machine.execLnkTrainAttempt port s
  | .trainingStepTimeout port => Sys2Proof.Machine.execTrainingStepTimeout port s
  | .trainingDone port healthy eyes => Sys2Proof.Machine.execTrainingDone port healthy eyes s
  | .linkHello port h => Sys2Proof.Machine.execLinkHello port h s
  | .linkCert port cert chain => Sys2Proof.Machine.execLinkCert port cert chain s
  | .linkSign port sig => Sys2Proof.Machine.execLinkSign port sig s
  | .authTimeout port => Sys2Proof.Machine.execAuthTimeout port s
  | .laneUnhealthy port l => Sys2Proof.Machine.execLaneUnhealthy port l s
  | .retrainDone port => Sys2Proof.Machine.execRetrainDone port s
  | .retrainTimeout port => Sys2Proof.Machine.execRetrainTimeout port s
  | .creditTimeout port vc => Sys2Proof.Machine.execCreditTimeout port vc s
  | .lnkRetrain port => Sys2Proof.Machine.execLnkRetrain port s
  | .lnkDrain port => Sys2Proof.Machine.execLnkDrain port s
  | .lnkDrainEnd port => Sys2Proof.Machine.execLnkDrainEnd port s
  | .lnkUnquar port => Sys2Proof.Machine.execLnkUnquar port s
  | .lnkQuar port => Sys2Proof.Machine.execLnkQuar port s
  | .byeReceive port => Sys2Proof.Machine.execByeReceive port s
  | .fltBudgetExpiry cell => Sys2Proof.Machine.execFltBudgetExpiry cell s
  | .fltRetry cell us => Sys2Proof.Machine.execFltRetry cell us s
  | .fltGiveup cell => Sys2Proof.Machine.execFltGiveup cell s
  | .ctxPreempt cell => Sys2Proof.Machine.execCtxPreempt cell s
  | .cellPreempt m cell => Sys2Proof.Machine.execCellPreempt m cell s
  | .preemptSaveDone cell bad us => Sys2Proof.Machine.execPreemptSaveDone cell bad us s
  | .ctxResume cell => Sys2Proof.Machine.execCtxResume cell s
  | .cellResume m cell => Sys2Proof.Machine.execCellResume m cell s
  | .resumeDone cell => Sys2Proof.Machine.execResumeDone cell s
  | .snapCaptureDone us => Sys2Proof.Machine.execSnapCaptureDone us s
  | .snapFlashDrainDone ok => Sys2Proof.Machine.execSnapFlashDrainDone ok s
  | .snapStoreDrainDone ok => Sys2Proof.Machine.execSnapStoreDrainDone ok s
  | .snapUploadDone => Sys2Proof.Machine.execSnapUploadDone s
  | .snpTake => Sys2Proof.Machine.execSnpTake s
  | .snpAbortup => Sys2Proof.Machine.execSnpAbortup s
  | .restore m source gen step => Sys2Proof.Machine.execRestore m source gen step s
  | .restoreComplete obj => Sys2Proof.Machine.execRestoreComplete obj s
  | .slotAssign m slot hash => Sys2Proof.Machine.execSlotAssign m slot hash s
  | .fillAttachDone slot => Sys2Proof.Machine.execFillAttachDone slot s
  | .fillCopyDone slot stale => Sys2Proof.Machine.execFillCopyDone slot stale s
  | .fleetResume m all => Sys2Proof.Machine.execFleetResume m all s
  | .sessionOpen port no cert nonce => Sys2Proof.Machine.execSessionOpen port no cert nonce s
  | .sessionConfirm m => Sys2Proof.Machine.execSessionConfirm m s
  | .sessionConfirmTimeout id => Sys2Proof.Machine.execSessionConfirmTimeout id s
  | .sessionClose m => Sys2Proof.Machine.execSessionClose m s
  | .sessionIdleTimeout id => Sys2Proof.Machine.execSessionIdleTimeout id s
  | .rekey m => Sys2Proof.Machine.execRekey m s
  | .keepalive m => Sys2Proof.Machine.execKeepalive m s
  | .evtSubscribe m sev => Sys2Proof.Machine.execEvtSubscribe m sev s
  | .notifyAck m ack => Sys2Proof.Machine.execNotifyAck m ack s
  | .notifyResendTimer id => Sys2Proof.Machine.execNotifyResendTimer id s
  | .csrRead m addr count => Sys2Proof.Machine.execCsrRead m addr count s
  | .csrWrite m addr words => Sys2Proof.Machine.execCsrWrite m addr words s
  | .evtRead m first count => Sys2Proof.Machine.execEvtRead m first count s
  | .status m => Sys2Proof.Machine.execStatus m s
  | .cellReset m cell => Sys2Proof.Machine.execCellReset m cell s
  | .tokenPost m cell lcore token count => Sys2Proof.Machine.execTokenPost m cell lcore token count s
  | .qpOpen m port hqpn hpsn pmtu gid => Sys2Proof.Machine.execQpOpen m port hqpn hpsn pmtu gid s
  | .qpClose m qpn => Sys2Proof.Machine.execQpClose m qpn s
  | .storeQp m target rqpn rpsn => Sys2Proof.Machine.execStoreQp m target rqpn rpsn s
  | .warmReset m => Sys2Proof.Machine.execWarmReset m s
  | .moduleReset m => Sys2Proof.Machine.execModuleReset m s
  | .attest m nonce => Sys2Proof.Machine.execAttest m nonce s
  | .rdmaWriteReceive port q => Sys2Proof.Machine.execRdmaWriteReceive port q s
  | .rdmaReadRequest port q => Sys2Proof.Machine.execRdmaReadRequest port q s
  | .roceAckReceive qpn psn a => Sys2Proof.Machine.execRoceAckReceive qpn psn a s
  | .roceRetryTimeout qpn => Sys2Proof.Machine.execRoceRetryTimeout qpn s
  | .cnpReceive qpn => Sys2Proof.Machine.execCnpReceive qpn s
  | .rateRestoreTimer qpn => Sys2Proof.Machine.execRateRestoreTimer qpn s
  | .pauseFrameReceive port prios => Sys2Proof.Machine.execPauseFrameReceive port prios s
  | .neighbourFrame port f => Sys2Proof.Machine.execNeighbourFrame port f s
  | .ethLink port up mode => Sys2Proof.Machine.execEthLink port up mode s
  | .ptpMessageReceive port m time => Sys2Proof.Machine.execPtpMessageReceive port m time s
  | .ptpMasterLoss => Sys2Proof.Machine.execPtpMasterLoss s
  | .aonPowerUp => Sys2Proof.Machine.execAonPowerUp s
  | .enAssert => Sys2Proof.Machine.execEnAssert s
  | .mrstAssert us => Sys2Proof.Machine.execMrstAssert us s
  | .watchdogExpiry => Sys2Proof.Machine.execWatchdogExpiry s
  | .sramUe => Sys2Proof.Machine.execSramUe s
  | .thermalTrip readings => Sys2Proof.Machine.execThermalTrip readings s
  | .bootTimeout => Sys2Proof.Machine.execBootTimeout s
  | .overVoltage => Sys2Proof.Machine.execOverVoltage s
  | .resetStageDone extRef fail => Sys2Proof.Machine.execResetStageDone extRef fail s
  | .resetStageTimeout cause => Sys2Proof.Machine.execResetStageTimeout cause s
  | .blockResetRequest block => Sys2Proof.Machine.execBlockResetRequest block s
  | .blockQuiesceEnd block idle outstanding => Sys2Proof.Machine.execBlockQuiesceEnd block idle outstanding s
  | .supplyWarning vin => Sys2Proof.Machine.execSupplyWarning vin s
  | .vinBelowRecovery vin => Sys2Proof.Machine.execVinBelowRecovery vin s
  | .supplyRecoveryTimer us => Sys2Proof.Machine.execSupplyRecoveryTimer us s
  | .supplyResetLevel => Sys2Proof.Machine.execSupplyResetLevel s
  | .aonLevelLoss => Sys2Proof.Machine.execAonLevelLoss s
  | .presenceDetect => Sys2Proof.Machine.execPresenceDetect s
  | .pwrgdTimeout => Sys2Proof.Machine.execPwrgdTimeout s
  | .enDeassert => Sys2Proof.Machine.execEnDeassert s
  | .removalPhaseDone ms => Sys2Proof.Machine.execRemovalPhaseDone ms s
  | .removalFlushTimeout => Sys2Proof.Machine.execRemovalFlushTimeout s
  | .surpriseRemoval => Sys2Proof.Machine.execSurpriseRemoval s
  | .idleEntry => Sys2Proof.Machine.execIdleEntry s
  | .pwrTarget on => Sys2Proof.Machine.execPwrTarget on s
  | .standbyEntered => Sys2Proof.Machine.execStandbyEntered s
  | .pwrVminclr => Sys2Proof.Machine.execPwrVminclr s
  | .refclkFail => Sys2Proof.Machine.execRefclkFail s
  | .coreOvertemp core temp => Sys2Proof.Machine.execCoreOvertemp core temp s
  | .coreCooldown core temp => Sys2Proof.Machine.execCoreCooldown core temp s
  | .throttleStep => Sys2Proof.Machine.execThrottleStep s
  | .hbmRefreshBoost pl => Sys2Proof.Machine.execHbmRefreshBoost pl s
  | .hbmHotStart pl temp => Sys2Proof.Machine.execHbmHotStart pl temp s
  | .powerOverLimit watts => Sys2Proof.Machine.execPowerOverLimit watts s
  | .coolantAlarm inlet flow => Sys2Proof.Machine.execCoolantAlarm inlet flow s
  | .evtLogCopyTimer => Sys2Proof.Machine.execEvtLogCopyTimer s
  | .suppressionWindowClose code kind inst => Sys2Proof.Machine.execSuppressionWindowClose code kind inst s
  | .patinaWriteTimer => Sys2Proof.Machine.execPatinaWriteTimer s
  | .fwBegin => Sys2Proof.Machine.execFwBegin s
  | .fwVerify => Sys2Proof.Machine.execFwVerify s
  | .fwInstall => Sys2Proof.Machine.execFwInstall s
  | .fwInstallDone ok => Sys2Proof.Machine.execFwInstallDone ok s
  | .ownCommit => Sys2Proof.Machine.execOwnCommit s
  | .surveyDue => Sys2Proof.Machine.execSurveyDue s
  | .surveyStart => Sys2Proof.Machine.execSurveyStart s
  | .surveyAbortCmd => Sys2Proof.Machine.execSurveyAbortCmd s
  | .surveyIslandDone core r => Sys2Proof.Machine.execSurveyIslandDone core r s
  | .surveyOverdue island days => Sys2Proof.Machine.execSurveyOverdue island days s
  | .calSuspectClear mask => Sys2Proof.Machine.execCalSuspectClear mask s
  | .trlpHello seq => Sys2Proof.Machine.execTrlpHello seq s
  | .trlpLoad seq offset data => Sys2Proof.Machine.execTrlpLoad seq offset data s
  | .trlpCommit seq => Sys2Proof.Machine.execTrlpCommit seq s
  | .trlpOwner seq hash => Sys2Proof.Machine.execTrlpOwner seq hash s
  | .trlpReboot seq => Sys2Proof.Machine.execTrlpReboot seq s
  | .registerWrite host addr value => Sys2Proof.Machine.execRegisterWrite host addr value s
  | .droopResponseEnd core => Sys2Proof.Machine.execDroopResponseEnd core s
  | .hbmHotEnd pl temp => Sys2Proof.Machine.execHbmHotEnd pl temp s
  | .hbmRefreshNormal pl => Sys2Proof.Machine.execHbmRefreshNormal pl s
  | .powerThrottleEnd watts => Sys2Proof.Machine.execPowerThrottleEnd watts s
  | .thermalTripRailRestore => Sys2Proof.Machine.execThermalTripRailRestore s
  | .overVoltageClear => Sys2Proof.Machine.execOverVoltageClear s
  | .enHoldoffExpiry => Sys2Proof.Machine.execEnHoldoffExpiry s
  | .enReinsertDelay => Sys2Proof.Machine.execEnReinsertDelay s
  | .linkLocalFallback => Sys2Proof.Machine.execLinkLocalFallback s

end Sys2Proof.Machine
end

