-- ==== Sys2Proof/Machine/Step.lean ====
section
/-! DEFINITION. One step: the command at the front of the queue runs on the state with the rest of the queue. -/
namespace Sys2Proof.Machine
open Sys2Proof

/-- One step. With an empty queue a codeword time passes on the links, and nothing else changes (log entry 1). -/
def step (s : State) : Host.Outcome State Fault Refusal :=
  match s.pending with
  | [] => .next s.linkTick
  | c :: rest => exec c { s with pending := rest }

/-- The state with the command that a table word spells in front of the queue (none spells one). -/
def State.withFetchWord (s : State) (nbits w : Nat) : State :=
  match decodeTableWord nbits w with
  | some c => { s with pending := c :: s.pending }
  | none => s

end Sys2Proof.Machine
end

