-- ==== Sys2Proof/Safety.lean ====
section
/-! DEFINITION. What a sound state is, in the terms that statements use: the memories and poison sets in their canonical form,
and the relations between fields that every step keeps. -/
namespace Sys2Proof.Machine
open Sys2Proof

/-- The canonical form of a memory. -/
abbrev Memory.wf (m : Mem) : Bool := memWf m

/-- The memories and poison sets of an array are canonical. -/
def Arr.memOk (a : Arr) : Bool := Memory.wf a.ram && psWf a.pois

/-- The memories and poison sets of a core are canonical. -/
def Core.memOk (c : Core) : Bool :=
  Memory.wf c.store && psWf c.storePois && Memory.wf c.treg && psWf c.tregPois && tabWf {} c.arrays &&
    c.arrays.all (fun a => a.2.memOk)

/-- The memories of the module are canonical: HBM and its poison map, and those of every core. -/
def State.memOk (s : State) : Bool :=
  Memory.wf s.hbm && psWf s.hbmPois && tabWf {} s.cores && s.cores.all (fun c => c.2.memOk)

end Sys2Proof.Machine
end

