-- ==== Sys2Proof/Certificates/Slice0/Obligations.lean ====
section
/-! DEFINITION. The statements for the provers: first the claims, chapter by chapter, each with the rules it comes from; then the
obligations, which put them together. -/

namespace Sys2Proof.Claims
open Sys2Proof Sys2Proof.Machine

/-- What a record in the log may change beside the log itself: the free values drawn, what is sent, the Ethernet ports' bytes that
wait for a pause to end, the sessions' notices, the alert bits and the Patina's counts. The state `s` with those parts as `t` has them. -/
def logged (s t : State) : State :=
  { s with free := t.free, out := t.out, eths := t.eths, evt := t.evt, hst := { s.hst with sessions := t.hst.sessions },
           pwr := { s.pwr with alert := t.pwr.alert }, mgmt := { s.mgmt with patHour := t.mgmt.patHour } }

/-! The block as a whole. -/

/-- What holds in every state that a run reaches and that every command keeps: the HBM and its poison map in their canonical
form, the clock locked only where it has been locked before (R544), at most 1,920 records in retained memory (R578). -/
def Sound (s : State) : Prop :=
  Memory.wf s.hbm = true ∧ psWf s.hbmPois = true ∧ (s.ptp.locked = true → s.ptp.everLock = true) ∧ s.evt.recs.length ≤ 1920

/-! Issue and completion of instructions. -/

/-- One row of the table that issues an instruction: its core, stream and opcode, the words it names, and the plan of its
execution. -/
structure IssueRow where
  /-- Core. -/
  core : Nat
  /-- Stream. -/
  stream : Nat
  /-- Opcode (R308). -/
  opc : Nat
  /-- The instruction's word, or the words of a broadcast group (R90). -/
  ws : List (BitVec 128)
  /-- The plan, or the refusal of R121. -/
  plan : IssueCtx → Except Refuse (List Plan)

/-- The row of an instruction of one word. -/
def oneWord (core stream opc : Nat) (w : BitVec 128) (p : IssueCtx → Except Refuse Plan) : IssueRow :=
  ⟨core, stream, opc, [w], fun x => match p x with | .ok q => .ok [q] | .error e => .error e⟩

/-- The row of an array, matrix-vector or merge instruction: streams 0 to 2. -/
def computeRow (s : State) : Instr → Option IssueRow
  | .nop core st w => some (oneWord core st 0x01 w planNop)
  | .mma core ws => some ⟨core, 0, 0x10, ws, planProduct ws⟩
  | .conv core ws => some ⟨core, 0, 0x11, ws, planProduct ws⟩
  | .smma core ws => some ⟨core, 0, 0x12, ws, planProduct ws⟩
  | .tsp core ws => some ⟨core, 0, 0x13, ws, planProduct ws⟩
  | .sgrad core ws => some ⟨core, 0, 0x14, ws, planProduct ws⟩
  | .drain core w => some (oneWord core 0 0x18 w (planDrain s.cfg.dchk w))
  | .mvp core w bad => some (oneWord core 1 0x20 w (planMvp w bad))
  | .spmsp core w => some (oneWord core 2 0x30 w (planSpmsp w))
  | .merge core w => some (oneWord core 2 0x31 w (planMerge w))
  | .sort core w => some (oneWord core 2 0x32 w (planSort w))
  | .topkidx core w => some (oneWord core 2 0x33 w (planTopkidx w))
  | .pack core w => some (oneWord core 2 0x38 w (planPack s w))
  | .unpack core w => some (oneWord core 2 0x39 w (planUnpack s w))
  | .carve core w => some (oneWord core 2 0x3A w (planCarve w))
  | .model core w => some (oneWord core 2 0x3B w (planModel w))
  | .mstat core w => some (oneWord core 2 0x3C w (planMstat w))
  | _ => none

/-- The row of a vector instruction: stream 3. -/
def vectorRow (s : State) : Instr → Option IssueRow
  | .add core w => some (oneWord core 3 0x40 w (planElem s.cfg.dchk w))
  | .sub core w => some (oneWord core 3 0x41 w (planElem s.cfg.dchk w))
  | .mul core w => some (oneWord core 3 0x42 w (planElem s.cfg.dchk w))
  | .fma core w => some (oneWord core 3 0x43 w (planElem s.cfg.dchk w))
  | .min core w => some (oneWord core 3 0x44 w (planElem s.cfg.dchk w))
  | .max core w => some (oneWord core 3 0x45 w (planElem s.cfg.dchk w))
  | .abs core w => some (oneWord core 3 0x46 w (planElem s.cfg.dchk w))
  | .neg core w => some (oneWord core 3 0x47 w (planElem s.cfg.dchk w))
  | .mov core w => some (oneWord core 3 0x48 w (planElem s.cfg.dchk w))
  | .cmpeq core w => some (oneWord core 3 0x49 w (planElem s.cfg.dchk w))
  | .cmplt core w => some (oneWord core 3 0x4A w (planElem s.cfg.dchk w))
  | .cmple core w => some (oneWord core 3 0x4B w (planElem s.cfg.dchk w))
  | .sel core w => some (oneWord core 3 0x4C w (planElem s.cfg.dchk w))
  | .exp2 core w => some (oneWord core 3 0x50 w (planElem s.cfg.dchk w))
  | .log2 core w => some (oneWord core 3 0x51 w (planElem s.cfg.dchk w))
  | .rcp core w => some (oneWord core 3 0x52 w (planElem s.cfg.dchk w))
  | .rsqrt core w => some (oneWord core 3 0x53 w (planElem s.cfg.dchk w))
  | .tanh core w => some (oneWord core 3 0x54 w (planElem s.cfg.dchk w))
  | .erf core w => some (oneWord core 3 0x55 w (planElem s.cfg.dchk w))
  | .sigm core w => some (oneWord core 3 0x56 w (planElem s.cfg.dchk w))
  | .silu core w => some (oneWord core 3 0x57 w (planElem s.cfg.dchk w))
  | .gelu core w => some (oneWord core 3 0x58 w (planElem s.cfg.dchk w))
  | .rrow core w => some (oneWord core 3 0x5A w (planReduce false s.cfg.dchk w))
  | .rcol core w => some (oneWord core 3 0x5B w (planReduce true s.cfg.dchk w))
  | .maskgen core w => some (oneWord core 3 0x5C w (planMaskgen w))
  | .cvt core w => some (oneWord core 3 0x5D w (planCvt s.cfg.dchk w))
  | .sr core w => some (oneWord core 3 0x5E w (planSr s.cfg.dchk w))
  | .smax core w => some (oneWord core 3 0x5F w (planSmax s.cfg.dchk w))
  | .oinit core w => some (oneWord core 3 0x60 w (planOnline w))
  | .omax core w => some (oneWord core 3 0x61 w (planOnline w))
  | .osum core w => some (oneWord core 3 0x62 w (planOnline w))
  | .ofin core w => some (oneWord core 3 0x63 w (planOnline w))
  | .update core w => some (oneWord core 3 0x68 w (planUpdate w))
  | .gnormSq core w => if wOpx w = 0 then some (oneWord core 3 0x69 w (planGnorm s.cfg.dchk w)) else none
  | .gnormFin core w => if wOpx w = 1 then some (oneWord core 3 0x69 w (planGnorm s.cfg.dchk w)) else none
  | .gnormClr core w => if wOpx w = 2 then some (oneWord core 3 0x69 w (planGnorm s.cfg.dchk w)) else none
  | .wait core w => some (oneWord core 5 0xA0 w (fun x => .ok (synPlan x)))
  | _ => none

/-- The row's instruction issues now in the context `x` by the plans `ps`: its word has the row's opcode, it is the next of its
stream, its slot is the counter value of a running tick and its units accept it (R244, R245, R250), no field is refused, and
the hazard detector, where DEBUG runs it, finds nothing (R270). -/
def Issues (s : State) (r : IssueRow) (x : IssueCtx) (ps : List Plan) : Prop :=
  (∃ w, r.ws.head? = some w ∧ wOpc w = r.opc) ∧ s.mayIssue r.core r.stream r.ws = some x ∧ r.plan x = .ok ps ∧
    (s.cfg.debug = true → (r.ws.zip ps).findSome? (fun q => x.co.hazard x.l r.stream (q.2.withBlock x.co q.1)) = none)

/-- What a plan may change in its core at issue: the arrays' registers and the times at which units are free; the core store,
the tile registers, the scoreboard and the streams stay. -/
def Plan.unitsOnly (p : Plan) : Prop :=
  ∀ co : Core, p.upd co = { co with arrays := (p.upd co).arrays, mrgFree := (p.upd co).mrgFree, bcastFree := (p.upd co).bcastFree }

/-! Instructions of the DMA and SYN streams. -/

/-- The row of a local transfer or SEAL (stream 4), with what the transfer does once it has issued; the sectors that have come to be
in error wait for a read that meets them (log entry 10). -/
def transferRow (s : State) : Instr → Option (IssueRow × (State → IssueCtx → Entry → State))
  | .dma core w errs => some (oneWord core 4 0x80 w (planDma s w), fun t _ e => (t.decay errs).runLocal core e)
  | .copy core w => some (oneWord core 4 0x81 w (planCopy w), fun t _ e => (t.decay []).runLocal core e)
  | .xpose core w => some (oneWord core 4 0x82 w (planXpose w), fun t _ e => (t.decay []).runLocal core e)
  | .permute core w errs => some (oneWord core 4 0x83 w (planPermute s w), fun t _ e => (t.decay errs).runLocal core e)
  | .gather core w errs => some (oneWord core 4 0x84 w (planIndex false w), fun t _ e => (t.decay errs).runLocal core e)
  | .scatter core w errs => some (oneWord core 4 0x85 w (planIndex true w), fun t _ e => (t.decay errs).runLocal core e)
  | .sealOp core w errs => some (oneWord core 4 0xB0 w (planSeal s w), fun t x e => (t.decay errs).runSeal x.k core e)
  | _ => none

/-- The row of a remote operation (stream 4), with its start: its packets are made and sent. -/
def remoteRow : Instr → Option (IssueRow × (State → IssueCtx → Entry → State))
  | .rput core w => some (oneWord core 4 0x90 w (planPutGet false w), fun t _ e => t.startRemote core e)
  | .rget core w => some (oneWord core 4 0x91 w (planPutGet true w), fun t _ e => t.startRemote core e)
  | .ratom core w => some (oneWord core 4 0x92 w (planRatom w), fun t _ e => t.startRemote core e)
  | .radd core w => some (oneWord core 4 0x93 w (planRadd w), fun t _ e => t.startRemote core e)
  | .xch core w => some (oneWord core 4 0x94 w (planXch w), fun t _ e => t.startRemote core e)
  | _ => none

/-- The row of an instruction of the SYN stream (stream 5), with what it does as it issues: SIGNAL sends its post behind the
data that this core sent to the same place, RDV joins its rendezvous (a STEP_END only ends its tick), TICKMARK logs its label
with the counter value of its issue tick (R323 to R325, R328). -/
def synRow (s : State) : Instr → Option (IssueRow × (State → IssueCtx → Entry → State))
  | .signal core w => some (oneWord core 5 0xA1 w (planSignal s w), fun t _ e =>
      t.sendOps core 5 e.ord [⟨if wf w 59 59 = 1 then flowKey (wf w 71 66) (wf w 65 60) else s.ownKey,
        { ptype := 0x06, ttoken := wf w 48 41, tcell := wf w 58 55, tlcore := wf w 54 49, fields := [wf w 40 33] }, 0⟩])
  | .rdv core w => some (oneWord core 5 0xA2 w (planRdv s w), fun t _ _ =>
      if wf w 71 70 = 0 then t else t.rdvReach (rdvName w))
  | .tickmark core w => some (oneWord core 5 0xA3 w (fun x => .ok (synPlan x)), fun t x _ =>
      t.log 0x5104 [.val 8 t.timeNow.1.toNat, .cell x.k, .val 1 x.l, .val 4 (wf w 71 40), .val 4 x.c.tick.toNat])
  | _ => none

/-- A memory of a core that COPY names: the tile registers or the core store (R315). -/
def side (co : Core) (tile : Bool) : Mem := if tile then co.treg else co.store

/-! The schedule, faults and completion. -/

/-- A byte of a core store or of the tile registers lies outside every write of a list. -/
def Outside (ps : List Put) (tile : Bool) (a : Nat) : Prop :=
  ∀ p ∈ ps, p.tile = tile → a < p.addr ∨ p.addr + p.bytes.length ≤ a

/-- An instruction in flight with nothing but its writes, its record and its post to come. -/
def Entry.plain (e : Entry) : Prop :=
  e.pendFault = none ∧ e.arrOp = none ∧ e.mvu = none ∧ e.badRows = [] ∧ e.release = none ∧ e.perTensor = false ∧ e.events = [] ∧
    e.bits = [] ∧ isStepEnd e.word = false

/-- The oldest instruction of a core's stream that can complete in the present tick (R96). -/
def Completes (s : State) (core stream k : Nat) (e : Entry) : Prop :=
  s.cellOf core = some k ∧ s.operational = true ∧ stream ≠ 4 ∧
    (s.core core).inflight.find? (fun e => e.stream == stream && e.canEnd (s.cell k)) = some e ∧ s.settled (s.cell k) e = true

/-- SCHED_STALL: a cell held past HOLDLIM without a running tick raises the fault, whose data names the counter value, the
core and the first missing token or the unit condition (R259). -/
def schedStallDoes : Prop :=
  ∀ (cell : Fin 16) (s : State), s.operational = true → (s.cell cell).exists_ = true → (s.cell cell).blocked = false →
    (s.cell cell).run0 ≠ .run → (s.cell cell).run1 ≠ .run → (s.cell cell).run2 ≠ .run →
    exec (.schedStall cell) s = .next (s.raiseFault cell 0x5102
      [.val 4 (s.cell cell).tick.toNat, .val 1 (s.cell cell).missCore,
       .val 1 (if (s.cell cell).lastCause = 0 then (s.cell cell).lastTok.toNat else (s.cell cell).lastCause.toNat)]
      (s.cell cell).missCore 7 0 false)

/-- An array instruction in flight waits to stream on an array (R93). -/
def waitsToStream (arr : Nat) (e : Entry) : Bool :=
  match e.arrOp with
  | some o => o.arr == arr && !e.streaming
  | none => false

/-- ARRAY_STREAM_START: the group of the waiting instruction starts to stream at its first possible cycle, where no other group that
waits could start before it (R93, R112). -/
def arrayStreamStartDoes : Prop :=
  ∀ (core : Fin 48) (arr : Fin 4) (s : State) (k : Nat) (e : Entry), s.cellOf core = some k → s.cfg.debug = false →
    (s.core core).inflight.find? (waitsToStream arr) = some e →
    (s.cell k).advances = true → (s.core core).streamStart ((s.core core).groupOf e) < (s.cell k).cycle + 8 →
    (s.core core).startsFirst e = true →
    exec (.arrayStreamStart core arr) s = .next (s.setCore core
      (((s.core core).groupOf e).foldl (·.startMember ((s.core core).streamStart ((s.core core).groupOf e))) (s.core core)))

/-- DMA_COMPLETE: a transfer whose every effect is in place lets go of the bounce buffer, writes its record and posts; for XCH the
counts held for the experts it owns are dropped (R321, R332, R351). -/
def dmaCompleteDoes : Prop :=
  ∀ (core : Fin 48) (ord : Nat) (s : State) (e : Entry), (s.core core).entry 4 ord = some e → e.done = true → e.faulted = false →
    s.operational = true →
    let s1 := s.modCore core (fun co => if co.bounceBusy = some ord then { co with bounceBusy := none } else co)
    exec (.dmaComplete core ord) s = .next ((if wOpc e.word = 0x94 then s1.endXch e else s1).finish core e)

/-- INSTR_COMPLETE of any instruction of a stream other than DMA: the last effect of its kind, and its completion (R96, R249). -/
def instrCompleteDoes : Prop :=
  ∀ (core : Fin 48) (stream : Fin 6) (s : State) (k : Nat) (e : Entry), Completes s core stream k e →
    exec (.instrComplete core stream) s = .next (s.complete k core e)

/-- The tick that a cell is in has ended, and the rows that its arrays read in it are kept (R95). -/
def ended (s : State) (k : Nat) : State :=
  let c := (s.cell k).endTick (decide (s.unissued (s.cell k) ≠ []) || (s.cell k).frozen.isSome)
  (s.cell k).members.foldl (fun s n => s.modCore n (fun co => co.captureRows c.cycle)) (s.setCell k c)

/-- The cell may end its tick: the module is OPERATIONAL, the cell exists, and nothing of the present tick is still to be done. -/
def Ends (s : State) (k : Nat) : Prop :=
  s.operational = true ∧ (s.cell k).exists_ = true ∧ s.tickBusy (s.cell k) = false

/-- The tick has ended, and the words of the tick two ahead have been read from HBM, where the cell is not held (R264, R374). -/
def fetched (s : State) (k : Nat) : State :=
  let u := (ended s k).lateHold k
  if (u.cell k).blocked then u else u.fetch k ((u.cell k).tick.toNat + (u.cell k).ahead)

/-- One of those words has an uncorrectable error (R264). -/
def badFetch (s : State) (k : Nat) : Bool :=
  let u := (ended s k).lateHold k
  !(u.cell k).blocked && ((fetched s k).fetchBad k ((u.cell k).tick.toNat + (u.cell k).ahead)).isSome

/-- TICK_DECISION in its steps: the tick ends, a tick whose units turned out to be busy is made a held one, an uncorrectable error in
a word fetched faults the cell, and the tick two ahead is decided (R94, R251, R264, R273). -/
def tickDecisionSteps : Prop :=
  ∀ (cell : Fin 16) (late : Option (Fin 48)) (s : State), Ends s cell →
    let t := ((ended s cell).lateHold cell).fetchFault cell
    exec (.tickDecision cell late) s = .next (t.setCell cell (t.decide2 cell (late.map (·.val))))

/-- TICK_DECISION of a tick that was to run and in which an instruction could not issue, or that the hazard detector froze: the tick
passes as one held for that unit, and the counter stays (R94, R254, R271; log entry 15). -/
def tickHeldForUnit : Prop :=
  ∀ (cell : Fin 16) (late : Option (Fin 48)) (s : State), Ends s cell → (s.cell cell).run0 = .run →
    (s.unissued (s.cell cell) ≠ [] ∨ (s.cell cell).frozen ≠ none) → badFetch s cell = false →
    ∃ d : Cell, exec (.tickDecision cell late) s = .next ((fetched s cell).setCell cell d) ∧ d.tick = (s.cell cell).tick ∧
      d.uh = (s.cell cell).uh + 1 ∧ d.held = satAdd (s.cell cell).held 1

/-- PLINTH_WRITE_ACK: one HOME write of the stream's oldest instruction with one outstanding is acknowledged (R152). -/
def plinthWriteAckDoes : Prop :=
  ∀ (core : Fin 48) (stream : Fin 6) (s : State) (e : Entry),
    (s.core core).inflight.find? (fun e => e.stream == stream.val && decide (0 < e.homeOut)) = some e →
    exec (.plinthWriteAck core stream) s = .next (s.modCore core (fun co =>
      { co with inflight := co.inflight.map (fun x => if x.stream = stream.val ∧ x.ord = e.ord then { x with homeOut := x.homeOut - 1 } else x) }))

/-- HOME_LINE_WRITE of a line that is left unwritten: its core-store bytes are written, its reason is reported, and no Plinth
write leaves (R153, R404). -/
def homeLineSkipDoes : Prop :=
  ∀ (core : Fin 48) (stream : Fin 6) (s : State) (k : Nat) (e : Entry) (h : HomeWrite) (rest : List HomeWrite),
    s.cellOf core = some k →
    (s.core core).inflight.find? (fun e => e.stream == stream.val && decide (e.home ≠ []) && !e.faulted) = some e →
    e.home = h :: rest → (s.cell k).finished h = true → (s.cell k).ctx.toNat ≤ 2 → h.reason ≠ 0 →
    exec (.homeLineWrite core stream) s = .next (((s.modCore core (fun co => (co.applyPuts h.puts).modEntry stream e.ord (fun e =>
      { e with home := rest, cursor := nextLine e h }))).skipEvent k core e h).refuseLine k h)

/-- HOME_LINE_WRITE of a finished line: one 256 B write to the translated address, poisoned where its input was, with its delta record,
and one write more outstanding (R151, R232, R376, R406). -/
def homeLineWriteDoes : Prop :=
  ∀ (core : Fin 48) (stream : Fin 6) (s s1 s2 : State) (k a part : Nat) (em : Bool) (e : Entry) (h : HomeWrite) (rest : List HomeWrite),
    s.cellOf core = some k →
    (s.core core).inflight.find? (fun e => e.stream == stream.val && decide (e.home ≠ []) && !e.faulted) = some e →
    e.home = h :: rest → (s.cell k).finished h = true → (s.cell k).ctx.toNat ≤ 2 → h.reason = 0 →
    s.xlate core (s.cell k).root h.va false true = (s1, .ok (a, part)) →
    s1.lineWrite a part h.line h.pois (s.cell k).step.toNat = (s2, em) →
    exec (.homeLineWrite core stream) s = .next ((s2.modCore core (fun co => (co.applyPuts h.puts).modEntry stream e.ord (fun e =>
      { e with home := rest, cursor := nextLine e h, homeOut := e.homeOut + 1 }))).modCell k (fun c => { c with deltas := c.deltas + b2n em }))

/-- HOME_LINE_WRITE of a line whose translation faults: the instruction stops at that line (R385, R406). -/
def homeLineFaults : Prop :=
  ∀ (core : Fin 48) (stream : Fin 6) (s s1 : State) (k : Nat) (er : XlErr) (e : Entry) (h : HomeWrite) (rest : List HomeWrite),
    s.cellOf core = some k →
    (s.core core).inflight.find? (fun e => e.stream == stream.val && decide (e.home ≠ []) && !e.faulted) = some e →
    e.home = h :: rest → (s.cell k).finished h = true → (s.cell k).ctx.toNat ≤ 2 → h.reason = 0 →
    s.xlate core (s.cell k).root h.va false true = (s1, .error er) →
    exec (.homeLineWrite core stream) s = .next (s1.xlFault k core stream e.ord ((h.va - bfld e.block 8 8) / 256) er)

/-- STEP_END_ARRIVE_READY with a seal comparison due: the comparison begins, and the device arrives at once only where it ends at
once (R235, R462). -/
def stepEndCompares : Prop :=
  ∀ (s : State) (c : SealCmp), s.operational = true → s.rdvCells 0 ≠ [] → (s.rdvAt 0).sentArrive = false →
    (∀ k ∈ s.rdvCells 0, (s.cell k).released = false ∧ s.cellDrained (s.cell k) = true) → s.cmpDue s.devStep = true →
    (s.cmpBegin s.devStep).snp.cmp = some c →
    exec .stepEndArriveReady s =
      .next (if c.phase = 9 then (s.cmpBegin s.devStep).sendArrive 0 else s.cmpBegin s.devStep)

/-- STEP_END_ARRIVE_READY: with every participating cell at its STEP_END and no seal comparison due, the device arrives
(R258, R462). -/
def stepEndArriveReadyDoes : Prop :=
  ∀ s : State, s.operational = true → s.rdvCells 0 ≠ [] → (s.rdvAt 0).sentArrive = false →
    (∀ k ∈ s.rdvCells 0, (s.cell k).released = false ∧ s.cellDrained (s.cell k) = true) → s.cmpDue s.devStep = false →
    exec .stepEndArriveReady s = .next (s.sendArrive 0)

/-! Checks: Calipers retries, pointing, droop. -/

/-- An array instruction that streams on an array and whose rows the Calipers have not judged yet (R210 to R216). -/
def streamsOn (arr : Nat) (e : Entry) : Bool :=
  e.onArray arr && (e.streaming || e.point.isSome) && !e.inRetry && e.retryRow.isNone && e.errs.isEmpty && !e.done

/-- The Calipers judge an instruction of a core now: it streams, its cell's pipelines advance, and the present tick has issued what it
can. -/
def Judged (s : State) (core arr k : Nat) (e : Entry) (o : ArrOp) : Prop :=
  s.cellOf core = some k ∧ (s.core core).inflight.find? (streamsOn arr) = some e ∧ e.streamOp = some o ∧
    ((s.cell k).advances || e.thirdOf.isSome) = true ∧ (decide ((s.cell k).run0 = .run) && (s.unissued (s.cell k)).any (·.isNone)) = false

/-- The errors of the trees that reach a judged instruction, and the first row whose checker lane differs from its sums (R211 to
R214). -/
def firstBad (s : State) (core : Nat) (e : Entry) (o : ArrOp) (es : List TreeErr) : Option Nat :=
  (List.range o.m).find? ({ e with errs := es }.rowBad (s.feedCore core e) o)

/-- CAL_RETRY_START where every row matches: no retry begins, and what the trees gave stands (R211). -/
def calRetryNone : Prop :=
  ∀ (core : Fin 48) (arr : Fin 4) (errs : List TreeErr) (s : State) (k : Nat) (e : Entry) (o : ArrOp), Judged s core arr k e o →
    let es := e.errsFrom o errs (s.cell k).cycle
    firstBad s core e o es = none → exec (.calRetryStart core arr errs) s =
      .next (s.setCore core ((s.core core).modEntry e.stream e.ord (fun x => { x with errs := es })))

/-- CAL_RETRY_START: the array loads its front set again from its source as it stands, and the rows from the first mismatching one on
(for SGRAD from its block of 32) are streamed again, each read again in its own cycle; instructions that keep the set keep the new
one (R216, R217). -/
def calRetryStartDoes : Prop :=
  ∀ (core : Fin 48) (arr : Fin 4) (errs : List TreeErr) (s : State) (k row : Nat) (e : Entry) (o : ArrOp), Judged s core arr k e o →
    let es := e.errsFrom o errs (s.cell k).cycle
    let r := if o.opc = 0x14 then 32 * (row / 32) else row
    let ws := e.wset.reload (s.core core)
    firstBad s core e o es = some row → e.point = none →
    exec (.calRetryStart core arr errs) s = .next (s.setCore core (((({ (s.core core).modArr o.arr (fun a => { a with front := ws }) with
        inflight := (s.core core).inflight.map (fun (g : Entry) => g.rekeep o.arr ws) } : Core).modEntry 0 e.ord (fun x =>
      { x with inRetry := true, retryRow := some r, wset2 := ws, flags := x.flags ||| ws.flags, errs := es,
               rows := x.rows.filter (fun p => decide (p.1 < r)) })).retryTimes e.grp)))

/-- CAL_RETRY_START of a re-execution: the same against its own end, which the reload and the rows streamed again put off (R216,
R227). -/
def calRetryStartPointing : Prop :=
  ∀ (core : Fin 48) (arr : Fin 4) (errs : List TreeErr) (s : State) (k row : Nat) (e : Entry) (o : ArrOp), Judged s core arr k e o →
    let es := e.errsFrom o errs (s.cell k).cycle
    let r := if o.opc = 0x14 then 32 * (row / 32) else row
    let d := 64 + (o.m - r) * o.cpr + o.lat
    firstBad s core e o es = some row → e.point.isSome = true →
    ∃ co : Core, exec (.calRetryStart core arr errs) s = .next (s.setCore core co) ∧
      co.inflight = ((s.core core).modEntry e.stream e.ord (fun x =>
        { x with inRetry := true, retryRow := some r, wset2 := e.wset.reload (s.feedCore core e), errs := es,
                 doneCycle := x.doneCycle + d })).inflight ∧
      co.bcastFree = max (s.core core).bcastFree (e.doneCycle + d) ∧
      (co.arr e.unit).retryEnd = max ((s.core core).arr e.unit).retryEnd (e.doneCycle + d) ∧
      co.store = (s.core core).store ∧ co.treg = (s.core core).treg

/-- The rows of a retry that its stream finds in error again (R218). -/
def stillBad (s : State) (core : Nat) (e : Entry) (o : ArrOp) (r : Nat) (errs : List TreeErr) : List Nat :=
  ((List.range o.m).filter (fun m => decide (r ≤ m))).filter ({ e with errs2 := errs }.rowBad (s.feedCore core { e with errs2 := errs }) o)

/-- An instruction in a Calipers retry that has streamed (R216, R218). -/
def Retried (s : State) (core arr k : Nat) (e : Entry) (o : ArrOp) (r : Nat) : Prop :=
  s.cellOf core = some k ∧ (s.core core).inflight.find? (fun e => e.onArray arr && e.inRetry) = some e ∧
    e.streamOp = some o ∧ e.retryRow = some r ∧ ((s.cell k).due e || e.thirdOf.isSome) = true

/-- CAL_RETRY_DONE where every retried row matches: CAL_RETRY_OK is logged and the result stands; a core past CALTHR retries in the
hour is suspect (R218, R220). -/
def calRetryPasses : Prop :=
  ∀ (core : Fin 48) (arr : Fin 4) (errs : List TreeErr) (s : State) (k : Nat) (e : Entry) (o : ArrOp) (r : Nat),
    Retried s core arr k e o r → stillBad s core e o r errs = [] →
    let co := { ((s.core core).modEntry e.stream e.ord (fun x => { x with errs2 := errs })).modEntry e.stream e.ord (fun x =>
        { x with inRetry := false, cal := 1 }) with retry60 := satAdd (s.core core).retry60 1 }
    let t := ((s.setCore core co).rcAdd 0 1).log 0x1101 [.core core, .arr arr, .val 4 e.id.toNat, .val 4 r]
    exec (.calRetryDone core arr errs) s =
      .next (if s.cfg.calThr < (satAdd (s.core core).retry60 1).toNat then t.markSuspect core 4 else t)

/-- CAL_RETRY_DONE where a row mismatches again: CAL_MISMATCH is logged with the first such row, those rows' results are to be
poisoned, and the core is suspect (R218, R219). -/
def calRetryFails : Prop :=
  ∀ (core : Fin 48) (arr : Fin 4) (errs : List TreeErr) (s : State) (k : Nat) (e : Entry) (o : ArrOp) (r : Nat),
    Retried s core arr k e o r → stillBad s core e o r errs ≠ [] →
    ∃ t, exec (.calRetryDone core arr errs) s = .next t ∧ (t.core core).suspect = true ∧ (t.core core).calCause = 1 ∧
      t = ((s.setCore core { ((s.core core).modEntry e.stream e.ord (fun x => { x with errs2 := errs })).modEntry e.stream e.ord (fun x =>
          { x with inRetry := false, cal := 2, badRows := if x.point.isSome then [] else stillBad s core e o r errs }) with
            mism := satAdd (s.core core).mism 1 }).rcAdd 1 1).blame k [core] 1 0x1102
        [.core core, .arr arr, .val 4 e.id.toNat, .val 4 ((stillBad s core e o r errs).foldl min o.m)] ((s.cell k).lcore core) e.stream e.ord

/-- POINT issues with the source, the entry of its window and the rotation that three random draws choose (R226, R327). -/
def pointDoes : Prop :=
  ∀ (core : Fin 48) (w : BitVec 128) (s : State) (x : IssueCtx) (ps : List Plan),
    Issues s (oneWord core 0 0xB1 w (s.planPointOf (s.pointChoice x.c core) w)) x ps →
    exec (.point core w) s = .next { (s.issued x [w] ps) with free := s.free + 3 }

/-- A re-execution whose second or third run has a digest to come (R228). -/
def Pointing (s : State) (core k phase : Nat) (e : Entry) (src : Nat) (we : WinEntry) (v : Nat) : Prop :=
  s.cellOf core = some k ∧ (s.core core).pointing phase = some e ∧ e.point = some (src, (we, v)) ∧ (s.cell k).due e = true ∧
    e.inRetry = false

/-- POINT_REEXEC_DONE where the digest computed from the retained operands is the window's: the point passes (R227, R228). -/
def pointPasses : Prop :=
  ∀ (core : Fin 48) (flips : List (Nat × BitVec 32)) (s : State) (k : Nat) (e : Entry) (src : Nat) (we : WinEntry) (v : Nat),
    Pointing s core k 0 e src we v → s.redigest src e we.op flips = we.digest →
    exec (.pointReexecDone core flips) s = .next ({ s.rcAdd 3 1 with calPoints := satAdd s.calPoints 1 }.setCore core
      ((s.core core).pointOver e ((s.cell k).cycle + 8)))

/-- POINT_REEXEC_DONE with another digest: the cell holds while a third execution, on another core of the cell or on another array of
this one and without rotation, runs (R228). -/
def pointDiffers : Prop :=
  ∀ (core : Fin 48) (flips : List (Nat × BitVec 32)) (s : State) (k : Nat) (e : Entry) (src : Nat) (we : WinEntry) (v : Nat),
    Pointing s core k 0 e src we v → s.redigest src e we.op flips ≠ we.digest →
    let m := ((s.cell k).thirdPlace core src e we).1
    let again := (s.core core).inflight.map (fun x =>
      if x.stream = e.stream ∧ x.ord = e.ord then { x with reexec := [s.redigest src e we.op flips], doneCycle := 0 } else x)
    ∃ t z, exec (.pointReexecDone core flips) s = .next t ∧ (t.cell k).holds.third = (s.cell k).holds.third + 1 ∧ t.calPoints = satAdd s.calPoints 1 ∧
      (z.word = we.word ∧ z.id = we.id ∧ z.unit = ((s.cell k).thirdPlace core src e we).2 ∧ z.point = some (src, (we, 0)) ∧
        z.thirdOf = some (core.val, (e.stream, e.ord))) ∧
      (m ≠ core → (t.core core).inflight = again ∧ (t.core m).inflight = (s.core m).inflight ++ [z]) ∧
      (m = core → (t.core core).inflight = again ++ [z]) ∧
      (t.cell k).taint = (s.cell k).taint ∧ (∀ n, n ≠ core.val → n ≠ m → t.core n = s.core n) ∧ (∀ j, j ≠ k → t.cell j = s.cell j) ∧
      t.evt = s.evt ∧ t.hbm = s.hbm

/-- POINT_THIRD_EXEC_DONE: the third digest agrees with the original, with the re-execution or with neither; the blamed cores
become suspect, the cell waits for one third execution fewer, the two last outcomes set the step-taint bit, and POINT_MISMATCH carries the outcome (R229). -/
def pointThirdDecides : Prop :=
  ∀ (core : Fin 48) (flips : List (Nat × BitVec 32)) (s : State) (k m : Nat) (e z : Entry) (src : Nat) (we : WinEntry) (v : Nat),
    s.cellOf core = some k → (s.core core).pointing 1 = some e → e.point = some (src, (we, v)) →
    s.thirdFor (s.cell k) core e = some (m, z) → z.inRetry = false →
    let d := s.redigest src z we.op flips
    let out := if d = we.digest then 1 else if [d] = e.reexec then 2 else 3
    let blamed := if out = 1 then [core.val] else if out = 2 then [src] else [src, core.val]
    ∃ t, exec (.pointThirdExecDone core flips) s = .next t ∧ (∀ n ∈ blamed, (t.core n).suspect = true ∧ (t.core n).calCause = 3) ∧
      t.calPmiss = satAdd s.calPmiss 1 ∧
      (s.cfg.calEsc = false → (t.cell k).holds.third = (s.cell k).holds.third - 1 ∧ (t.cell k).taint = (if out = 1 then (s.cell k).taint else true) ∧
        (∀ j, j ≠ k → t.cell j = s.cell j) ∧ t.hbm = s.hbm)

/-- HEIGHTENED_REEXEC: the oldest instruction that waits starts again on the next member core (R227, R230). -/
def heightenedReexecDoes : Prop :=
  ∀ (cell : Fin 16) (s : State) (src : Nat) (we : WinEntry) (rest : List (Nat × WinEntry)),
    (s.cell cell).heightQ = (src, we) :: rest → (s.cell cell).advances = true →
    let n := (s.cell cell).nextMember src
    let a := if n = src then (we.op.arr + 1) % 4 else we.op.arr
    (s.core n).loadingOn a = false → ((s.core n).arr a).retryEnd ≤ (s.cell cell).cycle → ((s.core n).arr a).lastEnd ≤ (s.cell cell).cycle →
    (s.core n).bcastFree ≤ (s.cell cell).cycle → (s.core n).pointing 0 = none → (s.core n).pointing 1 = none →
    (∀ f ∈ (s.core n).inflight, f.thirdOf = none) →
    ∃ t e, exec (.heightenedReexec cell) s = .next t ∧ t.cell cell = { s.cell cell with heightQ := rest } ∧
      (t.core n).inflight = (s.core n).inflight ++ [e] ∧ e.word = we.word ∧ e.id = we.id ∧ e.stream = 6 ∧ e.unit = a ∧
      e.doneCycle = (s.cell cell).cycle + we.op.exposed ∧ (∃ v, 1 ≤ v ∧ v ≤ 1023 ∧ e.point = some (src, (we, v))) ∧
      (t.core n).bcastFree = e.doneCycle ∧ (t.core n).store = (s.core n).store ∧ (∀ j, j ≠ n → t.core j = s.core j) ∧
      t.hbm = s.hbm ∧ t.evt = s.evt

/-- DROOP_TRIP: the island runs at no more than the droop clock, and the cell of its core enters heightened pointing for 4,096
array instructions (R21, R230). -/
def droopTripDoes : Prop :=
  ∀ (core : Fin 48) (mhz : BitVec 12) (s : State) (k : Nat), s.cellOf core = some k →
    ∃ t, exec (.droopTrip core mhz) s = .next t ∧ (t.core core).droop = true ∧ (t.core core).curFreq.toNat ≤ mhz.toNat ∧
      (t.cell k).heighten = 4096 ∧ (∀ n, n ≠ core.val → t.core n = s.core n) ∧ (∀ j, j ≠ k → t.cell j = s.cell j) ∧
      (t.core core).store = (s.core core).store ∧ t.hbm = s.hbm

/-- DROOP_TRIP of a core in no cell: the island runs at the droop clock (R21). -/
def droopTripAlone : Prop :=
  ∀ (core : Fin 48) (mhz : BitVec 12) (s : State), s.cellOf core = none →
    exec (.droopTrip core mhz) s = .next ((s.modCore core (fun c => { c with droop := true, droopFreq := mhz.toNat })).reclock core)

/-- DROOP_RESPONSE_END: the island returns to the clock of its plan, which the debug mode of the checks divides by 5/3 (R21, R267). -/
def droopEndDoes : Prop :=
  ∀ (core : Fin 48) (s : State),
    let f := (s.core core).planFreq.toNat - (s.core core).slow
    let g := if (s.core core).halved then f / 2 else f
    ∃ t, exec (.droopResponseEnd core) s = .next t ∧ (t.core core).droop = false ∧
      (t.core core).curFreq = (if s.parked core then 0 else BitVec.ofNat 12 (if s.cfg.debug then g * 3 / 5 else g)) ∧
      (∀ n, n ≠ core.val → t.core n = s.core n) ∧ t = { s with cores := t.cores }

/-! Gallery packets. -/

/-- A packet for this device that port `p` delivers and every check of R456 lets pass. -/
def Admitted (s : State) (p : Fin 8) (pk : Packet) (cls : Nat) : Prop :=
  s.forMe pk = true ∧ pk.cls = cls ∧ s.delivers p pk = true ∧
    (pk.hops = 0 → (s.port p).pvalid = true ∧ flowKey pk.sfleet pk.sslot = flowKey (s.port p).pfleet.toNat (s.port p).pslot.toNat) ∧
    pk.sinc ≠ 0 ∧ (tabGet 0 s.gal.incs (flowKey pk.sfleet pk.sslot)).toNat = pk.sinc

/-- Such a packet that names this device's present incarnation. -/
def Passes (s : State) (p : Fin 8) (pk : Packet) (cls : Nat) : Prop := Admitted s p pk cls ∧ pk.dinc = s.gal.incarn.toNat

/-- The SEQ that the target expects next in the flow of a packet (R454). -/
def expected (s : State) (pk : Packet) : Nat := (tabGet {} s.gal.rx (pkRx pk)).expect

/-- A row of a gallery request: the port (none: the device's own flow), the packet, its TYPE, what the target does with it, and
what is looked at afterwards (XCH: whether the rows of an expert are complete, R321). -/
structure ReqRow where
  port : Option (Fin 8)
  pk : Packet
  ty : Nat
  tgt : Packet → State → State × Ans
  after : State → State

/-- The requests of R449. -/
def requestRow : Instr → Option ReqRow
  | .putReceive p k => some ⟨p, k, 0x01, tgtPut, State.xchCheck⟩
  | .getreqReceive p k errs => some ⟨p, k, 0x02, tgtGet errs, id⟩
  | .atomReceive p k => some ⟨p, k, 0x03, tgtAtom, id⟩
  | .addsReceive p k => some ⟨p, k, 0x04, tgtAdds, id⟩
  | .addaReceive p k => some ⟨p, k, 0x05, tgtAdda, id⟩
  | .signalReceive p k => some ⟨p, k, 0x06, tgtSignal, id⟩
  | .xcntReceive p k => some ⟨p, k, 0x07, tgtXcnt, State.xchCheck⟩
  | .xbaseReceive p k => some ⟨p, k, 0x08, tgtXbase, State.xchCheck⟩
  | .exprecReceive p k => some ⟨p, k, 0x09, tgtExprec, id⟩
  | .resendReceive p k => some ⟨p, k, 0x0A, tgtResend, id⟩
  | .normReceive p k => some ⟨p, k, 0x0B, tgtNorm, id⟩
  | .sealxReceive p k => some ⟨p, k, 0x0C, tgtSealx, id⟩
  | _ => none

/-- The target's flow after a request in order was answered: the next SEQ is expected, the response is kept, and the response is
sent (R454). -/
def answeredReq (s : State) (pk : Packet) (t : Nat) (fs : List Nat) (data : List PByte) : State :=
  (s.modRx (pkRx pk) (fun r => { r with
    expect := (r.expect + 1) % 2 ^ 32, kept := ((pk.seq, s.respPk pk t fs data) :: r.kept).take 256 })).inject
      (s.respPk pk t fs data)

/-- A request in order is executed once and answered; its response is kept (R454). -/
def requestInOrder : Prop :=
  ∀ (c : Instr) (r : ReqRow) (p : Fin 8) (s t : State) (ty : Nat) (fs : List Nat) (data : List PByte), requestRow c = some r →
    r.port = some p → r.pk.ptype = r.ty → Passes s p r.pk 0 → expected s r.pk < 2 ^ 32 → r.pk.seq = expected s r.pk →
    r.tgt r.pk (s.freeFlits p r.pk) = (t, .resp ty fs data) → exec c s = .next (r.after (answeredReq t r.pk ty fs data))

/-- A request in order that the target cannot take now is answered BUSY, and stays the expected one (R454). -/
def requestBusy : Prop :=
  ∀ (c : Instr) (r : ReqRow) (p : Fin 8) (s t : State), requestRow c = some r → r.port = some p → r.pk.ptype = r.ty →
    Passes s p r.pk 0 → expected s r.pk < 2 ^ 32 → r.pk.seq = expected s r.pk → r.tgt r.pk (s.freeFlits p r.pk) = (t, .busy) →
    exec c s = .next (r.after (t.inject (t.respPk r.pk 0x12 [] [])))

/-- A duplicate is not executed again: its kept response is sent once more (R454). -/
def requestDuplicate : Prop :=
  ∀ (c : Instr) (r : ReqRow) (p : Fin 8) (s : State) (k : Packet), requestRow c = some r → r.port = some p → r.pk.ptype = r.ty →
    Passes s p r.pk 0 → expected s r.pk < 2 ^ 32 → r.pk.seq < expected s r.pk → expected s r.pk ≤ r.pk.seq + 2 ^ 31 →
    (tabGet {} s.gal.rx (pkRx r.pk)).kept.find? (fun x => x.1 == r.pk.seq) = some (r.pk.seq, k) →
    exec c s = .next (r.after ((s.freeFlits p r.pk).inject k))

/-- A request that runs ahead is not executed: NAK names the SEQ expected, where none has been sent in that gap yet (R454). -/
def requestAhead : Prop :=
  ∀ (c : Instr) (r : ReqRow) (p : Fin 8) (s : State), requestRow c = some r → r.port = some p → r.pk.ptype = r.ty →
    Passes s p r.pk 0 → expected s r.pk < r.pk.seq → r.pk.seq < expected s r.pk + 2 ^ 31 → r.pk.seq < 2 ^ 32 →
    (tabGet {} s.gal.rx (pkRx r.pk)).naked = false →
    exec c s = .next (r.after (((s.freeFlits p r.pk).modRx (pkRx r.pk) (fun r => { r with naked := true })).inject
      ((s.freeFlits p r.pk).respPk r.pk 0x11 [expected s r.pk] [])))

/-- A request to an incarnation that is not this device's present one is refused with ERR (R460). -/
def requestStale : Prop :=
  ∀ (c : Instr) (r : ReqRow) (p : Fin 8) (s : State), requestRow c = some r → r.port = some p → r.pk.ptype = r.ty →
    Admitted s p r.pk 0 → r.pk.dinc ≠ s.gal.incarn.toNat →
    exec c s = .next (r.after ((s.freeFlits p r.pk).inject ((s.freeFlits p r.pk).respPk r.pk 0x13 [5, 0, 0] [])))

/-- A request of this device to itself is executed and answered without the fabric (R443; log entry 22). -/
def requestOwn : Prop :=
  ∀ (c : Instr) (r : ReqRow) (s t : State) (ty n : Nat) (fs : List Nat) (data : List PByte) (l : List (Packet × Nat)),
    requestRow c = some r → r.port = none → r.pk.ptype = r.ty → r.pk.cls = 0 → s.forMe r.pk = true →
    (s.flow s.ownKey).unacked = (r.pk, n) :: l → (s.flow s.ownKey).busyAt = none → r.tgt r.pk s = (t, .resp ty fs data) →
    exec c s = .next (r.after (t.onResponse t.ownKey r.pk.seq (t.respPk r.pk ty fs data)))

/-- TCDF_RECEIVE: a request in order is executed once and answered; a reset that it asks for follows (R454, R532, R533). -/
def tcdfInOrder : Prop :=
  ∀ (pk : Packet) (p : Fin 8) (s t : State) (ty : Nat) (fs : List Nat) (data : List PByte), s.fwUp = true → pk.ptype = 0x0D →
    Passes s p pk 0 → expected s pk < 2 ^ 32 → pk.seq = expected s pk → tgtTcdf pk (s.freeFlits p pk) = (t, .resp ty fs data) →
    expected (answeredReq t pk ty fs data) pk ≠ expected s pk →
    exec (.tcdfReceive (some p) pk) s = .next ((answeredReq t pk ty fs data).fwdReset pk)

/-- A packet that comes from a slot under another incarnation than the table holds is discarded and counted; a forged one too
(R456). -/
def forgedDiscarded : Prop :=
  ∀ (c : Instr) (r : ReqRow) (p : Fin 8) (s : State), requestRow c = some r → r.port = some p → r.pk.ptype = r.ty → r.pk.cls = 0 →
    s.forMe r.pk = true → s.delivers p r.pk = true → r.pk.hops = 0 → (s.port p).pvalid = false →
    exec c s = .next (r.after ((s.freeFlits p r.pk).forged p r.pk))

/-- Without an error waiting in the media an access of the slices changes nothing but them (R369, R374). -/
def accessKeeps : Prop :=
  ∀ (s : State) (a n part : Nat) (write atomic : Bool), s.mediaErr = [] →
    s.touch a n part write atomic = { s with plinths := (s.touch a n part write atomic).plinths }

/-- PUT into HBM writes its bytes, clears or sets the poison of the sectors, posts its token once, and is acknowledged; of a line
that it does not overwrite whole the rest is read first (R318, R354, R369, R370). -/
def putLands : Prop :=
  ∀ (pk : Packet) (s : State), rangeOk pk.addr pk.data.length = true → csCore pk.addr = none → s.rst.quiet = [] →
    let u := s.touchPhys pk.addr pk.data.length true
    ∃ v : State, tgtPut pk s = (v.postPk pk 1, ackAns) ∧ (pk.ttoken = 0 → v.postPk pk 1 = v) ∧
      (∀ i (h : i < pk.data.length), memGet v.hbm (pk.addr + i) = pk.data[i]) ∧
      (∀ a, a < pk.addr ∨ pk.addr + pk.data.length ≤ a → memGet v.hbm a = memGet u.hbm a) ∧
      v.hbmPois = poisBytes u.hbmPois 64 pk.addr (pkBytes pk) ∧ v.cores = s.cores ∧ v.cells = s.cells ∧ v.plinths = u.plinths ∧
      v.evt = u.evt ∧ (pk.fields.getD 2 0 ≠ 1 → v.gal = u.gal)

/-- A range outside R365 is refused with MEM_ADDR, and nothing is read or written. -/
def putRefused : Prop :=
  ∀ (pk : Packet) (s : State), rangeOk pk.addr pk.data.length = false →
    tgtPut pk s = (s.log 0x2106 [.val 8 pk.addr, .val 1 pk.sslot, .val 2 pk.sinc], errAns 0x2106)

/-- GETREQ of HBM answers the bytes with their poison, after the errors that its read meets, and posts its token once (R318, R354,
R369). -/
def getReads : Prop :=
  ∀ (errs : List SectorErr) (pk : Packet) (s : State) (n : Nat), pk.fields.getD 0 0 = n → rangeOk pk.addr n = true → n ≤ 4096 →
    csCore pk.addr = none →
    let u := (s.decay errs).touchPhys pk.addr n false
    tgtGet errs pk s = (u.postPk pk 1, .resp 0x14 [n] (u.hread pk.addr n)) ∧ (pk.ttoken = 0 → u.postPk pk 1 = u) ∧
      u.cores = s.cores ∧ u.cells = s.cells ∧ u.gal = s.gal

/-- ATOM: the SIZE bytes at the address become the result of OP on their old value, which is returned; a poisoned sector stays
poisoned (R319, R377). -/
def atomExecutes : Prop :=
  ∀ (pk : Packet) (s : State) (op sz : Nat), pk.fields.getD 0 0 = op → pk.fields.getD 1 0 = sz → rangeOk pk.addr sz = true →
    csCore pk.addr = none → s.rst.quiet = [] →
    let u := s.touchAtom pk.addr sz
    let old := leNat (memRead u.hbm pk.addr sz)
    let new := atomNew op sz old (pk.fields.getD 2 0) (pk.fields.getD 3 0)
    ∃ v : State, tgtAtom pk s = (v.postPk pk 1, .resp 0x15 [] (pBytes 8 old (u.hbmPoisoned pk.addr sz))) ∧
      (pk.ttoken = 0 → v.postPk pk 1 = v) ∧ memRead v.hbm pk.addr sz = leBytes sz new ∧
      (∀ a, a < pk.addr ∨ pk.addr + sz ≤ a → memGet v.hbm a = memGet u.hbm a) ∧
      (u.hbmPoisoned pk.addr sz = true → v.hbmPoisoned pk.addr sz = true ∨ sz = 0)

/-- SIGNAL to a cell that is not PREEMPTED posts COUNT to the token once; to a PREEMPTED cell it is answered BUSY (R323, R484). -/
def signalPosts : Prop :=
  ∀ (pk : Packet) (s : State), tgtSignal pk s = if (s.cell (pk.tcell % 16)).ctx = 3 then (s, .busy) else
    (if pk.ttoken = 0 then s else s.postTo (pk.tcell % 16) pk.tlcore pk.ttoken (pk.fields.getD 0 0) (flowKey pk.sfleet pk.sslot), ackAns)

/-! Each request of R449 completes: what it does at its target, and its answer. -/

/-- A request for this device that every check of R456 lets pass and whose SEQ is the one expected (R454). -/
def InTurn (s : State) (p : Fin 8) (pk : Packet) (ty : Nat) : Prop :=
  pk.ptype = ty ∧ Passes s p pk 0 ∧ expected s pk < 2 ^ 32 ∧ pk.seq = expected s pk

/-- The next SEQ is expected, ACK is kept as the response, and it is sent (R454). -/
def acked (s : State) (pk : Packet) : State := answeredReq s pk 0x10 [] []

/-- PUT completes in HBM, and in the staging partition of a core store; its token is posted, and an XCH row counts with its last packet
(R318, R321, R354). -/
def putCompletes : Prop :=
  ∀ (p : Fin 8) (pk : Packet) (s : State), InTurn s p pk 0x01 → rangeOk pk.addr pk.data.length = true →
    let u := s.freeFlits p pk
    let last := decide (pk.fields.getD 0 0 ≤ pk.fields.getD 4 0 + pk.data.length)
    (csCore pk.addr = none → exec (.putReceive (some p) pk) s = .next
      (acked (((u.touchPhys pk.addr pk.data.length true).hwrite pk.addr (pkBytes pk)).putDone pk last) pk).xchCheck) ∧
    (∀ n k, csCore pk.addr = some n → s.cellOf n = some k → (s.cell k).ctx ≠ 3 →
      (s.cell k).inStaging ((pk.addr - csBase) % csWin) pk.data.length = true → exec (.putReceive (some p) pk) s = .next
        (acked ((u.landStore k n ((pk.addr - csBase) % csWin) (pkBytes pk) (!last) (pk.fields.getD 4 0) (pkFrom pk)).putDone pk last)
          pk).xchCheck)

/-- GETREQ completes: the bytes of HBM or of a core store go back with their poison (R318, R354). -/
def getreqCompletes : Prop :=
  ∀ (p : Fin 8) (pk : Packet) (errs : List SectorErr) (s : State), InTurn s p pk 0x02 →
    let n := pk.fields.getD 0 0
    rangeOk pk.addr n = true → n ≤ 4096 →
    let u := s.freeFlits p pk
    let v := (u.decay errs).touchPhys pk.addr n false
    (csCore pk.addr = none → exec (.getreqReceive (some p) pk errs) s = .next (answeredReq (v.postPk pk 1) pk 0x14 [n] (v.hread pk.addr n))) ∧
    (∀ c, csCore pk.addr = some c → c + 64 ∉ s.rst.quiet → exec (.getreqReceive (some p) pk errs) s = .next
      (answeredReq (u.postPk pk 1) pk 0x14 [n] ((s.core c).pread ((pk.addr - csBase) % csWin) n)))

/-- ATOM completes in HBM: the stored bytes are the result of OP, and the old value goes back (R319, R377). -/
def atomCompletes : Prop :=
  ∀ (p : Fin 8) (pk : Packet) (s : State), InTurn s p pk 0x03 →
    let sz := pk.fields.getD 1 0
    rangeOk pk.addr sz = true → csCore pk.addr = none →
    let u := (s.freeFlits p pk).touchAtom pk.addr sz
    let bad := u.hbmPoisoned pk.addr sz
    let old := leNat (u.hbmRead pk.addr sz)
    let new := atomNew (pk.fields.getD 0 0) sz old (pk.fields.getD 2 0) (pk.fields.getD 3 0)
    exec (.atomReceive (some p) pk) s = .next
      (answeredReq ((u.hwrite pk.addr (pBytes sz new bad)).postPk pk 1) pk 0x15 [] (pBytes 8 old bad))

/-- The record that a contribution of ADDS outside every gradient window joins: the one of its group, place, LEN and type, or a new one
(R320, R458). -/
def addsRecord (s : State) (pk : Packet) : AddRec :=
  let new : AddRec := { group := pk.fields.getD 2 0, base := pk.addr - pk.fields.getD 5 0, addr := pk.addr, len := pk.fields.getD 0 0,
                        count := pk.fields.getD 4 0, bf16 := pk.fields.getD 1 0 == 1 }
  (s.gal.adds.find? (·.same new)).getD new

/-- ADDS completes outside the gradient windows: a contribution whose turn it is, or that ADDBUF has room for, joins its record; one that
waits is held and changes nothing else (R320, R458, R459). -/
def addsCompletes : Prop :=
  ∀ (p : Fin 8) (pk : Packet) (s : State), InTurn s p pk 0x04 → rangeOk pk.addr pk.data.length = true → csCore pk.addr = none →
    s.cfg.gradwinAt (pk.addr - pk.fields.getD 5 0) (pk.fields.getD 0 0) = none →
    let u := s.freeFlits p pk
    let r := addsRecord s pk
    let src := pk.fields.getD 3 0
    r.seen.any (fun x => x.1 == src) = false →
    (src = r.next ∨ s.addHeld + pk.data.length ≤ s.cfg.addbuf →
      exec (.addsReceive (some p) pk) s = .next (acked (u.addsInto pk r src (pkBytes pk)).1 pk)) ∧
    (src ≠ r.next → s.addHeld + pk.data.length ≤ s.cfg.addbuf → (u.addsInto pk r src (pkBytes pk)).1 =
      u.setAdd { r with seen := r.seen ++ [(src, pk.seq)], held := r.held ++ [(src, (pk.data, poisWords (pkBytes pk)))] } true)

/-- ADDS into a gradient window, with the COUNT of its record (R398 to R400). -/
def addsInWindow : Prop :=
  ∀ (p : Fin 8) (pk : Packet) (s : State) (i wb wl : Nat), InTurn s p pk 0x04 → rangeOk pk.addr pk.data.length = true →
    csCore pk.addr = none →
    let base := pk.addr - pk.fields.getD 5 0
    let src := pk.fields.getD 3 0
    let new : AddRec := { group := pk.fields.getD 2 0, base := base, addr := base + 2 * pk.fields.getD 5 0, len := pk.fields.getD 0 0,
                          count := pk.fields.getD 4 0, window := some i }
    s.cfg.gradwinAt base (pk.fields.getD 0 0) = some (i, wb, wl) → pk.fields.getD 1 0 = 0 → wb ≤ base →
    base + 2 * pk.fields.getD 0 0 ≤ wb + wl →
    let r := (s.gal.adds.find? (·.same new)).getD new
    r.count = pk.fields.getD 4 0 → r.seen.any (fun x => x.1 == src) = false →
    src = r.next ∨ s.addHeld + pk.data.length ≤ s.cfg.addbuf →
    exec (.addsReceive (some p) pk) s = .next (acked ((s.freeFlits p pk).addsInto pk r src (pkBytes pk)).1 pk)

/-- ADDA completes outside the gradient windows: the line-add is made as it arrives (R320, R377). -/
def addaCompletes : Prop :=
  ∀ (p : Fin 8) (pk : Packet) (s : State), InTurn s p pk 0x05 → rangeOk pk.addr pk.data.length = true → csCore pk.addr = none →
    s.cfg.gradwinAt (pk.addr - pk.fields.getD 5 0) (pk.fields.getD 0 0) = none →
    let u := (s.freeFlits p pk).touchAtom pk.addr pk.data.length
    let sum := (addBytes (b2n (pk.fields.getD 1 0 == 1)) (u.hread pk.addr pk.data.length) (pkBytes pk)).1
    exec (.addaReceive (some p) pk) s = .next (acked ((u.hwrite pk.addr sum).postPk pk 1) pk)

/-- SIGNAL completes where its cell is not PREEMPTED: COUNT is posted to the token (R323). -/
def signalCompletes : Prop :=
  ∀ (p : Fin 8) (pk : Packet) (s : State), InTurn s p pk 0x06 → (s.cell (pk.tcell % 16)).ctx ≠ 3 →
    exec (.signalReceive (some p) pk) s = .next (acked ((s.freeFlits p pk).postPk pk (pk.fields.getD 0 0)) pk)

/-- XCNT completes: a count that has not come before is kept; the last of the NPEER counts of its expert sends every peer its base
(R321). -/
def xcntCompletes : Prop :=
  ∀ (p : Fin 8) (pk : Packet) (s : State), InTurn s p pk 0x07 →
    let f (i : Nat) : Nat := pk.fields.getD i 0
    let mine (x : Nat × (Nat × (Nat × (Nat × (Nat × Nat))))) : Bool := x.1 == f 2 && x.2.1 == f 3
    let u := s.freeFlits p pk
    let all := s.gal.xchCnt ++ [(f 2, (f 3, (f 1, (f 4, (pkFrom pk, pk.tag)))))]
    let v := { u with gal := { u.gal with xchCnt := all } }
    let cs := (all.filter mine).map (fun x => x.2.2)
    s.gal.xchCnt.any (fun x => mine x && x.2.2.1 == f 1) = false →
    exec (.xcntReceive (some p) pk) s = .next (acked (if cs.length = f 0 then (xchBases cs).foldl (fun s b =>
      s.sendReq b.1 { ptype := 0x08, tag := b.2.1, fields := [f 2, f 3, b.2.2] }) v else v) pk).xchCheck

/-- XBASE completes: the base is kept for the XCH that its TAG names, and with the last base the rows are sent (R321). -/
def xbaseCompletes : Prop :=
  ∀ (p : Fin 8) (pk : Packet) (s : State) (k : Nat) (e : Entry), InTurn s p pk 0x08 → s.cellOf (pk.tag / 256) = some k →
    (s.cell k).ctx ≠ 3 →
    (s.core (pk.tag / 256)).inflight.find? (fun e => wOpc e.word == 0x94 && e.ord % 256 == pk.tag % 256 &&
      bfld e.block 26 2 == pk.fields.getD 0 0 && decide (e.xchPhase < 3)) = some e →
    let v := (s.freeFlits p pk).modCore (pk.tag / 256) (fun co =>
      { co with xbase := tabSet 0 co.xbase (baseKey e.ord (pk.fields.getD 1 0)) (pk.fields.getD 2 0 + 1) })
    let all := ∀ i, i < bfld e.block 20 2 → tabGet 0 (v.core (pk.tag / 256)).xbase (baseKey e.ord i) ≠ 0
    (all → exec (.xbaseReceive (some p) pk) s = .next (acked (v.xchRows (pk.tag / 256) e) pk).xchCheck) ∧
    (¬ all → exec (.xbaseReceive (some p) pk) s = .next (acked v pk).xchCheck)

/-- EXPREC completes: a piece that does not end its record is gathered; the last one applies the record, or keeps a step-start record; what
a fill is sent goes to its place (R412, R414, R509). -/
def exprecCompletes : Prop :=
  ∀ (p : Fin 8) (pk : Packet) (s : State), InTurn s p pk 0x09 →
    let f (i : Nat) : Nat := pk.fields.getD i 0
    let u := s.freeFlits p pk
    let b := if f 1 = 0 then pk.data else tabGet [] s.exp.rxPart (pkFrom pk) ++ pk.data
    let bad := !pk.pois.isEmpty || (decide (f 1 ≠ 0) && psHas s.exp.rxPois (pkFrom pk))
    let v := { u with exp := { u.exp with rxPart := tabSet [] u.exp.rxPart (pkFrom pk) [], rxPois := psPut u.exp.rxPois (pkFrom pk) false } }
    (2 ≤ f 0 → exec (.exprecReceive (some p) pk) s = .next (acked (u.takeFill pk) pk)) ∧
    (f 0 < 2 → b.length < f 2 → exec (.exprecReceive (some p) pk) s = .next (acked { u with exp := { u.exp with
      rxPart := tabSet [] u.exp.rxPart (pkFrom pk) b, rxPois := psPut u.exp.rxPois (pkFrom pk) bad } } pk)) ∧
    (f 0 = 0 → f 2 ≤ b.length → exec (.exprecReceive (some p) pk) s =
      .next (acked ((v.applyRec pk.sslot pk.addr (f 3) b bad).tellFresh s.exp.staleCnt) pk)) ∧
    (f 0 = 1 → f 2 ≤ b.length → exec (.exprecReceive (some p) pk) s = .next (acked ((v.keepStart pk.sslot b).tellFresh s.exp.staleCnt) pk))

/-- RESEND completes: each line named is answered by a FULL record in the export stream (R415). -/
def resendCompletes : Prop :=
  ∀ (p : Fin 8) (pk : Packet) (s : State), InTurn s p pk 0x0A →
    exec (.resendReceive (some p) pk) s = .next (acked ((List.range (min (pk.fields.getD 1 0) 4096)).foldl (fun t i =>
      match t.cfg.unmirror ((pk.fields.getD 0 0 + i) * 256) with
      | some a => t.pushFull a
      | none => t) (s.freeFlits p pk)) pk)

/-- NORM completes: the sum of a slot for the present step is kept, and the last one ends the wait (R402). -/
def normCompletes : Prop :=
  ∀ (p : Fin 8) (pk : Packet) (s : State), InTurn s p pk 0x0B → pk.fields.getD 0 0 = s.devStep % 2 ^ 64 →
    pk.sfleet = s.gal.fleet.toNat →
    exec (.normReceive (some p) pk) s = .next (acked ((s.freeFlits p pk).normPut pk.sslot (pk.fields.getD 1 0)).normTry pk)

/-- SEALX completes: seal words join the comparison of their step, which goes on as far as it can; a partner answers with its copy of a
line (R235, R236). -/
def sealxCompletes : Prop :=
  ∀ (p : Fin 8) (pk : Packet) (s : State), InTurn s p pk 0x0C →
    let f (i : Nat) : Nat := pk.fields.getD i 0
    let u := s.freeFlits p pk
    (f 1 ≠ 4 → f 1 ≠ 5 → f 1 ≠ 6 → f 1 ≠ 7 → exec (.sealxReceive (some p) pk) s = .next (acked (State.cmpStep 8
      ((u.cmpFor (f 0)).modCmp (fun c => { c with words := c.words ++ (List.range (f 2)).map (fun j =>
        (pk.sslot, (f 1, (bfld pk.data (16 * j) 8, BitVec.ofNat 64 (bfld pk.data (16 * j + 8) 8))))) }))) pk)) ∧
    (f 1 = 4 → exec (.sealxReceive (some p) pk) s = .next (acked (State.cmpStep 8 ((u.cmpFor (f 0)).modCmp (fun c =>
      { c with lines := c.lines ++ [(pk.sslot, (f 2, (decide (f 3 = 1), pk.data)))] }))) pk)) ∧
    (f 1 = 5 → (s.cfg.mirrorAt pk.sslot (f 3)).isSome = true →
      let v := u.touchPhys (f 3) 256 false
      exec (.sealxReceive (some p) pk) s = .next (acked (v.sendReq (pkFrom pk)
        { ptype := 0x0C, data := v.hbmRead (f 3) 256,
          fields := [f 0, 6, f 2, b2n (psHas v.exp.stale (f 3 / 256) || v.hbmPoisoned (f 3) 256), (v.hbmRead (f 3) 256).length] }) pk)) ∧
    (f 1 = 6 → exec (.sealxReceive (some p) pk) s =
      .next (acked (State.cmpStep 8 ((u.cmpFor (f 0)).cmpCopy (f 2) (decide (f 3 = 1), pk.data))) pk)) ∧
    (f 1 = 7 → exec (.sealxReceive (some p) pk) s = .next (acked (State.cmpStep 8 ((u.cmpFor (f 0)).modCmp (fun c =>
      { c with copies := c.copies ++ [(pk.sslot, (f 2, (decide (f 3 = 1), pk.data)))] }))) pk))

/-- TCDF completes: a part of a message that is not its last is kept; the last part of a response ends the request that was forwarded; a part
of a store object is written, and what became of one is noted (R448, R500, R532). The last part of a request executes it: `tcdfInOrder`. -/
def tcdfCompletes : Prop :=
  ∀ (p : Fin 8) (pk : Packet) (s : State), s.fwUp = true → InTurn s p pk 0x0D →
    let f (i : Nat) : Nat := pk.fields.getD i 0
    let u := s.freeFlits p pk
    let src := flowKey pk.sfleet pk.sslot
    let b := (if f 6 = 0 then [] else tabGet [] s.hst.tcdfIn src) ++ pk.data
    (f 0 = 2 → exec (.tcdfReceive (some p) pk) s = .next (acked (u.storeFor src pk) pk)) ∧
    (f 0 = 3 → exec (.tcdfReceive (some p) pk) s = .next (acked u.uploadFailed pk)) ∧
    (f 0 = 4 → exec (.tcdfReceive (some p) pk) s = .next (acked u.partWritten pk)) ∧
    (f 0 = 0 ∨ f 0 = 1 ∨ f 0 = 16 → b.length < f 5 → exec (.tcdfReceive (some p) pk) s = .next (acked (u.setTcdfIn src b) pk)) ∧
    (f 0 = 1 → f 5 ≤ b.length → exec (.tcdfReceive (some p) pk) s =
      .next (acked ((u.setTcdfIn src []).fwdAnswer (pk.fields.take 5) b) pk)) ∧
    (f 0 = 0 → f 5 ≤ b.length → exec (.tcdfReceive (some p) pk) s =
      .next (acked ((u.setTcdfIn src []).fwdRun src (pk.fields.take 5) b) pk))

/-! Responses and control packets. -/

/-- A row of a response or control packet: the port, the packet, its TYPE, its effect. -/
structure CtlRow where
  port : Option (Fin 8)
  pk : Packet
  ty : Nat
  eff : Nat → Packet → State → State

/-- A response has its effect where its request is still outstanding, in the flow of its source or in the one that a NOROUTE error
names (R450, R454). -/
def onOutstanding (eff : Nat → Packet → State → State) (_ : Nat) (pk : Packet) (s : State) : State :=
  let f := respFlow pk
  if (s.flow f).unacked.any (fun u => u.1.seq == pk.seq) then eff f pk s else s

/-- NAK: the flow is sent again from the SEQ that it names (R454). -/
def nakEff (_ : Nat) (pk : Packet) (s : State) : State :=
  let f := flowKey pk.sfleet pk.sslot
  if (s.flow f).unacked.any (fun u => u.1.seq == pk.fields.getD 0 0) then s.retryFlow f (pk.fields.getD 0 0) else s

/-- ARRIVE counts at the acting head alone (R462). -/
def arriveEff (_ : Nat) (pk : Packet) (s : State) : State :=
  if s.isHead && pk.sfleet == s.gal.fleet.toNat then s.onArrive pk.sslot (pk.fields.getD 0 0) (pk.fields.getD 1 0) else s

/-- FENCE quarantines the device once (R457). -/
def fenceEff (p : Nat) (pk : Packet) (s : State) : State :=
  if s.gal.state = .quarantined then s else s.quarantine (pk.fields.getD 1 0) p

/-- ROUTESET replaces the port and VALID of one route entry; ALT and ALTEN stay (R447, R453). -/
def routesetEff (_ : Nat) (pk : Packet) (s : State) : State :=
  let f := flowKey (pk.fields.getD 0 0) (pk.fields.getD 1 0)
  let e := tabGet 0 s.gal.routes f &&& 0x78 ||| BitVec.ofNat 8 (pk.fields.getD 2 0) &&& 0x87
  { s with gal := { s.gal with routes := tabSet 0 s.gal.routes f e } }

/-- ACK: an answer to a request, or news by its first field: the end of a restore, a fill, a mirror free of stale lines, a declaration
acknowledged (R454, R467, R507, R511 to R513; log entry 30). -/
def ackEff (p : Nat) (pk : Packet) (s : State) : State :=
  let f (i : Nat) : Nat := pk.fields.getD i 0
  let own := pk.sfleet = s.gal.fleet.toNat
  if f 0 = 0 then onOutstanding (fun f k s => s.onAck f k.seq k) p pk s
  else if f 0 = 0x503 then
    (if own then (if s.isHead then s.onReport pk.sslot (f 2) else s.noteReport pk.sslot (f 2)) else s)
  else if f 0 = 0x507 then
    (if own ∧ s.isHead = false ∧ pk.sslot = s.gal.acthead.toNat then s.noteFill pk.fields pk.data else s)
  else if f 0 = 0x512 then (if own ∧ pk.sslot = f 1 then s.noteFresh (f 1) else s)
  else if f 0 = 0x25 then
    (if f 1 = s.gal.fleet.toNat then s.deathAck (f 3) (if own then pkFrom pk else 4096 + pk.sfleet) (f 4 == 1)
     else if own then s.relayAck (flowKey (f 1) (f 3)) pk.sslot else s)
  else s

/-- The responses and most control packets of R449. -/
def controlRow : Instr → Option CtlRow
  | .ackReceive p k => some ⟨p, k, 0x10, ackEff⟩
  | .nakReceive p k => some ⟨p, k, 0x11, nakEff⟩
  | .busyReceive p k => some ⟨p, k, 0x12, onOutstanding (fun f k s => s.onBusy f k.seq)⟩
  | .errReceive p k => some ⟨p, k, 0x13, onOutstanding (fun f k s => s.onErr f k.seq k)⟩
  | .getdataReceive p k => some ⟨p, k, 0x14, onOutstanding (fun f k s => s.onAck f k.seq k)⟩
  | .atomdataReceive p k => some ⟨p, k, 0x15, onOutstanding (fun f k s => s.onAck f k.seq k)⟩
  | .arriveReceive p k => some ⟨p, k, 0x22, arriveEff⟩
  | .releaseReceive p k => some ⟨p, k, 0x23, fun _ k s => s.onRelease (k.fields.getD 0 0) (k.fields.getD 1 0)⟩
  | .rdvnakReceive p k => some ⟨p, k, 0x24, fun _ k s => s.rdvSkew (k.fields.getD 0 0) (k.fields.getD 1 0)⟩
  | .fenceReceive p k => some ⟨p, k, 0x26, fenceEff⟩
  | .routesetReceive p k => some ⟨p, k, 0x27, routesetEff⟩
  | _ => none

/-- Such a packet that passes has its effect. -/
def controlDoes : Prop :=
  ∀ (c : Instr) (r : CtlRow) (p : Fin 8) (s : State), controlRow c = some r → r.port = some p → r.pk.ptype = r.ty →
    Passes s p r.pk 1 → exec c s = .next (r.eff p r.pk (s.freeFlits p r.pk))

/-- A packet of a type that answers a request which is still outstanding (R454). -/
def Answers (s : State) (p : Fin 8) (pk : Packet) (ty : Nat) : Prop :=
  pk.ptype = ty ∧ Passes s p pk 1 ∧ ∃ u ∈ (s.flow (respFlow pk)).unacked, u.1.seq = pk.seq

/-- Each response completes: ACK, GETDATA and ATOMDATA bring an outstanding request its answer, BUSY makes it wait, ERR fails it; NAK that
names an outstanding SEQ sends the flow again from there (R318, R319, R454, R460). -/
def responsesComplete : Prop :=
  ∀ (p : Fin 8) (pk : Packet) (s : State),
    let u := s.freeFlits p pk
    let f := respFlow pk
    (Answers s p pk 0x10 → pk.fields.getD 0 0 = 0 → exec (.ackReceive (some p) pk) s = .next (u.onAck f pk.seq pk)) ∧
    (Answers s p pk 0x14 → exec (.getdataReceive (some p) pk) s = .next (u.onAck f pk.seq pk)) ∧
    (Answers s p pk 0x15 → exec (.atomdataReceive (some p) pk) s = .next (u.onAck f pk.seq pk)) ∧
    (Answers s p pk 0x12 → exec (.busyReceive (some p) pk) s = .next (u.modFlow f (fun x => { x with busyAt := some pk.seq }))) ∧
    (Answers s p pk 0x13 → exec (.errReceive (some p) pk) s = .next (u.onErr f pk.seq pk)) ∧
    (pk.ptype = 0x11 → Passes s p pk 1 →
      (∃ x ∈ (s.flow (flowKey pk.sfleet pk.sslot)).unacked, x.1.seq = pk.fields.getD 0 0) →
      exec (.nakReceive (some p) pk) s = .next (u.retryFlow (flowKey pk.sfleet pk.sslot) (pk.fields.getD 0 0)))

/-- An answer that lands: the data of GETDATA or ATOMDATA lands in the core store at LADDR and the offset of its packet, and the operation
has one packet less to wait for (R318, R319, R331). -/
def answerLands : Prop :=
  ∀ (s : State) (flow seq n : Nat) (e : Entry) (r : Packet), s.ownerCore flow seq = some (n, e) → r.ptype ≠ 0x10 →
    s.onAck flow seq r = (s.modCore n (fun co => (co.pwrite (e.landAt flow seq) (pkBytes r)).modEntry e.stream e.ord
      (fun e => e.answer flow seq r))).popReq flow seq

/-- One to an incarnation that is not this device's present one has none, and is answered with ERR (R456, R460). -/
def controlStale : Prop :=
  ∀ (c : Instr) (r : CtlRow) (p : Fin 8) (s : State), controlRow c = some r → r.port = some p → r.pk.ptype = r.ty →
    Admitted s p r.pk 1 → r.pk.dinc ≠ s.gal.incarn.toNat →
    exec c s = .next ((s.freeFlits p r.pk).inject ((s.freeFlits p r.pk).respPk r.pk 0x13 [5, 0, 0] []))

/-- BUSY holds the flow at its SEQ; RETRYDLY later the flow is sent again from there, and the resend does not count (R454). -/
def busyWaits : Prop :=
  ∀ (flow q : Nat) (s : State), (s.flow flow).busyAt = some q → flow ≠ s.ownKey →
    exec (.busyRetryTimer flow) s = .next ((s.modFlow flow (fun f => { f with busyAt := none })).resendFrom flow q false)

/-- A SEQ of a flow has been sent again E2E_TRIES times (R454). -/
def Spent (s : State) (flow seq : Nat) : Prop :=
  ∃ u ∈ (s.flow flow).unacked.take 256, u.1.seq = seq ∧ s.cfg.e2eTries ≤ u.2

/-- A timeout sends the flow again from its oldest SEQ; where that SEQ was sent again E2E_TRIES times every operation of the flow
fails, but not in FENCED (R454, R469). -/
def timeoutResends : Prop :=
  ∀ (flow n : Nat) (pk : Packet) (l : List (Packet × Nat)) (s : State), (s.flow flow).unacked = (pk, n) :: l → flow ≠ s.ownKey →
    (Spent s flow pk.seq ∧ s.gal.state ≠ .fenced → exec (.e2eTimeout flow) s = .next (s.failFlow flow)) ∧
    (¬ Spent s flow pk.seq ∨ s.gal.state = .fenced → exec (.e2eTimeout flow) s = .next (s.resendFrom flow pk.seq true))

/-- PACKET_FORWARD: a packet for another device passes on with HOPS one higher (R450, R451). -/
def forwards : Prop :=
  ∀ (p : Fin 8) (pk : Packet) (s : State), s.forMe pk = false → s.delivers p pk = true →
    (pk.hops = 0 → (s.port p).pvalid = true ∧ flowKey pk.sfleet pk.sslot = flowKey (s.port p).pfleet.toNat (s.port p).pslot.toNat) →
    pk.sinc ≠ 0 → (tabGet 0 s.gal.incs (flowKey pk.sfleet pk.sslot)).toNat = pk.sinc →
    exec (.packetForward (some p) pk) s = .next ((s.freeFlits p pk).transmit { pk with hops := pk.hops + 1 } (some p.val))

/-- GNORM_TIMEOUT: the device falls back to its own sums and logs the slots whose sum is missing (R403). -/
def gnormTimeoutDoes : Prop :=
  ∀ s : State, s.exp.normWait = true → exec .gnormTimeout s = .next ((s.normOwn.normDone true).log 0x1306
    [.val 4 s.devStep, .val 8 ((s.normSlots.filter (fun i => !psHas s.exp.normHave i)).foldl (fun m i => m + 2 ^ i) 0)])

/-! Heartbeats, heads, deaths. -/

/-- The count of intervals for which each slot still counts as heard, one lower (R465; log entry 27). -/
def aged (s : State) : State :=
  { s with gal := { s.gal with hbLeft := (s.gal.hbLeft.map (fun (e : Nat × Nat) => (e.1, e.2 - 1))).filter (fun (e : Nat × Nat) => decide (e.2 ≠ 0)) } }

/-- One control packet sent to several slots of a fleet. -/
def sendAll (fl : Nat) (dsts : List Nat) (ty : Nat) (fs : List Nat) (s : State) : State :=
  dsts.foldl (fun (s : State) d => s.sendCtl (flowKey fl d) ty fs) s

/-- What a heartbeat carries (R465). -/
def heartbeat (s : State) : List Nat :=
  [s.gal.slot.toNat, s.gal.incarn.toNat, s.devStep % 2 ^ 64, galCode s.gal.state, bfld s.mgmt.idHash 0 4]

/-- HB_TIMER: HB goes to every other device of HEADS, and, from the acting head, HEADBEAT to every other slot (R465, R468). -/
def hbTimerDoes : Prop :=
  ∀ s : State, s.gal.state ≠ .standalone → s.gal.role ≠ 1 → s.operational = true → s.pwr.rphase < 3 →
    let t := sendAll s.gal.fleet.toNat (s.cfg.heads.filter (fun h => decide (h ≠ s.gal.slot.toNat ∧ h < 64))) 0x20 (heartbeat s) (aged s)
    (t.isHead = false → exec .hbTimer s = .next t.showLive) ∧
    (t.isHead = true → exec .hbTimer s = .next (sendAll s.gal.fleet.toNat
      ((List.range t.cfg.nslots).filter (fun i => decide (i ≠ s.gal.slot.toNat))) 0x21 [s.gal.slot.toNat] t).showLive)

/-- Entering a gallery state: outside STANDALONE and ACTIVE every cell of this device is held; in them that hold is gone (R468,
R469). -/
def galStateHolds : Prop :=
  ∀ (s : State) (g : GalSt), (s.setGal g).gal.state = g ∧
    (∀ k, k < 16 → (s.cell k).exists_ = true →
      ((s.setGal g).cell k).holds = { (s.cell k).holds with headless := decide (g ≠ .standalone ∧ g ≠ .active) }) ∧
    (s.setGal g).cores = s.cores ∧ (s.setGal g).hbm = s.hbm ∧ (s.setGal g).evt = s.evt

/-- HB_RECEIVE: the slot is live for HBMISS intervals; at the acting head an HB from a device other than the one assigned to the
slot is answered with FENCE (R465, R507). -/
def hbReceiveDoes : Prop :=
  ∀ (p : Fin 8) (pk : Packet) (s : State), Passes s p pk 1 → pk.ptype = 0x20 → pk.sfleet = s.gal.fleet.toNat →
    let s' := s.freeFlits p pk
    ((s.isHead = false ∨ s.assigned pk.sslot = none ∨ s.assigned pk.sslot = some (pk.fields.getD 4 0)) →
      exec (.hbReceive (some p) pk) s =
        .next { s' with gal := { s'.gal with hbLeft := tabSet 0 s'.gal.hbLeft pk.sslot s'.cfg.hbmiss } }.showLive) ∧
    (∀ h, s.isHead = true → s.assigned pk.sslot = some h → h ≠ pk.fields.getD 4 0 →
      exec (.hbReceive (some p) pk) s = .next (s'.sendCtl (flowKey pk.sfleet pk.sslot) 0x26 [pk.sslot, pk.sinc]))

/-- HEADBEAT_RECEIVE: an ACTIVE device follows the acting head; a device that heads the fleet itself yields only to a lower rank; a
HEADLESS device becomes ACTIVE again, and how long it was HEADLESS is a free value (R468). -/
def headbeatReceiveDoes : Prop :=
  ∀ (p : Fin 8) (pk : Packet) (s : State), Passes s p pk 1 → pk.ptype = 0x21 → pk.sfleet = s.gal.fleet.toNat →
    let s' := s.freeFlits p pk
    (s.gal.state = .active → s.isHead = false → exec (.headbeatReceive (some p) pk) s = .next (s'.followHead pk.sslot)) ∧
    (∀ a b, s.gal.state = .active → s.isHead = true → s.cfg.rankOf pk.sslot = some a → s.cfg.rankOf s.gal.slot.toNat = some b →
      exec (.headbeatReceive (some p) pk) s = .next (if a < b then s'.followHead pk.sslot else s')) ∧
    (s.gal.state = .headless → exec (.headbeatReceive (some p) pk) s = .next (((({ s' with free := s.free + 1 }).setGal .active).followHead
      pk.sslot).log 0x3308 [.val 1 ((({ s' with free := s.free + 1 }).setGal .active).followHead pk.sslot).gal.slot.toNat, .val 1 pk.sslot,
        .val 4 (Config.draw s.free % 2 ^ 32)]))

/-- HEADBEAT_TIMEOUT: an ACTIVE device that is not the head becomes HEADLESS, and logs it (R468). -/
def headbeatTimeoutDoes : Prop :=
  ∀ (us : Nat) (s : State), s.gal.state = .active → s.isHead = false → s.gal.role ≠ 1 →
    exec (.headbeatTimeout us) s = .next ((s.setGal .headless).log 0x3307
      [.val 1 s.gal.slot.toNat, .val 1 s.gal.acthead.toNat, .val 4 us])

/-- DEPUTY_TAKEOVER_TIMER: a HEADLESS deputy to which more than half of the slots are live heads the fleet, and goes on with the fills
that it was told of (R468, R507). -/
def deputyTakeoverDoes : Prop :=
  ∀ (s : State) (r : Nat), s.cfg.rankOf s.gal.slot.toNat = some r → s.gal.state = .headless → s.gal.role ≠ 1 →
    s.cfg.nslots < 2 * s.liveSlots.length →
    exec .deputyTakeoverTimer s = .next (((s.setGal .active).followHead s.gal.slot.toNat).log 0x3304
      [.val 1 ((s.setGal .active).followHead s.gal.slot.toNat).gal.slot.toNat, .val 1 r, .val 1 s.liveSlots.length]).takeOverFills

/-- HEADLESS_FENCE_TIMER: FENCED, with the number of live slots logged (R468). -/
def headlessFenceDoes : Prop :=
  ∀ s : State, s.gal.state = .headless → exec .headlessFenceTimer s = .next ((s.setGal .fenced).log 0x3305
    [.val 4 s.liveSlots.length, .val 4 s.cfg.nslots])

/-- The slots that LIVE_SET_CHECK declares dead: those that are not live, not yet declared, and not dead, unless a device that took the
slot in a fill past ATTACH has fallen silent (R466, R513). -/
def toDeclare (s : State) : List Nat :=
  (List.range s.cfg.nslots).filter (fun i => !s.liveSlots.contains i && (!(s.gal.deaths.any (fun d => d.slot == i)) &&
    (!(s.gal.deadSlots.any (fun (d : Nat × Nat) => d.1 == i)) || s.snp.fills.any (fun (f : Fill) => f.slot == i && f.phase != .attach))))

/-- LIVE_SET_CHECK at the acting head: with at least half of the slots live each other slot is declared dead, and a recovery that waits
for spares goes on where they have come; with fewer the head is fenced (R466, R513). -/
def liveSetCheckDoes : Prop :=
  ∀ s : State, s.isHead = true → s.gal.state ≠ .standalone →
    (2 * s.liveSlots.length < s.cfg.nslots → exec .liveSetCheck s = .next s.enterFenced) ∧
    (s.cfg.nslots ≤ 2 * s.liveSlots.length →
      let live := s.liveSlots
      let t := (toDeclare s).foldl (fun t i => t.declare live i) s
      exec .liveSetCheck s = .next ((t.gal.deaths.filter (fun d => d.waitAck.isEmpty)).foldl State.declared t).waitOver.showLive)

/-- A declaration: the slot's incarnation moves to the next one, never to 0, and the declaration waits for the other live slots and for
one head of each other fleet (R445, R466; log entry 27). -/
def declareMovesIncarnation : Prop :=
  ∀ (s : State) (live : List Nat) (slot : Nat),
    let fl := s.gal.fleet.toNat
    let old := (tabGet 0 s.gal.incs (flowKey fl slot)).toNat
    let inc := if old = 65535 then 1 else old + 1
    (tabGet 0 (s.declare live slot).gal.incs (flowKey fl slot)).toNat = inc ∧ inc ≠ 0 ∧
      ∃ d ∈ (s.declare live slot).gal.deaths, d.slot = slot ∧ d.inc = inc ∧
        (∀ i ∈ live, i ≠ s.gal.slot.toNat → flowKey fl i ∈ d.waitAck) ∧
        (∀ f ∈ s.cfg.fleets, f ≠ fl → 4096 + f ∈ d.waitAck)

/-- The state of a device that learns that a slot is dead: its table has the new incarnation and every pending operation to the old one
has failed, once; a head or deputy of the slot's own fleet counts it as dead (R466, R467, R505). -/
def learned (s : State) (flow inc : Nat) : State :=
  let t := if (tabGet 0 s.gal.incs flow).toNat = inc then s else s.onDeath flow inc
  if flow / 64 = s.gal.fleet.toNat ∧ t.deputy = true then t.noteDead (flow % 64) inc else t

/-- DEATH_RECEIVE: the incarnation of the slot is the one named, every pending operation to it fails, and the acting head is
answered; the head of another fleet passes the packet on to its live slots; for this device's own slot, under the incarnation that it has
or the next one, this device is quarantined (R457, R466, R467; log entries 23, 27). -/
def deathReceiveDoes : Prop :=
  ∀ (p : Fin 8) (pk : Packet) (s : State), Passes s p pk 1 → pk.ptype = 0x25 →
    let s' := s.freeFlits p pk
    let flow := flowKey (pk.fields.getD 0 0) (pk.fields.getD 1 0)
    let inc := pk.fields.getD 2 0
    let t := learned s' flow inc
    (flow ≠ s.ownKey → pk.sfleet = s.gal.fleet.toNat → exec (.deathReceive (some p) pk) s =
      .next (t.sendCtl (flowKey s.gal.fleet.toNat t.gal.acthead.toNat) 0x10 [0x25, flow / 64, 0, flow % 64, b2n t.gal.commitSeen, 0])) ∧
    (flow ≠ s.ownKey → pk.sfleet ≠ s.gal.fleet.toNat → t.isHead = false → exec (.deathReceive (some p) pk) s = .next t) ∧
    (flow ≠ s.ownKey → pk.sfleet ≠ s.gal.fleet.toNat → t.isHead = true →
      exec (.deathReceive (some p) pk) s = .next (t.relay flow inc (flowKey pk.sfleet pk.sslot))) ∧
    (flow = s.ownKey → inc = s.gal.incarn.toNat ∨ inc = nextInc s.gal.incarn.toNat → s.gal.state ≠ .quarantined →
      exec (.deathReceive (some p) pk) s = .next (s'.quarantine s.gal.incarn.toNat p)) ∧
    (flow = s.ownKey → inc ≠ s.gal.incarn.toNat → inc ≠ nextInc s.gal.incarn.toNat → exec (.deathReceive (some p) pk) s = .next s')

/-- The head of another fleet sends DEATH to each of its other live slots and answers once each of them has; where it has none it answers
at once (R466, R467). -/
def relayDoes : Prop :=
  ∀ (s : State) (flow inc frm : Nat),
    let own := s.liveSlots.filter (fun i => i ≠ s.gal.slot.toNat)
    let t := own.foldl (fun u i => u.sendCtl (flowKey u.gal.fleet.toNat i) 0x25 [flow / 64, flow % 64, inc]) s
    (own = [] → s.relay flow inc frm = s.sendCtl frm 0x10 [0x25, flow / 64, 0, flow % 64, 0, 0]) ∧
    (own ≠ [] → s.relay flow inc frm = { t with gal := { t.gal with relays := (t.gal.relays.filter (fun r => r.flow ≠ flow)) ++
      [{ flow := flow, inc := inc, frm := frm, waitAck := own }] } }) ∧
    (∀ (r : Relay) (i : Nat), s.gal.relays.find? (fun r => r.flow == flow) = some r → r.waitAck = [i] →
      s.relayAck flow i = ({ s with gal := { s.gal with relays := s.gal.relays.filter (fun r => r.flow ≠ flow) } } : State).sendCtl r.frm 0x10
        [0x25, flow / 64, 0, flow % 64, 0, 0])

/-- DEATH_ACK_RECEIVE: one live slot fewer is awaited, and whether one has completed the commit rendezvous is kept; the last
acknowledgement completes the declaration (R467, R505). -/
def deathAckDoes : Prop :=
  ∀ (slot : Fin 64) (a : DeathAck) (s : State) (d : Death), s.isHead = true →
    s.gal.deaths.find? (fun d => d.slot == slot.val) = some d →
    let w := flowKey s.gal.fleet.toNat a.frm
    w ∈ d.waitAck →
    let d' : Death := { d with waitAck := d.waitAck.filter (fun i => i ≠ w), commit := d.commit || a.commit }
    let t := { s with gal := { s.gal with deaths := s.gal.deaths.map (fun x => if x.slot = slot.val then d' else x) } }
    exec (.deathAckReceive slot a) s = .next (if d'.waitAck = [] then t.declared d' else t)

/-- RDV_TIMEOUT: the head logs the slots that are missing, and goes on waiting (R463). -/
def rdvTimeoutDoes : Prop :=
  ∀ (name : Nat) (s : State), s.isHead = true → (s.rdvAt name).arrived ≠ [] →
    exec (.rdvTimeout name) s = .next (s.log 0x3301 [.val 2 name, .val 4 (s.rdvAt name).epoch,
      .val 8 (((s.rdvSlots name).filter (fun i => !(s.rdvAt name).arrived.contains i)).foldl (fun m i => m + 2 ^ i) 0)])

/-- RELEASE of an occurrence that is under way ends the waits of its RDV instructions and moves its epoch on by one; an epoch that
is not the present one faults the cells that wait (R258, R462). -/
def releaseAdvancesEpoch : Prop :=
  ∀ (s : State) (name ep : Nat),
    (ep = (s.rdvAt name).epoch → ((s.onRelease name ep).rdvAt name).epoch = ep + 1 ∧ ((s.onRelease name ep).rdvAt name).arrived = [] ∧
      ((s.onRelease name ep).rdvAt name).sentArrive = false) ∧
    (ep ≠ (s.rdvAt name).epoch → s.onRelease name ep = s.rdvSkew name ep)

/-! Fills and restores. -/

/-- FILL_ATTACH_DONE: COPY begins, at the head by its table, and at the partner by sending the mirror (R507, R509). -/
def fillAttachDoes : Prop :=
  ∀ (slot : Fin 64) (s : State),
    let att := s.snp.fills.any (fun (f : Fill) => f.slot == slot.val && f.phase == .attach)
    let mir := decide (slot.val ≠ s.gal.slot.toNat) && s.cfg.mirrors.any (fun m => m.2.2.2.1 == slot.val)
    (s.isHead = true → att = true → mir = false → exec (.fillAttachDone slot) s = .next (s.fillPhase slot .copy)) ∧
    (s.isHead = true → att = true → mir = true → exec (.fillAttachDone slot) s = .next ((s.fillPhase slot .copy).sendMirror slot)) ∧
    (s.isHead = false → mir = true → exec (.fillAttachDone slot) s = .next (s.sendMirror slot))

/-- FILL_COPY_DONE: CHECK begins; a stale mirror line aborts the fill and the recovery escalates; the spare itself begins a restore
of the copied data with every cell held (R507, R509, R510). -/
def fillCopyDoes : Prop :=
  ∀ (slot : Fin 64) (stale : Bool) (s : State),
    let copy := s.isHead = true ∧ s.snp.fills.any (fun (f : Fill) => f.slot == slot.val && f.phase == .copy) = true
    let me := s.gal.role = 2 ∧ s.gal.slot.toNat = slot.val
    (copy → ¬ me → stale = false → exec (.fillCopyDone slot stale) s = .next (s.fillPhase slot .check)) ∧
    (copy → stale = true → exec (.fillCopyDone slot stale) s = .next ((s.log 0x8403 [.val 1 slot.val, .val 1 1]).escalate 3)) ∧
    (me → stale = false → ∃ t, exec (.fillCopyDone slot stale) s = .next t ∧ t.snp.recovering = true ∧ t.snp.state = .restore ∧
      t.snp.restoring = some (3, 0, 0) ∧ (∀ k, k < 16 → (s.cell k).exists_ = true → (t.cell k).holds.restore = true))

/-- RESTORE_COMPLETE: a check that fails refuses the restore with its event; one that passes has the effects of R503; then the requests
that waited for it run (R501 to R503, R527). -/
def restoreCompleteDoes : Prop :=
  ∀ (obj : Option StoreObj) (s : State) (src gen step : Nat), s.snp.restoring = some (src, gen, step) →
    let u := if src = 0 ∨ src = 3 then s.touchPhys s.cfg.snapbuf.1 65536 false else s
    let r := u.restoreSource src gen obj
    let c := u.restoreCheck src step r.1 r.2
    (∀ code fs, c.2 = some (code, fs) → exec (.restoreComplete obj) s = .next (c.1.endRestoring.restoreRefused code fs).serve) ∧
    (c.2 = none → exec (.restoreComplete obj) s =
      .next ((((c.1.endRestoring.restoreApply src r.1).staleMirrors src).restoreReply stDone []).report 1).serve)

/-- The effects of a restore: every cell at the step of the record, at tick 0 and held; no window cycle, slotted sum or commit is
left (R503). -/
def restoreSetsStep : Prop :=
  ∀ (s : State) (src : Nat) (r : List Byte),
    let t := s.restoreApply src r
    (∀ k, k < 16 → (s.cell k).exists_ = true → (t.cell k).step = BitVec.ofNat 64 (bfld r 8 8) ∧ (t.cell k).tick = 0 ∧
      (t.cell k).holds.restore = true ∧ (t.cell k).img = none) ∧
    t.gal.adds = [] ∧ t.exp.wins = [] ∧ t.gal.commitSeen = false

/-! Snapshots. -/

/-- SNAP_CAPTURE_DONE: a poisoned sector ends the capture with SNAP_FAIL cause 3, behind the ranges that lie before it; else the record is
written, the drain begins where it can, the capture is logged with its time and the cells go on. HBM changes only in the snapshot buffer,
in the copied ranges' places and in the record's, and where a read meets an error of the media (R369, R498, R499). -/
def snapCaptureDoes : Prop :=
  ∀ (us : Nat) (s : State), s.snp.state = .capture →
    let sb := s.cfg.snapbuf.1
    let u := s.readRanges (s.cfg.snapRanges.map (fun r => (r.1, r.2.1)))
    let bad := s.cfg.snapRanges.any (fun r => anyPois (u.hread r.1 r.2.1))
    (bad = true → exec (.snapCaptureDone us) s = .next (((u.copyRanges sb (u.beforePois s.cfg.snapRanges)).log 0x8303
      [.val 4 s.snp.drainStep, .val 1 u.snp.pick, .val 1 3]).endCapture)) ∧
    (bad = false → s.rst.quiet = [] → ∃ t, exec (.snapCaptureDone us) s = .next t ∧
      (∀ k, k < 16 → (s.cell k).exists_ = true → (t.cell k).holds.capture = false) ∧
      t.snp.pendingStore = (s.cfg.target == 1 && (s.storeQp? (s.cfg.storetgt.getD (0, 0)).1).isSome) ∧
      t.snp.drainGen = (if s.cfg.target = 1 then none else some s.snp.pick) ∧
      memRead t.hbm (sb + 2097152 - 65536) t.snp.drainRec.length = t.snp.drainRec ∧
      (s.mediaErr = [] → ∀ a, (a < sb + 2097152 - 65536 ∨ sb + 2097152 - 65536 + t.snp.drainRec.length ≤ a) →
        (∀ r ∈ s.cfg.snapRanges, a < sb + r.2.2.2 ∨ sb + r.2.2.2 + r.2.1 ≤ a) → memGet t.hbm a = memGet s.hbm a) ∧
      t.exp.fifo = s.exp.fifo)

/-- The drain that follows a capture: to the store it is one WRITE for each part of the object by the ready requester queue pair, and
without one it fails at once; to flash the generation picked is invalid until it is written (R498, R499, R540). -/
def drainBegins : Prop :=
  ∀ (s : State) (rec_ : List Byte),
    let tg := s.cfg.storetgt.getD (0, 0)
    let p : Snp := { s.snp with drainRec := rec_, pendingStore := true, drainGen := none }
    (s.cfg.target = 1 → ∀ q, s.storeQp? tg.1 = some q →
      let u := ({ s with snp := p } : State).touchPhys s.cfg.snapbuf.1 s.cfg.snapbuf.2 false
      s.startDrain rec_ = u.writeStore q 0 tg.1 tg.2 (objectParts rec_ (memSlice u.hbm u.cfg.snapbuf.1 u.cfg.snapbuf.2))) ∧
    (s.cfg.target = 1 → s.storeQp? tg.1 = none → s.startDrain rec_ = ({ s with snp := p } : State).storeFailed) ∧
    (s.cfg.target ≠ 1 → s.snp.pick < 2 → (s.startDrain rec_).snp.gen s.snp.pick = none ∧
      (s.startDrain rec_).snp.gen (1 - s.snp.pick) = s.snp.gen (1 - s.snp.pick) ∧ (s.startDrain rec_).snp.drainRec = rec_)

/-- SNAP_FLASH_DRAIN_DONE: the generation is valid with its record, and one in KFULL with target 2 is locked and uploaded; or SNAP_FAIL
cause 1 leaves it invalid (R499, R500). -/
def snapFlashDoes : Prop :=
  ∀ (s : State) (g : Nat), s.snp.drainGen = some g → g < 2 →
    let up := s.cfg.target = 2 ∧ (s.snp.snapCnt + 1) % s.cfg.kfull = 0 ∧ s.snp.upGen = none
    (∃ t : State, exec (.snapFlashDrainDone true) s = .next (if up then t.startUpload g else t) ∧ t.snp.drainGen = none ∧ t.snp.older = 1 - g ∧
      (∃ m, t.snp.gen g = some (s.snp.drainStep, s.snp.drainRec, m)) ∧ t.snp.gen (1 - g) = s.snp.gen (1 - g) ∧
      t.snp.snapCnt = s.snp.snapCnt + 1 ∧ t.snp.upGen = (if up then some g else s.snp.upGen) ∧
      t.hbm = (s.touchPhys s.cfg.snapbuf.1 s.cfg.snapbuf.2 false).hbm ∧ t.cores = s.cores) ∧
    (∃ t, exec (.snapFlashDrainDone false) s = .next t ∧ t.snp.drainGen = none ∧ t.snp.gen0 = s.snp.gen0 ∧ t.snp.gen1 = s.snp.gen1 ∧
      t.hbm = s.hbm ∧ t.cores = s.cores)

/-- SNAP_STORE_DRAIN_DONE: the object is complete once every WRITE of it is acknowledged; on a write error, SNAP_FAIL cause 2 (R499,
R540). -/
def snapStoreDoes : Prop :=
  ∀ s : State, s.snp.pendingStore = true →
    let p : Snp := { s.snp with pendingStore := false }
    (s.hst.writing = false → exec (.snapStoreDrainDone true) s =
      .next { s with snp := { p with state := if s.snp.state = .drain then p.rest else s.snp.state } }) ∧
    (s.hst.writing = true → exec (.snapStoreDrainDone true) s = .next s) ∧
    exec (.snapStoreDrainDone false) s = .next s.storeFailed ∧ s.storeFailed.snp.pendingStore = false

/-- SNAP_UPLOAD_DONE, once every part is written, and SNP_CTRL.ABORTUP end an upload, and its generation is unlocked (R500). -/
def uploadEnds : Prop :=
  ∀ (s : State) (g : Nat), s.snp.upGen = some g → g < 2 →
    ((s.snp.gen g).isSome = true → s.hst.writing = false → s.snp.upLeft = 0 →
      ∃ t, exec .snapUploadDone s = .next t ∧ t.snp.upGen = none ∧ (if g = 0 then t.snp.lock0 else t.snp.lock1) = false ∧
        t.snp.gen0 = s.snp.gen0 ∧ t.snp.gen1 = s.snp.gen1 ∧ t.hbm = s.hbm ∧ t.cores = s.cores) ∧
    ((s.snp.gen g).isSome = true → s.hst.writing = true ∨ s.snp.upLeft ≠ 0 → exec .snapUploadDone s = .next s) ∧
    (∃ p h, exec .snpAbortup s = .next { s with snp := p, hst := h } ∧ p.upGen = none ∧ (if g = 0 then p.lock0 else p.lock1) = false ∧
      p.gen0 = s.snp.gen0 ∧ p.gen1 = s.snp.gen1 ∧ p.receipts = s.snp.receipts ∧ h.writing = false ∧
      (∀ q ∈ h.qps, ∃ q' ∈ s.hst.qps, q.qpn = q'.qpn ∧ q.state = q'.state ∧ q.out = q'.out.filter (fun o => o.2.1 ≠ 0)))

/-- SNP_CTRL.TAKE asks for a capture where the armature has a SNAPSHOT section (R498, R516). -/
def snpTakeDoes : Prop :=
  ∀ s : State, (s.cfg.snapSec = true → exec .snpTake s = .next { s with snp := { s.snp with take := true } }) ∧
    (s.cfg.snapSec = false → exec .snpTake s = .next s)

/-! The export engine. -/

/-- EXPORT_SEND: the head record is read, with what its error correction finds, and its next piece goes to the partner; after a reset a
GAP over every EXPREG range goes first; where the engine may not send, nothing is sent (R408, R410, R411, R413). -/
def exportSendDoes : Prop :=
  ∀ (s : State) (dst : Nat), s.cfg.partnerKey = some dst →
    (s.mayExport = false → exec .exportSend s = .next s.noteLinkup) ∧
    (∀ g, s.mayExport = true → s.exp.afterReset = true → s.cfg.fullGap = some g →
      exec .exportSend s = .next (s.noteLinkup.clearAfterReset.sendPieces dst (s.cfg.expPieces g 0).1)) ∧
    (s.mayExport = true → s.exp.afterReset = true → s.cfg.fullGap = none → exec .exportSend s = .next s.noteLinkup.clearAfterReset) ∧
    (s.mayExport = true → s.exp.afterReset = false →
      let u := s.noteLinkup.readHead
      (u.exp.fifo = [] → exec .exportSend s = .next u) ∧
      (∀ r rest, u.exp.fifo = r :: rest →
        exec .exportSend s = .next ((u.sendPieces dst (u.cfg.expPieces (u.exp.toSend u.cfg r) u.exp.headSent).1).advanceHead rest
          (u.cfg.expPieces (u.exp.toSend u.cfg r) u.exp.headSent).2)))

/-- EXP_CTRL.DROP_RECORD: a head record partly sent is aborted, one not started becomes a GAP of its line, each counted in DROPS; an
empty FIFO and the last 16 bytes of a record give no effect (R412). -/
def dropRecordDoes : Prop :=
  ∀ s : State,
    (s.exp.fifo = [] → exec .expDropRecord s = .next s) ∧
    (∀ r rest, s.exp.fifo = r :: rest → s.exp.aborting = false →
      (s.exp.headSent = 0 → exec .expDropRecord s = .next { s with exp := { s.exp with
        drops := satAdd s.exp.drops 1, fifo := gapRec r.line r.line 1 r.open_ :: rest } }) ∧
      (s.exp.headSent ≠ 0 → 16 < r.size - s.exp.headSent → exec .expDropRecord s = .next { s with exp := { s.exp with
        drops := satAdd s.exp.drops 1, aborting := true, headSent := 0 } }) ∧
      (s.exp.headSent ≠ 0 → r.size - s.exp.headSent ≤ 16 → exec .expDropRecord s = .next s))

/-- EXP_CTRL.PAUSE (R411). -/
def expPauseDoes : Prop := ∀ (on : Bool) (s : State), exec (.expPause on) s = .next { s with exp := { s.exp with pause := on } }

/-- MIRROR_RESEND_REQUEST: the partner asks for the next run of its stale lines, in ascending order, while RESEND is set and fewer than
8 requests are outstanding; else it asks for nothing (R415). -/
def mirrorResendDoes : Prop :=
  ∀ (i base len x slot : Nat) (rs : Bool) (s : State), s.cfg.mirrors[i]? = some (base, len, x, slot, rs) →
    let dst := flowKey s.gal.fleet.toNat slot
    let out := ((s.flow dst).unacked.filter (fun u => u.1.ptype == 0x0A)).length
    let st := (s.exp.toAsk base len out).take 4096
    (∀ l r, st = l :: r → rs = true → out < 8 → exec (.mirrorResendRequest i) s =
      .next ({ s with exp := { s.exp with asked := psPutRange s.exp.asked l (runLen st) true } }.sendReq dst
        { ptype := 0x0A, fields := [l % 2 ^ 32, l / 2 ^ 32, runLen st] })) ∧
    (st = [] ∨ rs = false ∨ 8 ≤ out → exec (.mirrorResendRequest i) s = .next s)

/-! The Plinths. -/

/-- A patrol, daily or asked for, reads every sector of its stack: each error that it meets has its effect, and none is left waiting
there; a requested one then ends SCRUBBING (R369, R371). -/
def patrolDoes : Prop :=
  ∀ (pl : Fin 20) (found : List SectorErr) (s : State), (s.plinth pl).up = true →
    let t := (s.decay found).meet 1 (fun e => s.errStack e == pl)
    exec (.patrolTimer pl found) s = .next t ∧
      exec (.plcScrub pl found) s = .next (t.modPlinth pl (fun p => { p with scrubbing := p.scrubbing && !p.up })) ∧
      t.mediaErr = (s.mediaErr ++ found).filter (fun e => !(s.errStack e == pl)) ∧ t.cores = s.cores ∧ t.cells = s.cells ∧
      (∀ e ∈ s.mediaErr ++ found, e.ue = true → s.errStack e = pl → psHas t.hbmPois (e.addr / 64) = true)

/-- What one sector error does: an uncorrectable one poisons its sector, counts in UE and logs MEM_UE; a corrected one counts in
CE, and one miscorrected leaves other bytes (R369). -/
def sectorErrCounts : Prop :=
  ∀ (s : State) (src : Nat) (e : SectorErr),
    let pl := (s.cfg.stackOf e.addr).1
    (e.ue = true → (s.sectorErr src e).hbmPois = psAdd s.hbmPois (e.addr / 64) ∧ (s.sectorErr src e).hbm = s.hbm ∧
      ((s.sectorErr src e).plinth pl).ue = satAdd (s.plinth pl).ue 1 ∧ ((s.sectorErr src e).plinth pl).ce = (s.plinth pl).ce) ∧
    (e.ue = false → (s.sectorErr src e).hbmPois = s.hbmPois ∧ (s.sectorErr src e).evt = s.evt ∧
      (s.sectorErr src e).hbm = memWrite s.hbm (e.addr / 64 * 64) (e.mis.take 64) ∧
      ((s.sectorErr src e).plinth pl).ce = satAdd (s.plinth pl).ce 1 ∧ ((s.sectorErr src e).plinth pl).ue = (s.plinth pl).ue)

/-- PLC_FLUSH: every dirty line is to be written back, and the lines stay (R378). -/
def plcFlushDoes : Prop :=
  ∀ (pl : Fin 20) (s : State), (s.plinth pl).up = true →
    ∃ t, exec (.plcFlush pl) s = .next t ∧ (∀ l ∈ (t.plinth pl).slice, l.dirty = false) ∧
      (t.plinth pl).slice.map (fun l => l.addr) = (s.plinth pl).slice.map (fun l => l.addr) ∧ t.hbm = s.hbm ∧
      (∀ j, j ≠ pl.val → t.plinth j = s.plinth j)

/-- ROW_REPAIR: with a spare row left in the bank the row is copied, which meets the errors in it, and repaired; the bank has one
spare row fewer, MEM_ROW_REPAIRED is logged, and REPAIRING shows while the copy lasts (R372). -/
def rowRepairDoes : Prop :=
  ∀ (pl : Fin 20) (chan bank row : Nat) (s : State), (s.plinth pl).up = true → chan < 32 →
    let key := (chan, (bank, row))
    let used := tabGet 0 (s.plinth pl).bankSpares (bankKey chan bank)
    let u := s.meet 2 (fun e => s.errStack e == pl && Config.rowOf (s.cfg.stackOf e.addr).2 == key)
    used < Config.spareRows →
    ∃ p, exec (.rowRepair pl chan bank row) s =
        .next ((u.modPlinth pl (fun _ => p)).log 0x2102 [.stack pl.val, .val 4 chan, .val 4 bank, .val 4 row]) ∧
      key ∈ p.repaired ∧ tabGet 0 p.bankSpares (bankKey chan bank) = used + 1 ∧ p.copyLeft = 32000 ∧
      p.slice = (s.plinth pl).slice ∧ p.ue = (u.plinth pl).ue ∧ p.ce = (u.plinth pl).ce

/-- FRAME_RETIRE: the frame is copied, which meets the errors in it, and goes to a spare frame, with the number left in the event; when
all 64 are in use it stays in service (R373). -/
def frameRetireDoes : Prop :=
  ∀ (pl : Fin 20) (frame : Nat) (s : State), (s.plinth pl).up = true → frame < 36864 →
    let u := s.meet 2 (fun e => s.errStack e == pl && (s.cfg.stackOf e.addr).2 / 2097152 == frame)
    ((s.plinth pl).retired.length < 64 → exec (.frameRetire pl frame) s = .next (((u.modPlinth pl (fun p =>
      { p with copyLeft := 80000 })).modPlinth pl (fun p => { p with retired := p.retired ++ [frame] })).log 0x2103
        [.stack pl.val, .val 4 frame, .val 4 (63 - (s.plinth pl).retired.length)])) ∧
    (64 ≤ (s.plinth pl).retired.length → exec (.frameRetire pl frame) s = .next (s.log 0x2104 [.stack pl.val, .val 4 frame]))

/-- NOALLOC_LINE_RELEASE: a temporary line leaves its slice, and a dirty one is written back (R375). -/
def noallocReleaseDoes : Prop :=
  ∀ (pl : Fin 20) (line : Nat) (s : State) (l : SlLine), (s.plinth pl).slice.find? (fun l => l.addr == line && l.temp) = some l →
    ∃ t, exec (.noallocLineRelease pl line) s = .next t ∧ (∀ x ∈ (t.plinth pl).slice, x.addr ≠ line) ∧
      (∀ x ∈ (s.plinth pl).slice, x.addr ≠ line → x ∈ (t.plinth pl).slice) ∧
      (l.dirty = false → (t.plinth pl).queue = (s.plinth pl).queue) ∧
      (l.dirty = true → (t.plinth pl).queue.length = (s.plinth pl).queue.length + 1) ∧ t.hbm = s.hbm ∧
      (∀ j, j ≠ pl.val → t.plinth j = s.plinth j)

/-- REGULATOR_SERVE: the regulator of the stack serves what its buckets allow, and a copy of a row or frame that is under way goes on
for a cycle or ends, by a free draw (R372, R373, R380; log entry 10). -/
def regulatorServeDoes : Prop :=
  ∀ (pl : Fin 20) (s : State), (s.plinth pl).up = true →
    ((s.plinth pl).copyLeft = 0 → exec (.regulatorServe pl) s = .next (s.modPlinth pl (fun p => p.regulate s.cfg))) ∧
    ((s.plinth pl).copyLeft ≠ 0 → exec (.regulatorServe pl) s = .next (({ s with free := s.free + 1 }.modPlinth pl (fun p =>
      { p with copyLeft := if Config.draw s.free % 2 = 0 then 0 else p.copyLeft - 1 })).modPlinth pl (fun p => p.regulate s.cfg)))

/-- What the regulator does: requests only leave the queue, no bucket ends above its depth, and a request is served where its
partition's bucket G holds its cost at the start of the cycle and no other request waits (R380). -/
def regulatorServes : Prop :=
  ∀ (p : Plinth) (c : Cfg),
    (∀ r ∈ (p.regulate c).queue, ∃ x ∈ p.queue, r.part = x.part ∧ r.cost = x.cost) ∧
    (∀ i, i < 16 → tabGet 0 (p.regulate c).bktG i ≤ (c.part i).depth ∧ tabGet 0 (p.regulate c).bktC i ≤ (c.part i).depth) ∧
    (∀ r, p.queue = [r] → r.part < 16 → 32 * r.cost ≤ tabGet 0 p.bktG r.part → 32 * r.cost ≤ (c.part r.part).depth →
      (p.regulate c).queue = []) ∧
    (p.regulate c).slice = p.slice ∧ (p.regulate c).ue = p.ue

/-- XL_CTRL.INVAL: the core holds no cached translation (R386). -/
def xlInvalDoes : Prop :=
  ∀ (core : Fin 48) (s : State), exec (.xlInval core) s = .next (s.setCore core { s.core core with xlCache := [] })

/-- The refresh rate and the half-rate of a hot stack (R368, R576). -/
def hbmHeatDoes : Prop :=
  ∀ (pl : Fin 20) (s : State),
    ((s.plinth pl).trained = true → exec (.hbmRefreshBoost pl) s = .next (s.modPlinth pl (fun p => { p with boost := true }))) ∧
    exec (.hbmRefreshNormal pl) s = .next (s.modPlinth pl (fun p => { p with boost := false })) ∧
    (∀ temp : Int, 95 ≤ temp → (s.plinth pl).hotHalf = false → s.pwr.off = false →
      ∃ t : State, exec (.hbmHotStart pl temp) s = .next (t.log 0x6202 [.stack pl.val, .val 2 (sNat 16 temp), .val 1 1]) ∧
        (t.plinth pl).hotHalf = true ∧ t.plinths = (s.modPlinth pl (fun p => { p with hotHalf := true })).plinths ∧ t.evt = s.evt ∧ t.hbm = s.hbm) ∧
    (∀ temp : Int, temp ≤ 90 → (s.plinth pl).hotHalf = true → exec (.hbmHotEnd pl temp) s =
      .next ((s.modPlinth pl (fun p => { p with hotHalf := false })).log 0x6202 [.stack pl.val, .val 2 (sNat 16 temp), .val 1 0]))

/-! Links. -/

/-- A port that goes DOWN or is quarantined: its state and reason, no partner, and every other port in its state (R430, R436,
R437). -/
def portLeaves : Prop :=
  ∀ (s : State) (i why : Nat) (st : PortSt),
    ((s.portLeave i st why).port i).state = st ∧ ((s.portLeave i st why).port i).downwhy = BitVec.ofNat 4 why ∧
      ((s.portLeave i st why).port i).pvalid = false ∧ (∀ j, j ≠ i → ((s.portLeave i st why).port j).state = (s.port j).state)

/-- LNK_TRAIN_ATTEMPT: a port in DOWN that has a role begins TRAINING (R431). -/
def trainAttemptDoes : Prop :=
  ∀ (port : Fin 8) (s : State), (s.port port).state = .down → (s.port port).role ≠ 0 →
    exec (.lnkTrainAttempt port) s = .next (s.modPort port (fun p => { p with state := .training }))

/-- TRAINING_STEP_TIMEOUT: back to DOWN with reason 1; logged the first time only (R431). -/
def trainingTimeoutDoes : Prop :=
  ∀ (port : Fin 8) (s : State), (s.port port).state = .training →
    let t := s.modPort port (fun p => { p.clear .down 1 with firstTry := false })
    exec (.trainingStepTimeout port) s = .next (if (s.port port).firstTry then t.log 0x3102 [.link port, .val 1 1] else t)

/-- TRAINING_DONE: with fewer than four healthy lanes in a direction the attempt fails with reason 3; else the port enters AUTH at the
widest width that both directions fill, with a fresh nonce, and sends HELLO and CERT (R421, R431, R432, R434). -/
def trainingDoneDoes : Prop :=
  ∀ (port : Fin 8) (healthy : LaneSets) (eyes : List (Nat × Nat)) (s : State), (s.port port).state = .training →
    let good := (s.port port).rxHealthy healthy.own
    let n := min (healthyLanes good).length (healthyLanes healthy.peer).length
    (n < 4 → exec (.trainingDone port healthy eyes) s = .next (s.trainFail port 3)) ∧
    (4 ≤ n → ∃ t, exec (.trainingDone port healthy eyes) s = .next t ∧ (t.port port).state = .auth ∧
      (t.port port).healthy = good ∧ (t.port port).txHealthy = healthy.peer ∧
      (t.port port).width.toNat = (if n = 20 then 20 else if 16 ≤ n then 16 else if 10 ≤ n then 10 else if 8 ≤ n then 8 else 4) ∧
      (t.port port).gotHello = false ∧ (t.port port).gotCert = false ∧
      Out.hand port 1 ∈ t.out ∧ Out.hand port 2 ∈ t.out ∧ (∀ j, j ≠ port.val → t.port j = s.port j) ∧ t.hbm = s.hbm)

/-- LINK_HELLO in AUTH: the peer's nonce and claims are kept and SIGN is sent; once the handshake is over it is a protocol violation
(R432, R435). -/
def helloDoes : Prop :=
  ∀ (port : Fin 8) (h : Hello) (s : State),
    let s' := s.modPort port (fun p => { p with pnonce := h.nonce, gotHello := true, claims := (h.fleet, h.slot, h.inc, h.role) })
    ((s.port port).state = .auth →
      exec (.linkHello port h) s = .next (s'.sendHand port 3 (Config.pssSign (s'.ownSignMsg (s'.port port))))) ∧
    ((s.port port).state = .up ∨ (s.port port).state = .retrain ∨ (s.port port).state = .draining →
      exec (.linkHello port h) s = .next (s.portProto port 4))

/-- LINK_CERT in AUTH: the key that the peer's certificate carries and the verdict on it with its chain are kept; once the handshake is over it is a
protocol violation (R432, R433, R435). -/
def certDoes : Prop :=
  ∀ (port : Fin 8) (cert chain : List Byte) (s : State),
    ((s.port port).state = .auth → exec (.linkCert port cert chain) s = .next (s.modPort port (fun p =>
      { p with gotCert := true, chainOk := Config.chainValid (cert ++ chain), peerKey := Config.certKey cert }))) ∧
    ((s.port port).state = .up ∨ (s.port port).state = .retrain ∨ (s.port port).state = .draining →
      exec (.linkCert port cert chain) s = .next (s.portProto port 4))

/-- LINK_SIGN: with every check of R433 passed the port is UP with the peer's identity and fresh credits; else AUTH_FAIL with the
reason, and the port is quarantined (R433, R436). -/
def signDoes : Prop :=
  ∀ (port : Fin 8) (sig : List Byte) (s : State), (s.port port).state = .auth → (s.port port).gotHello = true →
    (s.port port).gotCert = true →
    (∀ r, s.authReason (s.port port) sig = some r →
      exec (.linkSign port sig) s = .next ((s.log 0x3104 [.link port, .val 1 r]).portQuar port 1)) ∧
    (∀ f sl inc r, s.authReason (s.port port) sig = none → (s.port port).claims = (f, sl, inc, r) →
      ∃ t, exec (.linkSign port sig) s = .next t ∧ (t.port port).state = .up ∧ (t.port port).pvalid = true ∧
        (t.port port).pfleet = BitVec.ofNat 6 f ∧ (t.port port).pslot = BitVec.ofNat 6 sl ∧ (t.port port).pinc = BitVec.ofNat 16 inc ∧
        (t.port port).ups = satAdd (s.port port).ups 1 ∧ (∀ j, j ≠ port.val → (t.port j).state = (s.port j).state) ∧
        t.hbm = s.hbm ∧ t.cores = s.cores)

/-- AUTH_TIMEOUT: the port goes DOWN with reason 5; the third in a row quarantines it (R433). -/
def authTimeoutDoes : Prop :=
  ∀ (port : Fin 8) (s : State), (s.port port).state = .auth →
    let t := (s.log 0x3104 [.link port, .val 1 5]).modPort port (fun p => { p with authTo := p.authTo + 1 })
    ((s.port port).authTo < 2 → exec (.authTimeout port) s = .next (t.portDown port 5 true)) ∧
    (2 ≤ (s.port port).authTo → exec (.authTimeout port) s = .next ((t.portQuar port 1).modPort port (fun p => { p with authTo := 0 })))

/-- What is left of the receive and the transmit lanes once some fail: the receive lanes are contacts, which RXMAP turns into logical
lanes; the transmit lanes are those that the partner names as it begins a width change (R421, R434). -/
def left (p : Port) (lanes : BitVec 20) (peer : Bool) : BitVec 20 × BitVec 20 :=
  if peer then (p.healthy, p.txHealthy &&& ~~~lanes) else (p.healthy &&& ~~~(p.rxHealthy lanes), p.txHealthy)

/-- A lane that the port uses in either direction is no longer healthy. -/
def loses (p : Port) (h tx : BitVec 20) : Prop :=
  (∃ l ∈ (healthyLanes p.healthy).take p.width.toNat, h.getLsbD l = false) ∨
    (∃ l ∈ (healthyLanes p.txHealthy).take p.width.toNat, tx.getLsbD l = false)

/-- LANE_UNHEALTHY: a lane in use that fails sends the port to RETRAIN, to DOWN with reason 1 where no lane is locked any more, and with
reason 3 where fewer than four healthy ones are left in a direction; lanes not in use change nothing but the record of health. While the
port trains or authenticates, training starts again (R434, R439). -/
def laneUnhealthyDoes : Prop :=
  ∀ (port : Fin 8) (l : LaneLoss) (s : State),
    let p := s.port port
    let h := (left p l.lanes l.peer).1
    let tx := (left p l.lanes l.peer).2
    let t := s.modPort port (fun p => { p with healthy := h, txHealthy := tx })
    let n := min (healthyLanes h).length (healthyLanes tx).length
    (p.state = .up ∨ p.state = .retrain ∨ p.state = .draining →
      (¬ loses p h tx → exec (.laneUnhealthy port l) s = .next t) ∧
      (loses p h tx → h = 0 → exec (.laneUnhealthy port l) s = .next (t.portDown port 1 true)) ∧
      (loses p h tx → h ≠ 0 → n < 4 → exec (.laneUnhealthy port l) s = .next (t.portDown port 3 true)) ∧
      (loses p h tx → 4 ≤ n → exec (.laneUnhealthy port l) s =
        .next (t.modPort port (fun p => { p with state := .retrain, drainAfter := p.drainAfter || decide (p.state = .draining) })))) ∧
    (p.state = .training ∨ p.state = .auth → exec (.laneUnhealthy port l) s = .next (s.modPort port (fun p =>
      { p.clear .training p.downwhy.toNat with firstTry := p.firstTry, healthy := h, txHealthy := tx })))

/-- RETRAIN_DONE: the port is UP again, never wider than it was; a narrower width is counted and logged (R434). -/
def retrainDoneDoes : Prop :=
  ∀ (port : Fin 8) (s : State), (s.port port).state = .retrain →
    let w := min (s.port port).width.toNat (min (widthOf (healthyLanes (s.port port).healthy).length)
      (widthOf (healthyLanes (s.port port).txHealthy).length))
    ∃ t, exec (.retrainDone port) s = .next t ∧ (t.port port).width.toNat = w ∧
      (t.port port).state = (if (s.port port).drainAfter then .draining else .up) ∧
      (t.port port).degrades = (if w < (s.port port).width.toNat then satAdd (s.port port).degrades 1 else (s.port port).degrades) ∧
      (∀ j, j ≠ port.val → (t.port j).state = (s.port j).state) ∧ t.hbm = s.hbm

/-- The flits of a codeword, each with whether CMASK calls it a control flit (R422). -/
def flitsOf (cw : TxCw) : List (List Byte × Bool) := cw.flits.zipIdx.map (fun (f, i) => (f, cw.cmask.getLsbD i))

/-- A codeword in order is accepted: its number is expected no more, an open NAK is answered and an ACK is due (R424, R426). -/
def takesCodeword (t : State) (port : Nat) (cw : TxCw) (u : State) : Prop :=
  let p := t.port port
  let q := { p with rxNext := p.rxNext + 1, nakPend := false, nakDue := false, ackOk := true, ackDue := true }
  (∀ v, q.takeFlits (flitsOf cw) [] false = .bad v → u = (t.modPort port (fun _ => q)).portProto port v) ∧
  (∀ x, q.takeFlits (flitsOf cw) [] false = .ok x [] false → x.state = .up → u = (t.modPort port (fun _ => x)).pump port) ∧
  (∀ x, q.takeFlits (flitsOf cw) [] false = .ok x [] true → x.state ≠ .down → u = (t.modPort port (fun _ => x)).portDown port 7 false)

/-- CODEWORD_RECEIVE on a port in AUTH, UP or DRAINING: a codeword that cannot be corrected is counted, discarded and answered with NAK of
the next number at once; of one that the code corrects the corrected symbols are counted; one with a bad flit is discarded with NAK, one
out of sequence without; one in order has its flits taken, after which waiting packets may start; a protocol violation quarantines the
port, and BYE takes it down; a lane that became too noisy leads to RETRAIN (R421 to R428, R434, R435, R438). -/
def codewordDoes : Prop :=
  ∀ (port : Fin 8) (lanes : Lanes) (s : State),
    let p := s.port port
    (p.state = .auth ∨ p.state = .up ∨ p.state = .draining) →
    (p.decode lanes = none → p.nakPend = false → exec (.codewordReceive port lanes) s = .next ((s.modPort port (fun _ =>
      { p with uncorr := satAdd p.uncorr 1, nakPend := true, nakDue := true })).sendIdle port)) ∧
    (∀ cw errs, p.decode lanes = some (cw, errs) → ∃ t, t = s.countCorr port errs ∧ (t.port port).corr = satAdd p.corr errs.length ∧
      (∀ j, j ≠ port.val → t.port j = s.port j) ∧ t.out = s.out ∧
      ((∀ f ∈ cw.flits, flitOk f = true) → cw.cseq ≠ p.rxNext →
        exec (.codewordReceive port lanes) s = .next (t.checkNoise port)) ∧
      ((∃ f ∈ cw.flits, flitOk f = false) → p.nakPend = false → ∃ u, exec (.codewordReceive port lanes) s = .next (u.checkNoise port) ∧
        u = (t.modPort port (fun x =>
          { x with nakPend := true, nakDue := true, crcbad := satAdd x.crcbad (cw.flits.filter (fun f => !flitOk f)).length })).sendIdle port) ∧
      ((∀ f ∈ cw.flits, flitOk f = true) → cw.cseq = p.rxNext → ∃ u, exec (.codewordReceive port lanes) s = .next (u.checkNoise port) ∧
        takesCodeword t port cw u))

/-- REPLAY_TIMEOUT: every unacknowledged codeword is sent again from the oldest (R427). -/
def replayTimeoutDoes : Prop :=
  ∀ (port : Fin 8) (s : State) (e : TxCw) (l : List TxCw), (s.port port).replay = e :: l →
    (s.port port).state = .auth ∨ (s.port port).state = .up ∨ (s.port port).state = .draining →
    exec (.replayTimeout port) s = .next (s.replayFrom port e.cseq.toNat)

/-- CREDIT_TIMEOUT of a channel with data waiting and no credits: LNK_CREDIT is logged and the port goes DOWN with reason 10, or is
quarantined at the third within 60 s; whether the earlier ones lie within 60 s is a free value (R435). -/
def creditTimeoutDoes : Prop :=
  ∀ (port : Fin 8) (vc : Fin 4) (s : State),
    (s.port port).state = .up ∨ (s.port port).state = .retrain ∨ (s.port port).state = .draining →
    (∃ t ∈ (s.port port).txq, t.last = none ∧ pkVc t.pk = vc) → ((s.port port).vc vc).cred = 0 →
    ∃ t n, (n = 1 ∨ n = (s.port port).credTos + 1) ∧
      exec (.creditTimeout port vc) s = .next (if 3 ≤ n then t.portQuar port 3 else t.portDown port 10 true) ∧
      t = ({ s.log 0x3106 [.link port, .val 1 vc.val] with free := (s.log 0x3106 [.link port, .val 1 vc.val]).free + 1 }).modPort port
        (fun p => { p with credTos := if 3 ≤ n then 0 else n })

/-- The link commands of LNK_CTRL, and the partner's BYE (R434, R436, R438). -/
def linkCommandsDo : Prop :=
  ∀ (port : Fin 8) (s : State),
    let st := (s.port port).state
    (st = .up ∨ st = .retrain ∨ st = .draining ∨ st = .auth ∨ st = .training → exec (.lnkRetrain port) s = .next (s.portDown port 6 false)) ∧
    (st = .up → exec (.lnkDrain port) s = .next (s.modPort port (fun p => { p with state := .draining }))) ∧
    (st = .retrain → exec (.lnkDrain port) s = .next (s.modPort port (fun p => { p with drainAfter := true }))) ∧
    (st = .draining → ∃ p w, (s.port port).form [(s.port port).ctlFlit 3 (s.port port).nakDue []] [] = (p, w) ∧
      exec (.lnkDrainEnd port) s = .next (((s.modPort port (fun _ => p)).emit (p.line port w)).portDown port 6 false)) ∧
    (st = .quarantined → ∃ t, exec (.lnkUnquar port) s = .next t ∧ (t.port port).state = .down ∧ (t.port port).downwhy = 8 ∧
      (t.port port).quars = (s.port port).quars ∧ (∀ j, j ≠ port.val → t.port j = s.port j) ∧ t.hbm = s.hbm ∧ t.evt = s.evt) ∧
    (st ≠ .quarantined → exec (.lnkQuar port) s = .next (s.portQuar port 5)) ∧
    (st = .up ∨ st = .draining ∨ st = .retrain → exec (.byeReceive port) s = .next (s.portDown port 7 false)) ∧
    (st = .retrain → exec (.retrainTimeout port) s = .next (s.portDown port 4 true))

/-! Fault holds, pre-emption and resume. -/

/-- The outstanding faults of a cell each logged as FAULT_RETRY with the time in the hold (R474). -/
def logRetries (cell us : Nat) (s : State) : State :=
  (s.cell cell).faults.foldl (fun s f => s.log 0x5301 [.cell cell, .val 2 f.code.toNat, .val 4 us]) s

/-- The cause of a pre-emption: HAZARD, for inspection, of a cell that the hazard detector froze, whatever triggers it (R476, R487). -/
def causeOf (c : Cell) (cause : Nat) : Nat := if c.holds.hazard then 2 else cause

/-- FLT_RETRY: where every outstanding fault may be resolved the cell runs again with none outstanding, and its faulted units go on
from their cursors; else the cell is pre-empted with cause FAULT (R474, R475). -/
def fltRetryDoes : Prop :=
  ∀ (cell : Fin 16) (us : Nat) (s : State), (s.cell cell).ctx = 1 →
    ((∀ f ∈ (s.cell cell).faults, f.resolvable = true) → exec (.fltRetry cell us) s = .next (((logRetries cell us s).modCell cell (fun c =>
      { c with ctx := 0, faults := [], holds := { c.holds with fault := false } })).resumeAll cell)) ∧
    ((∃ f ∈ (s.cell cell).faults, f.resolvable = false) → exec (.fltRetry cell us) s = .next (s.startPreempt cell (causeOf (s.cell cell) 1)))

/-- FLT_GIVEUP and the end of the budget pre-empt a cell in FAULT_HOLD with cause FAULT, and change nothing of any other (R474,
R475). -/
def holdEnds : Prop :=
  ∀ (cell : Fin 16) (s : State),
    ((s.cell cell).ctx = 1 → exec (.fltGiveup cell) s = .next (s.startPreempt cell (causeOf (s.cell cell) 1)) ∧
      exec (.fltBudgetExpiry cell) s = .next (s.startPreempt cell (causeOf (s.cell cell) 1))) ∧
    ((s.cell cell).ctx ≠ 1 → exec (.fltGiveup cell) s = .next s ∧ exec (.fltBudgetExpiry cell) s = .next s)

/-- CTX_CTRL.PREEMPT of a running or fault-held cell: cause HOST, or HAZARD where the hazard detector froze it (R476, R488). -/
def ctxPreemptDoes : Prop :=
  ∀ (cell : Fin 16) (s : State), (s.cell cell).exists_ = true → (s.cell cell).ctx = 0 ∨ (s.cell cell).ctx = 1 →
    exec (.ctxPreempt cell) s = .next (s.startPreempt cell (causeOf (s.cell cell) 0))

/-- A pre-emption begins: with a usable area the cell is PREEMPTING and VALID of the image is 1; without one CTX_INVALID is logged
and the cell is reset. No other byte of HBM changes but where the write's line meets an error of the media (R369, R476, R478, R479,
R487). -/
def preemptBegins : Prop :=
  ∀ (s : State) (k cause : Nat),
    ((s.cell k).areaOk = true → (((s.startPreempt k cause).cell k).ctx = 2 ∧ ((s.startPreempt k cause).cell k).pcause = cause ∧
      memGet (s.startPreempt k cause).hbm ((s.cell k).area.toNat + 6) = 1 ∧
      (s.mediaErr = [] → ∀ a, a ≠ (s.cell k).area.toNat + 6 → memGet (s.startPreempt k cause).hbm a = memGet s.hbm a) ∧
      (s.startPreempt k cause).cores = s.cores ∧ (∀ j, j ≠ k → (s.startPreempt k cause).cell j = s.cell j))) ∧
    ((s.cell k).areaOk = false → (((s.startPreempt k cause).cell k).ctx = 0 ∧ ((s.startPreempt k cause).cell k).reset = true ∧
      ((s.startPreempt k cause).cell k).tick = 0 ∧ (s.startPreempt k cause).hbm = s.hbm))

/-- PREEMPT_SAVE_DONE of a cell whose counter is held: the image is written into the context area and, but for errors of the media
that its lines meet, nowhere else, with VALID 2; the cell is PREEMPTED and its cores hold no instruction. An uncorrectable write makes
the image invalid (R369, R476, R479, R480, R487). -/
def preemptSaveDoes : Prop :=
  ∀ (cell : Fin 16) (us : Nat) (s : State), (s.cell cell).ctx = 2 → (s.cell cell).run0 = .hold → (s.cell cell).run1 = .hold →
    (s.cell cell).run2 = .hold →
    exec (.preemptSaveDone cell true us) s = .next (s.ctxInvalid cell 2) ∧
    ((s.cell cell).areaOk = true → ∃ t im, exec (.preemptSaveDone cell false us) s = .next t ∧ (t.cell cell).ctx = 3 ∧
      (t.cell cell).img = some im ∧ im.cores.length = (s.cell cell).members.length ∧ (t.cell cell).tick = (s.cell cell).tick ∧
      (t.cell cell).step = (s.cell cell).step ∧ memGet t.hbm ((s.cell cell).area.toNat + 6) = 2 ∧
      (s.mediaErr = [] → ∀ a, a < (s.cell cell).area.toNat ∨ (s.cell cell).area.toNat + 2097152 + (s.cell cell).members.length * 33554432 ≤ a →
        memGet t.hbm a = memGet s.hbm a) ∧
      (∀ n ∈ (s.cell cell).members, (t.core n).inflight = []) ∧
      (∀ n, n ∉ (s.cell cell).members → (t.core n) = s.core n) ∧ (∀ j, j ≠ cell.val → t.cell j = s.cell j))

/-- The header of a cell's image read through its home slices (R374, R479). -/
def headerRead (s : State) (k : Nat) : State :=
  if (s.cell k).area = 0 then s else s.touchPhys (s.cell k).area.toNat 256 false

/-- A resume of a cell's image refused for a reason (R485). -/
def resumeRefused (s : State) (k r : Nat) : State :=
  ((headerRead s k).modCell k (fun c => { c with refuse := BitVec.ofNat 16 r })).log 0x5305 [.cell k, .val 1 r]

/-- CTX_CTRL.RESUME of a PREEMPTED cell whose image may be resumed begins the resume; one that may not is refused with the first
reason that holds, in CTX_REFUSED and CTX_STAT (R485, R488). -/
def ctxResumeDoes : Prop :=
  ∀ (cell : Fin 16) (s : State), (s.cell cell).mayResume = true →
    ((headerRead s cell).resumeRefuse cell = none →
      exec (.ctxResume cell) s = .next ((headerRead s cell).modCell cell (fun c => { c with ctx := 4 })).wake) ∧
    (∀ r, (headerRead s cell).resumeRefuse cell = some r → exec (.ctxResume cell) s = .next (resumeRefused s cell r))

/-- The image of a cell read through its home slices (R374, R480). -/
def imageRead (s : State) (cell : Nat) : State :=
  s.readRanges (((s.cell cell).area.toNat, 2097152) ::
    (List.range (s.cell cell).members.length).map (fun l => ((s.cell cell).region l, 33554432)))

/-- What a context image keeps of a cell beside its bytes in HBM: nothing where the image is another's (R480, R481, R485; log entry 11). -/
def keptOf (s : State) (cell l : Nat) : Core := (((s.cell cell).img.getD {}).cores).getD l {}

/-- The cores, epochs and cell of a context image put back from its bytes, VALID 0, and CTX_RESUMED logged (R480 to R482, R484, R486). -/
def putBack (cell : Nat) (s₀ : State) : State :=
  let c := s₀.cell cell
  let s := imageRead s₀ cell
  let h := s.hbmRead c.area.toNat 768
  let t := (c.members.zipIdx.foldl (fun s (n, l) =>
    s.setCore n ((s.loadCore cell l (keptOf s₀ cell l)).withLive (s.core n))) s).imageEpochs (bsub h 256 512)
  let u := c.members.zipIdx.foldl (fun s (n, l) => s.rebuildAll cell n (keptOf s₀ cell l))
    (t.modCell cell (fun x => x.ofImage h (c.img.getD {})))
  ((u.setValid cell 0).reclockCell cell).log 0x5304 [.cell cell, .val 4 (bfld h 104 8), .val 4 (bfld h 88 8)]

/-- RESUME_DONE once every outcome of an injected request is in: the image is put back, and instructions that wait on a resolved
fault start again from their cursors (R484 to R486). -/
def resumeDoneDoes : Prop :=
  ∀ (cell : Fin 16) (s : State), (s.cell cell).ctx = 4 →
    (∀ l, l < (s.cell cell).members.length → ∀ e ∈ (s.loadCore cell l (keptOf s cell l)).inflight, e.outcomeOpen = false) →
    exec (.resumeDone cell) s = .next (((s.cell cell).members.foldl State.rearmAll (putBack cell s)).resumeAll cell)

/-- The state put back: the cell RUNNING with the step and counter of the image, no fault and no image, VALID 0; no other byte of HBM
changes but where the image's lines meet an error of the media (R369, R479, R486). -/
def resumedCell : Prop :=
  ∀ (cell : Nat) (s : State), (s.cell cell).area ≠ 0 →
    let h := (imageRead s cell).hbmRead (s.cell cell).area.toNat 768
    let c := (putBack cell s).cell cell
    c.ctx = 0 ∧ c.faults = [] ∧ c.img = none ∧ c.step = BitVec.ofNat 64 (bfld h 88 8) ∧ c.tick = BitVec.ofNat 48 (bfld h 104 8) ∧
      memGet (putBack cell s).hbm ((s.cell cell).area.toNat + 6) = 0 ∧
      (s.mediaErr = [] → ∀ a, a ≠ (s.cell cell).area.toNat + 6 → memGet (putBack cell s).hbm a = memGet s.hbm a) ∧
      (∀ j, j ≠ cell → (putBack cell s).cell j = s.cell j)

/-! Control datagrams. -/

/-- A row of a control request: its message, opcode and payload, whether an OBSERVER may send it, whether it is a command of the
session itself, what it does, and what follows a DONE. -/
structure TcdRow where
  m : Msg
  op : Nat
  payload : List Byte
  obs : Bool
  here : Bool
  eff : Eff
  post : State → State

/-- The requests of R531. -/
def tcdRow : Instr → Option TcdRow
  | .armBegin m total => some ⟨m, 0x0020, leBytes 8 total, false, false, effArmBegin total, id⟩
  | .armData m off data => some ⟨m, 0x0021, leBytes 8 off ++ leBytes 8 0 ++ data, false, false, effArmData off data, id⟩
  | .armCommit m mode cells epoch => some ⟨m, 0x0022, leBytes 1 mode ++ [0] ++ leBytes 2 cells.toNat ++ leBytes 4 epoch.toNat, false,
      false, effArmCommit mode cells epoch, id⟩
  | .armCancel m => some ⟨m, 0x0023, [], false, false, effArmCancel, id⟩
  | .cellPreempt m cell => some ⟨m, 0x0030, leBytes 1 cell, false, false, effCellPreempt cell, id⟩
  | .cellResume m cell => some ⟨m, 0x0031, leBytes 1 cell, false, false, effCellResume cell, id⟩
  | .cellReset m cell => some ⟨m, 0x0032, leBytes 1 cell, false, false, effCellReset cell, id⟩
  | .tokenPost m cell lc tok n => some ⟨m, 0x0033, leBytes 1 cell ++ leBytes 1 lc ++ leBytes 1 tok ++ leBytes 1 n, false, false,
      effTokenPost cell lc tok n, id⟩
  | .restore m src gen step => some ⟨m, 0x0040, leBytes 1 src ++ leBytes 1 gen ++ leBytes 6 0 ++ leBytes 8 step.toNat, false, false,
      effRestore src gen step, id⟩
  | .slotAssign m slot hash => some ⟨m, 0x0041, leBytes 1 slot ++ leBytes 7 0 ++ hash, false, false, effSlotAssign slot hash, id⟩
  | .fleetResume m all => some ⟨m, 0x0042, leBytes 1 (b2n all), false, false, effFleetResume all, id⟩
  | .qpOpen m port hqpn hpsn pmtu gid => some ⟨m, 0x0043, leBytes 1 port ++ leBytes 3 0 ++ leBytes 4 hqpn ++ leBytes 4 hpsn ++
      leBytes 1 pmtu ++ leBytes 3 0 ++ gid, false, false, effQpOpen port hqpn hpsn pmtu gid, id⟩
  | .qpClose m qpn => some ⟨m, 0x0044, leBytes 4 qpn, false, false, effQpClose qpn, id⟩
  | .storeQp m tgt rqpn rpsn => some ⟨m, 0x0045, leBytes 1 tgt ++ leBytes 3 0 ++ leBytes 4 rqpn ++ leBytes 4 rpsn, false, false,
      effStoreQp tgt rqpn rpsn, id⟩
  | .warmReset m => some ⟨m, 0x0050, [], false, false, effReset 0x0050, fun s => s.startWarm 9⟩
  | .moduleReset m => some ⟨m, 0x0051, [], false, false, effReset 0x0051, fun s => s.startModule 3⟩
  | .attest m nonce => some ⟨m, 0x0060, nonce, true, false, effAttest nonce, id⟩
  | .csrRead m addr n => some ⟨m, 0x0010, leBytes 8 addr ++ leBytes 2 n, true, false, effCsrRead addr n, id⟩
  | .csrWrite m addr ws => some ⟨m, 0x0011, leBytes 8 addr ++ leBytes 2 ws.length ++ leBytes 6 0 ++ ws.flatMap (fun w => leBytes 8 w.toNat),
      false, false, effCsrWrite addr ws, id⟩
  | .evtRead m first n => some ⟨m, 0x0012, leBytes 4 first ++ leBytes 2 n, true, false, effEvtRead first n, id⟩
  | .status m => some ⟨m, 0x0013, [], true, false, effStatus, id⟩
  | .sessionClose m => some ⟨m, 0x0004, [], true, true, fun _ s => (s, done []), fun s => s.closeSession m.session 1⟩
  | .rekey m => some ⟨m, 0x0005, [], true, true, fun _ s => (s.modSession m.session (fun x => { x with rekeyed := true }), done []), id⟩
  | .keepalive m => some ⟨m, 0x0006, [], true, true, fun _ s => (s, done []), id⟩
  | .evtSubscribe m sev => some ⟨m, 0x0007, leBytes 1 sev, true, true, fun _ s => if 4 < sev then (s, badFormat)
      else (s.modSession m.session (fun x => { x with minSev := some sev, nseq := 0, notes := [], lost := false }), done []), id⟩
  | .notifyAck m ack => some ⟨m, 0x0008, leBytes 4 ack.toNat, true, true, fun _ s => (s.modSession m.session (fun x =>
      { x with notes := x.notes.filter (fun n => decide (ack.toNat < n.1)) }), done []), id⟩
  | _ => none

/-- A frame of the TCD priority has arrived: whether its buffer is past the mark for a pause frame is a free value (R541). -/
def arrived (s : State) (m : Msg) : State := s.fillBuffer m.port.val

/-- The message belongs to an open session on its port, which is not being reset, its TAG verifies under its own EPOCH, and the management
processor runs (R523, R526, R554, R573). -/
def Verified (s : State) (r : TcdRow) (ss : Session) : Prop :=
  s.session? r.m.session = some ss ∧ ss.port = r.m.port.val ∧ ss.open_ = true ∧ s.mgmt.halted = false ∧
    s.rst.quiet.contains (48 + r.m.port.val) = false ∧ ss.verifies r.m r.op r.payload r.m.epoch = true

/-- It is also of the present EPOCH, and no REKEY has ended that (R528). -/
def Present (s : State) (r : TcdRow) (ss : Session) : Prop := Verified s r ss ∧ r.m.epoch = ss.epoch ∧ ss.rekeyed = false

/-- It has the expected SEQ, and the session has room for it (R527, R529). -/
def Next (s : State) (r : TcdRow) (ss : Session) : Prop := Present s r ss ∧ r.m.seq = ss.expect ∧ ss.queued.length < 64

/-- This device is its target (R532). -/
def Here (s : State) (r : TcdRow) : Prop := r.here = true ∨ r.m.tslot = 255 ∨ flowKey r.m.tfleet r.m.tslot = s.ownKey

/-- Its role allows it, its payload has the length of its command, this device is its target, and no earlier request of the session is
unfinished (R525, R529, R531 to R533). -/
def Allowed (s : State) (r : TcdRow) (ss : Session) : Prop :=
  (r.obs = true ∨ ss.owner = true) ∧ opLenOk r.op r.payload.length = true ∧ Here s r ∧
    (r.here = true ∨ s.unfinished r.m.session 0 = false)

/-- The state once a request of the expected SEQ is taken: the next SEQ is expected (R527). -/
def taken (s : State) (m : Msg) : State :=
  ((arrived s m).modSession m.session (fun x => x.enter m)).modSession m.session (fun x => { x with expect := x.expect + 1 })

/-- The state code of the load engine that every acknowledgement of a load command reports (R45). -/
def stateCode (s : State) (op : Nat) : List Byte := if 0x20 ≤ op ∧ op ≤ 0x23 then leBytes 1 s.arm.state.code else []

/-- Where the answer of a request goes. -/
def ctxOf (r : TcdRow) (ss : Session) : TcdCtx := ⟨r.m.session, r.m.epoch, r.m.seq, 0, ss.owner, r.op⟩

/-- A request of the expected SEQ is executed, once, and answered: DONE with what follows it, ACCEPTED, or its refusal (R527,
R529). -/
def tcdExecutes : Prop :=
  ∀ (c : Instr) (r : TcdRow) (s t : State) (ss : Session) (st : Nat) (p : List Byte), tcdRow c = some r → Next s r ss → Allowed s r ss →
    r.eff (ctxOf r ss) (taken s r.m) = (t, some (st, p)) →
    exec c s = .next (if st = 0 then r.post (t.answer (ctxOf r ss) 0 p) else if st = 1 then t.accept (ctxOf r ss) p
      else t.answer (ctxOf r ss) st p)

/-- One whose answer comes later is answered ACCEPTED (R529). -/
def tcdAccepts : Prop :=
  ∀ (c : Instr) (r : TcdRow) (s t : State) (ss : Session), tcdRow c = some r → Next s r ss → Allowed s r ss →
    r.eff (ctxOf r ss) (taken s r.m) = (t, none) → exec c s = .next (t.accept (ctxOf r ss) [])

/-- One behind an unfinished request of its session is answered ACCEPTED and waits its turn (R527, R529, R533). -/
def tcdWaits : Prop :=
  ∀ (c : Instr) (r : TcdRow) (s : State) (ss : Session), tcdRow c = some r → Next s r ss → (r.obs = true ∨ ss.owner = true) →
    opLenOk r.op r.payload.length = true → Here s r → r.here = false → s.unfinished r.m.session 0 = true →
    exec c s = .next (((taken s r.m).accept (ctxOf r ss) (stateCode s r.op)).await (ctxOf r ss) r.payload)

/-- A request that waited runs once nothing of its session is unfinished before it, and is answered as it then finds the device (R527,
R533). -/
def waitedRuns : Prop :=
  ∀ (s t : State) (w : Wait) (st : Nat) (p : List Byte), w ∈ s.hst.waiting → s.engaged w.id w.frm = false →
    let c : TcdCtx := ⟨w.id, w.epoch, w.seq, w.frm, w.owner, w.op⟩
    opEff w.op w.payload c { s with hst := { s.hst with waiting := s.hst.waiting.erase w } } = (t, some (st, p)) →
    (st = 0 → w.op ≠ 0x50 → w.op ≠ 0x51 → s.serveOne w = t.answer c 0 p) ∧ (1 < st → s.serveOne w = t.answer c st p)

/-- A request whose payload has not the length of its command: STATUS FORMAT (R529). -/
def tcdFormat : Prop :=
  ∀ (c : Instr) (r : TcdRow) (s : State) (ss : Session), tcdRow c = some r → Next s r ss → (r.obs = true ∨ ss.owner = true) →
    opLenOk r.op r.payload.length = false → exec c s = .next ((taken s r.m).answer (ctxOf r ss) 5 (stateCode s r.op))

/-- A duplicate of one of the last 64 requests of the EPOCH is answered with the response that was kept, or ACCEPTED where it is not
finished, and is not executed again (R45, R527). -/
def tcdDuplicate : Prop :=
  ∀ (c : Instr) (r : TcdRow) (s : State) (ss : Session), tcdRow c = some r → Present s r ss →
    r.m.seq < ss.expect → ss.expect ≤ r.m.seq + 64 →
    let t := (arrived s r.m).modSession r.m.session (fun x => x.enter r.m)
    (∀ st p, ss.kept.find? (fun k => k.1 == r.m.seq) = some (r.m.seq, st, p) →
      exec c s = .next (t.respond ss r.op r.m.epoch r.m.seq st p)) ∧
    (ss.kept.find? (fun k => k.1 == r.m.seq) = none → r.m.seq ∈ ss.queued →
      exec c s = .next (t.respond ss r.op r.m.epoch r.m.seq 1 (stateCode s r.op)))

/-- A request above the expected SEQ is not executed: STATUS SEQ names the SEQ expected (R527). -/
def tcdAhead : Prop :=
  ∀ (c : Instr) (r : TcdRow) (s : State) (ss : Session), tcdRow c = some r → Present s r ss → ss.expect < r.m.seq → ss.naked = false →
    exec c s = .next ((((arrived s r.m).modSession r.m.session (fun x => x.enter r.m)).modSession r.m.session (fun x =>
      { x with naked := true })).respond ss r.op r.m.epoch r.m.seq 7 (leBytes 4 ss.expect))

/-- A request of a later EPOCH is answered with STATUS EPOCH, one of an earlier EPOCH is discarded (R45, R528). -/
def tcdEpoch : Prop :=
  ∀ (c : Instr) (r : TcdRow) (s : State) (ss : Session), tcdRow c = some r → Verified s r ss → ss.rekeyed = false →
    let t := (arrived s r.m).modSession r.m.session (fun x => x.enter r.m)
    (ss.epoch < r.m.epoch → exec c s = .next (t.respond ss r.op r.m.epoch r.m.seq 6 (stateCode s r.op))) ∧
    (r.m.epoch < ss.epoch → exec c s = .next t)

/-- A role that does not allow a command: STATUS ROLE, and for the armature commands ROLE_DENIED; nothing else happens (R43,
R525). -/
def tcdRole : Prop :=
  ∀ (c : Instr) (r : TcdRow) (s : State) (ss : Session), tcdRow c = some r → Next s r ss → r.obs = false → ss.owner = false →
    exec c s = .next ((if 0x20 ≤ r.op ∧ r.op ≤ 0x23 then (taken s r.m).log 0x7002 [.val 4 r.m.session, .val 2 r.op] else taken s r.m).answer
      (ctxOf r ss) 3 (stateCode s r.op))

/-- A 65th unfinished request is answered BUSY and is not taken (R529). -/
def tcdBusy : Prop :=
  ∀ (c : Instr) (r : TcdRow) (s : State) (ss : Session), tcdRow c = some r → Present s r ss → r.m.seq = ss.expect →
    64 ≤ ss.queued.length → exec c s = .next (((arrived s r.m).modSession r.m.session (fun x => x.enter r.m)).respond ss r.op r.m.epoch
      r.m.seq 4 (stateCode s r.op))

/-- A request for another device is forwarded, or answered UNREACHABLE or DEAD (R532, R534). -/
def tcdForwards : Prop :=
  ∀ (c : Instr) (r : TcdRow) (s : State) (ss : Session), tcdRow c = some r → Next s r ss → (r.obs = true ∨ ss.owner = true) →
    opLenOk r.op r.payload.length = true → ¬ Here s r →
    exec c s = .next ((taken s r.m).forward (ctxOf r ss) r.m.port (flowKey r.m.tfleet r.m.tslot) r.op r.payload)

/-- Forwarding: a target without a place or a valid route is UNREACHABLE, one whose incarnation is 0 is DEAD; else the request goes out as
TCDF and waits for its answer, which may come after an ACCEPTED (R529, R532, R534). -/
def forwardDoes : Prop :=
  ∀ (s : State) (c : TcdCtx) (port dst op : Nat) (p : List Byte),
    (s.cfg.hasPlace (dst / 64) (dst % 64) = false → s.forward c port dst op p = s.answer c 8 []) ∧
    ((tabGet 0 s.gal.routes dst).getLsbD 7 = false → s.forward c port dst op p = s.answer c 8 []) ∧
    (s.cfg.hasPlace (dst / 64) (dst % 64) = true → (tabGet 0 s.gal.routes dst).getLsbD 7 = true → s.incOf dst = 0 →
      s.forward c port dst op p = s.answer c 9 []) ∧
    (s.cfg.hasPlace (dst / 64) (dst % 64) = true → (tabGet 0 s.gal.routes dst).getLsbD 7 = true → s.incOf dst ≠ 0 → p.length ≤ 4096 →
      ∃ t : State, s.forward c port dst op p = t.sendReq dst
          { ptype := 0x0D, data := p, fields := [16 * b2n c.owner, c.id, c.epoch, c.seq, op, p.length, 0, p.length] } ∧
        t.hst.fwds = s.hst.fwds ++ [(c.id, c.epoch, c.seq, dst, op)] ∧ t.cores = s.cores ∧ t.hbm = s.hbm ∧ t.gal = s.gal)

/-- A message without an open session on its port is ignored (R523); a session whose TAG does not verify counts it (R523). -/
def tcdUnverified : Prop :=
  ∀ (c : Instr) (r : TcdRow) (s : State), tcdRow c = some r →
    (s.session? r.m.session = none → exec c s = .next (arrived s r.m)) ∧
    (∀ ss, s.session? r.m.session = some ss → ss.port ≠ r.m.port.val ∨ ss.open_ = false ∨ s.mgmt.halted = true →
      exec c s = .next (arrived s r.m)) ∧
    (∀ ss, s.session? r.m.session = some ss → ss.port = r.m.port.val → ss.open_ = true → s.mgmt.halted = false →
      s.rst.quiet.contains (48 + r.m.port.val) = false → ss.verifies r.m r.op r.payload r.m.epoch = false →
      ∃ t, exec c s = .next t ∧ (t.eth r.m.port).badtag = satAdd (s.eth r.m.port).badtag 1 ∧ t.cores = s.cores ∧ t.cells = s.cells ∧
        t.hbm = s.hbm ∧ t.arm = s.arm ∧ t.hst.sessions.map (fun x => (x.id, x.expect)) = s.hst.sessions.map (fun x => (x.id, x.expect)))

/-! Sessions. -/

/-- SESSION_OPEN with a known host key, which its certificate carries: a new session of the key's role, not yet open, with a fresh id,
secret and nonces; SESSION_KEY goes out under a zero TAG. Too many sessions: BUSY; an unknown key: ROLE; a malformed message: FORMAT (R523 to
R526, R529). -/
def sessionOpenDoes : Prop :=
  ∀ (port : Fin 3) (no : MsgNo) (cert nonce : List Byte) (s : State), (s.eth port).up = true →
    let key := Config.certKey cert
    let refuse (st : Nat) : State := s.sendTcd port none 2 0 no.epoch no.seq 1 st []
    (nonce.length ≠ 32 ∨ cert = [] → exec (.sessionOpen port no cert nonce) s = .next (refuse 5)) ∧
    (nonce.length = 32 → cert ≠ [] → s.cfg.maxSess ≤ s.hst.sessions.length → exec (.sessionOpen port no cert nonce) s = .next (refuse 4)) ∧
    (nonce.length = 32 → cert ≠ [] → s.hst.sessions.length < s.cfg.maxSess → s.roleOf key = none →
      exec (.sessionOpen port no cert nonce) s = .next (refuse 3)) ∧
    (∀ owner, nonce.length = 32 → cert ≠ [] → s.hst.sessions.length < s.cfg.maxSess → s.roleOf key = some owner →
      ∃ (t : State) (ss : Session) (p : List Byte),
        exec (.sessionOpen port no cert nonce) s = .next (t.sendTcd port none 2 s.hst.nextId no.epoch no.seq 1 0 (leBytes 4 s.hst.nextId ++ p)) ∧
        t = { s with free := s.free + 2, hst := { s.hst with sessions := s.hst.sessions ++ [ss], nextId := s.hst.nextId + 1 } } ∧
        ss.id = s.hst.nextId ∧ ss.port = port ∧ ss.owner = owner ∧ ss.open_ = false ∧ ss.key = sha256 key)

/-- SESSION_CONFIRM that verifies with EPOCH 1 and SEQ 0 opens the session, logs TCD_SESSION and is answered DONE; the next SEQ is
1. On an open session a duplicate is answered with its kept response, and one whose TAG does not verify is counted (R523, R524, R526,
R527). -/
def sessionConfirmDoes : Prop :=
  ∀ (m : Msg) (s : State) (ss : Session), s.session? m.session = some ss → ss.port = m.port.val →
    (ss.open_ = false → ss.verifies m 3 [] 1 = true → m.epoch = 1 → m.seq = 0 →
      exec (.sessionConfirm m) s = .next (((s.modSession m.session (fun x => { x with open_ := true, expect := 1 })).log 0x4102
        [.eth ss.port, .val 4 ss.id, .val 1 (Config.code (b2n ss.owner)), .val 1 1, .val 1 (Config.code 2)]).finalResponse m.session 3 1 0 0 [])) ∧
    (∀ st p, ss.open_ = true → ss.verifies m 3 [] 1 = true → m.epoch = 1 → m.seq = 0 → ss.epoch = 1 → ss.expect ≤ 64 →
      ss.kept.find? (fun k => k.1 == 0) = some (0, st, p) → exec (.sessionConfirm m) s = .next (s.respond ss 3 1 0 st p)) ∧
    (ss.open_ = true → ss.verifies m 3 [] 1 = false → exec (.sessionConfirm m) s = .next (s.badTag m)) ∧
    (ss.open_ = false → ss.verifies m 3 [] 1 = false → exec (.sessionConfirm m) s = .next s)

/-- A session not confirmed in time is abandoned, an open one that is idle is closed (R524, R526). -/
def sessionTimeoutsDo : Prop :=
  ∀ (id : Nat) (s : State) (ss : Session), s.session? id = some ss →
    (ss.open_ = false → exec (.sessionConfirmTimeout id) s = .next (s.closeSession id 2)) ∧
    (ss.open_ = true → exec (.sessionIdleTimeout id) s = .next (s.closeSession id 2))

/-- A session closed is gone, with its forwarded requests; others stay as they are but for the notice of TCD_SESSION (R526). -/
def closeRemoves : Prop :=
  ∀ (id cause : Nat) (s : State),
    (s.closeSession id cause).session? id = none ∧ (∀ f ∈ (s.closeSession id cause).hst.fwds, (s.session? id).isSome = true → f.1 ≠ id) ∧
      (∀ j ss, j ≠ id → s.session? j = some ss → ∃ ss', (s.closeSession id cause).session? j = some ss' ∧ ss'.expect = ss.expect ∧
        ss'.kept = ss.kept ∧ ss'.open_ = ss.open_)

/-- NOTIFY_RESEND_TIMER: every unacknowledged notification sent fewer than 10 times goes out again as it was, LOST with it; the others are
dropped (R530). -/
def notifyResendDoes : Prop :=
  ∀ (id : Nat) (s : State) (ss : Session), s.session? id = some ss → ss.open_ = true → ss.minSev ≠ none →
    let again := ss.notes.filter (fun n => decide (n.2.2.1 < 10))
    exec (.notifyResendTimer id) s = .next ((again.foldl (fun (s : State) n => s.sendTcd ss.port (some (ss.ks ss.epoch)) 7 ss.id ss.epoch
        n.1 2 0 (leBytes 1 (b2n n.2.2.2) ++ n.2.1.bytes)) s).modSession id (fun x =>
      { x with notes := again.map (fun n => (n.1, (n.2.1, n.2.2.1 + 1, n.2.2.2))) }))

/-! What the requests of R531 do. -/

/-- CSR_READ and CSR_WRITE of one word read or write that register; a count of 0 or too many is FORMAT (R531). -/
def csrCommands : Prop :=
  ∀ (c : TcdCtx) (s : State) (addr : Nat), addr < 2 ^ 64 →
    effCsrRead addr 1 c s = ((s.regRead addr).1, done (leBytes 8 (s.regRead addr).2)) ∧
    (∀ v, effCsrWrite addr [v] c s = (s.regWrite true addr v.toNat, done [])) ∧
    effCsrRead addr 0 c s = (s, badFormat) ∧ effCsrWrite addr [] c s = (s, badFormat)

/-- CELL_PREEMPT, CELL_RESUME and CELL_RESET of a cell (R476, R485, R487, R531). -/
def cellCommands : Prop :=
  ∀ (c : TcdCtx) (s : State) (k : Nat), k < 16 →
    ((s.cell k).exists_ = true → effCellPreempt k c s = (s.hostPreempt k, done []) ∧ effCellReset k c s = (s.commandReset k, done [])) ∧
    ((s.cell k).exists_ = false → effCellPreempt k c s = (s, badFormat) ∧ effCellReset k c s = (s, badFormat)) ∧
    ((s.cell k).mayResume = true → (headerRead s k).resumeRefuse k = none →
      effCellResume k c s = (((headerRead s k).modCell k (fun x => { x with ctx := 4 })).wake, done [])) ∧
    (∀ r, (s.cell k).mayResume = true → (headerRead s k).resumeRefuse k = some r →
      effCellResume k c s = (resumeRefused s k r, refused 0x5305 (leBytes 1 k ++ leBytes 1 r)))

/-- A class C reset: the cell at tick 0, held, RUNNING with no fault outstanding; its step, taint, area and budget stay, other cells
and HBM too (R229, R547, R569). -/
def cellResetDoes : Prop :=
  ∀ (s : State) (k : Nat), s.arm.state ≠ .pending →
    let c := (s.resetCell k).cell k
    c.tick = 0 ∧ c.run0 = .hold ∧ c.ctx = 0 ∧ c.faults = [] ∧ c.held = 0 ∧ c.reset = true ∧ c.step = (s.cell k).step ∧
      c.taint = (s.cell k).taint ∧ c.area = (s.cell k).area ∧ c.mask = (s.cell k).mask ∧ (∀ j, j ≠ k → (s.resetCell k).cell j = s.cell j) ∧
      (s.resetCell k).hbm = s.hbm ∧ (∀ n, n ∉ (s.cell k).members → (s.resetCell k).core n = s.core n) ∧
      (∀ n ∈ (s.cell k).members, ((s.resetCell k).core n).inflight = [] ∧ ((s.resetCell k).core n).flg = 0 ∧
        ((s.resetCell k).core n).treg = (s.core n).treg ∧ ((s.resetCell k).core n).mvu = (s.core n).mvu)

/-- TOKEN_POST adds COUNT to the token of a core of a cell that is not PREEMPTED; a number out of range is FORMAT (R249, R531). -/
def tokenPostDoes : Prop :=
  ∀ (c : TcdCtx) (s : State) (k l tok n p : Nat), k < 16 → (s.cell k).pcore l = some p → 1 ≤ tok → tok ≤ 255 → 1 ≤ n → n ≤ 255 →
    (s.cell k).ctx ≠ 3 → (s.core p).tokenOvf tok n = false →
    ∃ t, effTokenPost k l tok n c s = (t, done []) ∧ (t.core p).token tok = (s.core p).token tok + n ∧
      (∀ x, x ≠ tok → (t.core p).token x = (s.core p).token x) ∧ (∀ j, j ≠ p → t.core j = s.core j) ∧ t.cells = s.cells ∧ t.hbm = s.hbm

/-- QP_OPEN: a responder queue pair that is ready, its number and PSN in the answer; 256 of a port are the most; QP_CLOSE removes it
with its requests; STORE_QP connects the requester of a STORE target in place of an earlier one (R531, R536, R540). -/
def qpCommands : Prop :=
  ∀ (c : TcdCtx) (s : State),
    (∀ port hqpn hpsn pmtu gid, port ≤ 1 → 3 ≤ pmtu → pmtu ≤ 5 → gid.length = 16 → s.hst.responders port < 256 →
      ∃ t q psn, effQpOpen port hqpn hpsn pmtu gid c s = (t, done (leBytes 4 (s.hst.nextQpn % 2 ^ 24) ++ leBytes 4 psn)) ∧
        t.hst.qps = s.hst.qps ++ [q] ∧ q.port = port ∧ q.state = .rts ∧ q.qpn = s.hst.nextQpn % 2 ^ 24 ∧ q.psn = psn ∧
        q.hqpn = hqpn % 2 ^ 24 ∧ q.hpsn = hpsn % 2 ^ 24 ∧ q.store = none) ∧
    (∀ port hqpn hpsn pmtu gid, port ≤ 1 → 3 ≤ pmtu → pmtu ≤ 5 → gid.length = 16 → 256 ≤ s.hst.responders port →
      effQpOpen port hqpn hpsn pmtu gid c s = (s, some (4, []))) ∧
    (∀ qpn, ∃ t, effQpClose qpn c s = (t, done []) ∧ (∀ q ∈ t.hst.qps, q.qpn ≠ qpn) ∧ (∀ o ∈ t.hst.rdma, o.qpn ≠ qpn) ∧
      (∀ q ∈ s.hst.qps, q.qpn ≠ qpn → q ∈ t.hst.qps)) ∧
    (∀ tgt port x rqpn rpsn, s.cfg.stores.find? (fun x => x.1 == tgt) = some (tgt, port, x) →
      ∃ t q, effStoreQp tgt rqpn rpsn c s = (t, done []) ∧ q ∈ t.hst.qps ∧ q.store = some tgt ∧ q.state = .rts ∧ q.port = port ∧
        q.hqpn = rqpn % 2 ^ 24 ∧ (∀ q' ∈ t.hst.qps, q'.store = some tgt → q' = q))

/-- EVT_READ answers the records, or EVT_GONE with the first index that is held nowhere; STATUS answers without an effect (R531,
R578). -/
def readCommands : Prop :=
  ∀ (c : TcdCtx) (s : State),
    (∀ first r, first < 2 ^ 32 → s.evt.record first = some r → effEvtRead first 1 c s = (s, done r.bytes)) ∧
    (∀ first, first < 2 ^ 32 → s.evt.record first = none →
      effEvtRead first 1 c s = (s.log 0x7004 [.val 4 first], refused 0x7004 (leBytes 4 first))) ∧
    (∃ p, effStatus c s = (s, done p) ∧ p.length = 153)

/-- ATTEST: a report of 256 bytes that begins with ATST and carries the nonce, signed, with the device certificate (R588). -/
def attestDoes : Prop :=
  ∀ (c : TcdCtx) (s : State) (nonce : List Byte), nonce.length = 32 →
    ∃ t r, effAttest nonce c s = (t, done (r ++ Config.pssSign r ++ s.mgmt.ident)) ∧ r.length = 256 ∧
      r.take 4 = ascii "ATST" ∧ bsub r 8 32 = nonce ∧ t = { s with free := t.free }

/-- WARM_RESET and MODULE_RESET are refused with FW_BUSY during an install; else DONE is answered, and the reset follows (R531,
R583). -/
def resetCommands : Prop :=
  ∀ (c : TcdCtx) (s : State) (op : Nat),
    (s.mgmt.fwState = .installing → effReset op c s = (s.log 0x7304 [.val 2 op], refused 0x7304 (leBytes 2 op))) ∧
    (s.mgmt.fwState ≠ .installing → effReset op c s = (s, done []))

/-- RESTORE is refused in a state that does not allow it, and by its first checks; else every cell is held and the answer comes
later; the head's own message begins the restore of its recovery. SLOT_ASSIGN begins the fill of a dead slot at the acting head with a device
that holds no other slot; outside a recovery it begins one. FLEET_RESUME releases this device, or every slot (R501, R503, R506, R507,
R511). -/
def recoveryCommands : Prop :=
  ∀ (c : TcdCtx) (s : State),
    (c.frm ≠ 0 → c.id = 0 → effRestore 3 0 0 c s = (s.beginEscalated, done []) ∧
      ∀ gen (step : BitVec 64), effRestore 0 gen step c s = (s.beginRestart step.toNat, done [])) ∧
    (c.frm = 0 ∨ c.id ≠ 0 →
      (∀ src gen step, src ≤ 2 → gen ≤ 1 → s.mayRestore = false →
        effRestore src gen step c s = (s.log 0x8203 [.val 1 src, .val 1 7], refused 0x8203 (leBytes 1 src ++ leBytes 1 7))) ∧
      (∀ gen step, gen ≤ 1 → s.mayRestore = true → ∃ t, effRestore 2 gen step c s = (t, none) ∧ t.snp.state = .restore ∧
        t.snp.restoring = some (2, gen, step.toNat + 1) ∧ (∀ k, k < 16 → (s.cell k).exists_ = true → (t.cell k).holds.restore = true) ∧
        t.cores = s.cores ∧ t.hbm = s.hbm)) ∧
    (∀ slot hash d, s.isHead = true → s.unfilled.find? (fun d => d.1 == slot) = some d → hash.length = 32 →
      let n := ((s.cfg.spares.find? (fun x => x.hash == hash)).map (fun x => x.num)).getD 8
      (s.gal.owners.any (fun o => o.1 != slot && o.2 == hash) = true → effSlotAssign slot hash c s = (s, badFormat)) ∧
      (s.gal.owners.any (fun o => o.1 != slot && o.2 == hash) = false →
        (s.snp.recovering = true → effSlotAssign slot hash c s = (s.startFill slot d.2 n hash, done [])) ∧
        (s.snp.recovering = false → effSlotAssign slot hash c s = (s.restartFleet.startFill slot d.2 n hash, done [])))) ∧
    effFleetResume false c s = (s.resumeHere, done []) ∧
    (s.isHead = true → effFleetResume true c s = (s.resumeFleet, done [])) ∧
    (s.isHead = false → effFleetResume true c s = (s, badFormat))

/-! RoCEv2, Ethernet and the clock. -/

/-- A RoCEv2 request of the expected PSN on a ready responder queue pair of an Ethernet port that is up (R536). -/
def RoceInOrder (s : State) (port : Nat) (q : RoceReq) (x : Qp) : Prop :=
  (s.eth port).up = true ∧ s.rst.quiet.contains (48 + port) = false ∧ q.unsupported = false ∧ s.qp? q.qpn = some x ∧ x.port = port ∧ x.state = .rts ∧ x.store = none ∧
    q.psn = x.hpsn ∧ x.hpsn < 2 ^ 24

/-- A WRITE that fits one packet and whose window allows it becomes PUT packets to its GPA; the PSN goes on by one (R537, R538). -/
def rdmaWriteDoes : Prop :=
  ∀ (port : Fin 2) (q : RoceReq) (s : State) (x : Qp) (no gpa : Nat), RoceInOrder s port q x → q.part = 3 → x.wkey = 0 →
    s.cfg.windowAt q.rkey q.va (max q.data.length q.len) true = .ok (no, gpa) →
    let t := (s.congestion x q.ce).modQp q.qpn (fun x => { x with hpsn := (x.hpsn + 1) % 2 ^ 24 })
    exec (.rdmaWriteReceive port q) s = .next ((t.modQp q.qpn (fun x => { x with waddr := 0, wkey := 0 })).rdmaSend
      { qpn := q.qpn, psn := q.psn, window := no, off := q.va } gpa q.data.length
      (fun off k => { ptype := 0x01, fields := [0, 0, 0, 0, 0], data := (q.data.drop off).take k }))

/-- The later packets of a WRITE go on where the packet before ended, in the window that the first one named, each checked with its own
bytes (R537, R538). -/
def rdmaWriteContinues : Prop :=
  ∀ (port : Fin 2) (q : RoceReq) (s : State) (x : Qp) (no gpa : Nat), RoceInOrder s port q x → q.part = 1 ∨ q.part = 2 → x.wkey ≠ 0 →
    s.cfg.windowAt (x.wkey - 1) x.waddr q.data.length true = .ok (no, gpa) →
    let t := (s.congestion x q.ce).modQp q.qpn (fun x => { x with hpsn := (x.hpsn + 1) % 2 ^ 24 })
    exec (.rdmaWriteReceive port q) s = .next ((t.modQp q.qpn (fun y => { y with
        waddr := if q.part = 1 then x.waddr + q.data.length else 0, wkey := if q.part = 1 then x.wkey else 0 })).rdmaSend
      { qpn := q.qpn, psn := q.psn, window := no, off := x.waddr } gpa q.data.length
      (fun off k => { ptype := 0x01, fields := [0, 0, 0, 0, 0], data := (q.data.drop off).take k }))

/-- One that no window allows: ROCE_ERR, a NAK in its turn, and the queue pair in Error (R537). -/
def rdmaWriteRefused : Prop :=
  ∀ (port : Fin 2) (q : RoceReq) (s : State) (x : Qp) (w : Nat), RoceInOrder s port q x → q.part = 3 → x.wkey = 0 →
    s.cfg.windowAt q.rkey q.va (max q.data.length q.len) true = .error w →
    exec (.rdmaWriteReceive port q) s = .next (((s.congestion x q.ce).modQp q.qpn (fun x =>
      { x with hpsn := (x.hpsn + 1) % 2 ^ 24 })).accessError port q w)

/-- A READ that its window allows becomes GETREQ packets to its GPA; its responses take a PSN each (R537 to R539). -/
def rdmaReadDoes : Prop :=
  ∀ (port : Fin 2) (q : RoceReq) (s : State) (x : Qp) (no gpa : Nat), RoceInOrder s port q x →
    s.cfg.windowAt q.rkey q.va q.len false = .ok (no, gpa) →
    let t := (s.congestion x q.ce).modQp q.qpn (fun y =>
      { y with hpsn := (y.hpsn + max 1 (ceilDiv q.len (pmtuBytes x.pmtu))) % 2 ^ 24 })
    t.readsOut q.qpn < 16 →
    exec (.rdmaReadRequest port q) s = .next (t.rdmaSend { qpn := q.qpn, psn := q.psn, read := true, window := no, off := q.va } gpa q.len
      (fun _ k => { ptype := 0x02, fields := [k] }))

/-- A request above the expected PSN is answered with NAK PSN Sequence Error and not executed; one that is not supported is
dropped and counted (R536). -/
def roceOutOfOrder : Prop :=
  ∀ (port : Fin 2) (q : RoceReq) (s : State) (x : Qp), (s.eth port).up = true → s.rst.quiet.contains (48 + port) = false →
    (q.unsupported = true → exec (.rdmaWriteReceive port q) s = .next (s.modEth port (fun e => { e with drop := satAdd e.drop 1 })) ∧
      exec (.rdmaReadRequest port q) s = .next (s.modEth port (fun e => { e with drop := satAdd e.drop 1 }))) ∧
    (q.unsupported = false → s.qp? q.qpn = some x → x.port = port → x.state = .rts → x.store = none →
      x.hpsn < q.psn → q.psn < x.hpsn + 2 ^ 23 → q.psn < 2 ^ 24 →
      let t := (s.congestion x q.ce).sendRoce port [(q.qpn, 6, leBytes 4 x.hpsn)]
      exec (.rdmaWriteReceive port q) s = .next t ∧ exec (.rdmaReadRequest port q) s = .next t)

/-- A window gives its GPA where the range lies within it and it permits the access; else its number (R537). -/
def windowAllows : Prop :=
  ∀ (c : Cfg) (rkey va n no perm base len : Nat) (w : Bool),
    c.windows.find? (fun x => x.2.2.1 == rkey) = some (no, perm, rkey, base, len) →
    c.windowAt rkey va n w = if va + n ≤ len ∧ bit perm (b2n w) = true then .ok (no, base + va) else .error no

/-- The requester: an acknowledgement takes the WRITEs through its PSN, a NAK ends what they belong to; those outstanding are sent again
up to 7 times, and then fail. It stays ready (R536, R540). -/
def requesterDoes : Prop :=
  ∀ (s : State) (qpn psn : Nat) (a : RoceAck) (q : Qp), s.requester? qpn = some q →
    (a.nak = false → exec (.roceAckReceive qpn psn a) s = .next ((s.congestion q a.ce).writesAcked q psn)) ∧
    (a.nak = true → exec (.roceAckReceive qpn psn a) s = .next ((s.congestion q a.ce).requesterFails q)) ∧
    (q.out = [] → exec (.roceRetryTimeout qpn) s = .next s) ∧
    (q.out ≠ [] → q.tries < 7 → exec (.roceRetryTimeout qpn) s = .next ((s.modQp qpn (fun q => { q with tries := q.tries + 1 })).sendRoce
      q.port (q.out.map (fun o => (qpn, 5, o.2.2))))) ∧
    (q.out ≠ [] → 7 ≤ q.tries → exec (.roceRetryTimeout qpn) s = .next (s.requesterFails q)) ∧
    ((∀ o ∈ q.out, o.2.1 = 0) → s.writesAcked q psn = s.modQp q.qpn (fun x =>
      { x with tries := 0, out := x.out.filter (fun o => !psnCovers psn o) })) ∧
    (q.out ≠ [] → (∀ o ∈ q.out, o.2.1 = 0) → s.requesterFails q = (s.modQp q.qpn (fun x => { x with out := [], tries := 0 })).storeFailed)

/-- An acknowledgement covers a PSN up to 2^23 before its own and that itself (R536, R540). -/
def psnCoversWindow : Prop :=
  ∀ (psn : Nat) (o : Nat × (Nat × List Byte)), psn < 2 ^ 24 → o.1 < 2 ^ 24 →
    psnCovers psn o = decide (o.1 ≤ psn ∧ psn ≤ o.1 + 2 ^ 23 ∨ psn + 2 ^ 23 ≤ o.1)

/-- A CNP halves the rate where DCQCN is on, the first one at once; the rate returns by 5 Gb/s up to the line rate (R541). -/
def rateDoes : Prop :=
  ∀ (s : State) (qpn : Nat) (q : Qp), s.requester? qpn = some q →
    (s.cfg.qos.getD 4 0 % 2 = 0 → exec (.cnpReceive qpn) s = .next s) ∧
    (s.cfg.qos.getD 4 0 % 2 = 1 → q.cnpIn = false → exec (.cnpReceive qpn) s =
      .next (({ s with free := s.free + 1 }).modQp qpn (fun q => { q with rate := q.rate / 2, cnpIn := true }))) ∧
    exec (.rateRestoreTimer qpn) s = .next (s.modQp qpn (fun x =>
      { x with rate := min (max q.rate (s.eth q.port).lineRate) (q.rate + 5000000) }))

/-- A pause frame pauses its priorities of the two of QOS: what is to leave on one waits until it is paused no more, and then leaves in
order; a frame that is too long, tagged twice or not answered is dropped and counted, one of the others is answered (R520, R541). -/
def framesDo : Prop :=
  ∀ (s : State),
    (∀ (port : Fin 2) (prios : BitVec 8), (s.eth port).up = true → exec (.pauseFrameReceive port prios) s = .next ((s.modEth port (fun e =>
      { e with paused := prios &&& (BitVec.ofNat 8 (2 ^ (s.cfg.qos.getD 0 0)) ||| BitVec.ofNat 8 (2 ^ (s.cfg.qos.getD 1 0))) })).unpause port)) ∧
    (∀ (port prio : Nat) (o : Out),
      ((s.eth port).paused.getLsbD prio = true → (s.sendEth port prio o).out = s.out ∧
        ((s.sendEth port prio o).eth port).held = (s.eth port).held ++ [(prio, o)]) ∧
      ((s.eth port).paused.getLsbD prio = false → s.sendEth port prio o = { s with out := o :: s.out })) ∧
    (∀ port : Nat, ((s.unpause port).eth port).held = (s.eth port).held.filter (fun h => (s.eth port).paused.getLsbD h.1) ∧
      (s.unpause port).out = (((s.eth port).held.filter (fun h => !(s.eth port).paused.getLsbD h.1)).map Prod.snd).reverse ++ s.out) ∧
    (∀ (port : Fin 3) (f : NbrFrame), (s.eth port).up = true →
      (9216 < f.len ∨ 1 < f.tags ∨ frameReply f.kind = none → exec (.neighbourFrame port f) s =
        .next (s.modEth port (fun e => { e with drop := satAdd e.drop 1 }))) ∧
      (∀ k, f.len ≤ 9216 → f.tags ≤ 1 → frameReply f.kind = some k → ∃ w, exec (.neighbourFrame port f) s = .next (s.emit (.frame w k)) ∧
        w.port = port ∧ w.mac = s.mac port ∧ w.vlan = (s.wire port 0).vlan ∧ (w.ect = true → k ≠ 0)))

/-- ETH_LINK: a port comes up in a mode that it has from stage 7 on, in recovery mode the loader's port in its mode, or goes down; either is
logged once the management firmware runs (R519, R545, R546, R559, R584). -/
def ethLinkDoes : Prop :=
  ∀ (port : Fin 3) (mode : Nat) (s : State), s.pwr.off = false →
    let told (t : State) (m up : Nat) : State := if s.fwUp then t.log 0x4201 [.eth port, .val 1 m, .val 1 up] else t
    let up := s.modEth port (fun e => { e with up := true, mode := BitVec.ofNat 3 mode })
    ((s.eth port).up = false → s.rst.recovery = false → 7 ≤ s.rst.stage → s.cfg.modeOk port mode = true →
      exec (.ethLink port true mode) s = .next (told up mode 1)) ∧
    ((s.eth port).up = false → s.rst.recovery = true → s.loaderPort = (port.val, mode) →
      exec (.ethLink port true mode) s = .next (told up mode 1)) ∧
    (s.rst.recovery = true → s.loaderPort ≠ (port.val, mode) → exec (.ethLink port true mode) s = .next s) ∧
    ((s.eth port).up = true → exec (.ethLink port false mode) s = .next (told (s.modEth port (fun e =>
      { e with up := false, mode := 0 })) (s.eth port).mode.toNat 0))

/-- PTP: a Sync of the clock's port, transport and domain, and of a master that takes two steps its Follow_Up, is followed by a Delay_Req; the
Delay_Resp to that completes the exchange. A message of another port, transport or domain does nothing; without its master the clock goes on
(R521, R543, R544). -/
def ptpDoes : Prop :=
  ∀ (port : Fin 3) (m : PtpMsg) (time : BitVec 63) (s : State), (s.eth port).up = true → s.pwr.off = false →
    let x := s.stamp
    let heard (t : Option (BitVec 63)) (at_ : BitVec 63) : State := { x.2 with ptp := { x.2.ptp with sync := some (m.seq, at_, t) } }
    (s.cfg.ptpCfg ≠ [port.val, m.domain, m.transport] → exec (.ptpMessageReceive port m time) s = .next s) ∧
    (s.cfg.ptpCfg = [port.val, m.domain, m.transport] →
      (m.kind = 0 → exec (.ptpMessageReceive port m time) s = .next (heard (some time) x.1).sendDelayReq) ∧
      (m.kind = 1 → exec (.ptpMessageReceive port m time) s = .next (heard none x.1)) ∧
      (∀ t2, m.kind = 2 → s.ptp.sync = some (m.seq, t2, none) → exec (.ptpMessageReceive port m time) s = .next (heard (some time) t2).sendDelayReq) ∧
      (∀ n t1 t2 t3, m.kind = 3 → s.ptp.sync = some (n, t2, some t1) → s.ptp.req = some (m.seq, t3) →
        exec (.ptpMessageReceive port m time) s = .next (x.2.ptpSet (ptpOffset t1 t2 t3 time))))

/-- The end of an exchange sets the clock by its offset, half of what the way to the clock takes more than the way back, which OFFSET shows;
the first lock clears bit 63, and the change of lock is logged; without its master the clock goes on (R543 to R545). That every exchange
sets the clock at once, with a correction of zero, is the model's choice (log entry 76). -/
def ptpLocks : Prop :=
  ∀ (s : State) (off : BitVec 63),
    (∃ t : State, (s.ptp.locked = true → s.ptpSet off = t) ∧ (s.ptp.locked = false → s.ptpSet off = t.log 0x4401 [.val 1 1, .val 4 t.ptp.offset.toNat]) ∧
      t.ptp.everLock = true ∧ t.ptp.locked = true ∧ t.ptp.base = s.ptp.base - off ∧ t.ptp.offset = off.setWidth 32 ∧ t = { s with ptp := t.ptp }) ∧
    (∀ t1 t3 d u : BitVec 63, d.toNat < 2 ^ 61 ∨ 2 ^ 63 ≤ d.toNat + 2 ^ 61 → ptpOffset t1 (t1 + u + d) t3 (t3 - d + u) = d) ∧
    (s.ptp.locked = true → exec .ptpMasterLoss s =
      .next (({ s with ptp := { s.ptp with locked := false } }).log 0x4401 [.val 1 0, .val 4 s.ptp.offset.toNat]))

/-! Resets, bring-up, the supply, hot-plug and the power states. -/

/-- A cause bit set beside those already there. -/
def causeWith (s : State) (k : Nat) : BitVec 12 := s.rst.cause ||| BitVec.ofNat 12 (2 ^ k)

/-- What every reset class but C and B keeps: the always-on domain with the backup registers, the boot count and what the straps'
pins carry, the fuses and the owner, and the free values of the model (R557, R569). -/
def KeptByAll (s t : State) : Prop :=
  t.rst.bkup = s.rst.bkup ∧ t.rst.bcount = s.rst.bcount ∧ t.rst.journal = s.rst.journal ∧ t.rst.rmemOk = s.rst.rmemOk ∧
    t.rst.lastFail = s.rst.lastFail ∧ t.mgmt.fuse = s.mgmt.fuse ∧ t.mgmt.own0 = s.mgmt.own0 ∧ t.mgmt.own1 = s.mgmt.own1 ∧
    t.mgmt.image = s.mgmt.image

/-- A W reset sets its cause bit and clears none, goes to stage 3, and clears the cores' stores and registers and every slice; each
stack is in self-refresh; a cell keeps its identity, its configuration and its step number; the armature in force, the supply's
readings and what every reset keeps stay (R548, R550, R552, R569; the stores are zeroed: log entry 34). -/
def warmLeaves : Prop :=
  ∀ (s : State) (cause : Nat), tabWf {} s.cores = true → let t := s.startWarm cause
    t.rst.cause = causeWith s cause ∧ t.rst.stage = 3 ∧ t.rst.cls = RstCls.w ∧ t.rst.active = false ∧ KeptByAll s t ∧
    (∀ n, (t.core n).store = [] ∧ (t.core n).treg = [] ∧ (t.core n).arrays = [] ∧ (t.core n).inflight = [] ∧
      (t.core n).vmax = (s.core n).vmax ∧ (t.core n).temp = (s.core n).temp) ∧
    (∀ k ∈ cellIds, (t.cell k).step = (s.cell k).step ∧ (t.cell k).mask = (s.cell k).mask ∧ (t.cell k).seed = (s.cell k).seed ∧ (t.cell k).tick = 0 ∧
      (s.cell k ≠ {} → (t.cell k).budget = 0x7D0)) ∧
    (∀ p, p < 20 → (t.plinth p).slice = [] ∧ (t.plinth p).selfRef = true ∧ (s.mediaErr = [] → (t.plinth p).ue = (s.plinth p).ue) ∧
      (t.plinth p).rate = (s.plinth p).rate) ∧
    t.arm.inForce = s.arm.inForce ∧ t.pwr.vin = s.pwr.vin ∧ t.pwr.vmin = s.pwr.vmin ∧ t.rst.recovery = s.rst.recovery ∧
    t.exp.fifo = [] ∧ t.exp.stale = s.exp.stale

/-- A cell finds its tokens, its decisions and its resident lines gone, and an image being written becomes invalid; one that lies
finished in HBM stays (R110, R484, R487). -/
def warmImages : Prop :=
  ∀ (s : State) (k : Nat), k ∈ cellIds → ((s.cell k).ctx = 2 → ((s.startWarm 9).cell k).img = none) ∧
    ((s.cell k).ctx ≠ 2 → ((s.startWarm 9).cell k).img.isSome = (s.cell k).img.isSome)

/-- An M reset sets its cause bit and clears none, goes to stage 1 and leaves no core, cell, HBM, link, armature or session; the
record of a trip, the persisted copies, the flash generations and what every reset keeps stay (R548, R569, R619). -/
def moduleLeaves : Prop :=
  ∀ (s : State) (cause : Nat), tabWf {} s.ports = true → let t := s.startModule cause
    t.rst.cause = causeWith s cause ∧ t.rst.stage = 1 ∧ t.rst.cls = RstCls.m ∧ t.rst.bqto = 0x64 ∧ KeptByAll s t ∧
    t.hbm = [] ∧ t.hbmPois = [] ∧ t.cells = [] ∧ t.eths = [] ∧ t.cfg = {} ∧ t.arm.inForce = none ∧
    (∀ n, (t.core n).store = [] ∧ (t.core n).inflight = []) ∧
    (∀ i, (t.port i).quars = (s.port i).quars ∧ (t.port i).state = PortSt.off) ∧
    t.rst.tripKind = s.rst.tripKind ∧ t.rst.tripTemp = s.rst.tripTemp ∧ t.rst.tripPend = s.rst.tripPend ∧
    t.arm.copy0 = s.arm.copy0 ∧ t.arm.copy1 = s.arm.copy1 ∧ t.snp.gen0 = s.snp.gen0 ∧ t.snp.gen1 = s.snp.gen1 ∧
    t.evt.seen = 0 ∧ t.hst.sessions = [] ∧ t.pwr.off = s.pwr.off ∧ t.pwr.supwarn = s.pwr.supwarn

/-- A P reset clears every cause bit and sets bit 0; it clears what an M reset clears, the record of a trip, and the supply's
readings; the event log and what every reset keeps stay (R544, R548, R569, R570, R605). -/
def powerLeaves : Prop :=
  ∀ s : State, let t := s.startPower
    t.rst.cause = 1 ∧ t.rst.stage = 1 ∧ t.rst.cls = RstCls.p ∧ KeptByAll s t ∧
    t.hbm = [] ∧ t.cells = [] ∧ t.eths = [] ∧ t.arm.inForce = none ∧ t.hst.sessions = [] ∧
    t.rst.tripKind = 0 ∧ t.rst.tripInst = 0 ∧ t.rst.tripTemp = 0 ∧ t.rst.tripPend = false ∧
    t.pwr.vmin = 0xFFFF ∧ t.pwr.supwarn = false ∧ t.ptp = {} ∧ t.evt.recs = s.evt.recs ∧ t.evt.next = s.evt.next ∧
    t.arm.copy0 = s.arm.copy0 ∧ t.arm.copy1 = s.arm.copy1

/-- The P triggers: power-up of the always-on domain and the reset level, with the main rails off; below the always-on level the
backup registers read 0 and the retained memory is invalid (R547, R557, R560). -/
def powerTriggers : Prop :=
  ∀ s : State,
    (∃ t, exec .aonPowerUp s = .next t ∧ t.rst = s.startPower.rst ∧ t.hbm = [] ∧ t.pwr.rails = false ∧ t.pwr.pwrgd = false ∧
      t.pwr.off = !s.pwr.en) ∧
    (∃ t, exec .supplyResetLevel s = .next t ∧ t.rst = s.startPower.rst ∧ t.hbm = [] ∧ t.pwr.rails = false ∧ t.pwr.pwrgd = false ∧
      t.pwr.state = PwrSt.active ∧ t.pwr.rphase = 0) ∧
    (∃ t, exec .aonLevelLoss s = .next t ∧ t.rst.cause = 1 ∧ t.rst.bkup = [] ∧ t.rst.rmem = [] ∧ t.rst.rmemOk = false ∧ t.evt.recs = [] ∧
      t.pwr.rails = false ∧ t.pwr.off = true)

/-- The M triggers with their cause bits: MRST_N low for 1 us or longer (2), the watchdog (4), a thermal trip (5), the boot timeout (6),
too high an input (8); the trip and the input turn the main rails off (R547, R548, R558, R560, R573, R618). -/
def moduleTriggers : Prop :=
  ∀ s : State,
    (∀ us : Nat, (1 ≤ us → s.pwr.state ≠ PwrSt.removing → exec (.mrstAssert us) s = .next (s.startModule 2)) ∧
      (us = 0 ∨ s.pwr.state = PwrSt.removing → exec (.mrstAssert us) s = .next s)) ∧
    (s.pwr.off = false → s.rst.recovery = false ∨ s.mgmt.halted = true → exec .watchdogExpiry s = .next (s.startModule 4)) ∧
    (s.pwr.off = false → exec .sramUe s = .next { s with mgmt := { s.mgmt with halted := true } }) ∧
    (s.rst.stage ≠ 8 → s.rst.stage ≠ 1 → s.rst.cls ≠ RstCls.w → s.rst.recovery = false → s.pwr.supwarn = false → s.pwr.off = false →
      ∃ t, exec .bootTimeout s = .next t ∧ t.rst.cause = causeWith s 6 ∧ t.rst.stage = 1 ∧ t.hbm = []) ∧
    (∃ t, exec .overVoltage s = .next t ∧ t.rst.cause = causeWith s 8 ∧ t.rst.stage = 1 ∧ t.hbm = [] ∧ t.pwr.rails = false ∧
      t.pwr.pwrgd = false ∧ t.pwr.ovHold = true) ∧
    (s.pwr.ovHold = true → exec .overVoltageClear s = .next { s with pwr := { s.pwr with
      ovHold := false, rails := !s.pwr.off && !s.pwr.tripHold } })

/-- THERMAL_TRIP: of the sensors at their level the lowest kind, then the lowest instance, is latched with PEND; the M reset has
cause bit 5, the main rails and PWRGD go off, and come back only when the trip's time and temperature allow (R618, R619). -/
def thermalTripDoes : Prop :=
  ∀ (readings : List TripReading) (s : State),
    (∀ r ∈ readings, tripLevel r.kind ≤ r.temp → r.inst < tripSensors r.kind → r.kind < 8 → r.inst < 256 → r.temp < 256 →
      (∀ x ∈ readings, tripLevel x.kind ≤ x.temp → x.inst < tripSensors x.kind →
        x ≠ r → r.kind < x.kind ∨ (r.kind = x.kind ∧ r.inst < x.inst)) → s.pwr.off = false →
      ∃ t, exec (.thermalTrip readings) s = .next t ∧ t.rst.cause = causeWith s 5 ∧ t.rst.stage = 1 ∧ t.rst.tripKind.toNat = r.kind ∧
        t.rst.tripInst.toNat = r.inst ∧ t.rst.tripTemp.toNat = r.temp ∧ t.rst.tripPend = true ∧ t.pwr.rails = false ∧
        t.pwr.pwrgd = false ∧ t.pwr.tripHold = true) ∧
    ((∀ x ∈ readings, x.temp < tripLevel x.kind) → exec (.thermalTrip readings) s = .next s) ∧
    (s.pwr.tripHold = true → s.pwr.off = false → s.pwr.ovHold = false → ∃ t, exec .thermalTripRailRestore s = .next t ∧
      t.pwr.tripHold = false ∧ t.pwr.rails = true ∧ t.pwr.pwrgd = true ∧ t.rst = s.rst)

/-- Stage 1: the straps are sampled, and the boot count goes up by one in both places, or at 3 selects recovery mode; an absent
reference that is selected holds the stage, and the attempt counts (R556, R558, R559). -/
def stageOneDoes : Prop :=
  ∀ (ext : Bool) (fail : Option Nat) (s : State), s.pwr.supwarn = false → s.pwr.state ≠ PwrSt.removing → s.rst.stage = 1 →
    s.rst.counted = false →
    ∃ t, exec (.resetStageDone ext fail) s = .next t ∧
      t.rst.bootSrc = s.rst.pinBoot ∧ t.rst.clkMode = s.rst.pinClk ∧ t.rst.ovr = s.rst.pinOvr ∧ t.rst.journal = t.rst.bcount ∧
      (let count := if s.rst.rmemOk then s.rst.bcount else s.rst.journal
       (count = 3 → t.rst.bcount = 3 ∧ t.rst.recovery = true) ∧ (count ≠ 3 → t.rst.bcount = count + 1)) ∧
      (s.rst.pinBoot ≠ 0 → t.rst.recovery = true) ∧
      (ext = false → s.rst.pinClk = 0 ∨ s.rst.pinClk = 2 → t.rst.stage = 1) ∧
      (ext = true ∨ (s.rst.pinClk ≠ 0 ∧ s.rst.pinClk ≠ 2) → t.rst.stage = 2) ∧ t.rst.cause = s.rst.cause

/-- Stage 2: in recovery mode nothing follows, and RECOVERY_MODE is logged; with an image that runs stage 3 follows. A stage that
completes is followed by the next one, a unit that fails stops the sequence, and at OPERATIONAL the boot count is 0 in both places
(R550, R551, R558, R559). -/
def stagesDo : Prop :=
  ∀ (ext : Bool) (s : State), s.pwr.supwarn = false → s.pwr.state ≠ PwrSt.removing →
    (∀ fail, s.rst.stage = 2 → s.pwr.railsMay = true → s.mgmt.halted = false →
      ∃ t, exec (.resetStageDone ext fail) s = .next t ∧ t.pwr.rails = true ∧ t.pwr.pwrgd = true ∧
        (s.rst.recovery = true ∨ s.imageRuns = false → t.rst.stage = 0 ∧ t.rst.recovery = true) ∧
        (s.rst.recovery = false → s.imageRuns = true → t.rst.stage = 3 ∧ t.rst.tripPend = false)) ∧
    (s.pwr.rails = true → s.mgmt.halted = false →
      (s.rst.stage = 3 → ∃ t, exec (.resetStageDone ext none) s = .next t ∧ t.rst.stage = 4 ∧
        ∀ p, p < 20 → (t.plinth p).trained = true ∧ (t.plinth p).selfRef = false) ∧
      (s.rst.stage = 3 → ∀ st, s.rst.cls = RstCls.w ∨ s.rst.retried = true ∨ 20 ≤ st →
        exec (.resetStageDone ext (some st)) s = .next (s.stageFail st)) ∧
      (s.rst.stage = 3 → ∀ st, s.rst.cls ≠ RstCls.w → s.rst.retried = false → st < 20 →
        ∃ t, exec (.resetStageDone ext (some st)) s = .next t ∧ t.rst.stage = 3 ∧ t.rst.retried = true) ∧
      (s.rst.stage = 4 ∨ s.rst.stage = 6 → exec (.resetStageDone ext none) s =
        .next { s with rst := { s.rst with stage := s.rst.stage + 1 } }) ∧
      (s.rst.stage = 5 → ¬ (s.rst.cls = RstCls.w ∧ s.rst.modeApply = true) →
        ∃ t, exec (.resetStageDone ext none) s = .next t ∧ t.rst.stage = 6) ∧
      (4 ≤ s.rst.stage → s.rst.stage ≤ 7 → ∀ u, exec (.resetStageDone ext (some u)) s = .next (s.stageFail u)) ∧
      (s.rst.stage = 7 → ∃ t, exec (.resetStageDone ext none) s = .next t ∧ t.rst.stage = 8 ∧ t.rst.bcount = 0 ∧ t.rst.journal = 0 ∧
        (∀ k ∈ cellIds, (s.cell k).exists_ = true → (t.cell k).holds.warm = false) ∧
        t.mgmt.fuse.toNat = if s.mgmt.svnRun.toNat ≤ 64 then max s.mgmt.fuse.toNat s.mgmt.svnRun.toNat else s.mgmt.fuse.toNat)) ∧
    (∀ cause, s.rst.stage ≠ 0 → s.rst.stage ≠ 8 → s.pwr.off = false →
      exec (.resetStageTimeout cause) s = .next (s.stageFail cause))

/-- A stage that fails stops the sequence at itself, with BOOT_STAGE_FAIL; during a supply warning the sequence waits (R551, R563). -/
def stageFails : Prop :=
  (∀ (s : State) (cause : Nat), (s.stageFail cause).rst.stage = 0 ∧ (s.stageFail cause).rst.lastFail = BitVec.ofNat 3 s.rst.stage ∧
    (s.stageFail cause).rst.cause = s.rst.cause ∧
    ∃ unit : Nat, (s.stageFail cause).evt = (s.log 0x7201 [.val 1 s.rst.stage, .val 1 unit]).evt) ∧
  (∀ (s : State) (ext : Bool) (fail : Option Nat) (cause : Nat), s.pwr.supwarn = true →
    exec (.resetStageDone ext fail) s = .next s ∧ exec (.resetStageTimeout cause) s = .next s)

/-- A block reset: a core of a cell resets its cell under class C; any other block is asked to go idle, beside those that reset; at the
end of its waiting the block is reset and BLOCK_RESET tells the requests left (R553 to R555). -/
def blockResetDoes : Prop :=
  ∀ (s : State) (block : BitVec 8),
    (blockCode block.toNat = true → s.operational = true → block.toNat ∉ s.rst.quiet →
      (∀ k, 64 ≤ block.toNat → s.cellOf (block.toNat - 64) = some k → exec (.blockResetRequest block) s =
        .next ((s.commandReset k).log 0x6107 [.core (block.toNat - 64), .val 4 0])) ∧
      (block.toNat < 64 ∨ s.cellOf (block.toNat - 64) = none → exec (.blockResetRequest block) s = .next { s with rst := { s.rst with
        lastBlk := block, active := true, timedOut := false, poisoned := 0, quiet := s.rst.quiet ++ [block.toNat] } })) ∧
    (s.operational = false → exec (.blockResetRequest block) s = .next s) ∧
    (block.toNat ∉ s.rst.quiet → ∀ idle n, exec (.blockQuiesceEnd block idle n) s = .next s) ∧
    (block.toNat ∈ s.rst.quiet → ∀ (idle : Bool) (n : Nat),
      let left := s.rst.quiet.filter (fun x => decide (x ≠ block.toNat))
      ∃ t : State, exec (.blockQuiesceEnd block idle n) s = .next (t.log 0x6107 [blockField block.toNat, .val 4 (if idle then 0 else n)]) ∧
        t.rst = { s.rst with quiet := left, lastBlk := block, active := decide (left ≠ []), timedOut := !idle,
                             poisoned := satAdd 0 (if idle then 0 else n) }) ∧
    (block.toNat < 20 → block.toNat ∈ s.rst.quiet →
      let u := s.resetPlinth block.toNat false
      (u.plinth block.toNat).slice = [] ∧ (u.plinth block.toNat).queue = [] ∧ (∀ j, j ≠ block.toNat → u.plinth j = s.plinth j) ∧ u.hbm = s.hbm ∧
      (∀ l ∈ (s.plinth block.toNat).slice, l.dirty = true → psHas u.hbmPois (l.addr / 64) = true) ∧
      (∀ n, ∃ t, exec (.blockQuiesceEnd block false n) s = .next t ∧ t.cfg = s.cfg ∧ t.gal = s.gal ∧ t.snp = s.snp) ∧
      ∃ t, exec (.blockQuiesceEnd block false 0) s = .next t ∧ t.plinths = u.plinths ∧ t.hbm = u.hbm ∧ t.hbmPois = u.hbmPois) ∧
    (64 ≤ block.toNat → block.toNat ∈ s.rst.quiet → ∀ idle n, ∃ t, exec (.blockQuiesceEnd block idle n) s = .next t ∧
      (t.core (block.toNat - 64)).store = [] ∧ (t.core (block.toNat - 64)).treg = [] ∧ (t.core (block.toNat - 64)).mvu = [] ∧
      (tabWf {} (s.core (block.toNat - 64)).arrays = true → ∀ a, (t.core (block.toNat - 64)).arr a =
        { front := ((s.core (block.toNat - 64)).arr a).front, back := ((s.core (block.toNat - 64)).arr a).back }) ∧
      ∀ j, j ≠ block.toNat - 64 → t.core j = s.core j)

/-- The supply warning: every cell holds and every core's clock is halved; a further fall is a reading. After 50 us above the
recovery level both end, every cell enters heightened pointing and SUPPLY_WARN has the duration and the lowest input (R561, R562). -/
def supplyDoes : Prop :=
  ∀ s : State,
    (∀ vin : BitVec 16, vin.toNat < 3850 → s.pwr.supwarn = false → ∃ t, exec (.supplyWarning vin) s = .next t ∧
      t.pwr.supwarn = true ∧ t.pwr.vin = vin ∧ t.pwr.vmin = vLow s.pwr.vmin vin ∧ t.pwr.warnMin = vin ∧
      t.pwr.warns = satAdd s.pwr.warns 1 ∧ (∀ k ∈ cellIds, s.cell k ≠ {} → (t.cell k).holds.supply = true) ∧
      (∀ n ∈ coreIds, (t.core n).halved = true) ∧ t.hbm = s.hbm ∧ t.ports = s.ports ∧ t.eths = s.eths) ∧
    (∀ vin : BitVec 16, vin.toNat < 3850 → s.pwr.supwarn = true → exec (.supplyWarning vin) s = .next { s with pwr := s.pwr.read vin }) ∧
    (∀ vin : BitVec 16, vin.toNat < 3950 → s.pwr.supwarn = true → exec (.vinBelowRecovery vin) s = .next { s with pwr := s.pwr.read vin }) ∧
    (∀ us : Nat, s.pwr.supwarn = true → ∃ t : State, exec (.supplyRecoveryTimer us) s =
        .next (t.log 0x6101 [.val 4 us, .val 2 s.pwr.warnMin.toNat]) ∧
      t.pwr.supwarn = false ∧ (∀ k, (t.cell k).holds.supply = false ∨ k ∉ cellIds) ∧ (∀ n ∈ coreIds, (t.core n).halved = false) ∧
      t.hbm = s.hbm ∧ (∀ n, (t.core n).store = (s.core n).store) ∧ (∀ k, (t.cell k).step = (s.cell k).step)) ∧
    exec .pwrVminclr s = .next { s with pwr := { s.pwr with vmin := 0xFFFF } }

/-- Insertion: the contacts, the hold-off of EN, then an M reset with cause bit 1 and the rails on; rails not in regulation in time go
off, with PWR_FAIL (R564, R567). -/
def insertionDoes : Prop :=
  ∀ s : State,
    (s.pwr.prsnt1 = false → exec .presenceDetect s = .next { s with pwr := { s.pwr with prsnt0 := true, prsnt1 := true, holdoff := true } }) ∧
    (s.pwr.en = false → s.pwr.state ≠ PwrSt.removing → s.pwr.holdoff = false → s.pwr.prsnt1 = true → s.pwr.off = true →
      exec .enAssert s = .next ({ s with pwr := { s.pwr with en := true } } : State).insert) ∧
    (s.pwr.en = false → s.pwr.state = PwrSt.removing → exec .enAssert s = .next { s with pwr := { s.pwr with en := true, reinsert := true } }) ∧
    (s.pwr.en = false → s.pwr.state ≠ PwrSt.removing → s.pwr.holdoff = true → exec .enAssert s = .next { s with pwr := { s.pwr with en := true } }) ∧
    (s.pwr.holdoff = true → s.pwr.en = true → s.pwr.off = true → exec .enHoldoffExpiry s =
      .next ({ s with pwr := { s.pwr with holdoff := false } } : State).insert) ∧
    (s.pwr.holdoff = true → s.pwr.en = false → exec .enHoldoffExpiry s = .next { s with pwr := { s.pwr with holdoff := false } }) ∧
    (s.pwr.reinsert = true → s.pwr.en = true → s.pwr.off = true → exec .enReinsertDelay s = .next s.insert) ∧
    (s.insert.rst.cause = causeWith s 1 ∧ s.insert.rst.stage = 1 ∧ s.insert.pwr.off = false ∧
      (s.pwr.ovHold = false → s.pwr.tripHold = false → s.insert.pwr.rails = true)) ∧
    (s.pwr.rails = true → s.pwr.pwrgd = false → ∃ (t : State) (rails : Nat), exec .pwrgdTimeout s = .next (t.log 0x6104 [.val 4 rails]) ∧
      rails < 2 ^ 24 ∧ t.pwr.rails = false ∧ t.pwr.off = true ∧ t.rst = s.rst)

/-- Removal: EN falling begins the first phase whose units have been released; a phase that is over, or the flush at its limit, is
followed by the next; the last one turns the rails off. A surprise turns them off at once (R565 to R567). -/
def removalDoes : Prop :=
  ∀ s : State,
    (s.pwr.en = true → s.pwr.off = false → s.pwr.state ≠ PwrSt.removing → ∃ (t : State) (old : Nat), exec .enDeassert s =
        .next (t.enterPhase (s.rst.phaseAfter 0) 0) ∧ t.pwr.state = PwrSt.removing ∧ t.pwr.en = false ∧
        t = ({ s with pwr := { s.pwr with en := false, reinsert := false, state := .removing, standbyIn := false } } : State).log 0x6102
          [.val 1 old, .val 1 3]) ∧
    (∀ ms : Nat, s.pwr.state = PwrSt.removing → s.phaseOver = true → exec (.removalPhaseDone ms) s =
      .next (s.enterPhase (s.rst.phaseAfter s.pwr.rphase) ms)) ∧
    (s.pwr.state = PwrSt.removing → s.pwr.rphase = 2 → exec .removalFlushTimeout s =
      .next ((s.log 0x6106 [.val 4 s.exp.fifo.length]).enterPhase (s.rst.phaseAfter 2) 0)) ∧
    (∀ ms : Nat, (s.enterPhase 5 ms).pwr.rails = false ∧ (s.enterPhase 5 ms).pwr.off = true ∧ (s.enterPhase 5 ms).pwr.state = PwrSt.active ∧
      (∀ x ∈ (s.enterPhase 4 ms).hst.sessions, 3 ≤ x.port) ∧ (s.enterPhase 4 ms).pwr.rphase = 4 ∧
      ∀ i, i < 8 → (s.port i).state = PortSt.up → ((s.enterPhase 3 ms).port i).state = PortSt.draining) ∧
    (∃ t input, exec .surpriseRemoval s = .next t ∧ t.pwr.rails = false ∧ t.pwr.pwrgd = false ∧
      t.pwr.off = true ∧ t.hbm = [] ∧ t.cells = [] ∧ KeptByAll s t ∧ t.evt.recs = s.evt.recs ∧ t.pwr.en = s.pwr.en ∧
      t.pwr.prsnt0 = s.pwr.prsnt0 ∧ t.pwr.prsnt1 = (s.pwr.prsnt1 && input) ∧ (s.pwr.en = false → input = true))

/-- The power states: IDLE when no cell is in the ACTIVE condition; STANDBY asked for, refused while one is, entered with slices
empty and stacks in self-refresh, and left through a W reset with cause bit 11 (R547, R568). -/
def powerStatesDo : Prop :=
  ∀ s : State,
    (s.operational = true → s.pwr.state = PwrSt.active → s.activeCells = 0 → exec .idleEntry s =
      .next (({ s with pwr := { s.pwr with state := .idle } } : State).log 0x6102 [.val 1 0, .val 1 1])) ∧
    (s.pwr.off = false → s.rst.stage = 8 → s.pwr.state ≠ PwrSt.removing →
      (s.pwr.state ≠ PwrSt.standby → s.pwr.standbyIn = false → 0 < s.activeCells →
        exec (.pwrTarget true) s = .next (s.log 0x6103 [.val 4 s.activeCells])) ∧
      (s.pwr.state ≠ PwrSt.standby → s.pwr.standbyIn = false → s.activeCells = 0 → exec (.pwrTarget true) s =
        .next { s with pwr := { s.pwr with target := true, standbyIn := true } }) ∧
      (s.pwr.state = PwrSt.standby ∨ s.pwr.standbyIn = true → exec (.pwrTarget true) s = .next s) ∧
      (s.pwr.state = PwrSt.standby → exec (.pwrTarget false) s = .next ((({ s with pwr := { s.pwr with
        target := false, standbyIn := false, state := .active } } : State).log 0x6102 [.val 1 2, .val 1 0]).startWarm 11)) ∧
      (s.pwr.state ≠ PwrSt.standby → exec (.pwrTarget false) s = .next { s with pwr := { s.pwr with target := false, standbyIn := false } })) ∧
    (s.pwr.standbyIn = true → s.activeCells = 0 → ∃ (t : State) (old : Nat), exec .standbyEntered s = .next (t.log 0x6102 [.val 1 old, .val 1 2]) ∧
      t.pwr.state = PwrSt.standby ∧ t.pwr.standbyIn = false ∧ (∀ p, p < 20 → (t.plinth p).slice = [] ∧ (t.plinth p).selfRef = true) ∧
      (t.eth 0).up = false ∧ (t.eth 1).up = false ∧ (t.eth 2).up = (s.eth 2).up) ∧
    (s.pwr.standbyIn = true → 0 < s.activeCells → exec .standbyEntered s = .next (s.endTarget.log 0x6103 [.val 4 s.activeCells])) ∧
    (s.rst.pllOsc = false → s.rst.clkMode = 0 ∨ s.rst.clkMode = 2 → s.pwr.off = false → exec .refclkFail s =
      .next { s with rst := { s.rst with pllOsc := true, refok := false } })

/-! The management: sensors, firmware, ownership, surveys, the recovery loader, the log and the Patina. -/

/-- A core goes above its limit or comes back below: it is hot or not, every core's throttle follows its cell's hot islands and the
power limit, and a core that slows no more is back at its plan (R576). -/
def coreHeatDoes : Prop :=
  ∀ (core : Fin 48) (temp : Int) (s : State), s.pwr.off = false →
    (100 ≤ temp → (s.core core).hot = false → ∃ t : State, exec (.coreOvertemp core temp) s =
        .next (t.log 0x6201 [.core core, .val 2 (sNat 16 temp), .val 1 1]) ∧
      (t.core core).hot = true ∧ (∀ n ∈ coreIds, n ≠ core.val → (t.core n).hot = (s.core n).hot) ∧
      (∀ k, s.cellOf core = some k → t = ((s.modCore core (fun co => co.overheated temp)).rethrottle).startHeighten k 3)) ∧
    (temp ≤ 95 → (s.core core).hot = true → ∃ t : State, exec (.coreCooldown core temp) s =
        .next (t.log 0x6201 [.core core, .val 2 (sNat 16 temp), .val 1 0]) ∧
      (t.core core).hot = false ∧ (∀ n ∈ coreIds, n ≠ core.val → (t.core n).hot = (s.core n).hot) ∧
      t.cells = s.cells ∧ t.hbm = s.hbm) ∧
    (temp < 100 → exec (.coreOvertemp core temp) s = .next s) ∧ (95 < temp → exec (.coreCooldown core temp) s = .next s)

/-- Throttle brought up to date: a core slows exactly where its cell has a hot island or the module is above its power limit (R576). -/
def rethrottleDoes : Prop :=
  ∀ (s : State) (n : Nat), n ∈ coreIds →
    (s.rethrottle.core n).throttle = s.slows n ∧ (s.slows n = false → (s.rethrottle.core n).slow = 0) ∧
      (s.slows n = true → (s.rethrottle.core n).slow = (s.core n).slow) ∧ (s.rethrottle.core n).hot = (s.core n).hot

/-- A millisecond of slowing takes 25 MHz off every island that slows, and off no other (R576). -/
def throttleStepDoes : Prop :=
  ∀ s : State, ∃ t, exec .throttleStep s = .next t ∧ (∀ n ∈ coreIds, (s.slows n = true →
      (t.core n).slow = min (s.core n).planFreq.toNat ((s.core n).slow + 25)) ∧ (s.slows n = false → t.core n = s.core n)) ∧
    t.cells = s.cells ∧ t.hbm = s.hbm ∧ t.evt = s.evt

/-- The module above its power limit, and back below it; the coolant's alarm (R575, R576). -/
def powerDoes : Prop :=
  ∀ s : State, s.pwr.off = false →
    (∀ w, 3200 < w → s.pwr.throttle = false → exec (.powerOverLimit w) s =
      .next ((({ s with pwr := { s.pwr with throttle := true } } : State).rethrottle).log 0x6203 [.val 2 w, .val 1 1])) ∧
    (∀ w, w ≤ 3200 → exec (.powerOverLimit w) s = .next s) ∧
    (∀ w, w ≤ 3100 → s.pwr.throttle = true → exec (.powerThrottleEnd w) s =
      .next ((({ s with pwr := { s.pwr with throttle := false } } : State).rethrottle).log 0x6203 [.val 2 w, .val 1 0])) ∧
    (∀ w, 3100 < w → exec (.powerThrottleEnd w) s = .next s) ∧
    (∀ (inlet : Int) (flow : Nat), 40 < inlet ∨ flow < 120 → exec (.coolantAlarm inlet flow) s =
      .next (s.log 0x6204 [.val 2 (sNat 16 inlet), .val 2 flow]))

/-- Firmware update: the staging area emptied, the image verified or refused with its reason, installed from VERIFIED only, and read
back (R581 to R583, R599, R600). -/
def firmwareDoes : Prop :=
  ∀ s : State, s.fwUp = true →
    (s.mgmt.fwState ≠ .installing → exec .fwBegin s = .next { s with mgmt := { s.mgmt with
      stageB := [], fwState := .staging, fwReason := 0, svnStaged := 0 } }) ∧
    (s.mgmt.fwState = .installing → exec .fwBegin s = .next s) ∧
    (s.mgmt.fwState = .staging → let img := fwStaged s.mgmt.stageB
      (verifyFw img s.mgmt.fuse.toNat false = 0 → exec .fwVerify s = .next (({ s with mgmt := { s.mgmt with
        fwState := .verified, svnStaged := BitVec.ofNat 8 (byteAt img 6) } } : State).log 0x7301 [.val 1 (byteAt img 6), .val 4 img.length])) ∧
      (∀ r, r ≠ 0 → verifyFw img s.mgmt.fuse.toNat false = r → exec .fwVerify s = .next (({ s with mgmt := { s.mgmt with
        fwState := .failed, fwReason := BitVec.ofNat 5 r } } : State).log 0x7302 [.val 1 r]))) ∧
    (s.mgmt.fwState = .verified → exec .fwInstall s = .next { s with mgmt := { s.mgmt with fwState := .installing, imageOk := false } }) ∧
    (s.mgmt.fwState ≠ .verified → exec .fwInstall s = .next s) ∧
    (s.mgmt.fwState = .installing →
      (∃ t : State, exec (.fwInstallDone true) s = .next (t.log 0x7303 [.val 1 (byteAt (fwStaged s.mgmt.stageB) 6)]) ∧
        t.mgmt.image = fwStaged s.mgmt.stageB ∧ t.mgmt.imageOk = true ∧ t.mgmt.fwState = .installed ∧ t.mgmt.fuse = s.mgmt.fuse) ∧
      (∃ t : State, exec (.fwInstallDone false) s = .next (t.log 0x7302 [.val 1 6]) ∧ t.mgmt.fwState = .failed ∧ t.mgmt.fwReason = 6 ∧
        t.mgmt.imageOk = s.mgmt.imageOk))

/-- An image verifies only with a signature that verifies, a body of its hash, and an SVN that is not below the fuse counter; the
override accepts any signature and SVN (R581, R589). -/
def imageChecks : Prop :=
  ∀ (img : List Byte) (fuse : Nat) (ovr : Bool), verifyFw img fuse ovr = 0 →
    img.take 4 = ascii "TFWI" ∧ img.length = 512 + fwBody img ∧ sha256 (img.drop 512) = bsub img 16 32 ∧ byteAt img 6 ≤ 64 ∧
      (ovr = false → pssValid (Config.romKey 0) (img.take 128) (bsub img 128 384) = true ∧ fuse ≤ byteAt img 6)

/-- OWN_STAGE.COMMIT: a record that passes installs the next OWNER_EPOCH and its key hash in the copy that is not in force, discards
the armature copies of the old owner and logs OWNER_CHANGED; any other logs OWNER_REFUSED and changes no record (R586, R587). -/
def ownershipDoes : Prop :=
  ∀ s : State, s.fwUp = true → s.mgmt.fwState ≠ .installing →
    (∀ off, ownFails s.mgmt = some off → exec .ownCommit s = .next (s.log 0x7402 [.val 4 off])) ∧
    (ownFails s.mgmt = none → ∃ t : State, exec .ownCommit s = .next (t.log 0x7401 [.val 4 (s.mgmt.owner.1 + 1),
        .val 4 (bfld (memRead s.mgmt.ownStage 0 512) 16 4)]) ∧
      t.mgmt.owner.1 = s.mgmt.owner.1 + 1 ∧ t.mgmt.owner.2 = hashOrNone (bsub (memRead s.mgmt.ownStage 0 512) 16 32) ∧
      t.arm.copy0 = none ∧ t.arm.copy1 = none ∧ t.arm.inForce = s.arm.inForce ∧ t.hbm = s.hbm)

/-- During an install OWN_COMMIT gives FW_BUSY (R599). -/
def ownershipBusy : Prop :=
  ∀ s : State, s.fwUp = true → s.mgmt.fwState = .installing → exec .ownCommit s = .next (s.log 0x7304 [.val 2 0x0011])

/-- Every island is due for a survey, by the calendar or the register; an abort ends what is pending (R592, R600). -/
def surveysFallDue : Prop :=
  ∀ s : State, s.fwUp = true →
    (∃ t, exec .surveyDue s = .next t ∧ exec .surveyStart s = .next t ∧ (∀ n ∈ coreIds, (t.core n).survDue = true) ∧
      t.mgmt.survOther.length = 32 ∧ t.survPending = 80 ∧ t.cells = s.cells) ∧
    (∃ t, exec .surveyAbortCmd s = .next t ∧ t.survPending = 0 ∧ t.cells = s.cells) ∧
    (∀ island days, island < 48 → (s.core island).survDue = true → 8 ≤ days → exec (.surveyOverdue island days) s =
      .next (s.log 0x7504 [.core island, .val 4 days])) ∧
    (∀ island days, 48 ≤ island → s.mgmt.survOther.contains island = true → 8 ≤ days → exec (.surveyOverdue island days) s =
      .next (s.log 0x7504 [.val 2 island, .val 4 days]))

/-- A survey's decision: the first point whose margin reaches 8 %, in the order plan, up in voltage, down in frequency; where none
does, the point of the largest margin (R593). -/
def surveyDecides : Prop :=
  ∀ ms : List Nat, ms ≠ [] →
    ((∃ m ∈ ms, 8 ≤ m) → (survPick ms).2 = true ∧ 8 ≤ ms.getD (survPick ms).1 0 ∧ ∀ j, j < (survPick ms).1 → ms.getD j 0 < 8) ∧
    ((∀ m ∈ ms, m < 8) → (survPick ms).2 = false ∧ (survPick ms).1 < ms.length ∧
      (∀ m ∈ ms, m ≤ ms.getD (survPick ms).1 0) ∧ ∀ j, j < (survPick ms).1 → ms.getD j 0 < ms.getD (survPick ms).1 0)

/-- A survey that ends: the island is no longer due, its point and margin are in its history, the plan of its next reset is the point
chosen, and it stays suspect unless its plan's own margin and its oscillator are good; an island that is not idle ends with
SURVEY_ABORT (R591, R593, R594). -/
def surveyIslandDoes : Prop :=
  ∀ (core : Fin 48) (r : SurveyResult) (s : State), s.fwUp = true → (s.core core).survDue = true →
    (∀ c, s.survBar core = some c → ∃ cause, exec (.surveyIslandDone core r) s = .next (s.log 0x7505 [.core core, .val 1 cause])) ∧
    (s.survBar core = none →
      let co := s.core core
      let pts := survPoints co.planFreq.toNat co.planVolt.toNat co.vmax.toNat
      let ms := (List.range pts.length).map (fun i => r.margins.getD i 0)
      let i := (survPick ms).1
      ∃ t, exec (.surveyIslandDone core r) s = .next t ∧ (t.core core).survDue = false ∧
        ((t.core core).survHist.head?.map (fun e => e.2.2.2.1)) = some (ms.getD i 0) ∧
        (i ≠ 0 → (t.core core).replan = pts[i]?) ∧ (i = 0 → (t.core core).replan = co.replan) ∧
        (t.core core).planFreq = co.planFreq ∧ (t.core core).planVolt = co.planVolt ∧
        ((t.core core).suspect = true ↔ co.suspect = true ∧ ¬ (i = 0 ∧ (survPick ms).2 = true ∧
          roNear r.ro (if co.roBase = 0 then r.ro else co.roBase) = true)) ∧
        (∀ n, n ≠ core.val → (t.core n).planFreq = (s.core n).planFreq ∧ (t.core n).survHist = (s.core n).survHist ∧
          (t.core n).store = (s.core n).store))

/-- CAL_SUSPECT: a 1 written for a core clears its suspect state; other cores keep theirs (R219, R609). -/
def suspectClears : Prop :=
  ∀ (mask : BitVec 48) (s : State), ∃ t, exec (.calSuspectClear mask) s = .next t ∧
    (∀ n, n < 48 → (t.core n).suspect = ((s.core n).suspect && !mask.getLsbD n) ∧ (t.core n).store = (s.core n).store) ∧ t.cells = s.cells

/-- The recovery loader runs in recovery mode alone, and a repeated SEQ gets the kept response. A chunk without a gap is staged; an
image that verifies is written, the boot count becomes 0, and an M reset with cause bit 7 follows; one that fails is refused with its
reason; an owner is installed with OWNER_EPOCH 1 where there is none; a reboot is an M reset (R559, R584, R586). -/
def loaderDoes : Prop :=
  ∀ (seq : BitVec 32) (s : State),
    (s.rst.recovery = false ∨ s.rst.stage ≠ 0 ∨ s.pwr.off = true → exec (.trlpHello seq) s = .next s ∧ exec (.trlpReboot seq) s = .next s ∧
      exec (.trlpCommit seq) s = .next s ∧ (∀ o d, exec (.trlpLoad seq o d) s = .next s) ∧ (∀ h, exec (.trlpOwner seq h) s = .next s)) ∧
    (s.rst.recovery = true → s.rst.stage = 0 → s.pwr.off = false →
      (∀ st p, s.mgmt.trlpSeq = some (seq.toNat, (st, p)) → let t := s.emit (.trlp seq.toNat st p)
        exec (.trlpHello seq) s = .next t ∧ exec (.trlpReboot seq) s = .next t ∧ exec (.trlpCommit seq) s = .next t ∧
        (∀ o d, exec (.trlpLoad seq o d) s = .next t) ∧ (∀ h, exec (.trlpOwner seq h) s = .next t)) ∧
      ((∀ x, s.mgmt.trlpSeq = some x → x.1 ≠ seq.toNat) →
        (∃ p, exec (.trlpHello seq) s = .next (s.trlpSend seq 0 p)) ∧
        (∃ p, exec (.trlpReboot seq) s = .next ((s.trlpSend seq 0 p).startModule 7)) ∧
        (∀ o d, o = s.mgmt.trlpNext → 0 < d.length → d.length ≤ 8192 → o + d.length ≤ 2097152 → exec (.trlpLoad seq o d) s =
          .next (({ s with mgmt := { s.mgmt with stageB := memWrite s.mgmt.stageB o d, trlpNext := o + d.length } } : State).trlpSend seq 0 [])) ∧
        (s.mgmt.fwState ≠ .installing → verifyFw (fwStaged s.mgmt.stageB) s.mgmt.fuse.toNat s.rst.ovr = 0 → ∃ t, exec (.trlpCommit seq) s = .next t ∧
          t.mgmt.image = fwStaged s.mgmt.stageB ∧ t.mgmt.imageOk = true ∧ t.rst.bcount = 0 ∧ t.rst.journal = 0 ∧ t.rst.stage = 1 ∧
          t.rst.recovery = false ∧ t.rst.cause = causeWith s 7) ∧
        (∀ r, r ≠ 0 → verifyFw (fwStaged s.mgmt.stageB) s.mgmt.fuse.toNat s.rst.ovr = r → exec (.trlpCommit seq) s =
          .next (s.trlpSend seq 2 (leBytes 1 r))) ∧
        (∀ h, h.length = 32 → s.mgmt.owner.2 = [] ∨ s.rst.ovr = true → ∃ (t : State) (p : List Byte), exec (.trlpOwner seq h) s = .next (t.trlpSend seq 0 p) ∧
          t.mgmt.owner = (1, hashOrNone h)) ∧
        (∀ h, h.length ≠ 32 ∨ (s.mgmt.owner.2 ≠ [] ∧ s.rst.ovr = false) → ∃ (t : State) (st : Nat) (p : List Byte), exec (.trlpOwner seq h) s = .next (t.trlpSend seq st p) ∧
          st ≠ 0 ∧ t.mgmt = s.mgmt))) ∧
    (s.rst.recovery = true → s.rst.stage = 0 → s.mgmt.loaderIp = 0 → exec .linkLocalFallback s =
      .next { s with mgmt := { s.mgmt with loaderIp := 2 } })

/-- The log goes to flash every second, a suppression window closes with EVT_SUPPRESSED where records were suppressed, and the Patina is
written hourly, to its two copies in turn (R578, R579, R597). -/
def recordsAreKept : Prop :=
  ∀ s : State,
    (s.fwUp = true → exec .evtLogCopyTimer s = .next (s.copyLog.flashWritten (32 * s.evt.fresh.length)) ∧
      s.copyLog.evt.recs = s.evt.recs ∧ s.copyLog.evt.next = s.evt.next) ∧
    (∀ (code : BitVec 16) (kind inst : Nat) (w : SupWin), s.evt.wins.find? (fun w => w.code == code && w.kind == kind && w.inst == inst) = some w →
      ∃ t : State, t = { s with evt := { s.evt with wins := t.evt.wins } } ∧ (∀ x ∈ t.evt.wins, ¬ (x.code = code ∧ x.kind = kind ∧ x.inst = inst)) ∧
        (w.supp = 0 → exec (.suppressionWindowClose code kind inst) s = .next t) ∧
        (w.supp ≠ 0 → exec (.suppressionWindowClose code kind inst) s =
          .next (t.log 0x7003 [.val 2 code.toNat, .val 1 kind, .val 2 inst, .val 4 w.supp]))) ∧
    (s.fwUp = true → ∃ t, exec .patinaWriteTimer s = .next t ∧ t.mgmt.patSeq = s.mgmt.patSeq + 1 ∧ t.mgmt.patCopy = 1 - s.mgmt.patCopy ∧
      t.mgmt.patVal = true ∧ t.mgmt.tot 0 = s.mgmt.tot 0 + 1 ∧ t.hbm = s.hbm ∧ t.cells = s.cells)

/-! The armature load. -/

/-- The four commands of a load: where each is in order it is acknowledged with the engine's new state; a chunk goes to its place in
the staging area; a commit that is complete is accepted and verified; out of order is ARM_DATA_ORDER with the byte expected, a busy
engine ARM_BUSY (R43 to R48). -/
def loadCommands : Prop :=
  ∀ (c : TcdCtx) (s : State),
    (∀ total, 384 ≤ total → lengthOk (total - 384) = true → s.arm.busy = false → ∃ t, effArmBegin total c s = (t, done [1]) ∧
      t.arm.state = .receiving ∧ t.arm.received = 0 ∧ t.arm.total = BitVec.ofNat 32 total ∧ t.arm.inForce = s.arm.inForce ∧
      (s.arm.state = .idle → t = { s with arm := t.arm })) ∧
    (∀ total, 384 ≤ total → lengthOk (total - 384) = true → s.arm.busy = true → effArmBegin total c s = s.armRefuse 0x7104 [.val 1 s.arm.state.code]) ∧
    (∀ off (data : List Byte), 0 < data.length → data.length ≤ 8192 → s.arm.state = .receiving → off = s.arm.received.toNat →
      off + data.length ≤ s.arm.total.toNat → ∃ t, effArmData off data c s = (t, done [1]) ∧
        t.arm = { s.arm with received := BitVec.ofNat 32 (off + data.length) } ∧ t.cores = s.cores ∧
        t.hbmRead (stagingBase + off) data.length = data ∧
        (s.mediaErr = [] → ∀ a, a < stagingBase + off ∨ stagingBase + off + data.length ≤ a → memGet t.hbm a = memGet s.hbm a)) ∧
    (∀ off (data : List Byte), 0 < data.length → data.length ≤ 8192 → s.arm.state = .receiving → off ≠ s.arm.received.toNat →
      effArmData off data c s = s.armRefuse 0x7103 [.val 4 s.arm.received.toNat]) ∧
    (∀ mode cells epoch, mode ≤ 2 → s.arm.state = .receiving → s.arm.received = s.arm.total → ∃ t, effArmCommit mode cells epoch c s =
        (t, some (1, [2])) ∧ t.arm.state = .verifying ∧ t.arm.mode.toNat = mode ∧ t.arm.cells = cells ∧ t.arm.epoch = epoch ∧
      t = { s with arm := t.arm }) ∧
    (∀ mode cells epoch, mode ≤ 2 → s.arm.state = .receiving → s.arm.received ≠ s.arm.total → effArmCommit mode cells epoch c s =
      s.armRefuse 0x7103 [.val 4 s.arm.received.toNat]) ∧
    (s.arm.state = .receiving ∨ s.arm.state = .pending → ∃ t, effArmCancel c s = (t, done [0]) ∧ t.arm.state = .idle ∧
      t.arm.inForce = s.arm.inForce ∧ t.arm.received = 0) ∧
    (s.arm.state = .verifying ∨ s.arm.state = .applying → effArmCancel c s = s.armRefuse 0x7104 [.val 1 s.arm.state.code])

/-- A refusal names its event in the answer and changes the log alone (R45, R46). -/
def loadRefusals : Prop :=
  ∀ (s : State) (code : Nat) (fs : List EvF), ∃ p, s.armRefuse code fs = (s.log code fs, some (stRefused, leBytes 2 code ++ p))

/-- 10 s without a chunk discards the load, with ARM_ABORT (R47). -/
def loadTimesOut : Prop :=
  ∀ s : State,
    (s.arm.state = .receiving → exec .armReceiveTimeout s = .next s.armAbort ∧ s.armAbort.arm.state = .idle ∧
      s.armAbort.arm.inForce = s.arm.inForce ∧ ∀ a, stagingBase ≤ a → a < stagingBase + armAreaLen → memGet s.armAbort.hbm a = 0) ∧
    (s.arm.state ≠ .receiving → exec .armReceiveTimeout s = .next s)

/-- An upload that fails a check of R48 is discarded with its reason, and the armature in force stays; one that passes is applied as
its mode says: at once where nothing is in force, in a warm reset with cause bit 10, in a class C reset of its cells, or PENDING until
its epoch, unless that is past (R48 to R51). -/
def loadVerifies : Prop :=
  ∀ s : State, s.arm.state = .verifying →
    let u := s.touchPhys stagingBase s.arm.total.toNat false
    let raw := u.hbmRead stagingBase s.arm.total.toNat
    let r := verifyArm raw s.arm.inForce s.mgmt.owner.2 s.rst.ovr s.arm.mode.toNat s.arm.cells
    let t := s.verifyDone
    exec .armVerifyDone s = .next t.serve ∧
    (r ≠ 0 → t.arm.state = .idle ∧ t.arm.reason = BitVec.ofNat 4 r ∧ t.arm.inForce = s.arm.inForce) ∧
    (r = 0 → s.arm.inForce = none → t.arm.state = .applying ∧
      t.arm.next = some (Armature.ofRaw raw none) ∧ t.hbm = u.hbm ∧ t.cells = s.cells) ∧
    (r = 0 → s.arm.inForce ≠ none → s.arm.mode = 0 → t.arm.state = .applying ∧
      t.rst.modeApply = true ∧ t.rst.cause = causeWith s 10 ∧ t.rst.stage = 3) ∧
    (r = 0 → s.arm.inForce ≠ none → s.arm.mode = 1 → t.arm.state = .applying ∧
      ∀ k ∈ cellIds, s.arm.cells.getLsbD k = true → (s.cell k).exists_ = true → (t.cell k).holds.apply = true ∧ (t.cell k).tick = 0) ∧
    (r = 0 → s.arm.inForce ≠ none → s.arm.mode = 2 → s.arm.epoch = 0 ∨ (s.rdvAt 0).epoch ≤ s.arm.epoch.toNat →
      t.arm.state = .pending ∧ t.arm.inForce = s.arm.inForce ∧ t.arm.next = some (Armature.ofRaw raw s.arm.inForce)) ∧
    (r = 0 → s.arm.inForce ≠ none → s.arm.mode = 2 → s.arm.epoch ≠ 0 → s.arm.epoch.toNat < (s.rdvAt 0).epoch →
      t.arm.state = .idle ∧ t.arm.inForce = s.arm.inForce)

/-- Outside VERIFYING nothing is verified. -/
def loadVerifiesOnly : Prop :=
  ∀ s : State, s.arm.state ≠ .verifying → s.hst.waiting = [] → exec .armVerifyDone s = .next s

/-- What an upload that passes holds: the format, a target, the owner's signature unless the override is in force, the content's hash
(R48, R589). -/
def verifyChecks : Prop :=
  ∀ (raw : List Byte) (inForce : Option Armature) (owner : List Byte) (ovr : Bool) (mode : Nat) (mask : BitVec 16),
    verifyArm raw inForce owner ovr mode mask = 0 →
      checkFormat raw raw.length = true ∧ checkTarget raw = true ∧ sha256 ((raw.take (hdrLength raw)).drop 256) = bsub raw 48 32 ∧
      (ovr = false → owner ≠ [] ∧ bsub raw 40 8 = owner.take 8 ∧
        pssValid owner (raw.take 256) (bsub raw (hdrLength raw) 384) = true) ∧
      checkStructure raw inForce = true ∧ checkContent raw inForce = true ∧ checkBase raw inForce = true ∧
      checkScope raw inForce mode mask = true

/-- An apply that ends puts its sections in force, the engine is IDLE, and with PERSIST a flash copy is to be written; one that fails
leaves the armature in force as it was (R50 to R52, R55). -/
def loadApplies : Prop :=
  ∀ (s : State) (x : Armature), s.arm.state = .applying → s.arm.next = some x → s.rst.modeApply = false ∨ s.rst.stage = 5 →
    (∃ t : State, exec (.armApplyDone none) s = .next t.serve ∧ t.arm.inForce = some x ∧ t.arm.state = .idle ∧ t.rst.modeApply = false ∧
      (hdrPersist x.header = true → t.arm.persisting = some ((s.touchPhys stagingBase (hdrLength x.header + 384) false).hbmRead stagingBase (hdrLength x.header + 384))) ∧
      (hdrPersist x.header = false → t.arm.copy0 = s.arm.copy0 ∧ t.arm.copy1 = s.arm.copy1)) ∧
    (∀ kind inst, ∃ t : State, exec (.armApplyDone (some (kind, inst))) s = .next t.serve ∧ t.arm.inForce = s.arm.inForce ∧ t.arm.state = .idle ∧
      t.rst.modeApply = false ∧ t.arm.copy0 = s.arm.copy0 ∧ t.arm.copy1 = s.arm.copy1)

/-- Requests that waited for the end of a load or of a restore run after it, oldest first; where none waits nothing follows (R527, R533). -/
def servedInOrder : Prop :=
  ∀ s : State, s.serve = s.hst.waiting.foldl State.serveOne s ∧ (s.hst.waiting = [] → s.serve = s)

/-- A flash copy fully written is valid, and the next one goes to the other area (R55). -/
def loadPersists : Prop :=
  ∀ (s : State) (raw : List Byte), s.arm.persisting = some raw →
    (s.arm.nextCopy = 0 → ∃ t, exec .armPersistDone s = .next t ∧ t.arm = { s.arm with persisting := none, copy0 := some raw, nextCopy := 1 } ∧
      t.hbm = s.hbm) ∧
    (s.arm.nextCopy = 1 → ∃ t, exec .armPersistDone s = .next t ∧ t.arm = { s.arm with persisting := none, copy1 := some raw, nextCopy := 0 } ∧
      t.hbm = s.hbm)

/-! Numbers. -/

/-- The three formats of accumulators and vectors (R57, R61). -/
def IsFmt (f : Fmt) : Prop := f = fp32 ∨ f = bf16 ∨ f = w40

/-- The canonical NaN of each format, and a NaN result is that one, with NV (R62). -/
def nanIsCanonical : Prop :=
  fp32.nan = 0x7FC00000 ∧ bf16.nan = 0x7FC0 ∧ w40.nan = 0x7FC0000000 ∧
    ∀ f, IsFmt f → f.rne .nan = (f.nan, fNV) ∧ (f.dec f.nan).isNan = true ∧ ∀ r, f.srRound r .nan = (f.nan, fNV)

/-- An encoding that is no NaN, subnormals included, is decoded and encoded again without change and without a flag (R57, R60, R61). -/
def floatRoundTrips : Prop :=
  ∀ (f : Fmt) (v : Nat), IsFmt f → v < 2 ^ f.width → (f.dec v).isNan = false →
    f.rne (f.dec v) = (v, 0) ∧ ((f.dec v).isZero = false → ∀ r, f.srRound r (f.dec v) = (v, 0))

/-- sr_round gives one of the two neighbours of a value: the one towards zero, or the next encoding; never a third (R74). -/
def srGivesANeighbour : Prop :=
  ∀ (f : Fmt) (neg : Bool) (m : Nat) (e : Int) (r : Nat), IsFmt f → 0 < m →
    let low := (f.srRound (2 ^ 32) (.fin neg m e)).1
    (f.srRound r (.fin neg m e)).1 = low ∨ (f.srRound r (.fin neg m e)).1 = low + 1

/-- rne gives one of the same two neighbours (R73). -/
def rneGivesANeighbour : Prop :=
  ∀ (f : Fmt) (neg : Bool) (m : Nat) (e : Int), IsFmt f → 0 < m →
    let low := (f.srRound (2 ^ 32) (.fin neg m e)).1
    (f.rne (.fin neg m e)).1 = low ∨ (f.rne (.fin neg m e)).1 = low + 1

/-! The vector engine's element results (R193). -/

/-- Unmasked elements without poison of the arithmetic operations: the operation's exact result rounded once, a NaN first operand gives the
canonical NaN with NV; a masked element is left alone; SEL copies a side, of a masked one too (R193, R295). -/
def elementResults : Prop :=
  ∀ (opc : Nat) (bf : Bool) (pr : Bool × Bool) (a b c : VEl), a.fl = 0 → b.fl = 0 → c.fl = 0 →
    (opc ≠ 0x4C → pr.1 = false → elemOut opc bf pr a b c = (none, 0)) ∧
    (0x40 ≤ opc → opc ≤ 0x48 → pr.1 = true → a.pois = false → b.pois = false → c.pois = false → pr.2 = false →
      elemOut opc bf pr a b c = (some ((rndTo bf (arith opc a.v b.v c.v)).1, false), (rndTo bf (arith opc a.v b.v c.v)).2) ∧
      (a.v = .nan → elemOut opc bf pr a b c = (some (if bf then 0x7FC0 else 0x7FC00000, false), fNV))) ∧
    (opc = 0x4C → pr.2 = false → (elemOut opc false pr a b c).1 = some ((if pr.1 then a.raw else b.raw), if pr.1 then a.pois else b.pois))

/-- The comparisons and MIN and MAX on numbers and NaN: a NaN gives 0 with NV, and in MIN and MAX the canonical NaN; zeros compare equal,
and the negative one is the smaller (R193). -/
def comparisonResults : Prop :=
  (∀ (opc : Nat) (a b : Xv), a.isNan = true ∨ b.isNan = true → cmpOp opc a b = (false, fNV) ∧ (minMax true a b) = .nan ∧ (minMax false a b) = .nan) ∧
  (∀ (n1 n2 : Bool) (e1 e2 : Int), cmpOp 0x49 (.fin n1 0 e1) (.fin n2 0 e2) = (true, 0) ∧ cmpOp 0x4A (.fin n1 0 e1) (.fin n2 0 e2) = (false, 0)) ∧
  (∀ (e1 e2 : Int), (minMax false (.fin true 0 e1) (.fin false 0 e2)).neg = true ∧ (minMax false (.fin false 0 e1) (.fin true 0 e2)).neg = true ∧
    (minMax true (.fin true 0 e1) (.fin false 0 e2)).neg = false ∧ (minMax true (.fin false 0 e1) (.fin true 0 e2)).neg = false) ∧
  (∀ a b : Xv, a.isNan = false → b.isNan = false → cmpOp 0x4B a b = ((cmpOp 0x4A a b).1 || (cmpOp 0x49 a b).1, 0) ∧
    ¬ ((cmpOp 0x4A a b).1 = true ∧ (cmpOp 0x4A b a).1 = true))

/-- The elements of a row or column that are not masked. -/
abbrev Unmasked (xs : List (Nat × (VEl × (Bool × Bool)))) : List (Nat × (VEl × (Bool × Bool))) := xs.filter (fun q => q.2.2.1)

/-- A flag of R85 is set in FLAGS. -/
def HasFlag (fl f : Nat) : Prop := fl &&& f = f

/-- A row or column without an unmasked element gives the identity of its operation and sets EMPTY; one with a NaN gives the canonical NaN,
or the index of the first NaN, and sets NV (R197). -/
def reductionsOfRows : Prop :=
  (∀ (op : Nat) (xs : List (Nat × (VEl × (Bool × Bool)))), op ≤ 5 → Unmasked xs = [] →
    (reduce op xs).1 = (match op with | 0 => 0 | 1 => 0x3F800000 | 2 => 0xFF800000 | 3 => 0x7F800000 | _ => 0xFFFFFFFF) ∧
      HasFlag (reduce op xs).2.2 fEMPTY) ∧
  (∀ (op : Nat) (xs : List (Nat × (VEl × (Bool × Bool)))), op ≤ 3 → (∃ q ∈ Unmasked xs, q.2.1.v = .nan) →
    (reduce op xs).1 = 0x7FC00000 ∧ HasFlag (reduce op xs).2.2 fNV) ∧
  (∀ (op i : Nat) (e : VEl) (xs : List (Nat × (VEl × (Bool × Bool)))), op = 4 ∨ op = 5 →
    ((Unmasked xs).find? (fun q => q.2.1.v.isNan)).map (fun q => (q.1, q.2.1)) = some (i, e) →
    (reduce op xs).1 = i ∧ HasFlag (reduce op xs).2.2 fNV)

/-! The sparse lines. -/

/-- Slots with every field in its width. -/
def SlotsFit (ss : List Slot) : Prop :=
  ss.length = 32 ∧ ∀ x ∈ ss, x.idx < 256 ∧ x.w < 65536 ∧ x.age < 16 ∧ x.m < 65536 ∧ x.v < 256

/-- A line built from 32 slots reads back those slots, keeps the reach base and G of the line it replaces, carries its stamp, phase and
COUNT, and its CRC is right (R391). -/
def linesReadBack : Prop :=
  ∀ (old : List Byte) (ss : List Slot) (stamp phase count : Nat), old.length = 256 → SlotsFit ss → stamp < 2 ^ 32 → phase < 2 ^ 16 → count < 256 →
    let l := lineBuild old ss stamp phase count
    l.length = 256 ∧ lineSlots l = ss ∧ bfld l 4 4 = lineCrc l ∧ bfld l 0 4 = stamp ∧ bfld l 14 2 = phase ∧ bfld l 13 1 = count ∧
      lineG l = lineG old ∧ lineK0 l = lineK0 old

/-- After CARVE every live slot is older by 1, up to 15, and a slot that it released has age 0 (R157). -/
def carveAges : Prop :=
  ∀ (kext k amin stamp s : Nat) (l : List Byte), l.length = 256 → lineSkip false l = 0 → s < 32 →
    ∃ l', (carveLine kext k amin stamp false l).line = some l' ∧
      (lineStat l' kext s (lineSlot l' s).idx = 3 → (lineSlot l' s).age = min 15 ((lineSlot l s).age + 1)) ∧
      (lineStat l kext s (lineSlot l s).idx ≠ 0 → lineStat l' kext s (lineSlot l' s).idx ≠ 3 → (lineSlot l' s).age = 0)

/-- A slot that CARVE releases holds the vacant index, the weight +0, moments +0 and 0, and age 0; a slot that stays live keeps its index,
its weight and its moments (R155, R156). -/
def carveReleases : Prop :=
  ∀ (kext k amin stamp s : Nat) (l : List Byte), l.length = 256 → lineSkip false l = 0 → s < 32 →
    ∃ l', (carveLine kext k amin stamp false l).line = some l' ∧
      (lineStat l kext s (lineSlot l s).idx ≠ 0 → lineStat l' kext s (lineSlot l' s).idx ≠ 3 →
        lineSlot l' s = ⟨vacIdx (lineG l) s, 0, 0, 0, 0⟩) ∧
      (lineStat l' kext s (lineSlot l' s).idx = 3 → lineSlot l' s = { lineSlot l s with age := min 15 ((lineSlot l s).age + 1) })

/-! The event log. -/

/-- The window of a code and a source in the list of windows that are open. -/
def windowOf (s : State) (code kind inst : Nat) : Option SupWin :=
  s.evt.wins.find? (fun w => w.code.toNat == code && w.kind == kind && w.inst == inst)

/-- A record is stored: it takes the next index, becomes the newest, and sets the bit of its severity (R577, R578, R607). -/
def Stored (s t : State) (code kind inst : Nat) : Prop :=
  ∃ r rest, t.evt.recs = r :: rest ∧ rest = s.evt.recs.take 1919 ∧ r.index = s.evt.next ∧ t.evt.next = s.evt.next + 1 ∧
    r.code.toNat = code ∧ r.sev = sevOf code ∧ r.kind = kind ∧ r.inst = inst ∧
    t.evt.seen = s.evt.seen ||| BitVec.ofNat 5 (2 ^ sevOf code) ∧ t.evt.suppr = s.evt.suppr

/-- A record is suppressed: no index, no place, no bit of SEEN, no NOTIFY, and SUPPR goes up by one (R579). -/
def Suppressed (s t : State) : Prop :=
  t.evt.next = s.evt.next ∧ t.evt.recs = s.evt.recs ∧ t.evt.seen = s.evt.seen ∧ t.out = s.out ∧ t.hst = s.hst ∧
    t.evt.suppr = satAdd s.evt.suppr 1

/-- R579: the first record of a code and source opens a window; the first 64 of it are logged, each later one is suppressed; its close
reports the number suppressed, and the next record opens a new one; severities 3 and 4 are never suppressed. -/
def eventsSuppressed : Prop :=
  ∀ (s : State) (code : Nat) (fs : List EvF), code < 2 ^ 16 →
    let kind := (evSource code fs).1
    let inst := (evSource code fs).2.1
    (3 ≤ sevOf code → Stored s (s.log code fs) code kind inst ∧ (s.log code fs).evt.wins = s.evt.wins) ∧
    (sevOf code < 3 → windowOf s code kind inst = none → Stored s (s.log code fs) code kind inst ∧
      ∃ w, windowOf (s.log code fs) code kind inst = some w ∧ w.count = 1 ∧ w.supp = 0) ∧
    (∀ w, sevOf code < 3 → windowOf s code kind inst = some w →
      (w.count < 64 → Stored s (s.log code fs) code kind inst ∧
        ∃ w', windowOf (s.log code fs) code kind inst = some w' ∧ w'.count = w.count + 1 ∧ w'.supp = w.supp) ∧
      (64 ≤ w.count → Suppressed s (s.log code fs) ∧
        ∃ w', windowOf (s.log code fs) code kind inst = some w' ∧ w'.count = w.count + 1 ∧ w'.supp = w.supp + 1)) ∧
    (∀ w, windowOf s code kind inst = some w →
      ∃ t : State, t = { s with evt := { s.evt with wins := t.evt.wins } } ∧ windowOf t code kind inst = none ∧
        exec (.suppressionWindowClose (BitVec.ofNat 16 code) kind inst) s =
          .next (if w.supp = 0 then t else t.log 0x7003 [.val 2 code, .val 1 kind, .val 2 inst, .val 4 w.supp]))

/-- R577: a record is 32 bytes, little-endian, with its fields at their offsets. -/
def recordLayout : Prop :=
  ∀ r : EvRec, r.data.length = 12 → r.sev < 256 → r.kind < 256 → r.inst < 65536 → r.loc < 65536 →
    r.bytes.length = 32 ∧ bfld r.bytes 0 8 = r.time.toNat ∧ bfld r.bytes 8 2 = r.code.toNat ∧ bfld r.bytes 10 1 = r.sev ∧
      bfld r.bytes 11 1 = r.kind ∧ bfld r.bytes 12 2 = r.inst ∧ bfld r.bytes 14 2 = r.loc ∧ bsub r.bytes 16 12 = r.data ∧
      bfld r.bytes 28 4 = r.index.toNat

/-! Memory. -/

/-- Bytes written are read back, every other byte stays, and the canonical form of a memory is kept. -/
def memoryReadsBack : Prop :=
  ∀ (m : Mem) (a : Nat) (b : List Byte),
    memRead (memWrite m a b) a b.length = b ∧ (∀ x, x < a ∨ a + b.length ≤ x → memGet (memWrite m a b) x = memGet m x) ∧
      (memWf m = true → memWf (memWrite m a b) = true)

/-- Poison travels with data: a poisoned write marks every unit that it touches, an unpoisoned write clears the units that it covers and
leaves the marks of the others (R231 to R233). -/
def poisonFollows : Prop :=
  ∀ (p : Sys2Proof.PSet) (unit a n : Nat), 0 < unit → 0 < n →
    (∀ x, a ≤ x → x < a + n → psHas (poisWrite p unit a n true) (x / unit) = true) ∧
    (∀ u, a ≤ u * unit → (u + 1) * unit ≤ a + n → psHas (poisWrite p unit a n false) u = false) ∧
    (∀ u, (u + 1) * unit ≤ a ∨ a + n ≤ u * unit → ∀ b, psHas (poisWrite p unit a n b) u = psHas p u) ∧
    (poisRead p unit a n = true ↔ ∃ x, a ≤ x ∧ x < a + n ∧ psHas p (x / unit) = true)

/-- A word that the management writes to HBM is read back, and no other byte of HBM or of a store changes, where the media hold no error;
a register command reaches no core store, which only gallery addresses reach (R354, R364, R369, R603). -/
def wordReadsBack : Prop :=
  ∀ (host : Bool) (a : Nat) (v : BitVec 64) (s : State), s.fwUp = true →
    (a + 8 ≤ 0x16800000000 → s.mediaErr = [] → ∃ t, exec (.registerWrite host a v) s = .next t ∧ (t.regRead a).2 = v.toNat ∧ t.cores = s.cores ∧
      ∀ x, x < a ∨ a + 8 ≤ x → memGet t.hbm x = memGet s.hbm x) ∧
    (∀ c off, c < 48 → off + 8 ≤ storeSize → a = csBase + c * csWin + off → ∃ t, exec (.registerWrite host a v) s = .next t ∧
      t.hbm = s.hbm ∧ t.cores = s.cores)

/-! Registers. -/

/-- The address of a register from its offset in the window (R604). -/
def regAt (off : Nat) : Nat := csrBase + off

/-- A write to a register that asks for an event of the table: the register's address, the value written and the command (R389, R388,
R418, R441, R488, R516, R553, R570, R600, R605, R609). -/
inductive Asks : Nat → BitVec 64 → Instr → Prop where
  | xlInval (c : Fin 48) : Asks (regAt (c * 0x10000 + 0x300)) 1 (.xlInval c)
  | blockReset (b : BitVec 8) : Asks (regAt 0x1000008) (BitVec.ofNat 64 (b.toNat + 256)) (.blockResetRequest b)
  | suspect (m : BitVec 48) : Asks (regAt 0x1400000) (m.setWidth 64) (.calSuspectClear m)
  | preempt (k : Fin 16) : Asks (regAt (0x1600008 + k * 0x40)) 1 (.ctxPreempt k)
  | resume (k : Fin 16) : Asks (regAt (0x1600008 + k * 0x40)) 2 (.ctxResume k)
  | giveup (k : Fin 16) : Asks (regAt (0x1600020 + k * 0x40)) 2 (.fltGiveup k)
  | pause : Asks (regAt 0x1700000) 2 (.expPause true)
  | unpause : Asks (regAt 0x1700000) 0 (.expPause false)
  | take : Asks (regAt 0x1800018) 1 .snpTake
  | abortup : Asks (regAt 0x1800018) 2 .snpAbortup
  | retrain (p : Fin 8) : Asks (regAt (0x1A00000 + p * 0x100)) 1 (.lnkRetrain p)
  | drain (p : Fin 8) : Asks (regAt (0x1A00000 + p * 0x100)) 2 (.lnkDrain p)
  | unquar (p : Fin 8) : Asks (regAt (0x1A00000 + p * 0x100)) 4 (.lnkUnquar p)
  | quar (p : Fin 8) : Asks (regAt (0x1A00000 + p * 0x100)) 8 (.lnkQuar p)
  | active : Asks (regAt 0x1C00008) 0 (.pwrTarget false)
  | standby : Asks (regAt 0x1C00008) 1 (.pwrTarget true)
  | vminclr : Asks (regAt 0x1C00010) (BitVec.ofNat 64 (2 ^ 32)) .pwrVminclr
  | fwBegin : Asks (regAt 0x2000000) 1 .fwBegin
  | fwVerify : Asks (regAt 0x2000000) 2 .fwVerify
  | fwInstall : Asks (regAt 0x2000000) 4 .fwInstall
  | ownCommit : Asks (regAt 0x2000010) 1 .ownCommit
  | survey : Asks (regAt 0x2000020) 1 .surveyStart
  | surveyAbort : Asks (regAt 0x2000020) 2 .surveyAbortCmd
  | flush (p : Fin 20) : Asks (0xD0000000000 + p * 0x10000) 1 (.plcFlush p)

/-- Such a write does what the command does, for the host and for the firmware itself (R7, R603). -/
def controlRegisters : Prop :=
  ∀ (host : Bool) (a : Nat) (v : BitVec 64) (c : Instr) (s : State), s.fwUp = true → Asks a v c →
    exec (.registerWrite host a v) s = exec c s

/-- FLT_CTRL.RETRY asks for the retry, with the time in hold as a free value (R475; log entry 20). -/
def retryRegister : Prop :=
  ∀ (host : Bool) (k : Fin 16) (s : State), s.fwUp = true → ∃ us : Nat, exec (.registerWrite host (regAt (0x1600020 + k * 0x40)) 1) s =
    exec (.fltRetry k us) { s with free := s.free + 1 }

/-- Fields cleared by writing 1: only the bits written are cleared (R7, R605, R607, R623). -/
def clearedByOne : Prop :=
  ∀ (host : Bool) (v : BitVec 64) (s : State), s.fwUp = true →
    exec (.registerWrite host (regAt 0x1000000) v) s = .next { s with rst := { s.rst with cause := s.rst.cause &&& ~~~(v.setWidth 12) } } ∧
    exec (.registerWrite host (regAt 0x1200010) v) s = .next { s with evt := { s.evt with seen := s.evt.seen &&& ~~~(v.setWidth 5) } } ∧
    exec (.registerWrite host (regAt 0x1000018) v) s = .next { s with rst := { s.rst with tripPend := s.rst.tripPend && !v.getLsbD 19 } } ∧
    (∀ c : Fin 48, exec (.registerWrite host (regAt (c * 0x10000 + 0x40)) v) s = .next (s.modCore c (fun co =>
      { co with flg := co.flg &&& ~~~(v.setWidth 12) })))

/-- Registers with a value of their own: BQTO and FLT_BUDGET within their ranges, CTX_AREA; the backup registers are the firmware's alone,
and a host write to them or to retained memory is discarded with REG_ACCESS (R488, R554, R557, R570, R605). -/
def writtenRegisters : Prop :=
  ∀ (v : BitVec 64) (s : State), s.fwUp = true →
    (∀ host, (10 ≤ v.toNat % 2 ^ 32 ∧ v.toNat % 2 ^ 32 ≤ 10000 → exec (.registerWrite host (regAt 0x1C00028) v) s =
        .next { s with rst := { s.rst with bqto := v.setWidth 32 } }) ∧
      (v.toNat % 2 ^ 32 < 10 ∨ 10000 < v.toNat % 2 ^ 32 → exec (.registerWrite host (regAt 0x1C00028) v) s = .next s)) ∧
    (∀ host, ∀ k : Fin 16, (100 ≤ v.toNat % 2 ^ 32 ∧ v.toNat % 2 ^ 32 ≤ 1000000 → exec (.registerWrite host (regAt (0x1600018 + k * 0x40)) v) s =
        .next (s.modCell k (fun c => { c with budget := v.setWidth 32 }))) ∧
      exec (.registerWrite host (regAt (0x1600000 + k * 0x40)) v) s = .next (s.modCell k (fun c => { c with area := v.setWidth 44 }))) ∧
    (∀ i, i < 16 → ∃ t, exec (.registerWrite false (regAt (0x1000100 + 8 * i)) v) s = .next t ∧
      (t.rstRead (0x100 + 8 * i)).2 = v.toNat ∧ (∀ j, j < 16 → j ≠ i → (t.rstRead (0x100 + 8 * j)).2 = (s.rstRead (0x100 + 8 * j)).2)) ∧
    (∀ i, i < 16 → ∃ w : Nat, exec (.registerWrite true (regAt (0x1000100 + 8 * i)) v) s =
      .next (s.log 0x7001 [.val 8 (regAt (0x1000100 + 8 * i)), .val 1 w])) ∧
    (∀ o, o < 0x10000 → o % 8 = 0 → ∃ w : Nat, exec (.registerWrite true (regAt (0x1010000 + o)) v) s =
      .next (s.log 0x7001 [.val 8 (regAt (0x1010000 + o)), .val 1 w]))

/-- Read-only blocks and offsets that no table assigns: a write changes nothing, an unassigned offset reads 0; outside every block the
write is discarded and the read gives all ones, each with MEM_ADDR (R7, R10, R365, R602). -/
def otherAddresses : Prop :=
  ∀ (host : Bool) (v : BitVec 64) (s : State), s.fwUp = true →
    (∀ o, o < 0x100000 → o % 8 = 0 → exec (.registerWrite host (regAt (0x1300000 + o)) v) s = .next s ∧
      exec (.registerWrite host (regAt (0x1500000 + o)) v) s = .next s ∧ exec (.registerWrite host (regAt (0x1B00000 + o)) v) s = .next s) ∧
    (∀ c : Fin 48, ∀ o, o = 0x200 ∨ o = 0x208 ∨ o = 0x308 ∨ o = 0x100 ∨ o = 0x400 →
      exec (.registerWrite host (regAt (c * 0x10000 + o)) v) s = .next s) ∧
    (s.regRead (regAt 0x1000030) = (s, 0) ∧ s.regRead (regAt 0x1C00050) = (s, 0) ∧ s.regRead (regAt 0x400) = (s, 0)) ∧
    (∀ o, 0x1D00000 ≤ o → o < 0x2000000 → o % 8 = 0 → ∃ f g : Nat,
      s.regRead (regAt o) = (s.log 0x2106 [.val 8 (regAt o), .val 1 f, .val 2 g], 2 ^ 64 - 1) ∧
      exec (.registerWrite host (regAt o) v) s = .next (s.log 0x2106 [.val 8 (regAt o), .val 1 f, .val 2 g]))

/-- Without its firmware the module takes no register write; the I2C registers answer in every state, their alerts cleared by writing 1
(R602, R623). -/
def i2cAnswers : Prop :=
  ∀ (host : Bool) (v : BitVec 64) (s : State),
    (∀ a, a < 2 ^ 44 → s.fwUp = false → exec (.registerWrite host a v) s = .next s) ∧
    exec (.registerWrite host (2 ^ 44 + 7) v) s = .next { s with pwr := { s.pwr with alert := s.pwr.alert &&& ~~~(v.setWidth 3) } } ∧
    s.i2cRead 0 = 0x54 ∧ s.i2cRead 7 = s.pwr.alert.toNat ∧ s.i2cRead 2 + 256 * s.i2cRead 3 = s.pwr.vin.toNat ∧
    (s.pwr.off = true → s.i2cRead 1 = 0 ∧ s.i2cRead 4 = 0)

/-- Offsets of registers of the window with the values that the specification gives them at a reset of every class (R87, R389, R418, R441,
R470, R488, R516, R545, R570, R600, R605 to R610). -/
def resetWords : List (Nat × Nat) :=
  [(0x1000000, 1), (0x1000008, 0), (0x1000010, 0), (0x1000018, 0), (0x1100200, 0), (0x1100400, 0), (0x1100500, 0), (0x1200010, 0),
   (0x1400000, 0), (0x1400008, 0), (0x1400010, 0), (0x1400100, 0), (0x1500000, 0), (0x1500010, 0), (0x1500018, 0), (0x1500040, 0),
   (0x1600000, 0), (0x1600010, 0), (0x1600018, 0x7D0), (0x1600028, 0), (0x1700000, 0), (0x1700008, 0), (0x1700010, 0), (0x1700018, 0),
   (0x1700020, 0), (0x1700028, 0), (0x1800000, 0), (0x1800020, 0), (0x1800028, 0), (0x1900008, 0), (0x1900010, 0), (0x1900018, 0),
   (0x1A00008, 0), (0x1A00010, 0), (0x1A00018, 0), (0x1A00020, 0), (0x1B00000, 0), (0x1B00008, 0), (0x1B00010, 0), (0x1B00018, 0),
   (0x1B000C8, 0), (0x1C00000, 0), (0x1C00008, 0), (0x1C00010, 0xFFFF0000), (0x1C00018, 0), (0x1C00028, 0x64), (0x2000008, 0),
   (0x2000018, 0), (0x2000028, 0), (0x2000030, 0), (0x40, 0), (0x200, 0), (0x208, 0), (0x308, 0)]

/-- Every one of them reads its value right after reset. -/
def resetValues : Prop :=
  (∀ p ∈ resetWords, (State.reset.csrWindowRead p.1).2 = p.2) ∧
    (∀ pl : Fin 20, ∀ off ∈ [0x08, 0x10, 0x100, 0x178], (State.reset.plinth pl).read off = 0) ∧ State.reset.i2cRead 0 = 0x54 ∧
    (State.reset.csrWindowRead 0x1B000C0).2 / 2 ^ 63 = 1

/-- R555: a P, M or W reset that starts during a block reset supersedes it: no block is resetting any more, and the end of its waiting does
nothing; and a second request for a block that is resetting is ignored. -/
def resetsSupersede : Prop :=
  ∀ (s : State) (block : BitVec 8), block.toNat ∈ s.rst.quiet →
    (∀ cause, ((s.startWarm cause).rst.quiet = [] ∧ (s.startWarm cause).rst.active = false ∧
        ∀ idle n, exec (.blockQuiesceEnd block idle n) (s.startWarm cause) = .next (s.startWarm cause)) ∧
      (s.startModule cause).rst.quiet = [] ∧ (s.startModule cause).rst.active = false ∧
        ∀ idle n, exec (.blockQuiesceEnd block idle n) (s.startModule cause) = .next (s.startModule cause)) ∧
    (s.startPower.rst.quiet = [] ∧ s.startPower.rst.active = false ∧
      ∀ idle n, exec (.blockQuiesceEnd block idle n) s.startPower = .next s.startPower) ∧
    exec (.blockResetRequest block) s = .next s

end Sys2Proof.Claims

open Sys2Proof Sys2Proof.Machine Sys2Proof.Claims

/-- A step runs the command at the front of the queue on the state with the rest of the queue: the block's own rule (log
entry 1). -/
def Obligations.StepRunsFront : Prop :=
  ∀ (c : Instr) (s : State), step { s with pending := c :: s.pending } = exec c s

/-- With no command waiting a codeword time passes on the ports in AUTH, UP or DRAINING: each sends a codeword without data, and
nothing but the ports and what leaves them changes: the model's choice (log entry 1). -/
def Obligations.EmptyQueueIdles : Prop :=
  ∀ s : State, s.pending = [] → ∃ t, step s = .next t ∧ t = { s with ports := t.ports, out := t.out } ∧ t = s.linkTick ∧
    ((∀ p, p < 8 → (s.port p).carries = false) → t = s)

/-- No command stops the module, and the queue is first in, first out: from every state a step answers a next state, and it takes the
command at the front out of the queue and leaves the others in their order. -/
def Obligations.StepAnswersAndTakesOne : Prop := ∀ s : State, ∃ t, step s = .next t ∧ t.pending = s.pending.tail

/-- Every step keeps the invariant. -/
def Obligations.StepKeepsInv : Prop := ∀ s t : State, Sound s → step s = .next t → Sound t

/-- The fuse counter never goes back: a fuse once set stays set (R581). -/
def Obligations.FuseCounterNeverFalls : Prop :=
  ∀ s t : State, step s = .next t → s.mgmt.fuse.toNat ≤ t.mgmt.fuse.toNat

/-- The invariant holds right after reset. -/
def Obligations.ResetInv : Prop := Sound State.reset

/-- An array, matrix-vector or merge instruction whose stream, slot and units let it issue is issued: it enters the in-flight
table of its core and its stream advances; nothing but its core changes (R90, R244, R245, R250). -/
def Obligations.ComputeInstructionsIssue : Prop :=
  ∀ (c : Instr) (s : State) (r : IssueRow) (x : IssueCtx) (ps : List Plan),
    computeRow s c = some r → Issues s r x ps → exec c s = .next (s.issued x r.ws ps)

/-- The same of every vector instruction and of WAIT. -/
def Obligations.VectorInstructionsIssue : Prop :=
  ∀ (c : Instr) (s : State) (r : IssueRow) (x : IssueCtx) (ps : List Plan),
    vectorRow s c = some r → Issues s r x ps → exec c s = .next (s.issued x r.ws ps)

/-- What the issue of one instruction leaves (R77, R244, R248): nothing changes but its core; there the in-flight table gains
one entry with the instruction's word, stream, ORD, logical id and issue tick, which ends no earlier than those of the vector engine
before it where it is of that engine (R207); the stream's pointer and its ORD counter go up by one, its newest slot is the counter
value, and core store, tile registers, flags and MVU are as before: an instruction writes them when it completes (R246). -/
def Obligations.IssueAdvancesTheStream : Prop :=
  ∀ (s : State) (x : IssueCtx) (w : BitVec 128) (p : Plan), Plan.unitsOnly p → s.cfg.debug = false → x.co = s.core x.n →
    ∃ co e, s.issued x [w] [p] = s.setCore x.n co ∧
      co.inflight = (s.core x.n).inflight ++ [e] ∧
      e.word = w ∧ e.stream = x.st ∧ e.ord = x.ord ∧ e.id = logicalId x.l x.st x.ord ∧ e.issueTick = x.c.tick.toNat ∧
      e.puts = p.entry.puts ∧ p.entry.doneCycle ≤ e.doneCycle ∧ (x.st ≠ 3 → e.doneCycle = p.entry.doneCycle) ∧
      (x.st = 3 → ∀ f ∈ (s.core x.n).inflight, f.stream = 3 → f.doneCycle ≤ e.doneCycle) ∧
      tabGet 0 co.ptr x.st = tabGet 0 (s.core x.n).ptr x.st + 1 ∧
      tabGet 0 co.ord x.st = tabGet 0 (s.core x.n).ord x.st + 1 ∧
      tabGet 0 co.lastSlot x.st = x.c.tick.toNat ∧
      (∀ q, q ≠ x.st → tabGet 0 co.ptr q = tabGet 0 (s.core x.n).ptr q ∧ tabGet 0 co.ord q = tabGet 0 (s.core x.n).ord q) ∧
      co.store = (s.core x.n).store ∧ co.storePois = (s.core x.n).storePois ∧ co.treg = (s.core x.n).treg ∧
      co.tregPois = (s.core x.n).tregPois ∧ co.mvu = (s.core x.n).mvu ∧ co.flg = (s.core x.n).flg

/-- At issue, every array, matrix-vector, merge and vector instruction changes of its core only the arrays' registers and the
times at which its units are free (R93, R246). -/
def Obligations.PlansTouchUnitsOnly : Prop :=
  ∀ (c : Instr) (s : State) (r : IssueRow) (x : IssueCtx) (ps : List Plan),
    (computeRow s c = some r ∨ vectorRow s c = some r) → r.plan x = .ok ps → ∀ p ∈ ps, Plan.unitsOnly p

/-- A refused instruction executes nothing: its stream passes its word by, without an entry in flight, and its event is an unresolvable
fault of its cell (R121, R472; that its stream stands behind it: log entry 73). -/
def Obligations.RefusedInstructionFaults : Prop :=
  ∀ (c : Instr) (s : State) (r : IssueRow) (x : IssueCtx) (e : Refuse),
    (computeRow s c = some r ∨ vectorRow s c = some r) → (∃ w, r.ws.head? = some w ∧ wOpc w = r.opc) →
    s.mayIssue r.core r.stream r.ws = some x → r.plan x = .error e →
    exec c s = .next ((s.passBy x r.ws).raiseFault x.k e.1 e.2 x.l x.st x.ord false) ∧
      ((s.passBy x r.ws).core x.n).inflight = (s.core x.n).inflight ∧ ((s.passBy x r.ws).core x.n).store = (s.core x.n).store

/-- A local transfer, a SEAL, a remote operation, and an instruction of the SYN stream issue when their stream, slot and units
let them, and then take their effect: the new entry `e` of the in-flight table carries the word, and the next state is that
effect on the state with the instruction issued (R310, R314 to R326). -/
def Obligations.DataAndSyncInstructionsIssue : Prop :=
  ∀ (c : Instr) (s : State) (r : IssueRow) (f : State → IssueCtx → Entry → State) (x : IssueCtx) (ps : List Plan),
    (transferRow s c = some (r, f) ∨ remoteRow c = some (r, f) ∨ synRow s c = some (r, f)) → Issues s r x ps →
    (s.core r.core).entry r.stream x.ord = none →
    ∃ e, ((s.issued x r.ws ps).core r.core).entry r.stream x.ord = some e ∧ [e.word] = r.ws ∧ e.issueTick = x.c.tick.toNat ∧
      exec c s = .next (f (s.issued x r.ws ps) x e)

/-- COPY, in each of its four directions: the destination holds the LEN bytes that the source held when it issued, every
other byte of core store and tile registers is as before, and nothing but the core changes (R315). -/
def Obligations.CopyMovesItsBytes : Prop :=
  ∀ (core : Fin 48) (w : BitVec 128) (s : State) (x : IssueCtx) (p : Plan),
    Issues s (oneWord core 4 0x81 w (planCopy w)) x [p] → (s.core core).entry 4 x.ord = none →
    let b := p.entry.block
    let src := bfld b 4 4
    let dst := bfld b 8 4
    let len := bfld b 12 4
    ∃ co, exec (.copy core w) s = .next (s.setCore core co) ∧
      (∀ i, i < len → memGet (side co (bit (bfld b 0 1) 1)) (dst + i) = memGet (side (s.core core) (bit (bfld b 0 1) 0)) (src + i)) ∧
      (∀ a, a < dst ∨ dst + len ≤ a → memGet (side co (bit (bfld b 0 1) 1)) a = memGet (side (s.core core) (bit (bfld b 0 1) 1)) a) ∧
      side co (!bit (bfld b 0 1) 1) = side (s.core core) (!bit (bfld b 0 1) 1)

/-- TICK_DECISION of a cell whose present tick has done its work: the counter goes up by one where the tick ran and stays where
it was held, the two decisions made before move up, and the tick two ahead runs exactly where the cell is not held, no token
and no unit condition of an instruction with its slot is missing, and the words are decoded (R243, R251, R254, R264, R273).
Nothing but the cell changes, but that the arrays keep the rows they have read, and that the words are read from HBM. -/
def Obligations.TickDecisionDecides : Prop :=
  ∀ (cell : Fin 16) (late : Option (Fin 48)) (s : State), Ends s cell → badFetch s cell = false →
    let c := s.cell cell
    let ran := c.run0 = .run ∧ s.unissued c = [] ∧ c.frozen = none
    let u := (ended s cell).lateHold cell
    let v := (u.cell cell).tick.toNat + (u.cell cell).ahead
    let w := fetched s cell
    ∃ d : Cell, exec (.tickDecision cell late) s = .next (w.setCell cell d) ∧
      (ran → d.tick = c.tick + 1 ∧ d.held = c.held) ∧ (¬ ran → d.tick = c.tick ∧ d.held = satAdd c.held 1) ∧
      d.run0 = (u.cell cell).run0 ∧ ((ended s cell).missingUnit cell d.tick.toNat ((ended s cell).cell cell).cycle = none → d.run0 = c.run1) ∧
      d.run1 = c.run2 ∧
      (d.run2 = .run ↔ (u.cell cell).blocked = false ∧ w.missingToken (u.cell cell) v = none ∧ late = none ∧
        (w.foresee cell).missingUnit cell v (8 * ((u.cell cell).uticks + (u.cell cell).uahead)) = none) ∧
      d.step = c.step ∧ d.prog = c.prog ∧ d.faults = c.faults ∧ d.ctx = c.ctx ∧ d.holds = c.holds

/-- INSTR_COMPLETE of an instruction with nothing but its writes to come: every pending write is made, the record is written
at its place in the ring of its stream (NOP writes none), its FLAGS join FLG_STICKY, it leaves the in-flight table, its post
lands, and no other byte of the core store or of the tile registers and no other token changes (R87, R246, R249, R329, R332). -/
def Obligations.InstrCompleteWritesAndPosts : Prop :=
  ∀ (core : Fin 48) (stream : Fin 6) (s : State) (k : Nat) (e : Entry), Completes s core stream k e → Entry.plain e →
    (s.core core).tokenOvf e.postTok 1 = false →
    let cyc := if (s.cell k).advances then (s.cell k).cycle + 8 else (s.cell k).cycle
    ∃ co snp, exec (.instrComplete core stream) s = .next ({ s with snp := snp }.setCore core co) ∧
      snp = { s.snp with rcFlags := snp.rcFlags } ∧
      co.flg = (s.core core).flg ||| BitVec.ofNat 12 e.flags ∧
      co.inflight = ((s.core core).captureRows cyc).inflight.filter (fun x => !(x.stream == e.stream && x.ord == e.ord)) ∧
      (wOpc e.word ≠ 1 → memRead co.store (recordAddr e.stream e.ord) 64 = recordBytes e (s.cell k).step.toNat) ∧
      (∀ a, Outside e.allPuts false a → (wOpc e.word = 1 ∨ a < recordAddr e.stream e.ord ∨ recordAddr e.stream e.ord + 64 ≤ a) →
        memGet co.store a = memGet (s.core core).store a) ∧
      (∀ a, Outside e.allPuts true a → memGet co.treg a = memGet (s.core core).treg a) ∧
      (e.postTok ≠ 0 → co.token e.postTok = (s.core core).token e.postTok + 1) ∧
      (∀ t, t ≠ e.postTok → co.token t = (s.core core).token t) ∧
      co.ptr = (s.core core).ptr ∧ co.ord = (s.core core).ord ∧ co.arrays = (s.core core).arrays ∧ co.mvu = (s.core core).mvu

/-- A fault of a running cell whose context area is usable: it is logged and recorded, the cell is held and, where the
management firmware may resolve it, waits in FAULT_HOLD; where it may not, its pre-emption starts at once. FLT_CAUSE keeps the
first outstanding fault. Of HBM only VALID of the image changes, where the media hold no error (R369, R472 to R476, R479, R488). -/
def Obligations.FaultHoldsOrPreempts : Prop :=
  ∀ (s : State) (k code lcore stream ord : Nat) (fs : List EvF) (res : Bool), (s.cell k).ctx = 0 → (s.cell k).areaOk = true →
    let t := s.raiseFault k code fs lcore stream ord res
    let r : FaultRec := ⟨BitVec.ofNat 16 code, lcore, stream, ord, res⟩
    (t.cell k).faults = (s.cell k).faults ++ [r] ∧ (t.cell k).holds.fault = true ∧
      (t.cell k).ctx = (if res then 1 else 2) ∧ ((s.cell k).faults ≠ [] → (t.cell k).cause = (s.cell k).cause) ∧
      (t.cell k).step = (s.cell k).step ∧ (t.cell k).tick = (s.cell k).tick ∧
      (∀ j, j ≠ k → t.cell j = s.cell j) ∧ t.cores = s.cores ∧ t.exp = s.exp ∧ t.ports = s.ports ∧
      (s.mediaErr = [] → ∀ a, a ≠ (s.cell k).area.toNat + 6 → memGet t.hbm a = memGet s.hbm a)

/-- The other commands of the schedule: a stall faults, a waiting group starts to stream, a transfer completes, a HOME line is
written, left or acknowledged, the device arrives at its STEP_END. -/
def Obligations.ScheduleEventsTakeEffect : Prop :=
  tickDecisionSteps ∧ tickHeldForUnit ∧ schedStallDoes ∧ arrayStreamStartDoes ∧ instrCompleteDoes ∧ dmaCompleteDoes ∧ plinthWriteAckDoes ∧
    homeLineSkipDoes ∧ homeLineWriteDoes ∧ homeLineFaults ∧ stepEndArriveReadyDoes ∧ stepEndCompares

/-- Calipers retries: the retry starts with the weights loaded again, and its rows decide CAL_RETRY_OK or CAL_MISMATCH. -/
def Obligations.CalipersRetryDecides : Prop :=
  calRetryNone ∧ calRetryStartDoes ∧ calRetryStartPointing ∧ calRetryPasses ∧ calRetryFails

/-- Pointing: a sampled instruction is executed again; equal digests pass; else a third execution decides the outcome, the blame
and the taint; heightened pointing follows a droop trip. -/
def Obligations.PointingDecides : Prop :=
  pointDoes ∧ pointPasses ∧ pointDiffers ∧ pointThirdDecides ∧ heightenedReexecDoes ∧ droopTripDoes ∧ droopTripAlone ∧ droopEndDoes

/-- A gallery request that passes the filter is executed exactly once, in the order of its flow: in order it is executed and
answered; as a duplicate its kept response is sent again; ahead of its turn NAK names the SEQ expected; one that the target
cannot take is answered BUSY; one to an old incarnation gets ERR; one that is forged is discarded (R443, R454, R456, R460). -/
def Obligations.RequestsExecuteOnceInOrder : Prop :=
  requestInOrder ∧ requestBusy ∧ requestDuplicate ∧ requestAhead ∧ requestStale ∧ requestOwn ∧ forgedDiscarded ∧ tcdfInOrder

/-- What PUT, GETREQ, ATOM and SIGNAL do at their target, and that every request of R449 whose SEQ is the one expected completes with its
own effect there and is answered. -/
def Obligations.TargetsDoTheirWork : Prop :=
  accessKeeps ∧ putLands ∧ putRefused ∧ getReads ∧ atomExecutes ∧ signalPosts ∧ putCompletes ∧ getreqCompletes ∧ atomCompletes ∧
    addsCompletes ∧ addsInWindow ∧ addaCompletes ∧ signalCompletes ∧ xcntCompletes ∧ xbaseCompletes ∧ exprecCompletes ∧ resendCompletes ∧
    normCompletes ∧ sealxCompletes ∧ tcdfCompletes

/-- A response, or one of the control packets, that passes has its effect; the timers of a flow; forwarding; the end of a wait
for sums of other devices. -/
def Obligations.ResponsesAndControlTakeEffect : Prop :=
  controlDoes ∧ responsesComplete ∧ answerLands ∧ controlStale ∧ busyWaits ∧ timeoutResends ∧ forwards ∧ gnormTimeoutDoes

/-- Heartbeats keep the live set; a device follows one acting head, becomes HEADLESS without it, heads the fleet itself or is
fenced (R465, R468, R469). -/
def Obligations.HeadsAndHeartbeats : Prop :=
  galStateHolds ∧ hbTimerDoes ∧ hbReceiveDoes ∧ headbeatReceiveDoes ∧ headbeatTimeoutDoes ∧ deputyTakeoverDoes ∧ headlessFenceDoes

/-- The acting head declares slots dead with new incarnations, every device learns of it, and a rendezvous goes on by epochs
(R445, R458, R462, R463, R466, R467). -/
def Obligations.DeathsAndEpochs : Prop :=
  liveSetCheckDoes ∧ declareMovesIncarnation ∧ deathReceiveDoes ∧ relayDoes ∧ deathAckDoes ∧ rdvTimeoutDoes ∧ releaseAdvancesEpoch

/-- Snapshots are captured, drained and uploaded (R498 to R500, R516, R540). -/
def Obligations.SnapshotsTakeEffect : Prop :=
  snapCaptureDoes ∧ drainBegins ∧ snapFlashDoes ∧ snapStoreDoes ∧ uploadEnds ∧ snpTakeDoes

/-- A restore is checked before it has its effects, and a fill goes through its phases (R501 to R503, R507 to R510). -/
def Obligations.RestoresAndFills : Prop := fillAttachDoes ∧ fillCopyDoes ∧ restoreCompleteDoes ∧ restoreSetsStep

/-- The export engine sends, drops and pauses, and the partner asks again for stale lines (R410 to R415). -/
def Obligations.ExportEngineActs : Prop := exportSendDoes ∧ dropRecordDoes ∧ expPauseDoes ∧ mirrorResendDoes

/-- The memory's own work: patrols, flushes, repairs and retirements, temporary lines, the regulators, the caches of
translations, the refresh (R368 to R386, R576). -/
def Obligations.PlinthsActOnTheirOwn : Prop :=
  patrolDoes ∧ sectorErrCounts ∧ plcFlushDoes ∧ rowRepairDoes ∧ frameRetireDoes ∧ noallocReleaseDoes ∧ regulatorServeDoes ∧ regulatorServes ∧
    xlInvalDoes ∧ hbmHeatDoes

/-- A link trains, authenticates its peer and goes UP, or goes DOWN or is quarantined with the reason (R430 to R436). -/
def Obligations.LinksTrainAndAuthenticate : Prop :=
  portLeaves ∧ trainAttemptDoes ∧ trainingTimeoutDoes ∧ trainingDoneDoes ∧ helloDoes ∧ certDoes ∧ signDoes ∧ authTimeoutDoes

/-- A link that is UP carries codewords, retrains, and answers the commands of LNK_CTRL (R422 to R439). -/
def Obligations.LinksCarryAndRetrain : Prop :=
  laneUnhealthyDoes ∧ retrainDoneDoes ∧ codewordDoes ∧ replayTimeoutDoes ∧ creditTimeoutDoes ∧ linkCommandsDo

/-- A fault hold ends in a retry or a pre-emption, and a pre-emption saves the cell in its context area and nowhere else (R474 to
R480, R487, R488). -/
def Obligations.CellsArePreempted : Prop := fltRetryDoes ∧ holdEnds ∧ ctxPreemptDoes ∧ preemptBegins ∧ preemptSaveDoes

/-- A pre-empted cell resumes where its image left it, or is refused with the reason (R482, R484 to R486). -/
def Obligations.CellsResume : Prop := ctxResumeDoes ∧ resumeDoneDoes ∧ resumedCell

/-- Every control request of the expected SEQ is executed exactly once and answered, after those of its session before it; a duplicate gets the
kept answer and is not executed again (R527, R529, R533). -/
def Obligations.ControlRequestsExecuteOnce : Prop :=
  tcdExecutes ∧ tcdAccepts ∧ tcdWaits ∧ waitedRuns ∧ servedInOrder ∧ tcdDuplicate ∧ tcdAhead ∧ tcdBusy

/-- A control request that may not be executed here: another EPOCH, the wrong role, another target, no session, a wrong TAG (R523,
R525, R528, R532, R534). -/
def Obligations.ControlRequestsTurnedAway : Prop :=
  tcdEpoch ∧ tcdRole ∧ tcdFormat ∧ tcdForwards ∧ forwardDoes ∧ tcdUnverified

/-- Sessions open, are confirmed, close and repeat their notifications (R524 to R526, R530). -/
def Obligations.SessionsOpenAndClose : Prop :=
  sessionOpenDoes ∧ sessionConfirmDoes ∧ sessionTimeoutsDo ∧ closeRemoves ∧ notifyResendDoes

/-- What the control requests do to registers, cells, tokens and queue pairs, and what they answer (R531). -/
def Obligations.ControlRequestsDoTheirWork : Prop :=
  csrCommands ∧ cellCommands ∧ tokenPostDoes ∧ qpCommands ∧ readCommands ∧ attestDoes ∧ resetCommands ∧ recoveryCommands

/-- A class C reset of a cell (R547, R569). -/
def Obligations.CellResetIsLocal : Prop := cellResetDoes

/-- RoCEv2 requests through the windows, and the requester of the STORE target (R536 to R541). -/
def Obligations.RdmaThroughWindows : Prop :=
  rdmaWriteDoes ∧ rdmaWriteContinues ∧ rdmaWriteRefused ∧ rdmaReadDoes ∧ roceOutOfOrder ∧ windowAllows ∧ requesterDoes ∧ psnCoversWindow ∧
    rateDoes

/-- The Ethernet ports and the clock (R519, R520, R541, R543 to R546). -/
def Obligations.EthernetAndClock : Prop := framesDo ∧ ethLinkDoes ∧ ptpDoes ∧ ptpLocks

/-- What each reset class leaves of the module (R548, R552, R557, R569). -/
def Obligations.ResetsKeepAndClear : Prop := warmLeaves ∧ warmImages ∧ moduleLeaves ∧ powerLeaves

/-- The triggers of the P and M resets (R547, R618, R619). -/
def Obligations.ResetTriggers : Prop := powerTriggers ∧ moduleTriggers ∧ thermalTripDoes

/-- The bring-up, and the reset of a lone block (R550 to R559, R563). -/
def Obligations.BringUpRunsItsStages : Prop := stageOneDoes ∧ stagesDo ∧ stageFails ∧ blockResetDoes

/-- The supply monitor, hot-plug and the power states (R560 to R568, R622). -/
def Obligations.SupplyHotPlugAndPower : Prop := supplyDoes ∧ insertionDoes ∧ removalDoes ∧ powerStatesDo

/-- Sensors and what follows from them (R575, R576). -/
def Obligations.SensorsThrottle : Prop := coreHeatDoes ∧ rethrottleDoes ∧ throttleStepDoes ∧ powerDoes

/-- Firmware, ownership and the recovery loader (R559, R581 to R587, R599). -/
def Obligations.FirmwareOwnershipRecovery : Prop := firmwareDoes ∧ imageChecks ∧ ownershipDoes ∧ ownershipBusy ∧ loaderDoes

/-- Surveys, the suspect state, the event log and the Patina (R578, R579, R590 to R597). -/
def Obligations.SurveysAndRecords : Prop := surveysFallDue ∧ surveyDecides ∧ surveyIslandDoes ∧ suspectClears ∧ recordsAreKept

/-- The commands of an armature load (R43 to R48). -/
def Obligations.ArmatureLoads : Prop := loadCommands ∧ loadRefusals ∧ loadTimesOut

/-- Verification, apply and persistence of an armature (R48 to R55). -/
def Obligations.ArmatureVerifiesAndApplies : Prop :=
  loadVerifies ∧ loadVerifiesOnly ∧ verifyChecks ∧ loadApplies ∧ loadPersists

/-- Encodings of FP32, BF16 and W40 are read and written without loss, a NaN is the canonical one, and a rounding gives one of the two
neighbours of its value (R57 to R62, R73, R74). -/
def Obligations.FloatsReadBackAndRound : Prop := nanIsCanonical ∧ floatRoundTrips ∧ srGivesANeighbour ∧ rneGivesANeighbour

/-- Results of the element-wise group (R193, R295). -/
def Obligations.ElementwiseResults : Prop := elementResults ∧ comparisonResults

/-- Reductions of empty rows and of rows with a NaN (R197). -/
def Obligations.ReductionIdentitiesAndNaNs : Prop := reductionsOfRows

/-- A sparse line reads back what it was built from, and CARVE releases and keeps its slots (R155, R156, R391). -/
def Obligations.LinesReadBack : Prop := linesReadBack ∧ carveReleases

/-- CARVE and the ages of slots (R157). -/
def Obligations.CarveAgesItsSlots : Prop := carveAges

/-- Suppression of events (R579). -/
def Obligations.EventsAreSuppressed : Prop := eventsSuppressed

/-- The layout of an event record (R577). -/
def Obligations.EventRecordLayout : Prop := recordLayout

/-- Memories and poison maps hold what is written to them (R231 to R233, R364). -/
def Obligations.MemoriesReadBack : Prop := memoryReadsBack ∧ poisonFollows ∧ wordReadsBack

/-- A register write that asks for an event has that event's effect (R7, R603). -/
def Obligations.ControlRegistersCommand : Prop := controlRegisters ∧ retryRegister

/-- Register writes that set or clear fields, and addresses that hold no such field (R7 to R10, R602 to R609). -/
def Obligations.RegisterWritesTakeEffect : Prop := clearedByOne ∧ writtenRegisters ∧ otherAddresses ∧ i2cAnswers

/-- The reset values of the registers (R11, R605 to R610). -/
def Obligations.ResetRegisters : Prop := resetValues

/-- A reset of the module ends a block reset (R555). -/
def Obligations.ResetSupersedesBlockReset : Prop := resetsSupersede
end

