-- ==== Sys2Proof/Laws/Tables.lean ====
section
/-! SUPPORT. The laws of sparse tables, memories and poison sets: a read after a write, and the canonical forms that every
operation keeps. -/
namespace Sys2Proof.Machine
open Sys2Proof

/-! Tables. -/

theorem tabGet_tabDel {α : Type} (d : α) (t : Tab α) (k : Nat) : tabGet d (tabDel t k) k = d := by
  induction t with
  | nil => rfl
  | cons e r ih =>
    by_cases h : e.1 = k
    · simpa [tabDel, h] using ih
    · simpa [tabDel, h, tabGet] using ih

theorem tabGet_tabDel_ne {α : Type} (d : α) (t : Tab α) (k j : Nat) (hj : j ≠ k) :
    tabGet d (tabDel t k) j = tabGet d t j := by
  induction t with
  | nil => rfl
  | cons e r ih =>
    have ih' : tabGet d (r.filter (fun e => !decide (e.1 = k))) j = tabGet d r j := by simpa [tabDel] using ih
    by_cases h : e.1 = k
    · simp [tabDel, h, tabGet, ih', Ne.symm hj]
    · simp [tabDel, h, tabGet, ih']

theorem tabGet_tabIns {α : Type} (d : α) (t : Tab α) (k : Nat) (v : α) (h : ∀ e ∈ t, e.1 ≠ k) :
    tabGet d (tabIns t k v) k = v := by
  induction t with
  | nil => simp [tabIns, tabGet]
  | cons e r ih =>
    have h1 : e.1 ≠ k := h e (by simp)
    by_cases hk : k < e.1
    · simp [tabIns, hk, tabGet]
    · simp [tabIns, hk, tabGet, h1, ih (fun x hx => h x (by simp [hx]))]

theorem tabGet_tabIns_ne {α : Type} (d : α) (t : Tab α) (k j : Nat) (v : α) (hj : j ≠ k) :
    tabGet d (tabIns t k v) j = tabGet d t j := by
  induction t with
  | nil => simp [tabIns, tabGet, Ne.symm hj]
  | cons e r ih =>
    by_cases hk : k < e.1
    · simp [tabIns, hk, tabGet, Ne.symm hj]
    · simp [tabIns, hk, tabGet, ih]

theorem not_mem_tabDel {α : Type} (t : Tab α) (k : Nat) : ∀ e ∈ tabDel t k, e.1 ≠ k := by
  simp [tabDel]

/-- A table read at the key just set. -/
@[simp] theorem tabGet_tabSet {α : Type} [DecidableEq α] (d : α) (t : Tab α) (k : Nat) (v : α) :
    tabGet d (tabSet d t k v) k = v := by
  unfold tabSet
  split
  · next h => rw [tabGet_tabDel, h]
  · exact tabGet_tabIns d _ k v (not_mem_tabDel t k)

/-- A table read at another key. -/
theorem tabGet_tabSet_ne {α : Type} [DecidableEq α] (d : α) (t : Tab α) (k j : Nat) (v : α) (hj : j ≠ k) :
    tabGet d (tabSet d t k v) j = tabGet d t j := by
  unfold tabSet
  split
  · exact tabGet_tabDel_ne d t k j hj
  · rw [tabGet_tabIns_ne d _ k j v hj, tabGet_tabDel_ne d t k j hj]

@[simp] theorem tabGet_tabMod {α : Type} [DecidableEq α] (d : α) (t : Tab α) (k : Nat) (f : α → α) :
    tabGet d (tabMod d t k f) k = f (tabGet d t k) := by simp [tabMod]

theorem tabGet_tabMod_ne {α : Type} [DecidableEq α] (d : α) (t : Tab α) (k j : Nat) (f : α → α) (hj : j ≠ k) :
    tabGet d (tabMod d t k f) j = tabGet d t j := by simp [tabMod, tabGet_tabSet_ne, hj]

theorem tabWf_iff {α : Type} [DecidableEq α] (d : α) (t : Tab α) :
    tabWf d t = true ↔ (t.map Prod.fst).Pairwise (· < ·) ∧ ∀ e ∈ t, e.2 ≠ d := by
  simp [tabWf]

theorem tabWf_nil {α : Type} [DecidableEq α] (d : α) : tabWf d ([] : Tab α) = true := by simp [tabWf]

theorem tabWf_filter {α : Type} [DecidableEq α] (d : α) (t : Tab α) (p : Nat × α → Bool) (h : tabWf d t = true) :
    tabWf d (t.filter p) = true := by
  rw [tabWf_iff] at h ⊢
  exact ⟨h.1.sublist (List.filter_sublist.map _), fun e he => h.2 e (List.mem_filter.mp he).1⟩

theorem mem_tabIns {α : Type} (t : Tab α) (k : Nat) (v : α) (e : Nat × α) (h : e ∈ tabIns t k v) : e = (k, v) ∨ e ∈ t := by
  induction t with
  | nil => simpa [tabIns] using h
  | cons x r ih =>
    by_cases hk : k < x.1
    · simpa [tabIns, hk] using h
    · simp only [tabIns, hk, if_false, List.mem_cons] at h
      rcases h with h | h
      · simp [h]
      · rcases ih h with h | h <;> simp [h]

theorem pairwise_tabIns {α : Type} (t : Tab α) (k : Nat) (v : α) (h : (t.map Prod.fst).Pairwise (· < ·))
    (hk : ∀ e ∈ t, e.1 ≠ k) : ((tabIns t k v).map Prod.fst).Pairwise (· < ·) := by
  induction t with
  | nil => simp [tabIns]
  | cons x r ih =>
    simp only [List.map_cons, List.pairwise_cons] at h
    by_cases hx : k < x.1
    · simp only [tabIns, hx, if_true, List.map_cons, List.pairwise_cons, List.mem_cons, forall_eq_or_imp]
      exact ⟨⟨trivial, fun y hy => lt_trans hx (h.1 y hy)⟩, h.1, h.2⟩
    · simp only [tabIns, hx, if_false, List.map_cons, List.pairwise_cons]
      have h1 : x.1 ≠ k := hk x (by simp)
      refine ⟨?_, ih h.2 (fun e he => hk e (by simp [he]))⟩
      intro y hy
      obtain ⟨e, he, rfl⟩ := List.mem_map.mp hy
      rcases mem_tabIns r k v e he with h2 | h2
      · subst h2; simp only; omega
      · exact h.1 _ (List.mem_map.mpr ⟨e, h2, rfl⟩)

/-- Setting a key keeps the canonical form. -/
theorem tabWf_tabSet {α : Type} [DecidableEq α] (d : α) (t : Tab α) (k : Nat) (v : α) (h : tabWf d t = true) :
    tabWf d (tabSet d t k v) = true := by
  have hd : tabWf d (tabDel t k) = true := tabWf_filter d t _ h
  unfold tabSet
  split
  · exact hd
  · next hv =>
    rw [tabWf_iff] at hd ⊢
    refine ⟨pairwise_tabIns _ k v hd.1 (not_mem_tabDel t k), fun e he => ?_⟩
    rcases mem_tabIns _ k v e he with h2 | h2
    · subst h2; exact hv
    · exact hd.2 e h2

theorem tabWf_tabMod {α : Type} [DecidableEq α] (d : α) (t : Tab α) (k : Nat) (f : α → α) (h : tabWf d t = true) :
    tabWf d (tabMod d t k f) = true := tabWf_tabSet d t k _ h

theorem tabWf_foldl {α β : Type} [DecidableEq α] {d : α} (f : Tab α → β → Tab α)
    (hf : ∀ t x, tabWf d t = true → tabWf d (f t x) = true) (l : List β) :
    ∀ t, tabWf d t = true → tabWf d (l.foldl f t) = true := by
  induction l with
  | nil => exact fun _ h => h
  | cons x r ih => exact fun t h => ih _ (hf t x h)

/-! Memories. -/

/-- Writing bytes keeps the canonical form of a memory. -/
theorem memWf_memWrite (b : List Byte) : ∀ (m : Mem) (a : Nat), memWf m = true → memWf (memWrite m a b) = true := by
  induction b with
  | nil => exact fun _ _ h => h
  | cons x r ih => exact fun m a h => ih _ _ (tabWf_tabSet 0 m a x h)

/-- A byte outside the bytes written reads as before. -/
theorem memGet_memWrite_out (b : List Byte) : ∀ (m : Mem) (a j : Nat), ¬ (a ≤ j ∧ j < a + b.length) →
    memGet (memWrite m a b) j = memGet m j := by
  induction b with
  | nil => exact fun _ _ _ _ => rfl
  | cons x r ih =>
    intro m a j h
    simp only [List.length_cons] at h
    rw [memWrite, ih _ _ _ (by omega)]
    exact tabGet_tabSet_ne 0 m a j x (by omega)

/-- A byte written reads back. -/
theorem memGet_memWrite_in (b : List Byte) : ∀ (m : Mem) (a i : Nat) (h : i < b.length),
    memGet (memWrite m a b) (a + i) = b[i] := by
  induction b with
  | nil => intro m a i h; simp at h
  | cons x r ih =>
    intro m a i h
    cases i with
    | zero =>
      show memGet (memWrite (tabSet 0 m a x) (a + 1) r) a = x
      rw [memGet_memWrite_out r _ (a + 1) a (by omega)]
      exact tabGet_tabSet 0 m a x
    | succ i =>
      have := ih (tabSet 0 m a x) (a + 1) i (by simpa using h)
      rw [memWrite, show a + (i + 1) = a + 1 + i by omega, this]; rfl

/-- Bytes read back where they were written. -/
theorem memRead_memWrite (m : Mem) (a : Nat) (b : List Byte) : memRead (memWrite m a b) a b.length = b := by
  apply List.ext_getElem
  · simp [memRead]
  · intro i h1 h2
    simp [memRead, memGet_memWrite_in b m a i h2]

/-! Poison sets. -/

theorem psWf_filter (p : PSet) (q : Nat → Bool) (h : psWf p = true) : psWf (p.filter q) = true := by
  simp only [psWf, decide_eq_true_eq] at h ⊢
  exact h.sublist List.filter_sublist

theorem mem_psIns (p : PSet) (k x : Nat) (h : x ∈ psIns p k) : x = k ∨ x ∈ p := by
  induction p with
  | nil => simpa [psIns] using h
  | cons y r ih =>
    by_cases hk : k < y
    · simpa [psIns, hk] using h
    · simp only [psIns, hk, if_false, List.mem_cons] at h
      rcases h with h | h
      · simp [h]
      · rcases ih h with h | h <;> simp [h]

theorem psWf_psAdd (p : PSet) (k : Nat) (h : psWf p = true) : psWf (psAdd p k) = true := by
  have hd : psWf (psDel p k) = true := psWf_filter p _ h
  have hk : ∀ x ∈ psDel p k, x ≠ k := by simp [psDel]
  unfold psAdd
  generalize psDel p k = q at hd hk
  simp only [psWf, decide_eq_true_eq] at hd ⊢
  induction q with
  | nil => simp [psIns]
  | cons y r ih =>
    simp only [List.pairwise_cons] at hd
    by_cases hy : k < y
    · simp only [psIns, hy, if_true, List.pairwise_cons, List.mem_cons, forall_eq_or_imp]
      exact ⟨⟨trivial, fun z hz => lt_trans hy (hd.1 z hz)⟩, hd.1, hd.2⟩
    · simp only [psIns, hy, if_false, List.pairwise_cons]
      have h1 : y ≠ k := hk y (by simp)
      refine ⟨fun z hz => ?_, ih (fun x hx => hk x (List.mem_cons_of_mem _ hx)) hd.2⟩
      rcases mem_psIns r k z hz with h2 | h2
      · omega
      · exact hd.1 z h2

theorem psWf_psPut (p : PSet) (k : Nat) (b : Bool) (h : psWf p = true) : psWf (psPut p k b) = true := by
  unfold psPut
  split
  · exact psWf_psAdd p k h
  · exact psWf_filter p _ h

theorem psWf_foldl {α : Type} (f : PSet → α → PSet) (hf : ∀ p x, psWf p = true → psWf (f p x) = true) (l : List α) :
    ∀ p, psWf p = true → psWf (l.foldl f p) = true := by
  induction l with
  | nil => exact fun _ h => h
  | cons x r ih => exact fun p h => ih _ (hf p x h)

theorem psWf_psPutRange (p : PSet) (k n : Nat) (b : Bool) (h : psWf p = true) : psWf (psPutRange p k n b) = true :=
  psWf_foldl _ (fun q i hq => psWf_psPut q (k + i) b hq) _ p h

theorem psWf_poisWrite (p : PSet) (u a n : Nat) (b : Bool) (h : psWf p = true) : psWf (poisWrite p u a n b) = true := by
  unfold poisWrite
  split
  · exact h
  · split <;> exact psWf_psPutRange _ _ _ _ h

theorem psWf_poisBytes (p : PSet) (u a : Nat) (bs : List PByte) (h : psWf p = true) :
    psWf (poisBytes p u a bs) = true := by
  unfold poisBytes
  split
  · exact h
  · refine psWf_foldl _ (fun q i hq => ?_) _ p h
    simp only
    split
    · exact psWf_psAdd _ _ hq
    · split
      · exact psWf_filter _ _ hq
      · exact hq

theorem psWf_clearPois (p : PSet) (a n : Nat) (h : psWf p = true) : psWf (clearPois p a n) = true := psWf_filter p _ h

/-- Putting a memory's entries into a range keeps the canonical form. -/
theorem memWf_memPut (m : Mem) (a n : Nat) (src : Mem) (h : memWf m = true) : memWf (memPut m a n src) = true := by
  unfold memPut
  have h0 : memWf (m.filter (fun e => decide (e.1 < a) || decide (a + n ≤ e.1))) = true := tabWf_filter 0 m _ h
  generalize m.filter _ = q at h0
  generalize src.filter _ = l
  induction l generalizing q with
  | nil => exact h0
  | cons x r ih => exact ih _ (tabWf_tabSet 0 q _ _ h0)

end Sys2Proof.Machine
end

