-- ==== Sys2Proof/Laws/State.lean ====
section
/-! SUPPORT. The fields of the state after each update of it, the parts read back, and what logging an event leaves. -/
namespace Sys2Proof.Machine
open Sys2Proof

@[simp] theorem State.setCore_pending (s : State) (n : Nat) (c : Core) : (s.setCore n c).pending = s.pending := rfl
@[simp] theorem State.setCore_free (s : State) (n : Nat) (c : Core) : (s.setCore n c).free = s.free := rfl
@[simp] theorem State.setCore_out (s : State) (n : Nat) (c : Core) : (s.setCore n c).out = s.out := rfl
@[simp] theorem State.setCore_cells (s : State) (n : Nat) (c : Core) : (s.setCore n c).cells = s.cells := rfl
@[simp] theorem State.setCore_hbm (s : State) (n : Nat) (c : Core) : (s.setCore n c).hbm = s.hbm := rfl
@[simp] theorem State.setCore_hbmPois (s : State) (n : Nat) (c : Core) : (s.setCore n c).hbmPois = s.hbmPois := rfl
@[simp] theorem State.setCore_mediaErr (s : State) (n : Nat) (c : Core) : (s.setCore n c).mediaErr = s.mediaErr := rfl
@[simp] theorem State.setCore_plinths (s : State) (n : Nat) (c : Core) : (s.setCore n c).plinths = s.plinths := rfl
@[simp] theorem State.setCore_ports (s : State) (n : Nat) (c : Core) : (s.setCore n c).ports = s.ports := rfl
@[simp] theorem State.setCore_eths (s : State) (n : Nat) (c : Core) : (s.setCore n c).eths = s.eths := rfl
@[simp] theorem State.setCore_arm (s : State) (n : Nat) (c : Core) : (s.setCore n c).arm = s.arm := rfl
@[simp] theorem State.setCore_cfg (s : State) (n : Nat) (c : Core) : (s.setCore n c).cfg = s.cfg := rfl
@[simp] theorem State.setCore_gal (s : State) (n : Nat) (c : Core) : (s.setCore n c).gal = s.gal := rfl
@[simp] theorem State.setCore_exp (s : State) (n : Nat) (c : Core) : (s.setCore n c).exp = s.exp := rfl
@[simp] theorem State.setCore_snp (s : State) (n : Nat) (c : Core) : (s.setCore n c).snp = s.snp := rfl
@[simp] theorem State.setCore_evt (s : State) (n : Nat) (c : Core) : (s.setCore n c).evt = s.evt := rfl
@[simp] theorem State.setCore_hst (s : State) (n : Nat) (c : Core) : (s.setCore n c).hst = s.hst := rfl
@[simp] theorem State.setCore_ptp (s : State) (n : Nat) (c : Core) : (s.setCore n c).ptp = s.ptp := rfl
@[simp] theorem State.setCore_rst (s : State) (n : Nat) (c : Core) : (s.setCore n c).rst = s.rst := rfl
@[simp] theorem State.setCore_pwr (s : State) (n : Nat) (c : Core) : (s.setCore n c).pwr = s.pwr := rfl
@[simp] theorem State.setCore_mgmt (s : State) (n : Nat) (c : Core) : (s.setCore n c).mgmt = s.mgmt := rfl
@[simp] theorem State.setCore_calPoints (s : State) (n : Nat) (c : Core) : (s.setCore n c).calPoints = s.calPoints := rfl
@[simp] theorem State.setCore_calPmiss (s : State) (n : Nat) (c : Core) : (s.setCore n c).calPmiss = s.calPmiss := rfl

@[simp] theorem State.modCore_pending (s : State) (n : Nat) (f : Core → Core) : (s.modCore n f).pending = s.pending := rfl
@[simp] theorem State.modCore_free (s : State) (n : Nat) (f : Core → Core) : (s.modCore n f).free = s.free := rfl
@[simp] theorem State.modCore_out (s : State) (n : Nat) (f : Core → Core) : (s.modCore n f).out = s.out := rfl
@[simp] theorem State.modCore_cells (s : State) (n : Nat) (f : Core → Core) : (s.modCore n f).cells = s.cells := rfl
@[simp] theorem State.modCore_hbm (s : State) (n : Nat) (f : Core → Core) : (s.modCore n f).hbm = s.hbm := rfl
@[simp] theorem State.modCore_hbmPois (s : State) (n : Nat) (f : Core → Core) : (s.modCore n f).hbmPois = s.hbmPois := rfl
@[simp] theorem State.modCore_mediaErr (s : State) (n : Nat) (f : Core → Core) : (s.modCore n f).mediaErr = s.mediaErr := rfl
@[simp] theorem State.modCore_plinths (s : State) (n : Nat) (f : Core → Core) : (s.modCore n f).plinths = s.plinths := rfl
@[simp] theorem State.modCore_ports (s : State) (n : Nat) (f : Core → Core) : (s.modCore n f).ports = s.ports := rfl
@[simp] theorem State.modCore_eths (s : State) (n : Nat) (f : Core → Core) : (s.modCore n f).eths = s.eths := rfl
@[simp] theorem State.modCore_arm (s : State) (n : Nat) (f : Core → Core) : (s.modCore n f).arm = s.arm := rfl
@[simp] theorem State.modCore_cfg (s : State) (n : Nat) (f : Core → Core) : (s.modCore n f).cfg = s.cfg := rfl
@[simp] theorem State.modCore_gal (s : State) (n : Nat) (f : Core → Core) : (s.modCore n f).gal = s.gal := rfl
@[simp] theorem State.modCore_exp (s : State) (n : Nat) (f : Core → Core) : (s.modCore n f).exp = s.exp := rfl
@[simp] theorem State.modCore_snp (s : State) (n : Nat) (f : Core → Core) : (s.modCore n f).snp = s.snp := rfl
@[simp] theorem State.modCore_evt (s : State) (n : Nat) (f : Core → Core) : (s.modCore n f).evt = s.evt := rfl
@[simp] theorem State.modCore_hst (s : State) (n : Nat) (f : Core → Core) : (s.modCore n f).hst = s.hst := rfl
@[simp] theorem State.modCore_ptp (s : State) (n : Nat) (f : Core → Core) : (s.modCore n f).ptp = s.ptp := rfl
@[simp] theorem State.modCore_rst (s : State) (n : Nat) (f : Core → Core) : (s.modCore n f).rst = s.rst := rfl
@[simp] theorem State.modCore_pwr (s : State) (n : Nat) (f : Core → Core) : (s.modCore n f).pwr = s.pwr := rfl
@[simp] theorem State.modCore_mgmt (s : State) (n : Nat) (f : Core → Core) : (s.modCore n f).mgmt = s.mgmt := rfl
@[simp] theorem State.modCore_calPoints (s : State) (n : Nat) (f : Core → Core) : (s.modCore n f).calPoints = s.calPoints := rfl
@[simp] theorem State.modCore_calPmiss (s : State) (n : Nat) (f : Core → Core) : (s.modCore n f).calPmiss = s.calPmiss := rfl

@[simp] theorem State.setCell_pending (s : State) (n : Nat) (c : Cell) : (s.setCell n c).pending = s.pending := rfl
@[simp] theorem State.setCell_free (s : State) (n : Nat) (c : Cell) : (s.setCell n c).free = s.free := rfl
@[simp] theorem State.setCell_out (s : State) (n : Nat) (c : Cell) : (s.setCell n c).out = s.out := rfl
@[simp] theorem State.setCell_cores (s : State) (n : Nat) (c : Cell) : (s.setCell n c).cores = s.cores := rfl
@[simp] theorem State.setCell_hbm (s : State) (n : Nat) (c : Cell) : (s.setCell n c).hbm = s.hbm := rfl
@[simp] theorem State.setCell_hbmPois (s : State) (n : Nat) (c : Cell) : (s.setCell n c).hbmPois = s.hbmPois := rfl
@[simp] theorem State.setCell_mediaErr (s : State) (n : Nat) (c : Cell) : (s.setCell n c).mediaErr = s.mediaErr := rfl
@[simp] theorem State.setCell_plinths (s : State) (n : Nat) (c : Cell) : (s.setCell n c).plinths = s.plinths := rfl
@[simp] theorem State.setCell_ports (s : State) (n : Nat) (c : Cell) : (s.setCell n c).ports = s.ports := rfl
@[simp] theorem State.setCell_eths (s : State) (n : Nat) (c : Cell) : (s.setCell n c).eths = s.eths := rfl
@[simp] theorem State.setCell_arm (s : State) (n : Nat) (c : Cell) : (s.setCell n c).arm = s.arm := rfl
@[simp] theorem State.setCell_cfg (s : State) (n : Nat) (c : Cell) : (s.setCell n c).cfg = s.cfg := rfl
@[simp] theorem State.setCell_gal (s : State) (n : Nat) (c : Cell) : (s.setCell n c).gal = s.gal := rfl
@[simp] theorem State.setCell_exp (s : State) (n : Nat) (c : Cell) : (s.setCell n c).exp = s.exp := rfl
@[simp] theorem State.setCell_snp (s : State) (n : Nat) (c : Cell) : (s.setCell n c).snp = s.snp := rfl
@[simp] theorem State.setCell_evt (s : State) (n : Nat) (c : Cell) : (s.setCell n c).evt = s.evt := rfl
@[simp] theorem State.setCell_hst (s : State) (n : Nat) (c : Cell) : (s.setCell n c).hst = s.hst := rfl
@[simp] theorem State.setCell_ptp (s : State) (n : Nat) (c : Cell) : (s.setCell n c).ptp = s.ptp := rfl
@[simp] theorem State.setCell_rst (s : State) (n : Nat) (c : Cell) : (s.setCell n c).rst = s.rst := rfl
@[simp] theorem State.setCell_pwr (s : State) (n : Nat) (c : Cell) : (s.setCell n c).pwr = s.pwr := rfl
@[simp] theorem State.setCell_mgmt (s : State) (n : Nat) (c : Cell) : (s.setCell n c).mgmt = s.mgmt := rfl
@[simp] theorem State.setCell_calPoints (s : State) (n : Nat) (c : Cell) : (s.setCell n c).calPoints = s.calPoints := rfl
@[simp] theorem State.setCell_calPmiss (s : State) (n : Nat) (c : Cell) : (s.setCell n c).calPmiss = s.calPmiss := rfl

@[simp] theorem State.modCell_pending (s : State) (n : Nat) (f : Cell → Cell) : (s.modCell n f).pending = s.pending := rfl
@[simp] theorem State.modCell_free (s : State) (n : Nat) (f : Cell → Cell) : (s.modCell n f).free = s.free := rfl
@[simp] theorem State.modCell_out (s : State) (n : Nat) (f : Cell → Cell) : (s.modCell n f).out = s.out := rfl
@[simp] theorem State.modCell_cores (s : State) (n : Nat) (f : Cell → Cell) : (s.modCell n f).cores = s.cores := rfl
@[simp] theorem State.modCell_hbm (s : State) (n : Nat) (f : Cell → Cell) : (s.modCell n f).hbm = s.hbm := rfl
@[simp] theorem State.modCell_hbmPois (s : State) (n : Nat) (f : Cell → Cell) : (s.modCell n f).hbmPois = s.hbmPois := rfl
@[simp] theorem State.modCell_mediaErr (s : State) (n : Nat) (f : Cell → Cell) : (s.modCell n f).mediaErr = s.mediaErr := rfl
@[simp] theorem State.modCell_plinths (s : State) (n : Nat) (f : Cell → Cell) : (s.modCell n f).plinths = s.plinths := rfl
@[simp] theorem State.modCell_ports (s : State) (n : Nat) (f : Cell → Cell) : (s.modCell n f).ports = s.ports := rfl
@[simp] theorem State.modCell_eths (s : State) (n : Nat) (f : Cell → Cell) : (s.modCell n f).eths = s.eths := rfl
@[simp] theorem State.modCell_arm (s : State) (n : Nat) (f : Cell → Cell) : (s.modCell n f).arm = s.arm := rfl
@[simp] theorem State.modCell_cfg (s : State) (n : Nat) (f : Cell → Cell) : (s.modCell n f).cfg = s.cfg := rfl
@[simp] theorem State.modCell_gal (s : State) (n : Nat) (f : Cell → Cell) : (s.modCell n f).gal = s.gal := rfl
@[simp] theorem State.modCell_exp (s : State) (n : Nat) (f : Cell → Cell) : (s.modCell n f).exp = s.exp := rfl
@[simp] theorem State.modCell_snp (s : State) (n : Nat) (f : Cell → Cell) : (s.modCell n f).snp = s.snp := rfl
@[simp] theorem State.modCell_evt (s : State) (n : Nat) (f : Cell → Cell) : (s.modCell n f).evt = s.evt := rfl
@[simp] theorem State.modCell_hst (s : State) (n : Nat) (f : Cell → Cell) : (s.modCell n f).hst = s.hst := rfl
@[simp] theorem State.modCell_ptp (s : State) (n : Nat) (f : Cell → Cell) : (s.modCell n f).ptp = s.ptp := rfl
@[simp] theorem State.modCell_rst (s : State) (n : Nat) (f : Cell → Cell) : (s.modCell n f).rst = s.rst := rfl
@[simp] theorem State.modCell_pwr (s : State) (n : Nat) (f : Cell → Cell) : (s.modCell n f).pwr = s.pwr := rfl
@[simp] theorem State.modCell_mgmt (s : State) (n : Nat) (f : Cell → Cell) : (s.modCell n f).mgmt = s.mgmt := rfl
@[simp] theorem State.modCell_calPoints (s : State) (n : Nat) (f : Cell → Cell) : (s.modCell n f).calPoints = s.calPoints := rfl
@[simp] theorem State.modCell_calPmiss (s : State) (n : Nat) (f : Cell → Cell) : (s.modCell n f).calPmiss = s.calPmiss := rfl

@[simp] theorem State.modPlinth_pending (s : State) (n : Nat) (f : Plinth → Plinth) : (s.modPlinth n f).pending = s.pending := rfl
@[simp] theorem State.modPlinth_free (s : State) (n : Nat) (f : Plinth → Plinth) : (s.modPlinth n f).free = s.free := rfl
@[simp] theorem State.modPlinth_out (s : State) (n : Nat) (f : Plinth → Plinth) : (s.modPlinth n f).out = s.out := rfl
@[simp] theorem State.modPlinth_cores (s : State) (n : Nat) (f : Plinth → Plinth) : (s.modPlinth n f).cores = s.cores := rfl
@[simp] theorem State.modPlinth_cells (s : State) (n : Nat) (f : Plinth → Plinth) : (s.modPlinth n f).cells = s.cells := rfl
@[simp] theorem State.modPlinth_hbm (s : State) (n : Nat) (f : Plinth → Plinth) : (s.modPlinth n f).hbm = s.hbm := rfl
@[simp] theorem State.modPlinth_hbmPois (s : State) (n : Nat) (f : Plinth → Plinth) : (s.modPlinth n f).hbmPois = s.hbmPois := rfl
@[simp] theorem State.modPlinth_mediaErr (s : State) (n : Nat) (f : Plinth → Plinth) : (s.modPlinth n f).mediaErr = s.mediaErr := rfl
@[simp] theorem State.modPlinth_ports (s : State) (n : Nat) (f : Plinth → Plinth) : (s.modPlinth n f).ports = s.ports := rfl
@[simp] theorem State.modPlinth_eths (s : State) (n : Nat) (f : Plinth → Plinth) : (s.modPlinth n f).eths = s.eths := rfl
@[simp] theorem State.modPlinth_arm (s : State) (n : Nat) (f : Plinth → Plinth) : (s.modPlinth n f).arm = s.arm := rfl
@[simp] theorem State.modPlinth_cfg (s : State) (n : Nat) (f : Plinth → Plinth) : (s.modPlinth n f).cfg = s.cfg := rfl
@[simp] theorem State.modPlinth_gal (s : State) (n : Nat) (f : Plinth → Plinth) : (s.modPlinth n f).gal = s.gal := rfl
@[simp] theorem State.modPlinth_exp (s : State) (n : Nat) (f : Plinth → Plinth) : (s.modPlinth n f).exp = s.exp := rfl
@[simp] theorem State.modPlinth_snp (s : State) (n : Nat) (f : Plinth → Plinth) : (s.modPlinth n f).snp = s.snp := rfl
@[simp] theorem State.modPlinth_evt (s : State) (n : Nat) (f : Plinth → Plinth) : (s.modPlinth n f).evt = s.evt := rfl
@[simp] theorem State.modPlinth_hst (s : State) (n : Nat) (f : Plinth → Plinth) : (s.modPlinth n f).hst = s.hst := rfl
@[simp] theorem State.modPlinth_ptp (s : State) (n : Nat) (f : Plinth → Plinth) : (s.modPlinth n f).ptp = s.ptp := rfl
@[simp] theorem State.modPlinth_rst (s : State) (n : Nat) (f : Plinth → Plinth) : (s.modPlinth n f).rst = s.rst := rfl
@[simp] theorem State.modPlinth_pwr (s : State) (n : Nat) (f : Plinth → Plinth) : (s.modPlinth n f).pwr = s.pwr := rfl
@[simp] theorem State.modPlinth_mgmt (s : State) (n : Nat) (f : Plinth → Plinth) : (s.modPlinth n f).mgmt = s.mgmt := rfl
@[simp] theorem State.modPlinth_calPoints (s : State) (n : Nat) (f : Plinth → Plinth) : (s.modPlinth n f).calPoints = s.calPoints := rfl
@[simp] theorem State.modPlinth_calPmiss (s : State) (n : Nat) (f : Plinth → Plinth) : (s.modPlinth n f).calPmiss = s.calPmiss := rfl

@[simp] theorem State.modPort_pending (s : State) (n : Nat) (f : Port → Port) : (s.modPort n f).pending = s.pending := rfl
@[simp] theorem State.modPort_free (s : State) (n : Nat) (f : Port → Port) : (s.modPort n f).free = s.free := rfl
@[simp] theorem State.modPort_out (s : State) (n : Nat) (f : Port → Port) : (s.modPort n f).out = s.out := rfl
@[simp] theorem State.modPort_cores (s : State) (n : Nat) (f : Port → Port) : (s.modPort n f).cores = s.cores := rfl
@[simp] theorem State.modPort_cells (s : State) (n : Nat) (f : Port → Port) : (s.modPort n f).cells = s.cells := rfl
@[simp] theorem State.modPort_hbm (s : State) (n : Nat) (f : Port → Port) : (s.modPort n f).hbm = s.hbm := rfl
@[simp] theorem State.modPort_hbmPois (s : State) (n : Nat) (f : Port → Port) : (s.modPort n f).hbmPois = s.hbmPois := rfl
@[simp] theorem State.modPort_mediaErr (s : State) (n : Nat) (f : Port → Port) : (s.modPort n f).mediaErr = s.mediaErr := rfl
@[simp] theorem State.modPort_plinths (s : State) (n : Nat) (f : Port → Port) : (s.modPort n f).plinths = s.plinths := rfl
@[simp] theorem State.modPort_eths (s : State) (n : Nat) (f : Port → Port) : (s.modPort n f).eths = s.eths := rfl
@[simp] theorem State.modPort_arm (s : State) (n : Nat) (f : Port → Port) : (s.modPort n f).arm = s.arm := rfl
@[simp] theorem State.modPort_cfg (s : State) (n : Nat) (f : Port → Port) : (s.modPort n f).cfg = s.cfg := rfl
@[simp] theorem State.modPort_gal (s : State) (n : Nat) (f : Port → Port) : (s.modPort n f).gal = s.gal := rfl
@[simp] theorem State.modPort_exp (s : State) (n : Nat) (f : Port → Port) : (s.modPort n f).exp = s.exp := rfl
@[simp] theorem State.modPort_snp (s : State) (n : Nat) (f : Port → Port) : (s.modPort n f).snp = s.snp := rfl
@[simp] theorem State.modPort_evt (s : State) (n : Nat) (f : Port → Port) : (s.modPort n f).evt = s.evt := rfl
@[simp] theorem State.modPort_hst (s : State) (n : Nat) (f : Port → Port) : (s.modPort n f).hst = s.hst := rfl
@[simp] theorem State.modPort_ptp (s : State) (n : Nat) (f : Port → Port) : (s.modPort n f).ptp = s.ptp := rfl
@[simp] theorem State.modPort_rst (s : State) (n : Nat) (f : Port → Port) : (s.modPort n f).rst = s.rst := rfl
@[simp] theorem State.modPort_pwr (s : State) (n : Nat) (f : Port → Port) : (s.modPort n f).pwr = s.pwr := rfl
@[simp] theorem State.modPort_mgmt (s : State) (n : Nat) (f : Port → Port) : (s.modPort n f).mgmt = s.mgmt := rfl
@[simp] theorem State.modPort_calPoints (s : State) (n : Nat) (f : Port → Port) : (s.modPort n f).calPoints = s.calPoints := rfl
@[simp] theorem State.modPort_calPmiss (s : State) (n : Nat) (f : Port → Port) : (s.modPort n f).calPmiss = s.calPmiss := rfl

@[simp] theorem State.modEth_pending (s : State) (n : Nat) (f : Eth → Eth) : (s.modEth n f).pending = s.pending := rfl
@[simp] theorem State.modEth_free (s : State) (n : Nat) (f : Eth → Eth) : (s.modEth n f).free = s.free := rfl
@[simp] theorem State.modEth_out (s : State) (n : Nat) (f : Eth → Eth) : (s.modEth n f).out = s.out := rfl
@[simp] theorem State.modEth_cores (s : State) (n : Nat) (f : Eth → Eth) : (s.modEth n f).cores = s.cores := rfl
@[simp] theorem State.modEth_cells (s : State) (n : Nat) (f : Eth → Eth) : (s.modEth n f).cells = s.cells := rfl
@[simp] theorem State.modEth_hbm (s : State) (n : Nat) (f : Eth → Eth) : (s.modEth n f).hbm = s.hbm := rfl
@[simp] theorem State.modEth_hbmPois (s : State) (n : Nat) (f : Eth → Eth) : (s.modEth n f).hbmPois = s.hbmPois := rfl
@[simp] theorem State.modEth_mediaErr (s : State) (n : Nat) (f : Eth → Eth) : (s.modEth n f).mediaErr = s.mediaErr := rfl
@[simp] theorem State.modEth_plinths (s : State) (n : Nat) (f : Eth → Eth) : (s.modEth n f).plinths = s.plinths := rfl
@[simp] theorem State.modEth_ports (s : State) (n : Nat) (f : Eth → Eth) : (s.modEth n f).ports = s.ports := rfl
@[simp] theorem State.modEth_arm (s : State) (n : Nat) (f : Eth → Eth) : (s.modEth n f).arm = s.arm := rfl
@[simp] theorem State.modEth_cfg (s : State) (n : Nat) (f : Eth → Eth) : (s.modEth n f).cfg = s.cfg := rfl
@[simp] theorem State.modEth_gal (s : State) (n : Nat) (f : Eth → Eth) : (s.modEth n f).gal = s.gal := rfl
@[simp] theorem State.modEth_exp (s : State) (n : Nat) (f : Eth → Eth) : (s.modEth n f).exp = s.exp := rfl
@[simp] theorem State.modEth_snp (s : State) (n : Nat) (f : Eth → Eth) : (s.modEth n f).snp = s.snp := rfl
@[simp] theorem State.modEth_evt (s : State) (n : Nat) (f : Eth → Eth) : (s.modEth n f).evt = s.evt := rfl
@[simp] theorem State.modEth_hst (s : State) (n : Nat) (f : Eth → Eth) : (s.modEth n f).hst = s.hst := rfl
@[simp] theorem State.modEth_ptp (s : State) (n : Nat) (f : Eth → Eth) : (s.modEth n f).ptp = s.ptp := rfl
@[simp] theorem State.modEth_rst (s : State) (n : Nat) (f : Eth → Eth) : (s.modEth n f).rst = s.rst := rfl
@[simp] theorem State.modEth_pwr (s : State) (n : Nat) (f : Eth → Eth) : (s.modEth n f).pwr = s.pwr := rfl
@[simp] theorem State.modEth_mgmt (s : State) (n : Nat) (f : Eth → Eth) : (s.modEth n f).mgmt = s.mgmt := rfl
@[simp] theorem State.modEth_calPoints (s : State) (n : Nat) (f : Eth → Eth) : (s.modEth n f).calPoints = s.calPoints := rfl
@[simp] theorem State.modEth_calPmiss (s : State) (n : Nat) (f : Eth → Eth) : (s.modEth n f).calPmiss = s.calPmiss := rfl

@[simp] theorem State.emit_pending (s : State) (o : Out) : (s.emit o).pending = s.pending := rfl
@[simp] theorem State.emit_free (s : State) (o : Out) : (s.emit o).free = s.free := rfl
@[simp] theorem State.emit_cores (s : State) (o : Out) : (s.emit o).cores = s.cores := rfl
@[simp] theorem State.emit_cells (s : State) (o : Out) : (s.emit o).cells = s.cells := rfl
@[simp] theorem State.emit_hbm (s : State) (o : Out) : (s.emit o).hbm = s.hbm := rfl
@[simp] theorem State.emit_hbmPois (s : State) (o : Out) : (s.emit o).hbmPois = s.hbmPois := rfl
@[simp] theorem State.emit_mediaErr (s : State) (o : Out) : (s.emit o).mediaErr = s.mediaErr := rfl
@[simp] theorem State.emit_plinths (s : State) (o : Out) : (s.emit o).plinths = s.plinths := rfl
@[simp] theorem State.emit_ports (s : State) (o : Out) : (s.emit o).ports = s.ports := rfl
@[simp] theorem State.emit_eths (s : State) (o : Out) : (s.emit o).eths = s.eths := rfl
@[simp] theorem State.emit_arm (s : State) (o : Out) : (s.emit o).arm = s.arm := rfl
@[simp] theorem State.emit_cfg (s : State) (o : Out) : (s.emit o).cfg = s.cfg := rfl
@[simp] theorem State.emit_gal (s : State) (o : Out) : (s.emit o).gal = s.gal := rfl
@[simp] theorem State.emit_exp (s : State) (o : Out) : (s.emit o).exp = s.exp := rfl
@[simp] theorem State.emit_snp (s : State) (o : Out) : (s.emit o).snp = s.snp := rfl
@[simp] theorem State.emit_evt (s : State) (o : Out) : (s.emit o).evt = s.evt := rfl
@[simp] theorem State.emit_hst (s : State) (o : Out) : (s.emit o).hst = s.hst := rfl
@[simp] theorem State.emit_ptp (s : State) (o : Out) : (s.emit o).ptp = s.ptp := rfl
@[simp] theorem State.emit_rst (s : State) (o : Out) : (s.emit o).rst = s.rst := rfl
@[simp] theorem State.emit_pwr (s : State) (o : Out) : (s.emit o).pwr = s.pwr := rfl
@[simp] theorem State.emit_mgmt (s : State) (o : Out) : (s.emit o).mgmt = s.mgmt := rfl
@[simp] theorem State.emit_calPoints (s : State) (o : Out) : (s.emit o).calPoints = s.calPoints := rfl
@[simp] theorem State.emit_calPmiss (s : State) (o : Out) : (s.emit o).calPmiss = s.calPmiss := rfl

@[simp] theorem State.emitAll_pending (s : State) (os : List Out) : (s.emitAll os).pending = s.pending := rfl
@[simp] theorem State.emitAll_free (s : State) (os : List Out) : (s.emitAll os).free = s.free := rfl
@[simp] theorem State.emitAll_cores (s : State) (os : List Out) : (s.emitAll os).cores = s.cores := rfl
@[simp] theorem State.emitAll_cells (s : State) (os : List Out) : (s.emitAll os).cells = s.cells := rfl
@[simp] theorem State.emitAll_hbm (s : State) (os : List Out) : (s.emitAll os).hbm = s.hbm := rfl
@[simp] theorem State.emitAll_hbmPois (s : State) (os : List Out) : (s.emitAll os).hbmPois = s.hbmPois := rfl
@[simp] theorem State.emitAll_mediaErr (s : State) (os : List Out) : (s.emitAll os).mediaErr = s.mediaErr := rfl
@[simp] theorem State.emitAll_plinths (s : State) (os : List Out) : (s.emitAll os).plinths = s.plinths := rfl
@[simp] theorem State.emitAll_ports (s : State) (os : List Out) : (s.emitAll os).ports = s.ports := rfl
@[simp] theorem State.emitAll_eths (s : State) (os : List Out) : (s.emitAll os).eths = s.eths := rfl
@[simp] theorem State.emitAll_arm (s : State) (os : List Out) : (s.emitAll os).arm = s.arm := rfl
@[simp] theorem State.emitAll_cfg (s : State) (os : List Out) : (s.emitAll os).cfg = s.cfg := rfl
@[simp] theorem State.emitAll_gal (s : State) (os : List Out) : (s.emitAll os).gal = s.gal := rfl
@[simp] theorem State.emitAll_exp (s : State) (os : List Out) : (s.emitAll os).exp = s.exp := rfl
@[simp] theorem State.emitAll_snp (s : State) (os : List Out) : (s.emitAll os).snp = s.snp := rfl
@[simp] theorem State.emitAll_evt (s : State) (os : List Out) : (s.emitAll os).evt = s.evt := rfl
@[simp] theorem State.emitAll_hst (s : State) (os : List Out) : (s.emitAll os).hst = s.hst := rfl
@[simp] theorem State.emitAll_ptp (s : State) (os : List Out) : (s.emitAll os).ptp = s.ptp := rfl
@[simp] theorem State.emitAll_rst (s : State) (os : List Out) : (s.emitAll os).rst = s.rst := rfl
@[simp] theorem State.emitAll_pwr (s : State) (os : List Out) : (s.emitAll os).pwr = s.pwr := rfl
@[simp] theorem State.emitAll_mgmt (s : State) (os : List Out) : (s.emitAll os).mgmt = s.mgmt := rfl
@[simp] theorem State.emitAll_calPoints (s : State) (os : List Out) : (s.emitAll os).calPoints = s.calPoints := rfl
@[simp] theorem State.emitAll_calPmiss (s : State) (os : List Out) : (s.emitAll os).calPmiss = s.calPmiss := rfl

@[simp] theorem State.emit_out (s : State) (o : Out) : (s.emit o).out = o :: s.out := rfl
@[simp] theorem State.emitAll_out (s : State) (os : List Out) : (s.emitAll os).out = os.reverse ++ s.out := rfl

@[simp] theorem State.setCore_cell' (s : State) (n : Nat) (c : Core) (j : Nat) : (s.setCore n c).cell j = s.cell j := rfl
@[simp] theorem State.setCore_plinth' (s : State) (n : Nat) (c : Core) (j : Nat) : (s.setCore n c).plinth j = s.plinth j := rfl
@[simp] theorem State.setCore_port' (s : State) (n : Nat) (c : Core) (j : Nat) : (s.setCore n c).port j = s.port j := rfl
@[simp] theorem State.setCore_eth' (s : State) (n : Nat) (c : Core) (j : Nat) : (s.setCore n c).eth j = s.eth j := rfl
@[simp] theorem State.modCore_cell' (s : State) (n : Nat) (f : Core → Core) (j : Nat) : (s.modCore n f).cell j = s.cell j := rfl
@[simp] theorem State.modCore_plinth' (s : State) (n : Nat) (f : Core → Core) (j : Nat) : (s.modCore n f).plinth j = s.plinth j := rfl
@[simp] theorem State.modCore_port' (s : State) (n : Nat) (f : Core → Core) (j : Nat) : (s.modCore n f).port j = s.port j := rfl
@[simp] theorem State.modCore_eth' (s : State) (n : Nat) (f : Core → Core) (j : Nat) : (s.modCore n f).eth j = s.eth j := rfl
@[simp] theorem State.setCell_core' (s : State) (n : Nat) (c : Cell) (j : Nat) : (s.setCell n c).core j = s.core j := rfl
@[simp] theorem State.setCell_plinth' (s : State) (n : Nat) (c : Cell) (j : Nat) : (s.setCell n c).plinth j = s.plinth j := rfl
@[simp] theorem State.setCell_port' (s : State) (n : Nat) (c : Cell) (j : Nat) : (s.setCell n c).port j = s.port j := rfl
@[simp] theorem State.setCell_eth' (s : State) (n : Nat) (c : Cell) (j : Nat) : (s.setCell n c).eth j = s.eth j := rfl
@[simp] theorem State.modCell_core' (s : State) (n : Nat) (f : Cell → Cell) (j : Nat) : (s.modCell n f).core j = s.core j := rfl
@[simp] theorem State.modCell_plinth' (s : State) (n : Nat) (f : Cell → Cell) (j : Nat) : (s.modCell n f).plinth j = s.plinth j := rfl
@[simp] theorem State.modCell_port' (s : State) (n : Nat) (f : Cell → Cell) (j : Nat) : (s.modCell n f).port j = s.port j := rfl
@[simp] theorem State.modCell_eth' (s : State) (n : Nat) (f : Cell → Cell) (j : Nat) : (s.modCell n f).eth j = s.eth j := rfl
@[simp] theorem State.modPlinth_core' (s : State) (n : Nat) (f : Plinth → Plinth) (j : Nat) : (s.modPlinth n f).core j = s.core j := rfl
@[simp] theorem State.modPlinth_cell' (s : State) (n : Nat) (f : Plinth → Plinth) (j : Nat) : (s.modPlinth n f).cell j = s.cell j := rfl
@[simp] theorem State.modPlinth_port' (s : State) (n : Nat) (f : Plinth → Plinth) (j : Nat) : (s.modPlinth n f).port j = s.port j := rfl
@[simp] theorem State.modPlinth_eth' (s : State) (n : Nat) (f : Plinth → Plinth) (j : Nat) : (s.modPlinth n f).eth j = s.eth j := rfl
@[simp] theorem State.modPort_core' (s : State) (n : Nat) (f : Port → Port) (j : Nat) : (s.modPort n f).core j = s.core j := rfl
@[simp] theorem State.modPort_cell' (s : State) (n : Nat) (f : Port → Port) (j : Nat) : (s.modPort n f).cell j = s.cell j := rfl
@[simp] theorem State.modPort_plinth' (s : State) (n : Nat) (f : Port → Port) (j : Nat) : (s.modPort n f).plinth j = s.plinth j := rfl
@[simp] theorem State.modPort_eth' (s : State) (n : Nat) (f : Port → Port) (j : Nat) : (s.modPort n f).eth j = s.eth j := rfl
@[simp] theorem State.modEth_core' (s : State) (n : Nat) (f : Eth → Eth) (j : Nat) : (s.modEth n f).core j = s.core j := rfl
@[simp] theorem State.modEth_cell' (s : State) (n : Nat) (f : Eth → Eth) (j : Nat) : (s.modEth n f).cell j = s.cell j := rfl
@[simp] theorem State.modEth_plinth' (s : State) (n : Nat) (f : Eth → Eth) (j : Nat) : (s.modEth n f).plinth j = s.plinth j := rfl
@[simp] theorem State.modEth_port' (s : State) (n : Nat) (f : Eth → Eth) (j : Nat) : (s.modEth n f).port j = s.port j := rfl
@[simp] theorem State.emit_core' (s : State) (o : Out) (j : Nat) : (s.emit o).core j = s.core j := rfl
@[simp] theorem State.emit_cell' (s : State) (o : Out) (j : Nat) : (s.emit o).cell j = s.cell j := rfl
@[simp] theorem State.emit_plinth' (s : State) (o : Out) (j : Nat) : (s.emit o).plinth j = s.plinth j := rfl
@[simp] theorem State.emit_port' (s : State) (o : Out) (j : Nat) : (s.emit o).port j = s.port j := rfl
@[simp] theorem State.emit_eth' (s : State) (o : Out) (j : Nat) : (s.emit o).eth j = s.eth j := rfl
@[simp] theorem State.emitAll_core' (s : State) (os : List Out) (j : Nat) : (s.emitAll os).core j = s.core j := rfl
@[simp] theorem State.emitAll_cell' (s : State) (os : List Out) (j : Nat) : (s.emitAll os).cell j = s.cell j := rfl
@[simp] theorem State.emitAll_plinth' (s : State) (os : List Out) (j : Nat) : (s.emitAll os).plinth j = s.plinth j := rfl
@[simp] theorem State.emitAll_port' (s : State) (os : List Out) (j : Nat) : (s.emitAll os).port j = s.port j := rfl
@[simp] theorem State.emitAll_eth' (s : State) (os : List Out) (j : Nat) : (s.emitAll os).eth j = s.eth j := rfl

@[simp] theorem State.setCore_core (s : State) (n : Nat) (c : Core) : (s.setCore n c).core n = c := tabGet_tabSet _ _ _ _
theorem State.setCore_core_ne (s : State) (n j : Nat) (c : Core) (h : j ≠ n) : (s.setCore n c).core j = s.core j :=
  tabGet_tabSet_ne _ _ _ _ _ h
@[simp] theorem State.modCore_core (s : State) (n : Nat) (f : Core → Core) : (s.modCore n f).core n = f (s.core n) :=
  tabGet_tabMod _ _ _ _
theorem State.modCore_core_ne (s : State) (n j : Nat) (f : Core → Core) (h : j ≠ n) : (s.modCore n f).core j = s.core j :=
  tabGet_tabMod_ne _ _ _ _ _ h
@[simp] theorem State.setCell_cell (s : State) (n : Nat) (c : Cell) : (s.setCell n c).cell n = c := tabGet_tabSet _ _ _ _
theorem State.setCell_cell_ne (s : State) (n j : Nat) (c : Cell) (h : j ≠ n) : (s.setCell n c).cell j = s.cell j :=
  tabGet_tabSet_ne _ _ _ _ _ h
@[simp] theorem State.modCell_cell (s : State) (n : Nat) (f : Cell → Cell) : (s.modCell n f).cell n = f (s.cell n) :=
  tabGet_tabMod _ _ _ _
theorem State.modCell_cell_ne (s : State) (n j : Nat) (f : Cell → Cell) (h : j ≠ n) : (s.modCell n f).cell j = s.cell j :=
  tabGet_tabMod_ne _ _ _ _ _ h
@[simp] theorem State.modPlinth_plinth (s : State) (n : Nat) (f : Plinth → Plinth) : (s.modPlinth n f).plinth n = f (s.plinth n) :=
  tabGet_tabMod _ _ _ _
theorem State.modPlinth_plinth_ne (s : State) (n j : Nat) (f : Plinth → Plinth) (h : j ≠ n) : (s.modPlinth n f).plinth j = s.plinth j :=
  tabGet_tabMod_ne _ _ _ _ _ h
@[simp] theorem State.modPort_port (s : State) (n : Nat) (f : Port → Port) : (s.modPort n f).port n = f (s.port n) :=
  tabGet_tabMod _ _ _ _
theorem State.modPort_port_ne (s : State) (n j : Nat) (f : Port → Port) (h : j ≠ n) : (s.modPort n f).port j = s.port j :=
  tabGet_tabMod_ne _ _ _ _ _ h
@[simp] theorem State.modEth_eth (s : State) (n : Nat) (f : Eth → Eth) : (s.modEth n f).eth n = f (s.eth n) :=
  tabGet_tabMod _ _ _ _
theorem State.modEth_eth_ne (s : State) (n j : Nat) (f : Eth → Eth) (h : j ≠ n) : (s.modEth n f).eth j = s.eth j :=
  tabGet_tabMod_ne _ _ _ _ _ h

/-- Everything that sending on a priority of an Ethernet port can change: what leaves, or what waits there for the end of a pause. -/
theorem State.sendEth_eq (s : State) (p q : Nat) (x : Out) : ∃ o e, s.sendEth p q x = { s with out := o, eths := e } := by
  unfold State.sendEth
  split <;> exact ⟨_, _, rfl⟩

/-- Everything that the notifications of a record can change: what leaves, or what waits at the ports. -/
theorem State.notify_eq (s : State) (r : EvRec) : ∃ o e, s.notify r = { s with out := o, eths := e } := by
  unfold State.notify
  generalize s.hst.sessions.filter (fun x => x.wants r) = l
  induction l generalizing s with
  | nil => exact ⟨s.out, s.eths, rfl⟩
  | cons x l ih =>
    obtain ⟨o, e, h⟩ := s.sendEth_eq x.port (s.cfg.qos.getD 1 0) (s.tcdOut x.port (some (x.ks x.epoch)) 0x0007 x.id x.epoch x.nseq 2 0
      (leBytes 1 (b2n x.lost) ++ r.bytes))
    obtain ⟨o', e', h'⟩ := ih (s.sendNote x (x.nseq, r, 0, x.lost))
    refine ⟨o', e', ?_⟩
    rw [List.foldl_cons, h']
    unfold State.sendNote State.sendTcd
    rw [h]

/-- Everything that logging an event can change: the free values drawn, the counts and suppression windows, the retained
log, the sessions' notifications, the alert bits, and what is sent or waits at the Ethernet ports. -/
theorem State.log_eq (s : State) (c : Nat) (fs : List EvF) :
    ∃ fr m e h o p q, s.log c fs = { s with free := fr, mgmt := m, evt := e, hst := h, out := o, pwr := p, eths := q } := by
  have hr : ∀ (s : State) (c k i l : Nat) (d : List Byte), ∃ fr e h o p q,
      s.logRecord c k i l d = { s with free := fr, evt := e, hst := h, out := o, pwr := p, eths := q } := by
    intro s c k i l d
    unfold State.logRecord State.timeNow
    dsimp only
    obtain ⟨o, q, h⟩ := ({ s with free := s.free + 1 } : State).notify_eq
      ⟨(BitVec.ofBool (!s.ptp.everLock)) ++ (s.ptp.base + Config.clockNs s.free), BitVec.ofNat 16 c, sevOf c, k, i, l, d, s.evt.next⟩
    rw [h]
    exact ⟨_, _, _, _, _, _, rfl⟩
  unfold State.log
  dsimp only
  repeat' split
  all_goals first
    | exact ⟨_, _, _, _, _, _, _, rfl⟩
    | (obtain ⟨_, _, _, _, _, _, h⟩ := hr _ _ _ _ _ _; rw [h]; exact ⟨_, _, _, _, _, _, _, rfl⟩)

@[simp] theorem State.log_pending (s : State) (c : Nat) (fs : List EvF) : (s.log c fs).pending = s.pending := by
  obtain ⟨_, _, _, _, _, _, _, h⟩ := s.log_eq c fs; rw [h]
@[simp] theorem State.log_cores (s : State) (c : Nat) (fs : List EvF) : (s.log c fs).cores = s.cores := by
  obtain ⟨_, _, _, _, _, _, _, h⟩ := s.log_eq c fs; rw [h]
@[simp] theorem State.log_cells (s : State) (c : Nat) (fs : List EvF) : (s.log c fs).cells = s.cells := by
  obtain ⟨_, _, _, _, _, _, _, h⟩ := s.log_eq c fs; rw [h]
@[simp] theorem State.log_hbm (s : State) (c : Nat) (fs : List EvF) : (s.log c fs).hbm = s.hbm := by
  obtain ⟨_, _, _, _, _, _, _, h⟩ := s.log_eq c fs; rw [h]
@[simp] theorem State.log_hbmPois (s : State) (c : Nat) (fs : List EvF) : (s.log c fs).hbmPois = s.hbmPois := by
  obtain ⟨_, _, _, _, _, _, _, h⟩ := s.log_eq c fs; rw [h]
@[simp] theorem State.log_mediaErr (s : State) (c : Nat) (fs : List EvF) : (s.log c fs).mediaErr = s.mediaErr := by
  obtain ⟨_, _, _, _, _, _, _, h⟩ := s.log_eq c fs; rw [h]
@[simp] theorem State.log_plinths (s : State) (c : Nat) (fs : List EvF) : (s.log c fs).plinths = s.plinths := by
  obtain ⟨_, _, _, _, _, _, _, h⟩ := s.log_eq c fs; rw [h]
@[simp] theorem State.log_ports (s : State) (c : Nat) (fs : List EvF) : (s.log c fs).ports = s.ports := by
  obtain ⟨_, _, _, _, _, _, _, h⟩ := s.log_eq c fs; rw [h]
@[simp] theorem State.log_arm (s : State) (c : Nat) (fs : List EvF) : (s.log c fs).arm = s.arm := by
  obtain ⟨_, _, _, _, _, _, _, h⟩ := s.log_eq c fs; rw [h]
@[simp] theorem State.log_cfg (s : State) (c : Nat) (fs : List EvF) : (s.log c fs).cfg = s.cfg := by
  obtain ⟨_, _, _, _, _, _, _, h⟩ := s.log_eq c fs; rw [h]
@[simp] theorem State.log_gal (s : State) (c : Nat) (fs : List EvF) : (s.log c fs).gal = s.gal := by
  obtain ⟨_, _, _, _, _, _, _, h⟩ := s.log_eq c fs; rw [h]
@[simp] theorem State.log_exp (s : State) (c : Nat) (fs : List EvF) : (s.log c fs).exp = s.exp := by
  obtain ⟨_, _, _, _, _, _, _, h⟩ := s.log_eq c fs; rw [h]
@[simp] theorem State.log_snp (s : State) (c : Nat) (fs : List EvF) : (s.log c fs).snp = s.snp := by
  obtain ⟨_, _, _, _, _, _, _, h⟩ := s.log_eq c fs; rw [h]
@[simp] theorem State.log_ptp (s : State) (c : Nat) (fs : List EvF) : (s.log c fs).ptp = s.ptp := by
  obtain ⟨_, _, _, _, _, _, _, h⟩ := s.log_eq c fs; rw [h]
@[simp] theorem State.log_rst (s : State) (c : Nat) (fs : List EvF) : (s.log c fs).rst = s.rst := by
  obtain ⟨_, _, _, _, _, _, _, h⟩ := s.log_eq c fs; rw [h]
@[simp] theorem State.log_calPoints (s : State) (c : Nat) (fs : List EvF) : (s.log c fs).calPoints = s.calPoints := by
  obtain ⟨_, _, _, _, _, _, _, h⟩ := s.log_eq c fs; rw [h]
@[simp] theorem State.log_calPmiss (s : State) (c : Nat) (fs : List EvF) : (s.log c fs).calPmiss = s.calPmiss := by
  obtain ⟨_, _, _, _, _, _, _, h⟩ := s.log_eq c fs; rw [h]
@[simp] theorem State.log_core (s : State) (c : Nat) (fs : List EvF) (j : Nat) : (s.log c fs).core j = s.core j := by
  unfold State.core; rw [State.log_cores]
@[simp] theorem State.log_cell (s : State) (c : Nat) (fs : List EvF) (j : Nat) : (s.log c fs).cell j = s.cell j := by
  unfold State.cell; rw [State.log_cells]
@[simp] theorem State.log_plinth (s : State) (c : Nat) (fs : List EvF) (j : Nat) : (s.log c fs).plinth j = s.plinth j := by
  unfold State.plinth; rw [State.log_plinths]
@[simp] theorem State.log_port (s : State) (c : Nat) (fs : List EvF) (j : Nat) : (s.log c fs).port j = s.port j := by
  unfold State.port; rw [State.log_ports]

end Sys2Proof.Machine
end

