-- ==== Sys2Proof/Laws/Issue.lean ====
section
/-! SUPPORT. What issuing an instruction does: the gate, the plan, the counters, the new entry. -/
namespace Sys2Proof.Machine
open Sys2Proof

/-- What the gate of issue hands to a plan. -/
theorem State.mayIssue_inv {s : State} {n st : Nat} {ws : List (BitVec 128)} {x : IssueCtx} (h : s.mayIssue n st ws = some x) :
    x.st = st ∧ x.co = s.core n ∧ x.n = n ∧ s.cellOf n = some x.k ∧ x.l = (s.cell x.k).lcore n ∧ x.c = s.cell x.k ∧
      x.ord = tabGet 0 (s.core n).ord st := by
  unfold State.mayIssue at h
  split at h
  · cases h
  · rename_i k hk
    split at h
    · cases h
    · dsimp only at h
      repeat' split at h
      all_goals first
        | (injection h with h; subst h; exact ⟨rfl, rfl, rfl, hk, rfl, rfl, rfl⟩)
        | (injection h)

/-- An instruction whose gate is open, whose plan is made and which meets no hazard is issued. -/
theorem State.issue_ok {s : State} {n st opc : Nat} {ws : List (BitVec 128)} {plan : IssueCtx → Except Refuse (List Plan)}
    {x : IssueCtx} {ps : List Plan} (hw : ∃ w, ws.head? = some w ∧ wOpc w = opc) (hm : s.mayIssue n st ws = some x)
    (hp : plan x = .ok ps) (hh : s.cfg.debug = true → (ws.zip ps).findSome? (fun q => x.co.hazard x.l st (q.2.withBlock x.co q.1)) = none) :
    s.issue n st opc ws plan = s.issued x ws ps := by
  obtain ⟨w, h1, h2⟩ := hw
  unfold State.issue
  cases ws with
  | nil => simp at h1
  | cons a r =>
    simp only [List.head?_cons, Option.some.injEq] at h1
    subst h1
    simp only [h2, if_true, hm, hp]
    by_cases hd : s.cfg.debug = true
    · simp [hd, hh hd]
    · simp [hd]

/-- An instruction whose gate is open and whose plan is refused is passed by and faults its cell. -/
theorem State.issue_refused {s : State} {n st opc : Nat} {ws : List (BitVec 128)} {plan : IssueCtx → Except Refuse (List Plan)}
    {x : IssueCtx} {e : Refuse} (hw : ∃ w, ws.head? = some w ∧ wOpc w = opc) (hm : s.mayIssue n st ws = some x)
    (hp : plan x = .error e) : s.issue n st opc ws plan = (s.passBy x ws).refuse x e := by
  obtain ⟨w, h1, h2⟩ := hw
  unfold State.issue
  cases ws with
  | nil => simp at h1
  | cons a r =>
    simp only [List.head?_cons, Option.some.injEq] at h1
    subst h1
    simp only [h2, if_true, hm, hp]

/-- An instruction whose gate is shut changes nothing. -/
theorem State.issue_shut {s : State} {n st opc : Nat} {ws : List (BitVec 128)} {plan : IssueCtx → Except Refuse (List Plan)}
    (hm : s.mayIssue n st ws = none) : s.issue n st opc ws plan = s := by
  unfold State.issue
  split
  · rfl
  · split <;> simp_all

/-- What consuming tokens leaves of a core as it was. -/
def Core.SameBut (a b : Core) : Prop :=
  b = { a with tokens := b.tokens, useSeq := b.useSeq, awaits := b.awaits, tags := b.tags, tregTags := b.tregTags }

theorem Core.SameBut.untag {a b : Core} (h : a.SameBut b) (st ord : Nat) : a.SameBut (b.untag st ord) := by
  unfold Core.SameBut at h; rw [h]; rfl

theorem Core.sameBut_untags {a b : Core} (h : a.SameBut b) (l : List (Nat × (Nat × (Nat × Nat)))) :
    a.SameBut (l.foldl (fun c a => c.untag a.2.2.1 a.2.2.2) b) := by
  induction l generalizing b with
  | nil => exact h
  | cons x r ih => exact ih (h.untag _ _)

theorem Core.SameBut.consume1 {a b : Core} (h : a.SameBut b) (t : Nat) : a.SameBut (b.consume1 t) := by
  unfold Core.consume1
  split
  · exact h
  · apply Core.sameBut_untags
    unfold Core.SameBut at h ⊢; rw [h]

/-- Consuming the wait tokens of a word touches the scoreboard and the hazard detector only. -/
theorem Core.consume_same (a : Core) (w : BitVec 128) : a.SameBut (a.consume w) :=
  ((show a.SameBut a from rfl).consume1 _).consume1 _

/-- An answer of two checks in a row is an answer of each. -/
theorem except_bind_ok {α β ε : Type} {m : Except ε α} {f : α → Except ε β} {r : β} (h : (m >>= f) = .ok r) :
    ∃ a, m = .ok a ∧ f a = .ok r := by
  cases m with
  | error e => cases h
  | ok a => exact ⟨a, rfl, h⟩

end Sys2Proof.Machine
end

