-- ==== Sys2Proof/Laws/Kept.lean ====
section
/-! SUPPORT. What every operation of the machine keeps, whatever command it serves: the queue of waiting commands, the
canonical forms of the HBM and of its poison map, the fuse counter, which never goes down, the clock's flags and the bound
of the retained event log. One lemma per operation, in the files beside this one. -/
namespace Sys2Proof.Machine
open Sys2Proof

/-- The parts of a state that `Kept` speaks of, against a state taken before. -/
def KeptOn (a : State) (q : List Instr) (m : Mem) (ps : PSet) (f : BitVec 7) (p : Ptp) (r : List EvRec) : Prop :=
  q = a.pending ∧ (memWf a.hbm = true → memWf m = true) ∧ (psWf a.hbmPois = true → psWf ps = true) ∧
  a.mgmt.fuse.toNat ≤ f.toNat ∧ ((a.ptp.locked = true → a.ptp.everLock = true) → p.locked = true → p.everLock = true) ∧
  (a.evt.recs.length ≤ 1920 → r.length ≤ 1920)

/-- A later state keeps what an earlier state had. -/
def Kept (a s : State) : Prop := KeptOn a s.pending s.hbm s.hbmPois s.mgmt.fuse s.ptp s.evt.recs

/-- A meaning's next state keeps it. -/
def KeptR (a : State) (r : Res) : Prop := ∀ t, r = .next t → Kept a t

theorem Kept.refl (s : State) : Kept s s := ⟨rfl, id, id, Nat.le_refl _, id, id⟩

theorem kept_mk (a p fr o co ce hb hp me pl po et ar cf ga ex sn ev hs pt rs pw mg c1 c2) :
    Kept a ⟨p, fr, o, co, ce, hb, hp, me, pl, po, et, ar, cf, ga, ex, sn, ev, hs, pt, rs, pw, mg, c1, c2⟩ =
      KeptOn a p hb hp mg.fuse pt ev.recs := rfl

theorem kept_iff (a s) : Kept a s = KeptOn a s.pending s.hbm s.hbmPois s.mgmt.fuse s.ptp s.evt.recs := rfl

theorem keptOn_iff (a s) : KeptOn a s.pending s.hbm s.hbmPois s.mgmt.fuse s.ptp s.evt.recs = Kept a s := rfl

theorem keptR_next (a t) : KeptR a (.next t) = Kept a t := by
  simp [KeptR]

theorem kept_foldl {a : State} {α : Type} (f : State → α → State) (l : List α) (hf : ∀ s x, Kept a s → Kept a (f s x)) :
    ∀ s, Kept a s → Kept a (l.foldl f s) := by
  induction l with
  | nil => exact fun _ h => h
  | cons x r ih => exact fun s h => ih _ (hf s x h)

theorem kept_foldl_fst {a : State} {α β : Type} (f : State × β → α → State × β) (l : List α)
    (hf : ∀ p x, Kept a p.1 → Kept a (f p x).1) : ∀ p, Kept a p.1 → Kept a (l.foldl f p).1 := by
  induction l with
  | nil => exact fun _ h => h
  | cons x r ih => exact fun s h => ih _ (hf s x h)

theorem State.setCore_kept {a s : State} {n c} (h : Kept a s) : Kept a (s.setCore n c) := h
theorem State.modCore_kept {a s : State} {n f} (h : Kept a s) : Kept a (s.modCore n f) := h
theorem State.setCell_kept {a s : State} {n c} (h : Kept a s) : Kept a (s.setCell n c) := h
theorem State.modCell_kept {a s : State} {n f} (h : Kept a s) : Kept a (s.modCell n f) := h
theorem State.modPlinth_kept {a s : State} {n f} (h : Kept a s) : Kept a (s.modPlinth n f) := h
theorem State.modPort_kept {a s : State} {n f} (h : Kept a s) : Kept a (s.modPort n f) := h
theorem State.modEth_kept {a s : State} {n f} (h : Kept a s) : Kept a (s.modEth n f) := h
theorem State.emit_kept {a s : State} {o} (h : Kept a s) : Kept a (s.emit o) := h
theorem State.emitAll_kept {a s : State} {o} (h : Kept a s) : Kept a (s.emitAll o) := h
theorem State.timeNow_kept {a s : State} (h : Kept a s) : Kept a s.timeNow.2 := h
theorem State.timeNow_kept' {a s t : State} {x} (e : s.timeNow = (x, t)) (h : Kept a s) : Kept a t := by
  have := State.timeNow_kept h; rw [e] at this; exact this

theorem State.sendEth_kept {a s : State} {p q o} (h : Kept a s) : Kept a (s.sendEth p q o) := by
  obtain ⟨_, _, e⟩ := s.sendEth_eq p q o; rw [e]; exact h

theorem State.sendEthAll_kept {a s : State} {p q os} (h : Kept a s) : Kept a (s.sendEthAll p q os) :=
  kept_foldl _ _ (fun _ _ g => State.sendEth_kept g) _ h

theorem State.sendTcd_kept {a s : State} {p k o i e q f st b} (h : Kept a s) : Kept a (s.sendTcd p k o i e q f st b) :=
  State.sendEth_kept h

theorem State.sendNote_kept {a s : State} {x n} (h : Kept a s) : Kept a (s.sendNote x n) := State.sendTcd_kept h

theorem State.notify_kept {a s : State} {r} (h : Kept a s) : Kept a (s.notify r) :=
  kept_foldl _ _ (fun _ _ g => State.sendNote_kept g) _ h

theorem State.logRecord_kept {a s : State} {c k i l d} (h : Kept a s) : Kept a (s.logRecord c k i l d) := by
  have g := State.notify_kept (r := ⟨s.timeNow.1, BitVec.ofNat 16 c, sevOf c, k, i, l, d, s.evt.next⟩) (State.timeNow_kept h)
  obtain ⟨h1, h2, h3, h4, h5, _⟩ := g
  exact ⟨h1, h2, h3, h4, h5, fun _ => by simp [State.logRecord]⟩

theorem Mgmt.count_fuse (m : Mgmt) (c) : (m.count c).fuse = m.fuse := by unfold Mgmt.count; grind

theorem State.log_kept {a s : State} {c f} (h : Kept a s) : Kept a (s.log c f) := by
  unfold State.log; grind [State.logRecord_kept, kept_mk, kept_iff, = keptOn_iff, Mgmt.count_fuse]

theorem State.hbmWrite_kept {a s : State} {x b p} (h : Kept a s) : Kept a (s.hbmWrite x b p) :=
  ⟨h.1, fun g => memWf_memWrite _ _ _ (h.2.1 g), fun g => psWf_poisWrite _ _ _ _ _ (h.2.2.1 g), h.2.2.2⟩

theorem State.hwrite_kept {a s : State} {x b} (h : Kept a s) : Kept a (s.hwrite x b) :=
  ⟨h.1, fun g => memWf_memWrite _ _ _ (h.2.1 g), fun g => psWf_poisBytes _ _ _ _ (h.2.2.1 g), h.2.2.2⟩

theorem State.dropHbm_kept {a s : State} {x n} (h : Kept a s) : Kept a (s.dropHbm x n) :=
  ⟨h.1, fun g => tabWf_filter 0 _ _ (h.2.1 g), fun g => psWf_filter _ _ (h.2.2.1 g), h.2.2.2⟩

theorem keptOn_empty {a q m ps f p r} (h : KeptOn a q m ps f p r) : KeptOn a q [] [] f p r :=
  ⟨h.1, fun _ => tabWf_nil 0, fun _ => by decide, h.2.2.2⟩

theorem keptR_of_next {a t : State} (h : Kept a t) : KeptR a (.next t) := by rw [keptR_next]; exact h

theorem kept_fst {a t : State} {β : Type} {y : β} (h : Kept a t) : Kept a (t, y).1 := h

theorem kept_snd {a t : State} {β : Type} {y : β} (h : Kept a t) : Kept a (y, t).2 := h

theorem keptR_let {a v : State} {f : State → Res} (h : Kept a v) (hf : ∀ s, Kept a s → KeptR a (f s)) :
    KeptR a (let s := v; f s) := hf v h

theorem kept_let {a v : State} {f : State → State} (h : Kept a v) (hf : ∀ s, Kept a s → Kept a (f s)) :
    Kept a (let s := v; f s) := hf v h

theorem kept_let1 {a v : State} {β : Type} {f : State → State × β} (h : Kept a v) (hf : ∀ s, Kept a s → Kept a (f s).1) :
    Kept a (let s := v; f s).1 := hf v h

theorem kept_let2 {a v : State} {β : Type} {f : State → β × State} (h : Kept a v) (hf : ∀ s, Kept a s → Kept a (f s).2) :
    Kept a (let s := v; f s).2 := hf v h

theorem keptR_let_any {a : State} {α : Type} {v : α} {f : α → Res} (hf : ∀ x, KeptR a (f x)) : KeptR a (let x := v; f x) := hf v

theorem kept_let_any {a : State} {α : Type} {v : α} {f : α → State} (hf : ∀ x, Kept a (f x)) : Kept a (let x := v; f x) := hf v

theorem keptR_ite {a : State} {c : Prop} [Decidable c] {x y : Res} (hx : KeptR a x) (hy : KeptR a y) :
    KeptR a (if c then x else y) := by split <;> assumption

theorem kept_ite {a : State} {c : Prop} [Decidable c] {x y : State} (hx : Kept a x) (hy : Kept a y) :
    Kept a (if c then x else y) := by split <;> assumption

theorem kept_ite_fst {a : State} {β : Type} {c : Prop} [Decidable c] {x y : State × β} (hx : Kept a x.1) (hy : Kept a y.1) :
    Kept a (if c then x else y).1 := by split <;> assumption

theorem kept_congr {a s t : State} (h : Kept a s) (e1 : t.pending = s.pending) (e2 : t.hbm = s.hbm)
    (e3 : t.hbmPois = s.hbmPois) (e4 : t.mgmt.fuse = s.mgmt.fuse) (e5 : t.ptp = s.ptp) (e6 : t.evt.recs = s.evt.recs) :
    Kept a t := by
  unfold Kept at *; rw [e1, e2, e3, e4, e5, e6]; exact h

end Sys2Proof.Machine
end

