-- ==== Sys2Proof/Laws/KeptSlices.lean ====
section
/-! SUPPORT. What each operation of Machine/Slices.lean keeps. -/
namespace Sys2Proof.Machine
open Sys2Proof

theorem State.sectorErr_kept {s₀ : State} (s : State) (src : Nat) (e : SectorErr) (hk : Kept s₀ s) : Kept s₀ (State.sectorErr s src e) := by
  unfold State.sectorErr
  split
  split
  · exact State.log_kept (State.modPlinth_kept ⟨hk.1, hk.2.1, fun g => psWf_psAdd _ _ (hk.2.2.1 g), hk.2.2.2⟩)
  · split
    rename_i e
    have h := State.timeNow_kept' e hk
    exact State.modPlinth_kept ⟨h.1, fun g => memWf_memWrite _ _ _ (h.2.1 g), h.2.2⟩

theorem State.decay_kept {s₀ : State} (s : State) (es : List SectorErr) (hk : Kept s₀ s) : Kept s₀ (State.decay s es) := by
  unfold State.decay; grind [kept_mk, kept_iff, = keptOn_iff]

theorem State.meet_kept {s₀ : State} (s : State) (src : Nat) (p : SectorErr → Bool) (hk : Kept s₀ s) : Kept s₀ (State.meet s src p) := by
  unfold State.meet; grind [State.sectorErr_kept, kept_mk, kept_iff, = keptOn_iff, kept_foldl]

theorem State.touchLine_kept {s₀ : State} (s : State) (part : Nat) (write atomic : Bool) (line lo hi : Nat) (hk : Kept s₀ s) : Kept s₀ (State.touchLine s part write atomic line lo hi) := by
  unfold State.touchLine; grind [State.meet_kept, State.modPlinth_kept, kept_mk, kept_iff, = keptOn_iff]

theorem State.touchWith_kept {s₀ : State} (s : State) (part : Nat → Nat) (a n : Nat) (write atomic : Bool) (hk : Kept s₀ s) : Kept s₀ (State.touchWith s part a n write atomic) := by
  unfold State.touchWith; grind [State.touchLine_kept, kept_mk, kept_iff, = keptOn_iff, kept_foldl]

theorem State.touch_kept {s₀ : State} (s : State) (a n part : Nat) (write atomic : Bool) (hk : Kept s₀ s) : Kept s₀ (State.touch s a n part write atomic) := by
  unfold State.touch; grind [State.touchWith_kept, kept_mk, kept_iff, = keptOn_iff]

theorem State.touchPhys_kept {s₀ : State} (s : State) (a n : Nat) (write : Bool) (hk : Kept s₀ s) : Kept s₀ (State.touchPhys s a n write) := by
  unfold State.touchPhys; grind [State.touchWith_kept, kept_mk, kept_iff, = keptOn_iff]

theorem State.touchAtom_kept {s₀ : State} (s : State) (a n : Nat) (hk : Kept s₀ s) : Kept s₀ (State.touchAtom s a n) := by
  unfold State.touchAtom; grind [State.touchWith_kept, kept_mk, kept_iff, = keptOn_iff]

end Sys2Proof.Machine
end

