-- ==== Sys2Proof/Laws/KeptCells.lean ====
section
/-! SUPPORT. What each operation of Machine/Cells.lean keeps. -/
namespace Sys2Proof.Machine
open Sys2Proof

theorem State.reclock_kept {s₀ : State} (s : State) (n : Nat) (hk : Kept s₀ s) : Kept s₀ (State.reclock s n) := by
  unfold State.reclock; grind [State.modCore_kept, kept_mk, kept_iff, = keptOn_iff]

theorem State.reclockCell_kept {s₀ : State} (s : State) (k : Nat) (hk : Kept s₀ s) : Kept s₀ (State.reclockCell s k) := by
  unfold State.reclockCell; grind [State.reclock_kept, kept_mk, kept_iff, = keptOn_iff, kept_foldl]

theorem State.holdAll_kept {s₀ : State} (s : State) (f : Holds → Holds) (hk : Kept s₀ s) : Kept s₀ (State.holdAll s f) := by
  unfold State.holdAll; grind [State.modCell_kept, kept_mk, kept_iff, = keptOn_iff, kept_foldl]

theorem State.endApply_kept {s₀ : State} (s : State) (hk : Kept s₀ s) : Kept s₀ (State.endApply s) := by
  unfold State.endApply; grind [State.holdAll_kept, kept_mk, kept_iff, = keptOn_iff]

theorem State.dropPending_kept {s₀ : State} (s : State) (hk : Kept s₀ s) : Kept s₀ (State.dropPending s) := by
  unfold State.dropPending; grind [State.endApply_kept, State.log_kept, kept_mk, kept_iff, = keptOn_iff]

theorem State.wake_kept {s₀ : State} (s : State) (hk : Kept s₀ s) : Kept s₀ (State.wake s) := by
  unfold State.wake; grind [State.log_kept, kept_mk, kept_iff, = keptOn_iff]

theorem State.resetCell_kept {s₀ : State} (s : State) (k : Nat) (hk : Kept s₀ s) : Kept s₀ (State.resetCell s k) := by
  unfold State.resetCell
  exact State.wake_kept _ (State.reclockCell_kept _ _ (kept_congr (s := State.setCell _ k (s.dropPending.cell k).resetC)
    (State.setCell_kept (kept_foldl _ _ (fun _ _ h => State.modCore_kept h) _ (State.dropPending_kept _ hk)))
    rfl rfl rfl rfl rfl rfl))

theorem State.setValid_kept {s₀ : State} (s : State) (k v : Nat) (hk : Kept s₀ s) : Kept s₀ (State.setValid s k v) := by
  unfold State.setValid; grind [State.hbmWrite_kept, State.touchPhys_kept, kept_mk, kept_iff, = keptOn_iff]

theorem State.ctxInvalid_kept {s₀ : State} (s : State) (k reason : Nat) (hk : Kept s₀ s) : Kept s₀ (State.ctxInvalid s k reason) := by
  unfold State.ctxInvalid; grind [State.log_kept, State.modCell_kept, State.resetCell_kept, State.setValid_kept, kept_mk, kept_iff, = keptOn_iff]

theorem State.commandReset_kept {s₀ : State} (s : State) (k : Nat) (hk : Kept s₀ s) : Kept s₀ (State.commandReset s k) := by
  unfold State.commandReset; grind [State.ctxInvalid_kept, State.resetCell_kept, kept_mk, kept_iff, = keptOn_iff]

theorem State.startPreempt_kept {s₀ : State} (s : State) (k cause : Nat) (hk : Kept s₀ s) : Kept s₀ (State.startPreempt s k cause) := by
  unfold State.startPreempt; grind [State.ctxInvalid_kept, State.modCell_kept, State.setValid_kept, kept_mk, kept_iff, = keptOn_iff]

theorem State.fault_kept {s₀ : State} (s : State) (k code lcore stream ord : Nat) (resolvable : Bool) (hk : Kept s₀ s) : Kept s₀ (State.fault s k code lcore stream ord resolvable) := by
  unfold State.fault; grind [State.ctxInvalid_kept, State.setCell_kept, State.startPreempt_kept, kept_mk, kept_iff, = keptOn_iff]

theorem State.raiseFault_kept {s₀ : State} (s : State) (k code : Nat) (fs : List EvF) (lcore stream ord : Nat) (resolvable : Bool) (hk : Kept s₀ s) : Kept s₀ (State.raiseFault s k code fs lcore stream ord resolvable) := by
  unfold State.raiseFault; grind [State.fault_kept, State.log_kept, kept_mk, kept_iff, = keptOn_iff]

theorem State.postImg_kept {s₀ : State} (s : State) (k l t n : Nat) (hk : Kept s₀ s) : Kept s₀ (State.postImg s k l t n) := by
  unfold State.postImg; grind [State.hbmWrite_kept, State.modCell_kept, State.touchPhys_kept, kept_mk, kept_iff, = keptOn_iff]

theorem State.postTo_kept {s₀ : State} (s : State) (k l t n poster : Nat) (hk : Kept s₀ s) : Kept s₀ (State.postTo s k l t n poster) := by
  unfold State.postTo; grind [State.hbmWrite_kept, State.postImg_kept, State.raiseFault_kept, State.setCell_kept, State.setCore_kept, State.touchPhys_kept, kept_mk, kept_iff, = keptOn_iff]

end Sys2Proof.Machine
end

