-- ==== Sys2Proof/Laws/KeptIssue.lean ====
section
/-! SUPPORT. What each operation of Machine/Issue.lean keeps. -/
namespace Sys2Proof.Machine
open Sys2Proof

theorem State.freeze_kept {s₀ : State} (s : State) (x : IssueCtx) (h : Nat × (Nat × BitVec 32)) (hk : Kept s₀ s) : Kept s₀ (State.freeze s x h) := by
  unfold State.freeze; grind [State.log_kept, State.modCell_kept, kept_mk, kept_iff, = keptOn_iff]

theorem State.refuse_kept {s₀ : State} (s : State) (x : IssueCtx) (r : Refuse) (hk : Kept s₀ s) : Kept s₀ (State.refuse s x r) := by
  unfold State.refuse; grind [State.raiseFault_kept, kept_mk, kept_iff, = keptOn_iff]

theorem State.passBy_kept {s₀ : State} (s : State) (x : IssueCtx) (ws : List (BitVec 128)) (hk : Kept s₀ s) : Kept s₀ (State.passBy s x ws) := by
  unfold State.passBy; grind [State.modCore_kept, kept_mk, kept_iff, = keptOn_iff]

theorem State.issued_kept {s₀ : State} (s : State) (x : IssueCtx) (ws : List (BitVec 128)) (ps : List Plan) (hk : Kept s₀ s) : Kept s₀ (State.issued s x ws ps) := by
  unfold State.issued; grind [State.setCore_kept, kept_mk, kept_iff, = keptOn_iff]

theorem State.issue_kept {s₀ : State} (s : State) (n st opc : Nat) (ws : List (BitVec 128)) (plan : IssueCtx → Except Refuse (List Plan)) (hk : Kept s₀ s) : Kept s₀ (State.issue s n st opc ws plan) := by
  unfold State.issue; (repeat' split) <;> grind [State.freeze_kept, State.issued_kept, State.passBy_kept, State.refuse_kept]

theorem State.issue1_kept {s₀ : State} (s : State) (n st opc : Nat) (w : BitVec 128) (plan : IssueCtx → Except Refuse Plan) (hk : Kept s₀ s) : Kept s₀ (State.issue1 s n st opc w plan) := by
  unfold State.issue1; grind [State.issue_kept, kept_mk, kept_iff, = keptOn_iff]

theorem State.finish_kept {s₀ : State} (s : State) (n : Nat) (e : Entry) (hk : Kept s₀ s) : Kept s₀ (State.finish s n e) := by
  unfold State.finish; grind [State.raiseFault_kept, State.setCore_kept, kept_mk, kept_iff, = keptOn_iff]

end Sys2Proof.Machine
end

