-- ==== Sys2Proof/Laws/KeptSchedule.lean ====
section
/-! SUPPORT. What each operation of Machine/Schedule.lean keeps. -/
namespace Sys2Proof.Machine
open Sys2Proof

theorem State.execSchedStall_kept {s₀ : State} (cell : Fin 16) (s : State) (hk : Kept s₀ s) : KeptR s₀ (execSchedStall cell s) := by
  unfold execSchedStall; grind [State.raiseFault_kept, kept_mk, kept_iff, = keptOn_iff, keptR_next]

theorem State.execNop_kept {s₀ : State} (core : Fin 48) (stream : Fin 6) (w : BitVec 128) (s : State) (hk : Kept s₀ s) : KeptR s₀ (execNop core stream w s) := by
  unfold execNop; grind [State.issue1_kept, kept_mk, kept_iff, = keptOn_iff, keptR_next]

end Sys2Proof.Machine
end

