-- ==== Sys2Proof/Laws/KeptArrays.lean ====
section
/-! SUPPORT. What each operation of Machine/Arrays.lean keeps. -/
namespace Sys2Proof.Machine
open Sys2Proof

theorem State.execMma_kept {s₀ : State} (core : Fin 48) (ws : List (BitVec 128)) (s : State) (hk : Kept s₀ s) : KeptR s₀ (execMma core ws s) := by
  unfold execMma; grind [State.issue_kept, kept_mk, kept_iff, = keptOn_iff, keptR_next]

theorem State.execConv_kept {s₀ : State} (core : Fin 48) (ws : List (BitVec 128)) (s : State) (hk : Kept s₀ s) : KeptR s₀ (execConv core ws s) := by
  unfold execConv; grind [State.issue_kept, kept_mk, kept_iff, = keptOn_iff, keptR_next]

theorem State.execSmma_kept {s₀ : State} (core : Fin 48) (ws : List (BitVec 128)) (s : State) (hk : Kept s₀ s) : KeptR s₀ (execSmma core ws s) := by
  unfold execSmma; grind [State.issue_kept, kept_mk, kept_iff, = keptOn_iff, keptR_next]

theorem State.execTsp_kept {s₀ : State} (core : Fin 48) (ws : List (BitVec 128)) (s : State) (hk : Kept s₀ s) : KeptR s₀ (execTsp core ws s) := by
  unfold execTsp; grind [State.issue_kept, kept_mk, kept_iff, = keptOn_iff, keptR_next]

theorem State.execSgrad_kept {s₀ : State} (core : Fin 48) (ws : List (BitVec 128)) (s : State) (hk : Kept s₀ s) : KeptR s₀ (execSgrad core ws s) := by
  unfold execSgrad; grind [State.issue_kept, kept_mk, kept_iff, = keptOn_iff, keptR_next]

theorem State.execArrayStreamStart_kept {s₀ : State} (core : Fin 48) (arr : Fin 4) (s : State) (hk : Kept s₀ s) : KeptR s₀ (execArrayStreamStart core arr s) := by
  unfold execArrayStreamStart; grind [State.setCore_kept, kept_mk, kept_iff, = keptOn_iff, kept_foldl, keptR_next]

theorem State.execDrain_kept {s₀ : State} (core : Fin 48) (w : BitVec 128) (s : State) (hk : Kept s₀ s) : KeptR s₀ (execDrain core w s) := by
  unfold execDrain; grind [State.issue1_kept, kept_mk, kept_iff, = keptOn_iff, keptR_next]

end Sys2Proof.Machine
end

