-- ==== Sys2Proof/Laws/KeptChecks.lean ====
section
/-! SUPPORT. What each operation of Machine/Checks.lean keeps. -/
namespace Sys2Proof.Machine
open Sys2Proof

theorem State.rcAdd_kept {s₀ : State} (s : State) (i n : Nat) (hk : Kept s₀ s) : Kept s₀ (State.rcAdd s i n) := by
  unfold State.rcAdd; grind [kept_mk, kept_iff, = keptOn_iff]

theorem State.rcFlag_kept {s₀ : State} (s : State) (m : Nat) (hk : Kept s₀ s) : Kept s₀ (State.rcFlag s m) := by
  unfold State.rcFlag; grind [kept_mk, kept_iff, = keptOn_iff]

theorem State.markSuspect_kept {s₀ : State} (s : State) (n cause : Nat) (hk : Kept s₀ s) : Kept s₀ (State.markSuspect s n cause) := by
  unfold State.markSuspect; grind [State.log_kept, State.modCore_kept, kept_mk, kept_iff, = keptOn_iff]

theorem State.blame_kept {s₀ : State} (s : State) (k : Nat) (ns : List Nat) (cause code : Nat) (fs : List EvF) (lcore stream ord : Nat) (hk : Kept s₀ s) : Kept s₀ (State.blame s k ns cause code fs lcore stream ord) := by
  unfold State.blame; grind [State.log_kept, State.markSuspect_kept, State.raiseFault_kept, kept_mk, kept_iff, = keptOn_iff, kept_foldl]

theorem State.checkEvents_kept {s₀ : State} (s : State) (k n : Nat) (e : Entry) (hk : Kept s₀ s) : Kept s₀ (State.checkEvents s k n e) := by
  unfold State.checkEvents; grind [State.blame_kept, State.modCore_kept, State.rcAdd_kept, kept_mk, kept_iff, = keptOn_iff, kept_foldl]

theorem State.execCalRetryStart_kept {s₀ : State} (core : Fin 48) (arr : Fin 4) (errs : List TreeErr) (s : State) (hk : Kept s₀ s) : KeptR s₀ (execCalRetryStart core arr errs s) := by
  unfold execCalRetryStart; grind [State.setCore_kept, kept_mk, kept_iff, = keptOn_iff, keptR_next]

theorem State.countMiss_kept {s₀ : State} (s : State) (hk : Kept s₀ s) : Kept s₀ (State.countMiss s) := by
  unfold State.countMiss; grind [State.rcAdd_kept, kept_mk, kept_iff, = keptOn_iff]

theorem State.execCalRetryDone_kept {s₀ : State} (core : Fin 48) (arr : Fin 4) (errs : List TreeErr) (s : State) (hk : Kept s₀ s) : KeptR s₀ (execCalRetryDone core arr errs s) := by
  unfold execCalRetryDone
  dsimp only
  split
  · split
    · exact keptR_ite (keptR_ite
        (keptR_of_next (kept_ite (State.markSuspect_kept _ _ _ (State.log_kept (State.rcAdd_kept _ _ _ (State.setCore_kept hk))))
          (State.log_kept (State.rcAdd_kept _ _ _ (State.setCore_kept hk)))))
        (keptR_of_next (State.blame_kept _ _ _ _ _ _ _ _ _ (State.rcAdd_kept _ _ _ (State.setCore_kept hk)))))
        (keptR_of_next hk)
    · exact keptR_of_next hk
  · exact keptR_of_next hk

theorem State.execPoint_kept {s₀ : State} (core : Fin 48) (w : BitVec 128) (s : State) (hk : Kept s₀ s) : KeptR s₀ (execPoint core w s) := by
  unfold execPoint; grind [State.issue1_kept, kept_mk, kept_iff, = keptOn_iff, keptR_next]

theorem State.setTaint_kept {s₀ : State} (s : State) (k : Nat) (hk : Kept s₀ s) : Kept s₀ (State.setTaint s k) := by
  unfold State.setTaint; grind [State.modCell_kept, kept_mk, kept_iff, = keptOn_iff]

theorem State.startThird_kept {s₀ : State} (s : State) (k n src : Nat) (e : Entry) (we : WinEntry) (hk : Kept s₀ s) : Kept s₀ (State.startThird s k n src e we) := by
  unfold State.startThird; grind [State.modCell_kept, State.modCore_kept, kept_mk, kept_iff, = keptOn_iff]

theorem State.execPointReexecDone_kept {s₀ : State} (core : Fin 48) (flips : List (Nat × BitVec 32)) (s : State) (hk : Kept s₀ s) : KeptR s₀ (execPointReexecDone core flips s) := by
  unfold execPointReexecDone
  have h : ∀ co, Kept s₀ (({ s.rcAdd 3 1 with calPoints := satAdd s.calPoints 1 } : State).setCore core co) :=
    fun _ => kept_congr (State.rcAdd_kept s 3 1 hk) rfl rfl rfl rfl rfl rfl
  dsimp only at h ⊢
  split
  · split
    · exact keptR_of_next hk
    · exact keptR_ite (keptR_ite (keptR_of_next (h _)) (keptR_of_next (State.startThird_kept _ _ _ _ _ _ (h _)))) (keptR_of_next hk)
  · exact keptR_of_next hk

theorem State.execPointThirdExecDone_kept {s₀ : State} (core : Fin 48) (flips : List (Nat × BitVec 32)) (s : State) (hk : Kept s₀ s) : KeptR s₀ (execPointThirdExecDone core flips s) := by
  unfold execPointThirdExecDone
  split
  · split
    · extract_lets c dg out s1 s2 s3 s4 s5 bl
      have h4 : Kept s₀ s4 := State.countMiss_kept _ (State.modCell_kept (State.modCore_kept (State.modCore_kept hk)))
      exact keptR_ite (keptR_of_next hk) (keptR_of_next (State.blame_kept _ _ _ _ _ _ _ _ _
        (kept_ite h4 (State.setTaint_kept _ _ h4))))
    · exact keptR_of_next hk
  · exact keptR_of_next hk

theorem State.startHeighten_kept {s₀ : State} (s : State) (k trig : Nat) (hk : Kept s₀ s) : Kept s₀ (State.startHeighten s k trig) := by
  unfold State.startHeighten; grind [State.log_kept, State.modCell_kept, State.rcFlag_kept, kept_mk, kept_iff, = keptOn_iff]

theorem State.execHeightenedReexec_kept {s₀ : State} (cell : Fin 16) (s : State) (hk : Kept s₀ s) : KeptR s₀ (execHeightenedReexec cell s) := by
  unfold execHeightenedReexec; grind [State.setCell_kept, State.setCore_kept, kept_mk, kept_iff, = keptOn_iff, keptR_next]

theorem State.execDroopTrip_kept {s₀ : State} (core : Fin 48) (mhz : BitVec 12) (s : State) (hk : Kept s₀ s) : KeptR s₀ (execDroopTrip core mhz s) := by
  unfold execDroopTrip; grind [State.modCore_kept, State.reclock_kept, State.startHeighten_kept, kept_mk, kept_iff, = keptOn_iff, keptR_next]

theorem State.execDroopResponseEnd_kept {s₀ : State} (core : Fin 48) (s : State) (hk : Kept s₀ s) : KeptR s₀ (execDroopResponseEnd core s) := by
  unfold execDroopResponseEnd; grind [State.modCore_kept, State.reclock_kept, kept_mk, kept_iff, = keptOn_iff, keptR_next]

end Sys2Proof.Machine
end

