-- ==== Sys2Proof/Laws/KeptMvp.lean ====
section
/-! SUPPORT. What each operation of Machine/Mvp.lean keeps. -/
namespace Sys2Proof.Machine
open Sys2Proof

theorem State.execMvp_kept {s₀ : State} (core : Fin 48) (w : BitVec 128) (errs : List TreeErr) (s : State) (hk : Kept s₀ s) : KeptR s₀ (execMvp core w errs s) := by
  unfold execMvp; grind [State.issue1_kept, kept_mk, kept_iff, = keptOn_iff, keptR_next]

end Sys2Proof.Machine
end

