-- ==== Sys2Proof/Laws/KeptLines.lean ====
section
/-! SUPPORT. What each operation of Machine/Lines.lean keeps. -/
namespace Sys2Proof.Machine
open Sys2Proof

theorem State.execCarve_kept {s₀ : State} (core : Fin 48) (w : BitVec 128) (s : State) (hk : Kept s₀ s) : KeptR s₀ (execCarve core w s) := by
  unfold execCarve; grind [State.issue1_kept, kept_mk, kept_iff, = keptOn_iff, keptR_next]

theorem State.execModel_kept {s₀ : State} (core : Fin 48) (w : BitVec 128) (s : State) (hk : Kept s₀ s) : KeptR s₀ (execModel core w s) := by
  unfold execModel; grind [State.issue1_kept, kept_mk, kept_iff, = keptOn_iff, keptR_next]

theorem State.execMstat_kept {s₀ : State} (core : Fin 48) (w : BitVec 128) (s : State) (hk : Kept s₀ s) : KeptR s₀ (execMstat core w s) := by
  unfold execMstat; grind [State.issue1_kept, kept_mk, kept_iff, = keptOn_iff, keptR_next]

end Sys2Proof.Machine
end

