-- ==== Sys2Proof/Laws/KeptMerge.lean ====
section
/-! SUPPORT. What each operation of Machine/Merge.lean keeps. -/
namespace Sys2Proof.Machine
open Sys2Proof

theorem State.execSpmsp_kept {s₀ : State} (core : Fin 48) (w : BitVec 128) (s : State) (hk : Kept s₀ s) : KeptR s₀ (execSpmsp core w s) := by
  unfold execSpmsp; grind [State.issue1_kept, kept_mk, kept_iff, = keptOn_iff, keptR_next]

theorem State.execMerge_kept {s₀ : State} (core : Fin 48) (w : BitVec 128) (s : State) (hk : Kept s₀ s) : KeptR s₀ (execMerge core w s) := by
  unfold execMerge; grind [State.issue1_kept, kept_mk, kept_iff, = keptOn_iff, keptR_next]

theorem State.execSort_kept {s₀ : State} (core : Fin 48) (w : BitVec 128) (s : State) (hk : Kept s₀ s) : KeptR s₀ (execSort core w s) := by
  unfold execSort; grind [State.issue1_kept, kept_mk, kept_iff, = keptOn_iff, keptR_next]

theorem State.execTopkidx_kept {s₀ : State} (core : Fin 48) (w : BitVec 128) (s : State) (hk : Kept s₀ s) : KeptR s₀ (execTopkidx core w s) := by
  unfold execTopkidx; grind [State.issue1_kept, kept_mk, kept_iff, = keptOn_iff, keptR_next]

end Sys2Proof.Machine
end

