-- ==== Sys2Proof/Laws/KeptPack.lean ====
section
/-! SUPPORT. What each operation of Machine/Pack.lean keeps. -/
namespace Sys2Proof.Machine
open Sys2Proof

theorem State.execPack_kept {s₀ : State} (core : Fin 48) (w : BitVec 128) (s : State) (hk : Kept s₀ s) : KeptR s₀ (execPack core w s) := by
  unfold execPack; grind [State.issue1_kept, kept_mk, kept_iff, = keptOn_iff, keptR_next]

theorem State.execUnpack_kept {s₀ : State} (core : Fin 48) (w : BitVec 128) (s : State) (hk : Kept s₀ s) : KeptR s₀ (execUnpack core w s) := by
  unfold execUnpack; grind [State.issue1_kept, kept_mk, kept_iff, = keptOn_iff, keptR_next]

end Sys2Proof.Machine
end

