-- ==== Sys2Proof/Laws/KeptVector.lean ====
section
/-! SUPPORT. What each operation of Machine/Vector.lean keeps. -/
namespace Sys2Proof.Machine
open Sys2Proof

theorem State.issueElem_kept {s₀ : State} (s : State) (n opc : Nat) (w : BitVec 128) (hk : Kept s₀ s) : Kept s₀ (State.issueElem s n opc w) := by
  unfold State.issueElem; grind [State.issue1_kept, kept_mk, kept_iff, = keptOn_iff]

theorem State.execAdd_kept {s₀ : State} (core : Fin 48) (w : BitVec 128) (s : State) (hk : Kept s₀ s) : KeptR s₀ (execAdd core w s) := by
  unfold execAdd; grind [State.issueElem_kept, kept_mk, kept_iff, = keptOn_iff, keptR_next]

theorem State.execSub_kept {s₀ : State} (core : Fin 48) (w : BitVec 128) (s : State) (hk : Kept s₀ s) : KeptR s₀ (execSub core w s) := by
  unfold execSub; grind [State.issueElem_kept, kept_mk, kept_iff, = keptOn_iff, keptR_next]

theorem State.execMul_kept {s₀ : State} (core : Fin 48) (w : BitVec 128) (s : State) (hk : Kept s₀ s) : KeptR s₀ (execMul core w s) := by
  unfold execMul; grind [State.issueElem_kept, kept_mk, kept_iff, = keptOn_iff, keptR_next]

theorem State.execFma_kept {s₀ : State} (core : Fin 48) (w : BitVec 128) (s : State) (hk : Kept s₀ s) : KeptR s₀ (execFma core w s) := by
  unfold execFma; grind [State.issueElem_kept, kept_mk, kept_iff, = keptOn_iff, keptR_next]

theorem State.execMin_kept {s₀ : State} (core : Fin 48) (w : BitVec 128) (s : State) (hk : Kept s₀ s) : KeptR s₀ (execMin core w s) := by
  unfold execMin; grind [State.issueElem_kept, kept_mk, kept_iff, = keptOn_iff, keptR_next]

theorem State.execMax_kept {s₀ : State} (core : Fin 48) (w : BitVec 128) (s : State) (hk : Kept s₀ s) : KeptR s₀ (execMax core w s) := by
  unfold execMax; grind [State.issueElem_kept, kept_mk, kept_iff, = keptOn_iff, keptR_next]

theorem State.execAbs_kept {s₀ : State} (core : Fin 48) (w : BitVec 128) (s : State) (hk : Kept s₀ s) : KeptR s₀ (execAbs core w s) := by
  unfold execAbs; grind [State.issueElem_kept, kept_mk, kept_iff, = keptOn_iff, keptR_next]

theorem State.execNeg_kept {s₀ : State} (core : Fin 48) (w : BitVec 128) (s : State) (hk : Kept s₀ s) : KeptR s₀ (execNeg core w s) := by
  unfold execNeg; grind [State.issueElem_kept, kept_mk, kept_iff, = keptOn_iff, keptR_next]

theorem State.execMov_kept {s₀ : State} (core : Fin 48) (w : BitVec 128) (s : State) (hk : Kept s₀ s) : KeptR s₀ (execMov core w s) := by
  unfold execMov; grind [State.issueElem_kept, kept_mk, kept_iff, = keptOn_iff, keptR_next]

theorem State.execCmpeq_kept {s₀ : State} (core : Fin 48) (w : BitVec 128) (s : State) (hk : Kept s₀ s) : KeptR s₀ (execCmpeq core w s) := by
  unfold execCmpeq; grind [State.issueElem_kept, kept_mk, kept_iff, = keptOn_iff, keptR_next]

theorem State.execCmplt_kept {s₀ : State} (core : Fin 48) (w : BitVec 128) (s : State) (hk : Kept s₀ s) : KeptR s₀ (execCmplt core w s) := by
  unfold execCmplt; grind [State.issueElem_kept, kept_mk, kept_iff, = keptOn_iff, keptR_next]

theorem State.execCmple_kept {s₀ : State} (core : Fin 48) (w : BitVec 128) (s : State) (hk : Kept s₀ s) : KeptR s₀ (execCmple core w s) := by
  unfold execCmple; grind [State.issueElem_kept, kept_mk, kept_iff, = keptOn_iff, keptR_next]

theorem State.execSel_kept {s₀ : State} (core : Fin 48) (w : BitVec 128) (s : State) (hk : Kept s₀ s) : KeptR s₀ (execSel core w s) := by
  unfold execSel; grind [State.issueElem_kept, kept_mk, kept_iff, = keptOn_iff, keptR_next]

theorem State.execExp2_kept {s₀ : State} (core : Fin 48) (w : BitVec 128) (s : State) (hk : Kept s₀ s) : KeptR s₀ (execExp2 core w s) := by
  unfold execExp2; grind [State.issueElem_kept, kept_mk, kept_iff, = keptOn_iff, keptR_next]

theorem State.execLog2_kept {s₀ : State} (core : Fin 48) (w : BitVec 128) (s : State) (hk : Kept s₀ s) : KeptR s₀ (execLog2 core w s) := by
  unfold execLog2; grind [State.issueElem_kept, kept_mk, kept_iff, = keptOn_iff, keptR_next]

theorem State.execRcp_kept {s₀ : State} (core : Fin 48) (w : BitVec 128) (s : State) (hk : Kept s₀ s) : KeptR s₀ (execRcp core w s) := by
  unfold execRcp; grind [State.issueElem_kept, kept_mk, kept_iff, = keptOn_iff, keptR_next]

theorem State.execRsqrt_kept {s₀ : State} (core : Fin 48) (w : BitVec 128) (s : State) (hk : Kept s₀ s) : KeptR s₀ (execRsqrt core w s) := by
  unfold execRsqrt; grind [State.issueElem_kept, kept_mk, kept_iff, = keptOn_iff, keptR_next]

theorem State.execTanh_kept {s₀ : State} (core : Fin 48) (w : BitVec 128) (s : State) (hk : Kept s₀ s) : KeptR s₀ (execTanh core w s) := by
  unfold execTanh; grind [State.issueElem_kept, kept_mk, kept_iff, = keptOn_iff, keptR_next]

theorem State.execErf_kept {s₀ : State} (core : Fin 48) (w : BitVec 128) (s : State) (hk : Kept s₀ s) : KeptR s₀ (execErf core w s) := by
  unfold execErf; grind [State.issueElem_kept, kept_mk, kept_iff, = keptOn_iff, keptR_next]

theorem State.execSigm_kept {s₀ : State} (core : Fin 48) (w : BitVec 128) (s : State) (hk : Kept s₀ s) : KeptR s₀ (execSigm core w s) := by
  unfold execSigm; grind [State.issueElem_kept, kept_mk, kept_iff, = keptOn_iff, keptR_next]

theorem State.execSilu_kept {s₀ : State} (core : Fin 48) (w : BitVec 128) (s : State) (hk : Kept s₀ s) : KeptR s₀ (execSilu core w s) := by
  unfold execSilu; grind [State.issueElem_kept, kept_mk, kept_iff, = keptOn_iff, keptR_next]

theorem State.execGelu_kept {s₀ : State} (core : Fin 48) (w : BitVec 128) (s : State) (hk : Kept s₀ s) : KeptR s₀ (execGelu core w s) := by
  unfold execGelu; grind [State.issueElem_kept, kept_mk, kept_iff, = keptOn_iff, keptR_next]

theorem State.execRrow_kept {s₀ : State} (core : Fin 48) (w : BitVec 128) (s : State) (hk : Kept s₀ s) : KeptR s₀ (execRrow core w s) := by
  unfold execRrow; grind [State.issue1_kept, kept_mk, kept_iff, = keptOn_iff, keptR_next]

theorem State.execRcol_kept {s₀ : State} (core : Fin 48) (w : BitVec 128) (s : State) (hk : Kept s₀ s) : KeptR s₀ (execRcol core w s) := by
  unfold execRcol; grind [State.issue1_kept, kept_mk, kept_iff, = keptOn_iff, keptR_next]

theorem State.execMaskgen_kept {s₀ : State} (core : Fin 48) (w : BitVec 128) (s : State) (hk : Kept s₀ s) : KeptR s₀ (execMaskgen core w s) := by
  unfold execMaskgen; grind [State.issue1_kept, kept_mk, kept_iff, = keptOn_iff, keptR_next]

theorem State.execCvt_kept {s₀ : State} (core : Fin 48) (w : BitVec 128) (s : State) (hk : Kept s₀ s) : KeptR s₀ (execCvt core w s) := by
  unfold execCvt; grind [State.issue1_kept, kept_mk, kept_iff, = keptOn_iff, keptR_next]

theorem State.execSr_kept {s₀ : State} (core : Fin 48) (w : BitVec 128) (s : State) (hk : Kept s₀ s) : KeptR s₀ (execSr core w s) := by
  unfold execSr; grind [State.issue1_kept, kept_mk, kept_iff, = keptOn_iff, keptR_next]

theorem State.execSmax_kept {s₀ : State} (core : Fin 48) (w : BitVec 128) (s : State) (hk : Kept s₀ s) : KeptR s₀ (execSmax core w s) := by
  unfold execSmax; grind [State.issue1_kept, kept_mk, kept_iff, = keptOn_iff, keptR_next]

theorem State.execOinit_kept {s₀ : State} (core : Fin 48) (w : BitVec 128) (s : State) (hk : Kept s₀ s) : KeptR s₀ (execOinit core w s) := by
  unfold execOinit; grind [State.issue1_kept, kept_mk, kept_iff, = keptOn_iff, keptR_next]

theorem State.execOmax_kept {s₀ : State} (core : Fin 48) (w : BitVec 128) (s : State) (hk : Kept s₀ s) : KeptR s₀ (execOmax core w s) := by
  unfold execOmax; grind [State.issue1_kept, kept_mk, kept_iff, = keptOn_iff, keptR_next]

theorem State.execOsum_kept {s₀ : State} (core : Fin 48) (w : BitVec 128) (s : State) (hk : Kept s₀ s) : KeptR s₀ (execOsum core w s) := by
  unfold execOsum; grind [State.issue1_kept, kept_mk, kept_iff, = keptOn_iff, keptR_next]

theorem State.execOfin_kept {s₀ : State} (core : Fin 48) (w : BitVec 128) (s : State) (hk : Kept s₀ s) : KeptR s₀ (execOfin core w s) := by
  unfold execOfin; grind [State.issue1_kept, kept_mk, kept_iff, = keptOn_iff, keptR_next]

end Sys2Proof.Machine
end

