-- ==== Sys2Proof/Laws/KeptUpdate.lean ====
section
/-! SUPPORT. What each operation of Machine/Update.lean keeps. -/
namespace Sys2Proof.Machine
open Sys2Proof

theorem State.execUpdate_kept {s₀ : State} (core : Fin 48) (w : BitVec 128) (s : State) (hk : Kept s₀ s) : KeptR s₀ (execUpdate core w s) := by
  unfold execUpdate; grind [State.issue1_kept, kept_mk, kept_iff, = keptOn_iff, keptR_next]

theorem State.execGnormSq_kept {s₀ : State} (core : Fin 48) (w : BitVec 128) (s : State) (hk : Kept s₀ s) : KeptR s₀ (execGnormSq core w s) := by
  unfold execGnormSq; grind [State.issue1_kept, kept_mk, kept_iff, = keptOn_iff, keptR_next]

theorem State.execGnormFin_kept {s₀ : State} (core : Fin 48) (w : BitVec 128) (s : State) (hk : Kept s₀ s) : KeptR s₀ (execGnormFin core w s) := by
  unfold execGnormFin; grind [State.issue1_kept, kept_mk, kept_iff, = keptOn_iff, keptR_next]

theorem State.execGnormClr_kept {s₀ : State} (core : Fin 48) (w : BitVec 128) (s : State) (hk : Kept s₀ s) : KeptR s₀ (execGnormClr core w s) := by
  unfold execGnormClr; grind [State.issue1_kept, kept_mk, kept_iff, = keptOn_iff, keptR_next]

end Sys2Proof.Machine
end

