-- ==== Sys2Proof/Laws/KeptMemory.lean ====
section
/-! SUPPORT. What each operation of Machine/Memory.lean keeps. -/
namespace Sys2Proof.Machine
open Sys2Proof

theorem State.clearCovered_kept {s₀ : State} (s : State) (n : Nat) (store hbm : List (Nat × (Nat × Bool))) (hk : Kept s₀ s) : Kept s₀ (State.clearCovered s n store hbm) :=
  ⟨hk.1, hk.2.1, fun g => psWf_foldl _ (fun _ _ h => psWf_filter _ _ h) _ _ (hk.2.2.1 g), hk.2.2.2⟩

theorem State.walkThrough_kept {s₀ : State} (s : State) (root : Option (Nat × Nat)) (va : Nat) (hk : Kept s₀ s) : Kept s₀ (State.walkThrough s root va).1 := by
  unfold State.walkThrough; grind [State.touch_kept, kept_mk, kept_iff, = keptOn_iff]
theorem State.walkThrough_kept' {s₀ t : State} {s : State} {root : Option (Nat × Nat)} {va : Nat} {y₀} (e₀ : (State.walkThrough s root va) = (t, y₀)) (hk : Kept s₀ s) : Kept s₀ t := by
  have := State.walkThrough_kept s root va hk; rw [e₀] at this; exact this

theorem State.xlate_kept {s₀ : State} (s : State) (n : Nat) (root : Option (Nat × Nat)) (va : Nat) (rd wr : Bool) (hk : Kept s₀ s) : Kept s₀ (State.xlate s n root va rd wr).1 := by
  unfold State.xlate; grind [State.finish_kept, State.modCore_kept, State.walkThrough_kept, → State.walkThrough_kept', kept_mk, kept_iff, = keptOn_iff]
theorem State.xlate_kept' {s₀ t : State} {s : State} {n : Nat} {root : Option (Nat × Nat)} {va : Nat} {rd wr : Bool} {y₀} (e₀ : (State.xlate s n root va rd wr) = (t, y₀)) (hk : Kept s₀ s) : Kept s₀ t := by
  have := State.xlate_kept s n root va rd wr hk; rw [e₀] at this; exact this

theorem State.xlRange_kept {s₀ : State} (n : Nat) (root : Option (Nat × Nat)) (rd wr : Bool) (l : List (Nat × Nat)) : ∀ (s : State) (_ : Kept s₀ s), Kept s₀ (State.xlRange s n root rd wr l).1 := by
  induction l with
  | nil => exact fun _ h => h
  | cons x r ih => intro s hk; unfold State.xlRange; grind [State.xlate_kept, → State.xlate_kept']
theorem State.xlRange_kept' {s₀ t : State} {s : State} {n : Nat} {root : Option (Nat × Nat)} {rd wr : Bool} {l : List (Nat × Nat)} {x} (e : (State.xlRange s n root rd wr l) = (t, x)) (hk : Kept s₀ s) : Kept s₀ t := by
  have := State.xlRange_kept n root rd wr l s hk; rw [e] at this; exact this

theorem State.place_kept {s₀ : State} (s : State) (n : Nat) (root : Option (Nat × Nat)) (virt : Bool) (a len : Nat) (rd wr : Bool) (hk : Kept s₀ s) : Kept s₀ (State.place s n root virt a len rd wr).1 := by
  unfold State.place; grind [State.xlRange_kept, → State.xlRange_kept', kept_mk, kept_iff, = keptOn_iff]
theorem State.place_kept' {s₀ t : State} {s : State} {n : Nat} {root : Option (Nat × Nat)} {virt : Bool} {a len : Nat} {rd wr : Bool} {y₀} (e₀ : (State.place s n root virt a len rd wr) = (t, y₀)) (hk : Kept s₀ s) : Kept s₀ t := by
  have := State.place_kept s n root virt a len rd wr hk; rw [e₀] at this; exact this

theorem State.ptouch_kept {s₀ : State} (s : State) (write : Bool) (p : Place) (hk : Kept s₀ s) : Kept s₀ (State.ptouch s write p) := by
  unfold State.ptouch; grind [State.touch_kept, kept_foldl]

theorem State.pread_kept {s₀ : State} (s : State) (p : Place) (hk : Kept s₀ s) : Kept s₀ (State.pread s p).1 := by
  unfold State.pread; grind [State.ptouch_kept, kept_mk, kept_iff, = keptOn_iff]

theorem State.pread_kept' {s₀ t : State} {s : State} {p : Place} {y₀} (e₀ : (State.pread s p) = (t, y₀)) (hk : Kept s₀ s) : Kept s₀ t := by
  have := State.pread_kept s p hk; rw [e₀] at this; exact this

theorem State.pput_kept {s₀ : State} (s : State) (bs : List PByte) (p : Place) (hk : Kept s₀ s) : Kept s₀ (State.pput s bs p) := by
  cases p with
  | store n a _ => exact hk
  | hbm ps => exact kept_foldl_fst _ _ (fun _ _ h => State.hwrite_kept h) _ hk

theorem State.xlFault_kept {s₀ : State} (s : State) (k n st ord cursor : Nat) (e : XlErr) (hk : Kept s₀ s) : Kept s₀ (State.xlFault s k n st ord cursor e) := by
  unfold State.xlFault; grind [State.modCore_kept, State.raiseFault_kept, kept_mk, kept_iff, = keptOn_iff]

end Sys2Proof.Machine
end

