-- ==== Sys2Proof/Laws/KeptDma.lean ====
section
/-! SUPPORT. What each operation of Machine/Dma.lean keeps. -/
namespace Sys2Proof.Machine
open Sys2Proof

theorem State.xferRead_kept {s₀ : State} (s : State) (n : Nat) (c : Cell) (x : Xfer) (a : Nat) (hk : Kept s₀ s) : Kept s₀ (State.xferRead s n c x a).1 := by
  unfold State.xferRead; grind [State.meet_kept, State.place_kept, → State.place_kept', State.pread_kept, → State.pread_kept', kept_mk, kept_iff, = keptOn_iff]
theorem State.xferRead_kept' {s₀ t : State} {s : State} {n : Nat} {c : Cell} {x : Xfer} {a : Nat} {y₀} (e₀ : (State.xferRead s n c x a) = (t, y₀)) (hk : Kept s₀ s) : Kept s₀ t := by
  have := State.xferRead_kept s n c x a hk; rw [e₀] at this; exact this

theorem State.xferElem_kept {s₀ : State} (s : State) (n : Nat) (c : Cell) (x : Xfer) (el : Elem) (o : XferOut) (hk : Kept s₀ s) : Kept s₀ (State.xferElem s n c x el o).1 := by
  unfold State.xferElem
  extract_lets o1
  split
  · exact hk
  · split
    · exact State.xferRead_kept' (by assumption) hk
    · rename_i e1
      have h1 := State.xferRead_kept' e1 hk
      split
      · exact State.place_kept' (by assumption) h1
      · rename_i e2
        have h2 := State.place_kept' e2 h1
        extract_lets bs
        cases x.acc with
        | none => exact State.pput_kept _ _ _ (State.ptouch_kept _ _ _ h2)
        | some a => exact State.pput_kept _ _ _ (State.ptouch_kept _ _ _ (State.pread_kept _ _ h2))
theorem State.xferElem_kept' {s₀ t : State} {s : State} {n : Nat} {c : Cell} {x : Xfer} {el : Elem} {o : XferOut} {y₀} (e₀ : (State.xferElem s n c x el o) = (t, y₀)) (hk : Kept s₀ s) : Kept s₀ t := by
  have := State.xferElem_kept s n c x el o hk; rw [e₀] at this; exact this

theorem State.xferLoop_kept {s₀ : State} (n : Nat) (c : Cell) (x : Xfer) (fuel : Nat) : ∀ (s : State) (k : Nat) (o : XferOut) (_ : Kept s₀ s), Kept s₀ (State.xferLoop n c x fuel s k o).1 := by
  induction fuel with
  | zero => exact fun _ _ _ h => h
  | succ m ih => intro s k o hk; unfold State.xferLoop; grind [State.xferElem_kept, → State.xferElem_kept']
theorem State.xferLoop_kept' {s₀ t : State} {n : Nat} {c : Cell} {x : Xfer} {fuel : Nat} {s : State} {k : Nat} {o : XferOut} {y} (e : State.xferLoop n c x fuel s k o = (t, y)) (hk : Kept s₀ s) : Kept s₀ t := by
  have := State.xferLoop_kept n c x fuel s k o hk; rw [e] at this; exact this

theorem State.bounceIn_kept {s₀ : State} (n : Nat) (c : Cell) (v : Bool) (bb : Nat) (l : List (Nat × (Nat × Nat))) : ∀ (s : State) (_ : Kept s₀ s), Kept s₀ (State.bounceIn n c v bb l s).1 := by
  induction l with
  | nil => exact fun _ h => h
  | cons x r ih => intro s hk; unfold State.bounceIn; grind [State.modCore_kept, State.place_kept, → State.place_kept', State.pread_kept, → State.pread_kept']

theorem State.readAhead_kept {s₀ : State} (n : Nat) (c : Cell) (x : Xfer) (l : List Nat) : ∀ (s : State) (_ : Kept s₀ s), Kept s₀ (State.readAhead n c x l s).1 := by
  induction l with
  | nil => exact fun _ h => h
  | cons k r ih => intro s hk; unfold State.readAhead; grind [State.place_kept, → State.place_kept', State.xferRead_kept, → State.xferRead_kept']
theorem State.readAhead_kept' {s₀ t : State} {n : Nat} {c : Cell} {x : Xfer} {l : List Nat} {s : State} {y} (e : State.readAhead n c x l s = (t, y)) (hk : Kept s₀ s) : Kept s₀ t := by
  have := State.readAhead_kept n c x l s hk; rw [e] at this; exact this

theorem State.runXfer_kept {s₀ : State} (s : State) (k n : Nat) (e : Entry) (hk : Kept s₀ s) : Kept s₀ (State.runXfer s k n e) := by
  unfold State.runXfer
  extract_lets c x cur el p1 ph fin
  have h1 : Kept s₀ p1.1 := by
    simp only [p1]; split
    · split
      · exact hk
      · exact State.bounceIn_kept _ _ _ _ _ _ hk
    · exact hk
  have hf : ∀ s i o, Kept s₀ s → Kept s₀ (fin s i o) := fun _ _ _ h => State.modCore_kept (State.clearCovered_kept _ _ _ _ h)
  clear_value p1 fin
  split
  · exact State.xlFault_kept _ _ _ _ _ _ _ h1
  · split
    · split
      · exact State.xlFault_kept _ _ _ _ _ _ _ (State.readAhead_kept' (by assumption) h1)
      · exact hf _ _ _ (kept_foldl _ _ (fun _ _ h => State.pput_kept _ _ _ (State.ptouch_kept _ _ _ h)) _
          (State.readAhead_kept' (by assumption) h1))
    · split
      · exact State.xlFault_kept _ _ _ _ _ _ _ (State.modCore_kept (State.clearCovered_kept _ _ _ _
          (State.xferLoop_kept' (by assumption) h1)))
      · exact hf _ _ _ (State.xferLoop_kept' (by assumption) h1)

theorem State.runLocal_kept {s₀ : State} (s : State) (n : Nat) (e : Entry) (hk : Kept s₀ s) : Kept s₀ (State.runLocal s n e) := by
  unfold State.runLocal; grind [State.modCore_kept, State.runXfer_kept, kept_mk, kept_iff, = keptOn_iff]

theorem State.issueLocal_kept {s₀ : State} (s : State) (n opc : Nat) (w : BitVec 128) (errs : List SectorErr) (plan : IssueCtx → Except Refuse Plan) (hk : Kept s₀ s) : Kept s₀ (State.issueLocal s n opc w errs plan) := by
  unfold State.issueLocal; grind [State.decay_kept, State.issue1_kept, State.runLocal_kept, kept_mk, kept_iff, = keptOn_iff]

theorem State.execDma_kept {s₀ : State} (core : Fin 48) (w : BitVec 128) (errs : List SectorErr) (s : State) (hk : Kept s₀ s) : KeptR s₀ (execDma core w errs s) := by
  unfold execDma; grind [State.issueLocal_kept, kept_mk, kept_iff, = keptOn_iff, keptR_next]

theorem State.execCopy_kept {s₀ : State} (core : Fin 48) (w : BitVec 128) (s : State) (hk : Kept s₀ s) : KeptR s₀ (execCopy core w s) := by
  unfold execCopy; grind [State.issueLocal_kept, kept_mk, kept_iff, = keptOn_iff, keptR_next]

theorem State.execXpose_kept {s₀ : State} (core : Fin 48) (w : BitVec 128) (s : State) (hk : Kept s₀ s) : KeptR s₀ (execXpose core w s) := by
  unfold execXpose; grind [State.issueLocal_kept, kept_mk, kept_iff, = keptOn_iff, keptR_next]

theorem State.execPermute_kept {s₀ : State} (core : Fin 48) (w : BitVec 128) (errs : List SectorErr) (s : State) (hk : Kept s₀ s) : KeptR s₀ (execPermute core w errs s) := by
  unfold execPermute; grind [State.issueLocal_kept, kept_mk, kept_iff, = keptOn_iff, keptR_next]

theorem State.execGather_kept {s₀ : State} (core : Fin 48) (w : BitVec 128) (errs : List SectorErr) (s : State) (hk : Kept s₀ s) : KeptR s₀ (execGather core w errs s) := by
  unfold execGather; grind [State.issueLocal_kept, kept_mk, kept_iff, = keptOn_iff, keptR_next]

theorem State.execScatter_kept {s₀ : State} (core : Fin 48) (w : BitVec 128) (errs : List SectorErr) (s : State) (hk : Kept s₀ s) : KeptR s₀ (execScatter core w errs s) := by
  unfold execScatter; grind [State.issueLocal_kept, kept_mk, kept_iff, = keptOn_iff, keptR_next]

end Sys2Proof.Machine
end

