-- ==== Sys2Proof/Laws/KeptExport.lean ====
section
/-! SUPPORT. What each operation of Machine/Export.lean keeps. -/
namespace Sys2Proof.Machine
open Sys2Proof

theorem State.spillAt_kept {s₀ : State} (s : State) (i : Nat) (hk : Kept s₀ s) : Kept s₀ (State.spillAt s i) := by
  unfold State.spillAt; grind [State.hwrite_kept, State.touchPhys_kept, kept_mk, kept_iff, = keptOn_iff, kept_foldl]

theorem State.spill_kept {s₀ : State} (s : State) (hk : Kept s₀ s) : Kept s₀ (State.spill s) := by
  unfold State.spill; grind [State.hwrite_kept, State.spillAt_kept, State.touchPhys_kept, kept_mk, kept_iff, = keptOn_iff, kept_foldl]

theorem State.unspill_kept {s₀ : State} (s : State) (hk : Kept s₀ s) : Kept s₀ (State.unspill s) := by
  unfold State.unspill; grind [State.touchPhys_kept, kept_mk, kept_iff, = keptOn_iff, kept_foldl]

theorem State.expPush_kept {s₀ : State} (s : State) (r : ExpRec) (step : Nat) (hk : Kept s₀ s) : Kept s₀ (State.expPush s r step) := by
  unfold State.expPush; grind [State.log_kept, State.spill_kept, kept_mk, kept_iff, = keptOn_iff]

theorem State.delta_kept {s₀ : State} (s : State) (a : Nat) (old new : List Byte) (pois : Bool) (step : Nat) (hk : Kept s₀ s) : Kept s₀ (State.delta s a old new pois step).1 := by
  unfold State.delta; grind [State.expPush_kept, kept_mk, kept_iff, = keptOn_iff]
theorem State.delta_kept' {s₀ t : State} {s : State} {a : Nat} {old new : List Byte} {pois : Bool} {step : Nat} {y₀} (e₀ : (State.delta s a old new pois step) = (t, y₀)) (hk : Kept s₀ s) : Kept s₀ t := by
  have := State.delta_kept s a old new pois step hk; rw [e₀] at this; exact this

theorem State.lineWrite_kept {s₀ : State} (s : State) (a part : Nat) (line : List Byte) (pois : Bool) (step : Nat) (hk : Kept s₀ s) : Kept s₀ (State.lineWrite s a part line pois step).1 := by
  unfold State.lineWrite; grind [State.delta_kept, → State.delta_kept', State.hwrite_kept, State.touch_kept, kept_mk, kept_iff, = keptOn_iff]
theorem State.lineWrite_kept' {s₀ t : State} {s : State} {a part : Nat} {line : List Byte} {pois : Bool} {step : Nat} {y₀} (e₀ : (State.lineWrite s a part line pois step) = (t, y₀)) (hk : Kept s₀ s) : Kept s₀ t := by
  have := State.lineWrite_kept s a part line pois step hk; rw [e₀] at this; exact this

theorem State.refuseLine_kept {s₀ : State} (s : State) (k : Nat) (h : HomeWrite) (hk : Kept s₀ s) : Kept s₀ (State.refuseLine s k h) := by
  unfold State.refuseLine; grind [State.expPush_kept, State.hwrite_kept, State.touchPhys_kept, State.walkThrough_kept, → State.walkThrough_kept', kept_mk, kept_iff, = keptOn_iff]

theorem State.skipEvent_kept {s₀ : State} (s : State) (k n : Nat) (e : Entry) (h : HomeWrite) (hk : Kept s₀ s) : Kept s₀ (State.skipEvent s k n e h) := by
  unfold State.skipEvent; grind [State.fault_kept, State.log_kept, kept_mk, kept_iff, = keptOn_iff]

theorem State.execHomeLineWrite_kept {s₀ : State} (core : Fin 48) (stream : Fin 6) (s : State) (hk : Kept s₀ s) : KeptR s₀ (execHomeLineWrite core stream s) := by
  unfold execHomeLineWrite; (repeat' split) <;> grind [State.lineWrite_kept, → State.lineWrite_kept', State.modCell_kept, State.modCore_kept, State.refuseLine_kept, State.skipEvent_kept, State.xlFault_kept, State.xlate_kept, → State.xlate_kept', kept_mk, kept_iff, = keptOn_iff, keptR_next]

theorem State.execPlinthWriteAck_kept {s₀ : State} (core : Fin 48) (stream : Fin 6) (s : State) (hk : Kept s₀ s) : KeptR s₀ (execPlinthWriteAck core stream s) := by
  unfold execPlinthWriteAck; grind [State.modCore_kept, State.setCell_kept, kept_mk, kept_iff, = keptOn_iff, keptR_next]

end Sys2Proof.Machine
end

