-- ==== Sys2Proof/Laws/KeptTcd.lean ====
section
/-! SUPPORT. What each operation of Machine/Tcd.lean keeps. -/
namespace Sys2Proof.Machine
open Sys2Proof

theorem State.modSession_kept {s₀ : State} (s : State) (id : Nat) (f : Session → Session) (hk : Kept s₀ s) : Kept s₀ (State.modSession s id f) := by
  unfold State.modSession; grind [kept_mk, kept_iff, = keptOn_iff]

theorem State.respond_kept {s₀ : State} (s : State) (ss : Session) (op epoch seq status : Nat) (payload : List Byte) (hk : Kept s₀ s) : Kept s₀ (State.respond s ss op epoch seq status payload) := by
  unfold State.respond; grind [State.emit_kept, State.sendTcd_kept, kept_mk, kept_iff, = keptOn_iff]

theorem State.finalResponse_kept {s₀ : State} (s : State) (id op epoch seq status : Nat) (payload : List Byte) (hk : Kept s₀ s) : Kept s₀ (State.finalResponse s id op epoch seq status payload) := by
  unfold State.finalResponse; grind [State.modSession_kept, State.respond_kept, kept_mk, kept_iff, = keptOn_iff]

theorem State.closeSession_kept {s₀ : State} (s : State) (id cause : Nat) (hk : Kept s₀ s) : Kept s₀ (State.closeSession s id cause) := by
  unfold State.closeSession; grind [State.log_kept, kept_mk, kept_iff, = keptOn_iff]

theorem State.closeAll_kept {s₀ : State} (s : State) (ports : List Nat) (hk : Kept s₀ s) : Kept s₀ (State.closeAll s ports) := by
  unfold State.closeAll; grind [State.closeSession_kept, kept_mk, kept_iff, = keptOn_iff, kept_foldl]

theorem State.fwdEnd_kept {s₀ : State} (s : State) (id epoch seq status : Nat) (payload : List Byte) (hk : Kept s₀ s) : Kept s₀ (State.fwdEnd s id epoch seq status payload) := by
  unfold State.fwdEnd; grind [State.finalResponse_kept, kept_mk, kept_iff, = keptOn_iff]

theorem State.modQp_kept {s₀ : State} (s : State) (qpn : Nat) (f : Qp → Qp) (hk : Kept s₀ s) : Kept s₀ (State.modQp s qpn f) := by
  unfold State.modQp; grind [kept_mk, kept_iff, = keptOn_iff]

theorem State.sendRoce_kept {s₀ : State} (s : State) (port : Nat) (ps : List (Nat × (Nat × List Byte))) (hk : Kept s₀ s) : Kept s₀ (State.sendRoce s port ps) := by
  unfold State.sendRoce; grind [State.sendEthAll_kept, kept_mk, kept_iff, = keptOn_iff]

theorem State.rdmaFinish_kept {s₀ : State} (s : State) (o : RdmaOp) (hk : Kept s₀ s) : Kept s₀ (State.rdmaFinish s o) := by
  unfold State.rdmaFinish; grind [State.emitAll_kept, State.log_kept, State.sendRoce_kept, kept_mk, kept_iff, = keptOn_iff]

theorem State.rdmaFlush_kept {s₀ : State} (s : State) (hk : Kept s₀ s) : Kept s₀ (State.rdmaFlush s) := by
  unfold State.rdmaFlush; grind [State.rdmaFinish_kept, kept_mk, kept_iff, = keptOn_iff, kept_foldl]

theorem State.rdmaAnswer_kept {s₀ : State} (s : State) (flow seq : Nat) (r : Option Packet) (hk : Kept s₀ s) : Kept s₀ (State.rdmaAnswer s flow seq r) := by
  unfold State.rdmaAnswer; grind [State.rdmaFlush_kept, kept_mk, kept_iff, = keptOn_iff]

theorem State.hostFailed_kept {s₀ : State} (s : State) (flow seq : Nat) (hk : Kept s₀ s) : Kept s₀ (State.hostFailed s flow seq) := by
  unfold State.hostFailed; grind [State.fwdEnd_kept, State.rdmaAnswer_kept, kept_mk, kept_iff, = keptOn_iff]

end Sys2Proof.Machine
end

