-- ==== Sys2Proof/Laws/KeptLinks.lean ====
section
/-! SUPPORT. What each operation of Machine/Links.lean keeps. -/
namespace Sys2Proof.Machine
open Sys2Proof

theorem State.pump_kept {s₀ : State} (s : State) (i : Nat) (hk : Kept s₀ s) : Kept s₀ (State.pump s i) := by
  unfold State.pump; grind [State.emitAll_kept, State.modPort_kept, kept_mk, kept_iff, = keptOn_iff]

theorem State.sendIdle_kept {s₀ : State} (s : State) (i : Nat) (hk : Kept s₀ s) : Kept s₀ (State.sendIdle s i) := by
  unfold State.sendIdle; grind [State.emitAll_kept, State.emit_kept, State.modPort_kept, kept_mk, kept_iff, = keptOn_iff]

theorem State.linkTick_kept {s₀ : State} (s : State) (hk : Kept s₀ s) : Kept s₀ (State.linkTick s) := by
  unfold State.linkTick; grind [State.sendIdle_kept, kept_mk, kept_iff, = keptOn_iff, kept_foldl]

theorem State.flushCtl_kept {s₀ : State} (k : Nat) (s : State) (i : Nat) (hk : Kept s₀ s) : Kept s₀ (State.flushCtl k s i) := by
  induction k generalizing s with
  | zero => exact hk
  | succ k ih =>
    unfold State.flushCtl
    split
    · exact hk
    · exact ih _ (State.sendIdle_kept _ _ hk)

theorem State.sendControl_kept {s₀ : State} (s : State) (i kind : Nat) (segs : List (List Byte)) (hk : Kept s₀ s) : Kept s₀ (State.sendControl s i kind segs) := by
  unfold State.sendControl; grind [State.emit_kept, State.flushCtl_kept, State.modPort_kept, kept_mk, kept_iff, = keptOn_iff, kept_foldl]

theorem State.sendHand_kept {s₀ : State} (s : State) (i kind : Nat) (msg : List Byte) (hk : Kept s₀ s) : Kept s₀ (State.sendHand s i kind msg) := by
  unfold State.sendHand; grind [State.emit_kept, State.sendControl_kept, kept_mk, kept_iff, = keptOn_iff]

theorem State.portSend_kept {s₀ : State} (s : State) (i : Nat) (pk src : Packet) (arr : Option Nat) (hk : Kept s₀ s) : Kept s₀ (State.portSend s i pk src arr) := by
  unfold State.portSend; grind [State.modPort_kept, State.pump_kept, kept_mk, kept_iff, = keptOn_iff]

theorem State.routeSend_kept {s₀ t : State} (s : State) (pk : Packet) (arr : Option Nat) (hk : Kept s₀ s) (e : State.routeSend s pk arr = some t) : Kept s₀ t := by
  unfold State.routeSend at e; grind [State.portSend_kept]

theorem State.modImg_kept {s₀ : State} (s : State) (k l : Nat) (f : Core → Core) (hk : Kept s₀ s) : Kept s₀ (State.modImg s k l f) := by
  unfold State.modImg; grind [State.modCell_kept, kept_mk, kept_iff, = keptOn_iff]

theorem State.imgTable_kept {s₀ : State} (s : State) (k l : Nat) (hk : Kept s₀ s) : Kept s₀ (State.imgTable s k l) := by
  unfold State.imgTable; grind [State.hbmWrite_kept, State.touchPhys_kept, kept_mk, kept_iff, = keptOn_iff, kept_foldl]

theorem State.modImgEntry_kept {s₀ : State} (s : State) (k l st ord : Nat) (f : Entry → Entry) (hk : Kept s₀ s) : Kept s₀ (State.modImgEntry s k l st ord f) := by
  unfold State.modImgEntry; grind [State.imgTable_kept, State.modImg_kept, kept_mk, kept_iff, = keptOn_iff]

theorem State.modOwner_kept {s₀ : State} (s : State) (flow seq : Nat) (f : Entry → Entry) (hk : Kept s₀ s) : Kept s₀ (State.modOwner s flow seq f) := by
  unfold State.modOwner; grind [State.modCore_kept, State.modImgEntry_kept, kept_mk, kept_iff, = keptOn_iff]

theorem State.remFault_kept {s₀ : State} (s : State) (flow seq cause ev : Nat) (hk : Kept s₀ s) : Kept s₀ (State.remFault s flow seq cause ev) := by
  unfold State.remFault; grind [State.hostFailed_kept, State.modCore_kept, State.modImgEntry_kept, State.raiseFault_kept, kept_mk, kept_iff, = keptOn_iff]

theorem State.popTx_kept {s₀ : State} (s : State) (flow seq : Nat) (hk : Kept s₀ s) : Kept s₀ (State.popTx s flow seq) := by
  unfold State.popTx; grind [kept_mk, kept_iff, = keptOn_iff]

theorem State.countNoroute_kept {s₀ : State} (s : State) (hk : Kept s₀ s) : Kept s₀ (State.countNoroute s) := by
  unfold State.countNoroute; grind [kept_mk, kept_iff, = keptOn_iff]

theorem State.unroutable_kept {s₀ : State} (s : State) (pk : Packet) (hk : Kept s₀ s) : Kept s₀ (State.unroutable s pk) := by
  unfold State.unroutable
  extract_lets s1 s2
  have h2 : Kept s₀ s2 := State.log_kept (show Kept s₀ s1 from hk)
  clear_value s2
  refine kept_ite (kept_ite (State.remFault_kept _ _ _ _ _ h2) h2) (kept_ite ?_ h2)
  split
  · exact State.routeSend_kept _ _ _ h2 ‹_›
  · exact h2

theorem State.transmit_kept {s₀ : State} (s : State) (pk : Packet) (arr : Option Nat) (hk : Kept s₀ s) : Kept s₀ (State.transmit s pk arr) := by
  unfold State.transmit; grind [State.routeSend_kept, State.unroutable_kept, kept_mk, kept_iff, = keptOn_iff]

theorem State.portLeave_kept {s₀ : State} (s : State) (i : Nat) (st : PortSt) (why : Nat) (hk : Kept s₀ s) : Kept s₀ (State.portLeave s i st why) := by
  unfold State.portLeave; grind [State.modPort_kept, State.transmit_kept, kept_mk, kept_iff, = keptOn_iff, kept_foldl]

theorem State.portDown_kept {s₀ : State} (s : State) (i why : Nat) (fail : Bool) (hk : Kept s₀ s) : Kept s₀ (State.portDown s i why fail) := by
  unfold State.portDown; grind [State.log_kept, State.portLeave_kept, kept_mk, kept_iff, = keptOn_iff]

theorem State.portQuar_kept {s₀ : State} (s : State) (i cause : Nat) (hk : Kept s₀ s) : Kept s₀ (State.portQuar s i cause) := by
  unfold State.portQuar; grind [State.log_kept, State.modPort_kept, State.portLeave_kept, kept_mk, kept_iff, = keptOn_iff]

theorem State.portProto_kept {s₀ : State} (s : State) (i v : Nat) (hk : Kept s₀ s) : Kept s₀ (State.portProto s i v) := by
  unfold State.portProto; grind [State.log_kept, State.portQuar_kept, kept_mk, kept_iff, = keptOn_iff]

theorem State.trainFail_kept {s₀ : State} (s : State) (i why : Nat) (hk : Kept s₀ s) : Kept s₀ (State.trainFail s i why) := by
  unfold State.trainFail; grind [State.log_kept, State.modPort_kept, kept_mk, kept_iff, = keptOn_iff]

theorem State.execLnkTrainAttempt_kept {s₀ : State} (port : Fin 8) (s : State) (hk : Kept s₀ s) : KeptR s₀ (execLnkTrainAttempt port s) := by
  unfold execLnkTrainAttempt; grind [State.modPort_kept, kept_mk, kept_iff, = keptOn_iff, keptR_next]

theorem State.execTrainingStepTimeout_kept {s₀ : State} (port : Fin 8) (s : State) (hk : Kept s₀ s) : KeptR s₀ (execTrainingStepTimeout port s) := by
  unfold execTrainingStepTimeout; grind [State.trainFail_kept, kept_mk, kept_iff, = keptOn_iff, keptR_next]

theorem State.eyeRecord_kept {s₀ : State} (s : State) (i : Nat) (l : (Nat × Nat) × Nat) (hk : Kept s₀ s) : Kept s₀ (State.eyeRecord s i l) := by
  unfold State.eyeRecord; grind [State.log_kept, State.modPort_kept, kept_mk, kept_iff, = keptOn_iff]

theorem State.execTrainingDone_kept {s₀ : State} (port : Fin 8) (healthy : LaneSets) (eyes : List (Nat × Nat)) (s : State) (hk : Kept s₀ s) : KeptR s₀ (execTrainingDone port healthy eyes s) := by
  unfold execTrainingDone
  refine keptR_ite ?_ (keptR_of_next hk)
  extract_lets hl w
  refine keptR_ite (keptR_of_next (State.trainFail_kept _ _ _ hk)) (keptR_of_next ?_)
  have h := kept_foldl (fun s x => State.eyeRecord s port x) ((eyes.take 20).zipIdx) (fun _ _ h => State.eyeRecord_kept _ _ _ h) s hk
  exact State.sendHand_kept _ _ _ _ (State.sendHand_kept _ _ _ _ (State.modPort_kept (kept_congr h rfl rfl rfl rfl rfl rfl)))

theorem State.execLinkHello_kept {s₀ : State} (port : Fin 8) (h : Hello) (s : State) (hk : Kept s₀ s) : KeptR s₀ (execLinkHello port h s) := by
  unfold execLinkHello; grind [State.modPort_kept, State.portProto_kept, State.sendHand_kept, kept_mk, kept_iff, = keptOn_iff, keptR_next]

theorem State.execLinkCert_kept {s₀ : State} (port : Fin 8) (cert chain : List Byte) (s : State) (hk : Kept s₀ s) : KeptR s₀ (execLinkCert port cert chain s) := by
  unfold execLinkCert; grind [State.modPort_kept, State.portProto_kept, kept_mk, kept_iff, = keptOn_iff, keptR_next]

theorem State.execLinkSign_kept {s₀ : State} (port : Fin 8) (sig : List Byte) (s : State) (hk : Kept s₀ s) : KeptR s₀ (execLinkSign port sig s) := by
  unfold execLinkSign
  extract_lets p
  split
  · split
    · exact keptR_of_next (State.portQuar_kept _ _ _ (State.log_kept hk))
    · exact keptR_of_next (State.pump_kept _ _ (State.log_kept (kept_congr (s := s) hk rfl rfl rfl rfl rfl rfl)))
  · exact keptR_ite (keptR_of_next (State.portProto_kept _ _ _ hk)) (keptR_of_next hk)

theorem State.execAuthTimeout_kept {s₀ : State} (port : Fin 8) (s : State) (hk : Kept s₀ s) : KeptR s₀ (execAuthTimeout port s) := by
  unfold execAuthTimeout; grind [State.log_kept, State.modPort_kept, State.portDown_kept, State.portQuar_kept, kept_mk, kept_iff, = keptOn_iff, keptR_next]

theorem State.lanesLeft_kept {s₀ : State} (s : State) (i : Nat) (h tx : BitVec 20) (hk : Kept s₀ s) : Kept s₀ (State.lanesLeft s i h tx) := by
  unfold State.lanesLeft; grind [State.modPort_kept, State.portDown_kept, kept_mk, kept_iff, = keptOn_iff]

theorem State.execLaneUnhealthy_kept {s₀ : State} (port : Fin 8) (l : LaneLoss) (s : State) (hk : Kept s₀ s) : KeptR s₀ (execLaneUnhealthy port l s) := by
  unfold execLaneUnhealthy; grind [State.lanesLeft_kept, State.modPort_kept, State.portDown_kept, kept_mk, kept_iff, = keptOn_iff, keptR_next]

theorem State.execRetrainDone_kept {s₀ : State} (port : Fin 8) (s : State) (hk : Kept s₀ s) : KeptR s₀ (execRetrainDone port s) := by
  unfold execRetrainDone; grind [State.log_kept, State.modPort_kept, State.pump_kept, kept_mk, kept_iff, = keptOn_iff, keptR_next]

theorem State.execRetrainTimeout_kept {s₀ : State} (port : Fin 8) (s : State) (hk : Kept s₀ s) : KeptR s₀ (execRetrainTimeout port s) := by
  unfold execRetrainTimeout; grind [State.portDown_kept, kept_mk, kept_iff, = keptOn_iff, keptR_next]

theorem State.replayFrom_kept {s₀ : State} (s : State) (i c : Nat) (hk : Kept s₀ s) : Kept s₀ (State.replayFrom s i c) := by
  unfold State.replayFrom; grind [State.emitAll_kept, State.modPort_kept, State.portDown_kept, kept_mk, kept_iff, = keptOn_iff]

theorem State.countCorr_kept {s₀ : State} (s : State) (i : Nat) (errs : List Nat) (hk : Kept s₀ s) : Kept s₀ (State.countCorr s i errs) := by
  unfold State.countCorr; grind [State.modPort_kept, kept_mk, kept_iff, = keptOn_iff, kept_foldl]

theorem State.checkNoise_kept {s₀ : State} (s : State) (i : Nat) (hk : Kept s₀ s) : Kept s₀ (State.checkNoise s i) := by
  unfold State.checkNoise; grind [State.lanesLeft_kept, kept_mk, kept_iff, = keptOn_iff]

theorem State.nakCodeword_kept {s₀ : State} (s : State) (i : Nat) (hk : Kept s₀ s) : Kept s₀ (State.nakCodeword s i) := by
  unfold State.nakCodeword; grind [State.modPort_kept, State.sendIdle_kept, kept_mk, kept_iff, = keptOn_iff]

theorem State.takeCodeword_kept {s₀ : State} (s : State) (i : Nat) (cw : TxCw) (hk : Kept s₀ s) : Kept s₀ (State.takeCodeword s i cw) := by
  unfold State.takeCodeword; grind [State.flushCtl_kept, State.modPort_kept, State.portDown_kept, State.portProto_kept, State.pump_kept, State.replayFrom_kept, kept_mk, kept_iff, = keptOn_iff, kept_foldl]

theorem State.execCodewordReceive_kept {s₀ : State} (port : Fin 8) (lanes : Lanes) (s : State) (hk : Kept s₀ s) : KeptR s₀ (execCodewordReceive port lanes s) := by
  unfold execCodewordReceive; grind [State.checkNoise_kept, State.countCorr_kept, State.modPort_kept, State.nakCodeword_kept, State.portDown_kept, State.portProto_kept, State.pump_kept, State.replayFrom_kept, State.sendIdle_kept, State.takeCodeword_kept, kept_mk, kept_iff, = keptOn_iff, kept_foldl, keptR_next]

theorem State.execReplayTimeout_kept {s₀ : State} (port : Fin 8) (s : State) (hk : Kept s₀ s) : KeptR s₀ (execReplayTimeout port s) := by
  unfold execReplayTimeout; grind [State.replayFrom_kept, kept_mk, kept_iff, = keptOn_iff, keptR_next]

theorem State.execCreditTimeout_kept {s₀ : State} (port : Fin 8) (vc : Fin 4) (s : State) (hk : Kept s₀ s) : KeptR s₀ (execCreditTimeout port vc s) := by
  unfold execCreditTimeout; grind [State.log_kept, State.modPort_kept, State.portDown_kept, State.portQuar_kept, kept_mk, kept_iff, = keptOn_iff, keptR_next]

theorem State.execLnkRetrain_kept {s₀ : State} (port : Fin 8) (s : State) (hk : Kept s₀ s) : KeptR s₀ (execLnkRetrain port s) := by
  unfold execLnkRetrain; grind [State.portDown_kept, kept_mk, kept_iff, = keptOn_iff, keptR_next]

theorem State.execLnkDrain_kept {s₀ : State} (port : Fin 8) (s : State) (hk : Kept s₀ s) : KeptR s₀ (execLnkDrain port s) := by
  unfold execLnkDrain; grind [State.modPort_kept, kept_mk, kept_iff, = keptOn_iff, keptR_next]

theorem State.execLnkDrainEnd_kept {s₀ : State} (port : Fin 8) (s : State) (hk : Kept s₀ s) : KeptR s₀ (execLnkDrainEnd port s) := by
  unfold execLnkDrainEnd; grind [State.emit_kept, State.modPort_kept, State.portDown_kept, State.sendControl_kept, kept_mk, kept_iff, = keptOn_iff, keptR_next]

theorem State.execLnkUnquar_kept {s₀ : State} (port : Fin 8) (s : State) (hk : Kept s₀ s) : KeptR s₀ (execLnkUnquar port s) := by
  unfold execLnkUnquar; grind [State.modPort_kept, kept_mk, kept_iff, = keptOn_iff, keptR_next]

theorem State.execLnkQuar_kept {s₀ : State} (port : Fin 8) (s : State) (hk : Kept s₀ s) : KeptR s₀ (execLnkQuar port s) := by
  unfold execLnkQuar; grind [State.portQuar_kept, kept_mk, kept_iff, = keptOn_iff, keptR_next]

theorem State.execByeReceive_kept {s₀ : State} (port : Fin 8) (s : State) (hk : Kept s₀ s) : KeptR s₀ (execByeReceive port s) := by
  unfold execByeReceive; grind [State.portDown_kept, kept_mk, kept_iff, = keptOn_iff, keptR_next]

end Sys2Proof.Machine
end

