-- ==== Sys2Proof/Laws/KeptGal.lean ====
section
/-! SUPPORT. What each operation of Machine/Gal.lean keeps. -/
namespace Sys2Proof.Machine
open Sys2Proof

theorem State.modFlow_kept {s₀ : State} (s : State) (f : Nat) (g : TxFlow → TxFlow) (hk : Kept s₀ s) : Kept s₀ (State.modFlow s f g) := by
  unfold State.modFlow; grind [kept_mk, kept_iff, = keptOn_iff]

theorem State.inject_kept {s₀ : State} (s : State) (pk : Packet) (hk : Kept s₀ s) : Kept s₀ (State.inject s pk) := by
  unfold State.inject; grind [State.transmit_kept, kept_mk, kept_iff, = keptOn_iff]

theorem State.queueReq_kept {s₀ : State} (s : State) (dst : Nat) (pk : Packet) (hk : Kept s₀ s) : Kept s₀ (State.queueReq s dst pk).1 := by
  unfold State.queueReq; grind [State.modFlow_kept, kept_mk, kept_iff, = keptOn_iff]
theorem State.queueReq_kept' {s₀ t : State} {s : State} {dst : Nat} {pk : Packet} {y₀} (e₀ : (State.queueReq s dst pk) = (t, y₀)) (hk : Kept s₀ s) : Kept s₀ t := by
  have := State.queueReq_kept s dst pk hk; rw [e₀] at this; exact this

theorem State.launch_kept {s₀ : State} (s : State) (dst : Nat) (pk : Packet) (hk : Kept s₀ s) : Kept s₀ (State.launch s dst pk) := by
  unfold State.launch; grind [State.inject_kept, kept_mk, kept_iff, = keptOn_iff]

theorem State.sendReq_kept {s₀ : State} (s : State) (dst : Nat) (pk : Packet) (hk : Kept s₀ s) : Kept s₀ (State.sendReq s dst pk) := by
  unfold State.sendReq; grind [State.launch_kept, State.queueReq_kept, → State.queueReq_kept', kept_mk, kept_iff, = keptOn_iff]

theorem State.sendCtl_kept {s₀ : State} (s : State) (dst ptype : Nat) (fields : List Nat) (hk : Kept s₀ s) : Kept s₀ (State.sendCtl s dst ptype fields) := by
  unfold State.sendCtl; grind [State.inject_kept, kept_mk, kept_iff, = keptOn_iff]

theorem State.popReq_kept {s₀ : State} (s : State) (flow seq : Nat) (hk : Kept s₀ s) : Kept s₀ (State.popReq s flow seq) := by
  unfold State.popReq; grind [State.inject_kept, State.modFlow_kept, State.popTx_kept, kept_mk, kept_iff, = keptOn_iff]

theorem State.resendFrom_kept {s₀ : State} (s : State) (flow seq : Nat) (count : Bool) (hk : Kept s₀ s) : Kept s₀ (State.resendFrom s flow seq count) := by
  unfold State.resendFrom; grind [State.inject_kept, State.modFlow_kept, kept_mk, kept_iff, = keptOn_iff, kept_foldl]

theorem State.failFlow_kept {s₀ : State} (s : State) (flow : Nat) (hk : Kept s₀ s) : Kept s₀ (State.failFlow s flow) := by
  unfold State.failFlow; grind [State.modFlow_kept, State.remFault_kept, kept_mk, kept_iff, = keptOn_iff, kept_foldl]

theorem State.retryFlow_kept {s₀ : State} (s : State) (flow seq : Nat) (hk : Kept s₀ s) : Kept s₀ (State.retryFlow s flow seq) := by
  unfold State.retryFlow; grind [State.failFlow_kept, State.resendFrom_kept, kept_mk, kept_iff, = keptOn_iff]

theorem State.imgMarks_kept {s₀ : State} (s : State) (k l a n : Nat) (marks : PSet) (hk : Kept s₀ s) : Kept s₀ (State.imgMarks s k l a n marks) := by
  unfold State.imgMarks; grind [State.hbmWrite_kept, State.touchPhys_kept, kept_mk, kept_iff, = keptOn_iff, kept_foldl]

theorem State.imgWrite_kept {s₀ : State} (s : State) (k l a : Nat) (bs : List PByte) (hk : Kept s₀ s) : Kept s₀ (State.imgWrite s k l a bs) := by
  unfold State.imgWrite; grind [State.hbmWrite_kept, State.imgMarks_kept, State.modImg_kept, State.touchPhys_kept, kept_mk, kept_iff, = keptOn_iff]

theorem State.onAck_kept {s₀ : State} (s : State) (flow seq : Nat) (r : Packet) (hk : Kept s₀ s) : Kept s₀ (State.onAck s flow seq r) := by
  unfold State.onAck; grind [State.imgWrite_kept, State.modCore_kept, State.modImgEntry_kept, State.popReq_kept, State.postImg_kept, State.postTo_kept, State.rdmaAnswer_kept, kept_mk, kept_iff, = keptOn_iff]

theorem State.onErr_kept {s₀ : State} (s : State) (flow seq : Nat) (r : Packet) (hk : Kept s₀ s) : Kept s₀ (State.onErr s flow seq r) := by
  unfold State.onErr; grind [State.popReq_kept, State.remFault_kept, kept_mk, kept_iff, = keptOn_iff]

theorem State.onBusy_kept {s₀ : State} (s : State) (flow seq : Nat) (hk : Kept s₀ s) : Kept s₀ (State.onBusy s flow seq) := by
  unfold State.onBusy; grind [State.modFlow_kept, kept_mk, kept_iff, = keptOn_iff]

theorem State.onResponse_kept {s₀ : State} (s : State) (flow seq : Nat) (r : Packet) (hk : Kept s₀ s) : Kept s₀ (State.onResponse s flow seq r) := by
  unfold State.onResponse; grind [State.onAck_kept, State.onBusy_kept, State.onErr_kept, kept_mk, kept_iff, = keptOn_iff]

theorem State.freeFlits_kept {s₀ : State} (s : State) (p : Nat) (pk : Packet) (hk : Kept s₀ s) : Kept s₀ (State.freeFlits s p pk) := by
  unfold State.freeFlits; grind [State.modPort_kept, kept_mk, kept_iff, = keptOn_iff]

theorem State.forged_kept {s₀ : State} (s : State) (p : Nat) (pk : Packet) (hk : Kept s₀ s) : Kept s₀ (State.forged s p pk) := by
  unfold State.forged; grind [State.log_kept, State.modPort_kept, State.portQuar_kept, kept_mk, kept_iff, = keptOn_iff]

theorem State.fencedPk_kept {s₀ : State} (s : State) (p : Nat) (pk : Packet) (hk : Kept s₀ s) : Kept s₀ (State.fencedPk s p pk) := by
  unfold State.fencedPk; grind [State.log_kept, State.portSend_kept, kept_mk, kept_iff, = keptOn_iff]

theorem State.filter_kept {s₀ : State} (s : State) (p : Nat) (pk : Packet) (hk : Kept s₀ s) : Kept s₀ (State.filter s p pk).1 := by
  unfold State.filter; grind [State.fencedPk_kept, State.forged_kept, kept_mk, kept_iff, = keptOn_iff]
theorem State.filter_kept' {s₀ t : State} {s : State} {p : Nat} {pk : Packet} {y₀} (e₀ : (State.filter s p pk) = (t, y₀)) (hk : Kept s₀ s) : Kept s₀ t := by
  have := State.filter_kept s p pk hk; rw [e₀] at this; exact this

theorem State.modRx_kept {s₀ : State} (s : State) (k : Nat) (g : RxFlow → RxFlow) (hk : Kept s₀ s) : Kept s₀ (State.modRx s k g) := by
  unfold State.modRx; grind [kept_mk, kept_iff, = keptOn_iff]

theorem State.deliver_kept {s₀ : State} (s : State) (pk : Packet) (exec : Packet → State → State × Ans) (hf : ∀ p t, Kept s₀ t → Kept s₀ (exec p t).1) (hk : Kept s₀ s) : Kept s₀ (State.deliver s pk exec) := by
  have h1 := hf pk s hk
  unfold State.deliver
  extract_lets k r d again s1 s2
  have h2 : Kept s₀ s2 := State.modRx_kept _ _ _ (show Kept s₀ s1 from hk)
  clear_value s2
  refine kept_ite ?_ (kept_ite (kept_ite (State.inject_kept _ _ h2) h2) ?_)
  · split
    · rename_i e; rw [e] at h1; exact State.inject_kept _ _ h1
    · rename_i e; rw [e] at h1
      exact State.inject_kept _ _ (State.modRx_kept _ _ _ h1)
  · split
    · exact State.inject_kept _ _ hk
    · exact hk

theorem State.receiveReq_kept {s₀ : State} (s : State) (port : Option (Fin 8)) (pk : Packet) (ty : Nat) (exec : Packet → State → State × Ans) (hf : ∀ p t, Kept s₀ t → Kept s₀ (exec p t).1) (hk : Kept s₀ s) : Kept s₀ (State.receiveReq s port pk ty exec) := by
  have h1 := hf pk s hk
  unfold State.receiveReq
  with_reducible refine kept_ite hk ?_
  cases port with
  | none =>
    dsimp -zeta -zetaHave only
    extract_lets f
    split
    · exact hk
    · with_reducible refine kept_ite ?_ hk
      split
      · rename_i e; rw [e] at h1; exact State.onBusy_kept _ _ _ h1
      · rename_i e; rw [e] at h1; exact State.onResponse_kept _ _ _ _ h1
  | some p =>
    dsimp -zeta -zetaHave only
    with_reducible refine kept_ite ?_ hk
    extract_lets t
    have h : Kept s₀ t := State.freeFlits_kept _ _ _ hk
    clear_value t
    split
    · exact State.filter_kept' ‹_› h
    · have g := State.filter_kept' ‹_› h
      exact kept_ite (State.inject_kept _ _ g) (State.deliver_kept _ _ _ hf g)

theorem State.receiveCtl_kept {s₀ : State} (s : State) (port : Option (Fin 8)) (pk : Packet) (ty : Nat) (eff : Nat → Packet → State → State) (hf : ∀ n p t, Kept s₀ t → Kept s₀ (eff n p t)) (hk : Kept s₀ s) : Kept s₀ (State.receiveCtl s port pk ty eff) := by
  unfold State.receiveCtl
  with_reducible refine kept_ite hk ?_
  cases port with
  | none => exact hk
  | some p =>
    dsimp -zeta -zetaHave only
    with_reducible refine kept_ite ?_ hk
    extract_lets t
    have h : Kept s₀ t := State.freeFlits_kept _ _ _ hk
    clear_value t
    split
    · exact State.filter_kept' ‹_› h
    · have g := State.filter_kept' ‹_› h
      exact kept_ite (State.inject_kept _ _ g) (hf _ _ _ g)

theorem State.respEff_kept {s₀ : State} (eff : Nat → State → State) (n : Nat) (pk : Packet) (s : State) (hf : ∀ n t, Kept s₀ t → Kept s₀ (eff n t)) (hk : Kept s₀ s) : Kept s₀ (respEff eff n pk s) := by
  unfold respEff; grind

theorem State.execPacketForward_kept {s₀ : State} (port : Option (Fin 8)) (pk : Packet) (s : State) (hk : Kept s₀ s) : KeptR s₀ (execPacketForward port pk s) := by
  unfold execPacketForward; grind [State.filter_kept, → State.filter_kept', State.freeFlits_kept, State.transmit_kept, kept_mk, kept_iff, = keptOn_iff, keptR_next]

theorem State.execNakReceive_kept {s₀ : State} (port : Option (Fin 8)) (pk : Packet) (s : State) (hk : Kept s₀ s) : KeptR s₀ (execNakReceive port pk s) := by
  unfold execNakReceive; grind [State.receiveCtl_kept, State.retryFlow_kept, kept_mk, kept_iff, = keptOn_iff, keptR_next]

theorem State.execBusyReceive_kept {s₀ : State} (port : Option (Fin 8)) (pk : Packet) (s : State) (hk : Kept s₀ s) : KeptR s₀ (execBusyReceive port pk s) := by
  unfold execBusyReceive; grind [State.onBusy_kept, State.receiveCtl_kept, State.respEff_kept, kept_mk, kept_iff, = keptOn_iff, keptR_next]

theorem State.execBusyRetryTimer_kept {s₀ : State} (flow : Nat) (s : State) (hk : Kept s₀ s) : KeptR s₀ (execBusyRetryTimer flow s) := by
  unfold execBusyRetryTimer; grind [State.modFlow_kept, State.resendFrom_kept, kept_mk, kept_iff, = keptOn_iff, keptR_next]

theorem State.execErrReceive_kept {s₀ : State} (port : Option (Fin 8)) (pk : Packet) (s : State) (hk : Kept s₀ s) : KeptR s₀ (execErrReceive port pk s) := by
  unfold execErrReceive; grind [State.onErr_kept, State.receiveCtl_kept, State.respEff_kept, kept_mk, kept_iff, = keptOn_iff, keptR_next]

theorem State.execGetdataReceive_kept {s₀ : State} (port : Option (Fin 8)) (pk : Packet) (s : State) (hk : Kept s₀ s) : KeptR s₀ (execGetdataReceive port pk s) := by
  unfold execGetdataReceive; grind [State.onAck_kept, State.receiveCtl_kept, State.respEff_kept, kept_mk, kept_iff, = keptOn_iff, keptR_next]

theorem State.execAtomdataReceive_kept {s₀ : State} (port : Option (Fin 8)) (pk : Packet) (s : State) (hk : Kept s₀ s) : KeptR s₀ (execAtomdataReceive port pk s) := by
  unfold execAtomdataReceive; grind [State.onAck_kept, State.receiveCtl_kept, State.respEff_kept, kept_mk, kept_iff, = keptOn_iff, keptR_next]

theorem State.execE2eTimeout_kept {s₀ : State} (flow : Nat) (s : State) (hk : Kept s₀ s) : KeptR s₀ (execE2eTimeout flow s) := by
  unfold execE2eTimeout; grind [State.retryFlow_kept, kept_mk, kept_iff, = keptOn_iff, keptR_next]

end Sys2Proof.Machine
end

