-- ==== Sys2Proof/Laws/KeptTarget.lean ====
section
/-! SUPPORT. What each operation of Machine/Target.lean keeps. -/
namespace Sys2Proof.Machine
open Sys2Proof

theorem State.memAddr_kept {s₀ : State} (s : State) (pk : Packet) (hk : Kept s₀ s) : Kept s₀ (State.memAddr s pk).1 := by
  unfold State.memAddr; grind [State.log_kept, kept_mk, kept_iff, = keptOn_iff]
theorem State.memAddr_kept' {s₀ t : State} {s : State} {pk : Packet} {y₀} (e₀ : (State.memAddr s pk) = (t, y₀)) (hk : Kept s₀ s) : Kept s₀ t := by
  have := State.memAddr_kept s pk hk; rw [e₀] at this; exact this

theorem State.landRefused_kept {s₀ : State} (s : State) (pk : Packet) (core n : Nat) (hk : Kept s₀ s) : Kept s₀ (State.landRefused s pk core n).1 := by
  unfold State.landRefused; grind [State.log_kept, kept_mk, kept_iff, = keptOn_iff]
theorem State.landRefused_kept' {s₀ t : State} {s : State} {pk : Packet} {core n : Nat} {y₀} (e₀ : (State.landRefused s pk core n) = (t, y₀)) (hk : Kept s₀ s) : Kept s₀ t := by
  have := State.landRefused_kept s pk core n hk; rw [e₀] at this; exact this

theorem State.postPk_kept {s₀ : State} (s : State) (pk : Packet) (n : Nat) (hk : Kept s₀ s) : Kept s₀ (State.postPk s pk n) := by
  unfold State.postPk; grind [State.postTo_kept, kept_mk, kept_iff, = keptOn_iff]

theorem State.landFreeze_kept {s₀ : State} (s : State) (k : Nat) (h : Nat × (Nat × BitVec 32)) (frm : Nat) (hk : Kept s₀ s) : Kept s₀ (State.landFreeze s k h frm) := by
  unfold State.landFreeze; grind [State.freeze_kept, State.log_kept, State.modCell_kept, kept_mk, kept_iff, = keptOn_iff]

theorem State.landStore_kept {s₀ : State} (s : State) (k n a : Nat) (bs : List PByte) (more : Bool) (off frm : Nat) (hk : Kept s₀ s) : Kept s₀ (State.landStore s k n a bs more off frm) := by
  unfold State.landStore; grind [State.landFreeze_kept, State.modCore_kept, kept_mk, kept_iff, = keptOn_iff]

theorem State.rowLanded_kept {s₀ : State} (s : State) (grp ex : Nat) (hk : Kept s₀ s) : Kept s₀ (State.rowLanded s grp ex) := by
  unfold State.rowLanded; grind [kept_mk, kept_iff, = keptOn_iff]

theorem State.putDone_kept {s₀ : State} (s : State) (pk : Packet) (last : Bool) (hk : Kept s₀ s) : Kept s₀ (State.putDone s pk last) := by
  unfold State.putDone; grind [State.postPk_kept, State.rowLanded_kept, kept_mk, kept_iff, = keptOn_iff]

theorem State.tgtPut_kept {s₀ : State} (pk : Packet) (s : State) (hk : Kept s₀ s) : Kept s₀ (tgtPut pk s).1 := by
  unfold tgtPut; grind [State.hwrite_kept, State.landRefused_kept, → State.landRefused_kept', State.landStore_kept, State.memAddr_kept, → State.memAddr_kept', State.postPk_kept, State.putDone_kept, State.touchPhys_kept, State.touch_kept, kept_mk, kept_iff, = keptOn_iff]
theorem State.tgtPut_kept' {s₀ t : State} {pk : Packet} {s : State} {y₀} (e₀ : (tgtPut pk s) = (t, y₀)) (hk : Kept s₀ s) : Kept s₀ t := by
  have := State.tgtPut_kept pk s hk; rw [e₀] at this; exact this

theorem State.xchCheck_kept {s₀ : State} (s : State) (hk : Kept s₀ s) : Kept s₀ (State.xchCheck s) := by
  unfold State.xchCheck; grind [State.filter_kept, → State.filter_kept', State.modCore_kept, State.postTo_kept, kept_mk, kept_iff, = keptOn_iff, kept_foldl]

theorem State.execPutReceive_kept {s₀ : State} (port : Option (Fin 8)) (pk : Packet) (s : State) (hk : Kept s₀ s) : KeptR s₀ (execPutReceive port pk s) := by
  unfold execPutReceive; grind [State.receiveReq_kept, State.tgtPut_kept, → State.tgtPut_kept', State.xchCheck_kept, kept_mk, kept_iff, = keptOn_iff, keptR_next]

theorem State.tgtGet_kept {s₀ : State} (errs : List SectorErr) (pk : Packet) (s : State) (hk : Kept s₀ s) : Kept s₀ (tgtGet errs pk s).1 := by
  unfold tgtGet; grind [State.decay_kept, State.memAddr_kept, → State.memAddr_kept', State.postPk_kept, State.pread_kept, → State.pread_kept', State.touchPhys_kept, State.touch_kept, kept_mk, kept_iff, = keptOn_iff]
theorem State.tgtGet_kept' {s₀ t : State} {errs : List SectorErr} {pk : Packet} {s : State} {y₀} (e₀ : (tgtGet errs pk s) = (t, y₀)) (hk : Kept s₀ s) : Kept s₀ t := by
  have := State.tgtGet_kept errs pk s hk; rw [e₀] at this; exact this

theorem State.execGetreqReceive_kept {s₀ : State} (port : Option (Fin 8)) (pk : Packet) (errs : List SectorErr) (s : State) (hk : Kept s₀ s) : KeptR s₀ (execGetreqReceive port pk errs s) := by
  unfold execGetreqReceive; grind [State.receiveReq_kept, State.tgtGet_kept, → State.tgtGet_kept', kept_mk, kept_iff, = keptOn_iff, keptR_next]

theorem State.tgtAtom_kept {s₀ : State} (pk : Packet) (s : State) (hk : Kept s₀ s) : Kept s₀ (tgtAtom pk s).1 := by
  unfold tgtAtom; grind [State.hwrite_kept, State.landRefused_kept, → State.landRefused_kept', State.memAddr_kept, → State.memAddr_kept', State.postPk_kept, State.touchAtom_kept, State.touch_kept, kept_mk, kept_iff, = keptOn_iff]
theorem State.tgtAtom_kept' {s₀ t : State} {pk : Packet} {s : State} {y₀} (e₀ : (tgtAtom pk s) = (t, y₀)) (hk : Kept s₀ s) : Kept s₀ t := by
  have := State.tgtAtom_kept pk s hk; rw [e₀] at this; exact this

theorem State.execAtomReceive_kept {s₀ : State} (port : Option (Fin 8)) (pk : Packet) (s : State) (hk : Kept s₀ s) : KeptR s₀ (execAtomReceive port pk s) := by
  unfold execAtomReceive; grind [State.receiveReq_kept, State.tgtAtom_kept, → State.tgtAtom_kept', kept_mk, kept_iff, = keptOn_iff, keptR_next]

theorem State.tgtSignal_kept {s₀ : State} (pk : Packet) (s : State) (hk : Kept s₀ s) : Kept s₀ (tgtSignal pk s).1 := by
  unfold tgtSignal; grind [State.postPk_kept, kept_mk, kept_iff, = keptOn_iff]
theorem State.tgtSignal_kept' {s₀ t : State} {pk : Packet} {s : State} {y₀} (e₀ : (tgtSignal pk s) = (t, y₀)) (hk : Kept s₀ s) : Kept s₀ t := by
  have := State.tgtSignal_kept pk s hk; rw [e₀] at this; exact this

theorem State.execSignalReceive_kept {s₀ : State} (port : Option (Fin 8)) (pk : Packet) (s : State) (hk : Kept s₀ s) : KeptR s₀ (execSignalReceive port pk s) := by
  unfold execSignalReceive; grind [State.receiveReq_kept, State.tgtSignal_kept, → State.tgtSignal_kept', kept_mk, kept_iff, = keptOn_iff, keptR_next]

theorem State.tgtXcnt_kept {s₀ : State} (pk : Packet) (s : State) (hk : Kept s₀ s) : Kept s₀ (tgtXcnt pk s).1 := by
  unfold tgtXcnt; grind [State.filter_kept, → State.filter_kept', State.sendReq_kept, kept_mk, kept_iff, = keptOn_iff, kept_foldl]
theorem State.tgtXcnt_kept' {s₀ t : State} {pk : Packet} {s : State} {y₀} (e₀ : (tgtXcnt pk s) = (t, y₀)) (hk : Kept s₀ s) : Kept s₀ t := by
  have := State.tgtXcnt_kept pk s hk; rw [e₀] at this; exact this

theorem State.execXcntReceive_kept {s₀ : State} (port : Option (Fin 8)) (pk : Packet) (s : State) (hk : Kept s₀ s) : KeptR s₀ (execXcntReceive port pk s) := by
  unfold execXcntReceive; grind [State.receiveReq_kept, State.tgtXcnt_kept, → State.tgtXcnt_kept', State.xchCheck_kept, kept_mk, kept_iff, = keptOn_iff, keptR_next]

end Sys2Proof.Machine
end

