-- ==== Sys2Proof/Laws/KeptReduce.lean ====
section
/-! SUPPORT. What each operation of Machine/Reduce.lean keeps. -/
namespace Sys2Proof.Machine
open Sys2Proof

theorem State.setAdd_kept {s₀ : State} (s : State) (r : AddRec) (keep : Bool) (hk : Kept s₀ s) : Kept s₀ (State.setAdd s r keep) := by
  unfold State.setAdd; grind [State.filter_kept, → State.filter_kept', kept_mk, kept_iff, = keptOn_iff]

theorem State.writeNorm_kept {s₀ : State} (s : State) (i : Nat) (v : Nat) (fb : Bool) (hk : Kept s₀ s) : Kept s₀ (State.writeNorm s i v fb) := by
  unfold State.writeNorm; grind [State.imgWrite_kept, State.modCore_kept, State.postTo_kept, kept_mk, kept_iff, = keptOn_iff]

theorem State.normDone_kept {s₀ : State} (s : State) (fb : Bool) (hk : Kept s₀ s) : Kept s₀ (State.normDone s fb) := by
  unfold State.normDone; grind [State.filter_kept, → State.filter_kept', kept_mk, kept_iff, = keptOn_iff]

theorem State.normOwn_kept {s₀ : State} (s : State) (hk : Kept s₀ s) : Kept s₀ (State.normOwn s) := by
  unfold State.normOwn; grind [State.writeNorm_kept, kept_mk, kept_iff, = keptOn_iff, kept_foldl]

theorem State.normTry_kept {s₀ : State} (s : State) (hk : Kept s₀ s) : Kept s₀ (State.normTry s) := by
  unfold State.normTry; grind [State.normDone_kept, State.writeNorm_kept, kept_mk, kept_iff, = keptOn_iff, kept_foldl]

theorem State.normPut_kept {s₀ : State} (s : State) (slot v : Nat) (hk : Kept s₀ s) : Kept s₀ (State.normPut s slot v) := by
  unfold State.normPut; grind [kept_mk, kept_iff, = keptOn_iff]

theorem State.normEnd_kept {s₀ : State} (s : State) (hk : Kept s₀ s) : Kept s₀ (State.normEnd s) := by
  unfold State.normEnd; grind [State.filter_kept, → State.filter_kept', State.normDone_kept, State.normOwn_kept, State.normPut_kept, State.normTry_kept, State.sendReq_kept, kept_mk, kept_iff, = keptOn_iff, kept_foldl]

theorem State.postRec_kept {s₀ : State} (s : State) (r : AddRec) (hk : Kept s₀ s) : Kept s₀ (State.postRec s r) := by
  unfold State.postRec; grind [State.postTo_kept, kept_mk, kept_iff, = keptOn_iff]

theorem State.reduce_kept {s₀ : State} (s : State) (i : Nat) (r : AddRec) (hk : Kept s₀ s) : Kept s₀ (State.reduce s i r) := by
  unfold State.reduce; grind [State.hwrite_kept, State.normEnd_kept, State.postRec_kept, State.setAdd_kept, State.touchPhys_kept, State.touch_kept, kept_mk, kept_iff, = keptOn_iff]

theorem State.flushRec_kept {s₀ : State} (s : State) (r : AddRec) (hk : Kept s₀ s) : Kept s₀ (State.flushRec s r) := by
  unfold State.flushRec; grind [State.filter_kept, → State.filter_kept', State.hwrite_kept, State.postRec_kept, State.setAdd_kept, State.touchAtom_kept, State.touch_kept, kept_mk, kept_iff, = keptOn_iff, kept_foldl]

theorem State.settle_kept {s₀ : State} (i k : Nat) : ∀ (s : State) (_ : Kept s₀ s), Kept s₀ (State.settle i k s) := by
  induction k with
  | zero => exact fun _ h => h
  | succ m ih => intro s hk; unfold State.settle; grind [State.reduce_kept]

theorem State.gredRefused_kept {s₀ : State} (s : State) (pk : Packet) (a cause : Nat) (hk : Kept s₀ s) : Kept s₀ (State.gredRefused s pk a cause).1 := by
  unfold State.gredRefused; grind [State.log_kept, kept_mk, kept_iff, = keptOn_iff]
theorem State.gredRefused_kept' {s₀ t : State} {s : State} {pk : Packet} {a cause : Nat} {y₀} (e₀ : (State.gredRefused s pk a cause) = (t, y₀)) (hk : Kept s₀ s) : Kept s₀ t := by
  have := State.gredRefused_kept s pk a cause hk; rw [e₀] at this; exact this

theorem State.addsInto_kept {s₀ : State} (s : State) (pk : Packet) (r : AddRec) (src : Nat) (con : List PByte) (hk : Kept s₀ s) : Kept s₀ (State.addsInto s pk r src con).1 := by
  unfold State.addsInto; grind [State.flushRec_kept, State.log_kept, State.setAdd_kept, State.settle_kept, State.touchPhys_kept, State.touch_kept, kept_mk, kept_iff, = keptOn_iff]
theorem State.addsInto_kept' {s₀ t : State} {s : State} {pk : Packet} {r : AddRec} {src : Nat} {con : List PByte} {y₀} (e₀ : (State.addsInto s pk r src con) = (t, y₀)) (hk : Kept s₀ s) : Kept s₀ t := by
  have := State.addsInto_kept s pk r src con hk; rw [e₀] at this; exact this

theorem State.tgtAdds_kept {s₀ : State} (pk : Packet) (s : State) (hk : Kept s₀ s) : Kept s₀ (tgtAdds pk s).1 := by
  unfold tgtAdds; grind [State.addsInto_kept, → State.addsInto_kept', State.gredRefused_kept, → State.gredRefused_kept', State.landRefused_kept, → State.landRefused_kept', State.memAddr_kept, → State.memAddr_kept', kept_mk, kept_iff, = keptOn_iff]
theorem State.tgtAdds_kept' {s₀ t : State} {pk : Packet} {s : State} {y₀} (e₀ : (tgtAdds pk s) = (t, y₀)) (hk : Kept s₀ s) : Kept s₀ t := by
  have := State.tgtAdds_kept pk s hk; rw [e₀] at this; exact this

theorem State.execAddsReceive_kept {s₀ : State} (port : Option (Fin 8)) (pk : Packet) (s : State) (hk : Kept s₀ s) : KeptR s₀ (execAddsReceive port pk s) := by
  unfold execAddsReceive; grind [State.receiveReq_kept, State.tgtAdds_kept, → State.tgtAdds_kept', kept_mk, kept_iff, = keptOn_iff, keptR_next]

theorem State.tgtAdda_kept {s₀ : State} (pk : Packet) (s : State) (hk : Kept s₀ s) : Kept s₀ (tgtAdda pk s).1 := by
  unfold tgtAdda; grind [State.gredRefused_kept, → State.gredRefused_kept', State.hwrite_kept, State.landRefused_kept, → State.landRefused_kept', State.memAddr_kept, → State.memAddr_kept', State.postPk_kept, State.touchAtom_kept, State.touch_kept, kept_mk, kept_iff, = keptOn_iff]
theorem State.tgtAdda_kept' {s₀ t : State} {pk : Packet} {s : State} {y₀} (e₀ : (tgtAdda pk s) = (t, y₀)) (hk : Kept s₀ s) : Kept s₀ t := by
  have := State.tgtAdda_kept pk s hk; rw [e₀] at this; exact this

theorem State.execAddaReceive_kept {s₀ : State} (port : Option (Fin 8)) (pk : Packet) (s : State) (hk : Kept s₀ s) : KeptR s₀ (execAddaReceive port pk s) := by
  unfold execAddaReceive; grind [State.receiveReq_kept, State.tgtAdda_kept, → State.tgtAdda_kept', kept_mk, kept_iff, = keptOn_iff, keptR_next]

theorem State.tgtNorm_kept {s₀ : State} (pk : Packet) (s : State) (hk : Kept s₀ s) : Kept s₀ (tgtNorm pk s).1 := by
  unfold tgtNorm; grind [State.normPut_kept, State.normTry_kept, kept_mk, kept_iff, = keptOn_iff]
theorem State.tgtNorm_kept' {s₀ t : State} {pk : Packet} {s : State} {y₀} (e₀ : (tgtNorm pk s) = (t, y₀)) (hk : Kept s₀ s) : Kept s₀ t := by
  have := State.tgtNorm_kept pk s hk; rw [e₀] at this; exact this

theorem State.execNormReceive_kept {s₀ : State} (port : Option (Fin 8)) (pk : Packet) (s : State) (hk : Kept s₀ s) : KeptR s₀ (execNormReceive port pk s) := by
  unfold execNormReceive; grind [State.receiveReq_kept, State.tgtNorm_kept, → State.tgtNorm_kept', kept_mk, kept_iff, = keptOn_iff, keptR_next]

theorem State.execGnormTimeout_kept {s₀ : State} (s : State) (hk : Kept s₀ s) : KeptR s₀ (execGnormTimeout s) := by
  unfold execGnormTimeout; grind [State.filter_kept, → State.filter_kept', State.log_kept, State.normDone_kept, State.normOwn_kept, kept_mk, kept_iff, = keptOn_iff, kept_foldl, keptR_next]

end Sys2Proof.Machine
end

