-- ==== Sys2Proof/Laws/KeptRemote.lean ====
section
/-! SUPPORT. What each operation of Machine/Remote.lean keeps. -/
namespace Sys2Proof.Machine
open Sys2Proof

theorem State.sendOp_kept {s₀ : State} (n st ord : Nat) (s : State) (o : OpPk) (hk : Kept s₀ s) : Kept s₀ (State.sendOp n st ord s o) := by
  unfold State.sendOp; grind [State.launch_kept, State.modCore_kept, State.queueReq_kept, → State.queueReq_kept', kept_mk, kept_iff, = keptOn_iff]

theorem State.sendOps_kept {s₀ : State} (s : State) (n st ord : Nat) (os : List OpPk) (hk : Kept s₀ s) : Kept s₀ (State.sendOps s n st ord os) := by
  unfold State.sendOps; grind [State.sendOp_kept, kept_mk, kept_iff, = keptOn_iff, kept_foldl]

theorem State.xchRows_kept {s₀ : State} (s : State) (n : Nat) (e : Entry) (hk : Kept s₀ s) : Kept s₀ (State.xchRows s n e) := by
  unfold State.xchRows; grind [State.modCore_kept, State.sendOps_kept, kept_mk, kept_iff, = keptOn_iff]

theorem State.startRemote_kept {s₀ : State} (s : State) (n : Nat) (e : Entry) (hk : Kept s₀ s) : Kept s₀ (State.startRemote s n e) := by
  unfold State.startRemote; grind [State.modCore_kept, State.sendOps_kept, State.xchCheck_kept, kept_mk, kept_iff, = keptOn_iff]

theorem State.rearm_kept {s₀ : State} (s : State) (n : Nat) (e : Entry) (hk : Kept s₀ s) : Kept s₀ (State.rearm s n e) := by
  unfold State.rearm; grind [State.filter_kept, → State.filter_kept', State.modCore_kept, State.modFlow_kept, State.resendFrom_kept, State.sendOps_kept, kept_mk, kept_iff, = keptOn_iff, kept_foldl]

theorem State.issueRemote_kept {s₀ : State} (s : State) (n opc : Nat) (w : BitVec 128) (plan : IssueCtx → Except Refuse Plan) (hk : Kept s₀ s) : Kept s₀ (State.issueRemote s n opc w plan) := by
  unfold State.issueRemote; grind [State.issue1_kept, State.startRemote_kept, kept_mk, kept_iff, = keptOn_iff]

theorem State.execRput_kept {s₀ : State} (core : Fin 48) (w : BitVec 128) (s : State) (hk : Kept s₀ s) : KeptR s₀ (execRput core w s) := by
  unfold execRput; grind [State.issueRemote_kept, kept_mk, kept_iff, = keptOn_iff, keptR_next]

theorem State.execRget_kept {s₀ : State} (core : Fin 48) (w : BitVec 128) (s : State) (hk : Kept s₀ s) : KeptR s₀ (execRget core w s) := by
  unfold execRget; grind [State.issueRemote_kept, kept_mk, kept_iff, = keptOn_iff, keptR_next]

theorem State.execRatom_kept {s₀ : State} (core : Fin 48) (w : BitVec 128) (s : State) (hk : Kept s₀ s) : KeptR s₀ (execRatom core w s) := by
  unfold execRatom; grind [State.issueRemote_kept, kept_mk, kept_iff, = keptOn_iff, keptR_next]

theorem State.execRadd_kept {s₀ : State} (core : Fin 48) (w : BitVec 128) (s : State) (hk : Kept s₀ s) : KeptR s₀ (execRadd core w s) := by
  unfold execRadd; grind [State.issueRemote_kept, kept_mk, kept_iff, = keptOn_iff, keptR_next]

theorem State.execXch_kept {s₀ : State} (core : Fin 48) (w : BitVec 128) (s : State) (hk : Kept s₀ s) : KeptR s₀ (execXch core w s) := by
  unfold execXch; grind [State.issueRemote_kept, kept_mk, kept_iff, = keptOn_iff, keptR_next]

theorem State.tgtXbase_kept {s₀ : State} (pk : Packet) (s : State) (hk : Kept s₀ s) : Kept s₀ (tgtXbase pk s).1 := by
  unfold tgtXbase; grind [State.modCore_kept, State.xchRows_kept, kept_mk, kept_iff, = keptOn_iff]
theorem State.tgtXbase_kept' {s₀ t : State} {pk : Packet} {s : State} {y₀} (e₀ : (tgtXbase pk s) = (t, y₀)) (hk : Kept s₀ s) : Kept s₀ t := by
  have := State.tgtXbase_kept pk s hk; rw [e₀] at this; exact this

theorem State.execXbaseReceive_kept {s₀ : State} (port : Option (Fin 8)) (pk : Packet) (s : State) (hk : Kept s₀ s) : KeptR s₀ (execXbaseReceive port pk s) := by
  unfold execXbaseReceive; grind [State.receiveReq_kept, State.tgtXbase_kept, → State.tgtXbase_kept', State.xchCheck_kept, kept_mk, kept_iff, = keptOn_iff, keptR_next]

theorem State.runSeal_kept {s₀ : State} (s : State) (k n : Nat) (e : Entry) (hk : Kept s₀ s) : Kept s₀ (State.runSeal s k n e) := by
  unfold State.runSeal; grind [State.modCore_kept, State.place_kept, → State.place_kept', State.pread_kept, → State.pread_kept', State.xlFault_kept, kept_mk, kept_iff, = keptOn_iff]

theorem State.execSealOp_kept {s₀ : State} (core : Fin 48) (w : BitVec 128) (errs : List SectorErr) (s : State) (hk : Kept s₀ s) : KeptR s₀ (execSealOp core w errs s) := by
  unfold execSealOp; grind [State.decay_kept, State.issue1_kept, State.runSeal_kept, kept_mk, kept_iff, = keptOn_iff, keptR_next]

end Sys2Proof.Machine
end

