-- ==== Sys2Proof/Laws/KeptExpFlow.lean ====
section
/-! SUPPORT. What each operation of Machine/ExpFlow.lean keeps. -/
namespace Sys2Proof.Machine
open Sys2Proof

theorem State.noteLinkup_kept {s₀ : State} (s : State) (hk : Kept s₀ s) : Kept s₀ (State.noteLinkup s) := by
  unfold State.noteLinkup; grind [kept_mk, kept_iff, = keptOn_iff]

theorem State.clearAfterReset_kept {s₀ : State} (s : State) (hk : Kept s₀ s) : Kept s₀ (State.clearAfterReset s) := by
  unfold State.clearAfterReset; grind [kept_mk, kept_iff, = keptOn_iff]

theorem State.sendPieces_kept {s₀ : State} (s : State) (dst : Nat) (ps : List Packet) (hk : Kept s₀ s) : Kept s₀ (State.sendPieces s dst ps) := by
  unfold State.sendPieces; grind [State.sendReq_kept, kept_mk, kept_iff, = keptOn_iff, kept_foldl]

theorem State.readHead_kept {s₀ : State} (s : State) (hk : Kept s₀ s) : Kept s₀ (State.readHead s) := by
  unfold State.readHead; grind [kept_mk, kept_iff, = keptOn_iff]

theorem State.advanceHead_kept {s₀ : State} (s : State) (rest : List ExpRec) (fin : Bool) (hk : Kept s₀ s) : Kept s₀ (State.advanceHead s rest fin) := by
  unfold State.advanceHead; grind [State.unspill_kept, kept_mk, kept_iff, = keptOn_iff]

theorem State.execExportSend_kept {s₀ : State} (s : State) (hk : Kept s₀ s) : KeptR s₀ (execExportSend s) := by
  unfold execExportSend
  have h := State.noteLinkup_kept _ hk
  have hc := State.clearAfterReset_kept _ h
  have hr := State.readHead_kept _ h
  dsimp only
  split
  · exact keptR_of_next h
  · refine keptR_ite (keptR_of_next h) (keptR_ite (keptR_of_next ?_) ?_)
    · split
      · exact State.sendPieces_kept _ _ _ hc
      · exact hc
    · split
      · exact keptR_of_next hr
      · exact keptR_of_next (State.advanceHead_kept _ _ _ (State.sendPieces_kept _ _ _ hr))

theorem State.execExpDropRecord_kept {s₀ : State} (s : State) (hk : Kept s₀ s) : KeptR s₀ (execExpDropRecord s) := by
  unfold execExpDropRecord; grind [kept_mk, kept_iff, = keptOn_iff, keptR_next]

theorem State.execExpPause_kept {s₀ : State} (on : Bool) (s : State) (hk : Kept s₀ s) : KeptR s₀ (execExpPause on s) := by
  unfold execExpPause; grind [kept_mk, kept_iff, = keptOn_iff, keptR_next]

theorem State.setStale_kept {s₀ : State} (s : State) (m : Nat × (Nat × (Nat × (Nat × Bool)))) (a : Nat) (b : Bool) (hk : Kept s₀ s) : Kept s₀ (State.setStale s m a b) := by
  unfold State.setStale; grind [State.hwrite_kept, State.touchPhys_kept, kept_mk, kept_iff, = keptOn_iff]

theorem State.staleRange_kept {s₀ : State} (s : State) (slot lo hi : Nat) (hk : Kept s₀ s) : Kept s₀ (State.staleRange s slot lo hi) := by
  unfold State.staleRange; grind [State.filter_kept, → State.filter_kept', State.setStale_kept, kept_mk, kept_iff, = keptOn_iff, kept_foldl]

theorem State.mirrorRefusal_kept {s₀ : State} (s : State) (slot : Nat) (b : List Byte) (hk : Kept s₀ s) : Kept s₀ (State.mirrorRefusal s slot b) := by
  unfold State.mirrorRefusal; grind [State.hwrite_kept, State.touchPhys_kept, kept_mk, kept_iff, = keptOn_iff]

theorem State.applyRec_kept {s₀ : State} (s : State) (slot a hi : Nat) (b : List Byte) (pois : Bool) (hk : Kept s₀ s) : Kept s₀ (State.applyRec s slot a hi b pois) := by
  unfold State.applyRec; grind [State.filter_kept, → State.filter_kept', State.hwrite_kept, State.log_kept, State.mirrorRefusal_kept, State.setStale_kept, State.staleRange_kept, State.touchPhys_kept, State.touch_kept, kept_mk, kept_iff, = keptOn_iff, kept_foldl]

theorem State.keepStart_kept {s₀ : State} (s : State) (slot : Nat) (b : List Byte) (hk : Kept s₀ s) : Kept s₀ (State.keepStart s slot b) := by
  unfold State.keepStart; grind [State.hwrite_kept, State.touchPhys_kept, kept_mk, kept_iff, = keptOn_iff]

theorem State.takeFill_kept {s₀ : State} (s : State) (pk : Packet) (hk : Kept s₀ s) : Kept s₀ (State.takeFill s pk) := by
  unfold State.takeFill; grind [State.hwrite_kept, State.touchPhys_kept, kept_mk, kept_iff, = keptOn_iff]

theorem State.noteFresh_kept {s₀ : State} (s : State) (slot : Nat) (hk : Kept s₀ s) : Kept s₀ (State.noteFresh s slot) := by
  unfold State.noteFresh; grind [kept_mk, kept_iff, = keptOn_iff]

theorem State.tellFresh_kept {s₀ : State} (s : State) (was : BitVec 40) (hk : Kept s₀ s) : Kept s₀ (State.tellFresh s was) := by
  unfold State.tellFresh; grind [State.filter_kept, → State.filter_kept', State.noteFresh_kept, State.sendCtl_kept, kept_mk, kept_iff, = keptOn_iff, kept_foldl]

theorem State.endStale_kept {s₀ : State} (s : State) (hk : Kept s₀ s) : Kept s₀ (State.endStale s) := by
  unfold State.endStale; grind [State.filter_kept, → State.filter_kept', State.setStale_kept, State.tellFresh_kept, kept_mk, kept_iff, = keptOn_iff, kept_foldl]

theorem State.tgtExprec_kept {s₀ : State} (pk : Packet) (s : State) (hk : Kept s₀ s) : Kept s₀ (tgtExprec pk s).1 := by
  unfold tgtExprec; grind [State.applyRec_kept, State.keepStart_kept, State.takeFill_kept, State.tellFresh_kept, kept_mk, kept_iff, = keptOn_iff]
theorem State.tgtExprec_kept' {s₀ t : State} {pk : Packet} {s : State} {y₀} (e₀ : (tgtExprec pk s) = (t, y₀)) (hk : Kept s₀ s) : Kept s₀ t := by
  have := State.tgtExprec_kept pk s hk; rw [e₀] at this; exact this

theorem State.execExprecReceive_kept {s₀ : State} (port : Option (Fin 8)) (pk : Packet) (s : State) (hk : Kept s₀ s) : KeptR s₀ (execExprecReceive port pk s) := by
  unfold execExprecReceive; grind [State.receiveReq_kept, State.tgtExprec_kept, → State.tgtExprec_kept', kept_mk, kept_iff, = keptOn_iff, keptR_next]

theorem State.pushFull_kept {s₀ : State} (s : State) (a : Nat) (hk : Kept s₀ s) : Kept s₀ (State.pushFull s a) := by
  unfold State.pushFull; grind [State.expPush_kept, State.touchPhys_kept, kept_mk, kept_iff, = keptOn_iff]

theorem State.tgtResend_kept {s₀ : State} (pk : Packet) (s : State) (hk : Kept s₀ s) : Kept s₀ (tgtResend pk s).1 := by
  unfold tgtResend; grind [State.pushFull_kept, kept_mk, kept_iff, = keptOn_iff, kept_foldl]
theorem State.tgtResend_kept' {s₀ t : State} {pk : Packet} {s : State} {y₀} (e₀ : (tgtResend pk s) = (t, y₀)) (hk : Kept s₀ s) : Kept s₀ t := by
  have := State.tgtResend_kept pk s hk; rw [e₀] at this; exact this

theorem State.execResendReceive_kept {s₀ : State} (port : Option (Fin 8)) (pk : Packet) (s : State) (hk : Kept s₀ s) : KeptR s₀ (execResendReceive port pk s) := by
  unfold execResendReceive; grind [State.receiveReq_kept, State.tgtResend_kept, → State.tgtResend_kept', kept_mk, kept_iff, = keptOn_iff, keptR_next]

theorem State.execMirrorResendRequest_kept {s₀ : State} (mirror : Nat) (s : State) (hk : Kept s₀ s) : KeptR s₀ (execMirrorResendRequest mirror s) := by
  unfold execMirrorResendRequest; grind [State.filter_kept, → State.filter_kept', State.sendReq_kept, kept_mk, kept_iff, = keptOn_iff, keptR_next]

end Sys2Proof.Machine
end

