-- ==== Sys2Proof/Laws/KeptCompare.lean ====
section
/-! SUPPORT. What each operation of Machine/Compare.lean keeps. -/
namespace Sys2Proof.Machine
open Sys2Proof

theorem State.readShard_kept {s₀ : State} (s : State) (is : List Nat) (hk : Kept s₀ s) : Kept s₀ (State.readShard s is) := by
  unfold State.readShard; grind [State.touchPhys_kept, kept_mk, kept_iff, = keptOn_iff, kept_foldl]

theorem State.modCmp_kept {s₀ : State} (s : State) (f : SealCmp → SealCmp) (hk : Kept s₀ s) : Kept s₀ (State.modCmp s f) := by
  unfold State.modCmp; grind [kept_mk, kept_iff, = keptOn_iff]

theorem State.cmpSend_kept {s₀ : State} (s : State) (ph : Nat) (vs : List (Nat × BitVec 64)) (hk : Kept s₀ s) : Kept s₀ (State.cmpSend s ph vs) := by
  unfold State.cmpSend; grind [State.modCmp_kept, State.sendReq_kept, kept_mk, kept_iff, = keptOn_iff, kept_foldl]

theorem State.taintAll_kept {s₀ : State} (s : State) (hk : Kept s₀ s) : Kept s₀ (State.taintAll s) := by
  unfold State.taintAll; grind [State.filter_kept, → State.filter_kept', State.modCell_kept, kept_mk, kept_iff, = keptOn_iff, kept_foldl]

theorem State.unresolve_kept {s₀ : State} (s : State) (a : Nat) (hk : Kept s₀ s) : Kept s₀ (State.unresolve s a) :=
  have h := State.touchPhys_kept s a 256 true hk
  State.rcFlag_kept _ _ (State.taintAll_kept _ ⟨h.1, h.2.1, fun g => psWf_psPutRange _ _ _ _ (h.2.2.1 g), h.2.2.2⟩)

theorem State.cmpResolve_kept {s₀ : State} (s : State) (c : SealCmp) (i : Nat) (hk : Kept s₀ s) : Kept s₀ (State.cmpResolve s c i) := by
  unfold State.cmpResolve; grind [State.lineWrite_kept, → State.lineWrite_kept', State.log_kept, State.rcAdd_kept, State.rcFlag_kept, State.unresolve_kept, kept_mk, kept_iff, = keptOn_iff]

theorem State.cmpEnd_kept {s₀ : State} (s : State) (hk : Kept s₀ s) : Kept s₀ (State.cmpEnd s) := by
  unfold State.cmpEnd; grind [State.modCmp_kept, kept_mk, kept_iff, = keptOn_iff]

theorem State.cmpLines_kept {s₀ : State} (s : State) (is : List Nat) (hk : Kept s₀ s) : Kept s₀ (State.cmpLines s is) := by
  unfold State.cmpLines; grind [State.modCmp_kept, State.readShard_kept, State.sendReq_kept, kept_mk, kept_iff, = keptOn_iff, kept_foldl]

theorem State.cmpCopy_kept {s₀ : State} (s : State) (i : Nat) (v : Bool × List Byte) (hk : Kept s₀ s) : Kept s₀ (State.cmpCopy s i v) := by
  unfold State.cmpCopy; grind [State.modCmp_kept, State.sendReq_kept, kept_mk, kept_iff, = keptOn_iff, kept_foldl]

theorem State.cmpAsk_kept {s₀ : State} (s : State) (is : List Nat) (hk : Kept s₀ s) : Kept s₀ (State.cmpAsk s is) := by
  unfold State.cmpAsk; grind [State.cmpCopy_kept, State.modCmp_kept, State.sendReq_kept, kept_mk, kept_iff, = keptOn_iff, kept_foldl]

theorem State.cmpStep_kept {s₀ : State} (k : Nat) : ∀ (s : State) (_ : Kept s₀ s), Kept s₀ (State.cmpStep k s) := by
  induction k with
  | zero => exact fun _ h => h
  | succ m ih =>
    intro s hk; unfold State.cmpStep
    (repeat' split) <;> grind [State.cmpAsk_kept, State.cmpEnd_kept, State.cmpLines_kept, State.cmpResolve_kept, State.cmpSend_kept, State.log_kept, State.readShard_kept, State.unresolve_kept, kept_foldl]

theorem State.cmpFor_kept {s₀ : State} (s : State) (step : Nat) (hk : Kept s₀ s) : Kept s₀ (State.cmpFor s step) := by
  unfold State.cmpFor; grind [kept_mk, kept_iff, = keptOn_iff]

theorem State.cmpBegin_kept {s₀ : State} (s : State) (step : Nat) (hk : Kept s₀ s) : Kept s₀ (State.cmpBegin s step) := by
  unfold State.cmpBegin; grind [State.cmpFor_kept, State.cmpSend_kept, State.cmpStep_kept, State.readShard_kept, kept_mk, kept_iff, = keptOn_iff]

theorem State.tgtSealx_kept {s₀ : State} (pk : Packet) (s : State) (hk : Kept s₀ s) : Kept s₀ (tgtSealx pk s).1 := by
  unfold tgtSealx; grind [State.cmpCopy_kept, State.cmpFor_kept, State.cmpStep_kept, State.modCmp_kept, State.sendReq_kept, State.touchPhys_kept, kept_mk, kept_iff, = keptOn_iff]
theorem State.tgtSealx_kept' {s₀ t : State} {pk : Packet} {s : State} {y₀} (e₀ : (tgtSealx pk s) = (t, y₀)) (hk : Kept s₀ s) : Kept s₀ t := by
  have := State.tgtSealx_kept pk s hk; rw [e₀] at this; exact this

theorem State.execSealxReceive_kept {s₀ : State} (port : Option (Fin 8)) (pk : Packet) (s : State) (hk : Kept s₀ s) : KeptR s₀ (execSealxReceive port pk s) := by
  unfold execSealxReceive; grind [State.receiveReq_kept, State.tgtSealx_kept, → State.tgtSealx_kept', kept_mk, kept_iff, = keptOn_iff, keptR_next]

end Sys2Proof.Machine
end

