-- ==== Sys2Proof/Laws/KeptRendez.lean ====
section
/-! SUPPORT. What each operation of Machine/Rendez.lean keeps. -/
namespace Sys2Proof.Machine
open Sys2Proof

theorem State.modRdv_kept {s₀ : State} (s : State) (name : Nat) (f : Rdv → Rdv) (hk : Kept s₀ s) : Kept s₀ (State.modRdv s name f) := by
  unfold State.modRdv; grind [kept_mk, kept_iff, = keptOn_iff]

theorem State.rdvSkew_kept {s₀ : State} (s : State) (name headEpoch : Nat) (hk : Kept s₀ s) : Kept s₀ (State.rdvSkew s name headEpoch) := by
  unfold State.rdvSkew; grind [State.log_kept, State.modCore_kept, State.modImgEntry_kept, State.modRdv_kept, State.raiseFault_kept, kept_mk, kept_iff, = keptOn_iff, kept_foldl]

theorem State.releaseCell_kept {s₀ : State} (s : State) (name ep k : Nat) (hk : Kept s₀ s) : Kept s₀ (State.releaseCell s name ep k) := by
  unfold State.releaseCell; grind [State.imgTable_kept, State.modCell_kept, State.modCore_kept, State.modImg_kept, kept_mk, kept_iff, = keptOn_iff, kept_foldl]

theorem State.noteRelease_kept {s₀ : State} (s : State) (name : Nat) (hk : Kept s₀ s) : Kept s₀ (State.noteRelease s name) := by
  unfold State.noteRelease; grind [kept_mk, kept_iff, = keptOn_iff]

theorem State.onRelease_kept {s₀ : State} (s : State) (name ep : Nat) (hk : Kept s₀ s) : Kept s₀ (State.onRelease s name ep) := by
  unfold State.onRelease; grind [State.modRdv_kept, State.noteRelease_kept, State.rdvSkew_kept, State.releaseCell_kept, kept_mk, kept_iff, = keptOn_iff, kept_foldl]

theorem State.onArrive_kept {s₀ : State} (s : State) (slot name ep : Nat) (hk : Kept s₀ s) : Kept s₀ (State.onArrive s slot name ep) := by
  unfold State.onArrive; grind [State.filter_kept, → State.filter_kept', State.modRdv_kept, State.onRelease_kept, State.rdvSkew_kept, State.sendCtl_kept, kept_mk, kept_iff, = keptOn_iff, kept_foldl]

theorem State.sendArrive_kept {s₀ : State} (s : State) (name : Nat) (hk : Kept s₀ s) : Kept s₀ (State.sendArrive s name) := by
  unfold State.sendArrive; grind [State.modRdv_kept, State.onArrive_kept, State.sendCtl_kept, kept_mk, kept_iff, = keptOn_iff]

theorem State.rdvReach_kept {s₀ : State} (s : State) (name : Nat) (hk : Kept s₀ s) : Kept s₀ (State.rdvReach s name) := by
  unfold State.rdvReach; grind [State.sendArrive_kept, kept_mk, kept_iff, = keptOn_iff]

theorem State.rearrive_kept {s₀ : State} (s : State) (hk : Kept s₀ s) : Kept s₀ (State.rearrive s) := by
  unfold State.rearrive; grind [State.sendArrive_kept, kept_mk, kept_iff, = keptOn_iff, kept_foldl]

theorem State.execWait_kept {s₀ : State} (core : Fin 48) (w : BitVec 128) (s : State) (hk : Kept s₀ s) : KeptR s₀ (execWait core w s) := by
  unfold execWait; grind [State.issue1_kept, kept_mk, kept_iff, = keptOn_iff, keptR_next]

theorem State.execSignal_kept {s₀ : State} (core : Fin 48) (w : BitVec 128) (s : State) (hk : Kept s₀ s) : KeptR s₀ (execSignal core w s) := by
  unfold execSignal; grind [State.issue1_kept, State.sendOps_kept, State.sendReq_kept, kept_mk, kept_iff, = keptOn_iff, keptR_next]

theorem State.execRdv_kept {s₀ : State} (core : Fin 48) (w : BitVec 128) (s : State) (hk : Kept s₀ s) : KeptR s₀ (execRdv core w s) := by
  unfold execRdv; grind [State.issue1_kept, State.rdvReach_kept, kept_mk, kept_iff, = keptOn_iff, keptR_next]

theorem State.execTickmark_kept {s₀ : State} (core : Fin 48) (w : BitVec 128) (s : State) (hk : Kept s₀ s) : KeptR s₀ (execTickmark core w s) := by
  unfold execTickmark; grind [State.issue1_kept, State.log_kept, State.timeNow_kept, → State.timeNow_kept', kept_mk, kept_iff, = keptOn_iff, keptR_next]

theorem State.execStepEndArriveReady_kept {s₀ : State} (s : State) (hk : Kept s₀ s) : KeptR s₀ (execStepEndArriveReady s) := by
  unfold execStepEndArriveReady; grind [State.cmpBegin_kept, State.sendArrive_kept, kept_mk, kept_iff, = keptOn_iff, keptR_next]

theorem State.execArriveReceive_kept {s₀ : State} (port : Option (Fin 8)) (pk : Packet) (s : State) (hk : Kept s₀ s) : KeptR s₀ (execArriveReceive port pk s) := by
  unfold execArriveReceive; grind [State.onArrive_kept, State.receiveCtl_kept, kept_mk, kept_iff, = keptOn_iff, keptR_next]

theorem State.execReleaseReceive_kept {s₀ : State} (port : Option (Fin 8)) (pk : Packet) (s : State) (hk : Kept s₀ s) : KeptR s₀ (execReleaseReceive port pk s) := by
  unfold execReleaseReceive; grind [State.onRelease_kept, State.receiveCtl_kept, kept_mk, kept_iff, = keptOn_iff, keptR_next]

theorem State.execRdvnakReceive_kept {s₀ : State} (port : Option (Fin 8)) (pk : Packet) (s : State) (hk : Kept s₀ s) : KeptR s₀ (execRdvnakReceive port pk s) := by
  unfold execRdvnakReceive; grind [State.rdvSkew_kept, State.receiveCtl_kept, kept_mk, kept_iff, = keptOn_iff, keptR_next]

theorem State.execRdvTimeout_kept {s₀ : State} (name : Nat) (s : State) (hk : Kept s₀ s) : KeptR s₀ (execRdvTimeout name s) := by
  unfold execRdvTimeout; grind [State.filter_kept, → State.filter_kept', State.log_kept, kept_mk, kept_iff, = keptOn_iff, kept_foldl, keptR_next]

end Sys2Proof.Machine
end

