-- ==== Sys2Proof/Laws/KeptHeads.lean ====
section
/-! SUPPORT. What each operation of Machine/Heads.lean keeps. -/
namespace Sys2Proof.Machine
open Sys2Proof

theorem State.setGal_kept {s₀ : State} (s : State) (g : GalSt) (hk : Kept s₀ s) : Kept s₀ (State.setGal s g) := by
  unfold State.setGal; grind [State.filter_kept, → State.filter_kept', State.modCell_kept, kept_mk, kept_iff, = keptOn_iff, kept_foldl]

theorem State.quarantine_kept {s₀ : State} (s : State) (inc port : Nat) (hk : Kept s₀ s) : Kept s₀ (State.quarantine s inc port) := by
  unfold State.quarantine; grind [State.log_kept, State.setGal_kept, kept_mk, kept_iff, = keptOn_iff]

theorem State.showLive_kept {s₀ : State} (s : State) (hk : Kept s₀ s) : Kept s₀ (State.showLive s) := by
  unfold State.showLive; grind [kept_mk, kept_iff, = keptOn_iff, kept_foldl]

theorem State.execHbTimer_kept {s₀ : State} (s : State) (hk : Kept s₀ s) : KeptR s₀ (execHbTimer s) := by
  unfold execHbTimer; grind [State.filter_kept, → State.filter_kept', State.sendCtl_kept, State.showLive_kept, kept_mk, kept_iff, = keptOn_iff, kept_foldl, keptR_next]

theorem State.execHbReceive_kept {s₀ : State} (port : Option (Fin 8)) (pk : Packet) (s : State) (hk : Kept s₀ s) : KeptR s₀ (execHbReceive port pk s) := by
  unfold execHbReceive; grind [State.receiveCtl_kept, State.sendCtl_kept, State.showLive_kept, kept_mk, kept_iff, = keptOn_iff, keptR_next]

theorem State.followHead_kept {s₀ : State} (s : State) (h : Nat) (hk : Kept s₀ s) : Kept s₀ (State.followHead s h) := by
  unfold State.followHead; grind [State.rearrive_kept, kept_mk, kept_iff, = keptOn_iff]

theorem State.execHeadbeatReceive_kept {s₀ : State} (port : Option (Fin 8)) (pk : Packet) (s : State) (hk : Kept s₀ s) : KeptR s₀ (execHeadbeatReceive port pk s) := by
  unfold execHeadbeatReceive; grind [State.followHead_kept, State.log_kept, State.receiveCtl_kept, State.setGal_kept, kept_mk, kept_iff, = keptOn_iff, keptR_next]

theorem State.execHeadbeatTimeout_kept {s₀ : State} (us : Nat) (s : State) (hk : Kept s₀ s) : KeptR s₀ (execHeadbeatTimeout us s) := by
  unfold execHeadbeatTimeout; grind [State.log_kept, State.setGal_kept, kept_mk, kept_iff, = keptOn_iff, keptR_next]

theorem State.enterFenced_kept {s₀ : State} (s : State) (hk : Kept s₀ s) : Kept s₀ (State.enterFenced s) := by
  unfold State.enterFenced; grind [State.log_kept, State.setGal_kept, kept_mk, kept_iff, = keptOn_iff]

theorem State.execHeadlessFenceTimer_kept {s₀ : State} (s : State) (hk : Kept s₀ s) : KeptR s₀ (execHeadlessFenceTimer s) := by
  unfold execHeadlessFenceTimer; grind [State.enterFenced_kept, kept_mk, kept_iff, = keptOn_iff, keptR_next]

theorem State.dropCapture_kept {s₀ : State} (s : State) (hk : Kept s₀ s) : Kept s₀ (State.dropCapture s) := by
  unfold State.dropCapture; grind [State.filter_kept, → State.filter_kept', State.modCell_kept, kept_mk, kept_iff, = keptOn_iff, kept_foldl]

theorem State.onDeath_kept {s₀ : State} (s : State) (flow inc : Nat) (hk : Kept s₀ s) : Kept s₀ (State.onDeath s flow inc) := by
  unfold State.onDeath; grind [State.dropCapture_kept, State.modFlow_kept, State.remFault_kept, kept_mk, kept_iff, = keptOn_iff, kept_foldl]

theorem State.noteDead_kept {s₀ : State} (s : State) (slot inc : Nat) (hk : Kept s₀ s) : Kept s₀ (State.noteDead s slot inc) := by
  unfold State.noteDead; grind [State.filter_kept, → State.filter_kept', kept_mk, kept_iff, = keptOn_iff]

theorem State.declare_kept {s₀ : State} (s : State) (live : List Nat) (slot : Nat) (hk : Kept s₀ s) : Kept s₀ (State.declare s live slot) := by
  unfold State.declare; grind [State.filter_kept, → State.filter_kept', State.log_kept, State.onDeath_kept, State.sendCtl_kept, kept_mk, kept_iff, = keptOn_iff, kept_foldl]

theorem State.execFenceReceive_kept {s₀ : State} (port : Option (Fin 8)) (pk : Packet) (s : State) (hk : Kept s₀ s) : KeptR s₀ (execFenceReceive port pk s) := by
  unfold execFenceReceive; grind [State.quarantine_kept, State.receiveCtl_kept, kept_mk, kept_iff, = keptOn_iff, keptR_next]

theorem State.ackDeath_kept {s₀ : State} (s : State) (dst flow : Nat) (commit : Bool) (hk : Kept s₀ s) : Kept s₀ (State.ackDeath s dst flow commit) := by
  unfold State.ackDeath; grind [State.sendCtl_kept, kept_mk, kept_iff, = keptOn_iff]

theorem State.relay_kept {s₀ : State} (s : State) (flow inc frm : Nat) (hk : Kept s₀ s) : Kept s₀ (State.relay s flow inc frm) := by
  unfold State.relay; grind [State.ackDeath_kept, State.filter_kept, → State.filter_kept', State.sendCtl_kept, kept_mk, kept_iff, = keptOn_iff, kept_foldl]

theorem State.ownDeath_kept {s₀ : State} (s : State) (inc port : Nat) (hk : Kept s₀ s) : Kept s₀ (State.ownDeath s inc port) := by
  unfold State.ownDeath; grind [State.quarantine_kept, kept_mk, kept_iff, = keptOn_iff]

theorem State.execDeathReceive_kept {s₀ : State} (port : Option (Fin 8)) (pk : Packet) (s : State) (hk : Kept s₀ s) : KeptR s₀ (execDeathReceive port pk s) := by
  unfold execDeathReceive; grind [State.ackDeath_kept, State.filter_kept, → State.filter_kept', State.noteDead_kept, State.onDeath_kept, State.ownDeath_kept, State.quarantine_kept, State.receiveCtl_kept, State.relay_kept, State.sendCtl_kept, kept_mk, kept_iff, = keptOn_iff, kept_foldl, keptR_next]

theorem State.setRoute_kept {s₀ : State} (s : State) (flow e : Nat) (hk : Kept s₀ s) : Kept s₀ (State.setRoute s flow e) := by
  unfold State.setRoute; grind [kept_mk, kept_iff, = keptOn_iff]

theorem State.execRoutesetReceive_kept {s₀ : State} (port : Option (Fin 8)) (pk : Packet) (s : State) (hk : Kept s₀ s) : KeptR s₀ (execRoutesetReceive port pk s) := by
  unfold execRoutesetReceive; grind [State.receiveCtl_kept, State.setRoute_kept, kept_mk, kept_iff, = keptOn_iff, keptR_next]

end Sys2Proof.Machine
end

