-- ==== Sys2Proof/Laws/KeptTcdCmd.lean ====
section
/-! SUPPORT. What each operation of Machine/TcdCmd.lean keeps. -/
namespace Sys2Proof.Machine
open Sys2Proof

theorem State.refuseCmd_kept {s₀ : State} (s : State) (code : Nat) (fs : List EvF) (hk : Kept s₀ s) : Kept s₀ (State.refuseCmd s code fs).1 := by
  unfold State.refuseCmd; grind [State.log_kept, kept_mk, kept_iff, = keptOn_iff]

theorem State.refuseCmd_kept' {s₀ t : State} {s : State} {code : Nat} {fs : List EvF} {y₀} (e₀ : (State.refuseCmd s code fs) = (t, y₀)) (hk : Kept s₀ s) : Kept s₀ t := by
  have := State.refuseCmd_kept s code fs hk; rw [e₀] at this; exact this

theorem State.sendTcdf_kept {s₀ : State} (s : State) (dst kind id epoch seq code : Nat) (payload : List Byte) (hk : Kept s₀ s) : Kept s₀ (State.sendTcdf s dst kind id epoch seq code payload) := by
  unfold State.sendTcdf; grind [State.sendReq_kept, kept_mk, kept_iff, = keptOn_iff, kept_foldl]

theorem State.answer_kept {s₀ : State} (s : State) (c : TcdCtx) (status : Nat) (payload : List Byte) (hk : Kept s₀ s) : Kept s₀ (State.answer s c status payload) := by
  unfold State.answer; grind [State.finalResponse_kept, State.sendReq_kept, State.sendTcdf_kept, kept_mk, kept_iff, = keptOn_iff]

theorem State.accept_kept {s₀ : State} (s : State) (c : TcdCtx) (payload : List Byte) (hk : Kept s₀ s) : Kept s₀ (State.accept s c payload) := by
  unfold State.accept; grind [State.answer_kept, State.modSession_kept, State.respond_kept, kept_mk, kept_iff, = keptOn_iff]

theorem State.badTag_kept {s₀ : State} (s : State) (m : Msg) (hk : Kept s₀ s) : Kept s₀ (State.badTag s m) := by
  unfold State.badTag; grind [State.log_kept, State.modEth_kept, kept_mk, kept_iff, = keptOn_iff]

theorem State.roleRefused_kept {s₀ : State} (s : State) (c : TcdCtx) (op : Nat) (hk : Kept s₀ s) : Kept s₀ (State.roleRefused s c op) := by
  unfold State.roleRefused; grind [State.log_kept, kept_mk, kept_iff, = keptOn_iff]

theorem State.forward_kept {s₀ : State} (s : State) (c : TcdCtx) (port dst op : Nat) (payload : List Byte) (hk : Kept s₀ s) : Kept s₀ (State.forward s c port dst op payload) := by
  unfold State.forward; grind [State.accept_kept, State.answer_kept, State.modEth_kept, State.modSession_kept, State.sendReq_kept, State.sendTcdf_kept, kept_mk, kept_iff, = keptOn_iff]

theorem State.await_kept {s₀ : State} (s : State) (c : TcdCtx) (payload : List Byte) (hk : Kept s₀ s) : Kept s₀ (State.await s c payload) := by
  unfold State.await; grind [kept_mk, kept_iff, = keptOn_iff]

theorem State.fillBuffer_kept {s₀ : State} (s : State) (port : Nat) (hk : Kept s₀ s) : Kept s₀ (State.fillBuffer s port) := by
  unfold State.fillBuffer; grind [State.emit_kept, State.modEth_kept, kept_mk, kept_iff, = keptOn_iff]

theorem State.tcdRun_kept {s₀ : State} (s : State) (m : Msg) (owner : Bool) (op : Nat) (payload : List Byte) (obs here : Bool) (eff : Eff) (post : State → State) (hf : ∀ c t, Kept s₀ t → Kept s₀ (eff c t).1) (hp : ∀ t, Kept s₀ t → Kept s₀ (post t)) (hk : Kept s₀ s) : Kept s₀ (State.tcdRun s m owner op payload obs here eff post) := by
  have h1 := hf ⟨m.session, m.epoch, m.seq, 0, owner, op⟩ s hk
  unfold State.tcdRun; grind [State.accept_kept, State.answer_kept, State.await_kept, State.forward_kept, State.roleRefused_kept]

theorem State.tcd_kept {s₀ : State} (s : State) (m : Msg) (op : Nat) (payload : List Byte) (obs here : Bool) (eff : Eff) (post : State → State) (hf : ∀ c t, Kept s₀ t → Kept s₀ (eff c t).1) (hp : ∀ t, Kept s₀ t → Kept s₀ (post t)) (hk : Kept s₀ s) : Kept s₀ (State.tcd s m op payload obs here eff post) := by
  have h1 : ∀ t o, Kept s₀ t → Kept s₀ (t.tcdRun m o op payload obs here eff post) := fun t o h => State.tcdRun_kept t m o op payload obs here eff post hf hp h
  unfold State.tcd; grind [State.badTag_kept, State.fillBuffer_kept, State.modSession_kept, State.respond_kept, State.tcdRun_kept, kept_mk, kept_iff, = keptOn_iff]

theorem State.sendOpen_kept {s₀ : State} (s : State) (port : Nat) (no : MsgNo) (id status : Nat) (payload : List Byte) (hk : Kept s₀ s) : Kept s₀ (State.sendOpen s port no id status payload) := by
  unfold State.sendOpen; grind [State.sendTcd_kept, kept_mk, kept_iff, = keptOn_iff]

theorem State.execSessionOpen_kept {s₀ : State} (port : Fin 3) (no : MsgNo) (cert nonce : List Byte) (s : State) (hk : Kept s₀ s) : KeptR s₀ (execSessionOpen port no cert nonce s) := by
  unfold execSessionOpen; grind [State.emit_kept, State.sendOpen_kept, State.tcd_kept, kept_mk, kept_iff, = keptOn_iff, keptR_next]

theorem State.execSessionConfirm_kept {s₀ : State} (m : Msg) (s : State) (hk : Kept s₀ s) : KeptR s₀ (execSessionConfirm m s) := by
  unfold execSessionConfirm; grind [State.badTag_kept, State.finalResponse_kept, State.log_kept, State.modSession_kept, State.respond_kept, kept_mk, kept_iff, = keptOn_iff, keptR_next]

theorem State.execSessionConfirmTimeout_kept {s₀ : State} (id : Nat) (s : State) (hk : Kept s₀ s) : KeptR s₀ (execSessionConfirmTimeout id s) := by
  unfold execSessionConfirmTimeout; grind [State.closeSession_kept, kept_mk, kept_iff, = keptOn_iff, keptR_next]

theorem State.execSessionClose_kept {s₀ : State} (m : Msg) (s : State) (hk : Kept s₀ s) : KeptR s₀ (execSessionClose m s) :=
  keptR_of_next (State.tcd_kept _ _ _ _ _ _ _ _ (fun _ _ h => h) (fun _ h => State.closeSession_kept _ _ _ h) hk)

theorem State.execSessionIdleTimeout_kept {s₀ : State} (id : Nat) (s : State) (hk : Kept s₀ s) : KeptR s₀ (execSessionIdleTimeout id s) := by
  unfold execSessionIdleTimeout; grind [State.closeSession_kept, kept_mk, kept_iff, = keptOn_iff, keptR_next]

theorem State.execRekey_kept {s₀ : State} (m : Msg) (s : State) (hk : Kept s₀ s) : KeptR s₀ (execRekey m s) :=
  keptR_of_next (State.tcd_kept _ _ _ _ _ _ _ _ (fun _ _ h => State.modSession_kept _ _ _ h) (fun _ h => h) hk)

theorem State.execKeepalive_kept {s₀ : State} (m : Msg) (s : State) (hk : Kept s₀ s) : KeptR s₀ (execKeepalive m s) :=
  keptR_of_next (State.tcd_kept _ _ _ _ _ _ _ _ (fun _ _ h => h) (fun _ h => h) hk)

theorem State.execEvtSubscribe_kept {s₀ : State} (m : Msg) (sev : Nat) (s : State) (hk : Kept s₀ s) : KeptR s₀ (execEvtSubscribe m sev s) :=
  keptR_of_next (State.tcd_kept _ _ _ _ _ _ _ _ (fun _ _ h => by split; exact h; exact State.modSession_kept _ _ _ h) (fun _ h => h) hk)

theorem State.execNotifyAck_kept {s₀ : State} (m : Msg) (ack : BitVec 32) (s : State) (hk : Kept s₀ s) : KeptR s₀ (execNotifyAck m ack s) :=
  keptR_of_next (State.tcd_kept _ _ _ _ _ _ _ _ (fun _ _ h => State.modSession_kept _ _ _ h) (fun _ h => h) hk)

theorem State.execNotifyResendTimer_kept {s₀ : State} (id : Nat) (s : State) (hk : Kept s₀ s) : KeptR s₀ (execNotifyResendTimer id s) := by
  unfold execNotifyResendTimer; grind [State.emitAll_kept, State.filter_kept, → State.filter_kept', State.modSession_kept, State.sendNote_kept, kept_mk, kept_iff, = keptOn_iff, keptR_next, kept_foldl]

theorem State.effEvtRead_kept {s₀ s : State} (first count : Nat) (c : TcdCtx) (hk : Kept s₀ s) : Kept s₀ (effEvtRead first count c s).1 := by
  unfold effEvtRead; grind [State.refuseCmd_kept, → State.refuseCmd_kept', kept_mk, kept_iff, = keptOn_iff]
theorem State.effEvtRead_kept' {s₀ s t : State} {first count : Nat} {c : TcdCtx} {y₀} (e₀ : effEvtRead first count c s = (t, y₀)) (hk : Kept s₀ s) : Kept s₀ t := by
  have := State.effEvtRead_kept first count c hk; rw [e₀] at this; exact this

theorem State.execEvtRead_kept {s₀ : State} (m : Msg) (first count : Nat) (s : State) (hk : Kept s₀ s) : KeptR s₀ (execEvtRead m first count s) := by
  unfold execEvtRead; grind [State.effEvtRead_kept, → State.effEvtRead_kept', State.tcd_kept, kept_mk, kept_iff, = keptOn_iff, keptR_next]

theorem State.effStatus_kept {s₀ s : State}  (c : TcdCtx) (hk : Kept s₀ s) : Kept s₀ (effStatus  c s).1 := by
  unfold effStatus; grind [kept_mk, kept_iff, = keptOn_iff]
theorem State.effStatus_kept' {s₀ s t : State}  {c : TcdCtx} {y₀} (e₀ : effStatus  c s = (t, y₀)) (hk : Kept s₀ s) : Kept s₀ t := by
  have := State.effStatus_kept  c hk; rw [e₀] at this; exact this

theorem State.execStatus_kept {s₀ : State} (m : Msg) (s : State) (hk : Kept s₀ s) : KeptR s₀ (execStatus m s) := by
  unfold execStatus; grind [State.effStatus_kept, → State.effStatus_kept', State.tcd_kept, kept_mk, kept_iff, = keptOn_iff, keptR_next]

theorem State.effTokenPost_kept {s₀ s : State} (cell lcore token count : Nat) (c : TcdCtx) (hk : Kept s₀ s) : Kept s₀ (effTokenPost cell lcore token count c s).1 := by
  unfold effTokenPost; grind [State.postTo_kept, kept_mk, kept_iff, = keptOn_iff]
theorem State.effTokenPost_kept' {s₀ s t : State} {cell lcore token count : Nat} {c : TcdCtx} {y₀} (e₀ : effTokenPost cell lcore token count c s = (t, y₀)) (hk : Kept s₀ s) : Kept s₀ t := by
  have := State.effTokenPost_kept cell lcore token count c hk; rw [e₀] at this; exact this

theorem State.execTokenPost_kept {s₀ : State} (m : Msg) (cell lcore token count : Nat) (s : State) (hk : Kept s₀ s) : KeptR s₀ (execTokenPost m cell lcore token count s) := by
  unfold execTokenPost; grind [State.effTokenPost_kept, → State.effTokenPost_kept', State.tcd_kept, kept_mk, kept_iff, = keptOn_iff, keptR_next]

end Sys2Proof.Machine
end

