-- ==== Sys2Proof/Laws/KeptSnap.lean ====
section
/-! SUPPORT. What each operation of Machine/Snap.lean keeps. -/
namespace Sys2Proof.Machine
open Sys2Proof

theorem State.hbmPut_kept {s₀ : State} (s : State) (a n : Nat) (src : Mem) (hk : Kept s₀ s) : Kept s₀ (State.hbmPut s a n src) := by
  have h := State.touchPhys_kept s a n true hk
  exact ⟨h.1, fun g => memWf_memPut _ _ _ _ (h.2.1 g), fun g => psWf_clearPois _ _ _ (h.2.2.1 g), h.2.2.2⟩

theorem State.readRanges_kept {s₀ : State} (s : State) (rs : List (Nat × Nat)) (hk : Kept s₀ s) : Kept s₀ (State.readRanges s rs) := by
  unfold State.readRanges; grind [State.touchPhys_kept, kept_mk, kept_iff, = keptOn_iff, kept_foldl]

theorem State.snapRecord_kept {s₀ : State} (s : State) (kind step : Nat) (cur : Nat × Nat) (seals : List Nat) (hk : Kept s₀ s) : Kept s₀ (State.snapRecord s kind step cur seals).1 := by
  unfold State.snapRecord; grind [State.timeNow_kept, → State.timeNow_kept', kept_mk, kept_iff, = keptOn_iff]
theorem State.snapRecord_kept' {s₀ t : State} {s : State} {kind step : Nat} {cur : Nat × Nat} {seals : List Nat} {y₀} (e₀ : (State.snapRecord s kind step cur seals) = (t, y₀)) (hk : Kept s₀ s) : Kept s₀ t := by
  have := State.snapRecord_kept s kind step cur seals hk; rw [e₀] at this; exact this

theorem State.stepStart_kept {s₀ : State} (s : State) (step : Nat) (hk : Kept s₀ s) : Kept s₀ (State.stepStart s step) := by
  unfold State.stepStart; grind [State.expPush_kept, State.filter_kept, → State.filter_kept', State.hbmPut_kept, State.snapRecord_kept, → State.snapRecord_kept', kept_mk, kept_iff, = keptOn_iff]

theorem State.endCapture_kept {s₀ : State} (s : State) (hk : Kept s₀ s) : Kept s₀ (State.endCapture s) := by
  unfold State.endCapture; grind [State.holdAll_kept, kept_mk, kept_iff, = keptOn_iff]

theorem State.capturePoint_kept {s₀ : State} (s : State) (step : Nat) (hk : Kept s₀ s) : Kept s₀ (State.capturePoint s step) := by
  unfold State.capturePoint; grind [State.endCapture_kept, State.holdAll_kept, State.log_kept, kept_mk, kept_iff, = keptOn_iff]

theorem State.takeReceipt_kept {s₀ : State} (s : State) (step : Nat) (seals : List Nat) (hk : Kept s₀ s) : Kept s₀ (State.takeReceipt s step seals) := by
  unfold State.takeReceipt; grind [State.filter_kept, → State.filter_kept', State.log_kept, State.modCell_kept, State.timeNow_kept, → State.timeNow_kept', kept_mk, kept_iff, = keptOn_iff, kept_foldl]

theorem State.sendWrite_kept {s₀ : State} (s : State) (q : Qp) (origin : Nat) (b : List Byte) (hk : Kept s₀ s) : Kept s₀ (State.sendWrite s q origin b) := by
  unfold State.sendWrite; grind [State.modQp_kept, State.sendRoce_kept, kept_mk, kept_iff, = keptOn_iff]

theorem State.writeStore_kept {s₀ : State} (s : State) (q : Qp) (origin target off : Nat) (ps : List (Nat × List Byte)) (hk : Kept s₀ s) : Kept s₀ (State.writeStore s q origin target off ps) := by
  unfold State.writeStore; grind [State.emitAll_kept, State.sendWrite_kept, kept_mk, kept_iff, = keptOn_iff, kept_foldl]

theorem State.forwardStore_kept {s₀ : State} (s : State) (target off : Nat) (ps : List (Nat × List Byte)) (hk : Kept s₀ s) : Kept s₀ (State.forwardStore s target off ps) := by
  unfold State.forwardStore; grind [State.sendReq_kept, kept_mk, kept_iff, = keptOn_iff, kept_foldl]

theorem State.copyRanges_kept {s₀ : State} (s : State) (sb : Nat) (rs : List (Nat × (Nat × (Nat × Nat)))) (hk : Kept s₀ s) : Kept s₀ (State.copyRanges s sb rs) := by
  unfold State.copyRanges; grind [State.hbmPut_kept, kept_mk, kept_iff, = keptOn_iff, kept_foldl]

theorem State.uploadFailed_kept {s₀ : State} (s : State) (hk : Kept s₀ s) : Kept s₀ (State.uploadFailed s) := by
  unfold State.uploadFailed; grind [State.log_kept, kept_mk, kept_iff, = keptOn_iff]

theorem State.storeFailed_kept {s₀ : State} (s : State) (hk : Kept s₀ s) : Kept s₀ (State.storeFailed s) := by
  unfold State.storeFailed; grind [State.log_kept, State.uploadFailed_kept, kept_mk, kept_iff, = keptOn_iff]

theorem State.requesterFails_kept {s₀ : State} (s : State) (q : Qp) (hk : Kept s₀ s) : Kept s₀ (State.requesterFails s q) := by
  unfold State.requesterFails; grind [State.modQp_kept, State.sendTcdf_kept, State.storeFailed_kept, kept_mk, kept_iff, = keptOn_iff, kept_foldl]

theorem State.startDrain_kept {s₀ : State} (s : State) (rec_ : List Byte) (hk : Kept s₀ s) : Kept s₀ (State.startDrain s rec_) := by
  unfold State.startDrain; grind [State.storeFailed_kept, State.touchPhys_kept, State.writeStore_kept, kept_mk, kept_iff, = keptOn_iff]

theorem State.startUpload_kept {s₀ : State} (s : State) (g : Nat) (hk : Kept s₀ s) : Kept s₀ (State.startUpload s g) := by
  unfold State.startUpload; grind [State.forwardStore_kept, State.uploadFailed_kept, State.writeStore_kept, kept_mk, kept_iff, = keptOn_iff]

theorem State.execSnapCaptureDone_kept {s₀ : State} (us : Nat) (s : State) (hk : Kept s₀ s) : KeptR s₀ (execSnapCaptureDone us s) := by
  unfold execSnapCaptureDone
  refine keptR_ite (keptR_of_next hk) ?_
  extract_lets step rs sb t bad seals t2
  have h : Kept s₀ t := State.readRanges_kept _ _ hk
  refine keptR_ite (keptR_of_next (State.endCapture_kept _ (State.log_kept (State.copyRanges_kept _ _ _ h)))) ?_
  have h2 : Kept s₀ t2 := State.copyRanges_kept _ _ _ h
  have h3 := State.snapRecord_kept t2 1 step t2.cursorBlock seals h2
  clear_value t2
  split
  rename_i t3 r e
  rw [e] at h3
  exact keptR_of_next (State.endCapture_kept _ (State.log_kept (State.endStale_kept _ (State.startDrain_kept _ _
    (kept_ite (State.takeReceipt_kept _ _ _ (State.hwrite_kept (State.touchPhys_kept _ _ _ _ h3)))
      (State.hwrite_kept (State.touchPhys_kept _ _ _ _ h3)))))))

theorem State.flashWritten_kept {s₀ : State} (s : State) (n : Nat) (hk : Kept s₀ s) : Kept s₀ (State.flashWritten s n) := by
  unfold State.flashWritten; grind [State.log_kept, kept_mk, kept_iff, = keptOn_iff, kept_foldl, Mgmt.count_fuse]

theorem State.execSnapFlashDrainDone_kept {s₀ : State} (ok : Bool) (s : State) (hk : Kept s₀ s) : KeptR s₀ (execSnapFlashDrainDone ok s) := by
  unfold execSnapFlashDrainDone; grind [State.filter_kept, → State.filter_kept', State.flashWritten_kept, State.log_kept, State.startUpload_kept, State.touchPhys_kept, kept_mk, kept_iff, = keptOn_iff, keptR_next]

theorem State.execSnapStoreDrainDone_kept {s₀ : State} (ok : Bool) (s : State) (hk : Kept s₀ s) : KeptR s₀ (execSnapStoreDrainDone ok s) := by
  unfold execSnapStoreDrainDone; grind [State.storeFailed_kept, State.touchPhys_kept, State.writeStore_kept, kept_mk, kept_iff, = keptOn_iff, keptR_next]

theorem State.execSnapUploadDone_kept {s₀ : State} (s : State) (hk : Kept s₀ s) : KeptR s₀ (execSnapUploadDone s) := by
  unfold execSnapUploadDone
  dsimp only
  split
  · exact keptR_of_next hk
  · split
    · exact keptR_of_next (State.uploadFailed_kept _ hk)
    · exact keptR_ite (keptR_of_next hk) (keptR_of_next (kept_congr (State.log_kept hk) rfl rfl rfl rfl rfl rfl))

theorem State.execSnpTake_kept {s₀ : State} (s : State) (hk : Kept s₀ s) : KeptR s₀ (execSnpTake s) := by
  unfold execSnpTake; grind [kept_mk, kept_iff, = keptOn_iff, keptR_next]

theorem State.abortUpload_kept {s₀ : State} (s : State) (hk : Kept s₀ s) : Kept s₀ (State.abortUpload s) := by
  unfold State.abortUpload; grind [State.filter_kept, → State.filter_kept', kept_mk, kept_iff, = keptOn_iff]

theorem State.execSnpAbortup_kept {s₀ : State} (s : State) (hk : Kept s₀ s) : KeptR s₀ (execSnpAbortup s) := by
  unfold execSnpAbortup; grind [State.abortUpload_kept, kept_mk, kept_iff, = keptOn_iff, keptR_next]

theorem State.mapWalks_kept {s₀ : State} (s : State) (es : List (Nat × Nat)) (hk : Kept s₀ s) : Kept s₀ (State.mapWalks s es) := by
  unfold State.mapWalks; grind [State.filter_kept, → State.filter_kept', State.walkThrough_kept, → State.walkThrough_kept', kept_mk, kept_iff, = keptOn_iff, kept_foldl]

theorem State.putRestored_kept {s₀ : State} (s : State) (data : Option Mem) (rs : List (Nat × (Nat × (Nat × (Nat × Nat))))) (hk : Kept s₀ s) : Kept s₀ (State.putRestored s data rs) := by
  unfold State.putRestored; grind [State.hbmPut_kept, kept_mk, kept_iff, = keptOn_iff, kept_foldl]

theorem State.restoreCheck_kept {s₀ : State} (s : State) (src named : Nat) (r : List Byte) (data : Option Mem) (hk : Kept s₀ s) : Kept s₀ (State.restoreCheck s src named r data).1 := by
  unfold State.restoreCheck
  dsimp only
  have h1 := fun l => kept_ite (c := data.isNone = true) (State.readRanges_kept s l hk) hk
  refine kept_ite_fst hk (kept_ite_fst hk (kept_ite_fst hk (kept_ite_fst (h1 _) ?_)))
  have h2 := fun d l m => State.readRanges_kept _ m (State.putRestored_kept _ d l (h1 ((recordRanges r).map (fun x => (x.1, x.2.1)))))
  refine kept_ite_fst (h2 _ _ _) ?_
  split <;> exact kept_congr (State.mapWalks_kept _ _ (h2 _ _ _)) rfl rfl rfl rfl rfl rfl
theorem State.restoreCheck_kept' {s₀ t : State} {s : State} {src named : Nat} {r : List Byte} {data : Option Mem} {y₀} (e₀ : (State.restoreCheck s src named r data) = (t, y₀)) (hk : Kept s₀ s) : Kept s₀ t := by
  have := State.restoreCheck_kept s src named r data hk; rw [e₀] at this; exact this

theorem State.setEpochs_kept {s₀ : State} (s : State) (b : List Byte) (hk : Kept s₀ s) : Kept s₀ (State.setEpochs s b) := by
  unfold State.setEpochs; grind [State.filter_kept, → State.filter_kept', State.modRdv_kept, kept_mk, kept_iff, = keptOn_iff, kept_foldl]

theorem State.emptyAdds_kept {s₀ : State} (s : State) (hk : Kept s₀ s) : Kept s₀ (State.emptyAdds s) := by
  unfold State.emptyAdds; grind [kept_mk, kept_iff, = keptOn_iff]

theorem State.restoreCursor_kept {s₀ : State} (s : State) (b : List Byte) (hk : Kept s₀ s) : Kept s₀ (State.restoreCursor s b) := by
  unfold State.restoreCursor; grind [State.modCore_kept, kept_mk, kept_iff, = keptOn_iff]

theorem State.clearCommit_kept {s₀ : State} (s : State) (hk : Kept s₀ s) : Kept s₀ (State.clearCommit s) := by
  unfold State.clearCommit; grind [kept_mk, kept_iff, = keptOn_iff]

theorem State.restoreApply_kept {s₀ : State} (s : State) (src : Nat) (r : List Byte) (hk : Kept s₀ s) : Kept s₀ (State.restoreApply s src r) := by
  unfold State.restoreApply
  extract_lets step ks s1 s2 s3 s4
  have h1 : Kept s₀ s1 := kept_foldl _ _ (fun _ _ h => State.modCell_kept h) _ hk
  have h2 : Kept s₀ s2 := State.restoreCursor_kept _ _ (State.setEpochs_kept _ _ h1)
  have h3 : Kept s₀ s3 := kept_foldl _ _ (fun _ _ h => State.modCell_kept (State.commandReset_kept _ _ h)) _ h2
  have h4 : Kept s₀ s4 := State.clearCommit_kept _ (State.emptyAdds_kept _ (kept_foldl _ _ (fun _ _ h => State.reclockCell_kept _ _ h) _ h3))
  exact State.log_kept h4

end Sys2Proof.Machine
end

