-- ==== Sys2Proof/Laws/KeptRecover.lean ====
section
/-! SUPPORT. What each operation of Machine/Recover.lean keeps. -/
namespace Sys2Proof.Machine
open Sys2Proof

theorem State.sendRoutes_kept {s₀ : State} (s : State) (slot : Nat) (sp : SpareCfg) (hk : Kept s₀ s) : Kept s₀ (State.sendRoutes s slot sp) := by
  unfold State.sendRoutes; grind [State.sendCtl_kept, State.setRoute_kept, kept_mk, kept_iff, = keptOn_iff, kept_foldl]

theorem State.wardReady_kept {s₀ : State} (s : State) (slot : Nat) (hk : Kept s₀ s) : Kept s₀ (State.wardReady s slot) := by
  unfold State.wardReady; grind [State.expPush_kept, State.log_kept, kept_mk, kept_iff, = keptOn_iff]

theorem State.tellFill_kept {s₀ : State} (s : State) (f : Fill) (code : Nat) (hk : Kept s₀ s) : Kept s₀ (State.tellFill s f code) := by
  unfold State.tellFill; grind [State.filter_kept, → State.filter_kept', State.inject_kept, State.sendCtl_kept, kept_mk, kept_iff, = keptOn_iff, kept_foldl]

theorem State.noteFill_kept {s₀ : State} (s : State) (fs : List Nat) (hash : List Byte) (hk : Kept s₀ s) : Kept s₀ (State.noteFill s fs hash) := by
  unfold State.noteFill; grind [State.filter_kept, → State.filter_kept', State.noteDead_kept, State.wardReady_kept, kept_mk, kept_iff, = keptOn_iff]

theorem State.headCmd_kept {s₀ : State} (s : State) (slot op : Nat) (payload : List Byte) (hk : Kept s₀ s) : Kept s₀ (State.headCmd s slot op payload) := by
  unfold State.headCmd; grind [State.sendReq_kept, State.sendTcdf_kept, kept_mk, kept_iff, = keptOn_iff]

theorem State.headRestore_kept {s₀ : State} (s : State) (src step : Nat) (hk : Kept s₀ s) : Kept s₀ (State.headRestore s src step) := by
  unfold State.headRestore; grind [State.filter_kept, → State.filter_kept', State.headCmd_kept, kept_mk, kept_iff, = keptOn_iff, kept_foldl]

theorem State.beginEscalated_kept {s₀ : State} (s : State) (hk : Kept s₀ s) : Kept s₀ (State.beginEscalated s) := by
  unfold State.beginEscalated; grind [State.holdAll_kept, kept_mk, kept_iff, = keptOn_iff]

theorem State.escalate_kept {s₀ : State} (s : State) (cause : Nat) (hk : Kept s₀ s) : Kept s₀ (State.escalate s cause) := by
  unfold State.escalate; grind [State.beginEscalated_kept, State.headRestore_kept, State.log_kept, State.tellFill_kept, kept_mk, kept_iff, = keptOn_iff, kept_foldl]

theorem State.recoveryWait_kept {s₀ : State} (s : State) (hk : Kept s₀ s) : Kept s₀ (State.recoveryWait s) := by
  unfold State.recoveryWait; grind [State.log_kept, kept_mk, kept_iff, = keptOn_iff]

theorem State.startFill_kept {s₀ : State} (s : State) (slot inc spare : Nat) (hash : List Byte) (hk : Kept s₀ s) : Kept s₀ (State.startFill s slot inc spare hash) := by
  unfold State.startFill
  extract_lets s1 f x1 g1 s2 s3
  have h : Kept s₀ s3 := State.tellFill_kept _ _ _ (kept_congr (s := s1) (State.log_kept hk) rfl rfl rfl rfl rfl rfl)
  split
  · exact State.sendRoutes_kept _ _ _ h
  · exact h

theorem State.takeOverFills_kept {s₀ : State} (s : State) (hk : Kept s₀ s) : Kept s₀ (State.takeOverFills s) := by
  unfold State.takeOverFills; grind [State.filter_kept, → State.filter_kept', State.sendRoutes_kept, kept_mk, kept_iff, = keptOn_iff, kept_foldl]

theorem State.execDeputyTakeoverTimer_kept {s₀ : State} (s : State) (hk : Kept s₀ s) : KeptR s₀ (execDeputyTakeoverTimer s) := by
  unfold execDeputyTakeoverTimer; grind [State.followHead_kept, State.log_kept, State.setGal_kept, State.takeOverFills_kept, kept_mk, kept_iff, = keptOn_iff, keptR_next]

theorem State.autofill_kept {s₀ : State} (s : State) (hk : Kept s₀ s) : Kept s₀ (State.autofill s) := by
  unfold State.autofill; grind [State.startFill_kept, kept_mk, kept_iff, = keptOn_iff, kept_foldl]

theorem State.beginRestart_kept {s₀ : State} (s : State) (step : Nat) (hk : Kept s₀ s) : Kept s₀ (State.beginRestart s step) := by
  unfold State.beginRestart; grind [State.commandReset_kept, State.filter_kept, → State.filter_kept', State.holdAll_kept, kept_mk, kept_iff, = keptOn_iff, kept_foldl]

theorem State.restartFleet_kept {s₀ : State} (s : State) (hk : Kept s₀ s) : Kept s₀ (State.restartFleet s) := by
  unfold State.restartFleet; grind [State.beginRestart_kept, State.filter_kept, → State.filter_kept', State.headCmd_kept, State.headRestore_kept, kept_mk, kept_iff, = keptOn_iff, kept_foldl]

theorem State.recover_kept {s₀ : State} (s : State) (hk : Kept s₀ s) : Kept s₀ (State.recover s) := by
  unfold State.recover; grind [State.autofill_kept, State.recoveryWait_kept, State.restartFleet_kept, kept_mk, kept_iff, = keptOn_iff]

theorem State.abortFills_kept {s₀ : State} (s : State) (slot : Nat) (hk : Kept s₀ s) : Kept s₀ (State.abortFills s slot) := by
  unfold State.abortFills; grind [State.filter_kept, → State.filter_kept', State.log_kept, kept_mk, kept_iff, = keptOn_iff, kept_foldl]

theorem State.decide__kept {s₀ : State} (s : State) (slot inc : Nat) (commit : Bool) (hk : Kept s₀ s) : Kept s₀ (State.decide_ s slot inc commit) := by
  unfold State.decide_; grind [State.abortFills_kept, State.autofill_kept, State.escalate_kept, State.filter_kept, → State.filter_kept', State.log_kept, State.recover_kept, State.recoveryWait_kept, State.restartFleet_kept, State.startFill_kept, kept_mk, kept_iff, = keptOn_iff, kept_foldl]

theorem State.declared_kept {s₀ : State} (s : State) (d : Death) (hk : Kept s₀ s) : Kept s₀ (State.declared s d) := by
  unfold State.declared; grind [State.decide__kept, State.filter_kept, → State.filter_kept', State.noteDead_kept, kept_mk, kept_iff, = keptOn_iff]

theorem State.waitOver_kept {s₀ : State} (s : State) (hk : Kept s₀ s) : Kept s₀ (State.waitOver s) := by
  unfold State.waitOver; grind [State.autofill_kept, State.recover_kept, kept_mk, kept_iff, = keptOn_iff]

theorem State.execLiveSetCheck_kept {s₀ : State} (s : State) (hk : Kept s₀ s) : KeptR s₀ (execLiveSetCheck s) := by
  unfold execLiveSetCheck; grind [State.declare_kept, State.declared_kept, State.enterFenced_kept, State.filter_kept, → State.filter_kept', State.showLive_kept, State.waitOver_kept, kept_mk, kept_iff, = keptOn_iff, kept_foldl, keptR_next]

theorem State.deathAck_kept {s₀ : State} (s : State) (slot frm : Nat) (commit : Bool) (hk : Kept s₀ s) : Kept s₀ (State.deathAck s slot frm commit) := by
  unfold State.deathAck; grind [State.declared_kept, State.filter_kept, → State.filter_kept', kept_mk, kept_iff, = keptOn_iff]

theorem State.execDeathAckReceive_kept {s₀ : State} (slot : Fin 64) (a : DeathAck) (s : State) (hk : Kept s₀ s) : KeptR s₀ (execDeathAckReceive slot a s) := by
  unfold execDeathAckReceive; grind [State.deathAck_kept, kept_mk, kept_iff, = keptOn_iff, keptR_next]

theorem State.relayAck_kept {s₀ : State} (s : State) (flow frm : Nat) (hk : Kept s₀ s) : Kept s₀ (State.relayAck s flow frm) := by
  unfold State.relayAck; grind [State.ackDeath_kept, State.filter_kept, → State.filter_kept', kept_mk, kept_iff, = keptOn_iff]

theorem State.endRecovering_kept {s₀ : State} (s : State) (hk : Kept s₀ s) : Kept s₀ (State.endRecovering s) := by
  unfold State.endRecovering; grind [kept_mk, kept_iff, = keptOn_iff]

theorem State.resumeHere_kept {s₀ : State} (s : State) (hk : Kept s₀ s) : Kept s₀ (State.resumeHere s) := by
  unfold State.resumeHere
  extract_lets s1 s2 s3
  have h1 : Kept s₀ s1 := State.holdAll_kept _ _ hk
  have h2 : Kept s₀ s2 := kept_ite (State.setGal_kept _ _ h1) h1
  have h3 : Kept s₀ s3 := State.endRecovering_kept _ h2
  split
  · exact State.wardReady_kept _ _ h3
  · exact h3

theorem State.resumeFleet_kept {s₀ : State} (s : State) (hk : Kept s₀ s) : Kept s₀ (State.resumeFleet s) := by
  unfold State.resumeFleet; grind [State.filter_kept, → State.filter_kept', State.headCmd_kept, State.resumeHere_kept, State.tellFill_kept, kept_mk, kept_iff, = keptOn_iff, kept_foldl]

theorem State.tryResume_kept {s₀ : State} (s : State) (hk : Kept s₀ s) : Kept s₀ (State.tryResume s) := by
  unfold State.tryResume; grind [State.filter_kept, → State.filter_kept', State.log_kept, State.resumeFleet_kept, kept_mk, kept_iff, = keptOn_iff]

theorem State.onRestored_kept {s₀ : State} (s : State) (slot : Nat) (hk : Kept s₀ s) : Kept s₀ (State.onRestored s slot) := by
  unfold State.onRestored
  dsimp only
  split
  · exact State.tryResume_kept _ (State.log_kept (kept_congr (State.wardReady_kept _ _ (State.tellFill_kept _ _ _ hk)) rfl rfl rfl rfl rfl rfl))
  · exact State.tryResume_kept _ (kept_congr hk rfl rfl rfl rfl rfl rfl)

theorem State.onReport_kept {s₀ : State} (s : State) (slot ok : Nat) (hk : Kept s₀ s) : Kept s₀ (State.onReport s slot ok) := by
  unfold State.onReport; grind [State.escalate_kept, State.filter_kept, → State.filter_kept', State.log_kept, State.onRestored_kept, State.recoveryWait_kept, State.tellFill_kept, kept_mk, kept_iff, = keptOn_iff]

theorem State.noteReport_kept {s₀ : State} (s : State) (slot ok : Nat) (hk : Kept s₀ s) : Kept s₀ (State.noteReport s slot ok) := by
  unfold State.noteReport; grind [kept_mk, kept_iff, = keptOn_iff]

theorem State.report_kept {s₀ : State} (s : State) (ok : Nat) (hk : Kept s₀ s) : Kept s₀ (State.report s ok) := by
  unfold State.report; grind [State.filter_kept, → State.filter_kept', State.noteReport_kept, State.onReport_kept, State.sendCtl_kept, kept_mk, kept_iff, = keptOn_iff, kept_foldl]

theorem State.onNews_kept {s₀ : State} (s : State) (pk : Packet) (hk : Kept s₀ s) : Kept s₀ (State.onNews s pk) := by
  unfold State.onNews; grind [State.deathAck_kept, State.noteFill_kept, State.noteFresh_kept, State.noteReport_kept, State.onReport_kept, State.relayAck_kept, kept_mk, kept_iff, = keptOn_iff]

theorem State.execAckReceive_kept {s₀ : State} (port : Option (Fin 8)) (pk : Packet) (s : State) (hk : Kept s₀ s) : KeptR s₀ (execAckReceive port pk s) := by
  unfold execAckReceive; grind [State.deathAck_kept, State.noteFill_kept, State.onAck_kept, State.onNews_kept, State.onReport_kept, State.receiveCtl_kept, State.respEff_kept, kept_mk, kept_iff, = keptOn_iff, keptR_next]

theorem State.effRestore_kept {s₀ s : State} (source gen : Nat) (step : BitVec 64) (c : TcdCtx) (hk : Kept s₀ s) : Kept s₀ (effRestore source gen step c s).1 := by
  unfold effRestore; grind [State.beginEscalated_kept, State.beginRestart_kept, State.holdAll_kept, State.refuseCmd_kept, → State.refuseCmd_kept', State.touchPhys_kept, kept_mk, kept_iff, = keptOn_iff]
theorem State.effRestore_kept' {s₀ s t : State} {source gen : Nat} {step : BitVec 64} {c : TcdCtx} {y₀} (e₀ : effRestore source gen step c s = (t, y₀)) (hk : Kept s₀ s) : Kept s₀ t := by
  have := State.effRestore_kept source gen step c hk; rw [e₀] at this; exact this

theorem State.execRestore_kept {s₀ : State} (m : Msg) (source gen : Nat) (step : BitVec 64) (s : State) (hk : Kept s₀ s) : KeptR s₀ (execRestore m source gen step s) := by
  unfold execRestore; grind [State.effRestore_kept, → State.effRestore_kept', State.tcd_kept, kept_mk, kept_iff, = keptOn_iff, keptR_next]

theorem State.restoreReply_kept {s₀ : State} (s : State) (status : Nat) (payload : List Byte) (hk : Kept s₀ s) : Kept s₀ (State.restoreReply s status payload) := by
  unfold State.restoreReply; grind [State.answer_kept, kept_mk, kept_iff, = keptOn_iff]

theorem State.endRestoring_kept {s₀ : State} (s : State) (hk : Kept s₀ s) : Kept s₀ (State.endRestoring s) := by
  unfold State.endRestoring; grind [kept_mk, kept_iff, = keptOn_iff]

theorem State.restoreRefused_kept {s₀ : State} (s : State) (code : Nat) (fs : List EvF) (hk : Kept s₀ s) : Kept s₀ (State.restoreRefused s code fs) := by
  unfold State.restoreRefused; grind [State.holdAll_kept, State.log_kept, State.report_kept, State.restoreReply_kept, kept_mk, kept_iff, = keptOn_iff]

theorem State.staleMirrors_kept {s₀ : State} (s : State) (src : Nat) (hk : Kept s₀ s) : Kept s₀ (State.staleMirrors s src) := by
  unfold State.staleMirrors; grind [State.setStale_kept, kept_mk, kept_iff, = keptOn_iff, kept_foldl]

theorem State.restoreEnd_kept {s₀ : State} (s : State) (obj : Option StoreObj) (hk : Kept s₀ s) : Kept s₀ (State.restoreEnd s obj) := by
  unfold State.restoreEnd
  split
  · exact hk
  · extract_lets -lift s1
    have h1 : Kept s₀ s1 := kept_ite (State.touchPhys_kept _ _ _ _ hk) hk
    clear_value s1
    split
    split
    rename_i e
    have h : Kept s₀ _ := State.endRestoring_kept _ (State.restoreCheck_kept' e h1)
    split
    · exact State.restoreRefused_kept _ _ _ h
    · exact State.report_kept _ _ (State.restoreReply_kept _ _ _ (State.staleMirrors_kept _ _ (State.restoreApply_kept _ _ _ h)))

theorem State.effSlotAssign_kept {s₀ s : State} (slot : Nat) (hash : List Byte) (c : TcdCtx) (hk : Kept s₀ s) : Kept s₀ (effSlotAssign slot hash c s).1 := by
  unfold effSlotAssign; grind [State.restartFleet_kept, State.startFill_kept, kept_mk, kept_iff, = keptOn_iff]

theorem State.effSlotAssign_kept' {s₀ s t : State} {slot : Nat} {hash : List Byte} {c : TcdCtx} {y₀} (e₀ : effSlotAssign slot hash c s = (t, y₀)) (hk : Kept s₀ s) : Kept s₀ t := by
  have := State.effSlotAssign_kept slot hash c hk; rw [e₀] at this; exact this

theorem State.execSlotAssign_kept {s₀ : State} (m : Msg) (slot : Nat) (hash : List Byte) (s : State) (hk : Kept s₀ s) : KeptR s₀ (execSlotAssign m slot hash s) := by
  unfold execSlotAssign; grind [State.effSlotAssign_kept, → State.effSlotAssign_kept', State.tcd_kept, kept_mk, kept_iff, = keptOn_iff, keptR_next]

theorem State.fillPhase_kept {s₀ : State} (s : State) (slot : Nat) (p : FillSt) (hk : Kept s₀ s) : Kept s₀ (State.fillPhase s slot p) := by
  unfold State.fillPhase; grind [State.filter_kept, → State.filter_kept', State.tellFill_kept, kept_mk, kept_iff, = keptOn_iff, kept_foldl]

theorem State.sendFill_kept {s₀ : State} (s : State) (dst kind addr off a n : Nat) (hk : Kept s₀ s) : Kept s₀ (State.sendFill s dst kind addr off a n) := by
  unfold State.sendFill; grind [State.sendReq_kept, State.touchPhys_kept, kept_mk, kept_iff, = keptOn_iff]

theorem State.sendMirror_kept {s₀ : State} (s : State) (slot : Nat) (hk : Kept s₀ s) : Kept s₀ (State.sendMirror s slot) := by
  unfold State.sendMirror; grind [State.filter_kept, → State.filter_kept', State.sendFill_kept, State.sendReq_kept, State.touchPhys_kept, kept_mk, kept_iff, = keptOn_iff, kept_foldl]

theorem State.execFillAttachDone_kept {s₀ : State} (slot : Fin 64) (s : State) (hk : Kept s₀ s) : KeptR s₀ (execFillAttachDone slot s) := by
  unfold execFillAttachDone; grind [State.fillPhase_kept, State.sendMirror_kept, kept_mk, kept_iff, = keptOn_iff, keptR_next]

theorem State.execFillCopyDone_kept {s₀ : State} (slot : Fin 64) (stale : Bool) (s : State) (hk : Kept s₀ s) : KeptR s₀ (execFillCopyDone slot stale s) := by
  unfold execFillCopyDone; grind [State.escalate_kept, State.fillPhase_kept, State.hbmPut_kept, State.holdAll_kept, State.log_kept, kept_mk, kept_iff, = keptOn_iff, kept_foldl, keptR_next]

theorem State.effFleetResume_kept {s₀ s : State} (all : Bool) (c : TcdCtx) (hk : Kept s₀ s) : Kept s₀ (effFleetResume all c s).1 := by
  unfold effFleetResume; grind [State.resumeFleet_kept, State.resumeHere_kept, kept_mk, kept_iff, = keptOn_iff]
theorem State.effFleetResume_kept' {s₀ s t : State} {all : Bool} {c : TcdCtx} {y₀} (e₀ : effFleetResume all c s = (t, y₀)) (hk : Kept s₀ s) : Kept s₀ t := by
  have := State.effFleetResume_kept all c hk; rw [e₀] at this; exact this

theorem State.execFleetResume_kept {s₀ : State} (m : Msg) (all : Bool) (s : State) (hk : Kept s₀ s) : KeptR s₀ (execFleetResume m all s) := by
  unfold execFleetResume; grind [State.effFleetResume_kept, → State.effFleetResume_kept', State.tcd_kept, kept_mk, kept_iff, = keptOn_iff, keptR_next]

end Sys2Proof.Machine
end

