-- ==== Sys2Proof/Laws/KeptComplete.lean ====
section
/-! SUPPORT. What each operation of Machine/Complete.lean keeps. -/
namespace Sys2Proof.Machine
open Sys2Proof

theorem State.armLate_kept {s₀ : State} (s : State) (ep : Nat) (hk : Kept s₀ s) : Kept s₀ (State.armLate s ep) := by
  unfold State.armLate; grind [State.endApply_kept, State.log_kept, kept_mk, kept_iff, = keptOn_iff]

theorem State.clearNorms_kept {s₀ : State} (s : State) (hk : Kept s₀ s) : Kept s₀ (State.clearNorms s) := by
  unfold State.clearNorms; grind [kept_mk, kept_iff, = keptOn_iff]

theorem State.startApplying_kept {s₀ : State} (s : State) (hk : Kept s₀ s) : Kept s₀ (State.startApplying s) := by
  unfold State.startApplying; grind [kept_mk, kept_iff, = keptOn_iff]

theorem State.deviceBoundary_kept {s₀ : State} (s : State) (step ep : Nat) (hk : Kept s₀ s) : Kept s₀ (State.deviceBoundary s step ep) := by
  have h : Kept s₀ (((s.clearNorms.armLate ep).stepStart step).capturePoint step) :=
    State.capturePoint_kept _ _ (State.stepStart_kept _ _ (State.armLate_kept _ _ (State.clearNorms_kept _ hk)))
  exact kept_ite (State.startApplying_kept _ (State.holdAll_kept _ _ h)) h

theorem State.stepEnd_kept {s₀ : State} (s : State) (k : Nat) (hk : Kept s₀ s) : Kept s₀ (State.stepEnd s k) := by
  unfold State.stepEnd; grind [State.deviceBoundary_kept, State.modCell_kept, State.modCore_kept, State.reclock_kept, kept_mk, kept_iff, = keptOn_iff, kept_foldl]

theorem State.endProduct_kept {s₀ : State} (s : State) (k n : Nat) (e : Entry) (o : ArrOp) (hk : Kept s₀ s) : Kept s₀ (State.endProduct s k n e o).1 := by
  unfold State.endProduct; grind [State.modCell_kept, State.setCore_kept, kept_mk, kept_iff, = keptOn_iff]
theorem State.endProduct_kept' {s₀ t : State} {s : State} {k n : Nat} {e : Entry} {o : ArrOp} {y₀} (e₀ : (State.endProduct s k n e o) = (t, y₀)) (hk : Kept s₀ s) : Kept s₀ t := by
  have := State.endProduct_kept s k n e o hk; rw [e₀] at this; exact this

theorem State.endMvp_kept {s₀ : State} (s : State) (k n : Nat) (e : Entry) (hk : Kept s₀ s) : Kept s₀ (State.endMvp s k n e) := by
  unfold State.endMvp; grind [State.blame_kept, State.log_kept, State.markSuspect_kept, State.modCore_kept, State.rcAdd_kept, kept_mk, kept_iff, = keptOn_iff, kept_foldl]

theorem State.endEvents_kept {s₀ : State} (s : State) (k n : Nat) (e : Entry) (hk : Kept s₀ s) : Kept s₀ (State.endEvents s k n e) := by
  unfold State.endEvents; grind [State.fault_kept, State.log_kept, kept_mk, kept_iff, = keptOn_iff, kept_foldl]

theorem State.freeTile_kept {s₀ : State} (s : State) (n : Nat) (e : Entry) (hk : Kept s₀ s) : Kept s₀ (State.freeTile s n e) := by
  unfold State.freeTile
  split
  · exact State.modCore_kept hk
  · exact hk

theorem State.endInstr_kept {s₀ : State} (s : State) (k n : Nat) (e : Entry) (hk : Kept s₀ s) : Kept s₀ (State.endInstr s k n e) := by
  unfold State.endInstr
  extract_lets s1 s2 s3
  have h1 : Kept s₀ s1 := kept_ite (State.modCell_kept hk) hk
  have h2 : Kept s₀ s2 := State.endEvents_kept _ _ _ _ h1
  have h3 : Kept s₀ s3 := State.finish_kept _ _ _ h2
  exact kept_ite (State.stepEnd_kept _ _ h3) h3

theorem State.complete_kept {s₀ : State} (s : State) (k n : Nat) (e : Entry) (hk : Kept s₀ s) : Kept s₀ (State.complete s k n e) := by
  unfold State.complete
  dsimp only
  have check : ∀ (s1 : State) (e1 : Entry), Kept s₀ s1 → Kept s₀ (((if e1.mvu.isSome = true then s1.endMvp k n e1
      else if e1.arrOp.isNone = true then s1.checkEvents k n e1 else s1).freeTile n e1).endInstr k n e1) := fun _ _ h =>
    State.endInstr_kept _ _ _ _ (State.freeTile_kept _ _ _
      (kept_ite (State.endMvp_kept _ _ _ _ h) (kept_ite (State.checkEvents_kept _ _ _ _ h) h)))
  split
  · exact State.raiseFault_kept _ _ _ _ _ _ _ _ (State.modCore_kept (State.modCore_kept hk))
  · split
    · exact check _ _ (State.endProduct_kept _ _ _ _ _ (State.modCore_kept hk))
    · exact check _ _ (State.modCore_kept hk)

theorem State.execInstrComplete_kept {s₀ : State} (core : Fin 48) (stream : Fin 6) (s : State) (hk : Kept s₀ s) : KeptR s₀ (execInstrComplete core stream s) := by
  unfold execInstrComplete; grind [State.complete_kept, kept_mk, kept_iff, = keptOn_iff, keptR_next]

theorem State.endXch_kept {s₀ : State} (s : State) (e : Entry) (hk : Kept s₀ s) : Kept s₀ (State.endXch s e) := by
  unfold State.endXch; grind [State.filter_kept, → State.filter_kept', kept_mk, kept_iff, = keptOn_iff]

theorem State.execDmaComplete_kept {s₀ : State} (core : Fin 48) (ord : Nat) (s : State) (hk : Kept s₀ s) : KeptR s₀ (execDmaComplete core ord s) := by
  unfold execDmaComplete; grind [State.endXch_kept, State.finish_kept, State.modCore_kept, kept_mk, kept_iff, = keptOn_iff, keptR_next]

end Sys2Proof.Machine
end

