-- ==== Sys2Proof/Laws/KeptFault.lean ====
section
/-! SUPPORT. What each operation of Machine/Fault.lean keeps. -/
namespace Sys2Proof.Machine
open Sys2Proof

theorem State.restart_kept {s₀ : State} (s : State) (k n : Nat) (e : Entry) (hk : Kept s₀ s) : Kept s₀ (State.restart s k n e) := by
  unfold State.restart; grind [State.modCore_kept, State.refuse_kept, kept_mk, kept_iff, = keptOn_iff]

theorem State.resumeEntry_kept {s₀ : State} (s : State) (n : Nat) (e : Entry) (hk : Kept s₀ s) : Kept s₀ (State.resumeEntry s n e) := by
  unfold State.resumeEntry; grind [State.modCore_kept, State.rearm_kept, State.restart_kept, State.runLocal_kept, State.runSeal_kept, kept_mk, kept_iff, = keptOn_iff]

theorem State.resumeAll_kept {s₀ : State} (s : State) (k : Nat) (hk : Kept s₀ s) : Kept s₀ (State.resumeAll s k) := by
  unfold State.resumeAll; grind [State.filter_kept, → State.filter_kept', State.resumeEntry_kept, kept_mk, kept_iff, = keptOn_iff, kept_foldl]

theorem State.execFltRetry_kept {s₀ : State} (cell : Fin 16) (us : Nat) (s : State) (hk : Kept s₀ s) : KeptR s₀ (execFltRetry cell us s) := by
  unfold execFltRetry; grind [State.fault_kept, State.log_kept, State.modCell_kept, State.resumeAll_kept, State.startPreempt_kept, kept_mk, kept_iff, = keptOn_iff, kept_foldl, keptR_next]

theorem State.giveUp_kept {s₀ : State} (s : State) (k : Nat) (hk : Kept s₀ s) : Kept s₀ (State.giveUp s k) := by
  unfold State.giveUp; grind [State.startPreempt_kept, kept_mk, kept_iff, = keptOn_iff]

theorem State.execFltGiveup_kept {s₀ : State} (cell : Fin 16) (s : State) (hk : Kept s₀ s) : KeptR s₀ (execFltGiveup cell s) := by
  unfold execFltGiveup; grind [State.giveUp_kept, kept_mk, kept_iff, = keptOn_iff, keptR_next]

theorem State.execFltBudgetExpiry_kept {s₀ : State} (cell : Fin 16) (s : State) (hk : Kept s₀ s) : KeptR s₀ (execFltBudgetExpiry cell s) := by
  unfold execFltBudgetExpiry; grind [State.giveUp_kept, kept_mk, kept_iff, = keptOn_iff, keptR_next]

theorem State.hostPreempt_kept {s₀ : State} (s : State) (k : Nat) (hk : Kept s₀ s) : Kept s₀ (State.hostPreempt s k) := by
  unfold State.hostPreempt; grind [State.startPreempt_kept, kept_mk, kept_iff, = keptOn_iff]

theorem State.execCtxPreempt_kept {s₀ : State} (cell : Fin 16) (s : State) (hk : Kept s₀ s) : KeptR s₀ (execCtxPreempt cell s) := by
  unfold execCtxPreempt; grind [State.hostPreempt_kept, kept_mk, kept_iff, = keptOn_iff, keptR_next]

theorem State.effCellPreempt_kept {s₀ s : State} (cell : Nat) (c : TcdCtx) (hk : Kept s₀ s) : Kept s₀ (effCellPreempt cell c s).1 := by
  unfold effCellPreempt; grind [State.hostPreempt_kept, kept_mk, kept_iff, = keptOn_iff]
theorem State.effCellPreempt_kept' {s₀ s t : State} {cell : Nat} {c : TcdCtx} {y₀} (e₀ : effCellPreempt cell c s = (t, y₀)) (hk : Kept s₀ s) : Kept s₀ t := by
  have := State.effCellPreempt_kept cell c hk; rw [e₀] at this; exact this

theorem State.execCellPreempt_kept {s₀ : State} (m : Msg) (cell : Nat) (s : State) (hk : Kept s₀ s) : KeptR s₀ (execCellPreempt m cell s) := by
  unfold execCellPreempt; grind [State.effCellPreempt_kept, → State.effCellPreempt_kept', State.tcd_kept, kept_mk, kept_iff, = keptOn_iff, keptR_next]

theorem State.saveCore_kept {s₀ : State} (s : State) (k l : Nat) (co : Core) (hk : Kept s₀ s) : Kept s₀ (State.saveCore s k l co) := by
  unfold State.saveCore; grind [State.hbmPut_kept, kept_mk, kept_iff, = keptOn_iff, kept_foldl]

theorem State.execPreemptSaveDone_kept {s₀ : State} (cell : Fin 16) (bad : Bool) (us : Nat) (s : State) (hk : Kept s₀ s) : KeptR s₀ (execPreemptSaveDone cell bad us s) := by
  unfold execPreemptSaveDone
  dsimp only
  refine keptR_ite (keptR_of_next hk) (keptR_ite (keptR_of_next (State.ctxInvalid_kept _ _ _ hk)) (keptR_of_next
    (State.log_kept (State.reclockCell_kept _ _ (State.modCell_kept (State.setValid_kept _ _ _ ?_))))))
  refine kept_foldl _ _ (fun _ _ h => State.modCore_kept h) _ (kept_foldl _ _ (fun _ _ h => State.saveCore_kept _ _ _ _ h) _ ?_)
  exact State.hbmPut_kept _ _ _ _ (State.timeNow_kept (State.modCell_kept hk))

theorem State.startResume_kept {s₀ : State} (s : State) (k : Nat) (hk : Kept s₀ s) : Kept s₀ (State.startResume s k).1 := by
  unfold State.startResume; grind [State.log_kept, State.modCell_kept, State.refuse_kept, State.touchPhys_kept, State.wake_kept, kept_mk, kept_iff, = keptOn_iff]
theorem State.startResume_kept' {s₀ t : State} {s : State} {k : Nat} {y₀} (e₀ : (State.startResume s k) = (t, y₀)) (hk : Kept s₀ s) : Kept s₀ t := by
  have := State.startResume_kept s k hk; rw [e₀] at this; exact this

theorem State.execCtxResume_kept {s₀ : State} (cell : Fin 16) (s : State) (hk : Kept s₀ s) : KeptR s₀ (execCtxResume cell s) := by
  unfold execCtxResume; grind [State.startResume_kept, → State.startResume_kept', kept_mk, kept_iff, = keptOn_iff, keptR_next]

theorem State.effCellResume_kept {s₀ s : State} (cell : Nat) (c : TcdCtx) (hk : Kept s₀ s) : Kept s₀ (effCellResume cell c s).1 := by
  unfold effCellResume; grind [State.startResume_kept, → State.startResume_kept', kept_mk, kept_iff, = keptOn_iff]
theorem State.effCellResume_kept' {s₀ s t : State} {cell : Nat} {c : TcdCtx} {y₀} (e₀ : effCellResume cell c s = (t, y₀)) (hk : Kept s₀ s) : Kept s₀ t := by
  have := State.effCellResume_kept cell c hk; rw [e₀] at this; exact this

theorem State.execCellResume_kept {s₀ : State} (m : Msg) (cell : Nat) (s : State) (hk : Kept s₀ s) : KeptR s₀ (execCellResume m cell s) := by
  unfold execCellResume; grind [State.effCellResume_kept, → State.effCellResume_kept', State.tcd_kept, kept_mk, kept_iff, = keptOn_iff, keptR_next]

theorem State.imageEpochs_kept {s₀ : State} (s : State) (b : List Byte) (hk : Kept s₀ s) : Kept s₀ (State.imageEpochs s b) := by
  unfold State.imageEpochs; grind [State.filter_kept, → State.filter_kept', State.modRdv_kept, kept_mk, kept_iff, = keptOn_iff, kept_foldl]

theorem State.rearmAll_kept {s₀ : State} (s : State) (n : Nat) (hk : Kept s₀ s) : Kept s₀ (State.rearmAll s n) := by
  unfold State.rearmAll; grind [State.filter_kept, → State.filter_kept', State.rearm_kept, kept_mk, kept_iff, = keptOn_iff, kept_foldl]

theorem State.rebuild_kept {s₀ : State} (s : State) (k n : Nat) (e : Entry) (hk : Kept s₀ s) : Kept s₀ (State.rebuild s k n e) := by
  unfold State.rebuild; grind [State.modCore_kept, kept_mk, kept_iff, = keptOn_iff, kept_foldl]

theorem State.rebuildAll_kept {s₀ : State} (s : State) (k n : Nat) (kept : Core) (hk : Kept s₀ s) : Kept s₀ (State.rebuildAll s k n kept) := by
  unfold State.rebuildAll; grind [State.filter_kept, → State.filter_kept', State.rebuild_kept, kept_mk, kept_iff, = keptOn_iff, kept_foldl]

theorem State.execResumeDone_kept {s₀ : State} (cell : Fin 16) (s : State) (hk : Kept s₀ s) : KeptR s₀ (execResumeDone cell s) := by
  unfold execResumeDone
  refine keptR_ite (keptR_of_next hk) ?_
  extract_lets im cores s1 h s2 s3 s4 s5 s6
  refine keptR_ite (keptR_of_next hk) ?_
  have h1 : Kept s₀ s1 := State.readRanges_kept _ _ hk
  have h2 : Kept s₀ s2 := kept_foldl _ _ (fun _ _ g => State.setCore_kept g) _ h1
  have h4 : Kept s₀ s4 := State.modCell_kept (State.imageEpochs_kept _ _ h2)
  have h5 : Kept s₀ s5 := kept_foldl _ _ (fun _ _ g => State.rebuildAll_kept _ _ _ _ g) _ h4
  have h6 : Kept s₀ s6 := State.reclockCell_kept _ _ (State.setValid_kept _ _ _ h5)
  exact keptR_of_next (State.resumeAll_kept _ _ (kept_foldl _ _ (fun _ _ g => State.rearmAll_kept _ _ g) _ (State.log_kept h6)))

theorem State.effCellReset_kept {s₀ s : State} (cell : Nat) (c : TcdCtx) (hk : Kept s₀ s) : Kept s₀ (effCellReset cell c s).1 := by
  unfold effCellReset; grind [State.commandReset_kept, kept_mk, kept_iff, = keptOn_iff]
theorem State.effCellReset_kept' {s₀ s t : State} {cell : Nat} {c : TcdCtx} {y₀} (e₀ : effCellReset cell c s = (t, y₀)) (hk : Kept s₀ s) : Kept s₀ t := by
  have := State.effCellReset_kept cell c hk; rw [e₀] at this; exact this

theorem State.execCellReset_kept {s₀ : State} (m : Msg) (cell : Nat) (s : State) (hk : Kept s₀ s) : KeptR s₀ (execCellReset m cell s) := by
  unfold execCellReset; grind [State.effCellReset_kept, → State.effCellReset_kept', State.tcd_kept, kept_mk, kept_iff, = keptOn_iff, keptR_next]

end Sys2Proof.Machine
end

