-- ==== Sys2Proof/Laws/KeptPlinths.lean ====
section
/-! SUPPORT. What each operation of Machine/Plinths.lean keeps. -/
namespace Sys2Proof.Machine
open Sys2Proof

theorem State.patrol_kept {s₀ : State} (s : State) (pl : Nat) (found : List SectorErr) (hk : Kept s₀ s) : Kept s₀ (State.patrol s pl found) := by
  unfold State.patrol; grind [State.decay_kept, State.meet_kept, kept_mk, kept_iff, = keptOn_iff]

theorem State.execPatrolTimer_kept {s₀ : State} (pl : Fin 20) (found : List SectorErr) (s : State) (hk : Kept s₀ s) : KeptR s₀ (execPatrolTimer pl found s) := by
  unfold execPatrolTimer; grind [State.patrol_kept, kept_mk, kept_iff, = keptOn_iff, keptR_next]

theorem State.execPlcScrub_kept {s₀ : State} (pl : Fin 20) (found : List SectorErr) (s : State) (hk : Kept s₀ s) : KeptR s₀ (execPlcScrub pl found s) := by
  unfold execPlcScrub; grind [State.modPlinth_kept, State.patrol_kept, kept_mk, kept_iff, = keptOn_iff, keptR_next]

theorem State.execPlcFlush_kept {s₀ : State} (pl : Fin 20) (s : State) (hk : Kept s₀ s) : KeptR s₀ (execPlcFlush pl s) := by
  unfold execPlcFlush; grind [State.modPlinth_kept, kept_mk, kept_iff, = keptOn_iff, keptR_next]

theorem State.copyMedia_kept {s₀ : State} (s : State) (pl bound : Nat) (p : Nat → Bool) (hk : Kept s₀ s) : Kept s₀ (State.copyMedia s pl bound p) := by
  unfold State.copyMedia; grind [State.meet_kept, State.modPlinth_kept, kept_mk, kept_iff, = keptOn_iff]

theorem State.execRowRepair_kept {s₀ : State} (pl : Fin 20) (chan bank row : Nat) (s : State) (hk : Kept s₀ s) : KeptR s₀ (execRowRepair pl chan bank row s) := by
  unfold execRowRepair; grind [State.copyMedia_kept, State.filter_kept, → State.filter_kept', State.log_kept, State.modPlinth_kept, kept_mk, kept_iff, = keptOn_iff, keptR_next]

theorem State.execFrameRetire_kept {s₀ : State} (pl : Fin 20) (frame : Nat) (s : State) (hk : Kept s₀ s) : KeptR s₀ (execFrameRetire pl frame s) := by
  unfold execFrameRetire; grind [State.copyMedia_kept, State.log_kept, State.modPlinth_kept, kept_mk, kept_iff, = keptOn_iff, keptR_next]

theorem State.execNoallocLineRelease_kept {s₀ : State} (pl : Fin 20) (line : Nat) (s : State) (hk : Kept s₀ s) : KeptR s₀ (execNoallocLineRelease pl line s) := by
  unfold execNoallocLineRelease; grind [State.filter_kept, → State.filter_kept', State.modPlinth_kept, kept_mk, kept_iff, = keptOn_iff, keptR_next]

theorem State.execRegulatorServe_kept {s₀ : State} (pl : Fin 20) (s : State) (hk : Kept s₀ s) : KeptR s₀ (execRegulatorServe pl s) := by
  unfold execRegulatorServe; grind [State.modPlinth_kept, kept_mk, kept_iff, = keptOn_iff, keptR_next]

theorem State.execXlInval_kept {s₀ : State} (core : Fin 48) (s : State) (hk : Kept s₀ s) : KeptR s₀ (execXlInval core s) := by
  unfold execXlInval; grind [State.modCore_kept, kept_mk, kept_iff, = keptOn_iff, keptR_next]

end Sys2Proof.Machine
end

