-- ==== Sys2Proof/Laws/KeptApply.lean ====
section
/-! SUPPORT. What each operation of Machine/Apply.lean keeps. -/
namespace Sys2Proof.Machine
open Sys2Proof

theorem State.applyCell_kept {s₀ : State} (s : State) (secs : List SecRec) (k : Nat) (hk : Kept s₀ s) : Kept s₀ (State.applyCell s secs k) := by
  unfold State.applyCell; grind [State.modCore_kept, State.setCell_kept, kept_mk, kept_iff, = keptOn_iff, kept_foldl]

theorem State.swapCell_kept {s₀ : State} (s : State) (secs : List SecRec) (k : Nat) (hk : Kept s₀ s) : Kept s₀ (State.swapCell s secs k) := by
  unfold State.swapCell; grind [State.modCore_kept, State.setCell_kept, kept_mk, kept_iff, = keptOn_iff, kept_foldl]

theorem State.reclockAll_kept {s₀ : State} (s : State) (hk : Kept s₀ s) : Kept s₀ (State.reclockAll s) := by
  unfold State.reclockAll; grind [State.reclock_kept, kept_mk, kept_iff, = keptOn_iff, kept_foldl]

theorem State.applyPorts_kept {s₀ : State} (s : State) (secs : List SecRec) (why : Nat) (hk : Kept s₀ s) : Kept s₀ (State.applyPorts s secs why) := by
  unfold State.applyPorts; grind [State.modPort_kept, kept_mk, kept_iff, = keptOn_iff, kept_foldl]

theorem State.remap_kept {s₀ : State} (s : State) (c : Cfg) (hk : Kept s₀ s) : Kept s₀ (State.remap s c) := by
  unfold State.remap
  refine kept_ite hk ?_
  extract_lets -lift f
  refine ⟨hk.1, fun _ => ?_, fun _ => psWf_foldl _ (fun _ _ h => psWf_psAdd _ _ h) _ _ (by decide), hk.2.2.2⟩
  exact tabWf_foldl _ (fun _ _ h => tabWf_tabSet 0 _ _ _ h) _ _ (tabWf_nil 0)

theorem State.applyAll_kept {s₀ : State} (s : State) (secs : List SecRec) (why : Nat) (hk : Kept s₀ s) : Kept s₀ (State.applyAll s secs why) := by
  unfold State.applyAll; grind [State.applyCell_kept, State.applyPorts_kept, State.reclockAll_kept, State.remap_kept, kept_mk, kept_iff, = keptOn_iff, kept_foldl]

end Sys2Proof.Machine
end

