-- ==== Sys2Proof/Laws/KeptResets.lean ====
section
/-! SUPPORT. What each operation of Machine/Resets.lean keeps. -/
namespace Sys2Proof.Machine
open Sys2Proof

theorem State.warmCell_kept {s₀ : State} (s : State) (k : Nat) (hk : Kept s₀ s) : Kept s₀ (State.warmCell s k) := by
  unfold State.warmCell; grind [State.imgTable_kept, State.log_kept, State.setCell_kept, State.setValid_kept, kept_mk, kept_iff, = keptOn_iff, kept_foldl]

theorem State.warmArm_kept {s₀ : State} (s : State) (hk : Kept s₀ s) : Kept s₀ (State.warmArm s) := by
  unfold State.warmArm; grind [State.dropHbm_kept, State.log_kept, kept_mk, kept_iff, = keptOn_iff]

theorem State.reapply_kept {s₀ : State} (s : State) (hk : Kept s₀ s) : Kept s₀ (State.reapply s) := by
  unfold State.reapply; grind [State.applyPorts_kept, State.filter_kept, → State.filter_kept', State.modCore_kept, kept_mk, kept_iff, = keptOn_iff, kept_foldl]

theorem State.startWarm_kept {s₀ : State} (s : State) (cause : Nat) (hk : Kept s₀ s) : Kept s₀ (State.startWarm s cause) := by
  unfold State.startWarm; grind [State.closeAll_kept, State.filter_kept, → State.filter_kept', State.modPlinth_kept, State.modPort_kept, State.warmArm_kept, State.warmCell_kept, kept_mk, kept_iff, = keptOn_iff, kept_foldl]

theorem State.cold_kept {s₀ : State} (s : State) (hk : Kept s₀ s) : Kept s₀ (State.cold s) :=
  ⟨hk.1, fun _ => tabWf_nil 0, fun _ => (show psWf [] = true from rfl), hk.2.2.2.1, hk.2.2.2.2.1, hk.2.2.2.2.2⟩

theorem State.startModule_kept {s₀ : State} (s : State) (cause : Nat) (hk : Kept s₀ s) : Kept s₀ (State.startModule s cause) := by
  unfold State.startModule; grind [State.closeAll_kept, State.cold_kept, kept_mk, kept_iff, = keptOn_iff, Mgmt.count_fuse]

theorem State.startPower_kept {s₀ : State} (s : State) (hk : Kept s₀ s) : Kept s₀ (State.startPower s) := by
  have h := State.cold_kept s hk
  exact ⟨h.1, h.2.1, h.2.2.1, h.2.2.2.1, fun _ g => absurd g (by simp [State.startPower]), h.2.2.2.2.2⟩

end Sys2Proof.Machine
end

