-- ==== Sys2Proof/Laws/KeptTicks.lean ====
section
/-! SUPPORT. What each operation of Machine/Ticks.lean keeps. -/
namespace Sys2Proof.Machine
open Sys2Proof

theorem State.foreseeIssue_kept {s₀ : State} (s : State) (k n l st slot start : Nat) (ws : List (BitVec 128)) (hk : Kept s₀ s) : Kept s₀ (State.foreseeIssue s k n l st slot start ws) := by
  unfold State.foreseeIssue; grind [State.issued_kept, kept_mk, kept_iff, = keptOn_iff]

theorem State.foreseeSlot_kept {s₀ : State} (s : State) (k v start : Nat) (hk : Kept s₀ s) : Kept s₀ (State.foreseeSlot s k v start) := by
  unfold State.foreseeSlot; grind [State.foreseeIssue_kept, kept_mk, kept_iff, = keptOn_iff, kept_foldl]

theorem State.foresee_kept {s₀ : State} (s : State) (k : Nat) (hk : Kept s₀ s) : Kept s₀ (State.foresee s k) := by
  unfold State.foresee; grind [State.foreseeSlot_kept, kept_mk, kept_iff, = keptOn_iff]

theorem State.fetch_kept {s₀ : State} (s : State) (k v : Nat) (hk : Kept s₀ s) : Kept s₀ (State.fetch s k v) := by
  unfold State.fetch; grind [State.touchPhys_kept, kept_mk, kept_iff, = keptOn_iff, kept_foldl]

theorem State.fetchFault_kept {s₀ : State} (s : State) (k : Nat) (hk : Kept s₀ s) : Kept s₀ (State.fetchFault s k) := by
  unfold State.fetchFault; grind [State.fault_kept, State.fetch_kept, kept_mk, kept_iff, = keptOn_iff]

theorem State.lateHold_kept {s₀ : State} (s : State) (k : Nat) (hk : Kept s₀ s) : Kept s₀ (State.lateHold s k) := by
  unfold State.lateHold; grind [State.setCell_kept, kept_mk, kept_iff, = keptOn_iff]

theorem State.execTickDecision_kept {s₀ : State} (cell : Fin 16) (late : Option (Fin 48)) (s : State) (hk : Kept s₀ s) : KeptR s₀ (execTickDecision cell late s) := by
  unfold execTickDecision; grind [State.fetchFault_kept, State.lateHold_kept, State.modCore_kept, State.setCell_kept, kept_mk, kept_iff, = keptOn_iff, kept_foldl, keptR_next]

end Sys2Proof.Machine
end

