-- ==== Sys2Proof/Laws/KeptPatina.lean ====
section
/-! SUPPORT. What each operation of Machine/Patina.lean keeps. -/
namespace Sys2Proof.Machine
open Sys2Proof

theorem State.copyLog_kept {s₀ : State} (s : State) (hk : Kept s₀ s) : Kept s₀ (State.copyLog s) := hk

theorem State.execEvtLogCopyTimer_kept {s₀ : State} (s : State) (hk : Kept s₀ s) : KeptR s₀ (execEvtLogCopyTimer s) := by
  unfold execEvtLogCopyTimer; grind [State.copyLog_kept, State.flashWritten_kept, kept_mk, kept_iff, = keptOn_iff, keptR_next]

theorem State.execSuppressionWindowClose_kept {s₀ : State} (code : BitVec 16) (kind inst : Nat) (s : State) (hk : Kept s₀ s) : KeptR s₀ (execSuppressionWindowClose code kind inst s) := by
  unfold execSuppressionWindowClose; grind [State.filter_kept, → State.filter_kept', State.log_kept, kept_mk, kept_iff, = keptOn_iff, keptR_next]

theorem State.patFlush_kept {s₀ : State} (s : State) (extra : Tab Nat) (hk : Kept s₀ s) : Kept s₀ (State.patFlush s extra) := by
  unfold State.patFlush; grind [State.timeNow_kept, → State.timeNow_kept', kept_mk, kept_iff, = keptOn_iff, kept_foldl, Mgmt.count_fuse]

theorem State.patCommit_kept {s₀ : State} (s : State) (hk : Kept s₀ s) : Kept s₀ (State.patCommit s) := by
  unfold State.patCommit; grind [State.flashWritten_kept, kept_mk, kept_iff, = keptOn_iff]

theorem State.patinaWrite_kept {s₀ : State} (s : State) (hk : Kept s₀ s) : Kept s₀ (State.patinaWrite s) := by
  unfold State.patinaWrite; grind [State.patCommit_kept, State.patFlush_kept, kept_mk, kept_iff, = keptOn_iff]

theorem State.execPatinaWriteTimer_kept {s₀ : State} (s : State) (hk : Kept s₀ s) : KeptR s₀ (execPatinaWriteTimer s) := by
  unfold execPatinaWriteTimer
  dsimp only
  refine keptR_ite (keptR_of_next hk) (keptR_of_next (State.patCommit_kept _ (State.patFlush_kept _ _ ?_)))
  refine kept_foldl _ _ (fun _ _ h => State.modPlinth_kept h) _ (kept_foldl _ _ (fun _ _ h => State.modCore_kept h) _ ?_)
  exact kept_congr hk rfl rfl rfl rfl rfl rfl

end Sys2Proof.Machine
end

