-- ==== Sys2Proof/Laws/KeptArmature.lean ====
section
/-! SUPPORT. What each operation of Machine/Armature.lean keeps. -/
namespace Sys2Proof.Machine
open Sys2Proof

theorem State.armIdle_kept {s₀ : State} (s : State) (hk : Kept s₀ s) : Kept s₀ (State.armIdle s) := by
  unfold State.armIdle; grind [State.dropHbm_kept, kept_mk, kept_iff, = keptOn_iff]

theorem State.armAbort_kept {s₀ : State} (s : State) (hk : Kept s₀ s) : Kept s₀ (State.armAbort s) := by
  unfold State.armAbort; grind [State.armIdle_kept, State.endApply_kept, State.log_kept, kept_mk, kept_iff, = keptOn_iff]

theorem State.armAck_kept {s₀ : State} (s : State) (st : Nat) (payload : List Byte) (hk : Kept s₀ s) : Kept s₀ (State.armAck s st payload).1 := by
  unfold State.armAck; grind [kept_mk, kept_iff, = keptOn_iff]
theorem State.armAck_kept' {s₀ t : State} {s : State} {st : Nat} {payload : List Byte} {y₀} (e₀ : (State.armAck s st payload) = (t, y₀)) (hk : Kept s₀ s) : Kept s₀ t := by
  have := State.armAck_kept s st payload hk; rw [e₀] at this; exact this

theorem State.armRefuse_kept {s₀ : State} (s : State) (code : Nat) (fs : List EvF) (hk : Kept s₀ s) : Kept s₀ (State.armRefuse s code fs).1 := by
  unfold State.armRefuse; grind [State.armAck_kept, → State.armAck_kept', State.log_kept, kept_mk, kept_iff, = keptOn_iff]
theorem State.armRefuse_kept' {s₀ t : State} {s : State} {code : Nat} {fs : List EvF} {y₀} (e₀ : (State.armRefuse s code fs) = (t, y₀)) (hk : Kept s₀ s) : Kept s₀ t := by
  have := State.armRefuse_kept s code fs hk; rw [e₀] at this; exact this

theorem State.armReply_kept {s₀ : State} (s : State) (st : Nat) (payload : List Byte) (hk : Kept s₀ s) : Kept s₀ (State.armReply s st payload) := by
  unfold State.armReply; grind [State.answer_kept, kept_mk, kept_iff, = keptOn_iff]

theorem State.effArmBegin_kept {s₀ s : State} (total : Nat) (c : TcdCtx) (hk : Kept s₀ s) : Kept s₀ (effArmBegin total c s).1 := by
  unfold effArmBegin; grind [State.armAbort_kept, State.armAck_kept, → State.armAck_kept', State.armRefuse_kept, → State.armRefuse_kept', kept_mk, kept_iff, = keptOn_iff]
theorem State.effArmBegin_kept' {s₀ s t : State} {total : Nat} {c : TcdCtx} {y₀} (e₀ : effArmBegin total c s = (t, y₀)) (hk : Kept s₀ s) : Kept s₀ t := by
  have := State.effArmBegin_kept total c hk; rw [e₀] at this; exact this

theorem State.execArmBegin_kept {s₀ : State} (m : Msg) (total : Nat) (s : State) (hk : Kept s₀ s) : KeptR s₀ (execArmBegin m total s) := by
  unfold execArmBegin; grind [State.effArmBegin_kept, → State.effArmBegin_kept', State.tcd_kept, kept_mk, kept_iff, = keptOn_iff, keptR_next]

theorem State.effArmData_kept {s₀ s : State} (offset : Nat) (data : List Byte) (c : TcdCtx) (hk : Kept s₀ s) : Kept s₀ (effArmData offset data c s).1 := by
  unfold effArmData; grind [State.armAck_kept, → State.armAck_kept', State.armRefuse_kept, → State.armRefuse_kept', State.hbmWrite_kept, State.touchPhys_kept, kept_mk, kept_iff, = keptOn_iff]
theorem State.effArmData_kept' {s₀ s t : State} {offset : Nat} {data : List Byte} {c : TcdCtx} {y₀} (e₀ : effArmData offset data c s = (t, y₀)) (hk : Kept s₀ s) : Kept s₀ t := by
  have := State.effArmData_kept offset data c hk; rw [e₀] at this; exact this

theorem State.execArmData_kept {s₀ : State} (m : Msg) (offset : Nat) (data : List Byte) (s : State) (hk : Kept s₀ s) : KeptR s₀ (execArmData m offset data s) := by
  unfold execArmData; grind [State.effArmData_kept, → State.effArmData_kept', State.tcd_kept, kept_mk, kept_iff, = keptOn_iff, keptR_next]

theorem State.effArmCommit_kept {s₀ s : State} (mode : Nat) (cells : BitVec 16) (epoch : BitVec 32) (c : TcdCtx) (hk : Kept s₀ s) : Kept s₀ (effArmCommit mode cells epoch c s).1 := by
  unfold effArmCommit; grind [State.armAck_kept, → State.armAck_kept', State.armRefuse_kept, → State.armRefuse_kept', kept_mk, kept_iff, = keptOn_iff]
theorem State.effArmCommit_kept' {s₀ s t : State} {mode : Nat} {cells : BitVec 16} {epoch : BitVec 32} {c : TcdCtx} {y₀} (e₀ : effArmCommit mode cells epoch c s = (t, y₀)) (hk : Kept s₀ s) : Kept s₀ t := by
  have := State.effArmCommit_kept mode cells epoch c hk; rw [e₀] at this; exact this

theorem State.execArmCommit_kept {s₀ : State} (m : Msg) (mode : Nat) (cells : BitVec 16) (epoch : BitVec 32) (s : State) (hk : Kept s₀ s) : KeptR s₀ (execArmCommit m mode cells epoch s) := by
  unfold execArmCommit; grind [State.effArmCommit_kept, → State.effArmCommit_kept', State.tcd_kept, kept_mk, kept_iff, = keptOn_iff, keptR_next]

theorem State.effArmCancel_kept {s₀ s : State}  (c : TcdCtx) (hk : Kept s₀ s) : Kept s₀ (effArmCancel  c s).1 := by
  unfold effArmCancel; grind [State.armAbort_kept, State.armAck_kept, → State.armAck_kept', State.armRefuse_kept, → State.armRefuse_kept', kept_mk, kept_iff, = keptOn_iff]
theorem State.effArmCancel_kept' {s₀ s t : State}  {c : TcdCtx} {y₀} (e₀ : effArmCancel  c s = (t, y₀)) (hk : Kept s₀ s) : Kept s₀ t := by
  have := State.effArmCancel_kept  c hk; rw [e₀] at this; exact this

theorem State.execArmCancel_kept {s₀ : State} (m : Msg) (s : State) (hk : Kept s₀ s) : KeptR s₀ (execArmCancel m s) := by
  unfold execArmCancel; grind [State.effArmCancel_kept, → State.effArmCancel_kept', State.tcd_kept, kept_mk, kept_iff, = keptOn_iff, keptR_next]

theorem State.execArmReceiveTimeout_kept {s₀ : State} (s : State) (hk : Kept s₀ s) : KeptR s₀ (execArmReceiveTimeout s) := by
  unfold execArmReceiveTimeout; grind [State.armAbort_kept, kept_mk, kept_iff, = keptOn_iff, keptR_next]

theorem State.verifyFail_kept {s₀ : State} (s : State) (reason : Nat) (hk : Kept s₀ s) : Kept s₀ (State.verifyFail s reason) := by
  unfold State.verifyFail; grind [State.armIdle_kept, State.armReply_kept, State.log_kept, kept_mk, kept_iff, = keptOn_iff]

theorem State.verified_kept {s₀ : State} (s : State) (raw : List Byte) (hk : Kept s₀ s) : Kept s₀ (State.verified s raw) := by
  unfold State.verified; grind [State.armIdle_kept, State.armReply_kept, State.commandReset_kept, State.filter_kept, → State.filter_kept', State.log_kept, State.modCell_kept, State.resetCell_kept, State.startWarm_kept, kept_mk, kept_iff, = keptOn_iff, kept_foldl]

theorem State.verifyDone_kept {s₀ : State} (s : State) (hk : Kept s₀ s) : Kept s₀ (State.verifyDone s) := by
  unfold State.verifyDone; grind [State.touchPhys_kept, State.verified_kept, State.verifyFail_kept, kept_mk, kept_iff, = keptOn_iff]

theorem State.retrainPorts_kept {s₀ : State} (s : State) (hk : Kept s₀ s) : Kept s₀ (State.retrainPorts s) := by
  unfold State.retrainPorts; grind [State.filter_kept, → State.filter_kept', State.portDown_kept, kept_mk, kept_iff, = keptOn_iff, kept_foldl]

theorem State.putInForce_kept {s₀ : State} (s : State) (secs : List SecRec) (hk : Kept s₀ s) : Kept s₀ (State.putInForce s secs) := by
  unfold State.putInForce; grind [State.applyAll_kept, State.applyCell_kept, State.filter_kept, → State.filter_kept', State.reclockAll_kept, State.retrainPorts_kept, State.swapCell_kept, kept_mk, kept_iff, = keptOn_iff, kept_foldl]

theorem State.applied_kept {s₀ : State} (s : State) (raw : List Byte) (x : Armature) (hk : Kept s₀ s) : Kept s₀ (State.applied s raw x) := by
  have h : Kept s₀ ((((s.putInForce x.secs).touchPhys armBase raw.length true).dropHbm armBase armAreaLen).hbmWrite armBase raw false) :=
    State.hbmWrite_kept (State.dropHbm_kept (State.touchPhys_kept _ _ _ _ (State.putInForce_kept _ _ hk)))
  exact State.armReply_kept _ _ _ (State.wake_kept _ (State.endApply_kept _ (State.armIdle_kept _
    (State.log_kept (kept_congr h rfl rfl rfl rfl rfl rfl)))))

theorem State.applyFail_kept {s₀ : State} (s : State) (kind inst : Nat) (hk : Kept s₀ s) : Kept s₀ (State.applyFail s kind inst) := by
  unfold State.applyFail; grind [State.armIdle_kept, State.armReply_kept, State.endApply_kept, State.log_kept, State.reapply_kept, kept_mk, kept_iff, = keptOn_iff]

theorem State.applyDone_kept {s₀ : State} (s : State) (err : Option (Nat × Nat)) (hk : Kept s₀ s) : Kept s₀ (State.applyDone s err) := by
  unfold State.applyDone; grind [State.applied_kept, State.applyFail_kept, State.touchPhys_kept, kept_mk, kept_iff, = keptOn_iff]

theorem State.execArmPersistDone_kept {s₀ : State} (s : State) (hk : Kept s₀ s) : KeptR s₀ (execArmPersistDone s) := by
  unfold execArmPersistDone; grind [State.flashWritten_kept, kept_mk, kept_iff, = keptOn_iff, keptR_next]

end Sys2Proof.Machine
end

