-- ==== Sys2Proof/Laws/KeptBoot.lean ====
section
/-! SUPPORT. What each operation of Machine/Boot.lean keeps. -/
namespace Sys2Proof.Machine
open Sys2Proof

theorem State.setPwrgd_kept {s₀ : State} (s : State) (b : Bool) (hk : Kept s₀ s) : Kept s₀ (State.setPwrgd s b) := by
  unfold State.setPwrgd; grind [State.emit_kept, kept_mk, kept_iff, = keptOn_iff]

theorem State.railsOff_kept {s₀ : State} (s : State) (hk : Kept s₀ s) : Kept s₀ (State.railsOff s) := by
  unfold State.railsOff; grind [State.setPwrgd_kept, kept_mk, kept_iff, = keptOn_iff]

theorem State.execAonPowerUp_kept {s₀ : State} (s : State) (hk : Kept s₀ s) : KeptR s₀ (execAonPowerUp s) := by
  unfold execAonPowerUp; grind [State.railsOff_kept, State.startPower_kept, kept_mk, kept_iff, = keptOn_iff, keptR_next]

theorem State.execMrstAssert_kept {s₀ : State} (us : Nat) (s : State) (hk : Kept s₀ s) : KeptR s₀ (execMrstAssert us s) := by
  unfold execMrstAssert; grind [State.startModule_kept, kept_mk, kept_iff, = keptOn_iff, keptR_next]

theorem State.execWatchdogExpiry_kept {s₀ : State} (s : State) (hk : Kept s₀ s) : KeptR s₀ (execWatchdogExpiry s) := by
  unfold execWatchdogExpiry; grind [State.startModule_kept, kept_mk, kept_iff, = keptOn_iff, keptR_next]

theorem State.execSramUe_kept {s₀ : State} (s : State) (hk : Kept s₀ s) : KeptR s₀ (execSramUe s) := by
  unfold execSramUe; grind [kept_mk, kept_iff, = keptOn_iff, keptR_next, Mgmt.count_fuse]

theorem State.endRemoval_kept {s₀ : State} (s : State) (hk : Kept s₀ s) : Kept s₀ (State.endRemoval s) := by
  unfold State.endRemoval; grind [kept_mk, kept_iff, = keptOn_iff]

theorem State.noteTrip_kept {s₀ : State} (s : State) (r : TripReading) (hk : Kept s₀ s) : Kept s₀ (State.noteTrip s r) := by
  unfold State.noteTrip; grind [kept_mk, kept_iff, = keptOn_iff]

theorem State.holdTrip_kept {s₀ : State} (s : State) (hk : Kept s₀ s) : Kept s₀ (State.holdTrip s) := by
  unfold State.holdTrip; grind [kept_mk, kept_iff, = keptOn_iff]

theorem State.execThermalTrip_kept {s₀ : State} (readings : List TripReading) (s : State) (hk : Kept s₀ s) : KeptR s₀ (execThermalTrip readings s) := by
  unfold execThermalTrip
  split
  · exact keptR_of_next hk
  · exact keptR_ite (keptR_of_next hk) (keptR_of_next (State.holdTrip_kept _ (State.railsOff_kept _ (State.startModule_kept _ _ (State.endRemoval_kept _ (State.noteTrip_kept _ _ hk))))))

theorem State.execThermalTripRailRestore_kept {s₀ : State} (s : State) (hk : Kept s₀ s) : KeptR s₀ (execThermalTripRailRestore s) := by
  unfold execThermalTripRailRestore; grind [State.setPwrgd_kept, kept_mk, kept_iff, = keptOn_iff, keptR_next]

theorem State.execOverVoltage_kept {s₀ : State} (s : State) (hk : Kept s₀ s) : KeptR s₀ (execOverVoltage s) := by
  unfold execOverVoltage
  exact keptR_let (State.railsOff_kept _ (State.startModule_kept _ _ (State.endRemoval_kept _ hk))) (fun _ h => keptR_of_next h)

theorem State.execOverVoltageClear_kept {s₀ : State} (s : State) (hk : Kept s₀ s) : KeptR s₀ (execOverVoltageClear s) := by
  unfold execOverVoltageClear; grind [kept_mk, kept_iff, = keptOn_iff, keptR_next]

theorem State.execBootTimeout_kept {s₀ : State} (s : State) (hk : Kept s₀ s) : KeptR s₀ (execBootTimeout s) := by
  unfold execBootTimeout; grind [State.startModule_kept, kept_mk, kept_iff, = keptOn_iff, keptR_next, Mgmt.count_fuse]

theorem State.stageLog_kept {s₀ : State} (s : State) (cause : Nat) (hk : Kept s₀ s) : Kept s₀ (State.stageLog s cause) := by
  unfold State.stageLog; grind [State.log_kept, kept_mk, kept_iff, = keptOn_iff]

theorem State.stageFail_kept {s₀ : State} (s : State) (cause : Nat) (hk : Kept s₀ s) : Kept s₀ (State.stageFail s cause) := by
  unfold State.stageFail; grind [State.stageLog_kept, kept_mk, kept_iff, = keptOn_iff]

theorem State.stage1_kept {s₀ : State} (s : State) (extRef : Bool) (hk : Kept s₀ s) : Kept s₀ (State.stage1 s extRef) := by
  unfold State.stage1; grind [kept_mk, kept_iff, = keptOn_iff]

theorem State.enterRecovery_kept {s₀ : State} (s : State) (hk : Kept s₀ s) : Kept s₀ (State.enterRecovery s) := by
  unfold State.enterRecovery; grind [State.log_kept, kept_mk, kept_iff, = keptOn_iff]

theorem State.strapEvents_kept {s₀ : State} (s : State) (hk : Kept s₀ s) : Kept s₀ (State.strapEvents s) := by
  unfold State.strapEvents; grind [State.log_kept, kept_mk, kept_iff, = keptOn_iff]

theorem State.firmwareStart_kept {s₀ : State} (s : State) (hk : Kept s₀ s) : Kept s₀ (State.firmwareStart s) := by
  unfold State.firmwareStart; grind [State.log_kept, State.strapEvents_kept, kept_mk, kept_iff, = keptOn_iff]

theorem State.stage2_kept {s₀ : State} (s : State) (hk : Kept s₀ s) : Kept s₀ (State.stage2 s) := by
  unfold State.stage2; grind [State.enterRecovery_kept, State.firmwareStart_kept, State.setPwrgd_kept, State.strapEvents_kept, kept_mk, kept_iff, = keptOn_iff]

theorem State.replanRate_kept {s₀ : State} (s : State) (st : Nat) (hk : Kept s₀ s) : Kept s₀ (State.replanRate s st) := by
  unfold State.replanRate; grind [State.log_kept, State.modPlinth_kept, State.timeNow_kept, → State.timeNow_kept', kept_mk, kept_iff, = keptOn_iff]

theorem State.stage3_kept {s₀ : State} (s : State) (fail : Option Nat) (hk : Kept s₀ s) : Kept s₀ (State.stage3 s fail) := by
  unfold State.stage3; grind [State.modPlinth_kept, State.replanRate_kept, State.stageFail_kept, State.stageLog_kept, kept_mk, kept_iff, = keptOn_iff, kept_foldl]

theorem State.bootForce_kept {s₀ : State} (s : State) (raw : List Byte) (x : Armature) (hk : Kept s₀ s) : Kept s₀ (State.bootForce s raw x) := by
  unfold State.bootForce; grind [kept_mk, kept_iff, = keptOn_iff]

theorem State.bootArm_kept {s₀ : State} (s : State) (hk : Kept s₀ s) : Kept s₀ (State.bootArm s) := by
  unfold State.bootArm
  split
  · exact hk
  · exact State.log_kept (State.bootForce_kept _ _ _ (State.hbmWrite_kept (State.touchPhys_kept _ _ _ _ (State.applyAll_kept _ _ _ hk))))

theorem State.stage5_kept {s₀ : State} (s : State) (hk : Kept s₀ s) : Kept s₀ (State.stage5 s) := by
  unfold State.stage5; grind [State.bootArm_kept, State.reapply_kept, State.reclockAll_kept, kept_mk, kept_iff, = keptOn_iff]

theorem State.goOperational_kept {s₀ : State} (s : State) (hk : Kept s₀ s) : Kept s₀ (State.goOperational s) := by
  have h1 : Kept s₀ (({ s with rst := { s.rst with stage := 8, bcount := 0, journal := 0 } } : State).holdAll (fun h => { h with warm := false })) :=
    State.holdAll_kept _ _ hk
  unfold State.goOperational
  dsimp only
  split
  · rename_i g
    refine State.log_kept ⟨h1.1, h1.2.1, h1.2.2.1, ?_, h1.2.2.2.2⟩
    refine Nat.le_trans h1.2.2.2.1 ?_
    simp only [BitVec.toNat_ofNat]
    omega
  · exact h1

theorem State.execResetStageDone_kept {s₀ : State} (extRef : Bool) (fail : Option Nat) (s : State) (hk : Kept s₀ s) : KeptR s₀ (execResetStageDone extRef fail s) := by
  unfold execResetStageDone
  refine keptR_ite (keptR_of_next hk) (keptR_ite (keptR_of_next hk) (keptR_ite (keptR_of_next (State.stage1_kept _ _ hk))
    (keptR_ite (keptR_of_next (State.stage2_kept _ hk)) (keptR_ite (keptR_of_next hk)
    (keptR_ite (keptR_of_next (State.stage3_kept _ _ hk)) ?_)))))
  split
  · exact keptR_of_next (State.stageFail_kept _ _ hk)
  · exact keptR_ite (keptR_of_next (State.stage5_kept _ hk)) (keptR_ite (keptR_of_next (State.goOperational_kept _ hk))
      (keptR_of_next (kept_congr hk rfl rfl rfl rfl rfl rfl)))

theorem State.execResetStageTimeout_kept {s₀ : State} (cause : Nat) (s : State) (hk : Kept s₀ s) : KeptR s₀ (execResetStageTimeout cause s) := by
  unfold execResetStageTimeout; grind [State.stageFail_kept, kept_mk, kept_iff, = keptOn_iff, keptR_next]

theorem State.execBlockResetRequest_kept {s₀ : State} (block : BitVec 8) (s : State) (hk : Kept s₀ s) : KeptR s₀ (execBlockResetRequest block s) := by
  unfold execBlockResetRequest; grind [State.commandReset_kept, State.log_kept, State.resetCell_kept, kept_mk, kept_iff, = keptOn_iff, keptR_next]

theorem psWf_poisonDirty (p : PSet) (ls : List SlLine) (h : psWf p = true) : psWf (poisonDirty p ls) = true :=
  psWf_foldl _ (fun _ _ g => psWf_psPutRange _ _ _ _ g) _ _ h

theorem State.resetPlinth_kept {s₀ : State} (s : State) (p : Nat) (idle : Bool) (hk : Kept s₀ s) : Kept s₀ (State.resetPlinth s p idle) := by
  unfold State.resetPlinth
  cases idle
  · exact State.modPlinth_kept ⟨hk.1, hk.2.1, fun g => psWf_poisonDirty _ _ (hk.2.2.1 g), hk.2.2.2⟩
  · exact State.modPlinth_kept hk

theorem State.resetFlash_kept {s₀ : State} (s : State) (hk : Kept s₀ s) : Kept s₀ (State.resetFlash s) := by
  unfold State.resetFlash; grind [State.abortUpload_kept, State.log_kept, kept_mk, kept_iff, = keptOn_iff]

theorem State.resetBlock_kept {s₀ : State} (s : State) (b : Nat) (idle : Bool) (hk : Kept s₀ s) : Kept s₀ (State.resetBlock s b idle) := by
  unfold State.resetBlock; grind [State.closeAll_kept, State.filter_kept, → State.filter_kept', State.modCore_kept, State.modEth_kept, State.portDown_kept, State.requesterFails_kept, State.resetFlash_kept, State.resetPlinth_kept, psWf_poisonDirty, kept_mk, kept_iff, = keptOn_iff, kept_foldl]

theorem State.lateElem_kept {s₀ : State} (s : State) (b n : Nat) (e : Entry) (i off : Nat) (hk : Kept s₀ s) : Kept s₀ (State.lateElem s b n e i off) := by
  unfold State.lateElem
  dsimp only
  split
  · exact hk
  · split
    · exact hk
    · split
      · exact State.place_kept' (by assumption) hk
      · split
        · exact State.place_kept' (by assumption) (State.place_kept' (by assumption) hk)
        · have h := State.place_kept' (by assumption) (State.place_kept' (by assumption) hk)
          exact kept_ite (State.modCore_kept (State.pput_kept _ _ _ (State.ptouch_kept _ _ _ (State.ptouch_kept _ _ _ h)))) h

theorem State.straggler_kept {s₀ : State} (s : State) (b : Nat) (hk : Kept s₀ s) : Kept s₀ (State.straggler s b) := by
  unfold State.straggler; grind [State.lateElem_kept, kept_mk, kept_iff, = keptOn_iff]

theorem State.execBlockQuiesceEnd_kept {s₀ : State} (block : BitVec 8) (idle : Bool) (outstanding : Nat) (s : State) (hk : Kept s₀ s) : KeptR s₀ (execBlockQuiesceEnd block idle outstanding s) := by
  unfold execBlockQuiesceEnd; grind [State.filter_kept, → State.filter_kept', State.log_kept, State.resetBlock_kept, State.straggler_kept, kept_mk, kept_iff, = keptOn_iff, kept_foldl, keptR_next]

end Sys2Proof.Machine
end

