-- ==== Sys2Proof/Laws/KeptSupply.lean ====
section
/-! SUPPORT. What each operation of Machine/Supply.lean keeps. -/
namespace Sys2Proof.Machine
open Sys2Proof

theorem State.supplyHold_kept {s₀ : State} (s : State) (b : Bool) (hk : Kept s₀ s) : Kept s₀ (State.supplyHold s b) := by
  unfold State.supplyHold; grind [State.modCell_kept, kept_mk, kept_iff, = keptOn_iff, kept_foldl]

theorem State.halve_kept {s₀ : State} (s : State) (b : Bool) (hk : Kept s₀ s) : Kept s₀ (State.halve s b) := by
  unfold State.halve; grind [State.modCore_kept, State.reclockAll_kept, kept_mk, kept_iff, = keptOn_iff, kept_foldl]

theorem State.execSupplyWarning_kept {s₀ : State} (vin : BitVec 16) (s : State) (hk : Kept s₀ s) : KeptR s₀ (execSupplyWarning vin s) := by
  unfold execSupplyWarning; grind [State.halve_kept, State.supplyHold_kept, kept_mk, kept_iff, = keptOn_iff, keptR_next]

theorem State.execVinBelowRecovery_kept {s₀ : State} (vin : BitVec 16) (s : State) (hk : Kept s₀ s) : KeptR s₀ (execVinBelowRecovery vin s) := by
  unfold execVinBelowRecovery; grind [kept_mk, kept_iff, = keptOn_iff, keptR_next]

theorem State.execSupplyRecoveryTimer_kept {s₀ : State} (us : Nat) (s : State) (hk : Kept s₀ s) : KeptR s₀ (execSupplyRecoveryTimer us s) := by
  unfold execSupplyRecoveryTimer; grind [State.filter_kept, → State.filter_kept', State.halve_kept, State.log_kept, State.startHeighten_kept, State.supplyHold_kept, kept_mk, kept_iff, = keptOn_iff, kept_foldl, keptR_next]

theorem State.execSupplyResetLevel_kept {s₀ : State} (s : State) (hk : Kept s₀ s) : KeptR s₀ (execSupplyResetLevel s) := by
  have h := State.railsOff_kept _ (State.startPower_kept _ (State.endRemoval_kept _ hk))
  exact keptR_of_next (kept_congr h rfl rfl rfl rfl rfl rfl)

theorem State.execAonLevelLoss_kept {s₀ : State} (s : State) (hk : Kept s₀ s) : KeptR s₀ (execAonLevelLoss s) := by
  have h := State.railsOff_kept _ (State.startPower_kept _ hk)
  exact keptR_of_next ⟨h.1, h.2.1, h.2.2.1, h.2.2.2.1, h.2.2.2.2.1, fun _ => Nat.zero_le _⟩

theorem State.execPwrVminclr_kept {s₀ : State} (s : State) (hk : Kept s₀ s) : KeptR s₀ (execPwrVminclr s) := by
  unfold execPwrVminclr; grind [kept_mk, kept_iff, = keptOn_iff, keptR_next]

theorem State.insert_kept {s₀ : State} (s : State) (hk : Kept s₀ s) : Kept s₀ (State.insert s) := by
  unfold State.insert; grind [State.startModule_kept, kept_mk, kept_iff, = keptOn_iff]

theorem State.execPresenceDetect_kept {s₀ : State} (s : State) (hk : Kept s₀ s) : KeptR s₀ (execPresenceDetect s) := by
  unfold execPresenceDetect; grind [kept_mk, kept_iff, = keptOn_iff, keptR_next]

theorem State.execEnAssert_kept {s₀ : State} (s : State) (hk : Kept s₀ s) : KeptR s₀ (execEnAssert s) := by
  unfold execEnAssert; grind [State.insert_kept, kept_mk, kept_iff, = keptOn_iff, keptR_next]

theorem State.execEnHoldoffExpiry_kept {s₀ : State} (s : State) (hk : Kept s₀ s) : KeptR s₀ (execEnHoldoffExpiry s) := by
  unfold execEnHoldoffExpiry; grind [State.insert_kept, kept_mk, kept_iff, = keptOn_iff, keptR_next]

theorem State.execEnReinsertDelay_kept {s₀ : State} (s : State) (hk : Kept s₀ s) : KeptR s₀ (execEnReinsertDelay s) := by
  unfold execEnReinsertDelay; grind [State.insert_kept, kept_mk, kept_iff, = keptOn_iff, keptR_next]

theorem State.execPwrgdTimeout_kept {s₀ : State} (s : State) (hk : Kept s₀ s) : KeptR s₀ (execPwrgdTimeout s) := by
  unfold execPwrgdTimeout
  refine keptR_ite (keptR_of_next hk) ?_
  extract_lets rails s1 s2
  have h1 : Kept s₀ s1 := State.railsOff_kept _ (kept_congr hk rfl rfl rfl rfl rfl rfl)
  exact keptR_of_next (State.log_kept (kept_congr h1 rfl rfl rfl rfl rfl rfl))

theorem State.setPhase_kept {s₀ : State} (s : State) (p : Nat) (hk : Kept s₀ s) : Kept s₀ (State.setPhase s p) := by
  unfold State.setPhase; grind [kept_mk, kept_iff, = keptOn_iff]

theorem State.removed_kept {s₀ : State} (s : State) (hk : Kept s₀ s) : Kept s₀ (State.removed s) := by
  unfold State.removed; grind [kept_mk, kept_iff, = keptOn_iff]

theorem State.enterPhase_kept {s₀ : State} (s : State) (p ms : Nat) (hk : Kept s₀ s) : Kept s₀ (State.enterPhase s p ms) := by
  unfold State.enterPhase
  extract_lets s1
  have h1 : Kept s₀ s1 := State.setPhase_kept _ _ hk
  clear_value s1
  split
  · exact kept_foldl _ _ (fun _ _ h => State.hostPreempt_kept _ _ h) _ h1
  · exact kept_foldl _ _ (fun _ _ h => State.modPort_kept h) _ h1
  · exact State.patinaWrite_kept _ (State.copyLog_kept _ (State.closeAll_kept _ _ h1))
  · exact State.removed_kept _ (State.railsOff_kept _ (State.log_kept h1))
  · exact h1

theorem State.execEnDeassert_kept {s₀ : State} (s : State) (hk : Kept s₀ s) : KeptR s₀ (execEnDeassert s) := by
  unfold execEnDeassert; grind [State.enterPhase_kept, State.log_kept, kept_mk, kept_iff, = keptOn_iff, keptR_next]

theorem State.execRemovalPhaseDone_kept {s₀ : State} (ms : Nat) (s : State) (hk : Kept s₀ s) : KeptR s₀ (execRemovalPhaseDone ms s) := by
  unfold execRemovalPhaseDone; grind [State.enterPhase_kept, kept_mk, kept_iff, = keptOn_iff, keptR_next]

theorem State.execRemovalFlushTimeout_kept {s₀ : State} (s : State) (hk : Kept s₀ s) : KeptR s₀ (execRemovalFlushTimeout s) := by
  unfold execRemovalFlushTimeout; grind [State.enterPhase_kept, State.log_kept, kept_mk, kept_iff, = keptOn_iff, keptR_next]

theorem State.execSurpriseRemoval_kept {s₀ : State} (s : State) (hk : Kept s₀ s) : KeptR s₀ (execSurpriseRemoval s) := by
  unfold execSurpriseRemoval
  have h := State.railsOff_kept _ (State.cold_kept _ (kept_congr (t := { s with free := s.free + b2n s.pwr.en }) hk rfl rfl rfl rfl rfl rfl))
  exact keptR_of_next (kept_congr h rfl rfl rfl rfl rfl rfl)

theorem State.execIdleEntry_kept {s₀ : State} (s : State) (hk : Kept s₀ s) : KeptR s₀ (execIdleEntry s) := by
  unfold execIdleEntry; grind [State.log_kept, kept_mk, kept_iff, = keptOn_iff, keptR_next]

theorem State.pwrRefused_kept {s₀ : State} (s : State) (hk : Kept s₀ s) : Kept s₀ (State.pwrRefused s) := by
  unfold State.pwrRefused; grind [State.log_kept, kept_mk, kept_iff, = keptOn_iff]

theorem State.execPwrTarget_kept {s₀ : State} (on : Bool) (s : State) (hk : Kept s₀ s) : KeptR s₀ (execPwrTarget on s) := by
  unfold execPwrTarget; grind [State.log_kept, State.pwrRefused_kept, State.startWarm_kept, kept_mk, kept_iff, = keptOn_iff, keptR_next]

theorem State.inStandby_kept {s₀ : State} (s : State) (hk : Kept s₀ s) : Kept s₀ (State.inStandby s) := by
  unfold State.inStandby; grind [kept_mk, kept_iff, = keptOn_iff]

theorem State.endTarget_kept {s₀ : State} (s : State) (hk : Kept s₀ s) : Kept s₀ (State.endTarget s) := by
  unfold State.endTarget; grind [kept_mk, kept_iff, = keptOn_iff]

theorem State.execStandbyEntered_kept {s₀ : State} (s : State) (hk : Kept s₀ s) : KeptR s₀ (execStandbyEntered s) := by
  unfold execStandbyEntered
  refine keptR_ite (keptR_of_next hk) (keptR_ite (keptR_of_next (State.pwrRefused_kept _ (State.endTarget_kept _ hk))) ?_)
  extract_lets old s1 s2 s3 s4
  have h1 : Kept s₀ s1 := kept_foldl _ _ (fun _ _ h => State.modPlinth_kept h) _ hk
  clear_value s1
  have h2 : Kept s₀ s2 := kept_foldl _ _ (fun _ _ h => kept_ite h (State.portDown_kept _ _ _ _ h)) _ h1
  clear_value s2
  have h3 : Kept s₀ s3 := State.closeAll_kept _ _ h2
  clear_value s3
  have h4 : Kept s₀ s4 := kept_foldl _ _ (fun _ _ h => State.modEth_kept h) _ h3
  exact keptR_of_next (State.log_kept (State.inStandby_kept _ h4))

theorem State.execRefclkFail_kept {s₀ : State} (s : State) (hk : Kept s₀ s) : KeptR s₀ (execRefclkFail s) := by
  unfold execRefclkFail; grind [kept_mk, kept_iff, = keptOn_iff, keptR_next]

end Sys2Proof.Machine
end

