-- ==== Sys2Proof/Laws/KeptManage.lean ====
section
/-! SUPPORT. What each operation of Machine/Manage.lean keeps. -/
namespace Sys2Proof.Machine
open Sys2Proof

theorem State.rethrottle_kept {s₀ : State} (s : State) (hk : Kept s₀ s) : Kept s₀ (State.rethrottle s) := by
  unfold State.rethrottle; grind [State.modCore_kept, State.reclock_kept, kept_mk, kept_iff, = keptOn_iff, kept_foldl]

theorem State.heightenOf_kept {s₀ : State} (s : State) (n : Nat) (hk : Kept s₀ s) : Kept s₀ (State.heightenOf s n) := by
  unfold State.heightenOf; grind [State.startHeighten_kept, kept_mk, kept_iff, = keptOn_iff]

theorem State.execCoreOvertemp_kept {s₀ : State} (core : Fin 48) (temp : Int) (s : State) (hk : Kept s₀ s) : KeptR s₀ (execCoreOvertemp core temp s) := by
  unfold execCoreOvertemp
  refine keptR_ite (keptR_of_next hk) (keptR_of_next (State.log_kept (State.heightenOf_kept _ _ ?_)))
  exact State.rethrottle_kept _ (State.modCore_kept hk)

theorem State.execCoreCooldown_kept {s₀ : State} (core : Fin 48) (temp : Int) (s : State) (hk : Kept s₀ s) : KeptR s₀ (execCoreCooldown core temp s) := by
  unfold execCoreCooldown; grind [State.log_kept, State.modCore_kept, State.rethrottle_kept, kept_mk, kept_iff, = keptOn_iff, keptR_next]

theorem State.execThrottleStep_kept {s₀ : State} (s : State) (hk : Kept s₀ s) : KeptR s₀ (execThrottleStep s) := by
  unfold execThrottleStep; grind [State.modCore_kept, State.reclock_kept, kept_mk, kept_iff, = keptOn_iff, kept_foldl, keptR_next]

theorem State.execHbmRefreshBoost_kept {s₀ : State} (pl : Fin 20) (s : State) (hk : Kept s₀ s) : KeptR s₀ (execHbmRefreshBoost pl s) := by
  unfold execHbmRefreshBoost; grind [State.modPlinth_kept, kept_mk, kept_iff, = keptOn_iff, keptR_next]

theorem State.execHbmRefreshNormal_kept {s₀ : State} (pl : Fin 20) (s : State) (hk : Kept s₀ s) : KeptR s₀ (execHbmRefreshNormal pl s) := by
  unfold execHbmRefreshNormal; grind [State.modPlinth_kept, kept_mk, kept_iff, = keptOn_iff, keptR_next]

theorem State.execHbmHotStart_kept {s₀ : State} (pl : Fin 20) (temp : Int) (s : State) (hk : Kept s₀ s) : KeptR s₀ (execHbmHotStart pl temp s) := by
  unfold execHbmHotStart; grind [State.log_kept, State.modPlinth_kept, kept_mk, kept_iff, = keptOn_iff, keptR_next]

theorem State.execHbmHotEnd_kept {s₀ : State} (pl : Fin 20) (temp : Int) (s : State) (hk : Kept s₀ s) : KeptR s₀ (execHbmHotEnd pl temp s) := by
  unfold execHbmHotEnd; grind [State.log_kept, State.modPlinth_kept, kept_mk, kept_iff, = keptOn_iff, keptR_next]

theorem State.execPowerOverLimit_kept {s₀ : State} (watts : Nat) (s : State) (hk : Kept s₀ s) : KeptR s₀ (execPowerOverLimit watts s) := by
  unfold execPowerOverLimit; grind [State.log_kept, State.rethrottle_kept, kept_mk, kept_iff, = keptOn_iff, keptR_next]

theorem State.execPowerThrottleEnd_kept {s₀ : State} (watts : Nat) (s : State) (hk : Kept s₀ s) : KeptR s₀ (execPowerThrottleEnd watts s) := by
  unfold execPowerThrottleEnd; grind [State.log_kept, State.rethrottle_kept, kept_mk, kept_iff, = keptOn_iff, keptR_next]

theorem State.execCoolantAlarm_kept {s₀ : State} (inlet : Int) (flow : Nat) (s : State) (hk : Kept s₀ s) : KeptR s₀ (execCoolantAlarm inlet flow s) := by
  unfold execCoolantAlarm; grind [State.log_kept, kept_mk, kept_iff, = keptOn_iff, keptR_next]

theorem State.execFwBegin_kept {s₀ : State} (s : State) (hk : Kept s₀ s) : KeptR s₀ (execFwBegin s) := by
  unfold execFwBegin; grind [kept_mk, kept_iff, = keptOn_iff, keptR_next, Mgmt.count_fuse]

theorem State.execFwVerify_kept {s₀ : State} (s : State) (hk : Kept s₀ s) : KeptR s₀ (execFwVerify s) := by
  unfold execFwVerify; grind [State.log_kept, State.verified_kept, kept_mk, kept_iff, = keptOn_iff, keptR_next, Mgmt.count_fuse]

theorem State.execFwInstall_kept {s₀ : State} (s : State) (hk : Kept s₀ s) : KeptR s₀ (execFwInstall s) := by
  unfold execFwInstall; grind [State.verified_kept, kept_mk, kept_iff, = keptOn_iff, keptR_next, Mgmt.count_fuse]

theorem State.execFwInstallDone_kept {s₀ : State} (ok : Bool) (s : State) (hk : Kept s₀ s) : KeptR s₀ (execFwInstallDone ok s) := by
  unfold execFwInstallDone; grind [State.log_kept, kept_mk, kept_iff, = keptOn_iff, keptR_next, Mgmt.count_fuse]

theorem State.newOwner_kept {s₀ : State} (s : State) (g : Mgmt) (hg : g.fuse = s.mgmt.fuse) (hk : Kept s₀ s) : Kept s₀ (State.newOwner s g) :=
  kept_congr hk rfl rfl rfl hg rfl rfl

theorem Mgmt.setOwner_fuse (g : Mgmt) (e : Nat) (h : List Byte) : (g.setOwner e h).fuse = g.fuse := by
  unfold Mgmt.setOwner; split <;> rfl

theorem State.execOwnCommit_kept {s₀ : State} (s : State) (hk : Kept s₀ s) : KeptR s₀ (execOwnCommit s) := by
  unfold execOwnCommit
  refine keptR_ite (keptR_of_next hk) (keptR_ite (keptR_of_next (State.log_kept hk)) ?_)
  split
  · exact keptR_of_next (State.log_kept hk)
  · extract_lets g b old epoch g' s1 ids s2
    have h1 : Kept s₀ s1 := State.newOwner_kept _ _ (Mgmt.setOwner_fuse _ _ _) hk
    clear_value s1
    have h2 : Kept s₀ s2 := kept_foldl _ _ (fun _ _ h => State.closeSession_kept _ _ _ h) _ h1
    exact keptR_of_next (State.log_kept h2)

theorem State.dueAll_kept {s₀ : State} (s : State) (hk : Kept s₀ s) : Kept s₀ (State.dueAll s) := by
  unfold State.dueAll; grind [State.modCore_kept, kept_mk, kept_iff, = keptOn_iff, kept_foldl, Mgmt.count_fuse]

theorem State.execSurveyDue_kept {s₀ : State} (s : State) (hk : Kept s₀ s) : KeptR s₀ (execSurveyDue s) := by
  unfold execSurveyDue; grind [State.dueAll_kept, kept_mk, kept_iff, = keptOn_iff, keptR_next]

theorem State.execSurveyStart_kept {s₀ : State} (s : State) (hk : Kept s₀ s) : KeptR s₀ (execSurveyStart s) := by
  unfold execSurveyStart; grind [State.dueAll_kept, kept_mk, kept_iff, = keptOn_iff, keptR_next]

theorem State.execSurveyAbortCmd_kept {s₀ : State} (s : State) (hk : Kept s₀ s) : KeptR s₀ (execSurveyAbortCmd s) := by
  unfold execSurveyAbortCmd; grind [State.modCore_kept, kept_mk, kept_iff, = keptOn_iff, kept_foldl, keptR_next, Mgmt.count_fuse]

theorem State.surveyRound_kept {s₀ : State} (s : State) (hk : Kept s₀ s) : Kept s₀ (State.surveyRound s) := by
  unfold State.surveyRound; grind [State.log_kept, State.patinaWrite_kept, kept_mk, kept_iff, = keptOn_iff, Mgmt.count_fuse]

theorem State.execSurveyIslandDone_kept {s₀ : State} (core : Fin 48) (r : SurveyResult) (s : State) (hk : Kept s₀ s) : KeptR s₀ (execSurveyIslandDone core r s) := by
  unfold execSurveyIslandDone; grind [State.log_kept, State.modCore_kept, State.surveyRound_kept, State.timeNow_kept, → State.timeNow_kept', kept_mk, kept_iff, = keptOn_iff, kept_foldl, keptR_next]

theorem State.execSurveyOverdue_kept {s₀ : State} (island : Nat) (days : Nat) (s : State) (hk : Kept s₀ s) : KeptR s₀ (execSurveyOverdue island days s) := by
  unfold execSurveyOverdue; grind [State.log_kept, kept_mk, kept_iff, = keptOn_iff, keptR_next]

theorem State.execCalSuspectClear_kept {s₀ : State} (mask : BitVec 48) (s : State) (hk : Kept s₀ s) : KeptR s₀ (execCalSuspectClear mask s) := by
  unfold execCalSuspectClear; grind [State.filter_kept, → State.filter_kept', State.modCore_kept, kept_mk, kept_iff, = keptOn_iff, kept_foldl, keptR_next]

theorem State.trlpSend_kept {s₀ : State} (s : State) (seq : BitVec 32) (status : Nat) (payload : List Byte) (hk : Kept s₀ s) : Kept s₀ (State.trlpSend s seq status payload) := by
  unfold State.trlpSend; grind [State.emit_kept, kept_mk, kept_iff, = keptOn_iff, Mgmt.count_fuse]

theorem State.trlp_kept {s₀ : State} (s : State) (seq : BitVec 32) (run : State → State) (hf : ∀ t, Kept s₀ t → Kept s₀ (run t)) (hk : Kept s₀ s) : Kept s₀ (State.trlp s seq run) := by
  unfold State.trlp; grind [State.emit_kept]

theorem State.trlpRefuse_kept {s₀ : State} (s : State) (seq : BitVec 32) (hk : Kept s₀ s) : Kept s₀ (State.trlpRefuse s seq) := by
  unfold State.trlpRefuse; grind [State.trlpSend_kept, kept_mk, kept_iff, = keptOn_iff]

theorem State.execTrlpHello_kept {s₀ : State} (seq : BitVec 32) (s : State) (hk : Kept s₀ s) : KeptR s₀ (execTrlpHello seq s) := by
  unfold execTrlpHello; grind [State.trlpSend_kept, State.trlp_kept, kept_mk, kept_iff, = keptOn_iff, keptR_next]

theorem State.execTrlpLoad_kept {s₀ : State} (seq : BitVec 32) (offset : Nat) (data : List Byte) (s : State) (hk : Kept s₀ s) : KeptR s₀ (execTrlpLoad seq offset data s) := by
  unfold execTrlpLoad; grind [State.trlpRefuse_kept, State.trlpSend_kept, State.trlp_kept, kept_mk, kept_iff, = keptOn_iff, keptR_next, Mgmt.count_fuse]

theorem State.execTrlpCommit_kept {s₀ : State} (seq : BitVec 32) (s : State) (hk : Kept s₀ s) : KeptR s₀ (execTrlpCommit seq s) := by
  unfold execTrlpCommit; grind [State.startModule_kept, State.trlpSend_kept, State.trlp_kept, kept_mk, kept_iff, = keptOn_iff, keptR_next, Mgmt.count_fuse]

theorem State.execTrlpOwner_kept {s₀ : State} (seq : BitVec 32) (hash : List Byte) (s : State) (hk : Kept s₀ s) : KeptR s₀ (execTrlpOwner seq hash s) := by
  unfold execTrlpOwner; grind [State.trlpRefuse_kept, State.trlpSend_kept, State.trlp_kept, kept_mk, kept_iff, = keptOn_iff, keptR_next, Mgmt.count_fuse]

theorem State.execTrlpReboot_kept {s₀ : State} (seq : BitVec 32) (s : State) (hk : Kept s₀ s) : KeptR s₀ (execTrlpReboot seq s) := by
  unfold execTrlpReboot; grind [State.startModule_kept, State.trlpSend_kept, State.trlp_kept, kept_mk, kept_iff, = keptOn_iff, keptR_next]

theorem State.execLinkLocalFallback_kept {s₀ : State} (s : State) (hk : Kept s₀ s) : KeptR s₀ (execLinkLocalFallback s) := by
  unfold execLinkLocalFallback; grind [kept_mk, kept_iff, = keptOn_iff, keptR_next, Mgmt.count_fuse]

end Sys2Proof.Machine
end

