-- ==== Sys2Proof/Laws/KeptRegisters.lean ====
section
/-! SUPPORT. What each operation of Machine/Registers.lean keeps. -/
namespace Sys2Proof.Machine
open Sys2Proof

theorem State.run_kept {s₀ : State} (s : State) (f : State → Res) (hf : ∀ t, Kept s₀ t → KeptR s₀ (f t)) (hk : Kept s₀ s) : Kept s₀ (State.run s f) := by
  have h := hf s hk
  unfold State.run; unfold KeptR at h; grind

theorem State.onBit_kept {s₀ : State} (s : State) (v i : Nat) (f : State → Res) (hf : ∀ t, Kept s₀ t → KeptR s₀ (f t)) (hk : Kept s₀ s) : Kept s₀ (State.onBit s v i f) := by
  have h := State.run_kept s f hf hk
  unfold State.onBit; grind

theorem State.csrMiss_kept {s₀ : State} (s : State) (a : Nat) (hk : Kept s₀ s) : Kept s₀ (State.csrMiss s a) := by
  unfold State.csrMiss; grind [State.log_kept, kept_mk, kept_iff, = keptOn_iff]

theorem State.regAccess_kept {s₀ : State} (s : State) (a : Nat) (hk : Kept s₀ s) : Kept s₀ (State.regAccess s a) := by
  unfold State.regAccess; grind [State.log_kept, kept_mk, kept_iff, = keptOn_iff]

theorem State.coreWrite_kept {s₀ : State} (s : State) (n off v : Nat) (hk : Kept s₀ s) : Kept s₀ (State.coreWrite s n off v) := by
  unfold State.coreWrite; grind [State.execXlInval_kept, State.modCore_kept, State.onBit_kept, kept_mk, kept_iff, = keptOn_iff]

theorem State.rstRead_kept {s₀ : State} (s : State) (off : Nat) (hk : Kept s₀ s) : Kept s₀ (State.rstRead s off).1 := by
  unfold State.rstRead; grind [kept_mk, kept_iff, = keptOn_iff]
theorem State.rstRead_kept' {s₀ t : State} {s : State} {off : Nat} {y₀} (e₀ : (State.rstRead s off) = (t, y₀)) (hk : Kept s₀ s) : Kept s₀ t := by
  have := State.rstRead_kept s off hk; rw [e₀] at this; exact this

theorem State.rstWrite_kept {s₀ : State} (s : State) (host : Bool) (a off v : Nat) (hk : Kept s₀ s) : Kept s₀ (State.rstWrite s host a off v) := by
  unfold State.rstWrite; grind [State.execBlockResetRequest_kept, State.onBit_kept, State.regAccess_kept, kept_mk, kept_iff, = keptOn_iff]

theorem State.clkWrite_kept {s₀ : State} (s : State) (host : Bool) (off v : Nat) (hk : Kept s₀ s) : Kept s₀ (State.clkWrite s host off v) := by
  unfold State.clkWrite; grind [State.modCore_kept, State.reclock_kept, kept_mk, kept_iff, = keptOn_iff]

theorem State.calWrite_kept {s₀ : State} (s : State) (off v : Nat) (hk : Kept s₀ s) : Kept s₀ (State.calWrite s off v) := by
  unfold State.calWrite; grind [State.execCalSuspectClear_kept, State.run_kept, kept_mk, kept_iff, = keptOn_iff]

theorem State.ctxWrite_kept {s₀ : State} (s : State) (k : Fin 16) (off v : Nat) (hk : Kept s₀ s) : Kept s₀ (State.ctxWrite s k off v) := by
  unfold State.ctxWrite; grind [State.execCtxPreempt_kept, State.execCtxResume_kept, State.execFltGiveup_kept, State.execFltRetry_kept, State.modCell_kept, State.onBit_kept, kept_mk, kept_iff, = keptOn_iff]

theorem State.expWrite_kept {s₀ : State} (s : State) (off v : Nat) (hk : Kept s₀ s) : Kept s₀ (State.expWrite s off v) := by
  unfold State.expWrite; grind [State.execExpDropRecord_kept, State.execExpPause_kept, State.onBit_kept, State.run_kept, kept_mk, kept_iff, = keptOn_iff]

theorem State.snpWrite_kept {s₀ : State} (s : State) (off v : Nat) (hk : Kept s₀ s) : Kept s₀ (State.snpWrite s off v) := by
  unfold State.snpWrite; grind [State.execSnpAbortup_kept, State.execSnpTake_kept, State.onBit_kept, kept_mk, kept_iff, = keptOn_iff]

theorem State.lnkWrite_kept {s₀ : State} (s : State) (p : Fin 8) (off v : Nat) (hk : Kept s₀ s) : Kept s₀ (State.lnkWrite s p off v) := by
  unfold State.lnkWrite; grind [State.execLnkDrain_kept, State.execLnkQuar_kept, State.execLnkRetrain_kept, State.execLnkUnquar_kept, State.onBit_kept, kept_mk, kept_iff, = keptOn_iff]

theorem State.ethRead_kept {s₀ : State} (s : State) (off : Nat) (hk : Kept s₀ s) : Kept s₀ (State.ethRead s off).1 := by
  unfold State.ethRead; grind [State.filter_kept, → State.filter_kept', State.timeNow_kept, → State.timeNow_kept', kept_mk, kept_iff, = keptOn_iff]
theorem State.ethRead_kept' {s₀ t : State} {s : State} {off : Nat} {y₀} (e₀ : (State.ethRead s off) = (t, y₀)) (hk : Kept s₀ s) : Kept s₀ t := by
  have := State.ethRead_kept s off hk; rw [e₀] at this; exact this

theorem State.pwrWrite_kept {s₀ : State} (s : State) (off v : Nat) (hk : Kept s₀ s) : Kept s₀ (State.pwrWrite s off v) := by
  unfold State.pwrWrite; grind [State.execPwrTarget_kept, State.execPwrVminclr_kept, State.onBit_kept, State.run_kept, kept_mk, kept_iff, = keptOn_iff]

theorem State.mgmtWrite_kept {s₀ : State} (s : State) (off v : Nat) (hk : Kept s₀ s) : Kept s₀ (State.mgmtWrite s off v) := by
  unfold State.mgmtWrite; grind [State.execFwBegin_kept, State.execFwInstall_kept, State.execFwVerify_kept, State.execOwnCommit_kept, State.execSurveyAbortCmd_kept, State.execSurveyStart_kept, State.onBit_kept, Mgmt.setOwner_fuse, kept_mk, kept_iff, = keptOn_iff, Mgmt.count_fuse]

theorem State.plcWrite_kept {s₀ : State} (s : State) (p : Fin 20) (off v : Nat) (hk : Kept s₀ s) : Kept s₀ (State.plcWrite s p off v) := by
  unfold State.plcWrite; grind [State.execPlcFlush_kept, State.modPlinth_kept, State.onBit_kept, kept_mk, kept_iff, = keptOn_iff]

theorem State.csrWindowRead_kept {s₀ : State} (s : State) (o : Nat) (hk : Kept s₀ s) : Kept s₀ (State.csrWindowRead s o).1 := by
  unfold State.csrWindowRead; grind [State.csrMiss_kept, State.ethRead_kept, → State.ethRead_kept', State.noteLinkup_kept, State.rstRead_kept, → State.rstRead_kept', kept_mk, kept_iff, = keptOn_iff]
theorem State.csrWindowRead_kept' {s₀ t : State} {s : State} {o : Nat} {y₀} (e₀ : (State.csrWindowRead s o) = (t, y₀)) (hk : Kept s₀ s) : Kept s₀ t := by
  have := State.csrWindowRead_kept s o hk; rw [e₀] at this; exact this

theorem Evt.write_recs (e : Evt) (o v : Nat) : (e.write o v).recs = e.recs := by
  unfold Evt.write; grind

theorem State.csrWindowWrite_kept {s₀ : State} (s : State) (host : Bool) (o v : Nat) (hk : Kept s₀ s) : Kept s₀ (State.csrWindowWrite s host o v) := by
  unfold State.csrWindowWrite
  extract_lets off
  refine kept_ite (State.coreWrite_kept _ _ _ _ hk) ?_
  split
  · exact State.rstWrite_kept _ _ _ _ _ hk
  · exact State.clkWrite_kept _ _ _ _ hk
  · exact kept_congr hk rfl rfl rfl rfl rfl (Evt.write_recs _ _ _)
  · exact hk
  · exact State.calWrite_kept _ _ _ hk
  · exact hk
  · split
    · exact State.ctxWrite_kept _ _ _ _ hk
    · exact hk
  · exact State.expWrite_kept _ _ _ hk
  · exact State.snpWrite_kept _ _ _ hk
  · exact kept_congr hk rfl rfl rfl rfl rfl rfl
  · split
    · exact State.lnkWrite_kept _ _ _ _ hk
    · exact hk
  · exact hk
  · exact State.pwrWrite_kept _ _ _ hk
  · exact State.mgmtWrite_kept _ _ _ hk
  · exact State.mgmtWrite_kept _ _ _ hk
  · exact State.mgmtWrite_kept _ _ _ hk
  · exact State.mgmtWrite_kept _ _ _ hk
  · exact State.csrMiss_kept _ _ hk

theorem State.regRead_kept {s₀ : State} (s : State) (a : Nat) (hk : Kept s₀ s) : Kept s₀ (State.regRead s a).1 := by
  unfold State.regRead; grind [State.csrMiss_kept, State.csrWindowRead_kept, → State.csrWindowRead_kept', State.touchPhys_kept, kept_mk, kept_iff, = keptOn_iff]
theorem State.regRead_kept' {s₀ t : State} {s : State} {a : Nat} {y₀} (e₀ : (State.regRead s a) = (t, y₀)) (hk : Kept s₀ s) : Kept s₀ t := by
  have := State.regRead_kept s a hk; rw [e₀] at this; exact this

theorem State.regWrite_kept {s₀ : State} (s : State) (host : Bool) (a v : Nat) (hk : Kept s₀ s) : Kept s₀ (State.regWrite s host a v) := by
  unfold State.regWrite; (repeat' split) <;> grind [State.csrMiss_kept, State.csrWindowWrite_kept, State.hbmWrite_kept, State.modCore_kept, State.plcWrite_kept, State.touchPhys_kept, Evt.write_recs, kept_mk, kept_iff, = keptOn_iff]

theorem State.i2cWrite_kept {s₀ : State} (s : State) (off v : Nat) (hk : Kept s₀ s) : Kept s₀ (State.i2cWrite s off v) := by
  unfold State.i2cWrite; grind [kept_mk, kept_iff, = keptOn_iff]

theorem State.execRegisterWrite_kept {s₀ : State} (host : Bool) (addr : Nat) (value : BitVec 64) (s : State) (hk : Kept s₀ s) : KeptR s₀ (execRegisterWrite host addr value s) := by
  unfold execRegisterWrite; grind [State.i2cWrite_kept, State.regWrite_kept, kept_mk, kept_iff, = keptOn_iff, keptR_next]

end Sys2Proof.Machine
end

