-- ==== Sys2Proof/Laws/KeptHostCmd.lean ====
section
/-! SUPPORT. What each operation of Machine/HostCmd.lean keeps. -/
namespace Sys2Proof.Machine
open Sys2Proof

theorem State.effCsrRead_kept {s₀ s : State} (addr count : Nat) (c : TcdCtx) (hk : Kept s₀ s) : Kept s₀ (effCsrRead addr count c s).1 := by
  unfold effCsrRead
  split
  · exact hk
  · refine kept_foldl_fst (β := List Byte) _ _ ?_ (s, []) hk
    exact fun _ _ h => State.regRead_kept _ _ h

theorem State.execCsrRead_kept {s₀ : State} (m : Msg) (addr count : Nat) (s : State) (hk : Kept s₀ s) : KeptR s₀ (execCsrRead m addr count s) := by
  unfold execCsrRead; grind [State.effCsrRead_kept, State.tcd_kept, kept_mk, kept_iff, = keptOn_iff, keptR_next]

theorem State.effCsrWrite_kept {s₀ s : State} (addr : Nat) (words : List (BitVec 64)) (c : TcdCtx) (hk : Kept s₀ s) : Kept s₀ (effCsrWrite addr words c s).1 := by
  unfold effCsrWrite; grind [State.regWrite_kept, kept_mk, kept_iff, = keptOn_iff, kept_foldl]
theorem State.effCsrWrite_kept' {s₀ s t : State} {addr : Nat} {words : List (BitVec 64)} {c : TcdCtx} {y₀} (e₀ : effCsrWrite addr words c s = (t, y₀)) (hk : Kept s₀ s) : Kept s₀ t := by
  have := State.effCsrWrite_kept addr words c hk; rw [e₀] at this; exact this

theorem State.execCsrWrite_kept {s₀ : State} (m : Msg) (addr : Nat) (words : List (BitVec 64)) (s : State) (hk : Kept s₀ s) : KeptR s₀ (execCsrWrite m addr words s) := by
  unfold execCsrWrite; grind [State.effCsrWrite_kept, → State.effCsrWrite_kept', State.tcd_kept, kept_mk, kept_iff, = keptOn_iff, keptR_next]

theorem State.effQpOpen_kept {s₀ s : State} (port hqpn hpsn pmtu : Nat) (gid : List Byte) (c : TcdCtx) (hk : Kept s₀ s) : Kept s₀ (effQpOpen port hqpn hpsn pmtu gid c s).1 := by
  unfold effQpOpen; grind [kept_mk, kept_iff, = keptOn_iff]
theorem State.effQpOpen_kept' {s₀ s t : State} {port hqpn hpsn pmtu : Nat} {gid : List Byte} {c : TcdCtx} {y₀} (e₀ : effQpOpen port hqpn hpsn pmtu gid c s = (t, y₀)) (hk : Kept s₀ s) : Kept s₀ t := by
  have := State.effQpOpen_kept port hqpn hpsn pmtu gid c hk; rw [e₀] at this; exact this

theorem State.execQpOpen_kept {s₀ : State} (m : Msg) (port hqpn hpsn pmtu : Nat) (gid : List Byte) (s : State) (hk : Kept s₀ s) : KeptR s₀ (execQpOpen m port hqpn hpsn pmtu gid s) := by
  unfold execQpOpen; grind [State.effQpOpen_kept, → State.effQpOpen_kept', State.tcd_kept, kept_mk, kept_iff, = keptOn_iff, keptR_next]

theorem State.dropQp_kept {s₀ : State} (s : State) (qpn : Nat) (hk : Kept s₀ s) : Kept s₀ (State.dropQp s qpn) := by
  unfold State.dropQp
  have h : Kept s₀ (((s.qp? qpn).map s.requesterFails).getD s) := by
    cases s.qp? qpn with
    | none => exact hk
    | some q => exact State.requesterFails_kept _ _ hk
  exact kept_congr h rfl rfl rfl rfl rfl rfl

theorem State.effQpClose_kept {s₀ s : State} (qpn : Nat) (c : TcdCtx) (hk : Kept s₀ s) : Kept s₀ (effQpClose qpn c s).1 := by
  unfold effQpClose; grind [State.dropQp_kept, kept_mk, kept_iff, = keptOn_iff]
theorem State.effQpClose_kept' {s₀ s t : State} {qpn : Nat} {c : TcdCtx} {y₀} (e₀ : effQpClose qpn c s = (t, y₀)) (hk : Kept s₀ s) : Kept s₀ t := by
  have := State.effQpClose_kept qpn c hk; rw [e₀] at this; exact this

theorem State.execQpClose_kept {s₀ : State} (m : Msg) (qpn : Nat) (s : State) (hk : Kept s₀ s) : KeptR s₀ (execQpClose m qpn s) := by
  unfold execQpClose; grind [State.effQpClose_kept, → State.effQpClose_kept', State.tcd_kept, kept_mk, kept_iff, = keptOn_iff, keptR_next]

theorem State.effStoreQp_kept {s₀ s : State} (target rqpn rpsn : Nat) (c : TcdCtx) (hk : Kept s₀ s) : Kept s₀ (effStoreQp target rqpn rpsn c s).1 := by
  unfold effStoreQp; grind [State.filter_kept, → State.filter_kept', State.requesterFails_kept, kept_mk, kept_iff, = keptOn_iff, kept_foldl]
theorem State.effStoreQp_kept' {s₀ s t : State} {target rqpn rpsn : Nat} {c : TcdCtx} {y₀} (e₀ : effStoreQp target rqpn rpsn c s = (t, y₀)) (hk : Kept s₀ s) : Kept s₀ t := by
  have := State.effStoreQp_kept target rqpn rpsn c hk; rw [e₀] at this; exact this

theorem State.execStoreQp_kept {s₀ : State} (m : Msg) (target rqpn rpsn : Nat) (s : State) (hk : Kept s₀ s) : KeptR s₀ (execStoreQp m target rqpn rpsn s) := by
  unfold execStoreQp; grind [State.effStoreQp_kept, → State.effStoreQp_kept', State.tcd_kept, kept_mk, kept_iff, = keptOn_iff, keptR_next]

theorem State.effReset_kept {s₀ s : State} (op : Nat) (c : TcdCtx) (hk : Kept s₀ s) : Kept s₀ (effReset op c s).1 := by
  unfold effReset; grind [State.refuseCmd_kept, → State.refuseCmd_kept', kept_mk, kept_iff, = keptOn_iff]
theorem State.effReset_kept' {s₀ s t : State} {op : Nat} {c : TcdCtx} {y₀} (e₀ : effReset op c s = (t, y₀)) (hk : Kept s₀ s) : Kept s₀ t := by
  have := State.effReset_kept op c hk; rw [e₀] at this; exact this

theorem State.execWarmReset_kept {s₀ : State} (m : Msg) (s : State) (hk : Kept s₀ s) : KeptR s₀ (execWarmReset m s) := by
  unfold execWarmReset; grind [State.effReset_kept, → State.effReset_kept', State.startWarm_kept, State.tcd_kept, kept_mk, kept_iff, = keptOn_iff, keptR_next]

theorem State.execModuleReset_kept {s₀ : State} (m : Msg) (s : State) (hk : Kept s₀ s) : KeptR s₀ (execModuleReset m s) := by
  unfold execModuleReset; grind [State.effReset_kept, → State.effReset_kept', State.startModule_kept, State.tcd_kept, kept_mk, kept_iff, = keptOn_iff, keptR_next]

theorem State.effAttest_kept {s₀ s : State} (nonce : List Byte) (c : TcdCtx) (hk : Kept s₀ s) : Kept s₀ (effAttest nonce c s).1 := by
  unfold effAttest; grind [State.timeNow_kept, → State.timeNow_kept', kept_mk, kept_iff, = keptOn_iff]
theorem State.effAttest_kept' {s₀ s t : State} {nonce : List Byte} {c : TcdCtx} {y₀} (e₀ : effAttest nonce c s = (t, y₀)) (hk : Kept s₀ s) : Kept s₀ t := by
  have := State.effAttest_kept nonce c hk; rw [e₀] at this; exact this

theorem State.execAttest_kept {s₀ : State} (m : Msg) (nonce : List Byte) (s : State) (hk : Kept s₀ s) : KeptR s₀ (execAttest m nonce s) := by
  unfold execAttest; grind [State.effAttest_kept, → State.effAttest_kept', State.tcd_kept, kept_mk, kept_iff, = keptOn_iff, keptR_next]

theorem State.opEff_kept {s₀ s : State} (op : Nat) (p : List Byte) (c : TcdCtx) (hk : Kept s₀ s) : Kept s₀ (opEff op p c s).1 := by
  unfold opEff; (repeat' split) <;> grind [State.effArmBegin_kept, → State.effArmBegin_kept', State.effArmCancel_kept, → State.effArmCancel_kept', State.effArmCommit_kept, → State.effArmCommit_kept', State.effArmData_kept, → State.effArmData_kept', State.effAttest_kept, → State.effAttest_kept', State.effCellPreempt_kept, → State.effCellPreempt_kept', State.effCellReset_kept, → State.effCellReset_kept', State.effCellResume_kept, → State.effCellResume_kept', State.effCsrRead_kept, State.effCsrWrite_kept, → State.effCsrWrite_kept', State.effEvtRead_kept, → State.effEvtRead_kept', State.effFleetResume_kept, → State.effFleetResume_kept', State.effQpClose_kept, → State.effQpClose_kept', State.effQpOpen_kept, → State.effQpOpen_kept', State.effReset_kept, → State.effReset_kept', State.effRestore_kept, → State.effRestore_kept', State.effSlotAssign_kept, → State.effSlotAssign_kept', State.effStatus_kept, → State.effStatus_kept', State.effStoreQp_kept, → State.effStoreQp_kept', State.effTokenPost_kept, → State.effTokenPost_kept', kept_mk, kept_iff, = keptOn_iff]
theorem State.opEff_kept' {s₀ s t : State} {op : Nat} {p : List Byte} {c : TcdCtx} {y₀} (e₀ : opEff op p c s = (t, y₀)) (hk : Kept s₀ s) : Kept s₀ t := by
  have := State.opEff_kept op p c hk; rw [e₀] at this; exact this

theorem State.fwdRun_kept {s₀ : State} (s : State) (src : Nat) (h : List Nat) (data : List Byte) (hk : Kept s₀ s) : Kept s₀ (State.fwdRun s src h data) := by
  unfold State.fwdRun; grind [State.accept_kept, State.answer_kept, State.await_kept, State.opEff_kept, → State.opEff_kept', State.roleRefused_kept, kept_mk, kept_iff, = keptOn_iff]

theorem State.fwdAnswer_kept {s₀ : State} (s : State) (h : List Nat) (data : List Byte) (hk : Kept s₀ s) : Kept s₀ (State.fwdAnswer s h data) := by
  unfold State.fwdAnswer; grind [State.fwdEnd_kept, State.respond_kept, kept_mk, kept_iff, = keptOn_iff]

theorem State.storeFor_kept {s₀ : State} (s : State) (src : Nat) (pk : Packet) (hk : Kept s₀ s) : Kept s₀ (State.storeFor s src pk) := by
  unfold State.storeFor; grind [State.sendTcdf_kept, State.writeStore_kept, kept_mk, kept_iff, = keptOn_iff]

theorem State.setTcdfIn_kept {s₀ : State} (s : State) (src : Nat) (b : List Byte) (hk : Kept s₀ s) : Kept s₀ (State.setTcdfIn s src b) := by
  unfold State.setTcdfIn; grind [kept_mk, kept_iff, = keptOn_iff]

theorem State.partWritten_kept {s₀ : State} (s : State) (hk : Kept s₀ s) : Kept s₀ (State.partWritten s) := by
  unfold State.partWritten; grind [kept_mk, kept_iff, = keptOn_iff]

theorem State.tgtTcdf_kept {s₀ : State} (pk : Packet) (s : State) (hk : Kept s₀ s) : Kept s₀ (tgtTcdf pk s).1 := by
  unfold tgtTcdf; grind [State.fwdAnswer_kept, State.fwdEnd_kept, State.fwdRun_kept, State.partWritten_kept, State.respond_kept, State.setTcdfIn_kept, State.storeFor_kept, State.uploadFailed_kept, kept_mk, kept_iff, = keptOn_iff]
theorem State.tgtTcdf_kept' {s₀ t : State} {pk : Packet} {s : State} {y₀} (e₀ : (tgtTcdf pk s) = (t, y₀)) (hk : Kept s₀ s) : Kept s₀ t := by
  have := State.tgtTcdf_kept pk s hk; rw [e₀] at this; exact this

theorem State.fwdReset_kept {s₀ : State} (s : State) (pk : Packet) (hk : Kept s₀ s) : Kept s₀ (State.fwdReset s pk) := by
  unfold State.fwdReset; grind [State.startModule_kept, State.startWarm_kept, kept_mk, kept_iff, = keptOn_iff]

theorem State.execTcdfReceive_kept {s₀ : State} (port : Option (Fin 8)) (pk : Packet) (s : State) (hk : Kept s₀ s) : KeptR s₀ (execTcdfReceive port pk s) := by
  unfold execTcdfReceive; grind [State.fwdReset_kept, State.receiveReq_kept, State.tgtTcdf_kept, → State.tgtTcdf_kept', kept_mk, kept_iff, = keptOn_iff, keptR_next]

theorem State.answerCe_kept {s₀ : State} (s : State) (q : Qp) (ce : Bool) (hk : Kept s₀ s) : Kept s₀ (State.answerCe s q ce) := by
  unfold State.answerCe; grind [State.modEth_kept, State.modQp_kept, State.sendRoce_kept, kept_mk, kept_iff, = keptOn_iff]

theorem State.congestion_kept {s₀ : State} (s : State) (q : Qp) (ce : Bool) (hk : Kept s₀ s) : Kept s₀ (State.congestion s q ce) := by
  unfold State.congestion; grind [State.answerCe_kept, State.emit_kept, State.fillBuffer_kept, State.modEth_kept, State.modQp_kept, kept_mk, kept_iff, = keptOn_iff]

theorem State.accessError_kept {s₀ : State} (s : State) (port : Nat) (q : RoceReq) (win : Nat) (hk : Kept s₀ s) : Kept s₀ (State.accessError s port q win) := by
  unfold State.accessError; grind [State.log_kept, State.modQp_kept, State.rdmaFlush_kept, kept_mk, kept_iff, = keptOn_iff]

theorem State.invalidReq_kept {s₀ : State} (s : State) (q : RoceReq) (hk : Kept s₀ s) : Kept s₀ (State.invalidReq s q) := by
  unfold State.invalidReq; grind [State.modQp_kept, State.rdmaFlush_kept, kept_mk, kept_iff, = keptOn_iff]

theorem State.rdmaSend_kept {s₀ : State} (s : State) (o : RdmaOp) (gpa n : Nat) (mk : Nat → Nat → Packet) (hk : Kept s₀ s) : Kept s₀ (State.rdmaSend s o gpa n mk) := by
  unfold State.rdmaSend
  extract_lets dst x
  have h : Kept s₀ x.1 := kept_foldl_fst _ _ (fun _ _ h => State.sendReq_kept _ _ _ h) _ hk
  clear_value x
  exact State.rdmaFlush_kept _ (kept_congr h rfl rfl rfl rfl rfl rfl)

theorem State.rdmaWrite_kept {s₀ : State} (s : State) (port : Nat) (x : Qp) (q : RoceReq) (hk : Kept s₀ s) : Kept s₀ (State.rdmaWrite s port x q) := by
  unfold State.rdmaWrite; grind [State.accessError_kept, State.invalidReq_kept, State.modQp_kept, State.rdmaSend_kept, kept_mk, kept_iff, = keptOn_iff]

theorem State.roceRequest_kept {s₀ : State} (s : State) (port : Nat) (q : RoceReq) (read : Bool) (run : Qp → State → State) (hf : ∀ x t, Kept s₀ t → Kept s₀ (run x t)) (hk : Kept s₀ s) : Kept s₀ (State.roceRequest s port q read run) := by
  unfold State.roceRequest
  refine kept_ite hk (kept_ite (State.modEth_kept hk) ?_)
  split
  · exact hk
  · refine kept_ite hk ?_
    extract_lets s1 d
    have h1 : Kept s₀ s1 := State.congestion_kept _ _ _ hk
    exact kept_ite (hf _ _ h1) (kept_ite (State.sendRoce_kept _ _ _ h1) (kept_ite (hf _ _ h1) (kept_ite h1 (State.sendRoce_kept _ _ _ h1))))

theorem State.execRdmaWriteReceive_kept {s₀ : State} (port : Fin 2) (q : RoceReq) (s : State) (hk : Kept s₀ s) : KeptR s₀ (execRdmaWriteReceive port q s) := by
  unfold execRdmaWriteReceive; grind [State.rdmaWrite_kept, State.roceRequest_kept, kept_mk, kept_iff, = keptOn_iff, keptR_next]

theorem State.rdmaRead_kept {s₀ : State} (s : State) (port : Nat) (x : Qp) (q : RoceReq) (hk : Kept s₀ s) : Kept s₀ (State.rdmaRead s port x q) := by
  unfold State.rdmaRead; (repeat' split) <;> grind [State.accessError_kept, State.invalidReq_kept, State.modQp_kept, State.rdmaSend_kept, kept_mk, kept_iff, = keptOn_iff]

theorem State.execRdmaReadRequest_kept {s₀ : State} (port : Fin 2) (q : RoceReq) (s : State) (hk : Kept s₀ s) : KeptR s₀ (execRdmaReadRequest port q s) := by
  unfold execRdmaReadRequest; grind [State.rdmaRead_kept, State.roceRequest_kept, kept_mk, kept_iff, = keptOn_iff, keptR_next]

theorem State.writesAcked_kept {s₀ : State} (s : State) (q : Qp) (psn : Nat) (hk : Kept s₀ s) : Kept s₀ (State.writesAcked s q psn) := by
  unfold State.writesAcked; grind [State.filter_kept, → State.filter_kept', State.modQp_kept, State.sendTcdf_kept, kept_mk, kept_iff, = keptOn_iff, kept_foldl]

theorem State.execRoceAckReceive_kept {s₀ : State} (qpn psn : Nat) (a : RoceAck) (s : State) (hk : Kept s₀ s) : KeptR s₀ (execRoceAckReceive qpn psn a s) := by
  unfold execRoceAckReceive; grind [State.congestion_kept, State.modQp_kept, State.requesterFails_kept, State.storeFailed_kept, State.writesAcked_kept, kept_mk, kept_iff, = keptOn_iff, keptR_next]

theorem State.execRoceRetryTimeout_kept {s₀ : State} (qpn : Nat) (s : State) (hk : Kept s₀ s) : KeptR s₀ (execRoceRetryTimeout qpn s) := by
  unfold execRoceRetryTimeout; grind [State.emit_kept, State.modQp_kept, State.requesterFails_kept, State.sendRoce_kept, State.storeFailed_kept, kept_mk, kept_iff, = keptOn_iff, keptR_next]

theorem State.execCnpReceive_kept {s₀ : State} (qpn : Nat) (s : State) (hk : Kept s₀ s) : KeptR s₀ (execCnpReceive qpn s) := by
  unfold execCnpReceive; grind [State.modQp_kept, kept_mk, kept_iff, = keptOn_iff, keptR_next]

theorem State.execRateRestoreTimer_kept {s₀ : State} (qpn : Nat) (s : State) (hk : Kept s₀ s) : KeptR s₀ (execRateRestoreTimer qpn s) := by
  unfold execRateRestoreTimer; grind [State.modQp_kept, kept_mk, kept_iff, = keptOn_iff, keptR_next]

theorem State.unpause_kept {s₀ : State} (s : State) (port : Nat) (hk : Kept s₀ s) : Kept s₀ (State.unpause s port) := by
  unfold State.unpause; grind [State.emit_kept, State.filter_kept, → State.filter_kept', State.modEth_kept, kept_mk, kept_iff, = keptOn_iff, kept_foldl]

theorem State.execPauseFrameReceive_kept {s₀ : State} (port : Fin 2) (prios : BitVec 8) (s : State) (hk : Kept s₀ s) : KeptR s₀ (execPauseFrameReceive port prios s) := by
  unfold execPauseFrameReceive; grind [State.modEth_kept, State.unpause_kept, kept_mk, kept_iff, = keptOn_iff, keptR_next]

theorem State.execNeighbourFrame_kept {s₀ : State} (port : Fin 3) (f : NbrFrame) (s : State) (hk : Kept s₀ s) : KeptR s₀ (execNeighbourFrame port f s) := by
  unfold execNeighbourFrame; grind [State.emit_kept, State.modEth_kept, kept_mk, kept_iff, = keptOn_iff, keptR_next]

theorem State.execEthLink_kept {s₀ : State} (port : Fin 3) (up : Bool) (mode : Nat) (s : State) (hk : Kept s₀ s) : KeptR s₀ (execEthLink port up mode s) := by
  unfold execEthLink; grind [State.log_kept, State.modEth_kept, kept_mk, kept_iff, = keptOn_iff, keptR_next]

theorem State.stamp_kept {s₀ : State} (s : State) (hk : Kept s₀ s) : Kept s₀ (State.stamp s).2 := by
  unfold State.stamp; grind [State.timeNow_kept, → State.timeNow_kept', kept_mk, kept_iff, = keptOn_iff]
theorem State.stamp_kept' {s₀ t : State} {s : State} {y₀} (e₀ : (State.stamp s) = (y₀, t)) (hk : Kept s₀ s) : Kept s₀ t := by
  have := State.stamp_kept s hk; rw [e₀] at this; exact this

theorem kept_ptp {a s : State} {p : Ptp} (h : Kept a s)
    (e : p.locked = true → (s.ptp.locked = true ∧ p.everLock = s.ptp.everLock) ∨ p.everLock = true) : Kept a { s with ptp := p } := by
  refine ⟨h.1, h.2.1, h.2.2.1, h.2.2.2.1, fun g l => ?_, h.2.2.2.2.2⟩
  rcases e l with ⟨x, y⟩ | y
  · rw [y]; exact h.2.2.2.2.1 g x
  · exact y

theorem State.sendDelayReq_kept {s₀ : State} (s : State) (hk : Kept s₀ s) : Kept s₀ (State.sendDelayReq s) := by
  unfold State.sendDelayReq
  exact State.emit_kept (kept_ptp (State.stamp_kept _ hk) (fun l => .inl ⟨l, rfl⟩))

theorem State.ptpSet_kept {s₀ : State} (s : State) (off : BitVec 63) (hk : Kept s₀ s) : Kept s₀ (State.ptpSet s off) := by
  unfold State.ptpSet
  have h := kept_ptp (p := { s.ptp with everLock := true, base := s.ptp.base - off, locked := true, offset := off.setWidth 32, req := none })
    hk (fun _ => .inr rfl)
  exact kept_ite h (State.log_kept h)

theorem State.execPtpMessageReceive_kept {s₀ : State} (port : Fin 3) (m : PtpMsg) (time : BitVec 63) (s : State) (hk : Kept s₀ s) : KeptR s₀ (execPtpMessageReceive port m time s) := by
  unfold execPtpMessageReceive
  refine keptR_ite (keptR_of_next hk) ?_
  have h : Kept s₀ s.stamp.2 := State.stamp_kept _ hk
  generalize s.stamp = x at h
  obtain ⟨t, u⟩ := x
  dsimp only at h ⊢
  have g : ∀ y, Kept s₀ ({ u with ptp := { u.ptp with sync := y } } : State) := fun y => kept_ptp h (fun l => .inl ⟨l, rfl⟩)
  split
  · exact keptR_of_next (State.sendDelayReq_kept _ (g _))
  · exact keptR_of_next (g _)
  · exact keptR_ite (keptR_of_next (State.sendDelayReq_kept _ (g _))) (keptR_of_next h)
  · exact keptR_ite (keptR_of_next (State.ptpSet_kept _ _ h)) (keptR_of_next h)
  · exact keptR_of_next h

theorem State.execPtpMasterLoss_kept {s₀ : State} (s : State) (hk : Kept s₀ s) : KeptR s₀ (execPtpMasterLoss s) := by
  unfold execPtpMasterLoss
  refine keptR_ite (keptR_of_next (State.log_kept ?_)) (keptR_of_next hk)
  exact ⟨hk.1, hk.2.1, hk.2.2.1, hk.2.2.2.1, fun _ g => absurd g Bool.false_ne_true, hk.2.2.2.2.2⟩

end Sys2Proof.Machine
end

