-- ==== Sys2Proof/Laws/KeptQueue.lean ====
section
/-! SUPPORT. What each operation of Machine/Queue.lean keeps. -/
namespace Sys2Proof.Machine
open Sys2Proof

theorem State.opPost_kept {s₀ : State} (op : Nat) (s : State) (hk : Kept s₀ s) : Kept s₀ (opPost op s) := by
  unfold opPost; grind [State.startModule_kept, State.startWarm_kept]

theorem State.serveOne_kept {s₀ : State} (s : State) (w : Wait) (hk : Kept s₀ s) : Kept s₀ (State.serveOne s w) := by
  unfold State.serveOne
  refine kept_ite hk ?_
  extract_lets h0 t c
  have h : Kept s₀ (opEff w.op w.payload c t).1 := State.opEff_kept _ _ _ (kept_congr hk rfl rfl rfl rfl rfl rfl)
  split
  · rename_i e
    rw [e] at h
    exact kept_ite h (kept_ite (State.opPost_kept _ _ (State.answer_kept _ _ _ _ h)) (State.answer_kept _ _ _ _ h))
  · rename_i e
    rw [e] at h
    exact h

theorem State.serve_kept {s₀ : State} (s : State) (hk : Kept s₀ s) : Kept s₀ (State.serve s) :=
  kept_foldl _ _ (fun _ _ h => State.serveOne_kept _ _ h) _ hk

theorem State.execArmVerifyDone_kept {s₀ : State} (s : State) (hk : Kept s₀ s) : KeptR s₀ (execArmVerifyDone s) :=
  keptR_of_next (State.serve_kept _ (State.verifyDone_kept _ hk))

theorem State.execArmApplyDone_kept {s₀ : State} (err : Option (Nat × Nat)) (s : State) (hk : Kept s₀ s) : KeptR s₀ (execArmApplyDone err s) :=
  keptR_of_next (State.serve_kept _ (State.applyDone_kept _ _ hk))

theorem State.execRestoreComplete_kept {s₀ : State} (obj : Option StoreObj) (s : State) (hk : Kept s₀ s) : KeptR s₀ (execRestoreComplete obj s) :=
  keptR_of_next (State.serve_kept _ (State.restoreEnd_kept _ _ hk))

end Sys2Proof.Machine
end

