-- ==== Sys2Proof/Laws/KeptExec.lean ====
section
/-! SUPPORT. Every command keeps what `Kept` names. -/
namespace Sys2Proof.Machine
open Sys2Proof

/-- Whatever the command, a next state keeps the queue, the canonical forms of the HBM and of its poison map, the fuse
counter's value as a lower bound, the clock's flags and the bound of the retained log. -/
theorem exec_kept (i : Instr) (s : State) : KeptR s (exec i s) :=
  match i with
  | .armBegin m total => State.execArmBegin_kept m total s (Kept.refl s)
  | .armData m offset data => State.execArmData_kept m offset data s (Kept.refl s)
  | .armCommit m mode cells epoch => State.execArmCommit_kept m mode cells epoch s (Kept.refl s)
  | .armCancel m => State.execArmCancel_kept m s (Kept.refl s)
  | .armReceiveTimeout => State.execArmReceiveTimeout_kept s (Kept.refl s)
  | .armVerifyDone => State.execArmVerifyDone_kept s (Kept.refl s)
  | .armApplyDone err => State.execArmApplyDone_kept err s (Kept.refl s)
  | .armPersistDone => State.execArmPersistDone_kept s (Kept.refl s)
  | .tickDecision cell late => State.execTickDecision_kept cell late s (Kept.refl s)
  | .schedStall cell => State.execSchedStall_kept cell s (Kept.refl s)
  | .instrComplete core stream => State.execInstrComplete_kept core stream s (Kept.refl s)
  | .nop core stream w => State.execNop_kept core stream w s (Kept.refl s)
  | .mma core ws => State.execMma_kept core ws s (Kept.refl s)
  | .conv core ws => State.execConv_kept core ws s (Kept.refl s)
  | .smma core ws => State.execSmma_kept core ws s (Kept.refl s)
  | .tsp core ws => State.execTsp_kept core ws s (Kept.refl s)
  | .sgrad core ws => State.execSgrad_kept core ws s (Kept.refl s)
  | .arrayStreamStart core arr => State.execArrayStreamStart_kept core arr s (Kept.refl s)
  | .drain core w => State.execDrain_kept core w s (Kept.refl s)
  | .calRetryStart core arr errs => State.execCalRetryStart_kept core arr errs s (Kept.refl s)
  | .calRetryDone core arr errs => State.execCalRetryDone_kept core arr errs s (Kept.refl s)
  | .point core w => State.execPoint_kept core w s (Kept.refl s)
  | .pointReexecDone core flips => State.execPointReexecDone_kept core flips s (Kept.refl s)
  | .pointThirdExecDone core flips => State.execPointThirdExecDone_kept core flips s (Kept.refl s)
  | .heightenedReexec cell => State.execHeightenedReexec_kept cell s (Kept.refl s)
  | .droopTrip core mhz => State.execDroopTrip_kept core mhz s (Kept.refl s)
  | .mvp core w errs => State.execMvp_kept core w errs s (Kept.refl s)
  | .spmsp core w => State.execSpmsp_kept core w s (Kept.refl s)
  | .merge core w => State.execMerge_kept core w s (Kept.refl s)
  | .sort core w => State.execSort_kept core w s (Kept.refl s)
  | .topkidx core w => State.execTopkidx_kept core w s (Kept.refl s)
  | .pack core w => State.execPack_kept core w s (Kept.refl s)
  | .unpack core w => State.execUnpack_kept core w s (Kept.refl s)
  | .carve core w => State.execCarve_kept core w s (Kept.refl s)
  | .model core w => State.execModel_kept core w s (Kept.refl s)
  | .mstat core w => State.execMstat_kept core w s (Kept.refl s)
  | .plinthWriteAck core stream => State.execPlinthWriteAck_kept core stream s (Kept.refl s)
  | .homeLineWrite core stream => State.execHomeLineWrite_kept core stream s (Kept.refl s)
  | .add core w => State.execAdd_kept core w s (Kept.refl s)
  | .sub core w => State.execSub_kept core w s (Kept.refl s)
  | .mul core w => State.execMul_kept core w s (Kept.refl s)
  | .fma core w => State.execFma_kept core w s (Kept.refl s)
  | .min core w => State.execMin_kept core w s (Kept.refl s)
  | .max core w => State.execMax_kept core w s (Kept.refl s)
  | .abs core w => State.execAbs_kept core w s (Kept.refl s)
  | .neg core w => State.execNeg_kept core w s (Kept.refl s)
  | .mov core w => State.execMov_kept core w s (Kept.refl s)
  | .cmpeq core w => State.execCmpeq_kept core w s (Kept.refl s)
  | .cmplt core w => State.execCmplt_kept core w s (Kept.refl s)
  | .cmple core w => State.execCmple_kept core w s (Kept.refl s)
  | .sel core w => State.execSel_kept core w s (Kept.refl s)
  | .exp2 core w => State.execExp2_kept core w s (Kept.refl s)
  | .log2 core w => State.execLog2_kept core w s (Kept.refl s)
  | .rcp core w => State.execRcp_kept core w s (Kept.refl s)
  | .rsqrt core w => State.execRsqrt_kept core w s (Kept.refl s)
  | .tanh core w => State.execTanh_kept core w s (Kept.refl s)
  | .erf core w => State.execErf_kept core w s (Kept.refl s)
  | .sigm core w => State.execSigm_kept core w s (Kept.refl s)
  | .silu core w => State.execSilu_kept core w s (Kept.refl s)
  | .gelu core w => State.execGelu_kept core w s (Kept.refl s)
  | .rrow core w => State.execRrow_kept core w s (Kept.refl s)
  | .rcol core w => State.execRcol_kept core w s (Kept.refl s)
  | .maskgen core w => State.execMaskgen_kept core w s (Kept.refl s)
  | .cvt core w => State.execCvt_kept core w s (Kept.refl s)
  | .sr core w => State.execSr_kept core w s (Kept.refl s)
  | .smax core w => State.execSmax_kept core w s (Kept.refl s)
  | .oinit core w => State.execOinit_kept core w s (Kept.refl s)
  | .omax core w => State.execOmax_kept core w s (Kept.refl s)
  | .osum core w => State.execOsum_kept core w s (Kept.refl s)
  | .ofin core w => State.execOfin_kept core w s (Kept.refl s)
  | .update core w => State.execUpdate_kept core w s (Kept.refl s)
  | .gnormSq core w => State.execGnormSq_kept core w s (Kept.refl s)
  | .gnormFin core w => State.execGnormFin_kept core w s (Kept.refl s)
  | .gnormClr core w => State.execGnormClr_kept core w s (Kept.refl s)
  | .dma core w errs => State.execDma_kept core w errs s (Kept.refl s)
  | .copy core w => State.execCopy_kept core w s (Kept.refl s)
  | .xpose core w => State.execXpose_kept core w s (Kept.refl s)
  | .permute core w errs => State.execPermute_kept core w errs s (Kept.refl s)
  | .gather core w errs => State.execGather_kept core w errs s (Kept.refl s)
  | .scatter core w errs => State.execScatter_kept core w errs s (Kept.refl s)
  | .dmaComplete core ord => State.execDmaComplete_kept core ord s (Kept.refl s)
  | .rput core w => State.execRput_kept core w s (Kept.refl s)
  | .rget core w => State.execRget_kept core w s (Kept.refl s)
  | .ratom core w => State.execRatom_kept core w s (Kept.refl s)
  | .radd core w => State.execRadd_kept core w s (Kept.refl s)
  | .xch core w => State.execXch_kept core w s (Kept.refl s)
  | .sealOp core w errs => State.execSealOp_kept core w errs s (Kept.refl s)
  | .wait core w => State.execWait_kept core w s (Kept.refl s)
  | .signal core w => State.execSignal_kept core w s (Kept.refl s)
  | .rdv core w => State.execRdv_kept core w s (Kept.refl s)
  | .tickmark core w => State.execTickmark_kept core w s (Kept.refl s)
  | .stepEndArriveReady => State.execStepEndArriveReady_kept s (Kept.refl s)
  | .packetForward port pk => State.execPacketForward_kept port pk s (Kept.refl s)
  | .putReceive port pk => State.execPutReceive_kept port pk s (Kept.refl s)
  | .getreqReceive port pk errs => State.execGetreqReceive_kept port pk errs s (Kept.refl s)
  | .atomReceive port pk => State.execAtomReceive_kept port pk s (Kept.refl s)
  | .addsReceive port pk => State.execAddsReceive_kept port pk s (Kept.refl s)
  | .addaReceive port pk => State.execAddaReceive_kept port pk s (Kept.refl s)
  | .signalReceive port pk => State.execSignalReceive_kept port pk s (Kept.refl s)
  | .xcntReceive port pk => State.execXcntReceive_kept port pk s (Kept.refl s)
  | .xbaseReceive port pk => State.execXbaseReceive_kept port pk s (Kept.refl s)
  | .normReceive port pk => State.execNormReceive_kept port pk s (Kept.refl s)
  | .gnormTimeout => State.execGnormTimeout_kept s (Kept.refl s)
  | .sealxReceive port pk => State.execSealxReceive_kept port pk s (Kept.refl s)
  | .ackReceive port pk => State.execAckReceive_kept port pk s (Kept.refl s)
  | .nakReceive port pk => State.execNakReceive_kept port pk s (Kept.refl s)
  | .busyReceive port pk => State.execBusyReceive_kept port pk s (Kept.refl s)
  | .busyRetryTimer flow => State.execBusyRetryTimer_kept flow s (Kept.refl s)
  | .errReceive port pk => State.execErrReceive_kept port pk s (Kept.refl s)
  | .getdataReceive port pk => State.execGetdataReceive_kept port pk s (Kept.refl s)
  | .atomdataReceive port pk => State.execAtomdataReceive_kept port pk s (Kept.refl s)
  | .e2eTimeout flow => State.execE2eTimeout_kept flow s (Kept.refl s)
  | .hbTimer => State.execHbTimer_kept s (Kept.refl s)
  | .liveSetCheck => State.execLiveSetCheck_kept s (Kept.refl s)
  | .hbReceive port pk => State.execHbReceive_kept port pk s (Kept.refl s)
  | .headbeatReceive port pk => State.execHeadbeatReceive_kept port pk s (Kept.refl s)
  | .headbeatTimeout us => State.execHeadbeatTimeout_kept us s (Kept.refl s)
  | .deputyTakeoverTimer => State.execDeputyTakeoverTimer_kept s (Kept.refl s)
  | .headlessFenceTimer => State.execHeadlessFenceTimer_kept s (Kept.refl s)
  | .arriveReceive port pk => State.execArriveReceive_kept port pk s (Kept.refl s)
  | .releaseReceive port pk => State.execReleaseReceive_kept port pk s (Kept.refl s)
  | .rdvnakReceive port pk => State.execRdvnakReceive_kept port pk s (Kept.refl s)
  | .rdvTimeout name => State.execRdvTimeout_kept name s (Kept.refl s)
  | .deathReceive port pk => State.execDeathReceive_kept port pk s (Kept.refl s)
  | .deathAckReceive slot a => State.execDeathAckReceive_kept slot a s (Kept.refl s)
  | .fenceReceive port pk => State.execFenceReceive_kept port pk s (Kept.refl s)
  | .routesetReceive port pk => State.execRoutesetReceive_kept port pk s (Kept.refl s)
  | .tcdfReceive port pk => State.execTcdfReceive_kept port pk s (Kept.refl s)
  | .exprecReceive port pk => State.execExprecReceive_kept port pk s (Kept.refl s)
  | .resendReceive port pk => State.execResendReceive_kept port pk s (Kept.refl s)
  | .mirrorResendRequest mirror => State.execMirrorResendRequest_kept mirror s (Kept.refl s)
  | .exportSend => State.execExportSend_kept s (Kept.refl s)
  | .expDropRecord => State.execExpDropRecord_kept s (Kept.refl s)
  | .expPause on => State.execExpPause_kept on s (Kept.refl s)
  | .patrolTimer pl found => State.execPatrolTimer_kept pl found s (Kept.refl s)
  | .plcFlush pl => State.execPlcFlush_kept pl s (Kept.refl s)
  | .plcScrub pl found => State.execPlcScrub_kept pl found s (Kept.refl s)
  | .rowRepair pl chan bank row => State.execRowRepair_kept pl chan bank row s (Kept.refl s)
  | .frameRetire pl frame => State.execFrameRetire_kept pl frame s (Kept.refl s)
  | .noallocLineRelease pl line => State.execNoallocLineRelease_kept pl line s (Kept.refl s)
  | .regulatorServe pl => State.execRegulatorServe_kept pl s (Kept.refl s)
  | .xlInval core => State.execXlInval_kept core s (Kept.refl s)
  | .codewordReceive port cw => State.execCodewordReceive_kept port cw s (Kept.refl s)
  | .replayTimeout port => State.execReplayTimeout_kept port s (Kept.refl s)
  | .lnkTrainAttempt port => State.execLnkTrainAttempt_kept port s (Kept.refl s)
  | .trainingStepTimeout port => State.execTrainingStepTimeout_kept port s (Kept.refl s)
  | .trainingDone port healthy eyes => State.execTrainingDone_kept port healthy eyes s (Kept.refl s)
  | .linkHello port h => State.execLinkHello_kept port h s (Kept.refl s)
  | .linkCert port cert chain => State.execLinkCert_kept port cert chain s (Kept.refl s)
  | .linkSign port sig => State.execLinkSign_kept port sig s (Kept.refl s)
  | .authTimeout port => State.execAuthTimeout_kept port s (Kept.refl s)
  | .laneUnhealthy port l => State.execLaneUnhealthy_kept port l s (Kept.refl s)
  | .retrainDone port => State.execRetrainDone_kept port s (Kept.refl s)
  | .retrainTimeout port => State.execRetrainTimeout_kept port s (Kept.refl s)
  | .creditTimeout port vc => State.execCreditTimeout_kept port vc s (Kept.refl s)
  | .lnkRetrain port => State.execLnkRetrain_kept port s (Kept.refl s)
  | .lnkDrain port => State.execLnkDrain_kept port s (Kept.refl s)
  | .lnkDrainEnd port => State.execLnkDrainEnd_kept port s (Kept.refl s)
  | .lnkUnquar port => State.execLnkUnquar_kept port s (Kept.refl s)
  | .lnkQuar port => State.execLnkQuar_kept port s (Kept.refl s)
  | .byeReceive port => State.execByeReceive_kept port s (Kept.refl s)
  | .fltBudgetExpiry cell => State.execFltBudgetExpiry_kept cell s (Kept.refl s)
  | .fltRetry cell us => State.execFltRetry_kept cell us s (Kept.refl s)
  | .fltGiveup cell => State.execFltGiveup_kept cell s (Kept.refl s)
  | .ctxPreempt cell => State.execCtxPreempt_kept cell s (Kept.refl s)
  | .cellPreempt m cell => State.execCellPreempt_kept m cell s (Kept.refl s)
  | .preemptSaveDone cell bad us => State.execPreemptSaveDone_kept cell bad us s (Kept.refl s)
  | .ctxResume cell => State.execCtxResume_kept cell s (Kept.refl s)
  | .cellResume m cell => State.execCellResume_kept m cell s (Kept.refl s)
  | .resumeDone cell => State.execResumeDone_kept cell s (Kept.refl s)
  | .snapCaptureDone us => State.execSnapCaptureDone_kept us s (Kept.refl s)
  | .snapFlashDrainDone ok => State.execSnapFlashDrainDone_kept ok s (Kept.refl s)
  | .snapStoreDrainDone ok => State.execSnapStoreDrainDone_kept ok s (Kept.refl s)
  | .snapUploadDone => State.execSnapUploadDone_kept s (Kept.refl s)
  | .snpTake => State.execSnpTake_kept s (Kept.refl s)
  | .snpAbortup => State.execSnpAbortup_kept s (Kept.refl s)
  | .restore m source gen step => State.execRestore_kept m source gen step s (Kept.refl s)
  | .restoreComplete obj => State.execRestoreComplete_kept obj s (Kept.refl s)
  | .slotAssign m slot hash => State.execSlotAssign_kept m slot hash s (Kept.refl s)
  | .fillAttachDone slot => State.execFillAttachDone_kept slot s (Kept.refl s)
  | .fillCopyDone slot stale => State.execFillCopyDone_kept slot stale s (Kept.refl s)
  | .fleetResume m all => State.execFleetResume_kept m all s (Kept.refl s)
  | .sessionOpen port no cert nonce => State.execSessionOpen_kept port no cert nonce s (Kept.refl s)
  | .sessionConfirm m => State.execSessionConfirm_kept m s (Kept.refl s)
  | .sessionConfirmTimeout id => State.execSessionConfirmTimeout_kept id s (Kept.refl s)
  | .sessionClose m => State.execSessionClose_kept m s (Kept.refl s)
  | .sessionIdleTimeout id => State.execSessionIdleTimeout_kept id s (Kept.refl s)
  | .rekey m => State.execRekey_kept m s (Kept.refl s)
  | .keepalive m => State.execKeepalive_kept m s (Kept.refl s)
  | .evtSubscribe m sev => State.execEvtSubscribe_kept m sev s (Kept.refl s)
  | .notifyAck m ack => State.execNotifyAck_kept m ack s (Kept.refl s)
  | .notifyResendTimer id => State.execNotifyResendTimer_kept id s (Kept.refl s)
  | .csrRead m addr count => State.execCsrRead_kept m addr count s (Kept.refl s)
  | .csrWrite m addr words => State.execCsrWrite_kept m addr words s (Kept.refl s)
  | .evtRead m first count => State.execEvtRead_kept m first count s (Kept.refl s)
  | .status m => State.execStatus_kept m s (Kept.refl s)
  | .cellReset m cell => State.execCellReset_kept m cell s (Kept.refl s)
  | .tokenPost m cell lcore token count => State.execTokenPost_kept m cell lcore token count s (Kept.refl s)
  | .qpOpen m port hqpn hpsn pmtu gid => State.execQpOpen_kept m port hqpn hpsn pmtu gid s (Kept.refl s)
  | .qpClose m qpn => State.execQpClose_kept m qpn s (Kept.refl s)
  | .storeQp m target rqpn rpsn => State.execStoreQp_kept m target rqpn rpsn s (Kept.refl s)
  | .warmReset m => State.execWarmReset_kept m s (Kept.refl s)
  | .moduleReset m => State.execModuleReset_kept m s (Kept.refl s)
  | .attest m nonce => State.execAttest_kept m nonce s (Kept.refl s)
  | .rdmaWriteReceive port q => State.execRdmaWriteReceive_kept port q s (Kept.refl s)
  | .rdmaReadRequest port q => State.execRdmaReadRequest_kept port q s (Kept.refl s)
  | .roceAckReceive qpn psn a => State.execRoceAckReceive_kept qpn psn a s (Kept.refl s)
  | .roceRetryTimeout qpn => State.execRoceRetryTimeout_kept qpn s (Kept.refl s)
  | .cnpReceive qpn => State.execCnpReceive_kept qpn s (Kept.refl s)
  | .rateRestoreTimer qpn => State.execRateRestoreTimer_kept qpn s (Kept.refl s)
  | .pauseFrameReceive port prios => State.execPauseFrameReceive_kept port prios s (Kept.refl s)
  | .neighbourFrame port f => State.execNeighbourFrame_kept port f s (Kept.refl s)
  | .ethLink port up mode => State.execEthLink_kept port up mode s (Kept.refl s)
  | .ptpMessageReceive port m time => State.execPtpMessageReceive_kept port m time s (Kept.refl s)
  | .ptpMasterLoss => State.execPtpMasterLoss_kept s (Kept.refl s)
  | .aonPowerUp => State.execAonPowerUp_kept s (Kept.refl s)
  | .enAssert => State.execEnAssert_kept s (Kept.refl s)
  | .mrstAssert us => State.execMrstAssert_kept us s (Kept.refl s)
  | .watchdogExpiry => State.execWatchdogExpiry_kept s (Kept.refl s)
  | .sramUe => State.execSramUe_kept s (Kept.refl s)
  | .thermalTrip readings => State.execThermalTrip_kept readings s (Kept.refl s)
  | .bootTimeout => State.execBootTimeout_kept s (Kept.refl s)
  | .overVoltage => State.execOverVoltage_kept s (Kept.refl s)
  | .resetStageDone extRef fail => State.execResetStageDone_kept extRef fail s (Kept.refl s)
  | .resetStageTimeout cause => State.execResetStageTimeout_kept cause s (Kept.refl s)
  | .blockResetRequest block => State.execBlockResetRequest_kept block s (Kept.refl s)
  | .blockQuiesceEnd block idle outstanding => State.execBlockQuiesceEnd_kept block idle outstanding s (Kept.refl s)
  | .supplyWarning vin => State.execSupplyWarning_kept vin s (Kept.refl s)
  | .vinBelowRecovery vin => State.execVinBelowRecovery_kept vin s (Kept.refl s)
  | .supplyRecoveryTimer us => State.execSupplyRecoveryTimer_kept us s (Kept.refl s)
  | .supplyResetLevel => State.execSupplyResetLevel_kept s (Kept.refl s)
  | .aonLevelLoss => State.execAonLevelLoss_kept s (Kept.refl s)
  | .presenceDetect => State.execPresenceDetect_kept s (Kept.refl s)
  | .pwrgdTimeout => State.execPwrgdTimeout_kept s (Kept.refl s)
  | .enDeassert => State.execEnDeassert_kept s (Kept.refl s)
  | .removalPhaseDone ms => State.execRemovalPhaseDone_kept ms s (Kept.refl s)
  | .removalFlushTimeout => State.execRemovalFlushTimeout_kept s (Kept.refl s)
  | .surpriseRemoval => State.execSurpriseRemoval_kept s (Kept.refl s)
  | .idleEntry => State.execIdleEntry_kept s (Kept.refl s)
  | .pwrTarget on => State.execPwrTarget_kept on s (Kept.refl s)
  | .standbyEntered => State.execStandbyEntered_kept s (Kept.refl s)
  | .pwrVminclr => State.execPwrVminclr_kept s (Kept.refl s)
  | .refclkFail => State.execRefclkFail_kept s (Kept.refl s)
  | .coreOvertemp core temp => State.execCoreOvertemp_kept core temp s (Kept.refl s)
  | .coreCooldown core temp => State.execCoreCooldown_kept core temp s (Kept.refl s)
  | .throttleStep => State.execThrottleStep_kept s (Kept.refl s)
  | .hbmRefreshBoost pl => State.execHbmRefreshBoost_kept pl s (Kept.refl s)
  | .hbmHotStart pl temp => State.execHbmHotStart_kept pl temp s (Kept.refl s)
  | .powerOverLimit watts => State.execPowerOverLimit_kept watts s (Kept.refl s)
  | .coolantAlarm inlet flow => State.execCoolantAlarm_kept inlet flow s (Kept.refl s)
  | .evtLogCopyTimer => State.execEvtLogCopyTimer_kept s (Kept.refl s)
  | .suppressionWindowClose code kind inst => State.execSuppressionWindowClose_kept code kind inst s (Kept.refl s)
  | .patinaWriteTimer => State.execPatinaWriteTimer_kept s (Kept.refl s)
  | .fwBegin => State.execFwBegin_kept s (Kept.refl s)
  | .fwVerify => State.execFwVerify_kept s (Kept.refl s)
  | .fwInstall => State.execFwInstall_kept s (Kept.refl s)
  | .fwInstallDone ok => State.execFwInstallDone_kept ok s (Kept.refl s)
  | .ownCommit => State.execOwnCommit_kept s (Kept.refl s)
  | .surveyDue => State.execSurveyDue_kept s (Kept.refl s)
  | .surveyStart => State.execSurveyStart_kept s (Kept.refl s)
  | .surveyAbortCmd => State.execSurveyAbortCmd_kept s (Kept.refl s)
  | .surveyIslandDone core r => State.execSurveyIslandDone_kept core r s (Kept.refl s)
  | .surveyOverdue island days => State.execSurveyOverdue_kept island days s (Kept.refl s)
  | .calSuspectClear mask => State.execCalSuspectClear_kept mask s (Kept.refl s)
  | .trlpHello seq => State.execTrlpHello_kept seq s (Kept.refl s)
  | .trlpLoad seq offset data => State.execTrlpLoad_kept seq offset data s (Kept.refl s)
  | .trlpCommit seq => State.execTrlpCommit_kept seq s (Kept.refl s)
  | .trlpOwner seq hash => State.execTrlpOwner_kept seq hash s (Kept.refl s)
  | .trlpReboot seq => State.execTrlpReboot_kept seq s (Kept.refl s)
  | .registerWrite host addr value => State.execRegisterWrite_kept host addr value s (Kept.refl s)
  | .droopResponseEnd core => State.execDroopResponseEnd_kept core s (Kept.refl s)
  | .hbmHotEnd pl temp => State.execHbmHotEnd_kept pl temp s (Kept.refl s)
  | .hbmRefreshNormal pl => State.execHbmRefreshNormal_kept pl s (Kept.refl s)
  | .powerThrottleEnd watts => State.execPowerThrottleEnd_kept watts s (Kept.refl s)
  | .thermalTripRailRestore => State.execThermalTripRailRestore_kept s (Kept.refl s)
  | .overVoltageClear => State.execOverVoltageClear_kept s (Kept.refl s)
  | .enHoldoffExpiry => State.execEnHoldoffExpiry_kept s (Kept.refl s)
  | .enReinsertDelay => State.execEnReinsertDelay_kept s (Kept.refl s)
  | .linkLocalFallback => State.execLinkLocalFallback_kept s (Kept.refl s)

end Sys2Proof.Machine
end

