-- ==== Sys2Proof/WellFormed.lean ====
section
/-! DEFINITION. When a command is well formed: the lengths and ranges that the specification gives the operands (R46, R47,
R422, R448, R520, R522, R531, R536, R584, R619). A command outside them is one that no wire can carry; the meanings are total
all the same. -/
namespace Sys2Proof

/-- A TCD message: 4-byte session, EPOCH and SEQ, 1-byte targets, a 16-byte TAG (R522). -/
def Msg.wf (m : Msg) : Bool :=
  decide (m.session < 2 ^ 32) && decide (m.epoch < 2 ^ 32) && decide (m.seq < 2 ^ 32) && decide (m.tfleet < 256) &&
    decide (m.tslot < 256) && decide (m.tag.length = 16)

/-- A gallery packet: its header fields within their widths, at most 4,096 B, a poison bit for each word (R448). -/
def Packet.wf (p : Packet) : Bool :=
  decide (p.ptype < 256) && decide (p.cls < 2) && decide (p.fleet < 64) && decide (p.slot < 64) && decide (p.addr < 2 ^ 44) &&
    decide (p.sfleet < 64) && decide (p.sslot < 64) && decide (p.sinc < 65536) && decide (p.dinc < 65536) &&
    decide (p.seq < 2 ^ 32) && decide (p.ttoken < 256) && decide (p.data.length ≤ 4096) &&
    p.pois.all (fun w => decide (4 * w < p.data.length))

/-- A sector of the HBM (R364, R369). -/
def SectorErr.wf (e : SectorErr) : Bool :=
  decide (e.addr % 64 = 0) && decide (e.addr < 0x16800000000) && (e.mis.isEmpty || (!e.ue && e.mis.length == 64))

/-- What arrives on the lanes: each physical lane once, at most the 544 symbols of a codeword in all (R421, R422). -/
def lanesWf (l : Lanes) : Bool :=
  decide ((l.map Prod.fst).Nodup) && l.all (fun x => decide (x.1 < 20)) && decide ((l.map (fun x => x.2.2.length)).sum ≤ 544)

/-- A HELLO: its claims within their widths (R432). -/
def Hello.wf (h : Hello) : Bool := decide (h.fleet < 64) && decide (h.slot < 64) && decide (h.inc < 65536) && decide (h.role < 8)

/-- A RoCEv2 request: 24-bit queue pair and PSN, at most 4,096 B (R536). -/
def RoceReq.wf (q : RoceReq) : Bool :=
  decide (q.qpn < 2 ^ 24) && decide (q.psn < 2 ^ 24) && decide (q.part < 4) && decide (q.rkey < 2 ^ 32) &&
    decide (q.data.length ≤ 4096)

/-- A frame of at least 64 B (R520). -/
def NbrFrame.wf (f : NbrFrame) : Bool := decide (64 ≤ f.len)

/-- A trip reading: kinds 1 to 4 (R605, R619). -/
def TripReading.wf (r : TripReading) : Bool := decide (1 ≤ r.kind ∧ r.kind ≤ 4) && decide (r.temp < 256)

/-- An error that fits the 42-bit datapath of a tree output (R66, R211): a row of at most 128, one of 1,024 DPUs, one of 512 blocks. -/
def TreeErr.wf (e : TreeErr) : Bool :=
  decide (e.row < 128) && decide (e.dpu < 1024) && decide (e.k < 512) && decide (e.err.natAbs < 2 ^ 42)

/-- A well-formed command. -/
def Instr.wf : Instr → Bool
  | .armBegin m total => m.wf && decide (total < 2 ^ 64)
  | .armData m offset data => m.wf && decide (offset < 2 ^ 64) && decide (1 ≤ data.length ∧ data.length ≤ 8192)
  | .armCommit m mode _ _ => m.wf && decide (mode < 256)
  | .armCancel m => m.wf
  | .armReceiveTimeout => true
  | .armVerifyDone => true
  | .armApplyDone _ => true
  | .armPersistDone => true
  | .tickDecision _ _ => true
  | .schedStall _ => true
  | .instrComplete _ _ => true
  | .nop _ _ _ => true
  | .mma _ ws => decide (1 ≤ ws.length ∧ ws.length ≤ 4)
  | .conv _ ws => decide (1 ≤ ws.length ∧ ws.length ≤ 4)
  | .smma _ ws => decide (1 ≤ ws.length ∧ ws.length ≤ 4)
  | .tsp _ ws => decide (1 ≤ ws.length ∧ ws.length ≤ 4)
  | .sgrad _ ws => decide (1 ≤ ws.length ∧ ws.length ≤ 4)
  | .arrayStreamStart _ _ => true
  | .drain _ _ => true
  | .calRetryStart _ _ errs => errs.all TreeErr.wf
  | .calRetryDone _ _ errs => errs.all TreeErr.wf
  | .point _ _ => true
  | .pointReexecDone _ _ => true
  | .pointThirdExecDone _ _ => true
  | .heightenedReexec _ => true
  | .droopTrip _ _ => true
  | .mvp _ _ errs => errs.all TreeErr.wf
  | .spmsp _ _ => true
  | .merge _ _ => true
  | .sort _ _ => true
  | .topkidx _ _ => true
  | .pack _ _ => true
  | .unpack _ _ => true
  | .carve _ _ => true
  | .model _ _ => true
  | .mstat _ _ => true
  | .plinthWriteAck _ _ => true
  | .homeLineWrite _ _ => true
  | .add _ _ => true
  | .sub _ _ => true
  | .mul _ _ => true
  | .fma _ _ => true
  | .min _ _ => true
  | .max _ _ => true
  | .abs _ _ => true
  | .neg _ _ => true
  | .mov _ _ => true
  | .cmpeq _ _ => true
  | .cmplt _ _ => true
  | .cmple _ _ => true
  | .sel _ _ => true
  | .exp2 _ _ => true
  | .log2 _ _ => true
  | .rcp _ _ => true
  | .rsqrt _ _ => true
  | .tanh _ _ => true
  | .erf _ _ => true
  | .sigm _ _ => true
  | .silu _ _ => true
  | .gelu _ _ => true
  | .rrow _ _ => true
  | .rcol _ _ => true
  | .maskgen _ _ => true
  | .cvt _ _ => true
  | .sr _ _ => true
  | .smax _ _ => true
  | .oinit _ _ => true
  | .omax _ _ => true
  | .osum _ _ => true
  | .ofin _ _ => true
  | .update _ _ => true
  | .gnormSq _ _ => true
  | .gnormFin _ _ => true
  | .gnormClr _ _ => true
  | .dma _ _ errs => errs.all SectorErr.wf
  | .copy _ _ => true
  | .xpose _ _ => true
  | .permute _ _ errs => errs.all SectorErr.wf
  | .gather _ _ errs => errs.all SectorErr.wf
  | .scatter _ _ errs => errs.all SectorErr.wf
  | .dmaComplete _ ord => decide (ord < 2 ^ 32)
  | .rput _ _ => true
  | .rget _ _ => true
  | .ratom _ _ => true
  | .radd _ _ => true
  | .xch _ _ => true
  | .sealOp _ _ errs => errs.all SectorErr.wf
  | .wait _ _ => true
  | .signal _ _ => true
  | .rdv _ _ => true
  | .tickmark _ _ => true
  | .stepEndArriveReady => true
  | .packetForward _ pk => pk.wf
  | .putReceive _ pk => pk.wf
  | .getreqReceive _ pk errs => pk.wf && errs.all SectorErr.wf
  | .atomReceive _ pk => pk.wf
  | .addsReceive _ pk => pk.wf
  | .addaReceive _ pk => pk.wf
  | .signalReceive _ pk => pk.wf
  | .xcntReceive _ pk => pk.wf
  | .xbaseReceive _ pk => pk.wf
  | .normReceive _ pk => pk.wf
  | .gnormTimeout => true
  | .sealxReceive _ pk => pk.wf
  | .ackReceive _ pk => pk.wf
  | .nakReceive _ pk => pk.wf
  | .busyReceive _ pk => pk.wf
  | .busyRetryTimer flow => decide (flow < 4096)
  | .errReceive _ pk => pk.wf
  | .getdataReceive _ pk => pk.wf
  | .atomdataReceive _ pk => pk.wf
  | .e2eTimeout flow => decide (flow < 4096)
  | .hbTimer => true
  | .liveSetCheck => true
  | .hbReceive _ pk => pk.wf
  | .headbeatReceive _ pk => pk.wf
  | .headbeatTimeout us => decide (us < 2 ^ 32)
  | .deputyTakeoverTimer => true
  | .headlessFenceTimer => true
  | .arriveReceive _ pk => pk.wf
  | .releaseReceive _ pk => pk.wf
  | .rdvnakReceive _ pk => pk.wf
  | .rdvTimeout name => decide (name < 65536)
  | .deathReceive _ pk => pk.wf
  | .deathAckReceive _ _ => true
  | .fenceReceive _ pk => pk.wf
  | .routesetReceive _ pk => pk.wf
  | .tcdfReceive _ pk => pk.wf
  | .exprecReceive _ pk => pk.wf
  | .resendReceive _ pk => pk.wf
  | .mirrorResendRequest mirror => decide (mirror < 64)
  | .exportSend => true
  | .expDropRecord => true
  | .expPause _ => true
  | .patrolTimer _ found => found.all SectorErr.wf
  | .plcFlush _ => true
  | .plcScrub _ found => found.all SectorErr.wf
  | .rowRepair _ chan bank row => decide (chan < 32) && decide (bank < 64) && decide (row < 65536)
  | .frameRetire _ frame => decide (frame < 36864)
  | .noallocLineRelease _ line => decide (line < 2 ^ 44)
  | .regulatorServe _ => true
  | .xlInval _ => true
  | .codewordReceive _ lanes => lanesWf lanes
  | .replayTimeout _ => true
  | .lnkTrainAttempt _ => true
  | .trainingStepTimeout _ => true
  | .trainingDone _ _ eyes => decide (eyes.length ≤ 20)
  | .linkHello _ h => h.wf
  | .linkCert _ _ _ => true
  | .linkSign _ _ => true
  | .authTimeout _ => true
  | .laneUnhealthy _ _ => true
  | .retrainDone _ => true
  | .retrainTimeout _ => true
  | .creditTimeout _ _ => true
  | .lnkRetrain _ => true
  | .lnkDrain _ => true
  | .lnkDrainEnd _ => true
  | .lnkUnquar _ => true
  | .lnkQuar _ => true
  | .byeReceive _ => true
  | .fltBudgetExpiry _ => true
  | .fltRetry _ us => decide (us < 2 ^ 32)
  | .fltGiveup _ => true
  | .ctxPreempt _ => true
  | .cellPreempt m cell => m.wf && decide (cell < 256)
  | .preemptSaveDone _ _ us => decide (us < 2 ^ 32)
  | .ctxResume _ => true
  | .cellResume m cell => m.wf && decide (cell < 256)
  | .resumeDone _ => true
  | .snapCaptureDone us => decide (us < 2 ^ 32)
  | .snapFlashDrainDone _ => true
  | .snapStoreDrainDone _ => true
  | .snapUploadDone => true
  | .snpTake => true
  | .snpAbortup => true
  | .restore m source gen _ => m.wf && decide (source < 256) && decide (gen < 256)
  | .restoreComplete _ => true
  | .slotAssign m slot hash => m.wf && decide (slot < 256) && decide (hash.length = 32)
  | .fillAttachDone _ => true
  | .fillCopyDone _ _ => true
  | .fleetResume m _ => m.wf
  | .sessionOpen _ no _ nonce => decide (no.epoch < 2 ^ 32) && decide (no.seq < 2 ^ 32) && decide (nonce.length = 32)
  | .sessionConfirm m => m.wf
  | .sessionConfirmTimeout id => decide (id < 2 ^ 32)
  | .sessionClose m => m.wf
  | .sessionIdleTimeout id => decide (id < 2 ^ 32)
  | .rekey m => m.wf
  | .keepalive m => m.wf
  | .evtSubscribe m sev => m.wf && decide (sev < 256)
  | .notifyAck m _ => m.wf
  | .notifyResendTimer id => decide (id < 2 ^ 32)
  | .csrRead m addr count => m.wf && decide (addr < 2 ^ 64) && decide (count < 65536)
  | .csrWrite m addr words => m.wf && decide (addr < 2 ^ 64) && decide (1 ≤ words.length ∧ words.length ≤ 1048)
  | .evtRead m first count => m.wf && decide (first < 2 ^ 32) && decide (count < 65536)
  | .status m => m.wf
  | .cellReset m cell => m.wf && decide (cell < 256)
  | .tokenPost m cell lcore token count => m.wf && decide (cell < 256) && decide (lcore < 256) && decide (token < 256) && decide (count < 256)
  | .qpOpen m port hqpn hpsn pmtu gid => m.wf && decide (port < 256) && decide (hqpn < 2 ^ 32) && decide (hpsn < 2 ^ 32) && decide (pmtu < 256) && decide (gid.length = 16)
  | .qpClose m qpn => m.wf && decide (qpn < 2 ^ 32)
  | .storeQp m target rqpn rpsn => m.wf && decide (target < 256) && decide (rqpn < 2 ^ 32) && decide (rpsn < 2 ^ 32)
  | .warmReset m => m.wf
  | .moduleReset m => m.wf
  | .attest m nonce => m.wf && decide (nonce.length = 32)
  | .rdmaWriteReceive _ q => q.wf
  | .rdmaReadRequest _ q => q.wf
  | .roceAckReceive qpn psn _ => decide (qpn < 2 ^ 32) && decide (psn < 2 ^ 24)
  | .roceRetryTimeout qpn => decide (qpn < 2 ^ 32)
  | .cnpReceive qpn => decide (qpn < 2 ^ 32)
  | .rateRestoreTimer qpn => decide (qpn < 2 ^ 32)
  | .pauseFrameReceive _ _ => true
  | .neighbourFrame _ f => f.wf
  | .ethLink _ _ mode => decide (mode < 8)
  | .ptpMessageReceive _ m _ => decide (m.transport ≤ 2) && decide (m.domain ≤ 127) && decide (m.seq < 2 ^ 16)
  | .ptpMasterLoss => true
  | .aonPowerUp => true
  | .enAssert => true
  | .mrstAssert us => decide (us < 2 ^ 32)
  | .watchdogExpiry => true
  | .sramUe => true
  | .thermalTrip readings => decide (readings ≠ []) && readings.all TripReading.wf
  | .bootTimeout => true
  | .overVoltage => true
  | .resetStageDone _ _ => true
  | .resetStageTimeout cause => decide (cause < 8)
  | .blockResetRequest _ => true
  | .blockQuiesceEnd _ _ outstanding => decide (outstanding < 65536)
  | .supplyWarning _ => true
  | .vinBelowRecovery _ => true
  | .supplyRecoveryTimer us => decide (us < 2 ^ 32)
  | .supplyResetLevel => true
  | .aonLevelLoss => true
  | .presenceDetect => true
  | .pwrgdTimeout => true
  | .enDeassert => true
  | .removalPhaseDone ms => decide (ms < 2 ^ 32)
  | .removalFlushTimeout => true
  | .surpriseRemoval => true
  | .idleEntry => true
  | .pwrTarget _ => true
  | .standbyEntered => true
  | .pwrVminclr => true
  | .refclkFail => true
  | .coreOvertemp _ _ => true
  | .coreCooldown _ _ => true
  | .throttleStep => true
  | .hbmRefreshBoost _ => true
  | .hbmHotStart _ _ => true
  | .powerOverLimit watts => decide (watts < 65536)
  | .coolantAlarm _ flow => decide (flow < 65536)
  | .evtLogCopyTimer => true
  | .suppressionWindowClose _ kind inst => decide (kind < 256) && decide (inst < 65536)
  | .patinaWriteTimer => true
  | .fwBegin => true
  | .fwVerify => true
  | .fwInstall => true
  | .fwInstallDone _ => true
  | .ownCommit => true
  | .surveyDue => true
  | .surveyStart => true
  | .surveyAbortCmd => true
  | .surveyIslandDone _ _ => true
  | .surveyOverdue island days => decide (island < 256) && decide (days < 2 ^ 32)
  | .calSuspectClear _ => true
  | .trlpHello _ => true
  | .trlpLoad _ offset data => decide (offset < 2 ^ 64) && decide (1 ≤ data.length ∧ data.length ≤ 8192)
  | .trlpCommit _ => true
  | .trlpOwner _ hash => decide (hash.length = 32)
  | .trlpReboot _ => true
  | .registerWrite _ addr _ => decide (addr < 2 ^ 44 + 8)
  | .droopResponseEnd _ => true
  | .hbmHotEnd _ _ => true
  | .hbmRefreshNormal _ => true
  | .powerThrottleEnd watts => decide (watts < 65536)
  | .thermalTripRailRestore => true
  | .overVoltageClear => true
  | .enHoldoffExpiry => true
  | .enReinsertDelay => true
  | .linkLocalFallback => true

end Sys2Proof
end

