-- ==== Sys2Proof/Tests/Slice0.lean ====
section
/-! SUPPORT. The model's own tests: ill-formed commands are refused, and a witness that meets the hypotheses of each statement that has
some. -/
namespace Sys2Proof.Tests
open Sys2Proof Sys2Proof.Machine Sys2Proof.Claims

set_option Elab.async false

/-- Reset memory is canonical. -/
theorem test_reset_memOk : State.reset.memOk = true := by decide

/-! Well-formedness: for each check a command that fails it alone, and one that passes. -/

/-- A well-formed message. -/
def msg0 : Msg := { tag := List.replicate 16 0 }

/-- The fields of a message, a packet, a record of the HBM, the symbols of the lanes, a HELLO, a request, a frame and a reading. -/
theorem test_wf_parts :
    msg0.wf = true ∧ ({ msg0 with session := 2 ^ 32 } : Msg).wf = false ∧ ({ msg0 with epoch := 2 ^ 32 } : Msg).wf = false ∧
    ({ msg0 with seq := 2 ^ 32 } : Msg).wf = false ∧ ({ msg0 with tfleet := 256 } : Msg).wf = false ∧
    ({ msg0 with tslot := 256 } : Msg).wf = false ∧ ({ msg0 with tag := [0] } : Msg).wf = false ∧
    Packet.wf {} = true ∧ (∀ p ∈ ([{ ptype := 256 }, { cls := 2 }, { fleet := 64 }, { slot := 64 }, { addr := 2 ^ 44 }, { sfleet := 64 },
      { sslot := 64 }, { sinc := 65536 }, { dinc := 65536 }, { seq := 2 ^ 32 }, { ttoken := 256 }, { pois := [0] }] : List Packet), p.wf = false) ∧
    ({ data := List.replicate 4097 0 } : Packet).wf = false ∧ SectorErr.wf { addr := 64 } = true ∧ SectorErr.wf { addr := 32 } = false ∧
    SectorErr.wf { addr := 0x16800000000 } = false ∧
    SectorErr.wf { mis := [1] } = false ∧ SectorErr.wf { ue := true, mis := List.replicate 64 1 } = false ∧
    SectorErr.wf { mis := List.replicate 64 1 } = true ∧ TreeErr.wf {} = true ∧ TreeErr.wf { row := 128 } = false ∧
    TreeErr.wf { dpu := 1024 } = false ∧ TreeErr.wf { k := 512 } = false ∧ TreeErr.wf { err := -4398046511104 } = false ∧ lanesWf [] = true ∧
    lanesWf [(0, false, []), (0, false, [])] = false ∧ lanesWf [(20, false, [])] = false ∧
    lanesWf [(0, false, List.replicate 544 0), (1, false, [0])] = false ∧
    Hello.wf {} = true ∧ Hello.wf { fleet := 64 } = false ∧ Hello.wf { slot := 64 } = false ∧ Hello.wf { inc := 65536 } = false ∧
    Hello.wf { role := 8 } = false ∧ RoceReq.wf {} = true ∧ RoceReq.wf { qpn := 2 ^ 24 } = false ∧ RoceReq.wf { psn := 2 ^ 24 } = false ∧
    RoceReq.wf { part := 4 } = false ∧ RoceReq.wf { rkey := 2 ^ 32 } = false ∧ RoceReq.wf { data := List.replicate 4097 0 } = false ∧
    NbrFrame.wf {} = true ∧ NbrFrame.wf { len := 63 } = false ∧ TripReading.wf {} = false ∧ TripReading.wf { kind := 4 } = true ∧
    TripReading.wf { kind := 5 } = false ∧ TripReading.wf { kind := 1, temp := 256 } = false := by decide +kernel

theorem test_wf_compute_and_memory :
    ∀ c ∈ [Instr.mma 0 [], .conv 0 [], .smma 0 [], .tsp 0 [], .sgrad 0 [0, 0, 0, 0, 0], .calRetryStart 0 0 [⟨128, 0, 0, 1⟩],
      .calRetryDone 0 0 [⟨0, 1024, 0, 1⟩], .mvp 0 0 [⟨0, 0, 512, 1⟩], .dma 0 0 [⟨1, true, []⟩], .permute 0 0 [⟨1, true, []⟩],
      .gather 0 0 [⟨1, true, []⟩], .scatter 0 0 [⟨1, true, []⟩], .sealOp 0 0 [⟨1, true, []⟩], .dmaComplete 0 (2 ^ 32), .patrolTimer 0 [⟨1, true, []⟩],
      .plcScrub 0 [⟨1, true, []⟩], .rowRepair 0 32 0 0, .rowRepair 0 0 64 0, .rowRepair 0 0 0 65536, .frameRetire 0 36864,
      .noallocLineRelease 0 (2 ^ 44)], c.wf = false := by decide +kernel

theorem test_wf_timers :
    ∀ c ∈ [Instr.busyRetryTimer 4096, .e2eTimeout 4096, .headbeatTimeout (2 ^ 32), .rdvTimeout 65536, .mirrorResendRequest 64,
      .codewordReceive 0 [(20, false, [])], .trainingDone 0 {} (List.replicate 21 (0, 0)), .linkHello 0 { role := 8 }, .fltRetry 0 (2 ^ 32),
      .preemptSaveDone 0 false (2 ^ 32), .snapCaptureDone (2 ^ 32), .sessionConfirmTimeout (2 ^ 32), .sessionIdleTimeout (2 ^ 32),
      .notifyResendTimer (2 ^ 32), .roceRetryTimeout (2 ^ 32), .cnpReceive (2 ^ 32), .rateRestoreTimer (2 ^ 32), .mrstAssert (2 ^ 32),
      .resetStageTimeout 8, .supplyRecoveryTimer (2 ^ 32), .removalPhaseDone (2 ^ 32)], c.wf = false := by decide +kernel

theorem test_wf_messages :
    (∀ c ∈ [Instr.armBegin msg0 (2 ^ 64), .armData msg0 (2 ^ 64) [0], .armData msg0 0 [], .armCommit msg0 256 0 0, .armCancel {},
      .cellPreempt msg0 256, .cellResume msg0 256, .restore msg0 256 0 0, .restore msg0 0 256 0, .slotAssign msg0 256 (List.replicate 32 0),
      .slotAssign msg0 0 [], .sessionOpen 0 {} [] [], .sessionOpen 0 { epoch := 2 ^ 32 } [] (List.replicate 32 0),
      .sessionOpen 0 { seq := 2 ^ 32 } [] (List.replicate 32 0), .evtSubscribe msg0 256, .csrRead msg0 (2 ^ 64) 0, .csrRead msg0 0 65536,
      .csrWrite msg0 (2 ^ 64) [0], .csrWrite msg0 0 [], .evtRead msg0 (2 ^ 32) 0, .evtRead msg0 0 65536, .cellReset msg0 256,
      .tokenPost msg0 256 0 0 0, .tokenPost msg0 0 256 0 0, .tokenPost msg0 0 0 256 0, .tokenPost msg0 0 0 0 256], c.wf = false) ∧
    (∀ c ∈ [Instr.fleetResume {} 0, .sessionConfirm {}, .sessionClose {}, .rekey {}, .keepalive {}, .notifyAck {} 0, .status {},
      .warmReset {}, .moduleReset {}], c.wf = false) ∧
    ∀ c ∈ [Instr.qpOpen msg0 256 0 0 0 (List.replicate 16 0), .qpOpen msg0 0 (2 ^ 32) 0 0 (List.replicate 16 0),
      .qpOpen msg0 0 0 (2 ^ 32) 0 (List.replicate 16 0), .qpOpen msg0 0 0 0 256 (List.replicate 16 0), .qpOpen msg0 0 0 0 0 [],
      .qpClose msg0 (2 ^ 32), .storeQp msg0 256 0 0, .storeQp msg0 0 (2 ^ 32) 0, .storeQp msg0 0 0 (2 ^ 32), .attest msg0 [],
      .rdmaWriteReceive 0 { part := 4 }, .rdmaReadRequest 0 { part := 4 }, .roceAckReceive (2 ^ 32) 0 {},
      .roceAckReceive 0 (2 ^ 24) {}, .ptpMessageReceive 0 { transport := 3 } 0, .ptpMessageReceive 0 { domain := 128 } 0,
      .ptpMessageReceive 0 { seq := 2 ^ 16 } 0, .neighbourFrame 0 { len := 63 }, .ethLink 0 true 8], c.wf = false := by decide +kernel

theorem test_wf_management :
    ∀ c ∈ [Instr.thermalTrip [], .thermalTrip [{ kind := 5 }], .blockQuiesceEnd 0 true 65536, .powerOverLimit 65536, .coolantAlarm 0 65536,
      .suppressionWindowClose 0 256 0, .suppressionWindowClose 0 0 65536, .surveyOverdue 256 0, .surveyOverdue 0 (2 ^ 32),
      .trlpLoad 0 (2 ^ 64) [0], .trlpLoad 0 0 [], .trlpOwner 0 [], .registerWrite true (2 ^ 44 + 8) 0, .powerThrottleEnd 65536],
      c.wf = false := by decide +kernel

/-- A packet with a header field out of its width, for the commands that carry one. -/
def badPk : Packet := { ptype := 256 }

theorem test_wf_packets :
    ∀ c ∈ [Instr.packetForward none badPk, .putReceive none badPk, .getreqReceive none badPk [], .getreqReceive none {} [⟨1, true, []⟩],
      .atomReceive none badPk, .addsReceive none badPk, .addaReceive none badPk, .signalReceive none badPk, .xcntReceive none badPk,
      .xbaseReceive none badPk, .normReceive none badPk, .sealxReceive none badPk, .ackReceive none badPk, .nakReceive none badPk,
      .busyReceive none badPk, .errReceive none badPk, .getdataReceive none badPk, .atomdataReceive none badPk, .hbReceive none badPk,
      .headbeatReceive none badPk, .arriveReceive none badPk, .releaseReceive none badPk, .rdvnakReceive none badPk, .deathReceive none badPk,
      .fenceReceive none badPk, .routesetReceive none badPk, .tcdfReceive none badPk, .exprecReceive none badPk, .resendReceive none badPk],
      c.wf = false := by decide +kernel

/-! Helpers: a module that is OPERATIONAL, one whose cell 0 has an instruction at the head of a stream, bytes of a block. -/

/-- A module that is OPERATIONAL with nothing loaded. -/
def up : State := { State.reset with rst := { stage := 8 }, pwr := { off := false } }

/-- An instruction word: opcode, modifiers and the bits below. -/
def word (opc mod rest : Nat) : BitVec 128 := BitVec.ofNat 128 (opc * 2 ^ 104 + mod * 2 ^ 96 + rest)

/-- Fields put into zeros: offset, width and value of each. -/
def blk (n : Nat) (fs : List (Nat × (Nat × Nat))) : List Byte :=
  fs.foldl (fun b f => bput b f.1 (leBytes f.2.1 f.2.2)) (List.replicate n 0)

/-- Cell 0 of cores 0 and 1 runs, with words at the head of a stream of core 0 and a block at byte 64 of its store. -/
def ready (st : Nat) (ws : List (BitVec 128)) (b : List (Nat × (Nat × Nat))) (n : Nat := 64) : State :=
  { up with cells := [(0, { mask := 3, prog := [(st, ws)], run0 := .run, run1 := .run, run2 := .run })],
            cores := [(0, ({} : Core).write 64 (blk n b) false)] }

/-- The gate of a row is open and its plan is made. -/
def issuesB (s : State) (r : IssueRow) : Bool :=
  match s.mayIssue r.core r.stream r.ws with
  | none => false
  | some x => match r.plan x with | .ok _ => true | .error _ => false

/-- The gate of a row is open and its plan is refused. -/
def refusesB (s : State) (r : IssueRow) : Bool :=
  match s.mayIssue r.core r.stream r.ws with
  | none => false
  | some x => match r.plan x with | .ok _ => false | .error _ => true

/-- The row's word has the row's opcode. -/
def headB (r : IssueRow) : Bool := match r.ws with | w :: _ => wOpc w == r.opc | [] => false

theorem head_of {r : IssueRow} (h : headB r = true) : ∃ w, r.ws.head? = some w ∧ wOpc w = r.opc := by
  unfold headB at h
  split at h
  · rename_i w l hw
    exact ⟨w, by rw [hw]; rfl, by simpa using h⟩
  · cases h

theorem issues_of {s : State} {r : IssueRow} (h : (headB r && !s.cfg.debug && issuesB s r) = true) : ∃ x ps, Issues s r x ps := by
  simp only [Bool.and_eq_true, Bool.not_eq_true'] at h
  obtain ⟨⟨hw, hd⟩, hi⟩ := h
  unfold issuesB at hi
  split at hi
  · cases hi
  · rename_i x hx
    split at hi
    · rename_i ps hp
      exact ⟨x, ps, head_of hw, hx, hp, fun h => by simp [hd] at h⟩
    · cases hi

/-- A command's row, its context and plans meet what the statements of issue ask. -/
def CanIssue (f : State → Instr → Option IssueRow) (s : State) (c : Instr) : Prop :=
  ∃ r x ps, f s c = some r ∧ Issues s r x ps

/-- The same as a test. -/
def canIssueB (f : State → Instr → Option IssueRow) (s : State) (c : Instr) : Bool :=
  match f s c with
  | some r => headB r && !s.cfg.debug && issuesB s r
  | none => false

theorem canIssue_of {f : State → Instr → Option IssueRow} {s : State} {c : Instr} (h : canIssueB f s c = true) : CanIssue f s c := by
  unfold canIssueB at h
  split at h
  · rename_i r hr
    obtain ⟨x, ps, hi⟩ := issues_of h
    exact ⟨r, x, ps, hr, hi⟩
  · cases h

/-- The rows of the DMA and SYN streams without their effects. -/
def dataRow (s : State) (c : Instr) : Option IssueRow :=
  match transferRow s c, remoteRow c, synRow s c with
  | some p, _, _ => some p.1
  | none, some p, _ => some p.1
  | none, none, some p => some p.1
  | none, none, none => none

/-! Instructions issue. -/

/-- The block of an array product: E4M3 weights and activations (R281). -/
def denseBlk : List (Nat × (Nat × Nat)) := [(24, 1, 2), (25, 1, 2)]

/-- The block of a relief product: stride 128, G = 8, K-extent 32 (R129, R281). -/
def reliefBlk : List (Nat × (Nat × Nat)) := denseBlk ++ [(12, 4, 128), (27, 1, 8), (28, 2, 32)]

/-- MMA, CONV and DRAIN issue. -/
theorem test_dense_products_issue :
    (let w := word 0x10 0 (2 ^ 42); CanIssue computeRow (ready 0 [w] denseBlk) (.mma 0 [w])) ∧
    (let w := word 0x11 0 (2 ^ 42)
     CanIssue computeRow (ready 0 [w] (denseBlk ++ [(36, 2, 1), (38, 2, 1), (40, 2, 32), (42, 6, 0x010101010101)])) (.conv 0 [w])) ∧
    (let w := word 0x18 0 0; CanIssue computeRow (ready 0 [w] []) (.drain 0 w)) :=
  ⟨canIssue_of (by decide +kernel), canIssue_of (by decide +kernel), canIssue_of (by decide +kernel)⟩

/-- SMMA, TSP and SGRAD issue. -/
theorem test_relief_products_issue :
    (let w := word 0x12 0 (2 ^ 42); CanIssue computeRow (ready 0 [w] reliefBlk) (.smma 0 [w])) ∧
    (let w := word 0x13 0 (2 ^ 42); CanIssue computeRow (ready 0 [w] reliefBlk) (.tsp 0 [w])) ∧
    (let w := word 0x14 0 (2 ^ 42); CanIssue computeRow (ready 0 [w] (reliefBlk ++ [(26, 1, 2)])) (.sgrad 0 [w])) :=
  ⟨canIssue_of (by decide +kernel), canIssue_of (by decide +kernel), canIssue_of (by decide +kernel)⟩

/-- NOP and MVP issue. -/
theorem test_nop_mvp_issue :
    (let w := word 1 0 0; CanIssue computeRow (ready 3 [w] []) (.nop 0 3 w)) ∧
    (let w := word 0x20 0 0; CanIssue computeRow (ready 1 [w] []) (.mvp 0 w [])) :=
  ⟨canIssue_of (by decide +kernel), canIssue_of (by decide +kernel)⟩

/-- A state with a merge-engine word of an opcode, and its block. -/
def mergeReady (opc : Nat) (b : List (Nat × (Nat × Nat))) : State := ready 2 [word opc 0 (2 ^ 53)] b

/-- The merge engine's record instructions issue. -/
theorem test_merge_issue :
    CanIssue computeRow (mergeReady 0x30 [(4, 4, 1024), (8, 4, 2048), (12, 4, 1), (16, 4, 1024), (20, 4, 2048), (24, 4, 1),
      (28, 4, 4096), (32, 4, 8192), (36, 4, 1)]) (.spmsp 0 (word 0x30 0 (2 ^ 53))) ∧
    CanIssue computeRow (mergeReady 0x31 [(1, 1, 2), (4, 4, 1024), (8, 4, 4096), (12, 4, 1)]) (.merge 0 (word 0x31 0 (2 ^ 53))) ∧
    CanIssue computeRow (mergeReady 0x32 [(4, 4, 1024), (8, 4, 2), (12, 4, 4096)]) (.sort 0 (word 0x32 0 (2 ^ 53))) ∧
    CanIssue computeRow (mergeReady 0x33 [(0, 4, 1024), (4, 4, 8), (8, 2, 1), (10, 1, 2), (11, 1, 1), (12, 2, 1), (14, 1, 1),
      (16, 4, 4096)]) (.topkidx 0 (word 0x33 0 (2 ^ 53))) :=
  ⟨canIssue_of (by decide +kernel), canIssue_of (by decide +kernel), canIssue_of (by decide +kernel), canIssue_of (by decide +kernel)⟩

/-- PACK issues. -/
theorem test_pack_issue :
    CanIssue computeRow (mergeReady 0x38 [(0, 4, 1024), (4, 4, 1), (8, 4, 65536), (12, 4, 128), (16, 2, 32), (22, 1, 8), (23, 1, 1)])
      (.pack 0 (word 0x38 0 (2 ^ 53))) := canIssue_of (by decide +kernel)

/-- CARVE, MODEL and MSTAT issue. -/
theorem test_mask_issue :
    CanIssue computeRow (mergeReady 0x3A [(0, 4, 1024), (4, 4, 1), (20, 2, 32)]) (.carve 0 (word 0x3A 0 (2 ^ 53))) ∧
    CanIssue computeRow (mergeReady 0x3B [(0, 4, 1024), (4, 4, 1), (20, 2, 32), (23, 1, 1), (24, 4, 4096)])
      (.model 0 (word 0x3B 0 (2 ^ 53))) ∧
    CanIssue computeRow (mergeReady 0x3C [(0, 4, 1024), (4, 4, 1), (8, 4, 4096), (12, 2, 32)]) (.mstat 0 (word 0x3C 0 (2 ^ 53))) :=
  ⟨canIssue_of (by decide +kernel), canIssue_of (by decide +kernel), canIssue_of (by decide +kernel)⟩

/-- A state with a vector word. -/
def vecReady (w : BitVec 128) : State := ready 3 [w] []

/-- Element-wise instructions, MASKGEN, SR and the first step of GNORM by opcode. -/
def elementCases : List (Nat × (BitVec 128 → Instr)) :=
  [(0x40, .add 0), (0x41, .sub 0), (0x42, .mul 0), (0x43, .fma 0), (0x44, .min 0), (0x45, .max 0), (0x46, .abs 0), (0x47, .neg 0),
   (0x48, .mov 0), (0x49, .cmpeq 0), (0x4A, .cmplt 0), (0x4B, .cmple 0), (0x4C, .sel 0), (0x50, .exp2 0), (0x51, .log2 0),
   (0x52, .rcp 0), (0x53, .rsqrt 0), (0x54, .tanh 0), (0x55, .erf 0), (0x56, .sigm 0), (0x57, .silu 0), (0x58, .gelu 0),
   (0x5C, .maskgen 0), (0x5E, .sr 0), (0x69, .gnormSq 0)]

/-- They issue on one element. -/
theorem test_elements_issue : ∀ p ∈ elementCases, CanIssue vectorRow (vecReady (word p.1 0 0)) (p.2 (word p.1 0 0)) := fun p hp =>
  canIssue_of ((by decide +kernel :
    ∀ p ∈ elementCases, canIssueB vectorRow (vecReady (word p.1 0 0)) (p.2 (word p.1 0 0)) = true) p hp)

/-- Reductions, CVT, SMAX, the online operations and the clearing of GNORM: opcode, modifiers and lower bits. -/
def rowCases : List ((Nat × (Nat × Nat)) × (BitVec 128 → Instr)) :=
  [((0x5A, 0, 127 * 2 ^ 59), .rrow 0), ((0x5B, 0, 127 * 2 ^ 59), .rcol 0), ((0x5D, 0x10, 127 * 2 ^ 59), .cvt 0),
   ((0x5F, 0x40, 127 * 2 ^ 59 + 0x3F800000), .smax 0), ((0x60, 0, 15 * 2 ^ 59 + 64 * 2 ^ 35 + 0x3F800000), .oinit 0),
   ((0x61, 0, 15 * 2 ^ 59 + 64 * 2 ^ 35), .omax 0), ((0x62, 0, 15 * 2 ^ 59 + 64 * 2 ^ 35), .osum 0),
   ((0x63, 0, 15 * 2 ^ 59 + 64 * 2 ^ 35), .ofin 0), ((0x69, 0x20, 0), .gnormClr 0)]

/-- The word of such a row. -/
def rowWord (p : Nat × (Nat × Nat)) : BitVec 128 := word p.1 p.2.1 p.2.2

/-- They issue on rows. -/
theorem test_rows_issue : ∀ p ∈ rowCases, CanIssue vectorRow (vecReady (rowWord p.1)) (p.2 (rowWord p.1)) := fun p hp =>
  canIssue_of ((by decide +kernel :
    ∀ p ∈ rowCases, canIssueB vectorRow (vecReady (rowWord p.1)) (p.2 (rowWord p.1)) = true) p hp)

/-- UPDATE, the last step of GNORM, and WAIT issue. -/
theorem test_update_issue :
    (let w := word 0x68 0 (2 ^ 35)
     CanIssue vectorRow (ready 3 [w] [(4, 4, 1), (16, 4, 1024), (24, 2, 32), (44, 4, 0x3F800000), (56, 4, 0x3F800000),
       (60, 4, 0x3F800000)]) (.update 0 w)) ∧
    (let w := word 0x69 0x10 (2 ^ 35); CanIssue vectorRow (ready 3 [w] [(16, 4, 0x3F800000)]) (.gnormFin 0 w)) ∧
    (let w := word 0xA0 0 0; CanIssue vectorRow (ready 5 [w] []) (.wait 0 w)) :=
  ⟨canIssue_of (by decide +kernel), canIssue_of (by decide +kernel), canIssue_of (by decide +kernel)⟩

/-- A state with a DMA-stream word of an opcode, and its block. -/
def dmaReady (opc : Nat) (b : List (Nat × (Nat × Nat))) (n : Nat := 64) : State := ready 4 [word opc 0 (2 ^ 53)] b n

/-- The word of such an instruction. -/
def dmaWord (opc : Nat) : BitVec 128 := word opc 0 (2 ^ 53)

/-- Local transfers and SEAL issue. -/
theorem test_transfers_issue :
    CanIssue dataRow (dmaReady 0x80 [(8, 4, 4096), (16, 4, 8192), (24, 4, 64)]) (.dma 0 (dmaWord 0x80) []) ∧
    CanIssue dataRow (dmaReady 0x81 [(4, 4, 4096), (8, 4, 8192), (12, 4, 64)]) (.copy 0 (dmaWord 0x81)) ∧
    CanIssue dataRow (dmaReady 0x82 [(0, 1, 4), (4, 4, 4096), (8, 4, 8192), (12, 4, 2), (16, 4, 2), (20, 4, 64), (24, 4, 64)])
      (.xpose 0 (dmaWord 0x82)) ∧
    CanIssue dataRow (dmaReady 0x83 [(0, 4, 128), (4, 4, 256), (64, 4, 4096), (73, 1, 1), (96, 4, 16), (100, 4, 1), (192, 4, 8192),
      (201, 1, 1), (224, 4, 16), (228, 4, 1)] 320) (.permute 0 (dmaWord 0x83) []) ∧
    CanIssue dataRow (dmaReady 0x84 [(4, 4, 1), (8, 4, 4096), (20, 4, 1), (24, 4, 64), (32, 4, 8192)]) (.gather 0 (dmaWord 0x84) []) ∧
    CanIssue dataRow (dmaReady 0x85 [(4, 4, 1), (8, 4, 4096), (20, 4, 1), (24, 4, 64), (32, 4, 8192)]) (.scatter 0 (dmaWord 0x85) []) ∧
    CanIssue dataRow { dmaReady 0xB0 [(0, 4, 4096), (16, 4, 256), (24, 4, 8192)] with cfg := { sealkey := some 1 } }
      (.sealOp 0 (dmaWord 0xB0) []) :=
  ⟨canIssue_of (by decide +kernel), canIssue_of (by decide +kernel), canIssue_of (by decide +kernel), canIssue_of (by decide +kernel),
   canIssue_of (by decide +kernel), canIssue_of (by decide +kernel), canIssue_of (by decide +kernel)⟩

/-- Remote operations issue. -/
theorem test_remote_issue :
    CanIssue dataRow (dmaReady 0x90 [(0, 4, 4096), (8, 4, 4096), (12, 4, 64)]) (.rput 0 (dmaWord 0x90)) ∧
    CanIssue dataRow (dmaReady 0x91 [(0, 4, 4096), (8, 4, 4096), (12, 4, 64)]) (.rget 0 (dmaWord 0x91)) ∧
    CanIssue dataRow (dmaReady 0x92 [(0, 4, 4096), (8, 4, 4096), (13, 1, 4)]) (.ratom 0 (dmaWord 0x92)) ∧
    CanIssue dataRow (dmaReady 0x93 [(0, 4, 4096), (8, 4, 4096), (12, 4, 256), (22, 2, 1)]) (.radd 0 (dmaWord 0x93)) ∧
    CanIssue dataRow (dmaReady 0x94 [(0, 4, 4096), (4, 4, 8192), (8, 4, 1), (12, 4, 64), (16, 4, 12288), (20, 2, 1), (22, 2, 1),
      (32, 4, 16384)]) (.xch 0 (dmaWord 0x94)) :=
  ⟨canIssue_of (by decide +kernel), canIssue_of (by decide +kernel), canIssue_of (by decide +kernel), canIssue_of (by decide +kernel),
   canIssue_of (by decide +kernel)⟩

/-- A cell whose step has been released, with a word at the head of the SYN stream of its only core. -/
def released (w : BitVec 128) : State :=
  { up with cells := [(0, { mask := 1, prog := [(5, [w])], run0 := .run, run1 := .run, run2 := .run, released := true })] }

/-- SIGNAL, RDV, STEP_END and TICKMARK issue. -/
theorem test_syn_issue :
    (let w := word 0xA1 0 (2 ^ 41 + 2 ^ 33); CanIssue dataRow (ready 5 [w] []) (.signal 0 w)) ∧
    (let w := word 0xA2 0 (2 ^ 70 + 2 ^ 54)
     CanIssue dataRow { ready 5 [w] [] with cfg := { rdvdefs := [(1, (1, (1, 100)))] } } (.rdv 0 w)) ∧
    (let w := word 0xA2 0 0; CanIssue dataRow (released w) (.rdv 0 w)) ∧
    (let w := word 0xA3 0 0; CanIssue dataRow (ready 5 [w] []) (.tickmark 0 w)) :=
  ⟨canIssue_of (by decide +kernel), canIssue_of (by decide +kernel), canIssue_of (by decide +kernel), canIssue_of (by decide +kernel)⟩

/-- POINT issues. -/
theorem test_point_issue : let w := word 0xB1 0 0
    ∃ x ps, Issues (ready 0 [w] []) (oneWord 0 0 0xB1 w ((ready 0 [w] []).planPointOf ((ready 0 [w] []).pointChoice ((ready 0 [w] []).cell 0) 0) w)) x ps :=
  issues_of (by decide +kernel)

/-- An array product whose formats do not fit, and a reduction of one element, are refused. -/
theorem test_refused :
    (let w := word 0x10 0 (2 ^ 42); refusesB (ready 0 [w] []) ⟨0, 0, 0x10, [w], planProduct [w]⟩ = true) ∧
    (let w := word 0x5A 0 0; refusesB (vecReady w) (oneWord 0 3 0x5A w (planReduce false false w)) = true) := by decide +kernel

/-! UNPACK: its plan reads 1,024 slices, so its witness is made by hand. -/

/-- A cell whose merge stream has UNPACK of records of 128 B from byte 0 to byte 0. -/
def unpackReady : State :=
  { up with cells := [(0, { mask := 1, prog := [(2, [word 0x39 0 (2 ^ 53)])], run0 := .run, run1 := .run, run2 := .run })],
            cores := [(0, { store := [(68, 128), (76, 32), (82, 8), (83, 1)] })] }

theorem unpackSlice_len (co : Core) (g k0 kext form fmt a : Nat) : (unpackSlice co g k0 kext form fmt a).1.length ≤ 32 := by
  unfold unpackSlice
  simp only [List.length_map]
  exact (List.length_filter_le _ _).trans (by simp)

theorem foldl_add_le (l : List Nat) (c a : Nat) (h : ∀ x ∈ l, x ≤ c) : l.foldl (· + ·) a ≤ a + c * l.length := by
  induction l generalizing a with
  | nil => simp
  | cons x r ih =>
    have h1 := ih (a + x) (fun y hy => h y (List.mem_cons_of_mem _ hy))
    have h2 := h x (List.mem_cons_self ..)
    simp only [List.foldl_cons, List.length_cons, Nat.mul_add, Nat.mul_one]
    omega

theorem dstOk_low (n : Nat) (h : n ≤ 262144) : dstOk (unpackReady.cell 0) 0 n = true := by
  have h1 : (unpackReady.cell 0).pwin = 0x13E7000 := by decide +kernel
  have h2 : (unpackReady.cell 0).bounce = none := by decide +kernel
  simp only [dstOk, inStore, overlaps, storeSize, ringBase, h1, h2]
  simp
  omega

theorem ok_bind {ε α β : Type} {m : Except ε α} {f : α → Except ε β} (a : α) (hm : m = .ok a) (hf : ∃ p, f a = .ok p) :
    ∃ p, (m >>= f) = .ok p := by subst hm; exact hf

theorem oneWord_plan {core st opc : Nat} {w : BitVec 128} {f : IssueCtx → Except Refuse Plan} {x : IssueCtx} {p : Plan}
    (h : f x = .ok p) : (oneWord core st opc w f).plan x = .ok [p] := by simp only [oneWord, h]

theorem unpack_ok (x : IssueCtx) (hco : x.co = unpackReady.core 0) (hc : x.c = unpackReady.cell 0) :
    ∃ p, planUnpack unpackReady (word 0x39 0 (2 ^ 53)) x = .ok p := by
  have hb : rdBlock x.co 0x39 (64 * wf (word 0x39 0 (2 ^ 53)) 71 53) 64 64 = .ok ((unpackReady.core 0).read 64 64) := by
    have ha : 64 * wf (word 0x39 0 (2 ^ 53)) 71 53 = 64 := by decide +kernel
    rw [ha, hco]
    unfold rdBlock
    rw [if_neg (by decide +kernel), if_neg (by decide +kernel), if_neg (by decide +kernel)]
  have h19 : bit (bfld ((unpackReady.core 0).read 64 64) 19 1) 0 = true := by decide +kernel
  have h8 : bfld ((unpackReady.core 0).read 64 64) 8 4 = 0 := by decide +kernel
  unfold planUnpack
  refine ok_bind _ hb ?_
  refine ok_bind [] (if_pos h19) ?_
  refine ok_bind () (by decide +kernel) ?_
  refine ok_bind () (if_pos h19 ▸ rfl) ?_
  refine ok_bind () (if_pos ?_) ⟨_, rfl⟩
  rw [Bool.and_eq_true]
  refine ⟨by decide +kernel, ?_⟩
  rw [if_pos h19, h8, hc]
  refine dstOk_low _ ?_
  have h := foldl_add_le (List.map (fun c => c.1.length) (List.map (fun n => unpackSlice x.co
    (bfld ((unpackReady.core 0).read 64 64) 18 1) (bfld ((unpackReady.core 0).read 64 64) 14 2)
    (bfld ((unpackReady.core 0).read 64 64) 12 2) (bits (bfld ((unpackReady.core 0).read 64 64) 19 1) 1 1)
    (bfld ((unpackReady.core 0).read 64 64) 20 1)
    (bfld ((unpackReady.core 0).read 64 64) 0 4 + n * bfld ((unpackReady.core 0).read 64 64) 4 4)) (List.range 1024))) 32 0 (by
      intro x hx
      simp only [List.map_map, List.mem_map] at hx
      obtain ⟨n, _, rfl⟩ := hx
      exact unpackSlice_len ..)
  simp only [List.length_map, List.length_range] at h
  omega

/-- UNPACK issues. -/
theorem test_unpack_issues : CanIssue computeRow unpackReady (.unpack 0 (word 0x39 0 (2 ^ 53))) := by
  obtain ⟨x, hx⟩ := Option.isSome_iff_exists.mp (by decide +kernel : (unpackReady.mayIssue 0 2 [word 0x39 0 (2 ^ 53)]).isSome = true)
  have hi := State.mayIssue_inv hx
  have hk : x.k = 0 := by
    have h0 : unpackReady.cellOf 0 = some 0 := by decide +kernel
    have h1 := hi.2.2.2.1.symm.trans h0
    exact Option.some.inj h1
  obtain ⟨p, hp⟩ := unpack_ok x hi.2.1 (by rw [hi.2.2.2.2.2.1, hk])
  exact ⟨_, x, [p], rfl, ⟨_, rfl, by decide +kernel⟩, hx, oneWord_plan hp, fun h => absurd h (by decide +kernel)⟩

/-! One instruction in flight on core 0, the only core of cell 0. -/

/-- Cell 0 runs on core 0 with these instructions in flight. -/
def flight (es : List Entry) (c : Cell := {}) : State :=
  { up with cells := [(0, { c with mask := 1, run0 := .run })], cores := [(0, { inflight := es })] }

/-- An array instruction of MMA that streams on array 0 with a weight load behind it. -/
def arrayOp : Entry := { word := word 0x10 0 0, arrOp := some {}, streaming := true, doneCycle := 8 }

theorem entry_of_empty {co : Core} (h : co.inflight = []) (st ord : Nat) : co.entry st ord = none := by
  unfold Core.entry; rw [h]; rfl

theorem dataRow_some {s : State} {c : Instr} {r : IssueRow} (h : dataRow s c = some r) :
    ∃ f, transferRow s c = some (r, f) ∨ remoteRow c = some (r, f) ∨ synRow s c = some (r, f) := by
  unfold dataRow at h
  rcases h1 : transferRow s c with _ | p
  · rcases h2 : remoteRow c with _ | p
    · rcases h3 : synRow s c with _ | p
      · simp only [h1, h2, h3] at h; cases h
      · simp only [h1, h2, h3] at h; cases h; exact ⟨p.2, .inr (.inr rfl)⟩
    · simp only [h1, h2] at h; cases h; exact ⟨p.2, .inr (.inl rfl)⟩
  · simp only [h1] at h; cases h; exact ⟨p.2, .inl rfl⟩

/-- DataAndSyncInstructionsIssue: a COPY meets every hypothesis. -/
theorem test_data_hyps : ∃ (c : Instr) (s : State) (r : IssueRow) (f : State → IssueCtx → Entry → State) (x : IssueCtx) (ps : List Plan),
    (transferRow s c = some (r, f) ∨ remoteRow c = some (r, f) ∨ synRow s c = some (r, f)) ∧ Issues s r x ps ∧
    (s.core r.core).entry r.stream x.ord = none := by
  obtain ⟨r, x, ps, hr, hi⟩ := test_transfers_issue.2.1
  obtain ⟨f, hf⟩ := dataRow_some hr
  have hc : r.core = 0 := by
    have h : (dataRow (dmaReady 0x81 [(4, 4, 4096), (8, 4, 8192), (12, 4, 64)]) (.copy 0 (dmaWord 0x81))).map (·.core) = some 0 := by
      decide +kernel
    rw [hr] at h
    exact Option.some.inj h
  exact ⟨_, _, r, f, x, ps, hf, hi, entry_of_empty (by rw [hc]; decide +kernel) _ _⟩

/-- CopyMovesItsBytes. -/
theorem test_copy_hyps : ∃ (core : Fin 48) (w : BitVec 128) (s : State) (x : IssueCtx) (p : Plan),
    Issues s (oneWord core 4 0x81 w (planCopy w)) x [p] ∧ (s.core core).entry 4 x.ord = none := by
  obtain ⟨x, ps, h⟩ := issues_of (s := dmaReady 0x81 [(4, 4, 4096), (8, 4, 8192), (12, 4, 64)])
    (r := oneWord (0 : Fin 48) 4 0x81 (dmaWord 0x81) (planCopy (dmaWord 0x81))) (by decide +kernel)
  have hp : ∃ p, ps = [p] := by
    have h2 := h.2.2.1
    simp only [oneWord] at h2
    split at h2
    · exact ⟨_, (Except.ok.inj h2).symm⟩
    · cases h2
  obtain ⟨p, rfl⟩ := hp
  exact ⟨0, _, _, x, p, h, entry_of_empty (by decide +kernel) _ _⟩

/-- IssueAdvancesTheStream. -/
theorem test_issue_hyps : ∃ (s : State) (x : IssueCtx) (p : Plan), Plan.unitsOnly p ∧ s.cfg.debug = false ∧ x.co = s.core x.n := by
  obtain ⟨r, x, ps, hr, hi⟩ := test_transfers_issue.2.1
  exact ⟨up, { x with co := up.core x.n }, { entry := {} }, fun _ => rfl, rfl, rfl⟩

/-- RefusedInstructionFaults. -/
theorem refused_of {s : State} {r : IssueRow} (h : refusesB s r = true) :
    ∃ x e, s.mayIssue r.core r.stream r.ws = some x ∧ r.plan x = .error e := by
  unfold refusesB at h
  split at h
  · cases h
  · rename_i x hx
    split at h
    · cases h
    · rename_i e he
      exact ⟨x, e, hx, he⟩

theorem test_refused_hyps : ∃ (c : Instr) (s : State) (r : IssueRow) (x : IssueCtx) (e : Refuse),
    (computeRow s c = some r ∨ vectorRow s c = some r) ∧ (∃ w, r.ws.head? = some w ∧ wOpc w = r.opc) ∧
    s.mayIssue r.core r.stream r.ws = some x ∧ r.plan x = .error e := by
  obtain ⟨x, e, hx, he⟩ := refused_of test_refused.1
  exact ⟨.mma 0 [word 0x10 0 (2 ^ 42)], _, _, x, e, .inl rfl, ⟨_, rfl, by decide +kernel⟩, hx, he⟩

/-- tickDecisionSteps, and a tick held for a unit: an array word whose tick runs and whose loads are not ready, and a stream that the
hazard detector froze. -/
theorem test_tick_hyps : ∃ (cell : Fin 16) (s : State), Ends s cell ∧ (s.cell cell).run0 = .run ∧ s.unissued (s.cell cell) = [] ∧
    (s.cell cell).frozen = none ∧ badFetch ((ended s cell).lateHold cell) cell = false :=
  ⟨0, flight [], by unfold Ends; decide +kernel⟩

theorem test_tick_frozen_hyps : ∃ (cell : Fin 16) (s : State), Ends s cell ∧ (s.cell cell).run0 = .run ∧
    (s.cell cell).frozen ≠ none ∧ badFetch ((ended s cell).lateHold cell) cell = false :=
  ⟨0, flight [] { frozen := some (0, 3) }, by unfold Ends; decide +kernel⟩

theorem test_tick_unit_hyps : ∃ (cell : Fin 16) (s : State), Ends s cell ∧ (s.cell cell).run0 = .run ∧
    s.unissued (s.cell cell) ≠ [] ∧ badFetch ((ended s cell).lateHold cell) cell = false :=
  ⟨0, { up with cells := [(0, { mask := 1, run0 := .run, prog := [(0, [word 0x10 0 (2 ^ 42)])] })],
                cores := [(0, { mrgFree := 0, inflight := [{ arrayOp with streaming := false, doneCycle := 0, beatEnd := 4096 }],
                                lastSlot := [(0, 0)] })] }, by unfold Ends; decide +kernel⟩

/-- InstrCompleteWritesAndPosts, and completion of any kind. -/
theorem test_complete_hyps : ∃ (core : Fin 48) (stream : Fin 6) (s : State) (k : Nat) (e : Entry), Completes s core stream k e ∧
    Entry.plain e ∧ (s.core core).tokenOvf e.postTok 1 = false :=
  ⟨0, 3, flight [{ word := word 0x40 0 0, stream := 3 }], 0, { word := word 0x40 0 0, stream := 3 }, by
    unfold Completes Entry.plain; decide +kernel⟩

/-- FaultHoldsOrPreempts. -/
theorem test_fault_hyps : ∃ (s : State) (k : Nat), (s.cell k).ctx = 0 ∧ (s.cell k).areaOk = true :=
  ⟨flight [] { area := 0x200000 }, 0, by decide +kernel⟩

/-- The schedule's other events. -/
theorem test_stall_hyps : ∃ (cell : Fin 16) (s : State), s.operational = true ∧ (s.cell cell).exists_ = true ∧
    (s.cell cell).blocked = false ∧ (s.cell cell).run0 ≠ .run ∧ (s.cell cell).run1 ≠ .run ∧ (s.cell cell).run2 ≠ .run :=
  ⟨0, { up with cells := [(0, { mask := 1 })] }, by decide +kernel⟩

theorem test_stream_start_hyps : ∃ (core : Fin 48) (arr : Fin 4) (s : State) (k : Nat) (e : Entry), s.cellOf core = some k ∧
    s.cfg.debug = false ∧ (s.core core).inflight.find? (waitsToStream arr) = some e ∧
    (s.cell k).advances = true ∧ (s.core core).streamStart ((s.core core).groupOf e) < (s.cell k).cycle + 8 ∧
    (s.core core).startsFirst e = true :=
  ⟨0, 0, flight [{ arrayOp with streaming := false }], 0, { arrayOp with streaming := false }, by decide +kernel⟩

theorem test_dma_complete_hyps : ∃ (core : Fin 48) (ord : Nat) (s : State) (e : Entry), (s.core core).entry 4 ord = some e ∧
    e.done = true ∧ e.faulted = false ∧ s.operational = true :=
  ⟨0, 0, flight [{ word := word 0x80 0 0, stream := 4, done := true }], { word := word 0x80 0 0, stream := 4, done := true },
   by decide +kernel⟩

theorem test_ack_hyps : ∃ (core : Fin 48) (stream : Fin 6) (s : State) (e : Entry),
    (s.core core).inflight.find? (fun e => e.stream == stream.val && decide (0 < e.homeOut)) = some e :=
  ⟨0, 2, flight [{ stream := 2, homeOut := 1 }], { stream := 2, homeOut := 1 }, by decide +kernel⟩

/-- A CARVE in flight with one HOME line, left unwritten for a reason or finished. -/
def homeOp (reason : Nat) : Entry := { word := word 0x3A 0 0, stream := 2, home := [{ reason := reason }] }

theorem test_home_skip_hyps : ∃ (core : Fin 48) (stream : Fin 6) (s : State) (k : Nat) (e : Entry) (h : HomeWrite) (rest : List HomeWrite),
    s.cellOf core = some k ∧
    (s.core core).inflight.find? (fun e => e.stream == stream.val && decide (e.home ≠ []) && !e.faulted) = some e ∧
    e.home = h :: rest ∧ (s.cell k).finished h = true ∧ (s.cell k).ctx.toNat ≤ 2 ∧ h.reason ≠ 0 :=
  ⟨0, 2, flight [homeOp 1], 0, homeOp 1, { reason := 1 }, [], by decide +kernel⟩

/-- A cell whose translation table at 64 KiB maps the first GiB for reading and writing. -/
def mapped (es : List Entry) : State := { flight es { root := some (1, 65536) } with hbm := [(65536, 15)] }

theorem test_home_write_hyps : ∃ (core : Fin 48) (stream : Fin 6) (s s1 s2 : State) (k a part : Nat) (em : Bool) (e : Entry)
    (h : HomeWrite) (rest : List HomeWrite), s.cellOf core = some k ∧
    (s.core core).inflight.find? (fun e => e.stream == stream.val && decide (e.home ≠ []) && !e.faulted) = some e ∧
    e.home = h :: rest ∧ (s.cell k).finished h = true ∧ (s.cell k).ctx.toNat ≤ 2 ∧ h.reason = 0 ∧
    s.xlate core (s.cell k).root h.va false true = (s1, .ok (a, part)) ∧
    s1.lineWrite a part h.line h.pois (s.cell k).step.toNat = (s2, em) := by
  have h : ((mapped [homeOp 0]).xlate 0 ((mapped [homeOp 0]).cell 0).root 0 false true).2.isOk = true := by decide +kernel
  rcases hx : (mapped [homeOp 0]).xlate 0 ((mapped [homeOp 0]).cell 0).root 0 false true with ⟨s1, er | ⟨a, part⟩⟩
  · rw [hx] at h; cases h
  · exact ⟨0, 2, mapped [homeOp 0], s1, _, 0, a, part, _, homeOp 0, {}, [], by decide +kernel, by decide +kernel, rfl, by decide +kernel,
      by decide +kernel, rfl, hx, rfl⟩

theorem test_home_fault_hyps : ∃ (core : Fin 48) (stream : Fin 6) (s s1 : State) (k : Nat) (er : XlErr) (e : Entry) (h : HomeWrite)
    (rest : List HomeWrite), s.cellOf core = some k ∧
    (s.core core).inflight.find? (fun e => e.stream == stream.val && decide (e.home ≠ []) && !e.faulted) = some e ∧
    e.home = h :: rest ∧ (s.cell k).finished h = true ∧ (s.cell k).ctx.toNat ≤ 2 ∧ h.reason = 0 ∧
    s.xlate core (s.cell k).root h.va false true = (s1, .error er) := by
  have h : ((flight [homeOp 0]).xlate 0 ((flight [homeOp 0]).cell 0).root 0 false true).2.isOk = false := by decide +kernel
  rcases hx : (flight [homeOp 0]).xlate 0 ((flight [homeOp 0]).cell 0).root 0 false true with ⟨s1, er | r⟩
  · exact ⟨0, 2, flight [homeOp 0], s1, 0, er, homeOp 0, {}, [], by decide +kernel, by decide +kernel, rfl, by decide +kernel,
      by decide +kernel, rfl, hx⟩
  · rw [hx] at h; cases h

theorem test_step_end_hyps : ∃ s : State, s.operational = true ∧ s.rdvCells 0 ≠ [] ∧ (s.rdvAt 0).sentArrive = false ∧
    (∀ k ∈ s.rdvCells 0, (s.cell k).released = false ∧ s.cellDrained (s.cell k) = true) ∧ s.cmpDue s.devStep = false :=
  ⟨flight [], by decide +kernel⟩

theorem test_step_end_cmp_hyps : ∃ (s : State) (c : SealCmp), s.operational = true ∧ s.rdvCells 0 ≠ [] ∧
    (s.rdvAt 0).sentArrive = false ∧
    (∀ k ∈ s.rdvCells 0, (s.cell k).released = false ∧ s.cellDrained (s.cell k) = true) ∧ s.cmpDue s.devStep = true ∧
    (s.cmpBegin s.devStep).snp.cmp = some c := by
  have h : ((State.cmpBegin { flight [] with cfg := { sealSlots := [0, 1] } } 0).snp.cmp).isSome = true := by decide +kernel
  obtain ⟨c, hc⟩ := Option.isSome_iff_exists.mp h
  exact ⟨{ flight [] with cfg := { sealSlots := [0, 1] } }, c, by decide +kernel, by decide +kernel, by decide +kernel,
    by decide +kernel, by decide +kernel, hc⟩

/-! Checks. -/

/-- A relief product of one row that streams, its slices all vacant: one block lies in reach, or none. -/
def rowsOp (kext : Nat) : Entry :=
  { word := word 0x12 0 0, arrOp := some { opc := 0x12, m := 1 }, wset := { kext := kext, relief := true }, streaming := true, doneCycle := 8 }

theorem test_retry_none_hyps : ∃ (core : Fin 48) (arr : Fin 4) (errs : List TreeErr) (s : State) (k : Nat) (e : Entry) (o : ArrOp),
    Judged s core arr k e o ∧ firstBad s core e o (e.errsFrom o errs (s.cell k).cycle) = none :=
  ⟨0, 0, [], flight [rowsOp 0], 0, rowsOp 0, { opc := 0x12, m := 1 }, by unfold Judged; decide +kernel⟩

theorem test_retry_start_hyps : ∃ (core : Fin 48) (arr : Fin 4) (errs : List TreeErr) (s : State) (k row : Nat) (e : Entry) (o : ArrOp),
    Judged s core arr k e o ∧ firstBad s core e o (e.errsFrom o errs (s.cell k).cycle) = some row ∧ e.point = none :=
  ⟨0, 0, [⟨0, 3, 0, 1⟩], flight [rowsOp 32], 0, 0, rowsOp 32, { opc := 0x12, m := 1 }, by unfold Judged; decide +kernel⟩

/-- A re-execution of that product of core 1, whose window keeps a digest, with `n` digests computed. -/
def pointOp (n kext : Nat) (d : BitVec 64 := 7) : Entry :=
  { word := word 0x12 0 0, stream := 6, point := some (1, { op := { opc := 0x12, m := 1 }, digest := d }, 1),
    wset := { kext := kext, relief := true }, reexec := List.replicate n 0 }

theorem test_retry_start_point_hyps : ∃ (core : Fin 48) (arr : Fin 4) (errs : List TreeErr) (s : State) (k row : Nat) (e : Entry)
    (o : ArrOp), Judged s core arr k e o ∧ firstBad s core e o (e.errsFrom o errs (s.cell k).cycle) = some row ∧ e.point.isSome = true :=
  ⟨0, 0, [⟨0, 3, 0, 1⟩], flight [pointOp 0 32], 0, 0, pointOp 0 32, { opc := 0x12, m := 1 }, by unfold Judged; decide +kernel⟩

/-- A retry of that row. -/
def retryOp (kext : Nat) : Entry := { rowsOp kext with wset2 := { kext := kext, relief := true }, inRetry := true, retryRow := some 0 }

theorem test_retry_ok_hyps : ∃ (core : Fin 48) (arr : Fin 4) (errs : List TreeErr) (s : State) (k : Nat) (e : Entry) (o : ArrOp) (r : Nat),
    Retried s core arr k e o r ∧ stillBad s core e o r errs = [] :=
  ⟨0, 0, [], flight [retryOp 0], 0, retryOp 0, { opc := 0x12, m := 1 }, 0, by unfold Retried; decide +kernel⟩

theorem test_retry_bad_hyps : ∃ (core : Fin 48) (arr : Fin 4) (errs : List TreeErr) (s : State) (k : Nat) (e : Entry) (o : ArrOp) (r : Nat),
    Retried s core arr k e o r ∧ stillBad s core e o r errs ≠ [] ∧ e.point = none :=
  ⟨0, 0, [⟨0, 3, 0, 1⟩], flight [retryOp 32], 0, retryOp 32, { opc := 0x12, m := 1 }, 0, by unfold Retried; decide +kernel⟩

/-- pointPasses and pointDiffers: under the key 1 the digest of 1,024 sums of zero is 2,048 (R223, R234). -/
theorem test_point_done_hyps :
    (∃ (core : Fin 48) (flips : List (Nat × BitVec 32)) (s : State) (k : Nat) (e : Entry) (src : Nat) (we : WinEntry) (v : Nat),
      Pointing s core k 0 e src we v ∧ s.redigest src e we.op flips = we.digest) ∧
    ∃ (core : Fin 48) (flips : List (Nat × BitVec 32)) (s : State) (k : Nat) (e : Entry) (src : Nat) (we : WinEntry) (v : Nat),
      Pointing s core k 0 e src we v ∧ s.redigest src e we.op flips ≠ we.digest :=
  ⟨⟨0, [], { flight [pointOp 0 0 2048] with cfg := { sealkey := some 1 } }, 0, pointOp 0 0 2048, 1,
      { op := { opc := 0x12, m := 1 }, digest := 2048 }, 1, by
      unfold Pointing; decide +kernel⟩,
   ⟨0, [], { flight [pointOp 0 0] with cfg := { sealkey := some 1 } }, 0, pointOp 0 0, 1, { op := { opc := 0x12, m := 1 }, digest := 7 }, 1, by unfold Pointing; decide +kernel⟩⟩

/-- The third execution of the point of core 0, on array 1 of the same core. -/
def thirdOp : Entry :=
  { pointOp 0 0 with unit := 1, point := some (1, { op := { opc := 0x12, m := 1 }, digest := 7 }, 0), thirdOf := some (0, 6, 0) }

theorem test_point_third_hyps : ∃ (core : Fin 48) (s : State) (k m : Nat) (e z : Entry) (src : Nat) (we : WinEntry) (v : Nat),
    s.cellOf core = some k ∧ (s.core core).pointing 1 = some e ∧ e.point = some (src, (we, v)) ∧
    s.thirdFor (s.cell k) core e = some (m, z) ∧ z.inRetry = false ∧ s.cfg.calEsc = false :=
  ⟨0, { flight [pointOp 1 0, thirdOp] with cfg := { calEsc := false } }, 0, 0, pointOp 1 0, thirdOp, 1,
    { op := { opc := 0x12, m := 1 }, digest := 7 }, 1,
   by decide +kernel⟩

theorem test_heightened_hyps : ∃ (cell : Fin 16) (s : State) (src : Nat) (we : WinEntry) (rest : List (Nat × WinEntry)),
    (s.cell cell).heightQ = (src, we) :: rest ∧ (s.cell cell).advances = true ∧
    let n := (s.cell cell).nextMember src
    let a := if n = src then (we.op.arr + 1) % 4 else we.op.arr
    (s.core n).loadingOn a = false ∧ ((s.core n).arr a).retryEnd ≤ (s.cell cell).cycle ∧ ((s.core n).arr a).lastEnd ≤ (s.cell cell).cycle ∧
    (s.core n).bcastFree ≤ (s.cell cell).cycle ∧ (s.core n).pointing 0 = none ∧ (s.core n).pointing 1 = none ∧
    (∀ f ∈ (s.core n).inflight, f.thirdOf = none) :=
  ⟨0, flight [] { heightQ := [(0, {})] }, 0, {}, [], by decide +kernel⟩

theorem test_droop_hyps : (∃ (core : Fin 48) (s : State) (k : Nat), s.cellOf core = some k) ∧
    (∃ (core : Fin 48) (s : State), s.cellOf core = none) ∧
    ∃ (core : Fin 48) (s : State), s.parked core = false ∧ (s.core core).halved = false :=
  ⟨⟨0, flight [], 0, by decide +kernel⟩, ⟨1, flight [], by decide +kernel⟩, ⟨0, flight [], by decide +kernel⟩⟩

/-! The gallery: this device is slot 0 of fleet 0, incarnation 1; slot 1, incarnation 5, is behind port 0. -/

/-- The state. -/
def gal1 (g : Gal := {}) : State :=
  { up with gal := { g with incs := [(0, 1), (1, 5)], incarn := 1 }, ports := [(0, { state := .up, pvalid := true, pslot := 1 })] }

/-- The same with the flits of a packet at the head of its channel of port `p`. -/
def carry (s : State) (pk : Packet) (p : Nat := 0) : State := s.modPort p (fun q => { q with vcs := [(pkVc pk, { buf := pkFlits pk })] })

/-- A packet from slot 1. -/
def pkt (ty cls : Nat) (fs : List Nat := []) (seq : Nat := 0) : Packet :=
  { ptype := ty, cls := cls, sslot := 1, sinc := 5, dinc := 1, seq := seq, fields := fs }

/-- The requests of R449, from slot 1 with a SEQ. -/
def requests (seq : Nat) (dinc : Nat := 1) (p : Option (Fin 8) := some 0) : List Instr :=
  let k (ty : Nat) : Packet := { pkt ty 0 [] seq with dinc := dinc }
  [.putReceive p (k 1), .getreqReceive p (k 2) [], .atomReceive p (k 3), .addsReceive p (k 4), .addaReceive p (k 5),
   .signalReceive p (k 6), .xcntReceive p (k 7), .xbaseReceive p (k 8), .exprecReceive p (k 9), .resendReceive p (k 10),
   .normReceive p (k 11), .sealxReceive p (k 12)]

/-- The tests of `Passes`. -/
def passesB (s : State) (pk : Packet) (cls : Nat) : Bool :=
  s.forMe pk && pk.cls == cls && s.delivers 0 pk && (s.port 0).pvalid && pk.hops == 0 &&
    flowKey pk.sfleet pk.sslot == flowKey (s.port 0).pfleet.toNat (s.port 0).pslot.toNat && pk.sinc != 0 &&
    (tabGet 0 s.gal.incs (flowKey pk.sfleet pk.sslot)).toNat == pk.sinc

theorem admitted_of {s : State} {pk : Packet} {cls : Nat} (h : passesB s pk cls = true) : Admitted s 0 pk cls := by
  simp only [passesB, Bool.and_eq_true, beq_iff_eq, bne_iff_ne] at h
  obtain ⟨⟨⟨⟨⟨⟨⟨h1, h2⟩, h3⟩, h4⟩, h5⟩, h6⟩, h7⟩, h8⟩ := h
  exact ⟨h1, h2, h3, fun _ => ⟨h4, h6⟩, h7, h8⟩

/-- A request whose row passes at a device that has its flits, with a further test of the row. -/
def reqB (s : State) (f : ReqRow → Bool) (c : Instr) : Bool :=
  match requestRow c with
  | some r => r.port == some 0 && r.pk.ptype == r.ty && passesB (carry s r.pk) r.pk 0 && f r
  | none => false

theorem req_of {s : State} {f : ReqRow → Bool} {c : Instr} (h : reqB s f c = true) :
    ∃ r, requestRow c = some r ∧ r.port = some 0 ∧ r.pk.ptype = r.ty ∧ Admitted (carry s r.pk) 0 r.pk 0 ∧ f r = true := by
  unfold reqB at h
  split at h
  · rename_i r hr
    simp only [Bool.and_eq_true, beq_iff_eq] at h
    exact ⟨r, hr, h.1.1.1, h.1.1.2, admitted_of h.1.2, h.2⟩
  · cases h

/-- The target answers a row with a response. -/
def answersB (s : State) (r : ReqRow) : Bool :=
  match (r.tgt r.pk (s.freeFlits 0 r.pk)).2 with | .resp _ _ _ => true | _ => false

/-- requestInOrder, of every request. -/
theorem test_request_hyps : ∀ c ∈ requests 0, ∃ (r : ReqRow) (s t : State) (ty : Nat) (fs : List Nat) (data : List PByte),
    requestRow c = some r ∧ r.port = some 0 ∧ r.pk.ptype = r.ty ∧ Passes s 0 r.pk 0 ∧ expected s r.pk < 2 ^ 32 ∧
    r.pk.seq = expected s r.pk ∧ r.tgt r.pk (s.freeFlits 0 r.pk) = (t, .resp ty fs data) := by
  intro c hc
  have h := (by decide +kernel : ∀ c ∈ requests 0, reqB gal1 (fun r => r.pk.dinc == 1 && decide (expected (carry gal1 r.pk) r.pk < 2 ^ 32) &&
    r.pk.seq == expected (carry gal1 r.pk) r.pk && answersB (carry gal1 r.pk) r) c = true) c hc
  obtain ⟨r, hr, hp, ht, ha, hf⟩ := req_of h
  simp only [Bool.and_eq_true, beq_iff_eq, decide_eq_true_eq] at hf
  obtain ⟨⟨⟨h1, h2⟩, h3⟩, h4⟩ := hf
  unfold answersB at h4
  rcases hx : r.tgt r.pk ((carry gal1 r.pk).freeFlits 0 r.pk) with ⟨t, a⟩
  rw [hx] at h4
  cases a with
  | resp ty fs data => exact ⟨r, _, t, ty, fs, data, hr, hp, ht, ⟨ha, h1⟩, h2, h3, hx⟩
  | busy => cases h4

/-- requestBusy: SIGNAL to a pre-empted cell. -/
theorem test_busy_hyps : ∃ (c : Instr) (r : ReqRow) (p : Fin 8) (s t : State), requestRow c = some r ∧ r.port = some p ∧
    r.pk.ptype = r.ty ∧ Passes s p r.pk 0 ∧ expected s r.pk < 2 ^ 32 ∧ r.pk.seq = expected s r.pk ∧
    r.tgt r.pk (s.freeFlits p r.pk) = (t, .busy) :=
  ⟨.signalReceive (some 0) (pkt 6 0), _, 0, carry { gal1 with cells := [(0, { mask := 1, ctx := 3 })] } (pkt 6 0), _, rfl, rfl, rfl,
   ⟨admitted_of (by decide +kernel), by decide +kernel⟩, by decide +kernel, by decide +kernel, rfl⟩

/-- The flow of slot 1 expects SEQ 1 and keeps its response to SEQ 0. -/
def gal2 : State := gal1 { rx := [(65536 + 5, { expect := 1, kept := [(0, {})] })] }

/-- requestDuplicate and requestAhead. -/
theorem test_duplicate_hyps : ∃ (c : Instr) (r : ReqRow) (p : Fin 8) (s : State) (k : Packet), requestRow c = some r ∧
    r.port = some p ∧ r.pk.ptype = r.ty ∧ Passes s p r.pk 0 ∧ expected s r.pk < 2 ^ 32 ∧ r.pk.seq < expected s r.pk ∧
    expected s r.pk ≤ r.pk.seq + 2 ^ 31 ∧ (tabGet {} s.gal.rx (pkRx r.pk)).kept.find? (fun x => x.1 == r.pk.seq) = some (r.pk.seq, k) :=
  ⟨.putReceive (some 0) (pkt 1 0), _, 0, carry gal2 (pkt 1 0), {}, rfl, rfl, rfl, ⟨admitted_of (by decide +kernel), by decide +kernel⟩,
   by decide +kernel, by decide +kernel, by decide +kernel, by decide +kernel⟩

theorem test_ahead_hyps : ∃ (c : Instr) (r : ReqRow) (p : Fin 8) (s : State), requestRow c = some r ∧ r.port = some p ∧
    r.pk.ptype = r.ty ∧ Passes s p r.pk 0 ∧ expected s r.pk < r.pk.seq ∧ r.pk.seq < expected s r.pk + 2 ^ 31 ∧ r.pk.seq < 2 ^ 32 ∧
    (tabGet {} s.gal.rx (pkRx r.pk)).naked = false :=
  ⟨.putReceive (some 0) (pkt 1 0 [] 3), _, 0, carry gal2 (pkt 1 0 [] 3), rfl, rfl, rfl, ⟨admitted_of (by decide +kernel), by decide +kernel⟩,
   by decide +kernel, by decide +kernel, by decide +kernel, by decide +kernel⟩

/-- requestStale and forgedDiscarded. -/
theorem test_stale_hyps : ∃ (c : Instr) (r : ReqRow) (p : Fin 8) (s : State), requestRow c = some r ∧ r.port = some p ∧
    r.pk.ptype = r.ty ∧ Admitted s p r.pk 0 ∧ r.pk.dinc ≠ s.gal.incarn.toNat :=
  ⟨.putReceive (some 0) { pkt 1 0 with dinc := 9 }, _, 0, carry gal1 { pkt 1 0 with dinc := 9 }, rfl, rfl, rfl, admitted_of (by decide +kernel), by decide +kernel⟩

theorem test_forged_hyps : ∃ (c : Instr) (r : ReqRow) (p : Fin 8) (s : State), requestRow c = some r ∧ r.port = some p ∧
    r.pk.ptype = r.ty ∧ r.pk.cls = 0 ∧ s.forMe r.pk = true ∧ s.delivers p r.pk = true ∧ r.pk.hops = 0 ∧ (s.port p).pvalid = false :=
  ⟨.putReceive (some 1) (pkt 1 0), _, 1, carry { gal1 with ports := [(1, { state := .up })] } (pkt 1 0) 1, rfl, rfl, rfl, by decide +kernel⟩

/-- requestOwn. -/
theorem test_own_hyps : ∃ (c : Instr) (r : ReqRow) (s t : State) (ty n : Nat) (fs : List Nat) (data : List PByte)
    (l : List (Packet × Nat)), requestRow c = some r ∧ r.port = none ∧ r.pk.ptype = r.ty ∧ r.pk.cls = 0 ∧ s.forMe r.pk = true ∧
    (s.flow s.ownKey).unacked = (r.pk, n) :: l ∧ (s.flow s.ownKey).busyAt = none ∧ r.tgt r.pk s = (t, .resp ty fs data) :=
  ⟨.signalReceive none (pkt 6 0), _, gal1 { tx := [(0, { unacked := [(pkt 6 0, 0)] })] }, _, _, 0, _, _, [], rfl, rfl, rfl, rfl,
   by decide +kernel, by decide +kernel, by decide +kernel, rfl⟩

/-- tcdfInOrder: a request without a byte. -/
theorem test_tcdf_hyps : ∃ (pk : Packet) (p : Fin 8) (s t : State) (ty : Nat) (fs : List Nat) (data : List PByte), s.fwUp = true ∧
    pk.ptype = 0x0D ∧ Passes s p pk 0 ∧ expected s pk < 2 ^ 32 ∧ pk.seq = expected s pk ∧
    tgtTcdf pk (s.freeFlits p pk) = (t, .resp ty fs data) ∧ expected (answeredReq t pk ty fs data) pk ≠ expected s pk :=
  ⟨pkt 0x0D 0, 0, carry gal1 (pkt 0x0D 0), _, _, _, _, by decide +kernel, rfl, ⟨admitted_of (by decide +kernel), by decide +kernel⟩, by decide +kernel,
   by decide +kernel, rfl, by decide +kernel⟩

/-- The tests of `InTurn` at a device that has the flits of a request from slot 1. -/
def inTurnB (s : State) (pk : Packet) : Bool :=
  passesB (carry s pk) pk 0 && pk.dinc == (carry s pk).gal.incarn.toNat && decide (expected (carry s pk) pk < 2 ^ 32) &&
    pk.seq == expected (carry s pk) pk

theorem inTurn_of {s : State} {pk : Packet} (h : inTurnB s pk = true) : InTurn (carry s pk) 0 pk pk.ptype := by
  simp only [inTurnB, Bool.and_eq_true, beq_iff_eq, decide_eq_true_eq] at h
  exact ⟨rfl, ⟨admitted_of h.1.1.1, h.1.1.2⟩, h.1.2, h.2⟩

/-- Cell 0 on core 0 of this device, with a staging partition of 4 KiB at 0 of the core store. -/
def staged (es : List Entry := []) : State :=
  { gal1 with cells := [(0, { mask := 1, run0 := .run, staging := some (0, 4096) })], cores := [(0, { inflight := es })] }

/-- putCompletes, getreqCompletes and atomCompletes: HBM and a core store. -/
theorem test_access_turn_hyps :
    (∃ (p : Fin 8) (pk : Packet) (s : State), InTurn s p pk 0x01 ∧ rangeOk pk.addr pk.data.length = true ∧ csCore pk.addr = none) ∧
    (∃ (p : Fin 8) (pk : Packet) (s : State) (n k : Nat), InTurn s p pk 0x01 ∧ rangeOk pk.addr pk.data.length = true ∧
      csCore pk.addr = some n ∧ s.cellOf n = some k ∧ (s.cell k).ctx ≠ 3 ∧
      (s.cell k).inStaging ((pk.addr - csBase) % csWin) pk.data.length = true) ∧
    (∃ (p : Fin 8) (pk : Packet) (s : State), InTurn s p pk 0x02 ∧ rangeOk pk.addr (pk.fields.getD 0 0) = true ∧
      pk.fields.getD 0 0 ≤ 4096 ∧ csCore pk.addr = none) ∧
    (∃ (p : Fin 8) (pk : Packet) (s : State) (c : Nat), InTurn s p pk 0x02 ∧ rangeOk pk.addr (pk.fields.getD 0 0) = true ∧
      pk.fields.getD 0 0 ≤ 4096 ∧ csCore pk.addr = some c ∧ c + 64 ∉ s.rst.quiet) ∧
    ∃ (p : Fin 8) (pk : Packet) (s : State), InTurn s p pk 0x03 ∧ rangeOk pk.addr (pk.fields.getD 1 0) = true ∧ csCore pk.addr = none :=
  ⟨⟨0, { pkt 1 0 [4, 0, 0, 0, 0] with data := [1, 2, 3, 4] }, carry gal1 { pkt 1 0 [4, 0, 0, 0, 0] with data := [1, 2, 3, 4] }, inTurn_of (by decide +kernel), by decide +kernel⟩,
   ⟨0, { pkt 1 0 [4, 0, 0, 0, 0] with addr := csBase, data := [1, 2, 3, 4] }, carry staged { pkt 1 0 [4, 0, 0, 0, 0] with addr := csBase, data := [1, 2, 3, 4] }, 0, 0,
    inTurn_of (by decide +kernel), by decide +kernel⟩,
   ⟨0, pkt 2 0 [64], carry gal1 (pkt 2 0 [64]), inTurn_of (by decide +kernel), by decide +kernel⟩,
   ⟨0, { pkt 2 0 [64] with addr := csBase }, carry staged { pkt 2 0 [64] with addr := csBase }, 0, inTurn_of (by decide +kernel),
    by decide +kernel⟩,
   ⟨0, pkt 3 0 [1, 8, 0, 0], carry gal1 (pkt 3 0 [1, 8, 0, 0]), inTurn_of (by decide +kernel), by decide +kernel⟩⟩

/-- addsCompletes, addsInWindow and addaCompletes: the contribution whose turn it is, one that waits, one of a gradient window. -/
theorem test_adds_turn_hyps :
    (∀ src ∈ [0, 1], ∃ (p : Fin 8) (pk : Packet) (s : State), InTurn s p pk 0x04 ∧ rangeOk pk.addr pk.data.length = true ∧
      csCore pk.addr = none ∧ s.cfg.gradwinAt (pk.addr - pk.fields.getD 5 0) (pk.fields.getD 0 0) = none ∧ pk.fields.getD 3 0 = src ∧
      (addsRecord s pk).next = 0 ∧ (addsRecord s pk).seen.any (fun x => x.1 == src) = false ∧
      s.addHeld + pk.data.length ≤ s.cfg.addbuf) ∧
    (∃ (p : Fin 8) (pk : Packet) (s : State) (i wb wl : Nat), InTurn s p pk 0x04 ∧ rangeOk pk.addr pk.data.length = true ∧
      csCore pk.addr = none ∧ s.cfg.gradwinAt (pk.addr - pk.fields.getD 5 0) (pk.fields.getD 0 0) = some (i, wb, wl) ∧
      pk.fields.getD 1 0 = 0 ∧ wb ≤ pk.addr - pk.fields.getD 5 0 ∧ pk.addr - pk.fields.getD 5 0 + 2 * pk.fields.getD 0 0 ≤ wb + wl ∧
      s.gal.adds = [] ∧ pk.fields.getD 3 0 = 0) ∧
    ∃ (p : Fin 8) (pk : Packet) (s : State), InTurn s p pk 0x05 ∧ rangeOk pk.addr pk.data.length = true ∧ csCore pk.addr = none ∧
      s.cfg.gradwinAt (pk.addr - pk.fields.getD 5 0) (pk.fields.getD 0 0) = none := by
  refine ⟨fun src hs => ?_, ⟨0, { pkt 4 0 [4, 0, 7, 0, 2, 0] with data := [1, 2, 3, 4] },
    carry { gal1 with cfg := { gradwins := [(0, 4096, 0, 0, 0, 0)] } } { pkt 4 0 [4, 0, 7, 0, 2, 0] with data := [1, 2, 3, 4] }, 0, 0, 4096,
    inTurn_of (by decide +kernel), by decide +kernel⟩, ⟨0, { pkt 5 0 [4, 0, 0, 0, 1, 0] with data := [1, 2, 3, 4] },
    carry gal1 { pkt 5 0 [4, 0, 0, 0, 1, 0] with data := [1, 2, 3, 4] }, inTurn_of (by decide +kernel), by decide +kernel⟩⟩
  have h := (by decide +kernel : ∀ src ∈ [0, 1], inTurnB { gal1 with cfg := { addbuf := 64 } }
    { pkt 4 0 [4, 0, 7, src, 2, 0] with data := [1, 2, 3, 4] } = true) src hs
  refine ⟨0, { pkt 4 0 [4, 0, 7, src, 2, 0] with data := [1, 2, 3, 4] },
    carry { gal1 with cfg := { addbuf := 64 } } { pkt 4 0 [4, 0, 7, src, 2, 0] with data := [1, 2, 3, 4] }, inTurn_of h, ?_⟩
  revert src; decide +kernel

/-- An XCH in flight that takes two experts of one peer each. -/
def xchOp : Entry := { word := word 0x94 0 0, stream := 4, block := blk 64 [(20, 2, 2), (26, 2, 3)] }

/-- signalCompletes, xcntCompletes and xbaseCompletes: the base of one peer, and the last. -/
theorem test_tokens_turn_hyps :
    (∃ (p : Fin 8) (pk : Packet) (s : State), InTurn s p pk 0x06 ∧ (s.cell (pk.tcell % 16)).ctx ≠ 3) ∧
    (∃ (p : Fin 8) (pk : Packet) (s : State), InTurn s p pk 0x07 ∧ s.gal.xchCnt = []) ∧
    ∀ i ∈ [1, 2], ∃ (p : Fin 8) (pk : Packet) (s : State) (k : Nat) (e : Entry), InTurn s p pk 0x08 ∧ bfld e.block 20 2 = i ∧
      s.cellOf (pk.tag / 256) = some k ∧ (s.cell k).ctx ≠ 3 ∧
      (s.core (pk.tag / 256)).inflight.find? (fun e => wOpc e.word == 0x94 && e.ord % 256 == pk.tag % 256 &&
        bfld e.block 26 2 == pk.fields.getD 0 0 && decide (e.xchPhase < 3)) = some e := by
  refine ⟨⟨0, pkt 6 0 [1], carry gal1 (pkt 6 0 [1]), inTurn_of (by decide +kernel), by decide +kernel⟩,
    ⟨0, pkt 7 0 [2, 0, 3, 4, 5], carry gal1 (pkt 7 0 [2, 0, 3, 4, 5]), inTurn_of (by decide +kernel), by decide +kernel⟩, fun i hi => ?_⟩
  have h := (by decide +kernel : ∀ i ∈ [1, 2], inTurnB (staged [{ xchOp with block := blk 64 [(20, 2, i), (26, 2, 3)] }])
    (pkt 8 0 [3, 0, 9]) = true) i hi
  refine ⟨0, pkt 8 0 [3, 0, 9], carry (staged [{ xchOp with block := blk 64 [(20, 2, i), (26, 2, 3)] }]) (pkt 8 0 [3, 0, 9]), 0,
    { xchOp with block := blk 64 [(20, 2, i), (26, 2, 3)] }, inTurn_of h, ?_⟩
  revert i; decide +kernel

/-- exprecCompletes, resendCompletes and normCompletes. -/
theorem test_export_turn_hyps :
    (∀ kind ∈ [0, 1, 2], ∃ (p : Fin 8) (pk : Packet) (s : State), InTurn s p pk 0x09 ∧ pk.fields.getD 0 0 = kind ∧ pk.fields.getD 1 0 = 0 ∧
      pk.data.length = pk.fields.getD 2 0) ∧
    (∀ kind ∈ [0, 1], ∃ (p : Fin 8) (pk : Packet) (s : State), InTurn s p pk 0x09 ∧ pk.fields.getD 0 0 = kind ∧ pk.fields.getD 1 0 = 0 ∧
      pk.data.length < pk.fields.getD 2 0) ∧
    (∃ (p : Fin 8) (pk : Packet) (s : State), InTurn s p pk 0x0A ∧ 0 < pk.fields.getD 1 0) ∧
    ∃ (p : Fin 8) (pk : Packet) (s : State), InTurn s p pk 0x0B ∧ pk.fields.getD 0 0 = s.devStep % 2 ^ 64 ∧ pk.sfleet = s.gal.fleet.toNat := by
  refine ⟨fun i hi => ?_, fun i hi => ?_, ⟨0, pkt 10 0 [0, 1], carry gal1 (pkt 10 0 [0, 1]), inTurn_of (by decide +kernel), by decide +kernel⟩,
    ⟨0, pkt 11 0 [0, 1], carry gal1 (pkt 11 0 [0, 1]), inTurn_of (by decide +kernel), by decide +kernel⟩⟩
  · have h := (by decide +kernel : ∀ i ∈ [0, 1, 2], inTurnB gal1 { pkt 9 0 [i, 0, 4, 0] with data := [1, 2, 3, 4] } = true) i hi
    exact ⟨0, { pkt 9 0 [i, 0, 4, 0] with data := [1, 2, 3, 4] }, _, inTurn_of h, rfl, rfl, rfl⟩
  · have h := (by decide +kernel : ∀ i ∈ [0, 1], inTurnB gal1 { pkt 9 0 [i, 0, 128, 0] with data := List.replicate 64 1 } = true) i hi
    exact ⟨0, { pkt 9 0 [i, 0, 128, 0] with data := List.replicate 64 1 }, _, inTurn_of h, rfl, rfl, (by decide +kernel : 64 < 128)⟩

/-- sealxCompletes and tcdfCompletes: every kind. -/
theorem test_message_turn_hyps :
    (∀ kind ∈ [0, 4, 6, 7], ∃ (p : Fin 8) (pk : Packet) (s : State), InTurn s p pk 0x0C ∧ pk.fields.getD 1 0 = kind) ∧
    (∃ (p : Fin 8) (pk : Packet) (s : State), InTurn s p pk 0x0C ∧ pk.fields.getD 1 0 = 5 ∧
      (s.cfg.mirrorAt pk.sslot (pk.fields.getD 3 0)).isSome = true) ∧
    (∀ kind ∈ [0, 1, 2, 3, 4], ∃ (p : Fin 8) (pk : Packet) (s : State), s.fwUp = true ∧ InTurn s p pk 0x0D ∧ pk.fields.getD 0 0 = kind ∧
      pk.fields.getD 6 0 = 0 ∧ pk.fields.getD 5 0 ≤ pk.data.length) ∧
    ∀ kind ∈ [0, 1, 16], ∃ (p : Fin 8) (pk : Packet) (s : State), s.fwUp = true ∧ InTurn s p pk 0x0D ∧ pk.fields.getD 0 0 = kind ∧
      pk.fields.getD 6 0 = 0 ∧ pk.data.length < pk.fields.getD 5 0 := by
  refine ⟨fun i hi => ?_, ⟨0, pkt 12 0 [0, 5, 0, 256, 0], carry { gal1 with cfg := { mirrors := [(0, 4096, 0, 1, false)] } } (pkt 12 0 [0, 5, 0, 256, 0]),
    inTurn_of (by decide +kernel), by decide +kernel⟩, fun i hi => ?_, fun i hi => ?_⟩
  · have h := (by decide +kernel : ∀ i ∈ [0, 4, 6, 7], inTurnB gal1 (pkt 12 0 [0, i, 0, 0, 0]) = true) i hi
    exact ⟨0, pkt 12 0 [0, i, 0, 0, 0], _, inTurn_of h, rfl⟩
  · have h := (by decide +kernel : ∀ i ∈ [0, 1, 2, 3, 4], (carry gal1 (pkt 13 0 [i, 0, 0, 0, 0, 0, 0, 0])).fwUp = true ∧
      inTurnB gal1 (pkt 13 0 [i, 0, 0, 0, 0, 0, 0, 0]) = true) i hi
    exact ⟨0, pkt 13 0 [i, 0, 0, 0, 0, 0, 0, 0], _, h.1, inTurn_of h.2, rfl, rfl, Nat.le_refl 0⟩
  · have h := (by decide +kernel : ∀ i ∈ [0, 1, 16], (carry gal1 (pkt 13 0 [i, 0, 0, 0, 0, 1, 0, 0])).fwUp = true ∧
      inTurnB gal1 (pkt 13 0 [i, 0, 0, 0, 0, 1, 0, 0]) = true) i hi
    exact ⟨0, pkt 13 0 [i, 0, 0, 0, 0, 1, 0, 0], _, h.1, inTurn_of h.2, rfl, rfl, Nat.zero_lt_one⟩

/-- putLands, putRefused, getReads, atomExecutes. -/
theorem test_target_hyps :
    (∃ pk : Packet, rangeOk pk.addr pk.data.length = true ∧ csCore pk.addr = none ∧ pk.fields.getD 0 0 = 0 ∧ pk.ttoken = 0 ∧
      0 < pk.data.length) ∧
    (∃ pk : Packet, rangeOk pk.addr pk.data.length = false) ∧
    (∃ (pk : Packet) (n : Nat), pk.fields.getD 0 0 = n ∧ rangeOk pk.addr n = true ∧ n ≤ 4096 ∧ csCore pk.addr = none ∧ 0 < n) ∧
    ∃ (pk : Packet) (op sz : Nat), pk.fields.getD 0 0 = op ∧ pk.fields.getD 1 0 = sz ∧ rangeOk pk.addr sz = true ∧
      csCore pk.addr = none ∧ 0 < sz :=
  ⟨⟨{ data := [1, 2, 3, 4] }, by decide +kernel⟩, ⟨{ addr := 2 ^ 44 - 4, data := [1, 2, 3, 4, 5, 6, 7, 8] }, by decide +kernel⟩,
   ⟨{ fields := [64] }, 64, by decide +kernel⟩, ⟨{ fields := [1, 8] }, 1, 8, by decide +kernel⟩⟩

/-- The responses and control packets from slot 1. -/
def controls (dinc : Nat) : List Instr :=
  let k (ty : Nat) : Packet := { pkt ty 1 with dinc := dinc, data := if ty = 0x15 then List.replicate 8 0 else [] }
  let p : Option (Fin 8) := some 0
  [.ackReceive p (k 0x10), .nakReceive p (k 0x11), .busyReceive p (k 0x12), .errReceive p (k 0x13), .getdataReceive p (k 0x14),
   .atomdataReceive p (k 0x15), .arriveReceive p (k 0x22), .releaseReceive p (k 0x23), .rdvnakReceive p (k 0x24),
   .fenceReceive p (k 0x26), .routesetReceive p (k 0x27)]

/-- A control packet whose row passes, with its DINC. -/
def ctlB (s : State) (dinc : Nat) (c : Instr) : Bool :=
  match controlRow c with
  | some r => r.port == some 0 && r.pk.ptype == r.ty && passesB (carry s r.pk) r.pk 1 && r.pk.dinc == dinc
  | none => false

theorem ctl_of {s : State} {d : Nat} {c : Instr} (h : ctlB s d c = true) :
    ∃ r, controlRow c = some r ∧ r.port = some 0 ∧ r.pk.ptype = r.ty ∧ Admitted (carry s r.pk) 0 r.pk 1 ∧ r.pk.dinc = d := by
  unfold ctlB at h
  split at h
  · rename_i r hr
    simp only [Bool.and_eq_true, beq_iff_eq] at h
    exact ⟨r, hr, h.1.1.1, h.1.1.2, admitted_of h.1.2, h.2⟩
  · cases h

/-- controlDoes and controlStale, of every one of them. -/
theorem test_control_hyps : ∀ c ∈ controls 1, ∃ (r : CtlRow) (s : State), controlRow c = some r ∧ r.port = some 0 ∧ r.pk.ptype = r.ty ∧
    Passes s 0 r.pk 1 := by
  intro c hc
  obtain ⟨r, h1, h2, h3, h4, h5⟩ := ctl_of ((by decide +kernel : ∀ c ∈ controls 1, ctlB gal1 1 c = true) c hc)
  exact ⟨r, _, h1, h2, h3, h4, h5⟩

theorem test_control_stale_hyps : ∀ c ∈ controls 9, ∃ (r : CtlRow) (s : State), controlRow c = some r ∧ r.port = some 0 ∧ r.pk.ptype = r.ty ∧
    Admitted s 0 r.pk 1 ∧ r.pk.dinc ≠ s.gal.incarn.toNat := by
  intro c hc
  obtain ⟨r, h1, h2, h3, h4, h5⟩ := ctl_of ((by decide +kernel : ∀ c ∈ controls 9, ctlB gal1 9 c = true) c hc)
  exact ⟨r, _, h1, h2, h3, h4, by rw [h5]; exact (by decide +kernel : 9 ≠ gal1.gal.incarn.toNat)⟩

/-- The flow of slot 1 with a request of SEQ 0 outstanding, which an instruction of core 0 waits for. -/
def waiting1 (s : State := gal1) : State :=
  { s with gal := { s.gal with tx := [(1, { unacked := [({}, 0)] })] }, cells := [(0, { mask := 1 })],
           cores := [(0, { inflight := [{ word := word 0x91 0 0, stream := 4, dests := [(1, 0, 0)] }] })] }

/-- A response from slot 1. -/
def answer (ty : Nat) : Packet := { pkt ty 1 with data := List.replicate (if ty = 0x15 then 8 else 0) 0 }

/-- responsesComplete: every answer to an outstanding request, and a NAK. -/
theorem test_answers_hyps :
    (∀ ty ∈ [0x10, 0x12, 0x13, 0x14, 0x15], ∃ (p : Fin 8) (pk : Packet) (s : State), Answers s p pk ty ∧ pk.fields.getD 0 0 = 0) ∧
    ∃ (p : Fin 8) (pk : Packet) (s : State), pk.ptype = 0x11 ∧ Passes s p pk 1 ∧
      ∃ x ∈ (s.flow (flowKey pk.sfleet pk.sslot)).unacked, x.1.seq = pk.fields.getD 0 0 := by
  refine ⟨fun ty hty => ?_, ⟨0, pkt 0x11 1, carry waiting1 (pkt 0x11 1), rfl, ⟨admitted_of (by decide +kernel), by decide +kernel⟩,
    ({}, 0), by decide +kernel⟩⟩
  have h := (by decide +kernel : ∀ ty ∈ [0x10, 0x12, 0x13, 0x14, 0x15], passesB (carry waiting1 (answer ty)) (answer ty) 1 = true) ty hty
  exact ⟨0, answer ty, _, ⟨rfl, ⟨admitted_of h, rfl⟩, ({}, 0), by revert ty; decide +kernel⟩, rfl⟩

/-- answerLands: an instruction that owns the packet. -/
theorem test_lands_hyps : ∃ (s : State) (flow seq n : Nat) (e : Entry) (r : Packet), s.ownerCore flow seq = some (n, e) ∧ r.ptype ≠ 0x10 :=
  ⟨waiting1, 1, 0, 0, { word := word 0x91 0 0, stream := 4, dests := [(1, 0, 0)] }, { ptype := 0x14 }, by decide +kernel⟩

/-- Timers of a flow, with resends left and without; forwarding; the wait for the norm. -/
theorem test_flow_hyps :
    (∃ (flow q : Nat) (s : State), (s.flow flow).busyAt = some q ∧ flow ≠ s.ownKey) ∧
    (∃ (flow n : Nat) (pk : Packet) (l : List (Packet × Nat)) (s : State), (s.flow flow).unacked = (pk, n) :: l ∧ flow ≠ s.ownKey ∧
      Spent s flow pk.seq ∧ s.gal.state ≠ .fenced) ∧
    (∃ (flow n : Nat) (pk : Packet) (l : List (Packet × Nat)) (s : State), (s.flow flow).unacked = (pk, n) :: l ∧ flow ≠ s.ownKey ∧
      ¬ Spent s flow pk.seq) ∧
    (∃ (p : Fin 8) (pk : Packet) (s : State), s.forMe pk = false ∧ s.delivers p pk = true ∧ pk.hops = 1 ∧ pk.sinc ≠ 0 ∧
      (tabGet 0 s.gal.incs (flowKey pk.sfleet pk.sslot)).toNat = pk.sinc) ∧
    ∃ s : State, s.exp.normWait = true :=
  ⟨⟨1, 0, gal1 { tx := [(1, { busyAt := some 0 })] }, by decide +kernel⟩,
   ⟨1, 16, {}, [], gal1 { tx := [(1, { unacked := [({}, 16)] })] }, by decide +kernel, by decide +kernel,
    ⟨({}, 16), by decide +kernel⟩, by decide +kernel⟩,
   ⟨1, 0, {}, [], gal1 { tx := [(1, { unacked := [({}, 0)] })] }, by decide +kernel, by decide +kernel, by unfold Spent; decide +kernel⟩,
   ⟨0, { pkt 1 0 with slot := 2, hops := 1 }, carry gal1 { pkt 1 0 with slot := 2, hops := 1 }, by decide +kernel⟩, ⟨{ up with exp := { normWait := true } }, rfl⟩⟩

/-! Heads and deaths: a fleet of four slots, slots 0 and 1 its heads. -/

/-- This device in a gallery state under an acting head. -/
def fleet (st : GalSt) (head : BitVec 6) (g : Gal := {}) : State :=
  { gal1 { g with state := st, acthead := head } with cfg := { box := (4, 1, 1), heads := [0, 1] } }

theorem test_hb_timer_hyps :
    (∃ s : State, s.gal.state ≠ .standalone ∧ s.gal.role ≠ 1 ∧ s.operational = true ∧ s.pwr.rphase < 3 ∧
      (sendAll s.gal.fleet.toNat (s.cfg.heads.filter (fun h => decide (h ≠ s.gal.slot.toNat ∧ h < 64))) 0x20 (heartbeat s) (aged s)).isHead
        = false) ∧
    ∃ s : State, s.gal.state ≠ .standalone ∧ s.gal.role ≠ 1 ∧ s.operational = true ∧ s.pwr.rphase < 3 ∧
      (sendAll s.gal.fleet.toNat (s.cfg.heads.filter (fun h => decide (h ≠ s.gal.slot.toNat ∧ h < 64))) 0x20 (heartbeat s) (aged s)).isHead
        = true :=
  ⟨⟨fleet .active 1, by decide +kernel⟩, ⟨fleet .active 0, by decide +kernel⟩⟩

theorem test_hb_receive_hyps :
    (∃ (p : Fin 8) (pk : Packet) (s : State), Passes s p pk 1 ∧ pk.ptype = 0x20 ∧ pk.sfleet = s.gal.fleet.toNat ∧ s.isHead = false) ∧
    ∃ (p : Fin 8) (pk : Packet) (s : State) (h : Nat), Passes s p pk 1 ∧ pk.ptype = 0x20 ∧ pk.sfleet = s.gal.fleet.toNat ∧
      s.isHead = true ∧ s.assigned pk.sslot = some h ∧ h ≠ pk.fields.getD 4 0 :=
  ⟨⟨0, pkt 0x20 1, carry (fleet .active 1) (pkt 0x20 1), ⟨admitted_of (by decide +kernel), by decide +kernel⟩, by decide +kernel⟩,
   ⟨0, pkt 0x20 1, carry (fleet .active 0 { owners := [(1, [9, 0, 0, 0])] }) (pkt 0x20 1), 9,
    ⟨admitted_of (by decide +kernel), by decide +kernel⟩, by decide +kernel⟩⟩

theorem test_headbeat_hyps :
    (∃ (p : Fin 8) (pk : Packet) (s : State), Passes s p pk 1 ∧ pk.ptype = 0x21 ∧ pk.sfleet = s.gal.fleet.toNat ∧
      s.gal.state = .active ∧ s.isHead = false) ∧
    (∃ (p : Fin 8) (pk : Packet) (s : State) (a b : Nat), Passes s p pk 1 ∧ pk.ptype = 0x21 ∧ pk.sfleet = s.gal.fleet.toNat ∧
      s.gal.state = .active ∧ s.isHead = true ∧ s.cfg.rankOf pk.sslot = some a ∧ s.cfg.rankOf s.gal.slot.toNat = some b) ∧
    ∃ (p : Fin 8) (pk : Packet) (s : State), Passes s p pk 1 ∧ pk.ptype = 0x21 ∧ pk.sfleet = s.gal.fleet.toNat ∧
      s.gal.state = .headless :=
  ⟨⟨0, pkt 0x21 1, carry (fleet .active 1) (pkt 0x21 1), ⟨admitted_of (by decide +kernel), by decide +kernel⟩, by decide +kernel⟩,
   ⟨0, pkt 0x21 1, carry (fleet .active 0) (pkt 0x21 1), 1, 0, ⟨admitted_of (by decide +kernel), by decide +kernel⟩, by decide +kernel⟩,
   ⟨0, pkt 0x21 1, carry (fleet .headless 0) (pkt 0x21 1), ⟨admitted_of (by decide +kernel), by decide +kernel⟩, by decide +kernel⟩⟩

theorem test_head_timers_hyps :
    (∃ s : State, s.gal.state = .active ∧ s.isHead = false ∧ s.gal.role ≠ 1) ∧
    (∃ (s : State) (r : Nat), s.cfg.rankOf s.gal.slot.toNat = some r ∧ s.gal.state = .headless ∧ s.gal.role ≠ 1 ∧
      s.cfg.nslots < 2 * s.liveSlots.length) ∧
    ∃ s : State, s.gal.state = .headless :=
  ⟨⟨fleet .active 1, by decide +kernel⟩, ⟨fleet .headless 1 { hbLeft := [(1, 3), (2, 3)] }, 0, by decide +kernel⟩,
   ⟨fleet .headless 1, by decide +kernel⟩⟩

theorem test_live_set_hyps :
    (∃ s : State, s.isHead = true ∧ s.gal.state ≠ .standalone ∧ 2 * s.liveSlots.length < s.cfg.nslots) ∧
    ∃ s : State, s.isHead = true ∧ s.gal.state ≠ .standalone ∧ s.cfg.nslots ≤ 2 * s.liveSlots.length ∧ toDeclare s ≠ [] :=
  ⟨⟨fleet .active 0, by decide +kernel⟩, ⟨fleet .active 0 { hbLeft := [(1, 3), (2, 3)] }, by decide +kernel⟩⟩

/-- A DEATH packet from slot 1: the fleet, slot and incarnation that it names. -/
def death (fl sl inc : Nat) (sfl : Nat := 0) : Packet := { pkt 0x25 1 [fl, sl, inc] with sfleet := sfl }

/-- The same, from slot 1 of fleet 1 behind port 0. -/
def fleet2 (head : BitVec 6) (g : Gal := {}) : State :=
  let s := fleet .active head g
  { s with gal := { s.gal with incs := [(0, 1), (65, 5)] }, ports := [(0, { state := .up, pvalid := true, pfleet := 1, pslot := 1 })] }

theorem test_death_hyps :
    (∃ (p : Fin 8) (pk : Packet) (s : State), Passes s p pk 1 ∧ pk.ptype = 0x25 ∧
      flowKey (pk.fields.getD 0 0) (pk.fields.getD 1 0) ≠ s.ownKey ∧ pk.sfleet = s.gal.fleet.toNat) ∧
    (∃ (p : Fin 8) (pk : Packet) (s : State), Passes s p pk 1 ∧ pk.ptype = 0x25 ∧
      flowKey (pk.fields.getD 0 0) (pk.fields.getD 1 0) ≠ s.ownKey ∧ pk.sfleet ≠ s.gal.fleet.toNat ∧
      (learned (s.freeFlits p pk) (flowKey (pk.fields.getD 0 0) (pk.fields.getD 1 0)) (pk.fields.getD 2 0)).isHead = false) ∧
    (∃ (p : Fin 8) (pk : Packet) (s : State), Passes s p pk 1 ∧ pk.ptype = 0x25 ∧
      flowKey (pk.fields.getD 0 0) (pk.fields.getD 1 0) ≠ s.ownKey ∧ pk.sfleet ≠ s.gal.fleet.toNat ∧
      (learned (s.freeFlits p pk) (flowKey (pk.fields.getD 0 0) (pk.fields.getD 1 0)) (pk.fields.getD 2 0)).isHead = true) ∧
    (∃ (p : Fin 8) (pk : Packet) (s : State), Passes s p pk 1 ∧ pk.ptype = 0x25 ∧
      flowKey (pk.fields.getD 0 0) (pk.fields.getD 1 0) = s.ownKey ∧ pk.fields.getD 2 0 = s.gal.incarn.toNat ∧
      s.gal.state ≠ .quarantined) ∧
    (∃ (p : Fin 8) (pk : Packet) (s : State), Passes s p pk 1 ∧ pk.ptype = 0x25 ∧
      flowKey (pk.fields.getD 0 0) (pk.fields.getD 1 0) = s.ownKey ∧ pk.fields.getD 2 0 = nextInc s.gal.incarn.toNat ∧
      s.gal.state ≠ .quarantined) ∧
    ∃ (p : Fin 8) (pk : Packet) (s : State), Passes s p pk 1 ∧ pk.ptype = 0x25 ∧
      flowKey (pk.fields.getD 0 0) (pk.fields.getD 1 0) = s.ownKey ∧ pk.fields.getD 2 0 ≠ s.gal.incarn.toNat ∧
      pk.fields.getD 2 0 ≠ nextInc s.gal.incarn.toNat :=
  ⟨⟨0, death 0 2 3, carry (fleet .active 1) (death 0 2 3), ⟨admitted_of (by decide +kernel), by decide +kernel⟩, by decide +kernel⟩,
   ⟨0, death 1 2 3 1, carry (fleet2 1) (death 1 2 3 1), ⟨admitted_of (by decide +kernel), by decide +kernel⟩, by decide +kernel⟩,
   ⟨0, death 1 2 3 1, carry (fleet2 0) (death 1 2 3 1), ⟨admitted_of (by decide +kernel), by decide +kernel⟩, by decide +kernel⟩,
   ⟨0, death 0 0 1, carry (fleet .active 1) (death 0 0 1), ⟨admitted_of (by decide +kernel), by decide +kernel⟩, by decide +kernel⟩,
   ⟨0, death 0 0 2, carry (fleet .active 1) (death 0 0 2), ⟨admitted_of (by decide +kernel), by decide +kernel⟩, by decide +kernel⟩,
   ⟨0, death 0 0 7, carry (fleet .active 1) (death 0 0 7), ⟨admitted_of (by decide +kernel), by decide +kernel⟩, by decide +kernel⟩⟩

/-- relayDoes, deathAckDoes and rdvTimeoutDoes. -/
theorem test_relay_hyps :
    (∃ s : State, s.liveSlots.filter (fun i => i ≠ s.gal.slot.toNat) = []) ∧
    (∃ s : State, s.liveSlots.filter (fun i => i ≠ s.gal.slot.toNat) ≠ []) ∧
    (∃ (s : State) (flow i : Nat) (r : Relay), s.gal.relays.find? (fun r => r.flow == flow) = some r ∧ r.waitAck = [i]) ∧
    (∃ (slot frm : Fin 64) (s : State) (d : Death), s.isHead = true ∧ s.gal.deaths.find? (fun d => d.slot == slot.val) = some d ∧
      flowKey s.gal.fleet.toNat frm ∈ d.waitAck) ∧
    ∃ (name : Nat) (s : State), s.isHead = true ∧ (s.rdvAt name).arrived ≠ [] :=
  ⟨⟨fleet .active 0, by decide +kernel⟩, ⟨fleet .active 0 { hbLeft := [(1, 3)] }, by decide +kernel⟩,
   ⟨fleet .active 0 { relays := [{ flow := 66, waitAck := [1] }] }, 66, 1, { flow := 66, waitAck := [1] }, by decide +kernel⟩,
   ⟨2, 1, fleet .active 0 { deaths := [{ slot := 2, inc := 7, waitAck := [1] }] }, { slot := 2, inc := 7, waitAck := [1] }, by decide +kernel⟩,
   ⟨1, fleet .active 0 { rdvs := [(1, { arrived := [1] })] }, by decide +kernel⟩⟩

/-! Recovery, snapshots and the export engine. -/

/-- A fill of slot 1 in a phase, at a device. -/
def filling (st : GalSt) (head : BitVec 6) (ph : FillSt) (g : Gal := {}) : State :=
  { fleet st head g with snp := { fills := [{ slot := 1, phase := ph }] } }

theorem test_fill_hyps :
    (∃ (slot : Fin 64) (s : State), s.isHead = true ∧ s.snp.fills.any (fun (f : Fill) => f.slot == slot.val && f.phase == .attach) = true ∧
      (decide (slot.val ≠ s.gal.slot.toNat) && s.cfg.mirrors.any (fun m => m.2.2.2.1 == slot.val)) = false) ∧
    (∃ (slot : Fin 64) (s : State), s.isHead = true ∧ s.snp.fills.any (fun (f : Fill) => f.slot == slot.val && f.phase == .attach) = true ∧
      (decide (slot.val ≠ s.gal.slot.toNat) && s.cfg.mirrors.any (fun m => m.2.2.2.1 == slot.val)) = true) ∧
    (∃ (slot : Fin 64) (s : State), s.isHead = false ∧
      (decide (slot.val ≠ s.gal.slot.toNat) && s.cfg.mirrors.any (fun m => m.2.2.2.1 == slot.val)) = true) ∧
    (∃ (slot : Fin 64) (s : State), (s.isHead = true ∧ s.snp.fills.any (fun (f : Fill) => f.slot == slot.val && f.phase == .copy) = true) ∧
      ¬ (s.gal.role = 2 ∧ s.gal.slot.toNat = slot.val)) ∧
    ∃ (slot : Fin 64) (s : State), s.gal.role = 2 ∧ s.gal.slot.toNat = slot.val :=
  ⟨⟨1, filling .active 0 .attach, by decide +kernel⟩,
   ⟨1, { filling .active 0 .attach with cfg := { mirrors := [(0, 0, 0, 1, false)] } }, by decide +kernel⟩,
   ⟨1, { filling .active 1 .attach with cfg := { mirrors := [(0, 0, 0, 1, false)] } }, by decide +kernel⟩,
   ⟨1, filling .active 0 .copy, by decide +kernel⟩, ⟨0, filling .active 1 .copy { role := 2 }, by decide +kernel⟩⟩

/-- A snapshot record without ranges, of KIND 1 (flash), with its SHA-256. -/
def record0 : List Byte :=
  blk 1152 [(0, 4, 0x50414E53), (4, 2, 0x0100), (6, 1, 1)] ++
    leBytes 32 0x4fea40c61805c10fe00fec2645bbc19875449c8176f37d78f0d232d419e36d73

/-- A restore in progress from a source, with a record in generation 0. -/
def restoring0 (r : List Byte) : State := { up with snp := { restoring := some (1, 0, 0), gen0 := some (0, r, []) } }

theorem test_restore_bad_hyps : ∃ (s : State) (src gen step : Nat) (code : Nat) (fs : List EvF),
    s.snp.restoring = some (src, gen, step) ∧
    let u := if src = 0 ∨ src = 3 then s.touchPhys s.cfg.snapbuf.1 65536 false else s
    (u.restoreCheck src step (u.restoreSource src gen none).1 (u.restoreSource src gen none).2).2 = some (code, fs) :=
  ⟨restoring0 [], 1, 0, 0, 0x8203, [.val 1 1, .val 1 1], by decide +kernel⟩

theorem test_restore_ok_hyps : ∃ (s : State) (src gen step : Nat), s.snp.restoring = some (src, gen, step) ∧
    let u := if src = 0 ∨ src = 3 then s.touchPhys s.cfg.snapbuf.1 65536 false else s
    (u.restoreCheck src step (u.restoreSource src gen none).1 (u.restoreSource src gen none).2).2 = none :=
  ⟨restoring0 record0, 1, 0, 0, by decide +kernel⟩

theorem test_capture_hyps :
    (∃ s : State, s.snp.state = .capture ∧
      s.cfg.snapRanges.any (fun r => anyPois ((s.readRanges (s.cfg.snapRanges.map (fun r => (r.1, r.2.1)))).hread r.1 r.2.1)) = true) ∧
    ∃ s : State, s.snp.state = .capture ∧ s.mediaErr = [] ∧ s.rst.quiet = [] ∧
      s.cfg.snapRanges.any (fun r => anyPois ((s.readRanges (s.cfg.snapRanges.map (fun r => (r.1, r.2.1)))).hread r.1 r.2.1)) = false :=
  ⟨⟨{ up with snp := { state := .capture }, cfg := { sranges := [(0, 256, 0)] }, hbmPois := [0] }, by decide +kernel⟩,
   ⟨{ up with snp := { state := .capture }, cfg := { sranges := [(0, 256, 0)] } }, by decide +kernel⟩⟩

/-- A drain to the store, with a ready requester queue pair or none; and an upload with some of its parts outstanding. -/
def storing (out : List (Nat × (Nat × List Byte))) (qps : Bool := true) (p : Snp := { pendingStore := true }) : State :=
  { up with snp := p, eths := [(0, { up := true })], cfg := { target := 1, storetgt := some (0, 0), stores := [(0, 0, 0, 0, 4096)] },
            hst := { qps := if qps then [{ qpn := 2, state := .rts, store := some 0, out := out }] else [] } }

theorem test_drain_hyps :
    (∃ (s : State) (g : Nat), s.snp.drainGen = some g ∧ g < 2 ∧ s.cfg.target = 2 ∧ (s.snp.snapCnt + 1) % s.cfg.kfull = 0 ∧ s.snp.upGen = none) ∧
    (∃ (s : State) (g : Nat), s.snp.drainGen = some g ∧ g < 2 ∧ s.cfg.target ≠ 2) ∧
    (∃ (s : State) (q : Qp), s.cfg.target = 1 ∧ s.storeQp? (s.cfg.storetgt.getD (0, 0)).1 = some q) ∧
    (∃ s : State, s.cfg.target = 1 ∧ s.storeQp? (s.cfg.storetgt.getD (0, 0)).1 = none) ∧
    (∃ s : State, s.cfg.target ≠ 1 ∧ s.snp.pick < 2) ∧
    (∀ b ∈ [true, false], ∃ s : State, s.snp.pendingStore = true ∧ s.hst.writing = b) ∧
    (∃ (s : State) (g : Nat), s.snp.upGen = some g ∧ g < 2 ∧ (s.snp.gen g).isSome = true ∧ s.hst.writing = false ∧ s.snp.upLeft = 0) ∧
    ∃ (s : State) (g : Nat), s.snp.upGen = some g ∧ g < 2 ∧ (s.snp.gen g).isSome = true ∧ s.hst.writing = true := by
  refine ⟨⟨{ up with snp := { drainGen := some 1 }, cfg := { target := 2, kfull := 1 } }, 1, by decide +kernel⟩,
    ⟨{ up with snp := { drainGen := some 1 } }, 1, by decide +kernel⟩,
    ⟨storing [], { qpn := 2, state := .rts, store := some 0 }, by decide +kernel⟩, ⟨storing [] false, by decide +kernel⟩,
    ⟨up, by decide +kernel⟩, fun b hb => ⟨storing (if b then [(0, 0, [])] else []), ?_⟩,
    ⟨storing [] true { upGen := some 1, gen1 := some (0, [], []) }, 1, by decide +kernel⟩,
    ⟨storing [(0, 0, [])] true { upGen := some 1, gen1 := some (0, [], []) }, 1, by decide +kernel⟩⟩
  revert b; decide +kernel

/-- The export engine with its partner, slot 1 of fleet 0, behind port 0. -/
def exporting (x : Exp) (regs : List (Nat × (Nat × Nat)) := []) : State :=
  { gal1 { routes := [(1, 128)] } with exp := x, cfg := { expPartner := some (0, 1), exportSec := true, expregs := regs, box := (4, 1, 1) } }

theorem test_export_hyps :
    (∃ (s : State) (dst : Nat), s.cfg.partnerKey = some dst ∧ s.mayExport = false) ∧
    (∃ (s : State) (dst : Nat) (g : ExpRec), s.cfg.partnerKey = some dst ∧ s.mayExport = true ∧ s.exp.afterReset = true ∧
      s.cfg.fullGap = some g) ∧
    (∃ (s : State) (dst : Nat), s.cfg.partnerKey = some dst ∧ s.mayExport = true ∧ s.exp.afterReset = true ∧ s.cfg.fullGap = none) ∧
    (∃ (s : State) (dst : Nat), s.cfg.partnerKey = some dst ∧ s.mayExport = true ∧ s.exp.afterReset = false ∧
      s.noteLinkup.readHead.exp.fifo = []) ∧
    ∃ (s : State) (dst : Nat) (r : ExpRec) (rest : List ExpRec), s.cfg.partnerKey = some dst ∧ s.mayExport = true ∧
      s.exp.afterReset = false ∧ s.noteLinkup.readHead.exp.fifo = r :: rest := by
  refine ⟨⟨exporting { pause := true }, 1, by decide +kernel⟩, ?_, ⟨exporting { afterReset := true }, 1, by decide +kernel⟩,
    ⟨exporting { afterReset := false }, 1, by decide +kernel⟩,
    ⟨exporting { fifo := [{}], headRead := true, afterReset := false }, 1, {}, [], by decide +kernel⟩⟩
  obtain ⟨g, hg⟩ := Option.isSome_iff_exists.mp
    (by decide +kernel : (exporting { afterReset := true } [(0, 65536, 0)]).cfg.fullGap.isSome = true)
  exact ⟨_, 1, g, by decide +kernel, by decide +kernel, by decide +kernel, hg⟩

theorem test_drop_hyps :
    (∃ s : State, s.exp.fifo = []) ∧
    (∃ (s : State) (r : ExpRec) (rest : List ExpRec), s.exp.fifo = r :: rest ∧ s.exp.aborting = false ∧ s.exp.headSent = 0) ∧
    (∃ (s : State) (r : ExpRec) (rest : List ExpRec), s.exp.fifo = r :: rest ∧ s.exp.aborting = false ∧ s.exp.headSent ≠ 0 ∧
      16 < r.size - s.exp.headSent) ∧
    ∃ (s : State) (r : ExpRec) (rest : List ExpRec), s.exp.fifo = r :: rest ∧ s.exp.aborting = false ∧ s.exp.headSent ≠ 0 ∧
      r.size - s.exp.headSent ≤ 16 :=
  let full : ExpRec := { kind := 2, words := (List.range 32).map (fun i => (i, 1)) }
  ⟨⟨up, rfl⟩, ⟨exporting { fifo := [full] }, full, [], by decide +kernel⟩,
   ⟨exporting { fifo := [full], headSent := 64 }, full, [], by decide +kernel⟩,
   ⟨exporting { fifo := [full], headSent := 272 }, full, [], by decide +kernel⟩⟩

theorem test_resend_hyps :
    (∃ (i base len x slot : Nat) (s : State) (l : Nat) (st : List Nat), s.cfg.mirrors[i]? = some (base, len, x, slot, true) ∧
      (s.exp.toAsk base len ((s.flow (flowKey s.gal.fleet.toNat slot)).unacked.filter (fun u => u.1.ptype == 0x0A)).length).take 4096
        = l :: st ∧ ((s.flow (flowKey s.gal.fleet.toNat slot)).unacked.filter (fun u => u.1.ptype == 0x0A)).length < 8) ∧
    ∃ (i base len x slot : Nat) (s : State), s.cfg.mirrors[i]? = some (base, len, x, slot, true) ∧
      (s.exp.toAsk base len ((s.flow (flowKey s.gal.fleet.toNat slot)).unacked.filter (fun u => u.1.ptype == 0x0A)).length).take 4096 = [] :=
  ⟨⟨0, 0, 65536, 0, 1, { gal1 with exp := { stale := [3] }, cfg := { mirrors := [(0, 65536, 0, 1, true)] } }, 3, [], by decide +kernel⟩,
   ⟨0, 0, 65536, 0, 1, { gal1 with cfg := { mirrors := [(0, 65536, 0, 1, true)] } }, by decide +kernel⟩⟩

/-! The memory and the links. -/

/-- accessKeeps, and register words in HBM and in a core store. -/
theorem test_word_hyps : ∃ (a b c off : Nat) (s : State), s.fwUp = true ∧ s.mediaErr = [] ∧ a + 8 ≤ 0x16800000000 ∧
    c < 48 ∧ off + 8 ≤ storeSize ∧ b = csBase + c * csWin + off :=
  ⟨64, csBase + csWin + 64, 1, 64, up, by decide +kernel⟩

/-- Plinth 0 in a state. -/
def plinth0 (p : Plinth) : State := { up with plinths := [(0, p)] }

theorem test_plinth_hyps :
    (∃ (pl : Fin 20) (s : State), (s.plinth pl).up = true) ∧
    (∃ (pl : Fin 20) (chan bank : Nat) (s : State), (s.plinth pl).up = true ∧ chan < 32 ∧
      tabGet 0 (s.plinth pl).bankSpares (bankKey chan bank) < Config.spareRows) ∧
    (∃ (pl : Fin 20) (frame : Nat) (s : State), (s.plinth pl).up = true ∧ frame < 36864 ∧ (s.plinth pl).retired.length < 64) ∧
    (∃ (pl : Fin 20) (frame : Nat) (s : State), (s.plinth pl).up = true ∧ frame < 36864 ∧ 64 ≤ (s.plinth pl).retired.length) ∧
    (∃ (pl : Fin 20) (line : Nat) (s : State) (l : SlLine), (s.plinth pl).slice.find? (fun l => l.addr == line && l.temp) = some l) ∧
    (∃ (pl : Fin 20) (s : State), (s.plinth pl).up = true ∧ (s.plinth pl).copyLeft ≠ 0) ∧
    (∃ (pl : Fin 20) (found : List SectorErr) (s : State), (s.plinth pl).up = true ∧
      ∃ e ∈ s.mediaErr ++ found, e.ue = true ∧ s.errStack e = pl) ∧
    ∃ (pl : Fin 20) (s : State) (r : MemReq), (s.plinth pl).up = true ∧ (s.plinth pl).copyLeft = 0 ∧ (s.plinth pl).queue = [r] ∧ r.part < 16 ∧
      32 * r.cost ≤ tabGet 0 (s.plinth pl).bktG r.part ∧ 32 * r.cost ≤ (s.cfg.part r.part).depth ∧ 0 < r.cost :=
  ⟨⟨0, plinth0 { trained := true }, by decide +kernel⟩,
   ⟨0, 0, 0, plinth0 { trained := true }, by decide +kernel, by decide, Nat.succ_pos _⟩,
   ⟨0, 5, plinth0 { trained := true }, by decide +kernel⟩,
   ⟨0, 5, plinth0 { trained := true, retired := List.range 64 }, by decide +kernel⟩,
   ⟨0, 0, plinth0 { slice := [{ temp := true }] }, { temp := true }, by decide +kernel⟩,
   ⟨0, plinth0 { trained := true, copyLeft := 5 }, by decide +kernel⟩,
   ⟨0, [{ ue := true }], plinth0 { trained := true }, by decide +kernel, { ue := true }, by decide +kernel⟩,
   ⟨0, plinth0 { trained := true, queue := [⟨0, 64, false⟩], bktG := [(0, 4096)] }, ⟨0, 64, false⟩, by decide +kernel⟩⟩

theorem test_heat_hyps : (∃ (pl : Fin 20) (s : State), (s.plinth pl).trained = true) ∧
    (∃ (pl : Fin 20) (s : State) (temp : Int), 95 ≤ temp ∧ (s.plinth pl).hotHalf = false ∧ s.pwr.off = false) ∧
    ∃ (pl : Fin 20) (s : State) (temp : Int), temp ≤ 90 ∧ (s.plinth pl).hotHalf = true :=
  ⟨⟨0, plinth0 { trained := true }, by decide +kernel⟩, ⟨0, plinth0 {}, 95, by decide +kernel⟩,
   ⟨0, plinth0 { hotHalf := true }, 90, by decide +kernel⟩⟩

/-- Link port 0 in a state. -/
def link0 (p : Port) : State := { up with ports := [(0, p)] }

theorem test_training_hyps :
    (∃ (port : Fin 8) (s : State), (s.port port).state = .down ∧ (s.port port).role ≠ 0) ∧
    (∃ (port : Fin 8) (s : State), (s.port port).state = .training) ∧
    (∃ (p : Port) (h peer : BitVec 20), min (healthyLanes (p.rxHealthy h)).length (healthyLanes peer).length < 4) ∧
    (∃ (p : Port) (h peer : BitVec 20), 4 ≤ min (healthyLanes (p.rxHealthy h)).length (healthyLanes peer).length) :=
  ⟨⟨0, link0 { state := .down, role := 1 }, by decide +kernel⟩, ⟨0, link0 { state := .training }, by decide +kernel⟩,
   ⟨{}, 15, 7, by decide +kernel⟩, ⟨{}, 15, 31, by decide +kernel⟩⟩

theorem test_auth_hyps :
    (∃ (port : Fin 8) (s : State), (s.port port).state = .auth ∧ (s.port port).authTo < 2) ∧
    (∃ (port : Fin 8) (s : State), (s.port port).state = .auth ∧ 2 ≤ (s.port port).authTo) ∧
    ∃ (port : Fin 8) (sig : List Byte) (s : State) (r : Nat), (s.port port).state = .auth ∧ (s.port port).gotHello = true ∧
      (s.port port).gotCert = true ∧ s.authReason (s.port port) sig = some r :=
  ⟨⟨0, link0 { state := .auth }, by decide +kernel⟩, ⟨0, link0 { state := .auth, authTo := 2 }, by decide +kernel⟩,
   ⟨0, [], link0 { state := .auth, gotHello := true, gotCert := true }, 1, by decide +kernel⟩⟩

/-- A port whose peer has passed every check but the signature. -/
def authPort (key : List Byte) : Port :=
  { state := .auth, gotHello := true, gotCert := true, chainOk := true, role := 1, peers := [sha256 key], peerKey := key, claims := (0, 1, 1, 2) }

/-- signDoes, success: for every key and signature that verify (the key and the signature are free: log entry 9). -/
theorem test_sign_hyps (key sig : List Byte)
    (h : pssValid key ((link0 (authPort key)).signMsg (authPort key)) sig = true) :
    ((link0 (authPort key)).port 0).state = .auth ∧ ((link0 (authPort key)).port 0).gotHello = true ∧
    ((link0 (authPort key)).port 0).gotCert = true ∧
    (link0 (authPort key)).authReason ((link0 (authPort key)).port 0) sig = none := by
  have hp : (link0 (authPort key)).port 0 = authPort key := rfl
  rw [hp]
  refine ⟨rfl, rfl, rfl, ?_⟩
  unfold State.authReason
  rw [if_neg (by simp [authPort]), if_neg (by simp [authPort]), show (authPort key).peerKey = key from rfl, h]
  simp [authPort, rolesMeet]

/-- laneUnhealthyDoes and retrainDoneDoes: a lane not in use, all lanes, one too many, one that can be spared, one that the partner
names. -/
theorem test_lane_hyps :
    (∃ (p : Port) (l : BitVec 20), p.state = .up ∧ ¬ loses p (left p l false).1 (left p l false).2) ∧
    (∃ (p : Port) (l : BitVec 20), p.state = .up ∧ loses p (left p l false).1 (left p l false).2 ∧ (left p l false).1 = 0) ∧
    (∃ (p : Port) (l : BitVec 20), p.state = .up ∧ loses p (left p l false).1 (left p l false).2 ∧ (left p l false).1 ≠ 0 ∧
      min (healthyLanes (left p l false).1).length (healthyLanes (left p l false).2).length < 4) ∧
    (∃ (p : Port) (l : BitVec 20), p.state = .up ∧ loses p (left p l false).1 (left p l false).2 ∧
      4 ≤ min (healthyLanes (left p l false).1).length (healthyLanes (left p l false).2).length) ∧
    (∃ (p : Port) (l : BitVec 20), p.state = .draining ∧ loses p (left p l true).1 (left p l true).2 ∧
      4 ≤ min (healthyLanes (left p l true).1).length (healthyLanes (left p l true).2).length) ∧
    (∃ (port : Fin 8) (s : State), (s.port port).state = .auth) ∧
    ∃ (port : Fin 8) (s : State), (s.port port).state = .retrain :=
  let up (h : BitVec 20) (st : PortSt := .up) : Port := { state := st, healthy := h, txHealthy := h, width := 4 }
  ⟨⟨up 0x1F, 16, by unfold loses; decide +kernel⟩, ⟨up 0xF, 15, by unfold loses; decide +kernel⟩,
   ⟨up 0xF, 1, by unfold loses; decide +kernel⟩, ⟨up 0x1F, 1, by unfold loses; decide +kernel⟩,
   ⟨up 0x1F .draining, 1, by unfold loses; decide +kernel⟩,
   ⟨0, link0 { state := .auth }, by decide +kernel⟩, ⟨0, link0 { state := .retrain }, by decide +kernel⟩⟩

/-- A port UP at width 4 on lanes 0 to 3, not mapped or inverted. -/
def lane4 : Port := { state := .up, healthy := 0xF, txHealthy := 0xF, width := 4 }

/-- 544 symbols on four lanes, round-robin (R422). -/
def stripe (syms : List (BitVec 10)) : Lanes :=
  (List.range 4).map (fun i => (i, false, (List.range 136).map (fun r => syms.getD (4 * r + i) 0)))

theorem stripe_col (syms : List (BitVec 10)) (i r : Nat) (hi : i < 4) (hr : r < 136) :
    ((lane4.rxActive.map (lane4.rxLane (stripe syms))).getD i []).getD r 0 = syms.getD (4 * r + i) 0 := by
  have ha : lane4.rxActive = [0, 1, 2, 3] := by decide +kernel
  rw [ha]
  have h (l : Nat) (hl : l < 4) : lane4.rxLane (stripe syms) l = (List.range 136).map (fun r => syms.getD (4 * r + l) 0) := by
    rcases (by omega : l = 0 ∨ l = 1 ∨ l = 2 ∨ l = 3) with rfl | rfl | rfl | rfl <;> rfl
  rcases (by omega : i = 0 ∨ i = 1 ∨ i = 2 ∨ i = 3) with rfl | rfl | rfl | rfl <;>
    simp [h, List.getD_eq_getElem?_getD, List.getElem?_map, List.getElem?_range hr]

theorem word_stripe (syms : List (BitVec 10)) (h : syms.length = 544) : lane4.word (stripe syms) = syms := by
  have ha : lane4.rxActive.length = 4 := by decide +kernel
  apply List.ext_getElem (by simp [Port.word, h])
  intro j h1 h2
  have hj : j < 544 := by simpa [Port.word] using h1
  simp only [Port.word, List.getElem_map, List.getElem_range, List.length_map, ha]
  rw [stripe_col syms _ _ (Nat.mod_lt _ (by decide)) (by omega), Nat.div_add_mod]
  simp [List.getD_eq_getElem?_getD, h2]

theorem rsParity_len (gen : List (BitVec 10)) (hg : gen.length = 30) (msg r : List (BitVec 10)) (hr : r.length = 30) :
    (msg.foldl (fun r m => List.zipWith (fun a g => a ^^^ gfMul (m ^^^ r.headD 0) g) (r.drop 1 ++ [0]) gen) r).length = 30 := by
  induction msg generalizing r with
  | nil => exact hr
  | cons m l ih => exact ih _ (by simp [hg, hr])

/-- A codeword without an error on its lanes is decoded to itself (R422). -/
theorem decode_stripe (w : TxCw) (hc : cwOf w.message = w) : lane4.decode (stripe w.symbols) = some (w, []) := by
  have hm : w.message.length = 514 := by simp [TxCw.message]
  have hl : w.symbols.length = 544 := by
    simp only [TxCw.symbols, List.length_append, hm]
    rw [show (rsParity rsGen w.message).length = 30 from rsParity_len _ (by decide +kernel) _ _ rfl]
  simp only [Port.decode, word_stripe _ hl, rsDecode]
  rw [if_pos (by simp [TxCw.symbols, ← hm])]
  simp [TxCw.symbols, ← hm, hc]

theorem gfMul_zero (g : BitVec 10) : gfMul 0#10 g = 0#10 := by simp [gfMul, gfX, List.range_succ]

theorem rsParity_zero (gen : List (BitVec 10)) (hg : gen.length = 30) (n : Nat) :
    rsParity gen (List.replicate n 0) = List.replicate 30 0 := by
  unfold rsParity
  induction n with
  | zero => rfl
  | succ n ih =>
    have h : List.zipWith (fun a g => a ^^^ gfMul ((0 : BitVec 10) ^^^ (List.replicate 30 (0 : BitVec 10)).headD 0) g)
      ((List.replicate 30 (0 : BitVec 10)).drop 1 ++ [0]) gen = List.replicate 30 0 := by
      apply List.ext_getElem (by simp [hg])
      intro i h1 h2
      simp [gfMul_zero, List.replicate_succ]
    rw [List.replicate_succ (n := n), List.foldl_cons]
    refine Eq.trans ?_ ih
    congr 1

theorem gfEval_zeros (n : Nat) (l : List (BitVec 10)) (x : BitVec 10) : gfEval (List.replicate n 0 ++ l) x = gfEval l x := by
  unfold gfEval
  rw [List.foldl_append]
  congr 1
  induction n with
  | zero => rfl
  | succ n ih => rw [List.replicate_succ, List.foldl_cons]; simpa [gfMul_zero] using ih

/-- The syndromes of 30 symbols of 1. -/
def syn1 : List (BitVec 10) :=
  [0, 575, 78, 597, 112, 744, 39, 89, 301, 136, 495, 88, 28, 231, 357, 135, 536, 304, 208, 951, 680, 736, 356, 932, 336, 522, 168, 434, 636, 480]

/-- A message of zeros. -/
def zeros514 : List (BitVec 10) := List.replicate 514 0

/-- What has 30 symbols of 1 after 514 of 0 is uncorrectable: the locator would be of degree 16 (R422). -/
theorem decode_bad (z : List (BitVec 10)) (hz : z = List.replicate 514 0) :
    lane4.decode (stripe (z ++ List.replicate 30 1)) = none := by
  have hl : z.length = 514 := by rw [hz, List.length_replicate]
  have hs : rsSyndromes (z ++ List.replicate 30 1) = rsSyndromes (List.replicate 30 1) := by
    simp only [rsSyndromes, hz, gfEval_zeros]
  have hp : (z ++ List.replicate 30 1).drop 514 ≠ rsParity rsGen ((z ++ List.replicate 30 1).take 514) := by
    rw [List.take_left' hl, List.drop_left' hl, hz, rsParity_zero rsGen (by decide +kernel)]
    decide
  have hy : rsSyndromes (List.replicate 30 1) = syn1 := by decide +kernel
  have hq : 15 < (((List.range 30).foldl (fun q n => q.step syn1 n) {} : Locator)).len := by decide +kernel
  have hw := word_stripe (z ++ List.replicate 30 1) (by rw [List.length_append, hl, List.length_replicate])
  unfold Port.decode rsDecode
  rw [hw, if_neg hp, hs, hy]
  simp only [hq, true_or, if_true, Option.map_none]

/-- A codeword of ten flits, the first given by its body. -/
def cwWith (body : List Byte) (mask : BitVec 10 := 0x3FF) (seq : BitVec 10 := 0) : TxCw :=
  { cseq := seq, cmask := mask, flits := mkFlit body :: List.replicate 9 idleFlit }

/-- A codeword whose flits have no right CRC. -/
def cwBad : TxCw := { flits := List.replicate 10 (List.replicate 64 0) }

theorem cwBad_message : cwOf cwBad.message = cwBad := by decide +kernel

theorem cwBad_decodes : lane4.decode (stripe cwBad.symbols) = some (cwBad, []) := decode_stripe cwBad cwBad_message

theorem cwBad_flit : ∃ f ∈ cwBad.flits, flitOk f = false :=
  ⟨List.replicate 64 0, List.mem_replicate.mpr ⟨by decide, rfl⟩, by decide +kernel⟩

/-- What the flits of a codeword in order lead to: 0 for a violation, 1 for flits taken, 2 for a BYE among them from a port not yet DOWN. -/
def endCode (cw : TxCw) : Nat :=
  match ({ lane4 with rxNext := 1, ackOk := true, ackDue := true } : Port).takeFlits (flitsOf cw) [] false with
  | .bad _ => 0
  | .ok x [] false => if x.state = .up then 1 else 3
  | .ok x [] true => if x.state = .down then 3 else 2
  | .ok _ _ _ => 3

theorem cwWith_decodes : lane4.decode (stripe (cwWith []).symbols) = some (cwWith [], []) := decode_stripe _ (by decide +kernel)

theorem cwLate_decodes : lane4.decode (stripe (cwWith [] 0x3FF 5).symbols) = some (cwWith [] 0x3FF 5, []) := decode_stripe _ (by decide +kernel)

theorem cwOdd_decodes : lane4.decode (stripe (cwWith [255]).symbols) = some (cwWith [255], []) := decode_stripe _ (by decide +kernel)

theorem cwBye_decodes : lane4.decode (stripe (cwWith [3]).symbols) = some (cwWith [3], []) := decode_stripe _ (by decide +kernel)

theorem cwWith_flits (b : List Byte) (m s : BitVec 10) (h : flitOk (mkFlit b) = true) : ∀ f ∈ (cwWith b m s).flits, flitOk f = true := by
  intro f hf
  rcases List.mem_cons.mp hf with rfl | hf
  · exact h
  · rw [List.eq_of_mem_replicate hf]; decide +kernel

/-- codewordDoes: a codeword in order, one out of sequence, one with a protocol violation, one with BYE, one with a bad flit, one
uncorrectable. -/
theorem test_codeword_hyps :
    (∃ (ls : Lanes) (cw : TxCw), lane4.decode ls = some (cw, []) ∧ (∀ f ∈ cw.flits, flitOk f = true) ∧ cw.cseq = lane4.rxNext ∧
      endCode cw = 1) ∧
    (∃ (ls : Lanes) (cw : TxCw), lane4.decode ls = some (cw, []) ∧ (∀ f ∈ cw.flits, flitOk f = true) ∧ cw.cseq ≠ lane4.rxNext) ∧
    (∃ (ls : Lanes) (cw : TxCw), lane4.decode ls = some (cw, []) ∧ (∀ f ∈ cw.flits, flitOk f = true) ∧ cw.cseq = lane4.rxNext ∧
      endCode cw = 0) ∧
    (∃ (ls : Lanes) (cw : TxCw), lane4.decode ls = some (cw, []) ∧ (∀ f ∈ cw.flits, flitOk f = true) ∧ cw.cseq = lane4.rxNext ∧
      endCode cw = 2) ∧
    (∃ (ls : Lanes) (cw : TxCw), lane4.decode ls = some (cw, []) ∧ (∃ f ∈ cw.flits, flitOk f = false) ∧ lane4.nakPend = false) ∧
    ∃ ls : Lanes, lane4.decode ls = none ∧ lane4.nakPend = false :=
  ⟨⟨_, _, cwWith_decodes, cwWith_flits _ _ _ (by decide +kernel), rfl, by decide +kernel⟩,
   ⟨_, _, cwLate_decodes, cwWith_flits _ _ _ (by decide +kernel), by decide⟩,
   ⟨_, _, cwOdd_decodes, cwWith_flits _ _ _ (by decide +kernel), rfl, by decide +kernel⟩,
   ⟨_, _, cwBye_decodes, cwWith_flits _ _ _ (by decide +kernel), rfl, by decide +kernel⟩,
   ⟨_, _, cwBad_decodes, cwBad_flit, rfl⟩,
   ⟨stripe (zeros514 ++ List.replicate 30 1), decode_bad zeros514 rfl, rfl⟩⟩

theorem test_link_timer_hyps :
    (∃ (port : Fin 8) (s : State) (e : TxCw) (l : List TxCw),
      (s.port port).replay = e :: l ∧ (s.port port).state = .up) ∧
    (∃ (port : Fin 8) (vc : Fin 4) (s : State), (s.port port).state = .up ∧
      (∃ t ∈ (s.port port).txq, t.last = none ∧ pkVc t.pk = vc) ∧ ((s.port port).vc vc).cred = 0) ∧
    ∀ st : PortSt, ∃ (port : Fin 8) (s : State), (s.port port).state = st := by
  refine ⟨⟨0, link0 { state := .up, replay := [{}] }, {}, [], by decide +kernel⟩,
    ⟨0, 0, link0 { state := .up, txq := [{}] }, by decide +kernel⟩, ?_⟩
  intro st
  cases st <;> exact ⟨0, link0 { state := _, role := 1 }, rfl⟩

/-! Pre-emption. -/

theorem test_hold_hyps :
    (∃ (cell : Fin 16) (s : State), (s.cell cell).ctx = 1 ∧ (s.cell cell).faults ≠ [] ∧
      ∀ f ∈ (s.cell cell).faults, f.resolvable = true) ∧
    (∃ (cell : Fin 16) (s : State), (s.cell cell).ctx = 1 ∧ ∃ f ∈ (s.cell cell).faults, f.resolvable = false) ∧
    (∃ (cell : Fin 16) (s : State), (s.cell cell).exists_ = true ∧ (s.cell cell).ctx = 0) ∧
    (∃ (s : State) (k : Nat), (s.cell k).areaOk = true ∧ s.mediaErr = []) ∧ (∃ (s : State) (k : Nat), (s.cell k).areaOk = false) :=
  ⟨⟨0, flight [] { ctx := 1, faults := [{ resolvable := true }] }, by decide +kernel⟩,
   ⟨0, flight [] { ctx := 1, faults := [{}] }, by decide +kernel, {}, by decide +kernel⟩,
   ⟨0, flight [], by decide +kernel⟩, ⟨flight [] { area := 0x200000 }, 0, by decide +kernel⟩, ⟨flight [], 0, by decide +kernel⟩⟩

/-- Cell 0 on core 0, held, in a context state, with its area at 2 MiB, an image, and the header of the image. -/
def context (ctx : BitVec 3) (im : Option CtxImg) : State :=
  { up with cells := [(0, { mask := 1, ctx := ctx, area := 0x200000, img := im })],
            hbm := [(0x200000, 0x43), (0x200001, 0x54), (0x200002, 0x58), (0x200003, 0x49), (0x200005, 1), (0x200006, 2), (0x20000A, 1)] }

theorem test_context_hyps :
    (∃ (cell : Fin 16) (s : State), (s.cell cell).ctx = 2 ∧ (s.cell cell).run0 = .hold ∧ (s.cell cell).run1 = .hold ∧
      (s.cell cell).run2 = .hold ∧ (s.cell cell).areaOk = true ∧ s.mediaErr = []) ∧
    (∃ (cell : Fin 16) (s : State), (s.cell cell).mayResume = true ∧ (headerRead s cell).resumeRefuse cell = none) ∧
    (∃ (cell : Fin 16) (s : State) (r : Nat), (s.cell cell).mayResume = true ∧ (headerRead s cell).resumeRefuse cell = some r) ∧
    (∃ (cell : Fin 16) (s : State), (s.cell cell).ctx = 4 ∧ 0 < (s.cell cell).members.length ∧
      ∀ l, l < (s.cell cell).members.length → ∀ e ∈ (s.loadCore cell l (keptOf s cell l)).inflight, e.outcomeOpen = false) ∧
    ∃ (cell : Nat) (s : State), (s.cell cell).area ≠ 0 ∧ s.mediaErr = [] :=
  ⟨⟨0, context 2 none, by decide +kernel⟩, ⟨0, context 3 (some { cores := [{}] }), by decide +kernel⟩,
   ⟨0, { context 3 none with hbm := [] }, 1, by decide +kernel⟩, ⟨0, context 4 none, by decide +kernel⟩,
   ⟨0, context 3 none, by decide +kernel⟩⟩

/-! Control sessions: session 257 on port 0 of a device whose firmware runs. -/

/-- An open session of the owner, or of an observer. -/
def sess (owner : Bool := true) : Session := { id := 257, port := 0, owner := owner, open_ := true }

/-- The device with that session. -/
def tcdUp (ss : Session := sess) : State := { up with hst := { sessions := [ss] }, eths := [(0, { up := true })] }

/-- The message of a command in that session, with the TAG of its opcode and payload. -/
def signed (ss : Session) (op : Nat) (payload : List Byte) (epoch : Nat := 1) (seq : Nat := 0) (tslot : Nat := 255) : Msg :=
  let m : Msg := { session := 257, epoch := epoch, seq := seq, tslot := tslot }
  { m with tag := (hmac (ss.ks epoch) (msgHeader m op payload.length ++ payload)).take 16 }

theorem signed_verifies (ss : Session) (op : Nat) (payload : List Byte) (epoch seq tslot : Nat) :
    ss.verifies (signed ss op payload epoch seq tslot) op payload epoch = true := decide_eq_true rfl

theorem tcd_verified (ss : Session) (h : ss.id = 257) (hp : ss.port = 0) (ho : ss.open_ = true) (op : Nat) (payload : List Byte)
    (epoch seq tslot : Nat) (obs here : Bool) (eff : Eff) (post : State → State) :
    Verified (tcdUp ss) ⟨signed ss op payload epoch seq tslot, op, payload, obs, here, eff, post⟩ ss :=
  ⟨by simp [State.session?, tcdUp, signed, h], hp, ho, rfl, rfl, signed_verifies ..⟩

/-- What a request of the expected SEQ meets: executed with an answer at once or later. -/
def TcdMet (mk : Msg → Instr) : Prop :=
  ∃ (m : Msg) (r : TcdRow) (s : State) (ss : Session) (t : State) (a : Rsp), tcdRow (mk m) = some r ∧ Next s r ss ∧ Allowed s r ss ∧
    r.eff (ctxOf r ss) (taken s r.m) = (t, a)

theorem tcdMet_of {mk : Msg → Instr} (op : Nat) (payload : List Byte) (obs here : Bool) (eff : Msg → Eff) (post : Msg → State → State)
    (hl : opLenOk op payload.length = true) (h : ∀ m, tcdRow (mk m) = some ⟨m, op, payload, obs, here, eff m, post m⟩) : TcdMet mk :=
  ⟨signed sess op payload, _, tcdUp, sess, _, _, h _, ⟨⟨tcd_verified sess rfl rfl rfl .., rfl, rfl⟩, rfl, by decide⟩,
    ⟨.inr rfl, hl, .inr (.inl rfl), .inr rfl⟩, rfl⟩

/-- tcdExecutes and tcdAccepts, of every request. -/
theorem test_tcd_hyps :
    TcdMet (.armBegin · 1344) ∧ TcdMet (.armData · 0 [1]) ∧ TcdMet (.armCommit · 2 0 0) ∧ TcdMet .armCancel ∧
    TcdMet (.cellPreempt · 0) ∧ TcdMet (.cellResume · 0) ∧ TcdMet (.cellReset · 0) ∧ TcdMet (.tokenPost · 0 0 1 1) ∧
    TcdMet (.restore · 0 0 0) ∧ TcdMet (.slotAssign · 1 (leBytes 32 0)) ∧ TcdMet (.fleetResume · true) ∧
    TcdMet (.qpOpen · 0 1 1 3 (leBytes 16 0)) ∧ TcdMet (.qpClose · 2) ∧ TcdMet (.storeQp · 0 1 1) ∧ TcdMet .warmReset ∧
    TcdMet .moduleReset ∧ TcdMet (.attest · (leBytes 32 0)) ∧ TcdMet (.csrRead · 0xE0001000000 1) ∧
    TcdMet (.csrWrite · 0xE0001000000 [1]) ∧ TcdMet (.evtRead · 0 1) ∧ TcdMet .status ∧ TcdMet .sessionClose ∧ TcdMet .rekey ∧
    TcdMet .keepalive ∧ TcdMet (.evtSubscribe · 2) ∧ TcdMet (.notifyAck · 0) := by
  refine ⟨?_, ?_, ?_, ?_, ?_, ?_, ?_, ?_, ?_, ?_, ?_, ?_, ?_, ?_, ?_, ?_, ?_, ?_, ?_, ?_, ?_, ?_, ?_, ?_, ?_, ?_⟩ <;>
    exact tcdMet_of _ _ _ _ _ _ (by decide) (fun _ => rfl)

/-- An answer at once, and one that comes later. -/
theorem test_tcd_answers (c : TcdCtx) :
    (∃ (t : State) (st : Nat) (p : List Byte), effStatus c tcdUp = (t, some (st, p))) ∧
    ∃ t : State, effRestore 2 0 0 ⟨257, 1, 0, 0, true, 0x40⟩ tcdUp = (t, none) := by
  refine ⟨⟨_, _, _, rfl⟩, ⟨(effRestore 2 0 0 ⟨257, 1, 0, 0, true, 0x40⟩ tcdUp).1, ?_⟩⟩
  have h : (effRestore 2 0 0 ⟨257, 1, 0, 0, true, 0x40⟩ tcdUp).2 = none := by decide +kernel
  rw [← h]

/-- A status request of this session as a row. -/
def statusRow (ss : Session) (epoch seq : Nat) (tslot : Nat := 255) : TcdRow :=
  ⟨signed ss 0x0013 [] epoch seq tslot, 0x0013, [], true, false, effStatus, id⟩

theorem statusRow_eq (ss : Session) (epoch seq tslot : Nat) :
    tcdRow (.status (signed ss 0x0013 [] epoch seq tslot)) = some (statusRow ss epoch seq tslot) := rfl

theorem statusRow_present (ss : Session) (h : ss.id = 257) (hp : ss.port = 0) (ho : ss.open_ = true) (he : ss.epoch = 1)
    (hr : ss.rekeyed = false) (seq tslot : Nat) : Present (tcdUp ss) (statusRow ss 1 seq tslot) ss :=
  ⟨tcd_verified ss h hp ho .., he.symm, hr⟩

/-- tcdDuplicate, tcdAhead, tcdBusy, tcdEpoch. -/
theorem test_tcd_away_hyps :
    (∃ (c : Instr) (r : TcdRow) (s : State) (ss : Session) (st : Nat) (p : List Byte), tcdRow c = some r ∧ Present s r ss ∧
      r.m.seq < ss.expect ∧ ss.expect ≤ r.m.seq + 64 ∧ ss.kept.find? (fun k => k.1 == r.m.seq) = some (r.m.seq, st, p)) ∧
    (∃ (c : Instr) (r : TcdRow) (s : State) (ss : Session), tcdRow c = some r ∧ Present s r ss ∧
      r.m.seq < ss.expect ∧ ss.expect ≤ r.m.seq + 64 ∧ ss.kept.find? (fun k => k.1 == r.m.seq) = none ∧ r.m.seq ∈ ss.queued) ∧
    (∃ (c : Instr) (r : TcdRow) (s : State) (ss : Session), tcdRow c = some r ∧ Present s r ss ∧ ss.expect < r.m.seq ∧ ss.naked = false) ∧
    (∃ (c : Instr) (r : TcdRow) (s : State) (ss : Session), tcdRow c = some r ∧ Present s r ss ∧ r.m.seq = ss.expect ∧
      64 ≤ ss.queued.length) ∧
    (∃ (c : Instr) (r : TcdRow) (s : State) (ss : Session), tcdRow c = some r ∧ Verified s r ss ∧ ss.rekeyed = false ∧ ss.epoch < r.m.epoch) ∧
    ∃ (c : Instr) (r : TcdRow) (s : State) (ss : Session), tcdRow c = some r ∧ Verified s r ss ∧ ss.rekeyed = false ∧ r.m.epoch < ss.epoch :=
  ⟨⟨_, _, tcdUp { sess with expect := 1, kept := [(0, 0, [])] }, { sess with expect := 1, kept := [(0, 0, [])] }, 0, [],
     statusRow_eq _ 1 0 255, statusRow_present _ rfl rfl rfl rfl rfl 0 255, by decide, by decide, rfl⟩,
   ⟨_, _, tcdUp { sess with expect := 1, queued := [0] }, { sess with expect := 1, queued := [0] },
     statusRow_eq _ 1 0 255, statusRow_present _ rfl rfl rfl rfl rfl 0 255, by decide, by decide, rfl, by decide⟩,
   ⟨_, _, tcdUp, sess, statusRow_eq _ 1 5 255, statusRow_present _ rfl rfl rfl rfl rfl 5 255, by decide, rfl⟩,
   ⟨_, _, tcdUp { sess with queued := List.range 64 }, { sess with queued := List.range 64 }, statusRow_eq _ 1 0 255,
     statusRow_present _ rfl rfl rfl rfl rfl 0 255, rfl, by decide⟩,
   ⟨_, _, tcdUp, sess, statusRow_eq _ 2 0 255, tcd_verified sess rfl rfl rfl .., rfl, by decide⟩,
   ⟨_, _, tcdUp { sess with epoch := 3 }, { sess with epoch := 3 }, statusRow_eq _ 2 0 255, tcd_verified _ rfl rfl rfl .., rfl, by decide⟩⟩

/-- tcdForwards, tcdWaits and tcdFormat: the device with an unfinished RESTORE of the session; an EVT_SUBSCRIBE without a byte. -/
theorem test_tcd_turn_hyps :
    (∃ (c : Instr) (r : TcdRow) (s : State) (ss : Session), tcdRow c = some r ∧ Next s r ss ∧ (r.obs = true ∨ ss.owner = true) ∧
      opLenOk r.op r.payload.length = true ∧ ¬ Here s r) ∧
    (∃ (c : Instr) (r : TcdRow) (s : State) (ss : Session), tcdRow c = some r ∧ Next s r ss ∧ (r.obs = true ∨ ss.owner = true) ∧
      opLenOk r.op r.payload.length = true ∧ Here s r ∧ r.here = false ∧ s.unfinished r.m.session 0 = true) ∧
    (∃ (c : Instr) (r : TcdRow) (s : State) (ss : Session), tcdRow c = some r ∧ Next s r ss ∧ (r.obs = true ∨ ss.owner = true) ∧
      opLenOk r.op r.payload.length = false) ∧
    ∃ (s t : State) (w : Wait) (st : Nat) (p : List Byte), w ∈ s.hst.waiting ∧ s.engaged w.id w.frm = false ∧ w.op ≠ 0x50 ∧ w.op ≠ 0x51 ∧
      opEff w.op w.payload ⟨w.id, w.epoch, w.seq, w.frm, w.owner, w.op⟩ { s with hst := { s.hst with waiting := s.hst.waiting.erase w } }
        = (t, some (st, p)) :=
  ⟨⟨_, _, tcdUp, sess, statusRow_eq _ 1 0 3, ⟨statusRow_present _ rfl rfl rfl rfl rfl 0 3, rfl, by decide⟩, .inl rfl, rfl,
     fun h => h.elim (by decide) (fun h => h.elim (by decide) (by decide))⟩,
   ⟨_, _, { tcdUp with snp := { reply := [257, 1, 0, 0, 1] } }, sess, statusRow_eq _ 1 0 255,
     ⟨⟨⟨rfl, rfl, rfl, rfl, rfl, signed_verifies ..⟩, rfl, rfl⟩, rfl, by decide⟩, .inl rfl, rfl, .inr (.inl rfl), rfl, by decide +kernel⟩,
   ⟨.armData (signed sess 0x0021 (leBytes 8 0 ++ leBytes 8 0 ++ [])) 0 [], _, tcdUp, sess, rfl,
     ⟨⟨tcd_verified sess rfl rfl rfl .., rfl, rfl⟩, rfl, by decide⟩, .inr rfl, rfl⟩,
   ⟨{ tcdUp with hst := { waiting := [{ id := 257, op := 0x13 }] } }, _, { id := 257, op := 0x13 }, _, _, by decide, by decide +kernel,
     by decide, by decide, rfl⟩⟩

/-- forwardDoes. -/
theorem test_forward_hyps :
    (∃ (s : State) (dst : Nat), s.cfg.hasPlace (dst / 64) (dst % 64) = false) ∧ (∃ (s : State) (dst : Nat), (tabGet 0 s.gal.routes dst).getLsbD 7 = false) ∧
    (∃ (s : State) (dst : Nat), s.cfg.hasPlace (dst / 64) (dst % 64) = true ∧ (tabGet 0 s.gal.routes dst).getLsbD 7 = true ∧ s.incOf dst = 0) ∧
    ∃ (s : State) (dst : Nat), s.cfg.hasPlace (dst / 64) (dst % 64) = true ∧ (tabGet 0 s.gal.routes dst).getLsbD 7 = true ∧ s.incOf dst ≠ 0 :=
  ⟨⟨tcdUp, 4000, by decide +kernel⟩, ⟨tcdUp, 1, by decide +kernel⟩,
   ⟨fleet .active 0 { routes := [(2, 128)] }, 2, by decide +kernel⟩, ⟨fleet .active 0 { routes := [(1, 128)] }, 1, by decide +kernel⟩⟩

/-- tcdRole: an observer sends ARM_CANCEL. -/
theorem test_tcd_role_hyps : ∃ (c : Instr) (r : TcdRow) (s : State) (ss : Session), tcdRow c = some r ∧ Next s r ss ∧ r.obs = false ∧
    ss.owner = false :=
  ⟨.armCancel (signed (sess false) 0x0023 []), _, tcdUp (sess false), sess false, rfl,
   ⟨⟨tcd_verified (sess false) rfl rfl rfl .., rfl, rfl⟩, rfl, by decide⟩, rfl, rfl⟩

/-- tcdUnverified: no session, another port, a TAG that does not verify. -/
theorem test_tcd_unverified_hyps :
    (∃ (c : Instr) (r : TcdRow) (s : State), tcdRow c = some r ∧ s.session? r.m.session = none) ∧
    (∃ (c : Instr) (r : TcdRow) (s : State) (ss : Session), tcdRow c = some r ∧ s.session? r.m.session = some ss ∧ ss.port ≠ r.m.port.val) ∧
    ∃ (c : Instr) (r : TcdRow) (s : State) (ss : Session), tcdRow c = some r ∧ s.session? r.m.session = some ss ∧ ss.port = r.m.port.val ∧
      ss.open_ = true ∧ s.mgmt.halted = false ∧ s.rst.quiet.contains (48 + r.m.port.val) = false ∧
      ss.verifies r.m r.op r.payload r.m.epoch = false :=
  ⟨⟨.status { session := 9 }, _, tcdUp, rfl, by decide +kernel⟩, ⟨.status { session := 257, port := 1 }, _, tcdUp, sess, rfl, by decide +kernel, by decide⟩,
   ⟨.status { session := 257, epoch := 1 }, _, tcdUp, sess, rfl, by decide +kernel, rfl, rfl, rfl, rfl, by decide +kernel⟩⟩

/-- sessionOpenDoes: its four cases; the key of a certificate is not given, so the third is any certificate whose key no item names. -/
theorem test_session_open_hyps :
    (∃ (port : Fin 3) (s : State), (s.eth port).up = true ∧ s.cfg.maxSess ≤ s.hst.sessions.length) ∧
    (∃ (port : Fin 3) (cert : List Byte) (s : State), (s.eth port).up = true ∧ cert ≠ [] ∧ s.hst.sessions.length < s.cfg.maxSess ∧
      s.roleOf (Config.certKey cert) = none) ∧
    ∃ (port : Fin 3) (cert : List Byte) (s : State) (o : Bool), (s.eth port).up = true ∧ cert ≠ [] ∧
      s.hst.sessions.length < s.cfg.maxSess ∧ s.roleOf (Config.certKey cert) = some o :=
  ⟨⟨0, { tcdUp with cfg := { maxSess := 1 } }, by decide +kernel⟩, ⟨0, [1], tcdUp, by decide +kernel, by decide, by decide +kernel, rfl⟩,
   ⟨0, [1], { tcdUp with rst := { up.rst with ovr := true } }, true, by decide +kernel, by decide, by decide +kernel, rfl⟩⟩

/-- sessionConfirmDoes, sessionTimeoutsDo, closeRemoves, notifyResendDoes. -/
theorem test_session_hyps :
    (∃ (m : Msg) (s : State) (ss : Session), s.session? m.session = some ss ∧ ss.port = m.port.val ∧ ss.open_ = false ∧
      ss.verifies m 3 [] 1 = true ∧ m.epoch = 1 ∧ m.seq = 0) ∧
    (∃ (m : Msg) (s : State) (ss : Session), s.session? m.session = some ss ∧ ss.port = m.port.val ∧ ss.open_ = true ∧
      ss.verifies m 3 [] 1 = true ∧ m.epoch = 1 ∧ m.seq = 0 ∧ ss.epoch = 1 ∧ ss.expect ≤ 64 ∧
      ss.kept.find? (fun k => k.1 == 0) = some (0, 0, [])) ∧
    (∀ o : Bool, ∃ (m : Msg) (s : State) (ss : Session), s.session? m.session = some ss ∧ ss.port = m.port.val ∧ ss.open_ = o ∧
      ss.verifies m 3 [] 1 = false) ∧
    (∃ (id : Nat) (s : State) (ss : Session), s.session? id = some ss ∧ ss.open_ = false) ∧
    (∃ (id : Nat) (s : State) (ss : Session), s.session? id = some ss ∧ ss.open_ = true) ∧
    ∃ (id : Nat) (s : State) (ss : Session), s.session? id = some ss ∧ ss.open_ = true ∧ ss.minSev ≠ none ∧ ss.notes ≠ [] :=
  ⟨⟨signed { sess with open_ := false } 3 [], tcdUp { sess with open_ := false }, { sess with open_ := false }, rfl, rfl, rfl,
     signed_verifies .., rfl, rfl⟩,
   ⟨signed { sess with expect := 1, kept := [(0, 0, [])] } 3 [], tcdUp { sess with expect := 1, kept := [(0, 0, [])] },
     { sess with expect := 1, kept := [(0, 0, [])] }, rfl, rfl, rfl, signed_verifies .., rfl, rfl, rfl, by decide, rfl⟩,
   fun o => ⟨{ session := 257, epoch := 1 }, tcdUp { sess with open_ := o }, { sess with open_ := o }, rfl, rfl, rfl, by
     cases o <;> decide +kernel⟩,
   ⟨257, tcdUp { sess with open_ := false }, { sess with open_ := false }, rfl, rfl⟩, ⟨257, tcdUp, sess, rfl, rfl⟩,
   ⟨257, tcdUp { sess with minSev := some 0, notes := [(0, ({}, (0, false)))] }, { sess with minSev := some 0, notes := [(0, ({}, (0, false)))] },
    rfl, rfl, by decide, by decide⟩⟩

/-- The requests on cells, tokens, queue pairs, records and recovery. -/
theorem test_requests_hyps :
    (∃ (s : State) (k : Nat), k < 16 ∧ (s.cell k).exists_ = true) ∧ (∃ (s : State) (k : Nat), k < 16 ∧ (s.cell k).exists_ = false) ∧
    (∃ (s : State) (k l tok n p : Nat), k < 16 ∧ (s.cell k).pcore l = some p ∧ 1 ≤ tok ∧ tok ≤ 255 ∧ 1 ≤ n ∧ n ≤ 255 ∧
      (s.cell k).ctx ≠ 3 ∧ (s.core p).tokenOvf tok n = false) ∧
    (∃ s : State, s.arm.state ≠ .pending) ∧
    (∃ (s : State) (port pmtu : Nat) (gid : List Byte), port ≤ 1 ∧ 3 ≤ pmtu ∧ pmtu ≤ 5 ∧ gid.length = 16 ∧ s.hst.responders port < 256) ∧
    (∃ (s : State) (port pmtu : Nat) (gid : List Byte), port ≤ 1 ∧ 3 ≤ pmtu ∧ pmtu ≤ 5 ∧ gid.length = 16 ∧ 256 ≤ s.hst.responders port) ∧
    (∃ (s : State) (tgt port : Nat) (x : Nat × (Nat × Nat)), s.cfg.stores.find? (fun x => x.1 == tgt) = some (tgt, port, x)) ∧
    (∃ (s : State) (first : Nat) (r : EvRec), first < 2 ^ 32 ∧ s.evt.record first = some r) ∧
    (∃ (s : State) (first : Nat), first < 2 ^ 32 ∧ s.evt.record first = none) :=
  ⟨⟨flight [], 0, by decide +kernel⟩, ⟨up, 0, by decide +kernel⟩, ⟨flight [], 0, 0, 1, 1, 0, by decide +kernel⟩, ⟨up, by decide⟩,
   ⟨up, 0, 5, List.replicate 16 0, by decide +kernel⟩,
   ⟨{ up with hst := { qps := List.replicate 256 {} } }, 0, 3, List.replicate 16 0, by decide +kernel⟩,
   ⟨{ up with cfg := { stores := [(0, 1, 7, 0, 4096)] } }, 0, 1, (7, 0, 4096), by decide +kernel⟩,
   ⟨{ up with evt := { recs := [{ index := 4 }] } }, 4, { index := 4 }, by decide +kernel⟩, ⟨up, 4, by decide +kernel⟩⟩

theorem test_recovery_hyps :
    (∃ c : TcdCtx, c.frm ≠ 0 ∧ c.id = 0) ∧
    (∃ (c : TcdCtx) (s : State), c.frm = 0 ∧ s.mayRestore = false) ∧ (∃ (c : TcdCtx) (s : State), c.frm = 0 ∧ s.mayRestore = true) ∧
    (∃ (s : State) (slot : Nat) (hash : List Byte) (d : Nat × Nat), s.isHead = true ∧ s.unfilled.find? (fun d => d.1 == slot) = some d ∧
      hash.length = 32 ∧ s.gal.owners.any (fun o => o.1 != slot && o.2 == hash) = true) ∧
    (∀ r : Bool, ∃ (s : State) (slot : Nat) (hash : List Byte) (d : Nat × Nat), s.isHead = true ∧
      s.unfilled.find? (fun d => d.1 == slot) = some d ∧ hash.length = 32 ∧
      s.gal.owners.any (fun o => o.1 != slot && o.2 == hash) = false ∧ s.snp.recovering = r) ∧
    (∃ s : State, s.isHead = false) ∧
    (∃ s : State, s.mgmt.fwState = .installing) ∧ ∃ s : State, s.mgmt.fwState ≠ .installing :=
  ⟨⟨⟨0, 1, 0, 2, true, 0x40⟩, by decide⟩, ⟨⟨257, 1, 0, 0, true, 0x40⟩, flight [] { reset := false }, by decide +kernel⟩,
   ⟨⟨257, 1, 0, 0, true, 0x40⟩, up, by decide +kernel⟩,
   ⟨fleet .active 0 { deadSlots := [(1, 6)], owners := [(2, leBytes 32 0)] }, 1, leBytes 32 0, (1, 6), by decide +kernel⟩,
   fun r => ⟨{ fleet .active 0 { deadSlots := [(1, 6)] } with snp := { recovering := r } }, 1, leBytes 32 0, (1, 6), by
     cases r <;> decide +kernel⟩,
   ⟨fleet .active 1, by decide +kernel⟩, ⟨{ up with mgmt := { fwState := .installing } }, rfl⟩, ⟨up, by decide⟩⟩

/-! RoCEv2 and the ports. -/

/-- Queue pair 2 of port 0 is ready, with a window of 4 KiB under R_Key 7. -/
def roce0 (x : Qp := { qpn := 2, state := .rts }) : State :=
  { up with eths := [(0, { up := true, mode := 1 })], hst := { qps := [x] }, cfg := { windows := [(0, 3, 7, 0, 4096)] } }

theorem sendEthAll_hst (s : State) (port prio : Nat) (os : List Out) : (s.sendEthAll port prio os).hst = s.hst := by
  unfold State.sendEthAll
  induction os generalizing s with
  | nil => rfl
  | cons o os ih => exact (ih _).trans (by show (State.sendEth _ _ _ _).hst = _; unfold State.sendEth; split <;> rfl)

theorem fillBuffer_hst (s : State) (port : Nat) : (s.fillBuffer port).hst = s.hst := by unfold State.fillBuffer; dsimp only; split <;> rfl

theorem congestion_rdma (s : State) (x : Qp) (ce : Bool) : (s.congestion x ce).hst.rdma = s.hst.rdma := by
  rw [← fillBuffer_hst s x.port]
  unfold State.congestion State.answerCe
  dsimp only
  split
  · rw [State.sendRoce, sendEthAll_hst]; rfl
  · rfl

theorem test_rdma_hyps :
    (∃ (port : Fin 2) (q : RoceReq) (s : State) (x : Qp) (no gpa : Nat), RoceInOrder s port q x ∧ q.part = 3 ∧ x.wkey = 0 ∧
      s.cfg.windowAt q.rkey q.va (max q.data.length q.len) true = .ok (no, gpa)) ∧
    (∃ (port : Fin 2) (q : RoceReq) (s : State) (x : Qp) (no gpa : Nat), RoceInOrder s port q x ∧ q.part = 2 ∧ x.wkey ≠ 0 ∧
      s.cfg.windowAt (x.wkey - 1) x.waddr q.data.length true = .ok (no, gpa)) ∧
    (∃ (port : Fin 2) (q : RoceReq) (s : State) (x : Qp) (w : Nat), RoceInOrder s port q x ∧ q.part = 3 ∧ x.wkey = 0 ∧
      s.cfg.windowAt q.rkey q.va (max q.data.length q.len) true = .error w) ∧
    ∃ (port : Fin 2) (q : RoceReq) (s : State) (x : Qp) (no gpa : Nat), RoceInOrder s port q x ∧
      s.cfg.windowAt q.rkey q.va q.len false = .ok (no, gpa) ∧
      ((s.congestion x q.ce).modQp q.qpn (fun y =>
        { y with hpsn := (y.hpsn + max 1 (ceilDiv q.len (pmtuBytes x.pmtu))) % 2 ^ 24 })).readsOut q.qpn < 16 := by
  refine ⟨⟨0, { qpn := 2, rkey := 7, data := [1] }, roce0, { qpn := 2, state := .rts }, 0, 0, by unfold RoceInOrder; decide +kernel, rfl, rfl, rfl⟩,
    ⟨0, { qpn := 2, part := 2, data := [1] }, roce0 { qpn := 2, state := .rts, wkey := 8, waddr := 64 },
     { qpn := 2, state := .rts, wkey := 8, waddr := 64 }, 0, 64, by unfold RoceInOrder; decide +kernel, rfl, by decide, rfl⟩,
    ⟨0, { qpn := 2, rkey := 7, data := [1], va := 4096 }, roce0, { qpn := 2, state := .rts }, 0, by unfold RoceInOrder; decide +kernel, rfl, rfl, rfl⟩,
    ⟨0, { qpn := 2, rkey := 7, len := 64 }, roce0, { qpn := 2, state := .rts }, 0, 0, by unfold RoceInOrder; decide +kernel, rfl, ?_⟩⟩
  show (List.filter _ (State.congestion roce0 _ _).hst.rdma).length < 16
  rw [congestion_rdma]
  decide +kernel

/-- A requester queue pair of a STORE target, with WRITEs outstanding. -/
def requester0 (out : List (Nat × (Nat × List Byte))) (tries : Nat := 0) : Qp :=
  { qpn := 2, state := .rts, store := some 0, out := out, tries := tries }

theorem test_roce_hyps :
    (∃ (port : Fin 2) (q : RoceReq) (s : State), (s.eth port).up = true ∧ s.rst.quiet.contains (48 + port) = false ∧ q.unsupported = true) ∧
    (∃ (port : Fin 2) (q : RoceReq) (s : State) (x : Qp), (s.eth port).up = true ∧ s.rst.quiet.contains (48 + port) = false ∧
      q.unsupported = false ∧ s.qp? q.qpn = some x ∧
      x.port = port ∧ x.state = .rts ∧ x.store = none ∧ x.hpsn < q.psn ∧ q.psn < x.hpsn + 2 ^ 23 ∧ q.psn < 2 ^ 24) ∧
    (∃ (c : Cfg) (rkey no perm base len : Nat), c.windows.find? (fun x => x.2.2.1 == rkey) = some (no, perm, rkey, base, len)) ∧
    (∃ (s : State) (qpn : Nat) (q : Qp), s.requester? qpn = some q ∧ q.out = [] ∧ q.cnpIn = false ∧ s.cfg.qos.getD 4 0 % 2 = 1) ∧
    (∃ (s : State) (qpn : Nat) (q : Qp), s.requester? qpn = some q ∧ q.out ≠ [] ∧ (∀ o ∈ q.out, o.2.1 = 0) ∧ q.tries < 7) ∧
    ∃ (s : State) (qpn : Nat) (q : Qp), s.requester? qpn = some q ∧ q.out ≠ [] ∧ 7 ≤ q.tries :=
  ⟨⟨0, { unsupported := true }, roce0, by decide +kernel⟩, ⟨0, { qpn := 2, psn := 5 }, roce0, { qpn := 2, state := .rts }, by decide +kernel⟩,
   ⟨roce0.cfg, 7, 0, 3, 0, 4096, by decide +kernel⟩, ⟨roce0 (requester0 []), 2, requester0 [], by decide +kernel⟩,
   ⟨roce0 (requester0 [(0, (0, []))]), 2, requester0 [(0, (0, []))], by decide +kernel⟩,
   ⟨roce0 (requester0 [(0, (0, []))] 7), 2, requester0 [(0, (0, []))] 7, by decide +kernel⟩⟩

theorem test_eth_hyps :
    (∃ (port : Fin 3) (f : NbrFrame) (s : State), (s.eth port).up = true ∧ 9216 < f.len) ∧
    (∃ (port : Fin 3) (f : NbrFrame) (s : State) (k : Nat), (s.eth port).up = true ∧ f.len ≤ 9216 ∧ f.tags ≤ 1 ∧ frameReply f.kind = some k) ∧
    (∃ (port : Fin 3) (mode : Nat) (s : State), s.pwr.off = false ∧ s.fwUp = true ∧ (s.eth port).up = false ∧ s.rst.recovery = false ∧
      7 ≤ s.rst.stage ∧ s.cfg.modeOk port mode = true) ∧
    (∃ (port : Fin 3) (mode : Nat) (s : State), s.pwr.off = false ∧ (s.eth port).up = false ∧ s.rst.recovery = true ∧
      s.loaderPort = (port.val, mode)) ∧
    (∃ (port : Fin 3) (mode : Nat) (s : State), s.pwr.off = false ∧ s.rst.recovery = true ∧ s.loaderPort ≠ (port.val, mode)) ∧
    (∃ (port : Fin 3) (s : State), s.pwr.off = false ∧ s.fwUp = true ∧ (s.eth port).up = true) ∧
    (∃ (port prio : Nat) (s : State), (s.eth port).paused.getLsbD prio = true) ∧ ∃ (port prio : Nat) (s : State), (s.eth port).paused.getLsbD prio = false :=
  ⟨⟨0, { kind := .arp, len := 9217 }, roce0, by decide +kernel⟩, ⟨0, { kind := .arp, len := 64 }, roce0, 0, by decide +kernel⟩,
   ⟨1, 1, roce0, by decide +kernel⟩, ⟨2, 5, { up with rst := { up.rst with recovery := true } }, by decide +kernel⟩,
   ⟨0, 7, { up with rst := { up.rst with recovery := true } }, by decide +kernel⟩, ⟨0, roce0, by decide +kernel⟩,
   ⟨0, 3, { up with eths := [(0, { paused := 8 })] }, by decide +kernel⟩, ⟨0, 3, up, by decide +kernel⟩⟩

/-- The clock's port is up. -/
def clock0 (p : Ptp := {}) : State := { up with eths := [(2, { up := true })], ptp := p, cfg := { ptpCfg := [2, 0, 0] } }

/-- ptpDoes and ptpLocks: messages of another domain, of both kinds of Sync, of its Follow_Up, and the response. -/
theorem test_ptp_hyps :
    (∃ (port : Fin 3) (m : PtpMsg) (s : State), (s.eth port).up = true ∧ s.pwr.off = false ∧ s.cfg.ptpCfg ≠ [port.val, m.domain, m.transport]) ∧
    (∀ k : Fin 4, ∃ (port : Fin 3) (m : PtpMsg) (s : State), (s.eth port).up = true ∧ s.pwr.off = false ∧
      s.cfg.ptpCfg = [port.val, m.domain, m.transport] ∧ m.kind = k) ∧
    (∃ (port : Fin 3) (m : PtpMsg) (s : State) (t2 : BitVec 63), (s.eth port).up = true ∧ s.pwr.off = false ∧
      s.cfg.ptpCfg = [port.val, m.domain, m.transport] ∧ m.kind = 2 ∧ s.ptp.sync = some (m.seq, t2, none)) ∧
    (∃ (port : Fin 3) (m : PtpMsg) (s : State) (n : Nat) (t1 t2 t3 : BitVec 63), (s.eth port).up = true ∧ s.pwr.off = false ∧
      s.cfg.ptpCfg = [port.val, m.domain, m.transport] ∧ m.kind = 3 ∧ s.ptp.sync = some (n, t2, some t1) ∧ s.ptp.req = some (m.seq, t3)) ∧
    ∀ l : Bool, ∃ s : State, s.ptp.locked = l :=
  ⟨⟨2, { domain := 1 }, clock0, by decide +kernel⟩, fun k => ⟨2, { kind := k }, clock0, rfl, rfl, rfl, rfl⟩,
   ⟨2, { kind := 2, seq := 4 }, clock0 { sync := some (4, 100, none) }, 100, by decide +kernel⟩,
   ⟨2, { kind := 3, seq := 1 }, clock0 { sync := some (4, 100, some 90), req := some (1, 110) }, 4, 90, 100, 110, by decide +kernel⟩,
   fun l => ⟨clock0 { locked := l, everLock := true }, rfl⟩⟩

/-! Resets, bring-up, the supply, hot-plug and the power states. -/

/-- A module with a reset controller and a power state. -/
def plat (r : Rst) (p : Pwr := { off := false, en := true, rails := true }) (g : Mgmt := {}) : State :=
  { State.reset with rst := r, pwr := p, mgmt := g }

theorem test_reset_hyps :
    (∃ s : State, tabWf {} s.cores = true ∧ s.cores ≠ []) ∧ (∃ (s : State) (k : Nat), k ∈ cellIds ∧ (s.cell k).ctx = 2) ∧
    (∃ (s : State) (k : Nat), k ∈ cellIds ∧ (s.cell k).ctx ≠ 2 ∧ (s.cell k).img ≠ none) ∧
    (∃ s : State, tabWf {} s.ports = true ∧ s.ports ≠ []) :=
  ⟨⟨flight [{}], by decide +kernel⟩, ⟨context 2 none, 0, by decide +kernel⟩, ⟨context 3 (some {}), 0, by decide +kernel⟩,
   ⟨gal1, by decide +kernel⟩⟩

theorem test_trigger_hyps :
    (∃ (us : Nat) (s : State), 1 ≤ us ∧ s.pwr.state ≠ .removing) ∧ (∃ s : State, s.pwr.off = false ∧ s.rst.recovery = false) ∧
    (∃ s : State, s.rst.stage ≠ 8 ∧ s.rst.stage ≠ 1 ∧ s.rst.cls ≠ .w ∧ s.rst.recovery = false ∧ s.pwr.supwarn = false ∧ s.pwr.off = false) ∧
    (∃ s : State, s.pwr.ovHold = true) :=
  ⟨⟨1, up, by decide⟩, ⟨up, by decide⟩, ⟨plat { stage := 5 }, by decide⟩, ⟨plat {} { ovHold := true }, by decide⟩⟩

theorem test_trip_hyps :
    (∃ (readings : List TripReading) (s : State) (r : TripReading), r ∈ readings ∧ tripLevel r.kind ≤ r.temp ∧
      r.inst < tripSensors r.kind ∧ r.kind < 8 ∧ r.inst < 256 ∧ r.temp < 256 ∧
      (∀ x ∈ readings, tripLevel x.kind ≤ x.temp → x.inst < tripSensors x.kind →
        x ≠ r → r.kind < x.kind ∨ (r.kind = x.kind ∧ r.inst < x.inst)) ∧ s.pwr.off = false) ∧
    (∃ readings : List TripReading, readings ≠ [] ∧ ∀ x ∈ readings, x.temp < tripLevel x.kind) ∧
    ∃ s : State, s.pwr.tripHold = true ∧ s.pwr.off = false ∧ s.pwr.ovHold = false :=
  ⟨⟨[⟨2, 1, 111⟩, ⟨1, 7, 110⟩], up, ⟨1, 7, 110⟩, by decide +kernel⟩, ⟨[⟨1, 0, 109⟩], by decide, by decide⟩,
   ⟨plat {} { tripHold := true, off := false }, by decide⟩⟩

theorem test_stage_hyps :
    (∃ s : State, s.pwr.supwarn = false ∧ s.pwr.state ≠ .removing ∧ s.rst.stage = 1 ∧ s.rst.counted = false) ∧
    (∃ s : State, s.pwr.supwarn = false ∧ s.pwr.state ≠ .removing ∧ s.rst.stage = 2 ∧ s.pwr.railsMay = true ∧ s.mgmt.halted = false ∧
      s.rst.recovery = false ∧ s.imageRuns = true) ∧
    (∃ s : State, s.pwr.supwarn = false ∧ s.pwr.state ≠ .removing ∧ s.rst.stage = 2 ∧ s.pwr.railsMay = true ∧ s.mgmt.halted = false ∧
      s.rst.recovery = true) ∧
    (∀ n ∈ [3, 4, 5, 6, 7], ∃ s : State, s.pwr.supwarn = false ∧ s.pwr.state ≠ .removing ∧ s.pwr.rails = true ∧ s.mgmt.halted = false ∧
      s.rst.stage = n ∧ ¬ (s.rst.cls = .w ∧ s.rst.modeApply = true) ∧ s.pwr.off = false ∧ s.rst.retried = false) ∧
    (∃ s : State, s.pwr.rails = true ∧ s.mgmt.halted = false ∧ s.rst.stage = 3 ∧ s.rst.retried = true) ∧
    ∃ s : State, s.pwr.supwarn = true := by
  refine ⟨⟨plat {}, by decide⟩, ⟨plat { stage := 2 }, by decide +kernel⟩, ⟨plat { stage := 2, recovery := true }, by decide⟩, ?_,
    ⟨plat { stage := 3, retried := true }, by decide⟩, ⟨plat {} { supwarn := true }, by decide⟩⟩
  intro n _
  exact ⟨plat { stage := n }, rfl, by simp [plat, State.reset], rfl, rfl, rfl, (fun h => by cases h.1), rfl, rfl⟩

theorem test_block_hyps :
    (∃ (s : State) (b : BitVec 8) (k : Nat), blockCode b.toNat = true ∧ s.operational = true ∧ b.toNat ∉ s.rst.quiet ∧ 64 ≤ b.toNat ∧
      s.cellOf (b.toNat - 64) = some k) ∧
    (∃ (s : State) (b : BitVec 8), blockCode b.toNat = true ∧ s.operational = true ∧ b.toNat ∉ s.rst.quiet ∧ b.toNat < 64) ∧
    (∃ s : State, s.operational = false) ∧
    (∃ (s : State) (b : BitVec 8), b.toNat < 20 ∧ b.toNat ∈ s.rst.quiet ∧ ∃ l ∈ (s.plinth b.toNat).slice, l.dirty = true) ∧
    ∃ (s : State) (b : BitVec 8), 64 ≤ b.toNat ∧ b.toNat ∈ s.rst.quiet :=
  ⟨⟨flight [], 64, 0, by decide +kernel⟩, ⟨up, 3, by decide +kernel⟩, ⟨State.reset, by decide⟩,
   ⟨{ plat { stage := 8, quiet := [3] } with plinths := [(3, { slice := [{ dirty := true }] })] }, 3, by decide, by decide,
     { dirty := true }, by decide +kernel⟩,
   ⟨plat { stage := 8, quiet := [65] }, 65, by decide⟩⟩

theorem test_supply_hyps :
    (∃ (vin : BitVec 16) (s : State), vin.toNat < 3850 ∧ s.pwr.supwarn = false ∧ ∃ k ∈ cellIds, s.cell k ≠ {}) ∧
    ∃ (vin : BitVec 16) (s : State), vin.toNat < 3850 ∧ vin.toNat < 3950 ∧ s.pwr.supwarn = true :=
  ⟨⟨3849, flight [], by decide, rfl, 0, by decide, by decide +kernel⟩, ⟨3849, plat {} { supwarn := true }, by decide⟩⟩

theorem test_insertion_hyps :
    (∃ s : State, s.pwr.prsnt1 = false) ∧
    (∃ s : State, s.pwr.en = false ∧ s.pwr.state ≠ .removing ∧ s.pwr.holdoff = false ∧ s.pwr.prsnt1 = true ∧ s.pwr.off = true) ∧
    (∃ s : State, s.pwr.en = false ∧ s.pwr.state = .removing) ∧
    (∃ s : State, s.pwr.en = false ∧ s.pwr.state ≠ .removing ∧ s.pwr.holdoff = true) ∧
    (∃ s : State, s.pwr.holdoff = true ∧ s.pwr.en = true ∧ s.pwr.off = true ∧ s.pwr.reinsert = true) ∧
    (∃ s : State, s.pwr.ovHold = false ∧ s.pwr.tripHold = false) ∧ ∃ s : State, s.pwr.rails = true ∧ s.pwr.pwrgd = false :=
  ⟨⟨plat {} {}, by decide⟩, ⟨plat {} { prsnt1 := true }, by decide⟩, ⟨plat {} { state := .removing }, by decide⟩,
   ⟨plat {} { holdoff := true }, by decide⟩, ⟨plat {} { holdoff := true, en := true, reinsert := true }, by decide⟩, ⟨plat {}, by decide⟩,
   ⟨plat {}, by decide⟩⟩

theorem test_removal_hyps :
    (∃ s : State, s.pwr.en = true ∧ s.pwr.off = false ∧ s.pwr.state ≠ .removing) ∧
    (∃ s : State, s.pwr.state = .removing ∧ s.phaseOver = true) ∧ (∃ s : State, s.pwr.state = .removing ∧ s.pwr.rphase = 2) ∧
    (∃ (s : State) (i : Nat), i < 8 ∧ (s.port i).state = .up) ∧ (∃ s : State, s.pwr.en = true) ∧ ∃ s : State, s.pwr.en = false :=
  ⟨⟨plat { stage := 8 }, by decide⟩, ⟨plat { stage := 8 } { off := false, state := .removing, rphase := 1 }, by decide +kernel⟩,
   ⟨plat { stage := 8 } { off := false, state := .removing, rphase := 2 }, by decide⟩, ⟨gal1, 0, by decide +kernel⟩,
   ⟨plat { stage := 8 }, by decide⟩, ⟨plat { stage := 8 } {}, by decide⟩⟩

theorem test_power_state_hyps :
    (∃ s : State, s.operational = true ∧ s.pwr.state = .active ∧ s.activeCells = 0) ∧
    (∃ s : State, s.pwr.off = false ∧ s.rst.stage = 8 ∧ s.pwr.state ≠ .removing ∧ s.pwr.state ≠ .standby ∧ s.pwr.standbyIn = false ∧
      0 < s.activeCells) ∧
    (∃ s : State, s.pwr.off = false ∧ s.rst.stage = 8 ∧ s.pwr.state ≠ .removing ∧ s.pwr.state ≠ .standby ∧ s.pwr.standbyIn = false ∧
      s.activeCells = 0) ∧
    (∃ s : State, s.pwr.off = false ∧ s.rst.stage = 8 ∧ s.pwr.state ≠ .removing ∧ s.pwr.state ≠ .standby ∧ s.pwr.standbyIn = true) ∧
    (∃ s : State, s.pwr.off = false ∧ s.rst.stage = 8 ∧ s.pwr.state = .standby) ∧
    (∃ s : State, s.pwr.off = false ∧ s.rst.stage = 8 ∧ s.pwr.state ≠ .removing ∧ s.pwr.state ≠ .standby) ∧
    (∃ s : State, s.pwr.standbyIn = true ∧ s.activeCells = 0) ∧ (∃ s : State, s.pwr.standbyIn = true ∧ 0 < s.activeCells) ∧
    ∃ s : State, s.rst.pllOsc = false ∧ s.rst.clkMode = 0 ∧ s.pwr.off = false :=
  ⟨⟨up, by decide +kernel⟩, ⟨flight [], by decide +kernel⟩, ⟨up, by decide +kernel⟩,
   ⟨plat { stage := 8 } { off := false, standbyIn := true }, by decide⟩,
   ⟨plat { stage := 8 } { off := false, state := .standby }, by decide⟩, ⟨up, by decide⟩,
   ⟨plat { stage := 8 } { off := false, standbyIn := true }, by decide +kernel⟩,
   ⟨{ flight [] with pwr := { off := false, standbyIn := true } }, by decide +kernel⟩, ⟨up, by decide⟩⟩

/-! The management. -/

theorem test_sensor_hyps :
    (∃ (core : Fin 48) (temp : Int) (s : State), s.pwr.off = false ∧ 100 ≤ temp ∧ (s.core core).hot = false ∧ s.cellOf core = some 0) ∧
    (∃ (core : Fin 48) (temp : Int) (s : State), s.pwr.off = false ∧ temp ≤ 95 ∧ (s.core core).hot = true) ∧
    (∃ (s : State) (n : Nat), n ∈ coreIds ∧ s.slows n = true) ∧ (∃ (s : State) (n : Nat), n ∈ coreIds ∧ s.slows n = false) ∧
    (∃ (w : Nat) (s : State), s.pwr.off = false ∧ 3200 < w ∧ s.pwr.throttle = false) ∧
    ∃ (w : Nat) (s : State), s.pwr.off = false ∧ w ≤ 3100 ∧ s.pwr.throttle = true :=
  ⟨⟨0, 100, flight [], by decide +kernel⟩, ⟨0, 95, { up with cores := [(0, { hot := true })] }, by decide +kernel⟩,
   ⟨plat {} { throttle := true }, 0, by decide +kernel⟩, ⟨up, 0, by decide +kernel⟩, ⟨3201, up, by decide⟩,
   ⟨3100, plat {} { off := false, throttle := true }, by decide⟩⟩

/-- A firmware image with a body of one byte. -/
def image0 : List Byte :=
  blk 512 [(0, 4, 0x49574654), (4, 2, 0x0100), (8, 4, 1), (16, 32, 0x9a4585773ce2ccd7a585c331d60a60d1e3b7d28cbb2ede3bc55445342f12f54b)] ++ [1]

/-- Bytes as a memory from an address on. -/
def asMem (a : Nat) (b : List Byte) : Mem := (b.zipIdx.filter (fun p => p.1 != 0)).map (fun p => (a + p.2, p.1))

theorem image0_ovr : verifyFw image0 0 true = 0 := by decide +kernel

/-- An image verifies where its signature does (the key and the signature are free: log entry 9). -/
theorem test_image_hyps (h : pssValid (Config.romKey 0) (image0.take 128) (bsub image0 128 384) = true) :
    verifyFw image0 0 false = 0 := by
  have h1 : verifyFw image0 0 true = 0 := image0_ovr
  unfold verifyFw at h1 ⊢
  rw [h]
  simpa using h1

theorem test_firmware_hyps :
    (∃ s : State, s.fwUp = true ∧ s.mgmt.fwState ≠ .installing) ∧ (∃ s : State, s.fwUp = true ∧ s.mgmt.fwState = .installing) ∧
    (∃ (s : State) (r : Nat), s.fwUp = true ∧ s.mgmt.fwState = .staging ∧ r ≠ 0 ∧
      verifyFw (fwStaged s.mgmt.stageB) s.mgmt.fuse.toNat false = r) ∧
    (∃ s : State, s.fwUp = true ∧ s.mgmt.fwState = .staging ∧ fwStaged s.mgmt.stageB = image0) ∧
    (∃ s : State, s.fwUp = true ∧ s.mgmt.fwState = .verified) ∧ ∃ (img : List Byte), verifyFw img 0 true = 0 :=
  ⟨⟨up, by decide⟩, ⟨{ up with mgmt := { fwState := .installing } }, by decide⟩,
   ⟨{ up with mgmt := { fwState := .staging } }, 1, by decide +kernel⟩,
   ⟨{ up with mgmt := { fwState := .staging, stageB := asMem 0 image0 } }, by decide +kernel⟩,
   ⟨{ up with mgmt := { fwState := .verified } }, by decide⟩, ⟨image0, image0_ovr⟩⟩

/-- A transfer record to the next epoch and a new key. -/
def transfer0 : List Byte := blk 512 [(0, 4, 0x544E574F), (4, 2, 0x0100), (8, 8, 1), (16, 1, 9)]

/-- The management with that record staged and an owner. -/
def transferring : Mgmt := { ownStage := asMem 0 transfer0, own0 := (0, [7]) }

theorem transfer_read : memRead transferring.ownStage 0 512 = transfer0 := by decide +kernel

/-- ownFails: refused, and passed where its signature verifies. -/
theorem test_owner_hyps : (∃ (s : State) (off : Nat), s.fwUp = true ∧ s.mgmt.fwState ≠ .installing ∧ ownFails s.mgmt = some off) ∧
    (pssValid [7] (transfer0.take 128) (bsub transfer0 128 384) = true → ownFails transferring = none) := by
  refine ⟨⟨up, 0, by decide +kernel⟩, fun h => ?_⟩
  unfold ownFails
  dsimp only
  rw [transfer_read, if_neg (by decide +kernel), if_neg (by decide +kernel), if_neg (by decide +kernel), if_neg (by decide +kernel),
    if_neg (by decide +kernel), if_neg (by decide +kernel)]
  refine if_neg ?_
  show ¬ ([7] = [] ∨ (!pssValid [7] _ _) = true)
  rw [h]
  decide

theorem test_survey_hyps :
    (∃ (s : State) (island days : Nat), s.fwUp = true ∧ island < 48 ∧ (s.core island).survDue = true ∧ 8 ≤ days) ∧
    (∃ (s : State) (island days : Nat), s.fwUp = true ∧ 48 ≤ island ∧ s.mgmt.survOther.contains island = true ∧ 8 ≤ days) ∧
    (∃ ms : List Nat, ms ≠ [] ∧ ∃ m ∈ ms, 8 ≤ m) ∧ (∃ ms : List Nat, ms ≠ [] ∧ ∀ m ∈ ms, m < 8) ∧
    (∃ (core : Fin 48) (s : State) (c : Nat), s.fwUp = true ∧ (s.core core).survDue = true ∧ s.survBar core = some c) ∧
    ∃ (core : Fin 48) (s : State), s.fwUp = true ∧ (s.core core).survDue = true ∧ s.survBar core = none :=
  ⟨⟨{ up with cores := [(0, { survDue := true })] }, 0, 8, by decide +kernel⟩, ⟨{ up with mgmt := { survOther := [64] } }, 64, 8, by decide +kernel⟩,
   ⟨[3, 9], by decide, 9, by decide⟩, ⟨[3, 7], by decide, by decide⟩,
   ⟨0, { flight [] with cores := [(0, { survDue := true })] }, 1, by decide +kernel⟩,
   ⟨0, { up with cores := [(0, { survDue := true })] }, by decide +kernel⟩⟩

/-- The recovery loader runs. -/
def loader (g : Mgmt := {}) (ovr : Bool := false) : State := plat { stage := 0, recovery := true, ovr := ovr } { off := false } g

theorem test_loader_hyps :
    (∃ s : State, s.rst.recovery = false) ∧
    (∃ (seq : BitVec 32) (s : State) (st : Nat) (p : List Byte), s.rst.recovery = true ∧ s.rst.stage = 0 ∧ s.pwr.off = false ∧
      s.mgmt.trlpSeq = some (seq.toNat, (st, p))) ∧
    (∃ (seq : BitVec 32) (s : State) (o : Nat) (d : List Byte), s.rst.recovery = true ∧ s.rst.stage = 0 ∧ s.pwr.off = false ∧
      (∀ x, s.mgmt.trlpSeq = some x → x.1 ≠ seq.toNat) ∧ o = s.mgmt.trlpNext ∧ 0 < d.length ∧ d.length ≤ 8192 ∧ o + d.length ≤ 2097152 ∧
      s.mgmt.owner.2 = [] ∧ s.mgmt.loaderIp = 0) ∧
    (∃ s : State, s.rst.recovery = true ∧ s.rst.stage = 0 ∧ s.pwr.off = false ∧ s.mgmt.trlpSeq = none ∧ s.mgmt.fwState ≠ .installing ∧
      verifyFw (fwStaged s.mgmt.stageB) s.mgmt.fuse.toNat s.rst.ovr = 0) ∧
    (∃ (s : State) (r : Nat), s.rst.recovery = true ∧ s.rst.stage = 0 ∧ s.pwr.off = false ∧ s.mgmt.trlpSeq = none ∧ r ≠ 0 ∧
      verifyFw (fwStaged s.mgmt.stageB) s.mgmt.fuse.toNat s.rst.ovr = r) ∧
    ∃ s : State, s.rst.recovery = true ∧ s.rst.stage = 0 ∧ s.pwr.off = false ∧ s.mgmt.owner.2 ≠ [] ∧ s.rst.ovr = false := by
  refine ⟨⟨up, rfl⟩, ⟨1, loader { trlpSeq := some (1, 0, []) }, 0, [], by decide +kernel⟩,
    ⟨1, loader, 0, [1], rfl, rfl, rfl, fun x h => (nomatch h), rfl, by decide, by decide, by decide, rfl, rfl⟩,
    ⟨loader { stageB := asMem 0 image0 } true, rfl, rfl, rfl, rfl, by decide, ?_⟩, ⟨loader, 1, by decide +kernel⟩,
    ⟨loader { own0 := (0, [7]) }, by decide +kernel⟩⟩
  have h : fwStaged (loader { stageB := asMem 0 image0 } true).mgmt.stageB = image0 := by decide +kernel
  rw [h]
  exact image0_ovr

theorem test_record_hyps :
    ∃ (s : State) (code : BitVec 16) (kind inst : Nat) (w : SupWin), s.fwUp = true ∧
      s.evt.wins.find? (fun w => w.code == code && w.kind == kind && w.inst == inst) = some w ∧ w.supp ≠ 0 :=
  ⟨{ up with evt := { wins := [⟨5, 1, 0, 66, 2⟩] } }, 5, 1, 0, ⟨5, 1, 0, 66, 2⟩, by decide +kernel⟩

/-! Armature loads. -/

/-- The load engine in a state. -/
def loading (a : ArmSt) : State := { up with arm := a }

theorem test_no_verify_hyps : ∃ s : State, s.arm.state ≠ .verifying ∧ s.hst.waiting = [] := ⟨up, by decide +kernel⟩

theorem test_load_hyps :
    (∃ (total : Nat) (s : State), 384 ≤ total ∧ lengthOk (total - 384) = true ∧ s.arm.busy = false ∧ s.arm.state = .idle) ∧
    (∃ (total : Nat) (s : State), 384 ≤ total ∧ lengthOk (total - 384) = true ∧ s.arm.busy = true) ∧
    (∃ (off : Nat) (data : List Byte) (s : State), 0 < data.length ∧ data.length ≤ 8192 ∧ s.arm.state = .receiving ∧
      off = s.arm.received.toNat ∧ off + data.length ≤ s.arm.total.toNat ∧ s.mediaErr = []) ∧
    (∃ (off : Nat) (data : List Byte) (s : State), 0 < data.length ∧ data.length ≤ 8192 ∧ s.arm.state = .receiving ∧
      off ≠ s.arm.received.toNat) ∧
    (∃ s : State, s.arm.state = .receiving ∧ s.arm.received = s.arm.total) ∧ (∃ s : State, s.arm.state = .receiving ∧ s.arm.received ≠ s.arm.total) ∧
    (∃ s : State, s.arm.state = .pending) ∧ (∃ s : State, s.arm.state = .verifying) ∧ (∃ s : State, s.arm.state = .applying) ∧
    ∃ (s : State) (raw : List Byte), s.arm.persisting = some raw ∧ s.arm.nextCopy = 0 :=
  ⟨⟨1344, up, by decide +kernel⟩, ⟨1344, loading { state := .verifying }, by decide +kernel⟩,
   ⟨0, [1], loading { state := .receiving, total := 1344 }, by decide⟩, ⟨5, [1], loading { state := .receiving, total := 1344 }, by decide⟩,
   ⟨loading { state := .receiving, total := 1344, received := 1344 }, by decide⟩, ⟨loading { state := .receiving, total := 1344 }, by decide⟩,
   ⟨loading { state := .pending }, rfl⟩, ⟨loading { state := .verifying }, rfl⟩, ⟨loading { state := .applying }, rfl⟩,
   ⟨loading { persisting := some [1] }, [1], by decide⟩⟩

/-- An armature of one cell on core 0 whose only program is a STEP_END, written out from R34 to R40 and R261: header, table of seven
sections (CELLMAP, STORE, ACCFMT, MEMPART, XLATE, CHECK, PROG), their items; an all-zero signature. -/
def arm0 : List Byte :=
  blk 960 ([(0, 4, 0x41524D54), (4, 2, 0x0100), (6, 2, 256), (8, 8, 960), (16, 14, leNat (ascii "FNT-T48-1440-L")), (32, 2, 0x00B0),
      (34, 2, 7), (48, 32, 0x99e1b70497178993e98823a8ed3894030109948ac89925428a752ede2b1834ed), (80, 8, 1)] ++
    [(256, 2, 1), (258, 2, 0xFFFF), (264, 8, 512), (272, 8, 32), (288, 2, 2), (296, 8, 576), (304, 8, 8), (320, 2, 3), (328, 8, 640),
      (336, 8, 8), (352, 2, 4), (354, 2, 0xFFFF), (360, 8, 704), (368, 8, 8), (384, 2, 5), (386, 2, 0xFFFF), (392, 8, 768), (400, 8, 8)] ++
    [(416, 2, 0x103), (418, 2, 0xFFFF), (424, 8, 832), (432, 8, 8), (448, 2, 0x101), (456, 8, 896), (464, 8, 64)] ++
    [(512, 2, 0x8001), (516, 4, 24), (522, 6, 1), (896, 2, 0x8101), (900, 4, 8), (904, 1, 1), (908, 4, 1000), (912, 2, 0x8102),
      (916, 4, 24), (921, 1, 5), (924, 4, 1), (941, 1, 0xA2)]) ++ List.replicate 384 0

theorem arm0_format : checkFormat arm0 arm0.length = true := by decide +kernel

theorem arm0_target : checkTarget arm0 = true := by decide +kernel

theorem arm0_hash : sha256 ((arm0.take (hdrLength arm0)).drop 256) = bsub arm0 48 32 := by decide +kernel

/-- Under the override arm0 passes wherever the checks that depend on the armature in force do. -/
theorem arm0_passes (f : Option Armature) (mode : Nat) (mask : BitVec 16) (hs : checkStructure arm0 f = true)
    (hc : checkContent arm0 f = true) (hb : checkBase arm0 f = true) (hp : checkScope arm0 f mode mask = true) :
    verifyArm arm0 f [] true mode mask = 0 := by
  simp [verifyArm, arm0_format, arm0_target, arm0_hash, hs, hc, hb, hp]

theorem arm0_first : verifyArm arm0 none [] true 0 0 = 0 :=
  arm0_passes none 0 0 (by decide +kernel) (by decide +kernel) (by decide +kernel) (by decide +kernel)

/-- The engine verifying an upload of arm0 under the override. -/
def verifying (f : Option Armature) (mode : BitVec 2) (epoch : BitVec 32 := 0) : State :=
  { up with rst := { stage := 8, ovr := true }, hbm := asMem stagingBase arm0,
            arm := { state := .verifying, total := 1344, inForce := f, mode := mode, cells := 1, epoch := epoch } }

theorem staged_read : memRead (asMem stagingBase arm0) stagingBase 1344 = arm0 := by decide +kernel

theorem arm0_staged (f : Option Armature) (mode : BitVec 2) (epoch : BitVec 32) :
    (verifying f mode epoch).hbmRead stagingBase 1344 = arm0 := by
  have e : (verifying f mode epoch).hbm = asMem stagingBase arm0 := by simp only [verifying]
  rw [State.hbmRead, e, staged_read]

/-- arm0 as the armature in force. -/
def force0 : Armature := .ofRaw arm0 none

theorem arm0_over : ∀ mode ∈ [0, 1, 2], verifyArm arm0 (some force0) [] true mode 1 = 0 := by
  intro mode hm
  have hp : ∀ mode ∈ [0, 1, 2], checkScope arm0 (some force0) mode 1 = true := by decide +kernel
  exact arm0_passes _ mode 1 (by decide +kernel) (by decide +kernel) (by decide +kernel) (hp mode hm)

theorem arm0_bad : verifyArm arm0 none [] false 0 0 = 3 := by decide +kernel

theorem test_apply_hyps :
    (∃ (s : State) (x : Armature), s.arm.state = .applying ∧ s.arm.next = some x ∧ s.rst.modeApply = false ∧ hdrPersist x.header = false) ∧
    ∃ (s : State) (x : Armature), s.arm.state = .applying ∧ s.arm.next = some x ∧ s.rst.modeApply = true ∧ s.rst.stage = 5 :=
  ⟨⟨loading { state := .applying, next := some force0 }, force0, by decide +kernel⟩,
   ⟨{ loading { state := .applying, next := some force0 } with rst := { stage := 5, modeApply := true } }, force0, by decide +kernel⟩⟩

/-! Numbers and lines. -/

theorem test_number_hyps :
    (∀ f ∈ [fp32, bf16, w40], IsFmt f) ∧ fp32.dec 0x3F800000 = .fin false 8388608 (-23) ∧ (fp32.dec 0x3F800000).isZero = false ∧
    (bf16.dec 0x8000).isZero = true ∧ (bf16.dec 0x8000).isNan = false ∧ (w40.dec w40.nan).isNan = true := by
  refine ⟨?_, by decide +kernel, by decide +kernel, by decide +kernel, by decide +kernel, by decide +kernel⟩
  intro f hf
  simpa [IsFmt] using hf

/-- An element that holds a NaN. -/
def nanEl : VEl := { v := .nan }

theorem test_reduction_hyps :
    Unmasked [(3, (nanEl, (false, false)))] = [] ∧ (∃ q ∈ Unmasked [(3, (nanEl, (true, false)))], q.2.1.v = .nan) ∧
    ((Unmasked [(2, ({}, (true, false))), (3, (nanEl, (true, false)))]).find? (fun q => q.2.1.v.isNan)).map (fun q => (q.1, q.2.1)) =
      some (3, nanEl) := by
  refine ⟨by decide +kernel, ⟨(3, (nanEl, (true, false))), ?_⟩, by decide +kernel⟩
  decide +kernel

/-- A line of G = 8 whose slot 0 is live with a small weight, slot 8 live with a larger one, and the rest vacant. -/
def line0 : List Byte :=
  lineBuild (blk 256 [(12, 1, 8)]) ((List.range 32).map (fun s =>
    if s = 0 then ⟨vacIdx 8 0, 0x3C00, 2, 1, 1⟩ else if s = 8 then ⟨0, 0x3F80, 15, 1, 1⟩ else vacSlot 8 s)) 5 1 2

theorem test_line_hyps :
    (blk 256 [(12, 1, 8)]).length = 256 ∧ line0.length = 256 ∧ lineSkip false line0 = 0 ∧
    SlotsFit ((List.range 32).map (fun s => vacSlot 8 s)) := by
  refine ⟨by decide +kernel, by decide +kernel, by decide +kernel, by decide +kernel, ?_⟩
  intro x hx
  revert x
  decide +kernel

/-! The log, memory and registers. -/

/-- A module with a window open on CELL 0's event 0x2106, of n records. -/
def window (code : Nat) (fs : List EvF) (n : Nat) : State :=
  { up with evt := { wins := [⟨BitVec.ofNat 16 code, (evSource code fs).1, (evSource code fs).2.1, n, 0⟩] } }

theorem test_log_hyps :
    (∃ (s : State) (code : Nat), code < 2 ^ 16 ∧ 3 ≤ sevOf code ∧ s.evt.recs.length ≤ 1920) ∧
    (∃ (s : State) (code : Nat) (fs : List EvF), code < 2 ^ 16 ∧ sevOf code < 3 ∧ windowOf s code (evSource code fs).1 (evSource code fs).2.1 = none) ∧
    (∀ n ∈ [63, 64], ∃ (s : State) (code : Nat) (fs : List EvF) (w : SupWin), code < 2 ^ 16 ∧ sevOf code < 3 ∧
      windowOf s code (evSource code fs).1 (evSource code fs).2.1 = some w ∧ w.count = n) ∧
    ∃ r : EvRec, r.data.length = 12 ∧ r.sev < 256 ∧ r.kind < 256 ∧ r.inst < 65536 ∧ r.loc < 65536 := by
  refine ⟨⟨up, sevCritical.headD 0, by decide +kernel⟩, ⟨up, 0x7003, [], by decide +kernel⟩, ?_,
    ⟨{ data := List.replicate 12 0 }, by decide +kernel⟩⟩
  intro n hn
  simp only [List.mem_cons, List.not_mem_nil, or_false] at hn
  rcases hn with rfl | rfl
  · exact ⟨window 0x7003 [] 63, 0x7003, [], _, by decide +kernel, by decide +kernel, rfl, rfl⟩
  · exact ⟨window 0x7003 [] 64, 0x7003, [], _, by decide +kernel, by decide +kernel, rfl, rfl⟩

theorem test_register_hyps :
    up.fwUp = true ∧ (∃ c off a, c < 48 ∧ off + 8 ≤ storeSize ∧ a = csBase + c * csWin + off) ∧
    (∃ a v c, Asks a v c) ∧ (∃ s : State, s.fwUp = false) ∧ (∃ s : State, s.pwr.off = true) ∧
    (∃ o, 0x1D00000 ≤ o ∧ o < 0x2000000 ∧ o % 8 = 0) ∧ ∃ (s : State) (b : BitVec 8), b.toNat ∈ s.rst.quiet :=
  ⟨by decide +kernel, ⟨47, storeSize - 8, _, by decide, by decide, rfl⟩, ⟨_, _, _, .take⟩, ⟨State.reset, by decide +kernel⟩,
   ⟨State.reset, by decide +kernel⟩, ⟨0x1FFFFF8, by decide⟩, ⟨plat { stage := 8, quiet := [3] }, 3, by decide⟩⟩

/-! The machine as a whole. -/

theorem test_step_hyps :
    Sound State.reset ∧ (∃ t, step State.reset = .next t) ∧ ∃ t, step { State.reset with pending := [.keepalive {}] } = .next t :=
  ⟨by unfold Sound; decide +kernel, ⟨_, rfl⟩, ⟨_, rfl⟩⟩

end Sys2Proof.Tests
end

section
/-! PROOFS. Reading a number back from the byte strings it was put together from (R4, R5): parts of an append, of a copied range and of
a table of entries of one width. -/
namespace Sys2Proof.Machine
open Sys2Proof

@[simp] theorem length_leBytes (n v : Nat) : (leBytes n v).length = n := by
  induction n generalizing v with
  | zero => rfl
  | succ n ih => simp [leBytes, ih]

@[simp] theorem length_bsub (b : List Byte) (off n : Nat) : (bsub b off n).length = n := by simp [bsub]

@[simp] theorem length_flatMap_leBytes (n k : Nat) (f : Nat → Nat) :
    ((List.range n).flatMap (fun i => leBytes k (f i))).length = n * k := by
  simp [List.length_flatMap]

theorem leNat_leBytes (n v : Nat) : leNat (leBytes n v) = v % 256 ^ n := by
  induction n generalizing v with
  | zero => simp [leBytes, leNat, Nat.mod_one]
  | succ n ih =>
    have hpow : 256 ^ (n + 1) = 256 * 256 ^ n := Nat.pow_succ'
    rw [leBytes, leNat, ih, BitVec.toNat_ofNat, hpow, Nat.mod_mul]

theorem leNat_lt (b : List Byte) : leNat b < 256 ^ b.length := by
  induction b with
  | nil => simp [leNat]
  | cons x r ih =>
    have hx := x.isLt
    rw [leNat, List.length_cons, Nat.pow_succ']
    omega

theorem bfld_lt (b : List Byte) (off n : Nat) : bfld b off n < 256 ^ n := by
  simpa [bfld] using leNat_lt (bsub b off n)

theorem bfld_append_left {a b : List Byte} {off n : Nat} (h : off + n ≤ a.length) :
    bfld (a ++ b) off n = bfld a off n := by
  unfold bfld bsub
  congr 1
  refine List.map_congr_left fun i hi => ?_
  have hi := List.mem_range.1 hi
  exact List.getD_append _ _ _ _ (by omega)

theorem bfld_append_right {a b : List Byte} {off n m : Nat} (h : a.length = m) :
    bfld (a ++ b) (m + off) n = bfld b off n := by
  subst h
  unfold bfld bsub
  congr 1
  refine List.map_congr_left fun i _ => ?_
  rw [List.getD_append_right _ _ _ _ (by omega)]
  congr 1
  omega

/-- A range copied out of a byte string reads as it does in its place. -/
theorem bfld_bsub {b : List Byte} {o m off n : Nat} (h : off + n ≤ m) : bfld (bsub b o m) off n = bfld b (o + off) n := by
  unfold bfld
  congr 1
  refine List.map_congr_left fun i hi => ?_
  have hi := List.mem_range.1 hi
  simp [bsub, List.getD_eq_getElem?_getD, List.getElem?_range (show off + i < m by omega), Nat.add_assoc]

theorem bfld_leBytes (n v : Nat) : bfld (leBytes n v) 0 n = v % 256 ^ n := by
  have h : bsub (leBytes n v) 0 n = leBytes n v := by
    refine List.ext_getElem (by simp) fun i h₁ h₂ => ?_
    simp [bsub, List.getD_eq_getElem?_getD, List.getElem?_eq_getElem h₂]
  rw [bfld, h, leNat_leBytes]

/-- Entry i of a table of n entries of k bytes. -/
theorem bfld_flatMap_leBytes {n k i : Nat} (f : Nat → Nat) (h : i < n) :
    bfld ((List.range n).flatMap (fun i => leBytes k (f i))) (k * i) k = f i % 256 ^ k := by
  induction n with
  | zero => omega
  | succ n ih =>
    rw [List.range_succ, List.flatMap_append]
    rcases Nat.lt_succ_iff_lt_or_eq.1 h with hlt | rfl
    · rw [bfld_append_left, ih hlt]
      simpa [Nat.mul_comm, Nat.mul_succ] using Nat.mul_le_mul_left k (Nat.succ_le_of_lt hlt)
    · rw [← Nat.add_zero (k * i), bfld_append_right (by simp [Nat.mul_comm])]
      simp [bfld_leBytes]

end Sys2Proof.Machine
end

section
/-! PROOFS. What a line built from its slots reads back (R391), and what CARVE leaves in each slot (R154 to R157). -/
namespace Sys2Proof.Machine
open Sys2Proof Sys2Proof.Claims

/-- The bytes of a built line from 8 on: COLID, K0 and G of the old line, COUNT, LFLAGS, then a table for each field of the slots. -/
def lineTail (old : List Byte) (slot : Nat → Slot) (phase count : Nat) : List Byte :=
  bsub old 8 5 ++ leBytes 1 count ++ leBytes 2 phase ++ (List.range 32).flatMap (fun s => leBytes 1 (slot s).idx) ++
    (List.range 32).flatMap (fun s => leBytes 2 (slot s).w) ++
    (List.range 16).flatMap (fun i => leBytes 1 ((slot (2 * i)).age + 16 * (slot (2 * i + 1)).age)) ++
    (List.range 32).flatMap (fun s => leBytes 2 (slot s).m) ++ (List.range 32).flatMap (fun s => leBytes 1 (slot s).v) ++
    List.replicate 32 0

/-- Slot s of a list of slots, as `lineBuild` takes it. -/
def slotAt (ss : List Slot) (s : Nat) : Slot := ss.getD s ⟨0, 0, 0, 0, 0⟩

theorem bfld_lineBuild (old : List Byte) (ss : List Slot) (stamp phase count off n : Nat) :
    bfld (lineBuild old ss stamp phase count) (8 + off) n = bfld (lineTail old (slotAt ss) phase count) off n :=
  bfld_append_right (by simp)

section
variable (old : List Byte) (ss : List Slot) (stamp phase count : Nat)

/-- The first five bytes of the tail are the old line's. -/
theorem bfld_lineTail_header {slot : Nat → Slot} {off n : Nat} (h : off + n ≤ 5) :
    bfld (lineTail old slot phase count) off n = bfld old (8 + off) n := by
  unfold lineTail
  repeat rw [bfld_append_left (by simp; omega)]
  exact bfld_bsub h

theorem lineG_lineBuild : lineG (lineBuild old ss stamp phase count) = lineG old := by
  unfold lineG
  rw [bfld_lineBuild (off := 4), bfld_lineTail_header _ _ _ (by omega)]

theorem lineK0_lineBuild : lineK0 (lineBuild old ss stamp phase count) = lineK0 old := by
  unfold lineK0
  rw [bfld_lineBuild (off := 2), bfld_lineTail_header _ _ _ (by omega)]

/-- A built line keeps G and the reach base of the old one, so an index has the same status in both. -/
theorem lineStat_lineBuild (kext s idx : Nat) :
    lineStat (lineBuild old ss stamp phase count) kext s idx = lineStat old kext s idx := by
  simp [lineStat, lineG_lineBuild, lineK0_lineBuild]

/-- The slot tables of the tail, each read at one slot; an age byte holds the ages of two slots. -/
theorem bfld_lineTail_slot (slot : Nat → Slot) {s : Nat} (h : s < 32) :
    bfld (lineTail old slot phase count) (8 + s) 1 = (slot s).idx % 256 ∧
    bfld (lineTail old slot phase count) (40 + 2 * s) 2 = (slot s).w % 65536 ∧
    bfld (lineTail old slot phase count) (104 + s / 2) 1 =
      ((slot (2 * (s / 2))).age + 16 * (slot (2 * (s / 2) + 1)).age) % 256 ∧
    bfld (lineTail old slot phase count) (120 + 2 * s) 2 = (slot s).m % 65536 ∧
    bfld (lineTail old slot phase count) (184 + s) 1 = (slot s).v % 256 := by
  have hbyte (n i : Nat) (f : Nat → Nat) (hi : i < n) :
      bfld ((List.range n).flatMap (fun i => leBytes 1 (f i))) i 1 = f i % 256 := by
    simpa using bfld_flatMap_leBytes (k := 1) f hi
  have hhalf (f : Nat → Nat) :
      bfld ((List.range 32).flatMap (fun i => leBytes 2 (f i))) (2 * s) 2 = f s % 65536 :=
    bfld_flatMap_leBytes f h
  unfold lineTail
  refine ⟨?_, ?_, ?_, ?_, ?_⟩
  all_goals
    repeat rw [bfld_append_left (by simp; omega)]
    rw [bfld_append_right (by simp)]
  · exact hbyte 32 s _ h
  · exact hhalf _
  · exact hbyte 16 (s / 2) (fun i => (slot (2 * i)).age + 16 * (slot (2 * i + 1)).age) (by omega)
  · exact hhalf _
  · exact hbyte 32 s _ h

variable {ss} in
theorem lineSlot_lineBuild {s : Nat} (hfit : SlotsFit ss) (h : s < 32) :
    lineSlot (lineBuild old ss stamp phase count) s = slotAt ss s := by
  have hslot (i : Nat) (hi : i < 32) : (slotAt ss i).idx < 256 ∧ (slotAt ss i).w < 65536 ∧ (slotAt ss i).age < 16 ∧
      (slotAt ss i).m < 65536 ∧ (slotAt ss i).v < 256 := by
    obtain ⟨hlen, hall⟩ := hfit
    have hi : i < ss.length := hlen ▸ hi
    have hget : slotAt ss i = ss[i] := by simp [slotAt, hi]
    exact hget ▸ hall _ (List.getElem_mem hi)
  have hread (off n : Nat) := bfld_lineBuild old ss stamp phase count off n
  obtain ⟨hidx, hw, hage, hm, hv⟩ := bfld_lineTail_slot old phase count (slotAt ss) h
  rw [← hread, ← Nat.add_assoc] at hidx hw hage hm hv
  obtain ⟨bidx, bw, -, bm, bv⟩ := hslot s h
  obtain ⟨-, -, blo, -, -⟩ := hslot (2 * (s / 2)) (by omega)
  obtain ⟨-, -, bhi, -, -⟩ := hslot (2 * (s / 2) + 1) (by omega)
  have hnibble : ((slotAt ss (2 * (s / 2))).age + 16 * (slotAt ss (2 * (s / 2) + 1)).age) % 256 / 16 ^ (s % 2) % 16 =
      (slotAt ss s).age := by
    rcases Nat.mod_two_eq_zero_or_one s with hs | hs
    · have heven : 2 * (s / 2) = s := by omega
      rw [hs, Nat.pow_zero]
      rw [heven] at blo bhi ⊢
      omega
    · have hodd : 2 * (s / 2) + 1 = s := by omega
      rw [hs, Nat.pow_one]
      rw [hodd] at bhi ⊢
      omega
  simp only [lineSlot, hidx, hw, hage, hm, hv, hnibble, Nat.mod_eq_of_lt bidx, Nat.mod_eq_of_lt bw, Nat.mod_eq_of_lt bm,
    Nat.mod_eq_of_lt bv]

end

/-- A slot read from a line has every field in its width. -/
theorem lineSlot_fits (l : List Byte) (s : Nat) :
    (lineSlot l s).idx < 256 ∧ (lineSlot l s).w < 65536 ∧ (lineSlot l s).age < 16 ∧ (lineSlot l s).m < 65536 ∧
      (lineSlot l s).v < 256 :=
  ⟨bfld_lt _ _ 1, bfld_lt _ _ 2, Nat.mod_lt _ (by decide), bfld_lt _ _ 2, bfld_lt _ _ 1⟩

/-! CARVE (R154 to R157). -/

theorem lineStat_vacSlot (l : List Byte) (kext s : Nat) : lineStat l kext s (vacSlot (lineG l) s).idx = 0 := by
  simp [lineStat, slotStatus, vacSlot]

theorem lineStat_cases (l : List Byte) (kext s idx : Nat) :
    lineStat l kext s idx = 0 ∨ lineStat l kext s idx = 1 ∨ lineStat l kext s idx = 2 ∨ lineStat l kext s idx = 3 := by
  unfold lineStat slotStatus
  split_ifs <;> simp

/-- Slot s of a line as it is read: released when malformed or out of range (R154). -/
def readSlot (l : List Byte) (kext s : Nat) : Slot :=
  let x := lineSlot l s
  if lineStat l kext s x.idx = 1 ∨ lineStat l kext s x.idx = 2 then vacSlot (lineG l) s else x

/-- Slot s of a line after CARVE has dropped the slots of `drop`. -/
def carveSlot (l : List Byte) (kext : Nat) (drop : List Nat) (s : Nat) : Slot :=
  let x := readSlot l kext s
  if drop.contains s then vacSlot (lineG l) s
  else if isLive l kext s x then { x with age := min 15 (x.age + 1) } else x

/-- What CARVE can leave in a slot: a released slot, a live one that has aged, or one that was vacant already. -/
theorem carveSlot_cases (l : List Byte) (kext : Nat) (drop : List Nat) (s : Nat) :
    carveSlot l kext drop s = vacSlot (lineG l) s ∨
    (lineStat l kext s (lineSlot l s).idx = 3 ∧
      carveSlot l kext drop s = { lineSlot l s with age := min 15 ((lineSlot l s).age + 1) }) ∨
    (lineStat l kext s (lineSlot l s).idx = 0 ∧ carveSlot l kext drop s = lineSlot l s) := by
  by_cases hdrop : s ∈ drop
  · simp [carveSlot, hdrop]
  rcases lineStat_cases l kext s (lineSlot l s).idx with h | h | h | h
  · simp [carveSlot, readSlot, isLive, hdrop, h]
  · simp [carveSlot, readSlot, isLive, hdrop, h, lineStat_vacSlot]
  · simp [carveSlot, readSlot, isLive, hdrop, h, lineStat_vacSlot]
  · simp [carveSlot, readSlot, isLive, hdrop, h]

theorem map_zipIdx_map_range {α β : Type} (n : Nat) (f : Nat → α) (g : α × Nat → β) :
    (((List.range n).map f).zipIdx).map g = (List.range n).map (fun s => g (f s, s)) :=
  List.ext_getElem (by simp) fun i _ _ => by simp

/-- A line that is not skipped is rebuilt from its slots as `carveSlot` leaves them, for the slots that CARVE chose to drop. -/
theorem carveLine_line {l : List Byte} (kext k amin stamp : Nat) (h : lineSkip false l = 0) :
    ∃ drop count, (carveLine kext k amin stamp false l).line =
      some (lineBuild l ((List.range 32).map (carveSlot l kext drop)) stamp 1 count) := by
  have hread : (releaseBad l kext).1 = (List.range 32).map (readSlot l kext) := map_zipIdx_map_range ..
  rw [carveLine, if_neg (not_not.2 h)]
  simp only [hread, map_zipIdx_map_range]
  exact ⟨_, _, rfl⟩

theorem carveSlot_fits (l : List Byte) (kext : Nat) (drop : List Nat) : SlotsFit ((List.range 32).map (carveSlot l kext drop)) := by
  refine ⟨by simp, fun x hx => ?_⟩
  obtain ⟨s, -, rfl⟩ := List.mem_map.1 hx
  obtain ⟨hidx, hw, hage, hm, hv⟩ := lineSlot_fits l s
  rcases carveSlot_cases l kext drop s with h | ⟨-, h⟩ | ⟨-, h⟩ <;> rw [h]
  · have hvac : vacIdx (lineG l) s < 256 := by unfold vacIdx; split <;> decide
    exact ⟨hvac, by simp [vacSlot]⟩
  · exact ⟨hidx, hw, by dsimp only; omega, hm, hv⟩
  · exact ⟨hidx, hw, hage, hm, hv⟩

/-- The line that CARVE writes, read slot by slot; an index has the status in it that it had before. -/
theorem carveLine_reads {l : List Byte} (kext k amin stamp : Nat) (h : lineSkip false l = 0) :
    ∃ l' drop, (carveLine kext k amin stamp false l).line = some l' ∧
      (∀ s < 32, lineSlot l' s = carveSlot l kext drop s) ∧
      ∀ s idx, lineStat l' kext s idx = lineStat l kext s idx := by
  obtain ⟨drop, count, hline⟩ := carveLine_line kext k amin stamp h
  refine ⟨_, drop, hline, fun s hs => ?_, fun s idx => lineStat_lineBuild ..⟩
  rw [lineSlot_lineBuild l stamp 1 count (carveSlot_fits l kext drop) hs]
  simp [slotAt, hs]

/-- Settles O53, from the slots of the line that CARVE writes: a released slot is vacant with age 0, and a slot live in the new line
is one that was live before and was not dropped. -/
theorem carveAgesItsSlots : Obligations.CarveAgesItsSlots := by
  unfold Obligations.CarveAgesItsSlots carveAges
  intro kext k amin stamp s l _ hskip hs
  obtain ⟨l', drop, hline, hslot, hstat⟩ := carveLine_reads kext k amin stamp hskip
  refine ⟨l', hline, ?_⟩
  rw [hslot s hs, hstat]
  rcases carveSlot_cases l kext drop s with h | ⟨hlive, h⟩ | ⟨hvacant, h⟩ <;> rw [h]
  · have hvac := lineStat_vacSlot l kext s
    exact ⟨fun hlive => absurd (hvac.symm.trans hlive) (by decide), fun _ _ => rfl⟩
  · exact ⟨fun _ => rfl, fun _ hdead => absurd hlive hdead⟩
  · exact ⟨fun hlive => absurd (hvacant.symm.trans hlive) (by decide), fun hocc => absurd hvacant hocc⟩

end Sys2Proof.Machine
end

section
/-! PROOFS. Reductions (R195 to R198): a NaN passes up red_tree to its root, and FLAGS keep every flag that is ORed into them. -/
namespace Sys2Proof.Machine
open Sys2Proof Sys2Proof.Claims

/-! Flags and values. -/

theorem hasFlag_or_left {a f : Nat} (h : HasFlag a f) (b : Nat) : HasFlag (a ||| b) f := by
  unfold HasFlag at *
  refine Nat.eq_of_testBit_eq fun i => ?_
  have hi : (a.testBit i && f.testBit i) = f.testBit i := by rw [← Nat.testBit_and, h]
  rw [Nat.testBit_and, Nat.testBit_or, Bool.and_or_distrib_right, hi]
  simp

theorem hasFlag_or_right {b f : Nat} (h : HasFlag b f) (a : Nat) : HasFlag (a ||| b) f :=
  Nat.or_comm b a ▸ hasFlag_or_left h a

theorem hasFlag_self (f : Nat) : HasFlag f f := Nat.and_self f

@[simp] theorem fp32_dec_nan : fp32.dec fp32.nan = .nan := by decide

/-- An operation answers NaN where either operand is NaN. -/
def KeepsNan (op : Xv → Xv → Xv) : Prop := (∀ b, op .nan b = .nan) ∧ ∀ a, op a .nan = .nan

theorem minMax_keepsNan (mx : Bool) : KeepsNan (minMax mx) :=
  ⟨fun _ => by simp [minMax, Xv.isNan], fun _ => by simp [minMax, Xv.isNan]⟩

/-- Every operation that red_tree combines with passes a NaN on (R193, R197). -/
theorem redOp_keepsNan (op : Nat) : KeepsNan (redOp op) := by
  match op with
  | 0 | 1 => exact ⟨fun _ => rfl, fun a => by cases a <;> rfl⟩
  | 2 => exact minMax_keepsNan true
  | _ + 3 => exact minMax_keepsNan false

/-! The tree. -/

theorem le_two_pow_ceilLog2 (n : Nat) : n ≤ 2 ^ ceilLog2 n := by
  unfold ceilLog2
  split
  case isTrue h => simpa using h
  case isFalse => have := Nat.lt_log2_self (n := n - 1); omega

/-- A NaN at any leaf reaches the root: its node's parent has it as one of the two operands, and so rounds to NaN. -/
theorem redTree_of_nan_mem {op : Xv → Xv → Xv} (hop : KeepsNan op) {d : Nat} {xs : List Nat} (hlen : xs.length = 2 ^ d)
    (hnan : fp32.nan ∈ xs) : (redTree op d xs).1 = fp32.nan := by
  induction d generalizing xs with
  | zero =>
    obtain ⟨x, rfl⟩ := List.length_eq_one_iff.1 hlen
    exact (List.mem_singleton.1 hnan).symm
  | succ d ih =>
    rw [Nat.pow_succ] at hlen
    obtain ⟨i, hi, hxi⟩ := List.getElem_of_mem hnan
    refine ih (by simp [hlen]) (List.mem_map.2 ⟨(fp32.nan, fNV), List.mem_map.2 ⟨i / 2, ?_, ?_⟩, rfl⟩)
    · exact List.mem_range.2 (by omega)
    have hget : xs.getD i 0 = fp32.nan := by simp [hi, hxi]
    rcases Nat.mod_two_eq_zero_or_one i with h | h
    · rw [show 2 * (i / 2) = i by omega, hget, fp32_dec_nan, hop.1]; rfl
    · rw [show 2 * (i / 2) + 1 = i by omega, hget, fp32_dec_nan, hop.2]; rfl

theorem redList_of_nan_mem (op : Nat) {xs : List Nat} (h : fp32.nan ∈ xs) : (redList op xs).1 = fp32.nan := by
  refine redTree_of_nan_mem (redOp_keepsNan op) ?_ (List.mem_append_left _ h)
  rw [List.length_append, List.length_replicate, Nat.add_sub_of_le (le_two_pow_ceilLog2 _)]

/-! One reduction. -/

section
variable {op : Nat} {xs : List (Nat × (VEl × (Bool × Bool)))}

theorem reduce_of_unmasked_nil (h : Unmasked xs = []) :
    (reduce op xs).1 = redIdent op ∧ HasFlag (reduce op xs).2.2 fEMPTY := by
  rw [reduce, if_pos h]
  exact ⟨rfl, hasFlag_or_left (hasFlag_self fEMPTY) _⟩

/-- The words that enter red_tree: unmasked elements in FP32, the identity for masked ones (R196). -/
def redInputs (op : Nat) (xs : List (Nat × (VEl × (Bool × Bool)))) : List Nat :=
  xs.map (fun q => if q.2.2.1 then (fp32.rne q.2.1.v).1 else redIdent op)

theorem nan_mem_redInputs {q : Nat × (VEl × (Bool × Bool))} (hq : q ∈ Unmasked xs) (hv : q.2.1.v = .nan) :
    fp32.nan ∈ redInputs op xs := by
  obtain ⟨hmem, hun⟩ := List.mem_filter.1 hq
  exact List.mem_map.2 ⟨q, hmem, by rw [if_pos hun, hv]; rfl⟩

/-- SUM, PROD, MAX and MIN of a row with an unmasked element are its red_tree; a NaN of it sets NV. -/
theorem reduce_of_tree (hop : op ≤ 3) (h : Unmasked xs ≠ []) :
    (reduce op xs).1 = (redList op (redInputs op xs)).1 ∧
      ((fp32.dec (reduce op xs).1).isNan = true → HasFlag (reduce op xs).2.2 fNV) := by
  rw [reduce, if_neg h, if_neg (by omega)]
  refine ⟨rfl, fun hnan => ?_⟩
  dsimp only at hnan ⊢
  rw [if_pos hnan]
  exact hasFlag_or_left (hasFlag_or_right (hasFlag_self fNV) _) _

theorem argBest_of_find {mx : Bool} {vs : List (Nat × Xv)} {p : Nat × Xv} (h : vs.find? (fun p => p.2.isNan) = some p) :
    argBest mx vs = (p.1, fNV) := by simp only [argBest, h]

/-- ARGMAX and ARGMIN of a row whose first unmasked NaN is q answer q's index and NV. -/
theorem reduce_of_arg {q : Nat × (VEl × (Bool × Bool))} (hop : 4 ≤ op)
    (h : (Unmasked xs).find? (fun q => q.2.1.v.isNan) = some q) :
    (reduce op xs).1 = q.1 ∧ HasFlag (reduce op xs).2.2 fNV := by
  have hne : Unmasked xs ≠ [] := fun hnil => by simp [hnil] at h
  have hfind : ((Unmasked xs).map (fun q => (q.1, q.2.1.v))).find? (fun p => p.2.isNan) = some (q.1, q.2.1.v) := by
    rw [List.find?_map]
    exact congrArg (Option.map _) h
  rw [reduce, if_neg hne, if_pos hop, argBest_of_find hfind]
  exact ⟨rfl, hasFlag_or_left (hasFlag_self fNV) _⟩

end

theorem redIdent_values (op : Nat) :
    redIdent op = match op with | 0 => 0 | 1 => 0x3F800000 | 2 => 0xFF800000 | 3 => 0x7F800000 | _ => 0xFFFFFFFF := by
  match op with
  | 0 | 1 | 2 | 3 | _ + 4 => rfl

/-- Settles O51: a row without an unmasked element by its own branch, a NaN by its way up red_tree, and an index by the search for the
first NaN. -/
theorem reductionIdentitiesAndNaNs : Obligations.ReductionIdentitiesAndNaNs := by
  unfold Obligations.ReductionIdentitiesAndNaNs reductionsOfRows
  refine ⟨fun op xs _ hnil => ?_, fun op xs hop ⟨q, hq, hv⟩ => ?_, fun op i e xs hop hfind => ?_⟩
  · obtain ⟨hval, hflag⟩ := reduce_of_unmasked_nil (op := op) hnil
    exact ⟨hval.trans (redIdent_values op), hflag⟩
  · obtain ⟨hval, hflag⟩ := reduce_of_tree hop (List.ne_nil_of_mem hq)
    have hnan : (reduce op xs).1 = fp32.nan := hval.trans (redList_of_nan_mem op (nan_mem_redInputs hq hv))
    exact ⟨hnan, hflag (by rw [hnan, fp32_dec_nan]; rfl)⟩
  · obtain ⟨q, hq, hqi⟩ := Option.map_eq_some_iff.1 hfind
    obtain ⟨rfl, -⟩ := Prod.mk.inj hqi
    exact reduce_of_arg (by omega) hq

end Sys2Proof.Machine
end

section
/-! PROOFS. A block reset under a reset of the module (R553 to R555): what a W reset runs after its own write of the reset fields leaves
them alone, and a block that is not resetting ends no waiting. -/
namespace Sys2Proof.Machine
open Sys2Proof Sys2Proof.Claims

/-! Operations that keep the reset fields. -/

theorem foldl_rst {α : Type} {f : State → α → State} (hf : ∀ s x, (f s x).rst = s.rst) (l : List α) (s : State) :
    (l.foldl f s).rst = s.rst := by
  induction l generalizing s with
  | nil => rfl
  | cons x l ih => exact (ih (f s x)).trans (hf s x)

theorem rst_ite {p : Prop} [Decidable p] {s t : State} {r : Rst} (hs : s.rst = r) (ht : t.rst = r) :
    (if p then s else t).rst = r := by
  split <;> assumption

@[simp] theorem State.hbmWrite_rst (s : State) (a : Nat) (b : List Byte) (pois : Bool) : (s.hbmWrite a b pois).rst = s.rst := rfl

@[simp] theorem State.dropHbm_rst (s : State) (a n : Nat) : (s.dropHbm a n).rst = s.rst := rfl

@[simp] theorem State.sectorErr_rst (s : State) (src : Nat) (e : SectorErr) : (s.sectorErr src e).rst = s.rst := by
  unfold State.sectorErr
  dsimp only
  split
  · rw [State.log_rst, State.modPlinth_rst]
  · rfl

@[simp] theorem State.meet_rst (s : State) (src : Nat) (p : SectorErr → Bool) : (s.meet src p).rst = s.rst :=
  foldl_rst (fun s e => s.sectorErr_rst src e) _ _

@[simp] theorem State.touchLine_rst (s : State) (part : Nat) (write atomic : Bool) (line lo hi : Nat) :
    (s.touchLine part write atomic line lo hi).rst = s.rst := by
  unfold State.touchLine
  exact rst_ite rfl ((State.modPlinth_rst ..).trans (State.meet_rst ..))

@[simp] theorem State.touchPhys_rst (s : State) (a n : Nat) (write : Bool) : (s.touchPhys a n write).rst = s.rst := by
  unfold State.touchPhys State.touchWith
  split
  · rfl
  · exact foldl_rst (fun s i => s.touchLine_rst ..) _ _

@[simp] theorem State.setValid_rst (s : State) (k v : Nat) : (s.setValid k v).rst = s.rst := by
  unfold State.setValid
  dsimp only
  split
  · rfl
  · rw [State.hbmWrite_rst, State.touchPhys_rst]

@[simp] theorem State.imgTable_rst (s : State) (k l : Nat) : (s.imgTable k l).rst = s.rst := by
  unfold State.imgTable
  split
  · rfl
  · refine foldl_rst (fun s e => ?_) _ _
    dsimp only
    rw [State.hbmWrite_rst, State.touchPhys_rst, State.hbmWrite_rst, State.touchPhys_rst]

@[simp] theorem State.closeSession_rst (s : State) (id cause : Nat) : (s.closeSession id cause).rst = s.rst := by
  unfold State.closeSession
  split
  · rfl
  · exact rst_ite (State.log_rst ..) rfl

@[simp] theorem State.closeAll_rst (s : State) (ports : List Nat) : (s.closeAll ports).rst = s.rst :=
  foldl_rst (fun s id => s.closeSession_rst id 3) _ _

/-! A W reset. -/

@[simp] theorem State.warmCell_rst (s : State) (k : Nat) : (s.warmCell k).rst = s.rst := by
  have hctx : (if (s.cell k).ctx = 2 then (s.setValid k 3).log 0x5303 [.cell k, .val 1 3] else s).rst = s.rst :=
    rst_ite ((State.log_rst ..).trans (s.setValid_rst k 3)) rfl
  unfold State.warmCell
  dsimp only
  split
  · rw [State.setCell_rst, hctx]
  · rw [foldl_rst (fun s l => s.imgTable_rst k l), State.setCell_rst, hctx]

@[simp] theorem State.warmArm_rst (s : State) : s.warmArm.rst = s.rst := by
  unfold State.warmArm
  exact rst_ite ((State.dropHbm_rst ..).trans (State.log_rst ..)) rfl

/-- Of the reset fields a W reset writes its cause, the stage it starts in and the class, and ends every block reset. -/
theorem State.startWarm_rst (s : State) (cause : Nat) :
    (s.startWarm cause).rst = { s.rst with
      cause := s.rst.cause ||| BitVec.ofNat 12 (2 ^ cause), stage := 3, cls := .w, active := false, quiet := [], retried := false } := by
  have hcell : ∀ (s : State) (k : Nat), (if decide (s.cell k ≠ ({} : Cell)) then s.warmCell k else s).rst = s.rst :=
    fun s k => rst_ite (s.warmCell_rst k) rfl
  unfold State.startWarm
  dsimp only
  rw [State.closeAll_rst, State.warmArm_rst, foldl_rst fun s i => s.modPort_rst i _, foldl_rst fun s p => s.modPlinth_rst p _,
    foldl_rst hcell]

/-! The two commands of a block reset. -/

/-- The end of the waiting of a block that is not resetting does nothing. -/
theorem execBlockQuiesceEnd_of_not_mem {s : State} {block : BitVec 8} (h : block.toNat ∉ s.rst.quiet) (idle : Bool) (n : Nat) :
    execBlockQuiesceEnd block idle n s = .next s := if_pos h

/-- A second request for a block that is resetting is ignored. -/
theorem execBlockResetRequest_of_mem {s : State} {block : BitVec 8} (h : block.toNat ∈ s.rst.quiet) :
    execBlockResetRequest block s = .next s := if_pos (.inr (.inr h))

/-- No block is resetting: every block reset has ended, and the end of a waiting does nothing. -/
theorem superseded_of_quiet_nil {s : State} (hquiet : s.rst.quiet = []) (hactive : s.rst.active = false) (block : BitVec 8) :
    s.rst.quiet = [] ∧ s.rst.active = false ∧ ∀ idle n, exec (.blockQuiesceEnd block idle n) s = .next s :=
  ⟨hquiet, hactive, execBlockQuiesceEnd_of_not_mem (by simp [hquiet])⟩

/-- Settles O60: each of the three resets leaves no block resetting, a W reset because nothing it runs touches the reset fields after it
has cleared them. -/
theorem resetSupersedesBlockReset : Obligations.ResetSupersedesBlockReset := by
  unfold Obligations.ResetSupersedesBlockReset resetsSupersede
  intro s block hmem
  refine ⟨fun cause => ⟨?warm, ?module⟩, ?power, execBlockResetRequest_of_mem hmem⟩
  case warm =>
    have hrst := s.startWarm_rst cause
    exact superseded_of_quiet_nil (by rw [hrst]) (by rw [hrst]) block
  case module => exact superseded_of_quiet_nil rfl rfl block
  case power => exact superseded_of_quiet_nil rfl rfl block

end Sys2Proof.Machine
end

section
/-! PROOFS. The event log: the layout of a record (R577), and which records the suppression windows let through (R579). -/
namespace Sys2Proof.Machine
open Sys2Proof Sys2Proof.Claims

/-! The layout of a record. -/

/-- A number that fits reads back where it is put. -/
theorem bfld_append_leBytes {a : List Byte} {off n v : Nat} (ha : a.length = off) (hv : v < 256 ^ n) :
    bfld (a ++ leBytes n v) off n = v := by
  have hright := bfld_append_right (b := leBytes n v) (off := 0) (n := n) ha
  rw [Nat.add_zero, bfld_leBytes, Nat.mod_eq_of_lt hv] at hright
  exact hright

/-- Bytes copied out from where they are put are those bytes. -/
theorem bsub_append_append {a b : List Byte} {off n : Nat} (c : List Byte) (ha : a.length = off) (hb : b.length = n) :
    bsub (a ++ b ++ c) off n = b := by
  subst ha hb
  refine List.ext_getElem (by simp) fun i _ hi => ?_
  simp [bsub, List.getD_eq_getElem?_getD, List.getElem?_append_right, List.getElem?_append_left hi,
    List.getElem?_eq_getElem hi]

/-- Settles O55: each field is the last of the bytes up to its end, so it reads back from the bytes before it on. -/
theorem eventRecordLayout : Obligations.EventRecordLayout := by
  unfold Obligations.EventRecordLayout recordLayout
  intro r hdata hsev hkind hinst hloc
  unfold EvRec.bytes
  refine ⟨by simp [hdata], ?time, ?code, ?sev, ?kind, ?inst, ?loc, ?data, ?index⟩
  case data => exact bsub_append_append _ (by simp) hdata
  case time =>
    iterate 7 rw [bfld_append_left (by simp [hdata])]
    rw [bfld_leBytes]
    exact Nat.mod_eq_of_lt r.time.isLt
  case code =>
    iterate 6 rw [bfld_append_left (by simp [hdata])]
    exact bfld_append_leBytes (by simp) r.code.isLt
  case sev =>
    iterate 5 rw [bfld_append_left (by simp [hdata])]
    exact bfld_append_leBytes (by simp) hsev
  case kind =>
    iterate 4 rw [bfld_append_left (by simp [hdata])]
    exact bfld_append_leBytes (by simp) hkind
  case inst =>
    iterate 3 rw [bfld_append_left (by simp [hdata])]
    exact bfld_append_leBytes (by simp) hinst
  case loc =>
    iterate 2 rw [bfld_append_left (by simp [hdata])]
    exact bfld_append_leBytes (by simp) hloc
  case index => exact bfld_append_leBytes (by simp [hdata]) r.index.isLt

/-! One record stored. -/

section
variable (s : State) {code : Nat} (kind inst loc : Nat) (data : List Byte)

theorem State.notify_evt (r : EvRec) : (s.notify r).evt = s.evt := by
  obtain ⟨_, _, h⟩ := s.notify_eq r
  rw [h]

theorem State.logRecord_stored (hcode : code < 2 ^ 16) : Stored s (s.logRecord code kind inst loc data) code kind inst := by
  unfold State.logRecord
  simp only [State.notify_evt, List.take_succ_cons]
  exact ⟨_, _, rfl, rfl, rfl, rfl, Nat.mod_eq_of_lt hcode, rfl, rfl, rfl, rfl, rfl⟩

theorem State.logRecord_wins : (s.logRecord code kind inst loc data).evt.wins = s.evt.wins := by
  unfold State.logRecord
  simp only [State.notify_evt]
  rfl

end

/-! The windows. -/

/-- A window is that of a code and a source. -/
def isWindow (code kind inst : Nat) (w : SupWin) : Bool := w.code.toNat == code && w.kind == kind && w.inst == inst

/-- The window of a code and a source with one record more, suppressed or not; any other window as it is. -/
def countIn (code kind inst : Nat) (supp : Bool) (w : SupWin) : SupWin :=
  if w.code.toNat = code ∧ w.kind = kind ∧ w.inst = inst then { w with count := w.count + 1, supp := w.supp + b2n supp } else w

section
variable {s : State} {ws : List SupWin} {code kind inst : Nat} {w : SupWin}

theorem isWindow_iff : isWindow code kind inst w = true ↔ w.code.toNat = code ∧ w.kind = kind ∧ w.inst = inst := by
  simp [isWindow, and_assoc]

theorem windowOf_eq : windowOf s code kind inst = s.evt.wins.find? (isWindow code kind inst) := rfl

theorem isWindow_countIn (supp : Bool) : isWindow code kind inst (countIn code kind inst supp w) = isWindow code kind inst w := by
  unfold countIn
  split <;> rfl

theorem countIn_of_isWindow (h : isWindow code kind inst w = true) (supp : Bool) :
    countIn code kind inst supp w = { w with count := w.count + 1, supp := w.supp + b2n supp } :=
  if_pos (isWindow_iff.1 h)

theorem supSeen_of_none (h : windowOf s code kind inst = none) : supSeen s.evt.wins code kind inst = 0 := by
  rw [windowOf] at h
  rw [supSeen, h]

theorem supSeen_of_some (h : windowOf s code kind inst = some w) : supSeen s.evt.wins code kind inst = w.count := by
  rw [windowOf] at h
  rw [supSeen, h]

/-- A record without a window opens one. -/
theorem find_supCount_of_none (hcode : code < 2 ^ 16) (h : ws.find? (isWindow code kind inst) = none) (supp : Bool) :
    (supCount ws code kind inst supp).find? (isWindow code kind inst) = some ⟨BitVec.ofNat 16 code, kind, inst, 1, 0⟩ := by
  have hany : ¬ ws.any (isWindow code kind inst) = true := by simpa using h
  have hnew : isWindow code kind inst ⟨BitVec.ofNat 16 code, kind, inst, 1, 0⟩ = true :=
    isWindow_iff.2 ⟨Nat.mod_eq_of_lt hcode, rfl, rfl⟩
  exact (congrArg _ (if_neg hany)).trans (List.find?_cons_of_pos hnew)

/-- A record of a window is counted in it. -/
theorem find_supCount_of_some (h : ws.find? (isWindow code kind inst) = some w) (supp : Bool) :
    (supCount ws code kind inst supp).find? (isWindow code kind inst) =
      some { w with count := w.count + 1, supp := w.supp + b2n supp } := by
  have hw := List.find?_some h
  have hany : ws.any (isWindow code kind inst) = true := List.any_eq_true.2 ⟨w, List.mem_of_find?_eq_some h, hw⟩
  have hsame : isWindow code kind inst ∘ countIn code kind inst supp = isWindow code kind inst :=
    funext fun _ => isWindow_countIn supp
  calc (supCount ws code kind inst supp).find? (isWindow code kind inst)
      = (ws.map (countIn code kind inst supp)).find? (isWindow code kind inst) := congrArg _ (if_pos hany)
    _ = some (countIn code kind inst supp w) := by rw [List.find?_map, hsame, h]; rfl
    _ = _ := congrArg some (countIn_of_isWindow hw supp)

end

/-! An event: logged or suppressed. -/

section
variable {s : State} {code : Nat} {fs : List EvF} {w : SupWin}

/-- Severities 3 and 4 are logged and counted in no window. -/
theorem State.log_of_severe (hcode : code < 2 ^ 16) (hsev : 3 ≤ sevOf code) :
    Stored s (s.log code fs) code (evSource code fs).1 (evSource code fs).2.1 ∧ (s.log code fs).evt.wins = s.evt.wins := by
  have hlog : s.log code fs = State.logRecord { s with mgmt := s.mgmt.count code } code (evSource code fs).1 (evSource code fs).2.1
      (evLocation (evSource code fs).2.2.1 (evSource code fs).2.2.2).1
      (evPack (evLocation (evSource code fs).2.2.1 (evSource code fs).2.2.2).2 []) := if_pos hsev
  rw [hlog]
  exact ⟨State.logRecord_stored _ _ _ _ _ hcode, State.logRecord_wins ..⟩

/-- Up to 64 records of a window are logged. -/
theorem State.log_of_seen_lt (hcode : code < 2 ^ 16) (hsev : sevOf code < 3)
    (hseen : supSeen s.evt.wins code (evSource code fs).1 (evSource code fs).2.1 < 64) :
    Stored s (s.log code fs) code (evSource code fs).1 (evSource code fs).2.1 ∧
      (s.log code fs).evt.wins = supCount s.evt.wins code (evSource code fs).1 (evSource code fs).2.1 false := by
  have hovf := decide_eq_false (Nat.not_le.2 hseen)
  simp only [State.log, Nat.not_le.2 hsev, hovf, if_false, Bool.false_eq_true]
  exact ⟨State.logRecord_stored _ _ _ _ _ hcode, State.logRecord_wins ..⟩

/-- Later records of a window are suppressed. -/
theorem State.log_of_le_seen (hsev : sevOf code < 3)
    (hseen : 64 ≤ supSeen s.evt.wins code (evSource code fs).1 (evSource code fs).2.1) :
    Suppressed s (s.log code fs) ∧
      (s.log code fs).evt.wins = supCount s.evt.wins code (evSource code fs).1 (evSource code fs).2.1 true := by
  have hovf := decide_eq_true hseen
  have hlog : s.log code fs = { s with
      mgmt := s.mgmt.count code
      evt := { s.evt with
        wins := supCount s.evt.wins code (evSource code fs).1 (evSource code fs).2.1 true, suppr := satAdd s.evt.suppr 1 } } := by
    simp only [State.log, Nat.not_le.2 hsev, hovf, if_false, if_true]
  rw [hlog]
  exact ⟨⟨rfl, rfl, rfl, rfl, rfl, rfl⟩, rfl⟩

/-- The close of a window takes it away, and tells of the records that it suppressed. -/
theorem execSuppressionWindowClose_of_some {kind inst : Nat} (hcode : code < 2 ^ 16) (h : windowOf s code kind inst = some w) :
    ∃ t : State, t = { s with evt := { s.evt with wins := t.evt.wins } } ∧ windowOf t code kind inst = none ∧
      execSuppressionWindowClose (BitVec.ofNat 16 code) kind inst s =
        .next (if w.supp = 0 then t else t.log 0x7003 [.val 2 code, .val 1 kind, .val 2 inst, .val 4 w.supp]) := by
  have hnat : (BitVec.ofNat 16 code).toNat = code := Nat.mod_eq_of_lt hcode
  have hhit (w : SupWin) : (w.code == BitVec.ofNat 16 code && w.kind == kind && w.inst == inst) = isWindow code kind inst w :=
    Bool.eq_iff_iff.2 (by simp [isWindow, ← BitVec.toNat_inj, hnat])
  refine ⟨{ s with evt := { s.evt with wins := s.evt.wins.filter (fun w => !isWindow code kind inst w) } }, rfl, ?_, ?_⟩
  · rw [windowOf_eq]
    simp
  · rw [windowOf_eq] at h
    simp only [execSuppressionWindowClose, hhit, h, hnat]

end

/-- Settles O54, from what one event does: its severity and the records that its window has seen say whether it is logged. -/
theorem eventsAreSuppressed : Obligations.EventsAreSuppressed := by
  unfold Obligations.EventsAreSuppressed eventsSuppressed
  intro s code fs hcode kind inst
  refine ⟨State.log_of_severe hcode, fun hsev hnone => ?first, fun w hsev hw => ⟨fun hlt => ?logged, fun hge => ?suppressed⟩,
    fun w => execSuppressionWindowClose_of_some hcode⟩
  case first =>
    obtain ⟨hstored, hwins⟩ := State.log_of_seen_lt (fs := fs) hcode hsev ((supSeen_of_none hnone).trans_lt (by decide))
    exact ⟨hstored, _, (congrArg _ hwins).trans (find_supCount_of_none hcode hnone false), rfl, rfl⟩
  case logged =>
    obtain ⟨hstored, hwins⟩ := State.log_of_seen_lt (fs := fs) hcode hsev ((supSeen_of_some hw).trans_lt hlt)
    exact ⟨hstored, _, (congrArg _ hwins).trans (find_supCount_of_some hw false), rfl, rfl⟩
  case suppressed =>
    obtain ⟨hsupp, hwins⟩ := State.log_of_le_seen (fs := fs) hsev (hge.trans_eq (supSeen_of_some hw).symm)
    exact ⟨hsupp, _, (congrArg _ hwins).trans (find_supCount_of_some hw true), rfl, rfl⟩

end Sys2Proof.Machine
end

section
/-! PROOFS. One step: it takes the command at the front of the queue, it answers a next state whatever the state, and it keeps what
`Kept` names (R581; log entry 1). -/
namespace Sys2Proof.Machine
open Sys2Proof Sys2Proof.Claims

/-! What a step is. -/

theorem step_of_nil {s : State} (h : s.pending = []) : step s = .next s.linkTick := by
  unfold step; rw [h]

theorem step_of_cons {s : State} {c : Instr} {l : List Instr} (h : s.pending = c :: l) :
    step s = exec c { s with pending := l } := by
  unfold step; rw [h]

/-- Settles O1: the definition of a step. -/
theorem stepRunsFront : Obligations.StepRunsFront := fun _ _ => step_of_cons rfl

/-! What a step keeps. -/

/-- A step keeps what the state with the front of the queue taken has. -/
theorem step_kept {s t : State} (h : step s = .next t) : Kept { s with pending := s.pending.tail } t := by
  cases hq : s.pending with
  | nil =>
    rw [step_of_nil hq] at h
    injection h with h
    subst h
    have htick := State.linkTick_kept s (Kept.refl s)
    rw [List.tail_nil, ← hq]
    exact htick
  | cons c l =>
    rw [step_of_cons hq] at h
    exact exec_kept c _ t h

/-- Settles O4: the memories, the clock's flags and the log are among what every command keeps. -/
theorem stepKeepsInv : Obligations.StepKeepsInv := by
  intro s t ⟨hmem, hpois, hclock, hlog⟩ hstep
  obtain ⟨_, hmem', hpois', _, hclock', hlog'⟩ := step_kept hstep
  exact ⟨hmem' hmem, hpois' hpois, hclock' hclock, hlog' hlog⟩

/-- Settles O5: the fuse counter's value is a lower bound that every command keeps. -/
theorem fuseCounterNeverFalls : Obligations.FuseCounterNeverFalls := by
  intro s t hstep
  obtain ⟨_, _, _, hfuse, _⟩ := step_kept hstep
  exact hfuse

/-- Settles O6: after reset both maps of the HBM and the log are empty, and the clock is not locked. -/
theorem resetInv : Obligations.ResetInv := ⟨rfl, rfl, nofun, Nat.zero_le _⟩

/-! A codeword time on the links. -/

theorem State.sendIdle_eq (s : State) (i : Nat) : ∃ p o, s.sendIdle i = { s with ports := p, out := o } := by
  fun_cases State.sendIdle <;> exact ⟨_, _, rfl⟩

theorem State.sendIdle_of_silent {s : State} {i : Nat} (h : (s.port i).carries = false) : s.sendIdle i = s := by
  unfold State.sendIdle
  simp [h]

/-- Idle codewords on any ports change the ports and what leaves them. -/
theorem State.foldl_sendIdle_eq (l : List Nat) (s : State) : ∃ p o, l.foldl State.sendIdle s = { s with ports := p, out := o } := by
  induction l generalizing s with
  | nil => exact ⟨_, _, rfl⟩
  | cons i l ih =>
    obtain ⟨p, o, h⟩ := s.sendIdle_eq i
    obtain ⟨p', o', h'⟩ := ih (s.sendIdle i)
    exact ⟨p', o', by rw [List.foldl_cons, h', h]⟩

theorem State.foldl_sendIdle_of_silent {l : List Nat} {s : State} (h : ∀ i ∈ l, (s.port i).carries = false) :
    l.foldl State.sendIdle s = s := by
  induction l with
  | nil => rfl
  | cons i l ih =>
    rw [List.foldl_cons, State.sendIdle_of_silent (h i (by simp))]
    exact ih fun j hj => h j (List.mem_cons_of_mem i hj)

/-- Settles O2: on an empty queue a step is a codeword time, which leaves a silent port alone. -/
theorem emptyQueueIdles : Obligations.EmptyQueueIdles := by
  intro s hq
  obtain ⟨p, o, h⟩ := State.foldl_sendIdle_eq (List.range 8) s
  have htick : s.linkTick = { s with ports := p, out := o } := h
  exact ⟨s.linkTick, step_of_nil hq, by rw [htick], rfl,
    fun hsilent => State.foldl_sendIdle_of_silent fun i hi => hsilent i (List.mem_range.1 hi)⟩

/-! No meaning stops the module: each branch of each answers a next state. A meaning without branches does so by its definition; the
others follow, in the order of the table. -/

/-- A meaning's answer is a next state. -/
def Answers (r : Res) : Prop := ∃ t, r = .next t

theorem execArmPersistDone_answers (s : State) : Answers (execArmPersistDone s) := by
  fun_cases execArmPersistDone <;> exact ⟨_, rfl⟩

theorem execTickDecision_answers (cell : Fin 16) (late : Option (Fin 48)) (s : State) : Answers (execTickDecision cell late s) := by
  fun_cases execTickDecision <;> exact ⟨_, rfl⟩

theorem execSchedStall_answers (cell : Fin 16) (s : State) : Answers (execSchedStall cell s) := by
  fun_cases execSchedStall <;> exact ⟨_, rfl⟩

theorem execInstrComplete_answers (core : Fin 48) (stream : Fin 6) (s : State) : Answers (execInstrComplete core stream s) := by
  fun_cases execInstrComplete <;> exact ⟨_, rfl⟩

theorem execArrayStreamStart_answers (core : Fin 48) (arr : Fin 4) (s : State) : Answers (execArrayStreamStart core arr s) := by
  fun_cases execArrayStreamStart <;> exact ⟨_, rfl⟩

theorem execCalRetryStart_answers (core : Fin 48) (arr : Fin 4) (errs : List TreeErr) (s : State) :
    Answers (execCalRetryStart core arr errs s) := by
  fun_cases execCalRetryStart <;> exact ⟨_, rfl⟩

theorem execCalRetryDone_answers (core : Fin 48) (arr : Fin 4) (errs : List TreeErr) (s : State) :
    Answers (execCalRetryDone core arr errs s) := by
  fun_cases execCalRetryDone <;> exact ⟨_, rfl⟩

theorem execPoint_answers (core : Fin 48) (w : BitVec 128) (s : State) : Answers (execPoint core w s) := by
  fun_cases execPoint <;> exact ⟨_, rfl⟩

theorem execPointReexecDone_answers (core : Fin 48) (flips : List (Nat × BitVec 32)) (s : State) :
    Answers (execPointReexecDone core flips s) := by
  fun_cases execPointReexecDone <;> exact ⟨_, rfl⟩

theorem execPointThirdExecDone_answers (core : Fin 48) (flips : List (Nat × BitVec 32)) (s : State) :
    Answers (execPointThirdExecDone core flips s) := by
  fun_cases execPointThirdExecDone <;> exact ⟨_, rfl⟩

theorem execHeightenedReexec_answers (cell : Fin 16) (s : State) : Answers (execHeightenedReexec cell s) := by
  fun_cases execHeightenedReexec <;> exact ⟨_, rfl⟩

theorem execDroopTrip_answers (core : Fin 48) (mhz : BitVec 12) (s : State) : Answers (execDroopTrip core mhz s) := by
  fun_cases execDroopTrip <;> exact ⟨_, rfl⟩

theorem execPlinthWriteAck_answers (core : Fin 48) (stream : Fin 6) (s : State) : Answers (execPlinthWriteAck core stream s) := by
  fun_cases execPlinthWriteAck <;> exact ⟨_, rfl⟩

theorem execHomeLineWrite_answers (core : Fin 48) (stream : Fin 6) (s : State) : Answers (execHomeLineWrite core stream s) := by
  fun_cases execHomeLineWrite <;> exact ⟨_, rfl⟩

theorem execDmaComplete_answers (core : Fin 48) (ord : Nat) (s : State) : Answers (execDmaComplete core ord s) := by
  fun_cases execDmaComplete <;> exact ⟨_, rfl⟩

theorem execSealOp_answers (core : Fin 48) (w : BitVec 128) (errs : List SectorErr) (s : State) : Answers (execSealOp core w errs s) := by
  fun_cases execSealOp <;> exact ⟨_, rfl⟩

theorem execSignal_answers (core : Fin 48) (w : BitVec 128) (s : State) : Answers (execSignal core w s) := by
  fun_cases execSignal <;> exact ⟨_, rfl⟩

theorem execRdv_answers (core : Fin 48) (w : BitVec 128) (s : State) : Answers (execRdv core w s) := by
  fun_cases execRdv <;> exact ⟨_, rfl⟩

theorem execTickmark_answers (core : Fin 48) (w : BitVec 128) (s : State) : Answers (execTickmark core w s) := by
  fun_cases execTickmark <;> exact ⟨_, rfl⟩

theorem execStepEndArriveReady_answers (s : State) : Answers (execStepEndArriveReady s) := by
  fun_cases execStepEndArriveReady <;> exact ⟨_, rfl⟩

theorem execPacketForward_answers (port : Option (Fin 8)) (pk : Packet) (s : State) : Answers (execPacketForward port pk s) := by
  fun_cases execPacketForward <;> exact ⟨_, rfl⟩

theorem execGnormTimeout_answers (s : State) : Answers (execGnormTimeout s) := by
  fun_cases execGnormTimeout <;> exact ⟨_, rfl⟩

theorem execBusyRetryTimer_answers (flow : Nat) (s : State) : Answers (execBusyRetryTimer flow s) := by
  fun_cases execBusyRetryTimer <;> exact ⟨_, rfl⟩

theorem execE2eTimeout_answers (flow : Nat) (s : State) : Answers (execE2eTimeout flow s) := by
  fun_cases execE2eTimeout <;> exact ⟨_, rfl⟩

theorem execHbTimer_answers (s : State) : Answers (execHbTimer s) := by
  fun_cases execHbTimer <;> exact ⟨_, rfl⟩

theorem execLiveSetCheck_answers (s : State) : Answers (execLiveSetCheck s) := by
  fun_cases execLiveSetCheck <;> exact ⟨_, rfl⟩

theorem execHeadbeatTimeout_answers (us : Nat) (s : State) : Answers (execHeadbeatTimeout us s) := by
  fun_cases execHeadbeatTimeout <;> exact ⟨_, rfl⟩

theorem execDeputyTakeoverTimer_answers (s : State) : Answers (execDeputyTakeoverTimer s) := by
  fun_cases execDeputyTakeoverTimer <;> exact ⟨_, rfl⟩

theorem execHeadlessFenceTimer_answers (s : State) : Answers (execHeadlessFenceTimer s) := by
  fun_cases execHeadlessFenceTimer <;> exact ⟨_, rfl⟩

theorem execRdvTimeout_answers (name : Nat) (s : State) : Answers (execRdvTimeout name s) := by
  fun_cases execRdvTimeout <;> exact ⟨_, rfl⟩

theorem execTcdfReceive_answers (port : Option (Fin 8)) (pk : Packet) (s : State) : Answers (execTcdfReceive port pk s) := by
  fun_cases execTcdfReceive <;> exact ⟨_, rfl⟩

theorem execMirrorResendRequest_answers (mirror : Nat) (s : State) : Answers (execMirrorResendRequest mirror s) := by
  fun_cases execMirrorResendRequest <;> exact ⟨_, rfl⟩

theorem execExportSend_answers (s : State) : Answers (execExportSend s) := by
  fun_cases execExportSend <;> exact ⟨_, rfl⟩

theorem execExpDropRecord_answers (s : State) : Answers (execExpDropRecord s) := by
  fun_cases execExpDropRecord <;> exact ⟨_, rfl⟩

theorem execRowRepair_answers (pl : Fin 20) (chan bank row : Nat) (s : State) : Answers (execRowRepair pl chan bank row s) := by
  fun_cases execRowRepair <;> exact ⟨_, rfl⟩

theorem execFrameRetire_answers (pl : Fin 20) (frame : Nat) (s : State) : Answers (execFrameRetire pl frame s) := by
  fun_cases execFrameRetire <;> exact ⟨_, rfl⟩

theorem execNoallocLineRelease_answers (pl : Fin 20) (line : Nat) (s : State) : Answers (execNoallocLineRelease pl line s) := by
  fun_cases execNoallocLineRelease <;> exact ⟨_, rfl⟩

theorem execRegulatorServe_answers (pl : Fin 20) (s : State) : Answers (execRegulatorServe pl s) := by
  fun_cases execRegulatorServe <;> exact ⟨_, rfl⟩

theorem execCodewordReceive_answers (port : Fin 8) (lanes : Lanes) (s : State) : Answers (execCodewordReceive port lanes s) := by
  fun_cases execCodewordReceive <;> exact ⟨_, rfl⟩

theorem execReplayTimeout_answers (port : Fin 8) (s : State) : Answers (execReplayTimeout port s) := by
  fun_cases execReplayTimeout <;> exact ⟨_, rfl⟩

theorem execLnkTrainAttempt_answers (port : Fin 8) (s : State) : Answers (execLnkTrainAttempt port s) := by
  fun_cases execLnkTrainAttempt <;> exact ⟨_, rfl⟩

theorem execTrainingStepTimeout_answers (port : Fin 8) (s : State) : Answers (execTrainingStepTimeout port s) := by
  fun_cases execTrainingStepTimeout <;> exact ⟨_, rfl⟩

theorem execTrainingDone_answers (port : Fin 8) (healthy : LaneSets) (eyes : List (Nat × Nat)) (s : State) :
    Answers (execTrainingDone port healthy eyes s) := by
  fun_cases execTrainingDone <;> exact ⟨_, rfl⟩

theorem execLinkHello_answers (port : Fin 8) (h : Hello) (s : State) : Answers (execLinkHello port h s) := by
  fun_cases execLinkHello <;> exact ⟨_, rfl⟩

theorem execLinkCert_answers (port : Fin 8) (cert chain : List Byte) (s : State) : Answers (execLinkCert port cert chain s) := by
  fun_cases execLinkCert <;> exact ⟨_, rfl⟩

theorem execLinkSign_answers (port : Fin 8) (sig : List Byte) (s : State) : Answers (execLinkSign port sig s) := by
  fun_cases execLinkSign <;> exact ⟨_, rfl⟩

theorem execAuthTimeout_answers (port : Fin 8) (s : State) : Answers (execAuthTimeout port s) := by
  fun_cases execAuthTimeout <;> exact ⟨_, rfl⟩

theorem execLaneUnhealthy_answers (port : Fin 8) (l : LaneLoss) (s : State) : Answers (execLaneUnhealthy port l s) := by
  fun_cases execLaneUnhealthy <;> exact ⟨_, rfl⟩

theorem execRetrainDone_answers (port : Fin 8) (s : State) : Answers (execRetrainDone port s) := by
  fun_cases execRetrainDone <;> exact ⟨_, rfl⟩

theorem execRetrainTimeout_answers (port : Fin 8) (s : State) : Answers (execRetrainTimeout port s) := by
  fun_cases execRetrainTimeout <;> exact ⟨_, rfl⟩

theorem execCreditTimeout_answers (port : Fin 8) (vc : Fin 4) (s : State) : Answers (execCreditTimeout port vc s) := by
  fun_cases execCreditTimeout <;> exact ⟨_, rfl⟩

theorem execLnkRetrain_answers (port : Fin 8) (s : State) : Answers (execLnkRetrain port s) := by
  fun_cases execLnkRetrain <;> exact ⟨_, rfl⟩

theorem execLnkDrain_answers (port : Fin 8) (s : State) : Answers (execLnkDrain port s) := by
  fun_cases execLnkDrain <;> exact ⟨_, rfl⟩

theorem execLnkDrainEnd_answers (port : Fin 8) (s : State) : Answers (execLnkDrainEnd port s) := by
  fun_cases execLnkDrainEnd <;> exact ⟨_, rfl⟩

theorem execLnkUnquar_answers (port : Fin 8) (s : State) : Answers (execLnkUnquar port s) := by
  fun_cases execLnkUnquar <;> exact ⟨_, rfl⟩

theorem execLnkQuar_answers (port : Fin 8) (s : State) : Answers (execLnkQuar port s) := by
  fun_cases execLnkQuar <;> exact ⟨_, rfl⟩

theorem execByeReceive_answers (port : Fin 8) (s : State) : Answers (execByeReceive port s) := by
  fun_cases execByeReceive <;> exact ⟨_, rfl⟩

theorem execFltRetry_answers (cell : Fin 16) (us : Nat) (s : State) : Answers (execFltRetry cell us s) := by
  fun_cases execFltRetry <;> exact ⟨_, rfl⟩

theorem execPreemptSaveDone_answers (cell : Fin 16) (bad : Bool) (us : Nat) (s : State) :
    Answers (execPreemptSaveDone cell bad us s) := by
  fun_cases execPreemptSaveDone <;> exact ⟨_, rfl⟩

theorem execResumeDone_answers (cell : Fin 16) (s : State) : Answers (execResumeDone cell s) := by
  fun_cases execResumeDone <;> exact ⟨_, rfl⟩

theorem execSnapCaptureDone_answers (us : Nat) (s : State) : Answers (execSnapCaptureDone us s) := by
  fun_cases execSnapCaptureDone <;> exact ⟨_, rfl⟩

theorem execSnapFlashDrainDone_answers (ok : Bool) (s : State) : Answers (execSnapFlashDrainDone ok s) := by
  fun_cases execSnapFlashDrainDone <;> exact ⟨_, rfl⟩

theorem execSnapStoreDrainDone_answers (ok : Bool) (s : State) : Answers (execSnapStoreDrainDone ok s) := by
  fun_cases execSnapStoreDrainDone <;> exact ⟨_, rfl⟩

theorem execSnapUploadDone_answers (s : State) : Answers (execSnapUploadDone s) := by
  fun_cases execSnapUploadDone <;> exact ⟨_, rfl⟩

theorem execFillCopyDone_answers (slot : Fin 64) (stale : Bool) (s : State) : Answers (execFillCopyDone slot stale s) := by
  fun_cases execFillCopyDone <;> exact ⟨_, rfl⟩

theorem execSessionOpen_answers (port : Fin 3) (no : MsgNo) (cert nonce : List Byte) (s : State) :
    Answers (execSessionOpen port no cert nonce s) := by
  fun_cases execSessionOpen <;> exact ⟨_, rfl⟩

theorem execSessionConfirm_answers (m : Msg) (s : State) : Answers (execSessionConfirm m s) := by
  fun_cases execSessionConfirm <;> exact ⟨_, rfl⟩

theorem execSessionConfirmTimeout_answers (id : Nat) (s : State) : Answers (execSessionConfirmTimeout id s) := by
  fun_cases execSessionConfirmTimeout <;> exact ⟨_, rfl⟩

theorem execSessionIdleTimeout_answers (id : Nat) (s : State) : Answers (execSessionIdleTimeout id s) := by
  fun_cases execSessionIdleTimeout <;> exact ⟨_, rfl⟩

theorem execNotifyResendTimer_answers (id : Nat) (s : State) : Answers (execNotifyResendTimer id s) := by
  fun_cases execNotifyResendTimer <;> exact ⟨_, rfl⟩

theorem execRoceAckReceive_answers (qpn psn : Nat) (a : RoceAck) (s : State) : Answers (execRoceAckReceive qpn psn a s) := by
  fun_cases execRoceAckReceive <;> exact ⟨_, rfl⟩

theorem execRoceRetryTimeout_answers (qpn : Nat) (s : State) : Answers (execRoceRetryTimeout qpn s) := by
  fun_cases execRoceRetryTimeout <;> exact ⟨_, rfl⟩

theorem execCnpReceive_answers (qpn : Nat) (s : State) : Answers (execCnpReceive qpn s) := by
  fun_cases execCnpReceive <;> exact ⟨_, rfl⟩

theorem execRateRestoreTimer_answers (qpn : Nat) (s : State) : Answers (execRateRestoreTimer qpn s) := by
  fun_cases execRateRestoreTimer <;> exact ⟨_, rfl⟩

theorem execPauseFrameReceive_answers (port : Fin 2) (prios : BitVec 8) (s : State) : Answers (execPauseFrameReceive port prios s) := by
  fun_cases execPauseFrameReceive <;> exact ⟨_, rfl⟩

theorem execNeighbourFrame_answers (port : Fin 3) (f : NbrFrame) (s : State) : Answers (execNeighbourFrame port f s) := by
  fun_cases execNeighbourFrame <;> exact ⟨_, rfl⟩

theorem execEthLink_answers (port : Fin 3) (up : Bool) (mode : Nat) (s : State) : Answers (execEthLink port up mode s) := by
  fun_cases execEthLink <;> exact ⟨_, rfl⟩

theorem execPtpMessageReceive_answers (port : Fin 3) (m : PtpMsg) (time : BitVec 63) (s : State) :
    Answers (execPtpMessageReceive port m time s) := by
  fun_cases execPtpMessageReceive <;> exact ⟨_, rfl⟩

theorem execPtpMasterLoss_answers (s : State) : Answers (execPtpMasterLoss s) := by
  fun_cases execPtpMasterLoss <;> exact ⟨_, rfl⟩

theorem execEnAssert_answers (s : State) : Answers (execEnAssert s) := by
  fun_cases execEnAssert <;> exact ⟨_, rfl⟩

theorem execMrstAssert_answers (us : Nat) (s : State) : Answers (execMrstAssert us s) := by
  fun_cases execMrstAssert <;> exact ⟨_, rfl⟩

theorem execWatchdogExpiry_answers (s : State) : Answers (execWatchdogExpiry s) := by
  fun_cases execWatchdogExpiry <;> exact ⟨_, rfl⟩

theorem execSramUe_answers (s : State) : Answers (execSramUe s) := by
  fun_cases execSramUe <;> exact ⟨_, rfl⟩

theorem execThermalTrip_answers (readings : List TripReading) (s : State) : Answers (execThermalTrip readings s) := by
  fun_cases execThermalTrip <;> exact ⟨_, rfl⟩

theorem execBootTimeout_answers (s : State) : Answers (execBootTimeout s) := by
  fun_cases execBootTimeout <;> exact ⟨_, rfl⟩

theorem execResetStageDone_answers (extRef : Bool) (fail : Option Nat) (s : State) : Answers (execResetStageDone extRef fail s) := by
  fun_cases execResetStageDone <;> exact ⟨_, rfl⟩

theorem execResetStageTimeout_answers (cause : Nat) (s : State) : Answers (execResetStageTimeout cause s) := by
  fun_cases execResetStageTimeout <;> exact ⟨_, rfl⟩

theorem execBlockResetRequest_answers (block : BitVec 8) (s : State) : Answers (execBlockResetRequest block s) := by
  fun_cases execBlockResetRequest <;> exact ⟨_, rfl⟩

theorem execBlockQuiesceEnd_answers (block : BitVec 8) (idle : Bool) (outstanding : Nat) (s : State) :
    Answers (execBlockQuiesceEnd block idle outstanding s) := by
  fun_cases execBlockQuiesceEnd <;> exact ⟨_, rfl⟩

theorem execSupplyWarning_answers (vin : BitVec 16) (s : State) : Answers (execSupplyWarning vin s) := by
  fun_cases execSupplyWarning <;> exact ⟨_, rfl⟩

theorem execVinBelowRecovery_answers (vin : BitVec 16) (s : State) : Answers (execVinBelowRecovery vin s) := by
  fun_cases execVinBelowRecovery <;> exact ⟨_, rfl⟩

theorem execSupplyRecoveryTimer_answers (us : Nat) (s : State) : Answers (execSupplyRecoveryTimer us s) := by
  fun_cases execSupplyRecoveryTimer <;> exact ⟨_, rfl⟩

theorem execPresenceDetect_answers (s : State) : Answers (execPresenceDetect s) := by
  fun_cases execPresenceDetect <;> exact ⟨_, rfl⟩

theorem execPwrgdTimeout_answers (s : State) : Answers (execPwrgdTimeout s) := by
  fun_cases execPwrgdTimeout <;> exact ⟨_, rfl⟩

theorem execEnDeassert_answers (s : State) : Answers (execEnDeassert s) := by
  fun_cases execEnDeassert <;> exact ⟨_, rfl⟩

theorem execRemovalPhaseDone_answers (ms : Nat) (s : State) : Answers (execRemovalPhaseDone ms s) := by
  fun_cases execRemovalPhaseDone <;> exact ⟨_, rfl⟩

theorem execRemovalFlushTimeout_answers (s : State) : Answers (execRemovalFlushTimeout s) := by
  fun_cases execRemovalFlushTimeout <;> exact ⟨_, rfl⟩

theorem execIdleEntry_answers (s : State) : Answers (execIdleEntry s) := by
  fun_cases execIdleEntry <;> exact ⟨_, rfl⟩

theorem execPwrTarget_answers (on : Bool) (s : State) : Answers (execPwrTarget on s) := by
  fun_cases execPwrTarget <;> exact ⟨_, rfl⟩

theorem execStandbyEntered_answers (s : State) : Answers (execStandbyEntered s) := by
  fun_cases execStandbyEntered <;> exact ⟨_, rfl⟩

theorem execRefclkFail_answers (s : State) : Answers (execRefclkFail s) := by
  fun_cases execRefclkFail <;> exact ⟨_, rfl⟩

theorem execCoreOvertemp_answers (core : Fin 48) (temp : Int) (s : State) : Answers (execCoreOvertemp core temp s) := by
  fun_cases execCoreOvertemp <;> exact ⟨_, rfl⟩

theorem execCoreCooldown_answers (core : Fin 48) (temp : Int) (s : State) : Answers (execCoreCooldown core temp s) := by
  fun_cases execCoreCooldown <;> exact ⟨_, rfl⟩

theorem execHbmHotStart_answers (pl : Fin 20) (temp : Int) (s : State) : Answers (execHbmHotStart pl temp s) := by
  fun_cases execHbmHotStart <;> exact ⟨_, rfl⟩

theorem execPowerOverLimit_answers (watts : Nat) (s : State) : Answers (execPowerOverLimit watts s) := by
  fun_cases execPowerOverLimit <;> exact ⟨_, rfl⟩

theorem execCoolantAlarm_answers (inlet : Int) (flow : Nat) (s : State) : Answers (execCoolantAlarm inlet flow s) := by
  fun_cases execCoolantAlarm <;> exact ⟨_, rfl⟩

theorem execEvtLogCopyTimer_answers (s : State) : Answers (execEvtLogCopyTimer s) := by
  fun_cases execEvtLogCopyTimer <;> exact ⟨_, rfl⟩

theorem execSuppressionWindowClose_answers (code : BitVec 16) (kind inst : Nat) (s : State) :
    Answers (execSuppressionWindowClose code kind inst s) := by
  fun_cases execSuppressionWindowClose <;> exact ⟨_, rfl⟩

theorem execPatinaWriteTimer_answers (s : State) : Answers (execPatinaWriteTimer s) := by
  fun_cases execPatinaWriteTimer <;> exact ⟨_, rfl⟩

theorem execFwBegin_answers (s : State) : Answers (execFwBegin s) := by
  fun_cases execFwBegin <;> exact ⟨_, rfl⟩

theorem execFwVerify_answers (s : State) : Answers (execFwVerify s) := by
  fun_cases execFwVerify <;> exact ⟨_, rfl⟩

theorem execFwInstall_answers (s : State) : Answers (execFwInstall s) := by
  fun_cases execFwInstall <;> exact ⟨_, rfl⟩

theorem execFwInstallDone_answers (ok : Bool) (s : State) : Answers (execFwInstallDone ok s) := by
  fun_cases execFwInstallDone <;> exact ⟨_, rfl⟩

theorem execOwnCommit_answers (s : State) : Answers (execOwnCommit s) := by
  fun_cases execOwnCommit <;> exact ⟨_, rfl⟩

theorem execSurveyIslandDone_answers (core : Fin 48) (r : SurveyResult) (s : State) : Answers (execSurveyIslandDone core r s) := by
  fun_cases execSurveyIslandDone <;> exact ⟨_, rfl⟩

theorem execSurveyOverdue_answers (island : Nat) (days : Nat) (s : State) : Answers (execSurveyOverdue island days s) := by
  fun_cases execSurveyOverdue <;> exact ⟨_, rfl⟩

theorem execRegisterWrite_answers (host : Bool) (addr : Nat) (value : BitVec 64) (s : State) :
    Answers (execRegisterWrite host addr value s) := by
  fun_cases execRegisterWrite <;> exact ⟨_, rfl⟩

theorem execHbmHotEnd_answers (pl : Fin 20) (temp : Int) (s : State) : Answers (execHbmHotEnd pl temp s) := by
  fun_cases execHbmHotEnd <;> exact ⟨_, rfl⟩

theorem execPowerThrottleEnd_answers (watts : Nat) (s : State) : Answers (execPowerThrottleEnd watts s) := by
  fun_cases execPowerThrottleEnd <;> exact ⟨_, rfl⟩

theorem execThermalTripRailRestore_answers (s : State) : Answers (execThermalTripRailRestore s) := by
  fun_cases execThermalTripRailRestore <;> exact ⟨_, rfl⟩

theorem execOverVoltageClear_answers (s : State) : Answers (execOverVoltageClear s) := by
  fun_cases execOverVoltageClear <;> exact ⟨_, rfl⟩

theorem execEnHoldoffExpiry_answers (s : State) : Answers (execEnHoldoffExpiry s) := by
  fun_cases execEnHoldoffExpiry <;> exact ⟨_, rfl⟩

theorem execEnReinsertDelay_answers (s : State) : Answers (execEnReinsertDelay s) := by
  fun_cases execEnReinsertDelay <;> exact ⟨_, rfl⟩

theorem execLinkLocalFallback_answers (s : State) : Answers (execLinkLocalFallback s) := by
  fun_cases execLinkLocalFallback <;> exact ⟨_, rfl⟩

/-- Whatever the command and the state, its meaning answers a next state. -/
theorem exec_answers (i : Instr) (s : State) : Answers (exec i s) := by
  cases i with
  | armPersistDone => exact execArmPersistDone_answers ..
  | tickDecision => exact execTickDecision_answers ..
  | schedStall => exact execSchedStall_answers ..
  | instrComplete => exact execInstrComplete_answers ..
  | arrayStreamStart => exact execArrayStreamStart_answers ..
  | calRetryStart => exact execCalRetryStart_answers ..
  | calRetryDone => exact execCalRetryDone_answers ..
  | point => exact execPoint_answers ..
  | pointReexecDone => exact execPointReexecDone_answers ..
  | pointThirdExecDone => exact execPointThirdExecDone_answers ..
  | heightenedReexec => exact execHeightenedReexec_answers ..
  | droopTrip => exact execDroopTrip_answers ..
  | plinthWriteAck => exact execPlinthWriteAck_answers ..
  | homeLineWrite => exact execHomeLineWrite_answers ..
  | dmaComplete => exact execDmaComplete_answers ..
  | sealOp => exact execSealOp_answers ..
  | signal => exact execSignal_answers ..
  | rdv => exact execRdv_answers ..
  | tickmark => exact execTickmark_answers ..
  | stepEndArriveReady => exact execStepEndArriveReady_answers ..
  | packetForward => exact execPacketForward_answers ..
  | gnormTimeout => exact execGnormTimeout_answers ..
  | busyRetryTimer => exact execBusyRetryTimer_answers ..
  | e2eTimeout => exact execE2eTimeout_answers ..
  | hbTimer => exact execHbTimer_answers ..
  | liveSetCheck => exact execLiveSetCheck_answers ..
  | headbeatTimeout => exact execHeadbeatTimeout_answers ..
  | deputyTakeoverTimer => exact execDeputyTakeoverTimer_answers ..
  | headlessFenceTimer => exact execHeadlessFenceTimer_answers ..
  | rdvTimeout => exact execRdvTimeout_answers ..
  | tcdfReceive => exact execTcdfReceive_answers ..
  | mirrorResendRequest => exact execMirrorResendRequest_answers ..
  | exportSend => exact execExportSend_answers ..
  | expDropRecord => exact execExpDropRecord_answers ..
  | rowRepair => exact execRowRepair_answers ..
  | frameRetire => exact execFrameRetire_answers ..
  | noallocLineRelease => exact execNoallocLineRelease_answers ..
  | regulatorServe => exact execRegulatorServe_answers ..
  | codewordReceive => rw [exec]; exact execCodewordReceive_answers ..
  | replayTimeout => exact execReplayTimeout_answers ..
  | lnkTrainAttempt => exact execLnkTrainAttempt_answers ..
  | trainingStepTimeout => exact execTrainingStepTimeout_answers ..
  | trainingDone => exact execTrainingDone_answers ..
  | linkHello => exact execLinkHello_answers ..
  | linkCert => exact execLinkCert_answers ..
  | linkSign => exact execLinkSign_answers ..
  | authTimeout => exact execAuthTimeout_answers ..
  | laneUnhealthy => exact execLaneUnhealthy_answers ..
  | retrainDone => exact execRetrainDone_answers ..
  | retrainTimeout => exact execRetrainTimeout_answers ..
  | creditTimeout => exact execCreditTimeout_answers ..
  | lnkRetrain => exact execLnkRetrain_answers ..
  | lnkDrain => exact execLnkDrain_answers ..
  | lnkDrainEnd => exact execLnkDrainEnd_answers ..
  | lnkUnquar => exact execLnkUnquar_answers ..
  | lnkQuar => exact execLnkQuar_answers ..
  | byeReceive => exact execByeReceive_answers ..
  | fltRetry => exact execFltRetry_answers ..
  | preemptSaveDone => exact execPreemptSaveDone_answers ..
  | resumeDone => exact execResumeDone_answers ..
  | snapCaptureDone => exact execSnapCaptureDone_answers ..
  | snapFlashDrainDone => exact execSnapFlashDrainDone_answers ..
  | snapStoreDrainDone => exact execSnapStoreDrainDone_answers ..
  | snapUploadDone => exact execSnapUploadDone_answers ..
  | fillCopyDone => exact execFillCopyDone_answers ..
  | sessionOpen => exact execSessionOpen_answers ..
  | sessionConfirm => exact execSessionConfirm_answers ..
  | sessionConfirmTimeout => exact execSessionConfirmTimeout_answers ..
  | sessionIdleTimeout => exact execSessionIdleTimeout_answers ..
  | notifyResendTimer => exact execNotifyResendTimer_answers ..
  | roceAckReceive => exact execRoceAckReceive_answers ..
  | roceRetryTimeout => exact execRoceRetryTimeout_answers ..
  | cnpReceive => exact execCnpReceive_answers ..
  | rateRestoreTimer => exact execRateRestoreTimer_answers ..
  | pauseFrameReceive => exact execPauseFrameReceive_answers ..
  | neighbourFrame => exact execNeighbourFrame_answers ..
  | ethLink => exact execEthLink_answers ..
  | ptpMessageReceive => exact execPtpMessageReceive_answers ..
  | ptpMasterLoss => exact execPtpMasterLoss_answers ..
  | enAssert => exact execEnAssert_answers ..
  | mrstAssert => exact execMrstAssert_answers ..
  | watchdogExpiry => exact execWatchdogExpiry_answers ..
  | sramUe => exact execSramUe_answers ..
  | thermalTrip => exact execThermalTrip_answers ..
  | bootTimeout => exact execBootTimeout_answers ..
  | resetStageDone => exact execResetStageDone_answers ..
  | resetStageTimeout => exact execResetStageTimeout_answers ..
  | blockResetRequest => exact execBlockResetRequest_answers ..
  | blockQuiesceEnd => exact execBlockQuiesceEnd_answers ..
  | supplyWarning => exact execSupplyWarning_answers ..
  | vinBelowRecovery => exact execVinBelowRecovery_answers ..
  | supplyRecoveryTimer => exact execSupplyRecoveryTimer_answers ..
  | presenceDetect => exact execPresenceDetect_answers ..
  | pwrgdTimeout => exact execPwrgdTimeout_answers ..
  | enDeassert => exact execEnDeassert_answers ..
  | removalPhaseDone => exact execRemovalPhaseDone_answers ..
  | removalFlushTimeout => exact execRemovalFlushTimeout_answers ..
  | idleEntry => exact execIdleEntry_answers ..
  | pwrTarget => exact execPwrTarget_answers ..
  | standbyEntered => exact execStandbyEntered_answers ..
  | refclkFail => exact execRefclkFail_answers ..
  | coreOvertemp => exact execCoreOvertemp_answers ..
  | coreCooldown => exact execCoreCooldown_answers ..
  | hbmHotStart => exact execHbmHotStart_answers ..
  | powerOverLimit => exact execPowerOverLimit_answers ..
  | coolantAlarm => exact execCoolantAlarm_answers ..
  | evtLogCopyTimer => exact execEvtLogCopyTimer_answers ..
  | suppressionWindowClose => exact execSuppressionWindowClose_answers ..
  | patinaWriteTimer => exact execPatinaWriteTimer_answers ..
  | fwBegin => exact execFwBegin_answers ..
  | fwVerify => exact execFwVerify_answers ..
  | fwInstall => exact execFwInstall_answers ..
  | fwInstallDone => exact execFwInstallDone_answers ..
  | ownCommit => exact execOwnCommit_answers ..
  | surveyIslandDone => exact execSurveyIslandDone_answers ..
  | surveyOverdue => exact execSurveyOverdue_answers ..
  | registerWrite => exact execRegisterWrite_answers ..
  | hbmHotEnd => exact execHbmHotEnd_answers ..
  | powerThrottleEnd => exact execPowerThrottleEnd_answers ..
  | thermalTripRailRestore => exact execThermalTripRailRestore_answers ..
  | overVoltageClear => exact execOverVoltageClear_answers ..
  | enHoldoffExpiry => exact execEnHoldoffExpiry_answers ..
  | enReinsertDelay => exact execEnReinsertDelay_answers ..
  | linkLocalFallback => exact execLinkLocalFallback_answers ..
  | _ => exact ⟨_, rfl⟩

/-- Settles O3: every command answers a next state, and none touches the queue. -/
theorem stepAnswersAndTakesOne : Obligations.StepAnswersAndTakesOne := by
  intro s
  have hnext : Answers (step s) := by
    cases hq : s.pending with
    | nil => exact ⟨_, step_of_nil hq⟩
    | cons c l =>
      rw [step_of_cons hq]
      exact exec_answers c _
  obtain ⟨t, ht⟩ := hnext
  obtain ⟨hqueue, _⟩ := step_kept ht
  exact ⟨t, ht, hqueue⟩

end Sys2Proof.Machine
end

section
/-! PROOFS. Issue of the array, matrix-vector, merge and vector rows (R90, R121, R244 to R250, R472). -/
namespace Sys2Proof.Machine
open Sys2Proof Sys2Proof.Claims

/-- A row issues by the shared gate: what its meaning runs. -/
def State.issueRow (s : State) (r : IssueRow) : State := s.issue r.core r.stream r.opc r.ws r.plan

theorem exec_of_computeRow {c : Instr} {s : State} {r : IssueRow} (h : computeRow s c = some r) :
    exec c s = .next (s.issueRow r) := by
  cases c <;> simp only [computeRow, Option.some.injEq, reduceCtorEq] at h <;> subst h <;> rfl

theorem exec_of_vectorRow {c : Instr} {s : State} {r : IssueRow} (h : vectorRow s c = some r) :
    exec c s = .next (s.issueRow r) := by
  cases c
  case gnormSq | gnormFin | gnormClr =>
    simp only [vectorRow, Option.ite_none_right_eq_some, Option.some.injEq] at h
    obtain ⟨hmode, rfl⟩ := h
    exact congrArg _ (if_pos hmode)
  all_goals simp only [vectorRow, Option.some.injEq, reduceCtorEq] at h
  all_goals subst h; rfl

theorem exec_of_row {c : Instr} {s : State} {r : IssueRow} (h : computeRow s c = some r ∨ vectorRow s c = some r) :
    exec c s = .next (s.issueRow r) := h.elim exec_of_computeRow exec_of_vectorRow

/-- A row that the gate, the plan and the hazard detector let through is issued. -/
theorem State.issueRow_of_issues {s : State} {r : IssueRow} {x : IssueCtx} {ps : List Plan} (h : Issues s r x ps) :
    s.issueRow r = s.issued x r.ws ps := by
  obtain ⟨hopc, hgate, hplan, hhazard⟩ := h
  exact State.issue_ok hopc hgate hplan hhazard

/-- Settles O7: the row's meaning is the shared issue, and nothing keeps it back. -/
theorem computeInstructionsIssue : Obligations.ComputeInstructionsIssue := by
  intro c s r x ps hrow hissues
  rw [exec_of_computeRow hrow, State.issueRow_of_issues hissues]

/-- Settles O8: as for the compute rows. -/
theorem vectorInstructionsIssue : Obligations.VectorInstructionsIssue := by
  intro c s r x ps hrow hissues
  rw [exec_of_vectorRow hrow, State.issueRow_of_issues hissues]

theorem State.passBy_core (s : State) (x : IssueCtx) (ws : List (BitVec 128)) :
    (s.passBy x ws).core x.n = (s.core x.n).pass x.st ws.length x.c.tick.toNat :=
  State.modCore_core ..

/-- Settles O11: the refusal passes the words by, which touches counters of the stream only, and raises its fault. -/
theorem refusedInstructionFaults : Obligations.RefusedInstructionFaults := by
  intro c s r x e hrow hopc hgate hplan
  refine ⟨?_, ?_, ?_⟩
  · rw [exec_of_row hrow]
    exact congrArg _ (State.issue_refused hopc hgate hplan)
  · rw [State.passBy_core]; rfl
  · rw [State.passBy_core]; rfl

end Sys2Proof.Machine
end

section
/-! PROOFS. What the issue of one instruction leaves (R77, R244, R248), and that vector plans fill the operand buffers too (R481). -/
namespace Sys2Proof.Machine
open Sys2Proof Sys2Proof.Claims

/-! A vector instruction's plan changes more than the units. -/

/-- The context of a core as it is after reset. -/
def IssueCtx.atReset : IssueCtx := ⟨0, 0, 0, 0, {}, {}, 0, 0⟩

/-- A core whose vector engine has the word 5 in its first operand buffer. -/
def Core.buffered : Core := { vbuf := [(0, 5)] }

/-- The plan of a word of zeros, with MOV's single tile source: its one element goes to the first operand buffer. -/
theorem planElem_zero : ∃ p, planElem false 0 IssueCtx.atReset = .ok p ∧ (p.upd Core.buffered).vbuf = [] := ⟨_, rfl, rfl⟩

/-- Refutes O10: MOV of one element of a tile that reads zero leaves the operand buffer of its source empty, where it held 5; an operand
buffer is neither an array nor the time of a unit. -/
theorem not_plansTouchUnitsOnly : ¬ Obligations.PlansTouchUnitsOnly := by
  intro h
  obtain ⟨p, hplan, hbuf⟩ := planElem_zero
  have hunits : Plan.unitsOnly p := h (.mov 0 0) State.reset _ IssueCtx.atReset [p] (.inr rfl)
    (by simp only [oneWord]; rw [show State.reset.cfg.dchk = false from rfl, hplan]) p (by simp)
  have hkept : (p.upd Core.buffered).vbuf = [(0, 5)] := congrArg Core.vbuf (hunits Core.buffered)
  rw [hbuf] at hkept
  cases hkept

/-! One instruction issued. -/

/-- The cycle up to which the vector engine has work in flight (R207). -/
def Core.vecDone (co : Core) (st : Nat) : Nat :=
  (co.inflight.map (fun e => if e.stream == 3 && st == 3 then e.doneCycle else 0)).foldl max 0

theorem le_foldl_max (l : List Nat) (m : Nat) : m ≤ l.foldl max m ∧ ∀ n ∈ l, n ≤ l.foldl max m := by
  induction l generalizing m with
  | nil => simp
  | cons a l ih =>
    obtain ⟨hm, hl⟩ := ih (max m a)
    rw [List.foldl_cons, List.forall_mem_cons]
    exact ⟨by omega, by omega, hl⟩

theorem Core.le_vecDone {co : Core} {f : Entry} (hf : f ∈ co.inflight) (hst : f.stream = 3) : f.doneCycle ≤ co.vecDone 3 := by
  refine (le_foldl_max _ 0).2 _ (List.mem_map.2 ⟨f, hf, ?_⟩)
  simp [hst]

theorem Core.vecDone_of_ne {co : Core} {st : Nat} (h : st ≠ 3) : co.vecDone st = 0 := by
  have hz : ∀ l : List Entry, (l.map (fun e => if e.stream == 3 && st == 3 then e.doneCycle else 0)).foldl max 0 = 0 := by
    intro l
    induction l with
    | nil => rfl
    | cons e l ih => simpa [h] using ih
  exact hz _

/-- The entry of one word that issues by a plan. -/
def IssueCtx.entryOf (x : IssueCtx) (co : Core) (w : BitVec 128) (p : Plan) : Entry :=
  { p.entry with doneCycle := max p.entry.doneCycle (co.vecDone x.st), word := w, id := x.id 0, stream := x.st, ord := x.ord, grp := x.ord,
                 issueTick := x.c.tick.toNat }

/-- One word issued without the hazard detector: the core's counters go on, the entry is in flight, and the plan has its effect. -/
theorem State.issued_one {s : State} {x : IssueCtx} (w : BitVec 128) (p : Plan) (hdebug : s.cfg.debug = false) :
    s.issued x [w] [p] = s.setCore x.n (p.upd { x.co.advance x.st [w] x.c.tick.toNat with
      inflight := (x.co.advance x.st [w] x.c.tick.toNat).inflight ++ [x.entryOf (x.co.advance x.st [w] x.c.tick.toNat) w p] }) := by
  simp only [State.issued, List.zip_cons_cons, List.zip_nil_right, Core.commitAll, Core.commit, hdebug]
  rfl

section
variable (co : Core) (w : BitVec 128) (st tick : Nat)

theorem Core.consume_eq : co.consume w = { co with
    tokens := (co.consume w).tokens, useSeq := (co.consume w).useSeq, awaits := (co.consume w).awaits, tags := (co.consume w).tags,
    tregTags := (co.consume w).tregTags } := co.consume_same w

@[simp] theorem Core.consume_inflight : (co.consume w).inflight = co.inflight := by rw [Core.consume_eq]
@[simp] theorem Core.consume_ptr : (co.consume w).ptr = co.ptr := by rw [Core.consume_eq]
@[simp] theorem Core.consume_ord : (co.consume w).ord = co.ord := by rw [Core.consume_eq]
@[simp] theorem Core.consume_store : (co.consume w).store = co.store := by rw [Core.consume_eq]
@[simp] theorem Core.consume_storePois : (co.consume w).storePois = co.storePois := by rw [Core.consume_eq]
@[simp] theorem Core.consume_treg : (co.consume w).treg = co.treg := by rw [Core.consume_eq]
@[simp] theorem Core.consume_tregPois : (co.consume w).tregPois = co.tregPois := by rw [Core.consume_eq]
@[simp] theorem Core.consume_mvu : (co.consume w).mvu = co.mvu := by rw [Core.consume_eq]
@[simp] theorem Core.consume_flg : (co.consume w).flg = co.flg := by rw [Core.consume_eq]

@[simp] theorem Core.advance_one_inflight : (co.advance st [w] tick).inflight = co.inflight := co.consume_inflight w

theorem Core.advance_one_ptr : (co.advance st [w] tick).ptr = tabMod 0 co.ptr st (· + 1) := by
  simp [Core.advance, Core.pass]

theorem Core.advance_one_ord : (co.advance st [w] tick).ord = tabMod 0 co.ord st (· + 1) := by
  simp [Core.advance, Core.pass]

theorem Core.advance_one_slot : tabGet 0 (co.advance st [w] tick).lastSlot st = tick := tabGet_tabSet ..

end

/-- Settles O9: consuming the tokens leaves everything but the scoreboard and the hazard detector's tags, passing the word moves the
stream's own counters, and the plan reaches the units only. -/
theorem issueAdvancesTheStream : Obligations.IssueAdvancesTheStream := by
  intro s x w p hunits hdebug hcore
  refine ⟨_, x.entryOf (x.co.advance x.st [w] x.c.tick.toNat) w p, s.issued_one w p hdebug, ?_⟩
  rw [hunits, ← hcore]
  refine ⟨?inflight, rfl, rfl, rfl, rfl, rfl, rfl, Nat.le_max_left _ _, ?other, ?vector, ?ptr, ?ord, Core.advance_one_slot .., ?streams,
    Core.consume_store .., Core.consume_storePois .., Core.consume_treg .., Core.consume_tregPois .., Core.consume_mvu ..,
    Core.consume_flg ..⟩
  case inflight => exact congrArg (· ++ _) (Core.advance_one_inflight ..)
  case other =>
    intro hst
    exact (congrArg (max p.entry.doneCycle) (Core.vecDone_of_ne hst)).trans (Nat.max_zero _)
  case vector =>
    intro hst f hf hf3
    rw [← Core.advance_one_inflight x.co w x.st x.c.tick.toNat] at hf
    have hle := Core.le_vecDone hf hf3
    rw [← hst] at hle
    exact hle.trans (Nat.le_max_right _ _)
  case ptr =>
    dsimp only
    rw [Core.advance_one_ptr, tabGet_tabMod]
  case ord =>
    dsimp only
    rw [Core.advance_one_ord, tabGet_tabMod]
  case streams =>
    intro q hq
    dsimp only
    rw [Core.advance_one_ptr, Core.advance_one_ord, tabGet_tabMod_ne _ _ _ _ _ hq, tabGet_tabMod_ne _ _ _ _ _ hq]
    exact ⟨rfl, rfl⟩

end Sys2Proof.Machine
end

section
/-! PROOFS. Issue of the rows of the DMA and SYN streams: the new entry in flight, and what the instruction then does (R310, R314 to
R326). -/
namespace Sys2Proof.Machine
open Sys2Proof Sys2Proof.Claims

/-! Plans that leave the in-flight table to the issue. -/

/-- A plan's effect on the units of a core leaves its in-flight table. -/
def KeepsFlight (p : Plan) : Prop := ∀ co, (p.upd co).inflight = co.inflight

/-- Every plan that an answer can be has a property. -/
def PlanHas (P : Plan → Prop) (r : Except Refuse Plan) : Prop := ∀ p, r = .ok p → P p

section
variable {P : Plan → Prop} {α : Type}

theorem planHas_ok {p : Plan} (h : P p) : PlanHas P (.ok p) := by
  intro q hq
  injection hq with hq
  exact hq ▸ h

theorem planHas_bind {m : Except Refuse α} {f : α → Except Refuse Plan} (h : ∀ a, m = .ok a → PlanHas P (f a)) :
    PlanHas P (m >>= f) := by
  intro p hp
  obtain ⟨a, ha, hf⟩ := except_bind_ok hp
  exact h a ha p hf

end

theorem takeBounce_inflight (ord : Nat) (m : Option (Nat × Nat)) (co : Core) : (takeBounce ord m co).inflight = co.inflight := by
  unfold takeBounce
  split <;> rfl

section
variable (s : State) (w : BitVec 128) (x : IssueCtx)

theorem planDma_keepsFlight : PlanHas KeepsFlight (planDma s w x) := by
  unfold planDma
  repeat refine planHas_bind fun _ _ => ?_
  extract_lets _ _ _ _ _ checked
  have hchecked : ∀ u, PlanHas KeepsFlight (checked u) := by
    intro u
    repeat refine planHas_bind fun _ _ => ?_
    exact planHas_ok (takeBounce_inflight _ _)
  split
  · repeat refine planHas_bind fun _ _ => ?_
    exact planHas_ok (takeBounce_inflight _ _)
  · exact hchecked ()

theorem planCopy_keepsFlight : PlanHas KeepsFlight (planCopy w x) := by
  unfold planCopy
  repeat refine planHas_bind fun _ _ => ?_
  exact planHas_ok fun _ => rfl

theorem planXpose_keepsFlight : PlanHas KeepsFlight (planXpose w x) := by
  unfold planXpose
  repeat refine planHas_bind fun _ _ => ?_
  exact planHas_ok (takeBounce_inflight _ _)

theorem planPermute_keepsFlight : PlanHas KeepsFlight (planPermute s w x) := by
  unfold planPermute
  repeat refine planHas_bind fun _ _ => ?_
  exact planHas_ok (takeBounce_inflight _ _)

theorem planIndex_keepsFlight (scatter : Bool) : PlanHas KeepsFlight (planIndex scatter w x) := by
  unfold planIndex
  repeat refine planHas_bind fun _ _ => ?_
  exact planHas_ok (takeBounce_inflight _ _)

theorem planSeal_keepsFlight : PlanHas KeepsFlight (planSeal s w x) := by
  unfold planSeal
  refine planHas_bind fun _ _ => ?_
  extract_lets
  split
  all_goals
    repeat refine planHas_bind fun _ _ => ?_
    exact planHas_ok fun _ => rfl

theorem planPutGet_keepsFlight (get : Bool) : PlanHas KeepsFlight (planPutGet get w x) := by
  unfold planPutGet
  repeat refine planHas_bind fun _ _ => ?_
  exact planHas_ok fun _ => rfl

theorem planRatom_keepsFlight : PlanHas KeepsFlight (planRatom w x) := by
  unfold planRatom
  repeat refine planHas_bind fun _ _ => ?_
  exact planHas_ok fun _ => rfl

theorem planRadd_keepsFlight : PlanHas KeepsFlight (planRadd w x) := by
  unfold planRadd
  repeat refine planHas_bind fun _ _ => ?_
  exact planHas_ok fun _ => rfl

theorem planXch_keepsFlight : PlanHas KeepsFlight (planXch w x) := by
  unfold planXch
  repeat refine planHas_bind fun _ _ => ?_
  exact planHas_ok fun _ => rfl

theorem planSignal_keepsFlight : PlanHas KeepsFlight (planSignal s w x) := by
  unfold planSignal
  extract_lets _ _ checked
  have hchecked : ∀ u, PlanHas KeepsFlight (checked u) := fun _ => planHas_ok fun _ => rfl
  split
  · repeat refine planHas_bind fun _ _ => ?_
    exact hchecked ()
  · exact hchecked ()

theorem planRdv_keepsFlight : PlanHas KeepsFlight (planRdv s w x) := by
  unfold planRdv
  repeat refine planHas_bind fun _ _ => ?_
  split <;> exact planHas_ok fun _ => rfl

theorem synPlan_keepsFlight : PlanHas KeepsFlight (.ok (synPlan x)) := planHas_ok fun _ => rfl

end

/-! The new entry. -/

/-- A plan that leaves the in-flight table commits its entry at the table's end, whether or not the hazard detector runs. -/
theorem Core.commit_inflight {p : Plan} (hp : KeepsFlight p) (co : Core) (x : IssueCtx) (debug : Bool) (w : BitVec 128) :
    (co.commit x debug 0 w p).inflight = co.inflight ++ [x.entryOf co w p] := by
  unfold Core.commit
  dsimp only
  split
  · exact hp _
  · exact hp _

/-- The entry that an instruction of one word has once it has issued. -/
theorem State.issued_entry {s : State} {n st : Nat} {w : BitVec 128} {x : IssueCtx} {p : Plan} (hgate : s.mayIssue n st [w] = some x)
    (hp : KeepsFlight p) (hnew : (s.core n).entry st x.ord = none) :
    ((s.issued x [w] [p]).core n).entry st x.ord = some (x.entryOf (x.co.advance x.st [w] x.c.tick.toNat) w p) := by
  obtain ⟨hst, hco, hn, -⟩ := State.mayIssue_inv hgate
  have hcore : ((s.issued x [w] [p]).core n).inflight =
      (s.core n).inflight ++ [x.entryOf (x.co.advance x.st [w] x.c.tick.toNat) w p] := by
    rw [← hn]
    simp only [State.issued, State.setCore_core, List.zip_cons_cons, List.zip_nil_right, Core.commitAll,
      Core.commit_inflight hp, Core.advance_one_inflight, hco, hn]
  unfold Core.entry at hnew ⊢
  rw [hcore, List.find?_append, hnew]
  simp [IssueCtx.entryOf, hst]

theorem State.justIssuedOn_eq {s s' : State} {n st : Nat} {ws : List (BitVec 128)} {x : IssueCtx} {e : Entry}
    (hgate : s.mayIssue n st ws = some x) (hold : (s.core n).entry st x.ord = none) (hnew : (s'.core n).entry st x.ord = some e) :
    s.justIssuedOn s' n st = some e := by
  obtain ⟨-, -, -, -, -, -, hord⟩ := State.mayIssue_inv hgate
  unfold State.justIssuedOn
  rw [← hord]
  simp only [hold, hnew]

theorem State.justIssued_eq {s s' : State} {n : Nat} {ws : List (BitVec 128)} {x : IssueCtx} {e : Entry}
    (hgate : s.mayIssue n 4 ws = some x) (hold : (s.core n).entry 4 x.ord = none) (hnew : (s'.core n).entry 4 x.ord = some e) :
    s.justIssued s' n = some e := State.justIssuedOn_eq hgate hold hnew

theorem State.issueLocal_eq {s : State} {n opc : Nat} {w : BitVec 128} {errs : List SectorErr} {plan : IssueCtx → Except Refuse Plan}
    {e : Entry} (h : s.justIssued (s.issue1 n 4 opc w plan) n = some e) :
    s.issueLocal n opc w errs plan = ((s.issue1 n 4 opc w plan).decay errs).runLocal n e := by
  unfold State.issueLocal
  simp only [h]

theorem State.issueRemote_eq {s : State} {n opc : Nat} {w : BitVec 128} {plan : IssueCtx → Except Refuse Plan} {e : Entry}
    (h : s.justIssued (s.issue1 n 4 opc w plan) n = some e) :
    s.issueRemote n opc w plan = (s.issue1 n 4 opc w plan).startRemote n e := by
  unfold State.issueRemote
  simp only [h]

theorem State.cellOf_congr {s t : State} (h : t.cells = s.cells) (n : Nat) : t.cellOf n = s.cellOf n := by
  unfold State.cellOf State.cell
  rw [h]

/-! The rows. -/

/-- A row of one word whose plans leave the in-flight table. -/
def OneWordRow (r : IssueRow) : Prop :=
  ∃ w plan, r = oneWord r.core r.stream r.opc w plan ∧ ∀ x, PlanHas KeepsFlight (plan x)

/-- With an entry in flight that was not there before, the row's meaning is its effect on the state with the instruction issued. -/
def Takes (s : State) (c : Instr) (r : IssueRow) (f : State → IssueCtx → Entry → State) : Prop :=
  ∀ x e, s.mayIssue r.core r.stream r.ws = some x → (s.core r.core).entry r.stream x.ord = none →
    ((s.issueRow r).core r.core).entry r.stream x.ord = some e → e.issueTick = x.c.tick.toNat →
    (s.issueRow r).cells = s.cells → exec c s = .next (f (s.issueRow r) x e)

section
variable {s : State} {c : Instr} {r : IssueRow} {f : State → IssueCtx → Entry → State}

theorem oneWordRow_of_transferRow (h : transferRow s c = some (r, f)) : OneWordRow r := by
  cases c <;> simp only [transferRow, Option.some.injEq, Prod.mk.injEq, reduceCtorEq] at h
  all_goals obtain ⟨rfl, -⟩ := h
  case dma => exact ⟨_, _, rfl, fun x => planDma_keepsFlight _ _ x⟩
  case copy => exact ⟨_, _, rfl, fun x => planCopy_keepsFlight _ x⟩
  case xpose => exact ⟨_, _, rfl, fun x => planXpose_keepsFlight _ x⟩
  case permute => exact ⟨_, _, rfl, fun x => planPermute_keepsFlight _ _ x⟩
  case gather => exact ⟨_, _, rfl, fun x => planIndex_keepsFlight _ x _⟩
  case scatter => exact ⟨_, _, rfl, fun x => planIndex_keepsFlight _ x _⟩
  case sealOp => exact ⟨_, _, rfl, fun x => planSeal_keepsFlight _ _ x⟩

theorem oneWordRow_of_remoteRow (h : remoteRow c = some (r, f)) : OneWordRow r := by
  cases c <;> simp only [remoteRow, Option.some.injEq, Prod.mk.injEq, reduceCtorEq] at h
  all_goals obtain ⟨rfl, -⟩ := h
  case rput => exact ⟨_, _, rfl, fun x => planPutGet_keepsFlight _ x _⟩
  case rget => exact ⟨_, _, rfl, fun x => planPutGet_keepsFlight _ x _⟩
  case ratom => exact ⟨_, _, rfl, fun x => planRatom_keepsFlight _ x⟩
  case radd => exact ⟨_, _, rfl, fun x => planRadd_keepsFlight _ x⟩
  case xch => exact ⟨_, _, rfl, fun x => planXch_keepsFlight _ x⟩

theorem oneWordRow_of_synRow (h : synRow s c = some (r, f)) : OneWordRow r := by
  cases c <;> simp only [synRow, Option.some.injEq, Prod.mk.injEq, reduceCtorEq] at h
  all_goals obtain ⟨rfl, -⟩ := h
  case signal => exact ⟨_, _, rfl, fun x => planSignal_keepsFlight _ _ x⟩
  case rdv => exact ⟨_, _, rfl, fun x => planRdv_keepsFlight _ _ x⟩
  case tickmark => exact ⟨_, _, rfl, synPlan_keepsFlight⟩

theorem execSealOp_of_issued {core : Fin 48} {w : BitVec 128} {errs : List SectorErr} {e : Entry} {k : Nat}
    (hjust : s.justIssued (s.issue1 core 4 0xB0 w (planSeal s w)) core = some e)
    (hcell : (s.issue1 core 4 0xB0 w (planSeal s w)).cellOf core = some k) :
    execSealOp core w errs s = .next (((s.issue1 core 4 0xB0 w (planSeal s w)).decay errs).runSeal k core e) := by
  simp only [execSealOp, hjust, hcell]

theorem takes_of_transferRow (h : transferRow s c = some (r, f)) : Takes s c r f := by
  cases c <;> simp only [transferRow, Option.some.injEq, Prod.mk.injEq, reduceCtorEq] at h
  all_goals
    obtain ⟨rfl, rfl⟩ := h
    intro x e hgate hold hnew _ hcells
  case sealOp =>
    obtain ⟨-, -, -, hcell, -⟩ := State.mayIssue_inv hgate
    exact execSealOp_of_issued (State.justIssued_eq hgate hold hnew) ((State.cellOf_congr hcells _).trans hcell)
  all_goals exact congrArg _ (State.issueLocal_eq (State.justIssued_eq hgate hold hnew))

theorem takes_of_remoteRow (h : remoteRow c = some (r, f)) : Takes s c r f := by
  cases c <;> simp only [remoteRow, Option.some.injEq, Prod.mk.injEq, reduceCtorEq] at h
  all_goals
    obtain ⟨rfl, rfl⟩ := h
    intro x e hgate hold hnew _ _
    exact congrArg _ (State.issueRemote_eq (State.justIssued_eq hgate hold hnew))

theorem execSignal_of_issued {core : Fin 48} {w : BitVec 128} {e : Entry}
    (hjust : s.justIssuedOn (s.issue1 core 5 0xA1 w (planSignal s w)) core 5 = some e) :
    execSignal core w s = .next ((s.issue1 core 5 0xA1 w (planSignal s w)).sendOps core 5 e.ord [signalPk s.ownKey w]) := by
  simp only [execSignal, hjust]

theorem execRdv_of_issued {core : Fin 48} {w : BitVec 128} {e : Entry}
    (hjust : s.justIssuedOn (s.issue1 core 5 0xA2 w (planRdv s w)) core 5 = some e) :
    execRdv core w s = .next (if wf w 71 70 = 0 then s.issue1 core 5 0xA2 w (planRdv s w)
      else (s.issue1 core 5 0xA2 w (planRdv s w)).rdvReach (rdvName w)) := by
  simp only [execRdv, hjust]

theorem execTickmark_of_issued {core : Fin 48} {w : BitVec 128} {e : Entry} {k l tick : Nat}
    (hjust : s.justIssuedOn (s.issue1 core 5 0xA3 w (fun x => .ok (synPlan x))) core 5 = some e) (hcell : s.cellOf core = some k)
    (hl : l = (s.cell k).lcore core) (htick : e.issueTick = tick) :
    execTickmark core w s = .next ((s.issue1 core 5 0xA3 w (fun x => .ok (synPlan x))).log 0x5104
      [.val 8 (s.issue1 core 5 0xA3 w (fun x => .ok (synPlan x))).timeNow.1.toNat, .cell k, .val 1 l, .val 4 (wf w 71 40),
       .val 4 tick]) := by
  simp only [execTickmark, hjust, hcell, hl, htick]

theorem takes_of_synRow (h : synRow s c = some (r, f)) : Takes s c r f := by
  cases c <;> simp only [synRow, Option.some.injEq, Prod.mk.injEq, reduceCtorEq] at h
  all_goals
    obtain ⟨rfl, rfl⟩ := h
    intro x e hgate hold hnew htick _
    have hjust := State.justIssuedOn_eq hgate hold hnew
  case signal => exact execSignal_of_issued hjust
  case rdv => exact execRdv_of_issued hjust
  case tickmark =>
    obtain ⟨-, -, -, hcell, hlcore, -⟩ := State.mayIssue_inv hgate
    exact execTickmark_of_issued hjust hcell hlcore htick

/-- A row of one word issues, and its meaning is its effect with the new entry. -/
theorem exec_of_takes (hword : OneWordRow r) (htakes : Takes s c r f) {x : IssueCtx} {ps : List Plan} (hissues : Issues s r x ps)
    (hold : (s.core r.core).entry r.stream x.ord = none) :
    ∃ w p, r.ws = [w] ∧ ps = [p] ∧
      ((s.issued x r.ws ps).core r.core).entry r.stream x.ord = some (x.entryOf (x.co.advance x.st [w] x.c.tick.toNat) w p) ∧
      exec c s = .next (f (s.issued x r.ws ps) x (x.entryOf (x.co.advance x.st [w] x.c.tick.toNat) w p)) := by
  have hissue := State.issueRow_of_issues hissues
  obtain ⟨w, plan, hr, hkeeps⟩ := hword
  obtain ⟨-, hgate, hplan, -⟩ := hissues
  have hws : r.ws = [w] := congrArg IssueRow.ws hr
  obtain ⟨p, hp, rfl⟩ : ∃ p, plan x = .ok p ∧ ps = [p] := by
    rw [hr] at hplan
    simp only [oneWord] at hplan
    split at hplan
    · next q hq => exact ⟨q, hq, (Except.ok.inj hplan).symm⟩
    · cases hplan
  have hentry := State.issued_entry (hws ▸ hgate) (hkeeps x p hp) hold
  refine ⟨w, p, hws, rfl, ?_⟩
  rw [← hws, ← hissue] at hentry
  rw [← hissue]
  exact ⟨hws ▸ hentry, hws ▸ htakes x _ hgate hold hentry rfl (by rw [hissue]; rfl)⟩

end

/-- Settles O12: the shared gate issues the one word, whose entry is then found in flight, so that its meaning goes on to its effect. -/
theorem dataAndSyncInstructionsIssue : Obligations.DataAndSyncInstructionsIssue := by
  intro c s r f x ps hrow hissues hold
  have hword : OneWordRow r := hrow.elim oneWordRow_of_transferRow (Or.elim · oneWordRow_of_remoteRow oneWordRow_of_synRow)
  have htakes : Takes s c r f := hrow.elim takes_of_transferRow (Or.elim · takes_of_remoteRow takes_of_synRow)
  obtain ⟨w, p, hws, -, hentry, hexec⟩ := exec_of_takes hword htakes hissues hold
  exact ⟨_, hentry, hws.symm, rfl, hexec⟩

end Sys2Proof.Machine
end

section
/-! PROOFS. COPY moves its bytes (R315). -/
namespace Sys2Proof.Machine
open Sys2Proof Sys2Proof.Claims

/-! A table set twice at one key. -/

theorem tabDel_tabIns {α : Type} (t : Tab α) (k : Nat) (v : α) : tabDel (tabIns t k v) k = tabDel t k := by
  induction t with
  | nil => simp [tabIns, tabDel]
  | cons e r ih =>
    by_cases hk : k < e.1
    · simp [tabIns, hk, tabDel]
    · have ih' : (tabIns r k v).filter (fun e => decide (e.1 ≠ k)) = r.filter (fun e => decide (e.1 ≠ k)) := ih
      simp only [tabIns, hk, if_false, tabDel, List.filter_cons, ih']

theorem tabDel_tabDel {α : Type} (t : Tab α) (k : Nat) : tabDel (tabDel t k) k = tabDel t k := by simp [tabDel]

theorem tabDel_tabSet {α : Type} [DecidableEq α] (d : α) (t : Tab α) (k : Nat) (v : α) : tabDel (tabSet d t k v) k = tabDel t k := by
  unfold tabSet
  split
  · exact tabDel_tabDel t k
  · rw [tabDel_tabIns, tabDel_tabDel]

theorem tabSet_tabSet {α : Type} [DecidableEq α] (d : α) (t : Tab α) (k : Nat) (v w : α) :
    tabSet d (tabSet d t k v) k w = tabSet d t k w := by
  unfold tabSet
  rw [show tabDel (if v = d then tabDel t k else tabIns (tabDel t k) k v) k = tabDel t k from tabDel_tabSet d t k v]

theorem State.setCore_setCore (s : State) (n : Nat) (c d : Core) : (s.setCore n c).setCore n d = s.setCore n d := by
  simp only [State.setCore, tabSet_tabSet]

theorem State.modCore_setCore (s : State) (n : Nat) (c : Core) (f : Core → Core) : (s.setCore n c).modCore n f = s.setCore n (f c) := by
  unfold State.modCore
  rw [State.setCore_core, State.setCore_setCore]

/-! COPY in a core. -/

theorem length_pread (m : Mem) (p : PSet) (unit a n : Nat) : (pread m p unit a n).length = n := by simp [pread]

theorem map_fst_pread (m : Mem) (p : PSet) (unit a n : Nat) : (pread m p unit a n).map Prod.fst = memRead m a n := by
  simp [pread, memRead, Function.comp_def]

/-- A memory that a COPY reads. -/
theorem memGet_memWrite_memRead {m m' : Mem} {dst src len i : Nat} (hi : i < len) :
    memGet (memWrite m' dst (memRead m src len)) (dst + i) = memGet m (src + i) := by
  have hlen : i < (memRead m src len).length := by simpa [memRead] using hi
  rw [memGet_memWrite_in _ _ _ _ hlen]
  simp [memRead]

section
variable (co : Core) (e : Entry)

/-- The destination of COPY is written with the bytes of its source. -/
theorem Core.runCopy_side : side (co.runCopy e) (bit (bfld e.block 0 1) 1) =
    memWrite (side co (bit (bfld e.block 0 1) 1)) (bfld e.block 8 4)
      (memRead (side co (bit (bfld e.block 0 1) 0)) (bfld e.block 4 4) (bfld e.block 12 4)) := by
  cases hsrc : bit (bfld e.block 0 1) 0 <;> cases hdst : bit (bfld e.block 0 1) 1 <;>
    simp [Core.runCopy, hsrc, hdst, side, Core.modEntry, Core.pread, Core.ptread, Core.pwrite, Core.ptwrite, map_fst_pread]

theorem Core.runCopy_other_side : side (co.runCopy e) (!bit (bfld e.block 0 1) 1) = side co (!bit (bfld e.block 0 1) 1) := by
  cases hdst : bit (bfld e.block 0 1) 1 <;> simp [Core.runCopy, hdst, side, Core.modEntry, Core.pwrite, Core.ptwrite]

end

/-! COPY as it issues. -/

theorem planCopy_upd (w : BitVec 128) (x : IssueCtx) : PlanHas (fun p => p.upd = id) (planCopy w x) := by
  unfold planCopy
  repeat refine planHas_bind fun _ _ => ?_
  exact planHas_ok rfl

/-- A plan without an effect on its core leaves both memories of it. -/
theorem State.issued_side {s : State} {n st : Nat} {w : BitVec 128} {x : IssueCtx} {p : Plan} (hgate : s.mayIssue n st [w] = some x)
    (hp : p.upd = id) : ∃ co, s.issued x [w] [p] = s.setCore n co ∧ ∀ tile, side co tile = side (s.core n) tile := by
  obtain ⟨-, hco, hn, -⟩ := State.mayIssue_inv hgate
  refine ⟨_, by rw [State.issued, hn], fun tile => ?_⟩
  rw [← hco]
  simp only [List.zip_cons_cons, List.zip_nil_right, Core.commitAll, Core.commit, hp, id_eq, Core.advance]
  split <;> simp [side, Core.tagIssue, Core.pass]

theorem State.decay_nil (s : State) : s.decay [] = s := by
  unfold State.decay
  rw [List.append_nil]

/-- A COPY that runs in its cell changes its core. -/
theorem State.runLocal_copy {s : State} {n k : Nat} {e : Entry} (hcell : s.cellOf n = some k) (hopc : wOpc e.word = 0x81) :
    s.runLocal n e = s.modCore n (fun co => co.runCopy e) := by
  unfold State.runLocal
  rw [hcell]
  exact if_pos hopc

/-- Settles O13: the issue leaves both memories, and the run writes to its destination the bytes of its source. -/
theorem copyMovesItsBytes : Obligations.CopyMovesItsBytes := by
  intro core w s x p hissues hold b src dst len
  have hrow : transferRow s (.copy core w) = some (oneWord core 4 0x81 w (planCopy w), fun t _ e => (t.decay []).runLocal core e) := rfl
  obtain ⟨_, _, hw, hp, -, hexec⟩ :=
    exec_of_takes (oneWordRow_of_transferRow hrow) (takes_of_transferRow hrow) hissues hold
  cases hw
  cases hp
  obtain ⟨⟨_, hv, hopc⟩, hgate, hplan, -⟩ := hissues
  cases hv
  obtain ⟨-, -, -, hcell, -⟩ := State.mayIssue_inv hgate
  have hupd : p.upd = id := by
    refine planCopy_upd w x p ?_
    simp only [oneWord] at hplan
    split at hplan
    · next q hq =>
      cases hplan
      exact hq
    · cases hplan
  obtain ⟨co, hissued, hside⟩ := State.issued_side hgate hupd
  have hmoved := Core.runCopy_side co (x.entryOf (x.co.advance x.st [w] x.c.tick.toNat) w p)
  rw [show (x.entryOf (x.co.advance x.st [w] x.c.tick.toNat) w p).block = b from rfl] at hmoved
  refine ⟨co.runCopy (x.entryOf (x.co.advance x.st [w] x.c.tick.toNat) w p), ?exec, ?moved, ?kept,
    (Core.runCopy_other_side ..).trans (hside _)⟩
  case exec =>
    rw [hexec, show (oneWord core 4 0x81 w (planCopy w)).ws = [w] from rfl, State.decay_nil,
      State.runLocal_copy (k := x.k) (by rw [hissued]; exact hcell) hopc, hissued]
    exact congrArg _ (State.modCore_setCore s core co _)
  case moved =>
    intro i hi
    rw [hmoved, memGet_memWrite_memRead hi, hside]
    rfl
  case kept =>
    intro a ha
    rw [hmoved, memGet_memWrite_out _ _ _ _ (by simp only [memRead, List.length_map, List.length_range]; omega), hside]
    rfl

end Sys2Proof.Machine
end

section
/-! PROOFS. What logging an event and accessing the HBM change, each said once: the relations `Logs` and `Media`, and that an access
leaves the bytes alone where the media hold no error (R369, R374, R577, R579). -/
namespace Sys2Proof.Machine
open Sys2Proof Sys2Proof.Claims

/-! Logging. -/

/-- The second state is the first but for what records in the log change. -/
def Logs (s t : State) : Prop :=
  ∃ fr o q e ss al ph, t = { s with
    free := fr, out := o, eths := q, evt := e, hst := { s.hst with sessions := ss }, pwr := { s.pwr with alert := al }, mgmt := { s.mgmt with patHour := ph } }

theorem Logs.refl (s : State) : Logs s s := ⟨_, _, _, _, _, _, _, rfl⟩

theorem Logs.trans {s t u : State} (h : Logs s t) (h' : Logs t u) : Logs s u := by
  obtain ⟨_, _, _, _, _, _, _, rfl⟩ := h
  obtain ⟨_, _, _, _, _, _, _, rfl⟩ := h'
  exact ⟨_, _, _, _, _, _, _, rfl⟩

theorem Logs.eq_logged {s t : State} (h : Logs s t) : t = logged s t := by
  obtain ⟨_, _, _, _, _, _, _, rfl⟩ := h
  rfl

theorem Mgmt.count_eq (m : Mgmt) (code : Nat) : ∃ ph, m.count code = { m with patHour := ph } := by
  unfold Mgmt.count
  split <;> exact ⟨_, rfl⟩

theorem State.logRecord_logs (s : State) (c k i l : Nat) (d : List Byte) : Logs s (s.logRecord c k i l d) := by
  unfold State.logRecord State.timeNow
  dsimp only
  obtain ⟨o, q, h⟩ := ({ s with free := s.free + 1 } : State).notify_eq
    ⟨(BitVec.ofBool (!s.ptp.everLock)) ++ (s.ptp.base + Config.clockNs s.free), BitVec.ofNat 16 c, sevOf c, k, i, l, d, s.evt.next⟩
  rw [h]
  exact ⟨_, _, _, _, _, _, _, rfl⟩

theorem State.log_logs (s : State) (code : Nat) (fs : List EvF) : Logs s (s.log code fs) := by
  obtain ⟨ph, hcount⟩ := s.mgmt.count_eq code
  have hcounted : Logs s { s with mgmt := s.mgmt.count code } := by
    rw [hcount]
    exact ⟨_, _, _, _, _, _, _, rfl⟩
  refine hcounted.trans ?_
  fun_cases State.log
  · exact State.logRecord_logs ..
  · exact ⟨_, _, _, _, _, _, _, rfl⟩
  · refine Logs.trans ?_ (State.logRecord_logs ..)
    exact ⟨_, _, _, _, _, _, _, rfl⟩

theorem State.timeNow_logs (s : State) : Logs s s.timeNow.2 := ⟨_, _, _, _, _, _, _, rfl⟩

/-! Accesses of the HBM. -/

/-- The second state is the first but for the HBM, its Plinths and what records in the log change. -/
def Media (s t : State) : Prop :=
  ∃ fr o q e ss al ph hb hp me pl, t = { s with
    free := fr, out := o, eths := q, evt := e, hst := { s.hst with sessions := ss }, pwr := { s.pwr with alert := al },
    mgmt := { s.mgmt with patHour := ph }, hbm := hb, hbmPois := hp, mediaErr := me, plinths := pl }

theorem Media.refl (s : State) : Media s s := ⟨_, _, _, _, _, _, _, _, _, _, _, rfl⟩

theorem Media.trans {s t u : State} (h : Media s t) (h' : Media t u) : Media s u := by
  obtain ⟨_, _, _, _, _, _, _, _, _, _, _, rfl⟩ := h
  obtain ⟨_, _, _, _, _, _, _, _, _, _, _, rfl⟩ := h'
  exact ⟨_, _, _, _, _, _, _, _, _, _, _, rfl⟩

theorem Logs.media {s t : State} (h : Logs s t) : Media s t := by
  obtain ⟨_, _, _, _, _, _, _, rfl⟩ := h
  exact ⟨_, _, _, _, _, _, _, _, _, _, _, rfl⟩

theorem Media.foldl {α : Type} {f : State → α → State} (hf : ∀ s x, Media s (f s x)) (l : List α) (s : State) : Media s (l.foldl f s) := by
  induction l generalizing s with
  | nil => exact Media.refl s
  | cons x l ih => exact (hf s x).trans (ih (f s x))

theorem Media.ite {p : Prop} [Decidable p] {s t u : State} (ht : Media s t) (hu : Media s u) : Media s (if p then t else u) := by
  split <;> assumption

section
variable (s : State)

theorem State.modPlinth_media (n : Nat) (f : Plinth → Plinth) : Media s (s.modPlinth n f) := ⟨_, _, _, _, _, _, _, _, _, _, _, rfl⟩

theorem State.hbmWrite_media (a : Nat) (b : List Byte) (p : Bool) : Media s (s.hbmWrite a b p) := ⟨_, _, _, _, _, _, _, _, _, _, _, rfl⟩

theorem State.sectorErr_media (src : Nat) (e : SectorErr) : Media s (s.sectorErr src e) := by
  unfold State.sectorErr
  dsimp only
  split
  · refine Media.trans ?_ (State.log_logs ..).media
    exact ⟨_, _, _, _, _, _, _, _, _, _, _, rfl⟩
  · exact ⟨_, _, _, _, _, _, _, _, _, _, _, rfl⟩

theorem State.meet_media (src : Nat) (p : SectorErr → Bool) : Media s (s.meet src p) := by
  refine Media.trans ?_ (Media.foldl (fun s e => s.sectorErr_media src e) _ _)
  exact ⟨_, _, _, _, _, _, _, _, _, _, _, rfl⟩

theorem State.touchLine_media (part : Nat) (write atomic : Bool) (line lo hi : Nat) : Media s (s.touchLine part write atomic line lo hi) := by
  unfold State.touchLine
  exact .ite (.refl s) ((State.meet_media ..).trans (State.modPlinth_media ..))

theorem State.touchWith_media (part : Nat → Nat) (a n : Nat) (write atomic : Bool) : Media s (s.touchWith part a n write atomic) := by
  unfold State.touchWith
  exact .ite (.refl s) (.foldl (fun s i => s.touchLine_media ..) _ _)

theorem State.touchPhys_media (a n : Nat) (write : Bool) : Media s (s.touchPhys a n write) := State.touchWith_media ..

theorem State.setValid_media (k v : Nat) : Media s (s.setValid k v) := by
  unfold State.setValid
  exact .ite (.refl s) ((State.touchPhys_media ..).trans (State.hbmWrite_media ..))

end

/-! Media without an error: an access leaves the bytes and the poison. -/

/-- Where the media of the first state hold no error, the second has its bytes, its poison marks and no error. -/
def Calm (s t : State) : Prop := s.mediaErr = [] → t.hbm = s.hbm ∧ t.hbmPois = s.hbmPois ∧ t.mediaErr = []

theorem Calm.refl (s : State) : Calm s s := fun h => ⟨rfl, rfl, h⟩

theorem Calm.trans {s t u : State} (h : Calm s t) (h' : Calm t u) : Calm s u := by
  intro hs
  obtain ⟨hb, hp, he⟩ := h hs
  obtain ⟨hb', hp', he'⟩ := h' he
  exact ⟨hb'.trans hb, hp'.trans hp, he'⟩

theorem Logs.calm {s t : State} (h : Logs s t) : Calm s t := by
  obtain ⟨_, _, _, _, _, _, _, rfl⟩ := h
  exact Calm.refl s

theorem Calm.foldl {α : Type} {f : State → α → State} (hf : ∀ s x, Calm s (f s x)) (l : List α) (s : State) : Calm s (l.foldl f s) := by
  induction l generalizing s with
  | nil => exact Calm.refl s
  | cons x l ih => exact (hf s x).trans (ih (f s x))

theorem Calm.ite {p : Prop} [Decidable p] {s t u : State} (ht : Calm s t) (hu : Calm s u) : Calm s (if p then t else u) := by
  split <;> assumption

section
variable (s : State)

theorem State.modPlinth_calm (n : Nat) (f : Plinth → Plinth) : Calm s (s.modPlinth n f) := fun h => ⟨rfl, rfl, h⟩

theorem State.meet_of_calm {s : State} (h : s.mediaErr = []) (src : Nat) (p : SectorErr → Bool) : s.meet src p = s := by
  cases s
  cases h
  rfl

theorem State.meet_calm (src : Nat) (p : SectorErr → Bool) : Calm s (s.meet src p) := by
  intro h
  rw [State.meet_of_calm h]
  exact ⟨rfl, rfl, h⟩

theorem State.touchLine_calm (part : Nat) (write atomic : Bool) (line lo hi : Nat) : Calm s (s.touchLine part write atomic line lo hi) := by
  unfold State.touchLine
  exact .ite (.refl s) ((State.meet_calm _ _ _).trans (State.modPlinth_calm _ _ _))

theorem State.touchWith_calm (part : Nat → Nat) (a n : Nat) (write atomic : Bool) : Calm s (s.touchWith part a n write atomic) := by
  unfold State.touchWith
  exact .ite (.refl s) (.foldl (fun s _ => s.touchLine_calm _ _ _ _ _ _) _ _)

theorem State.touchPhys_calm (a n : Nat) (write : Bool) : Calm s (s.touchPhys a n write) := s.touchWith_calm _ _ _ _ _

end

section
variable {s t : State} (h : Media s t)
include h

theorem Media.pending : t.pending = s.pending := by obtain ⟨_, _, _, _, _, _, _, _, _, _, _, rfl⟩ := h; rfl
theorem Media.cores : t.cores = s.cores := by obtain ⟨_, _, _, _, _, _, _, _, _, _, _, rfl⟩ := h; rfl
theorem Media.cells : t.cells = s.cells := by obtain ⟨_, _, _, _, _, _, _, _, _, _, _, rfl⟩ := h; rfl
theorem Media.ports : t.ports = s.ports := by obtain ⟨_, _, _, _, _, _, _, _, _, _, _, rfl⟩ := h; rfl
theorem Media.arm : t.arm = s.arm := by obtain ⟨_, _, _, _, _, _, _, _, _, _, _, rfl⟩ := h; rfl
theorem Media.cfg : t.cfg = s.cfg := by obtain ⟨_, _, _, _, _, _, _, _, _, _, _, rfl⟩ := h; rfl
theorem Media.gal : t.gal = s.gal := by obtain ⟨_, _, _, _, _, _, _, _, _, _, _, rfl⟩ := h; rfl
theorem Media.exp : t.exp = s.exp := by obtain ⟨_, _, _, _, _, _, _, _, _, _, _, rfl⟩ := h; rfl
theorem Media.snp : t.snp = s.snp := by obtain ⟨_, _, _, _, _, _, _, _, _, _, _, rfl⟩ := h; rfl
theorem Media.ptp : t.ptp = s.ptp := by obtain ⟨_, _, _, _, _, _, _, _, _, _, _, rfl⟩ := h; rfl
theorem Media.rst : t.rst = s.rst := by obtain ⟨_, _, _, _, _, _, _, _, _, _, _, rfl⟩ := h; rfl

theorem Media.core (n : Nat) : t.core n = s.core n := by unfold State.core; rw [h.cores]
theorem Media.cell (n : Nat) : t.cell n = s.cell n := by unfold State.cell; rw [h.cells]
theorem Media.port (n : Nat) : t.port n = s.port n := by unfold State.port; rw [h.ports]

end

end Sys2Proof.Machine
end

section
/-! PROOFS. TICK_DECISION: the end of the tick, the hold of a tick whose units are busy, the fetch and the decision (R243 to R273). -/
namespace Sys2Proof.Machine
open Sys2Proof Sys2Proof.Claims

/-! The cell through each step. -/

theorem foldl_modCore_cells (f : Core → Core) (l : List Nat) (s : State) : (l.foldl (fun s n => s.modCore n f) s).cells = s.cells := by
  induction l generalizing s with
  | nil => rfl
  | cons n l ih => exact ih (s.modCore n f)

theorem ended_cell (s : State) (k : Nat) :
    (ended s k).cell k = (s.cell k).endTick (decide (s.unissued (s.cell k) ≠ []) || (s.cell k).frozen.isSome) := by
  unfold ended State.cell
  rw [foldl_modCore_cells]
  exact State.setCell_cell ..

section
variable (c : Cell) (short : Bool)

@[simp] theorem Cell.endTick_run0 : (c.endTick short).run0 = c.run1 := rfl
@[simp] theorem Cell.endTick_run1 : (c.endTick short).run1 = c.run2 := rfl
@[simp] theorem Cell.endTick_step : (c.endTick short).step = c.step := rfl
@[simp] theorem Cell.endTick_prog : (c.endTick short).prog = c.prog := rfl
@[simp] theorem Cell.endTick_faults : (c.endTick short).faults = c.faults := rfl
@[simp] theorem Cell.endTick_ctx : (c.endTick short).ctx = c.ctx := rfl
@[simp] theorem Cell.endTick_holds : (c.endTick short).holds = c.holds := rfl

/-- A tick that ran ends with the counter one up. -/
theorem Cell.endTick_ran {c : Cell} (h : c.run0 = .run) : (c.endTick false).tick = c.tick + 1 ∧ (c.endTick false).held = c.held := by
  simp [Cell.endTick, h]

/-- A tick that was held, or that was cut short, ends with the counter as it was. -/
theorem Cell.endTick_held {c : Cell} {short : Bool} (h : c.run0 = .run → short = true) :
    (c.endTick short).tick = c.tick ∧ (c.endTick short).held = satAdd c.held 1 := by
  by_cases hrun : c.run0 = .run
  · simp [Cell.endTick, hrun, h hrun]
  · simp [Cell.endTick, hrun]

/-- A tick that was cut short counts as a unit tick. -/
theorem Cell.endTick_cut {c : Cell} (h : c.run0 = .run) : (c.endTick true).uh = c.uh + 1 := by
  simp [Cell.endTick, h]

end

/-- The hold of a tick whose units are busy touches the cell's decision for the tick, and what SCHED_HOLD shows. -/
theorem State.lateHold_eq (s : State) (k : Nat) :
    s.lateHold k = s ∨ ∃ cause l st, s.lateHold k = s.setCell k { (s.cell k).holdBy 0 cause l with run0 := st } := by
  fun_cases State.lateHold s k
  · exact .inr ⟨_, _, _, rfl⟩
  · exact .inl rfl
  · exact .inl rfl

theorem State.lateHold_of_none {s : State} {k : Nat} (h : s.missingUnit k (s.cell k).tick.toNat (s.cell k).cycle = none) :
    s.lateHold k = s := by
  unfold State.lateHold
  simp only [h, ite_self]

/-- What of a cell no decision for its ticks touches. -/
def SameWork (c d : Cell) : Prop :=
  d.tick = c.tick ∧ d.held = c.held ∧ d.uh = c.uh ∧ d.step = c.step ∧ d.prog = c.prog ∧ d.faults = c.faults ∧ d.ctx = c.ctx ∧ d.holds = c.holds

theorem State.lateHold_cell (s : State) (k : Nat) :
    SameWork (s.cell k) ((s.lateHold k).cell k) ∧ ((s.lateHold k).cell k).run1 = (s.cell k).run1 := by
  rcases s.lateHold_eq k with h | ⟨cause, l, st, h⟩
  · rw [h]
    exact ⟨⟨rfl, rfl, rfl, rfl, rfl, rfl, rfl, rfl⟩, rfl⟩
  · rw [h, State.setCell_cell]
    exact ⟨⟨rfl, rfl, rfl, rfl, rfl, rfl, rfl, rfl⟩, rfl⟩

theorem State.fetch_media (s : State) (k v : Nat) : Media s (s.fetch k v) := .foldl (fun s _ => s.touchPhys_media ..) _ _

theorem fetched_cell (s : State) (k : Nat) : (fetched s k).cell k = ((ended s k).lateHold k).cell k := by
  unfold fetched
  dsimp only
  split
  · rfl
  · exact (State.fetch_media ..).cell k

/-- Without an uncorrectable error in the words fetched there is no fault. -/
theorem fetchFault_of_good {s : State} {k : Nat} (h : badFetch s k = false) :
    ((ended s k).lateHold k).fetchFault k = fetched s k := by
  unfold badFetch at h
  unfold fetched at h ⊢
  unfold State.fetchFault
  dsimp only at h ⊢
  generalize (ended s k).lateHold k = u at h ⊢
  by_cases hb : (u.cell k).blocked = true
  · simp [hb]
  · simp only [hb, if_false, Bool.false_eq_true] at h ⊢
    have hgood : (u.fetch k ((u.cell k).tick.toNat + (u.cell k).ahead)).fetchBad k ((u.cell k).tick.toNat + (u.cell k).ahead) = none := by
      simpa [hb] using h
    rw [hgood]

/-- The decision for the tick two ahead leaves the work of the cell and the two decisions before it. -/
theorem State.decide2_cell (s : State) (k : Nat) (late : Option Nat) :
    SameWork (s.cell k) (s.decide2 k late) ∧ (s.decide2 k late).run0 = (s.cell k).run0 ∧ (s.decide2 k late).run1 = (s.cell k).run1 := by
  fun_cases State.decide2 s k late <;> exact ⟨⟨rfl, rfl, rfl, rfl, rfl, rfl, rfl, rfl⟩, rfl, rfl⟩

theorem State.unitHold_ne_run (s : State) (c : Cell) (st cause : Nat) : s.unitHold c st cause ≠ .run := by
  unfold State.unitHold
  split <;> decide

/-- The tick two ahead runs exactly where nothing holds it. -/
theorem State.decide2_runs_iff (s : State) (k : Nat) (late : Option Nat) :
    (s.decide2 k late).run2 = .run ↔ (s.cell k).blocked = false ∧
      s.missingToken (s.cell k) ((s.cell k).tick.toNat + (s.cell k).ahead) = none ∧ late = none ∧
      (s.foresee k).missingUnit k ((s.cell k).tick.toNat + (s.cell k).ahead) (8 * ((s.cell k).uticks + (s.cell k).uahead)) = none := by
  unfold State.decide2
  dsimp only
  by_cases hb : (s.cell k).blocked = true
  · simp [hb]
  · simp only [hb, if_false, Bool.false_eq_true, true_and]
    cases s.missingToken (s.cell k) ((s.cell k).tick.toNat + (s.cell k).ahead) with
    | some lt => simp
    | none =>
      cases late with
      | some l => simp
      | none =>
        cases (s.foresee k).missingUnit k ((s.cell k).tick.toNat + (s.cell k).ahead) (8 * ((s.cell k).uticks + (s.cell k).uahead)) with
        | some u => simp [State.unitHold_ne_run]
        | none => simp

/-! TICK_DECISION. -/

theorem execTickDecision_of_ends : tickDecisionSteps := by
  intro cell late s ⟨hop, hexists, hbusy⟩ t
  have hguard : (s.operational && (s.cell cell).exists_ && !(s.tickBusy (s.cell cell))) = true := by simp [hop, hexists, hbusy]
  simp only [exec, execTickDecision, hguard, if_true]
  rfl

/-- TICK_DECISION without a fetch that faults. -/
theorem execTickDecision_of_good {s : State} {cell : Fin 16} (late : Option (Fin 48)) (hends : Ends s cell) (hgood : badFetch s cell = false) :
    exec (.tickDecision cell late) s =
      .next ((fetched s cell).setCell cell ((fetched s cell).decide2 cell (late.map (·.val)))) := by
  rw [execTickDecision_of_ends cell late s hends, fetchFault_of_good hgood]

theorem SameWork.trans {a b c : Cell} (h : SameWork a b) (h' : SameWork b c) : SameWork a c := by
  obtain ⟨h1, h2, h3, h4, h5, h6, h7, h8⟩ := h
  obtain ⟨g1, g2, g3, g4, g5, g6, g7, g8⟩ := h'
  exact ⟨g1.trans h1, g2.trans h2, g3.trans h3, g4.trans h4, g5.trans h5, g6.trans h6, g7.trans h7, g8.trans h8⟩

/-- The cell that a tick leaves whose fetch does not fault: its work as the end of the tick has it, and the decisions moved up. -/
theorem decided_cell (s : State) (k : Nat) (late : Option Nat) :
    SameWork ((s.cell k).endTick (decide (s.unissued (s.cell k) ≠ []) || (s.cell k).frozen.isSome)) ((fetched s k).decide2 k late) ∧
      ((fetched s k).decide2 k late).run0 = (((ended s k).lateHold k).cell k).run0 ∧
      ((fetched s k).decide2 k late).run1 = (s.cell k).run2 := by
  obtain ⟨hhold, hnext⟩ := (ended s k).lateHold_cell k
  obtain ⟨hwork, hrun0, hrun1⟩ := (fetched s k).decide2_cell k late
  rw [ended_cell] at hhold hnext
  rw [fetched_cell] at hwork hrun0 hrun1
  exact ⟨hhold.trans hwork, hrun0, hrun1.trans hnext⟩

/-- Settles O14: the cell through the end of its tick, the hold for a busy unit and the fetch, and the decision about it. -/
theorem tickDecisionDecides : Obligations.TickDecisionDecides := by
  intro cell late s hends hgood c ran u v w
  obtain ⟨⟨htick, hheld, -, hstep, hprog, hfaults, hctx, hholds⟩, hrun0, hrun1⟩ := decided_cell s cell (late.map (·.val))
  refine ⟨_, execTickDecision_of_good late hends hgood, ?ran, ?held, hrun0, ?free, hrun1, ?run2, hstep, hprog, hfaults, hctx, hholds⟩
  case ran =>
    intro ⟨hrun, hun, hfrozen⟩
    have hshort : (decide (s.unissued (s.cell cell) ≠ []) || (s.cell cell).frozen.isSome) = false := by
      simp [show s.unissued (s.cell cell) = [] from hun, show (s.cell cell).frozen = none from hfrozen]
    rw [htick, hheld, hshort]
    exact Cell.endTick_ran hrun
  case held =>
    intro hnot
    rw [htick, hheld]
    refine Cell.endTick_held fun hrun => ?_
    by_contra hshort
    simp only [Bool.or_eq_true, decide_eq_true_eq, not_or, not_not, Bool.not_eq_true, Option.isSome_eq_false_iff,
      Option.isNone_iff_eq_none] at hshort
    exact hnot ⟨hrun, hshort⟩
  case free =>
    intro hnone
    rw [htick, ← ended_cell] at hnone
    rw [hrun0, State.lateHold_of_none hnone, ended_cell, Cell.endTick_run0]
  case run2 =>
    rw [State.decide2_runs_iff, fetched_cell, Option.map_eq_none_iff]

/-- A tick that was to run and did not issue all its instructions passes as one held for a unit (R94, R254, R271). -/
theorem execTickDecision_of_short : tickHeldForUnit := by
  intro cell late s hends hrun hshort hgood
  obtain ⟨⟨htick, hheld, huh, -⟩, -⟩ := decided_cell s cell (late.map (·.val))
  have hcut : (decide (s.unissued (s.cell cell) ≠ []) || (s.cell cell).frozen.isSome) = true := by
    simpa [Option.isSome_iff_ne_none] using hshort
  rw [hcut] at htick hheld huh
  obtain ⟨htick', hheld'⟩ := Cell.endTick_held (c := s.cell cell) (short := true) fun _ => rfl
  exact ⟨_, execTickDecision_of_good late hends hgood, htick.trans htick', huh.trans (Cell.endTick_cut hrun), hheld.trans hheld'⟩

end Sys2Proof.Machine
end

section

/-! PROOFS. The completion of an instruction (O15). -/

namespace Sys2Proof.Machine

open Sys2Proof Sys2Proof.Claims

/-- The second core differs from the first in its memories, their poison and the sticky flags alone. -/
def Core.MemOnly (a b : Core) : Prop :=
  b = { a with store := b.store, storePois := b.storePois, treg := b.treg, tregPois := b.tregPois, flg := b.flg }

theorem Core.MemOnly.refl (a : Core) : a.MemOnly a := rfl

theorem Core.MemOnly.trans {a b c : Core} (h₁ : a.MemOnly b) (h₂ : b.MemOnly c) : a.MemOnly c := by
  unfold Core.MemOnly at *
  rw [h₂, h₁]

section
variable {a b : Core}

theorem Core.MemOnly.inflight (h : a.MemOnly b) : b.inflight = a.inflight := by rw [h]
theorem Core.MemOnly.ptr (h : a.MemOnly b) : b.ptr = a.ptr := by rw [h]
theorem Core.MemOnly.ord (h : a.MemOnly b) : b.ord = a.ord := by rw [h]
theorem Core.MemOnly.arrays (h : a.MemOnly b) : b.arrays = a.arrays := by rw [h]
theorem Core.MemOnly.mvu (h : a.MemOnly b) : b.mvu = a.mvu := by rw [h]

theorem Core.MemOnly.token (h : a.MemOnly b) (t : Nat) : b.token t = a.token t := by
  rw [h]
  rfl

end

/-! Pending writes made. -/

/-- One pending write made, in the core store or in the tile registers. -/
def Core.put (co : Core) (p : Put) : Core :=
  if p.tile then co.twrite p.addr p.bytes p.pois else co.write p.addr p.bytes p.pois

theorem Core.put_memOnly (co : Core) (p : Put) : co.MemOnly (co.put p) := by
  unfold Core.put
  split <;> rfl

theorem Core.puts_memOnly (ps : List Put) : ∀ co : Core, co.MemOnly (ps.foldl Core.put co) := by
  induction ps with
  | nil => exact fun co => .refl co
  | cons p ps ih => exact fun co => (co.put_memOnly p).trans (ih _)

theorem Core.land_memOnly (co : Core) (e : Entry) (hb : e.bits = []) : co.MemOnly (co.land e) := by
  have h := Core.puts_memOnly e.allPuts co
  unfold Core.land
  rw [hb]
  exact h.trans rfl

theorem Core.puts_flg (ps : List Put) : ∀ co : Core, (ps.foldl Core.put co).flg = co.flg := by
  induction ps with
  | nil => exact fun _ => rfl
  | cons p ps ih =>
    intro co
    rw [List.foldl_cons, ih]
    unfold Core.put
    split <;> rfl

theorem Core.land_flg (co : Core) (e : Entry) (hb : e.bits = []) : (co.land e).flg = co.flg := by
  unfold Core.land
  rw [hb]
  exact Core.puts_flg e.allPuts co

/-- A byte outside a write keeps its value. -/
theorem Core.put_side_out (co : Core) (p : Put) (tile : Bool) (a : Nat)
    (h : p.tile = tile → a < p.addr ∨ p.addr + p.bytes.length ≤ a) :
    memGet (side (co.put p) tile) a = memGet (side co tile) a := by
  unfold Core.put
  cases ht : p.tile with
  | true =>
    cases tile with
    | true => exact memGet_memWrite_out _ _ _ _ (by have := h ht; omega)
    | false => rfl
  | false =>
    cases tile with
    | true => rfl
    | false => exact memGet_memWrite_out _ _ _ _ (by have := h ht; omega)

theorem Core.puts_side_out (tile : Bool) (a : Nat) (ps : List Put) : ∀ co : Core, Outside ps tile a →
    memGet (side (ps.foldl Core.put co) tile) a = memGet (side co tile) a := by
  induction ps with
  | nil => exact fun _ _ => rfl
  | cons p ps ih =>
    intro co h
    rw [List.foldl_cons, ih _ (fun q hq => h q (List.mem_cons_of_mem p hq)),
      co.put_side_out p tile a (h p List.mem_cons_self)]

theorem Core.land_side_out (co : Core) (e : Entry) (tile : Bool) (a : Nat) (hb : e.bits = [])
    (h : Outside e.allPuts tile a) : memGet (side (co.land e) tile) a = memGet (side co tile) a := by
  rw [← Core.puts_side_out tile a e.allPuts co h]
  unfold Core.land
  rw [hb]
  cases tile <;> rfl

/-! The record written. -/

theorem length_recordBytes (e : Entry) (step : Nat) : (recordBytes e step).length = 64 := by
  simp [recordBytes, List.length_flatMap]

theorem Core.record_memOnly (co : Core) (e : Entry) (step : Nat) : co.MemOnly (co.record e step) := by
  unfold Core.record
  dsimp only
  split <;> rfl

theorem Core.record_flg (co : Core) (e : Entry) (step : Nat) :
    (co.record e step).flg = co.flg ||| BitVec.ofNat 12 e.flags := by
  unfold Core.record
  dsimp only
  split <;> rfl

theorem Core.record_treg (co : Core) (e : Entry) (step : Nat) : (co.record e step).treg = co.treg := by
  unfold Core.record
  dsimp only
  split <;> rfl

theorem Core.record_written (co : Core) (e : Entry) (step : Nat) (h : wOpc e.word ≠ 1) :
    memRead (co.record e step).store (recordAddr e.stream e.ord) 64 = recordBytes e step := by
  have hlen := length_recordBytes e step
  unfold Core.record
  rw [if_neg h]
  have hrw := memRead_memWrite co.store (recordAddr e.stream e.ord) (recordBytes e step)
  rwa [hlen] at hrw

theorem Core.record_store_out (co : Core) (e : Entry) (step a : Nat)
    (h : wOpc e.word = 1 ∨ a < recordAddr e.stream e.ord ∨ recordAddr e.stream e.ord + 64 ≤ a) :
    memGet (co.record e step).store a = memGet co.store a := by
  have hlen := length_recordBytes e step
  unfold Core.record
  dsimp only
  split
  · rfl
  · exact memGet_memWrite_out _ _ _ _ (by omega)

/-! The post landed. -/

theorem Core.addToken_token_same (co : Core) (t n : Nat) (ht : t ≠ 0) (ho : co.tokenOvf t n = false) :
    (co.addToken t n).token t = co.token t + n := by
  have hle : co.token t + n ≤ 255 := by
    have h := of_decide_eq_false ho
    omega
  have hsame : (co.addToken t n).token t = min 255 (co.token t + n) := by
    simp [Core.addToken, Core.token, ht, tabGet_tabSet]
  rw [hsame, min_eq_right hle]

theorem Core.addToken_token_ne (co : Core) (t n u : Nat) (hu : u ≠ t) : (co.addToken t n).token u = co.token u := by
  unfold Core.addToken
  split
  · rfl
  · simp [Core.token, tabGet_tabSet_ne _ _ _ _ _ hu]

/-- A post that lands changes, beside its token, only what the tags and the post numbers keep. -/
theorem Core.postOwn_frame (co : Core) (e : Entry) :
    (co.postOwn e).flg = co.flg ∧ (co.postOwn e).inflight = co.inflight ∧ (co.postOwn e).store = co.store ∧
      (co.postOwn e).treg = co.treg ∧ (co.postOwn e).ptr = co.ptr ∧ (co.postOwn e).ord = co.ord ∧
      (co.postOwn e).arrays = co.arrays ∧ (co.postOwn e).mvu = co.mvu ∧
      ∀ t, (co.postOwn e).token t = (co.addToken e.postTok 1).token t := by
  unfold Core.postOwn
  dsimp only
  by_cases ht : e.postTok = 0
  · cases e.fixed <;> simp [Core.untag, Core.addToken, Core.token, ht]
  · cases e.fixed <;> simp [Core.untag, Core.addToken, Core.token, ht]

/-! The completion of an entry without a further effect. -/

/-- What the completion of a plain entry leaves of its core. -/
def Core.plainDone (co : Core) (e : Entry) (cyc step : Nat) : Core :=
  ((((co.captureRows cyc).land e).record e step).dropEntry e.stream e.ord).postOwn e

/-- What the record says of LONGSUM, poison and arrival order, for the next step receipt (R238). -/
def Entry.seen (e : Entry) : Nat :=
  4 * (e.status / 2 % 2) + 8 * b2n (e.flags &&& fLONGSUM != 0) + 16 * b2n (e.flags &&& fPOISON != 0)

theorem State.complete_plain {s : State} {k n : Nat} {e : Entry} (hp : Entry.plain e) (hk : s.cellOf n = some k)
    (ho : (s.core n).tokenOvf e.postTok 1 = false) :
    s.complete k n e = { s with snp := { s.snp with rcFlags := s.snp.rcFlags ||| e.seen } }.setCore n
      ((s.core n).plainDone e (if (s.cell k).advances then (s.cell k).cycle + 8 else (s.cell k).cycle)
        (s.cell k).step.toNat) := by
  obtain ⟨hpend, harr, hmvu, hbad, hrel, hper, hev, hbits, hend⟩ := hp
  generalize hcyc : (if (s.cell k).advances then (s.cell k).cycle + 8 else (s.cell k).cycle) = cyc
  have hmem : ((s.core n).captureRows cyc).MemOnly
      ((((s.core n).captureRows cyc).land e).record e (s.cell k).step.toNat) :=
    (Core.land_memOnly _ e hbits).trans (Core.record_memOnly _ e _)
  have hovf : ((((s.core n).captureRows cyc).land e).record e (s.cell k).step.toNat).tokenOvf e.postTok 1 = false := by
    rw [← ho]
    unfold Core.tokenOvf
    rw [hmem.token]
    rfl
  have hfin : ((s.modCore n (fun co => co.captureRows cyc)).finish n e) =
      { s with snp := { s.snp with rcFlags := s.snp.rcFlags ||| e.seen } }.setCore n
        ((s.core n).plainDone e cyc (s.cell k).step.toNat) := by
    have hk' : (s.modCore n (fun co => co.captureRows cyc)).cellOf n = some k := hk
    unfold State.finish
    rw [hk']
    have hcell : (s.modCore n (fun co => co.captureRows cyc)).cell k = s.cell k := rfl
    simp only [State.modCore_core, hcell, hovf, Bool.false_eq_true, if_false]
    exact State.setCore_setCore { s with snp := { s.snp with rcFlags := s.snp.rcFlags ||| e.seen } } n _ _
  unfold State.complete
  dsimp only
  rw [hcyc, hpend, harr]
  simp only [hmvu, State.checkEvents, hbad, List.foldl_nil, State.freeTile, hrel, State.endInstr, hper,
    State.endEvents, hev, List.any_nil, Bool.and_false, Entry.withTaint, hend, Option.isSome_none, ite_self,
    Bool.false_and, Bool.false_eq_true, if_false]
  exact hfin

theorem execInstrComplete_of_completes {s : State} {core : Fin 48} {stream : Fin 6} {k : Nat} {e : Entry}
    (h : Completes s core stream k e) : exec (.instrComplete core stream) s = .next (s.complete k core e) := by
  obtain ⟨hk, hop, hst, hfind, hset⟩ := h
  have hst' : (stream == 4) = false := beq_false_of_ne (fun hc => hst (by rw [hc]; rfl))
  show execInstrComplete core stream s = _
  unfold execInstrComplete
  rw [hk]
  simp only [hop, hst', Bool.not_true, Bool.or_false, Bool.false_eq_true, if_false]
  rw [hfind]
  simp only [hset, if_true]

/-- Settles O15: a plain completion is the writes, the record, the entry dropped and the post, one after another. -/
theorem instrCompleteWritesAndPosts : Obligations.InstrCompleteWritesAndPosts := by
  unfold Obligations.InstrCompleteWritesAndPosts
  intro core stream s k e hc hp ho cyc
  obtain ⟨-, -, -, -, -, -, -, hbits, -⟩ := id hp
  obtain ⟨hflg, hinf, hstore, htreg, hptr, hord, harr, hmvu, htok⟩ := Core.postOwn_frame
    (((((s.core core).captureRows cyc).land e).record e (s.cell k).step.toNat).dropEntry e.stream e.ord) e
  have hmem : ((s.core core).captureRows cyc).MemOnly
      ((((s.core core).captureRows cyc).land e).record e (s.cell k).step.toNat) :=
    (Core.land_memOnly _ e hbits).trans (Core.record_memOnly _ e _)
  have htoken (t : Nat) : (((((s.core core).captureRows cyc).land e).record e (s.cell k).step.toNat).dropEntry
      e.stream e.ord).token t = (s.core core).token t := hmem.token t
  refine ⟨(s.core core).plainDone e cyc (s.cell k).step.toNat, { s.snp with rcFlags := s.snp.rcFlags ||| e.seen },
    ?_, rfl, ?_, ?_, ?_, ?_, ?_, ?_, ?_, ?_, ?_, ?_, ?_⟩
  · rw [execInstrComplete_of_completes hc, State.complete_plain hp hc.1 ho]
  · calc ((s.core core).plainDone e cyc (s.cell k).step.toNat).flg
        = ((((s.core core).captureRows cyc).land e).record e (s.cell k).step.toNat).flg := hflg
      _ = _ := by rw [Core.record_flg, Core.land_flg _ e hbits]; rfl
  · refine hinf.trans ?_
    unfold Core.dropEntry
    dsimp only
    rw [hmem.inflight]
  · intro hnop
    refine (congrArg (memRead · _ 64) hstore).trans ?_
    exact Core.record_written _ e _ hnop
  · intro a ha hr
    refine (congrArg (memGet · a) hstore).trans ?_
    exact (Core.record_store_out _ e _ a hr).trans (Core.land_side_out _ e false a hbits ha)
  · intro a ha
    refine (congrArg (memGet · a) htreg).trans ?_
    refine (congrArg (memGet · a) (Core.record_treg _ e _)).trans ?_
    exact Core.land_side_out _ e true a hbits ha
  · intro ht
    have hovf : (((((s.core core).captureRows cyc).land e).record e (s.cell k).step.toNat).dropEntry
        e.stream e.ord).tokenOvf e.postTok 1 = false := by
      rw [← ho]
      unfold Core.tokenOvf
      rw [htoken]
    exact (htok _).trans ((Core.addToken_token_same _ _ _ ht hovf).trans (by rw [htoken]))
  · intro t ht
    exact (htok t).trans ((Core.addToken_token_ne _ _ _ _ ht).trans (htoken t))
  · exact hptr.trans hmem.ptr
  · exact hord.trans hmem.ord
  · exact harr.trans hmem.arrays
  · exact hmvu.trans hmem.mvu

end Sys2Proof.Machine

end

section

/-! PROOFS. The fault of a cell (O16). -/

namespace Sys2Proof.Machine

open Sys2Proof Sys2Proof.Claims

/-- The cell with one more outstanding fault, held; FLT_CAUSE takes the code of the first (R472, R473). -/
def Cell.withFault (c : Cell) (code lcore stream ord : Nat) (res : Bool) : Cell :=
  let sc := if stream = 7 then Config.code 19 else stream
  let cause := BitVec.ofNat 25 (code % 65536 + lcore % 64 * 65536 + sc % 8 * 4194304)
  { c with faults := c.faults ++ [⟨BitVec.ofNat 16 code, lcore, stream, ord, res⟩],
           cause := if c.faults = [] then cause else c.cause, holds := { c.holds with fault := true } }

theorem State.setCell_setCell (s : State) (k : Nat) (c d : Cell) : (s.setCell k c).setCell k d = s.setCell k d := by
  simp only [State.setCell, tabSet_tabSet]

theorem State.fault_of_resolvable {s : State} {k : Nat} (hctx : (s.cell k).ctx = 0) (code lcore stream ord : Nat) :
    s.fault k code lcore stream ord true =
      s.setCell k { (s.cell k).withFault code lcore stream ord true with ctx := 1 } := by
  unfold State.fault
  simp only [hctx]
  exact s.setCell_setCell k _ _

theorem State.fault_of_unresolvable {s : State} {k : Nat} (hctx : (s.cell k).ctx = 0) (harea : (s.cell k).areaOk = true)
    (code lcore stream ord : Nat) :
    s.fault k code lcore stream ord false =
      (s.setCell k { (s.cell k).withFault code lcore stream ord false with
        ctx := 2, pcause := (s.cell k).preemptCause 1 }).setValid k 1 := by
  have harea' : ((s.setCell k ((s.cell k).withFault code lcore stream ord false)).cell k).areaOk = true := by
    rw [State.setCell_cell]
    exact harea
  have hstart : (s.setCell k ((s.cell k).withFault code lcore stream ord false)).startPreempt k
      ((s.cell k).preemptCause 1) = (s.setCell k { (s.cell k).withFault code lcore stream ord false with
        ctx := 2, pcause := (s.cell k).preemptCause 1 }).setValid k 1 := by
    unfold State.startPreempt
    rw [if_pos harea']
    unfold State.modCell
    rw [State.setCell_cell]
    exact congrArg (State.setValid · k 1) (s.setCell_setCell k _ _)
  rw [← hstart]
  unfold State.fault
  dsimp only
  rw [if_neg (by rw [hctx]; decide), if_neg (by rw [hctx]; decide), if_neg (by decide)]
  rfl

/-- VALID of an image, written, changes no other byte of HBM where the media hold no error. -/
theorem State.setValid_hbm_out {s : State} (hm : s.mediaErr = []) (k v a : Nat) (ha : a ≠ (s.cell k).area.toNat + 6) :
    memGet (s.setValid k v).hbm a = memGet s.hbm a := by
  unfold State.setValid
  dsimp only
  split
  · rfl
  · obtain ⟨hb, -, -⟩ := s.touchPhys_calm ((s.cell k).area.toNat + 6) 1 true hm
    refine (memGet_memWrite_out _ _ _ _ ?_).trans (congrArg (memGet · a) hb)
    rw [length_leBytes]
    omega

/-- Settles O16: a resolvable fault sets one cell; an unresolvable one also writes VALID of its image. -/
theorem faultHoldsOrPreempts : Obligations.FaultHoldsOrPreempts := by
  unfold Obligations.FaultHoldsOrPreempts
  intro s k code lcore stream ord fs res hctx harea t r
  have hcell : (s.log code fs).cell k = s.cell k := s.log_cell code fs k
  have hctx' : ((s.log code fs).cell k).ctx = 0 := by rw [hcell, hctx]
  have harea' : ((s.log code fs).cell k).areaOk = true := by rw [hcell, harea]
  cases res with
  | true =>
    have ht : t = (s.log code fs).setCell k { (s.cell k).withFault code lcore stream ord true with ctx := 1 } := by
      rw [← hcell]
      exact State.fault_of_resolvable hctx' code lcore stream ord
    rw [ht]
    simp only [State.setCell_cell]
    refine ⟨rfl, rfl, rfl, fun hne => if_neg hne, rfl, rfl, ?_, s.log_cores code fs, s.log_exp code fs, s.log_ports code fs, ?_⟩
    · exact fun j hj => (State.setCell_cell_ne _ _ _ _ hj).trans (s.log_cell code fs j)
    · exact fun _ a _ => congrArg (memGet · a) (s.log_hbm code fs)
  | false =>
    have ht : t = ((s.log code fs).setCell k { (s.cell k).withFault code lcore stream ord false with
        ctx := 2, pcause := (s.cell k).preemptCause 1 }).setValid k 1 := by
      rw [← hcell]
      exact State.fault_of_unresolvable hctx' harea' code lcore stream ord
    rw [ht]
    have hmedia := fun u : State => State.setValid_media (s := u) k 1
    simp only [(hmedia _).cell, (hmedia _).cores, (hmedia _).exp, (hmedia _).ports, State.setCell_cell]
    refine ⟨rfl, rfl, rfl, fun hne => if_neg hne, rfl, rfl, ?_, s.log_cores code fs, s.log_exp code fs, s.log_ports code fs, ?_⟩
    · exact fun j hj => (State.setCell_cell_ne _ _ _ _ hj).trans (s.log_cell code fs j)
    · intro hm a ha
      refine (State.setValid_hbm_out ?_ k 1 a ?_).trans ?_
      · exact (s.log_mediaErr code fs).trans hm
      · rw [State.setCell_cell]
        exact ha
      · exact congrArg (memGet · a) (s.log_hbm code fs)

end Sys2Proof.Machine

end

section

/-! PROOFS. The other events of the schedule (O17). -/

namespace Sys2Proof.Machine

open Sys2Proof Sys2Proof.Claims

theorem execSchedStall_of_held : schedStallDoes := by
  intro cell s hop hex hb h0 h1 h2
  show execSchedStall cell s = _
  unfold execSchedStall
  have hguard : (s.operational && (s.cell cell).exists_ && !(s.cell cell).blocked &&
      decide ((s.cell cell).run0 ≠ .run ∧ (s.cell cell).run1 ≠ .run ∧ (s.cell cell).run2 ≠ .run)) = true := by
    rw [hop, hex, hb, decide_eq_true ⟨h0, h1, h2⟩]
    rfl
  exact if_pos hguard

theorem execArrayStreamStart_of_first : arrayStreamStartDoes := by
  intro core arr s k e hk hdebug hfind hadv hstart hfirst
  show execArrayStreamStart core arr s = _
  unfold execArrayStreamStart
  dsimp only
  split
  next k' e' hk' he' =>
    obtain rfl : k' = k := Option.some.inj (hk'.symm.trans hk)
    obtain rfl : e' = e := Option.some.inj (he'.symm.trans hfind)
    rw [if_pos ⟨hadv, hstart, hfirst⟩, if_neg (by rw [hdebug]; decide)]
  next hno => exact absurd hfind (hno k e hk)

theorem execDmaComplete_of_done : dmaCompleteDoes := by
  intro core ord s e he hdone hfault hop s1
  show execDmaComplete core ord s = _
  unfold execDmaComplete
  simp only [he, hdone, hfault, hop, Bool.not_true, Bool.or_self, Bool.false_eq_true, if_false]
  rfl

theorem execInstrComplete_completes : instrCompleteDoes := fun _ _ _ _ _ h => execInstrComplete_of_completes h

theorem execPlinthWriteAck_of_waits : plinthWriteAckDoes := by
  intro core stream s e hfind
  show execPlinthWriteAck core stream s = _
  unfold execPlinthWriteAck
  simp only [hfind]
  rfl

/-! HOME lines. -/

/-- The line of a HOME write may go now: it is finished, and its cell is not being saved (R152, R254). -/
def HomeReady (s : State) (k : Nat) (h : HomeWrite) : Prop := (s.cell k).finished h = true ∧ (s.cell k).ctx.toNat ≤ 2

theorem HomeReady.not_held {s : State} {k : Nat} {h : HomeWrite} (hr : HomeReady s k h) :
    ¬ ((!(s.cell k).finished h) = true ∨ 2 < (s.cell k).ctx.toNat) := by
  obtain ⟨hfin, hctx⟩ := hr
  rw [hfin]
  simp only [Bool.not_true, Bool.false_eq_true, false_or]
  omega

theorem execHomeLineWrite_of_skip : homeLineSkipDoes := by
  intro core stream s k e h rest hk hfind hhome hfin hctx hreason
  have hready := HomeReady.not_held (s := s) ⟨hfin, hctx⟩
  show execHomeLineWrite core stream s = _
  unfold execHomeLineWrite
  rw [hk, hfind]
  dsimp only
  rw [hhome]
  dsimp only
  rw [if_neg hready, if_pos hreason]

theorem execHomeLineWrite_of_write : homeLineWriteDoes := by
  intro core stream s s1 s2 k a part em e h rest hk hfind hhome hfin hctx hreason hx hw
  have hready := HomeReady.not_held (s := s) ⟨hfin, hctx⟩
  show execHomeLineWrite core stream s = _
  unfold execHomeLineWrite
  rw [hk, hfind]
  dsimp only
  rw [hhome]
  dsimp only
  rw [if_neg hready, if_neg (not_not.mpr hreason), hx]
  dsimp only
  rw [hw]

theorem execHomeLineWrite_of_fault : homeLineFaults := by
  intro core stream s s1 k er e h rest hk hfind hhome hfin hctx hreason hx
  have hready := HomeReady.not_held (s := s) ⟨hfin, hctx⟩
  show execHomeLineWrite core stream s = _
  unfold execHomeLineWrite
  rw [hk, hfind]
  dsimp only
  rw [hhome]
  dsimp only
  rw [if_neg hready, if_neg (not_not.mpr hreason), hx]

/-! STEP_END_ARRIVE_READY. -/

/-- Every participating cell stands at its STEP_END, and the device has not arrived yet: the guard of the arrival (R258). -/
theorem arriveReady_guard {s : State} (hop : s.operational = true) (hcells : s.rdvCells 0 ≠ [])
    (hsent : (s.rdvAt 0).sentArrive = false)
    (hdrained : ∀ k ∈ s.rdvCells 0, (s.cell k).released = false ∧ s.cellDrained (s.cell k) = true) :
    (s.operational && (!(s.rdvCells 0).isEmpty && !(s.rdvAt 0).sentArrive &&
      (s.rdvCells 0).all (fun k => !(s.cell k).released && s.cellDrained (s.cell k)))) = true := by
  have hne : (s.rdvCells 0).isEmpty = false := List.isEmpty_eq_false_iff.mpr hcells
  have hall : (s.rdvCells 0).all (fun k => !(s.cell k).released && s.cellDrained (s.cell k)) = true := by
    rw [List.all_eq_true]
    intro k hk
    obtain ⟨hrel, hdr⟩ := hdrained k hk
    rw [hrel, hdr]
    rfl
  rw [hop, hne, hsent, hall]
  rfl

theorem execStepEndArriveReady_compares : stepEndCompares := by
  intro s c hop hcells hsent hdrained hdue hcmp
  show execStepEndArriveReady s = _
  unfold execStepEndArriveReady
  dsimp only
  rw [if_pos (arriveReady_guard hop hcells hsent hdrained), if_pos hdue, hcmp]

theorem execStepEndArriveReady_arrives : stepEndArriveReadyDoes := by
  intro s hop hcells hsent hdrained hdue
  show execStepEndArriveReady s = _
  unfold execStepEndArriveReady
  dsimp only
  rw [if_pos (arriveReady_guard hop hcells hsent hdrained), if_neg (by rw [hdue]; decide)]

/-- Settles O17: one lemma for each event. -/
theorem scheduleEventsTakeEffect : Obligations.ScheduleEventsTakeEffect :=
  ⟨execTickDecision_of_ends, execTickDecision_of_short, execSchedStall_of_held, execArrayStreamStart_of_first,
    execInstrComplete_completes, execDmaComplete_of_done, execPlinthWriteAck_of_waits, execHomeLineWrite_of_skip,
    execHomeLineWrite_of_write, execHomeLineWrite_of_fault, execStepEndArriveReady_arrives, execStepEndArriveReady_compares⟩

end Sys2Proof.Machine

end

section

/-! PROOFS. Calipers retries (O18). -/

namespace Sys2Proof.Machine

open Sys2Proof Sys2Proof.Claims

/-- The errors of the trees on a judged instruction decide what CAL_RETRY_START does (R211, R216). -/
theorem execCalRetryStart_of_judged {core : Fin 48} {arr : Fin 4} {s : State} {k : Nat} {e : Entry} {o : ArrOp}
    (h : Judged s core arr k e o) (errs : List TreeErr) :
    exec (.calRetryStart core arr errs) s =
      match Claims.firstBad s core e o (e.errsFrom o errs (s.cell k).cycle) with
      | none => .next (s.setCore core ((s.core core).modEntry e.stream e.ord
          (fun x => { x with errs := e.errsFrom o errs (s.cell k).cycle })))
      | some row =>
        let r := if o.opc = 0x14 then 32 * (row / 32) else row
        .next (s.setCore core (if e.point.isSome then
            (s.core core).startPointRetry e o (e.wset.reload (s.feedCore core e)) r (e.errsFrom o errs (s.cell k).cycle)
          else (s.core core).startRetry e o r (e.errsFrom o errs (s.cell k).cycle))) := by
  obtain ⟨hk, hfind, hop, hadv, hissued⟩ := h
  show execCalRetryStart core arr errs s = _
  unfold execCalRetryStart
  dsimp only
  split
  next k' e' hk' he' =>
    obtain rfl : k' = k := Option.some.inj (hk'.symm.trans hk)
    obtain rfl : e' = e := Option.some.inj (he'.symm.trans hfind)
    rw [hop]
    dsimp only
    rw [hadv, hissued]
    rfl
  next hno => exact absurd hfind (hno k e hk)

theorem execCalRetryStart_none : calRetryNone := by
  intro core arr errs s k e o hj es hbad
  rw [execCalRetryStart_of_judged hj, show Claims.firstBad s core e o (e.errsFrom o errs (s.cell k).cycle) = none from hbad]

theorem execCalRetryStart_starts : calRetryStartDoes := by
  intro core arr errs s k row e o hj es r ws hbad hpoint
  rw [execCalRetryStart_of_judged hj, show Claims.firstBad s core e o (e.errsFrom o errs (s.cell k).cycle) = some row from hbad]
  dsimp only
  rw [if_neg (by rw [hpoint]; decide)]
  rfl

theorem execCalRetryStart_pointing : calRetryStartPointing := by
  intro core arr errs s k row e o hj es r d hbad hpoint
  refine ⟨(s.core core).startPointRetry e o (e.wset.reload (s.feedCore core e)) r es, ?_, rfl, rfl, ?_, rfl, rfl⟩
  · rw [execCalRetryStart_of_judged hj, show Claims.firstBad s core e o (e.errsFrom o errs (s.cell k).cycle) = some row from hbad]
    dsimp only
    rw [if_pos hpoint]
  · unfold Core.startPointRetry Core.arr
    dsimp only [Core.modArr]
    rw [tabGet_tabMod]
    rfl

/-! The outcome of a retry. -/

theorem execCalRetryDone_of_retried {core : Fin 48} {arr : Fin 4} {s : State} {k : Nat} {e : Entry} {o : ArrOp} {r : Nat}
    (h : Retried s core arr k e o r) (errs : List TreeErr) :
    let co := (s.core core).modEntry e.stream e.ord (fun x => { x with errs2 := errs })
    let bad := stillBad s core e o r errs
    exec (.calRetryDone core arr errs) s =
      if bad = [] then
        let s := s.setCore core (co.retryPassed { e with errs2 := errs })
        let s := (s.rcAdd 0 1).log 0x1101 [.core core, .arr arr, .val 4 e.id.toNat, .val 4 r]
        .next (if s.cfg.calThr < (s.core core).retry60.toNat then s.markSuspect core 4 else s)
      else
        let s' := s.setCore core (co.retryFailed { e with errs2 := errs } bad)
        .next ((s'.rcAdd 1 1).blame k [core] 1 0x1102
          [.core core, .arr arr, .val 4 e.id.toNat, .val 4 (bad.foldl min o.m)] ((s.cell k).lcore core) e.stream e.ord) := by
  obtain ⟨hk, hfind, hop, hrow, hdue⟩ := h
  show execCalRetryDone core arr errs s = _
  unfold execCalRetryDone
  dsimp only
  rw [hk, hfind]
  dsimp only
  split
  next o' r' ho' hr' =>
    obtain rfl : o' = o := Option.some.inj (ho'.symm.trans hop)
    obtain rfl : r' = r := Option.some.inj (hr'.symm.trans hrow)
    rw [if_pos hdue]
    rfl
  next hno => exact absurd hrow (hno o r hop)

theorem execCalRetryDone_passes : calRetryPasses := by
  intro core arr errs s k e o r hr hgood co t
  have hcore : t.core core = co := by
    show ((State.rcAdd _ 0 1).log _ _).core core = co
    rw [State.log_core]
    exact State.setCore_core s core co
  have hcfg : t.cfg = s.cfg := State.log_cfg _ _ _
  rw [execCalRetryDone_of_retried hr errs, if_pos hgood]
  show Host.Outcome.next (if t.cfg.calThr < (t.core core).retry60.toNat then _ else _) = _
  rw [hcore, hcfg]
  rfl

theorem State.markSuspect_suspect (s : State) (n cause : Nat) :
    ((s.markSuspect n cause).core n).suspect = true ∧ ((s.markSuspect n cause).core n).calCause = BitVec.ofNat 4 cause := by
  unfold State.markSuspect
  dsimp only
  split
  · rw [State.modCore_core]
    exact ⟨rfl, rfl⟩
  · rw [State.log_core, State.modCore_core]
    exact ⟨rfl, rfl⟩

theorem execCalRetryDone_fails : calRetryFails := by
  intro core arr errs s k e o r hr hbad
  refine ⟨_, (execCalRetryDone_of_retried hr errs).trans (if_neg hbad), ?_, ?_, rfl⟩
  · exact (State.markSuspect_suspect _ core 1).1
  · exact (State.markSuspect_suspect _ core 1).2

/-- Settles O18: a retry starts or not as the trees say, and its rows decide its outcome. -/
theorem calipersRetryDecides : Obligations.CalipersRetryDecides :=
  ⟨execCalRetryStart_none, execCalRetryStart_starts, execCalRetryStart_pointing, execCalRetryDone_passes,
    execCalRetryDone_fails⟩

end Sys2Proof.Machine

end

section

/-! PROOFS. What a fault and a class C reset of a cell leave of the module: a support layer. -/

namespace Sys2Proof.Machine

open Sys2Proof Sys2Proof.Claims

/-- The second state differs from the first in no part that a fault or a class C reset of a cell spares. -/
structure Spares (s t : State) : Prop where
  pending : t.pending = s.pending
  ports : t.ports = s.ports
  cfg : t.cfg = s.cfg
  gal : t.gal = s.gal
  snp : t.snp = s.snp
  ptp : t.ptp = s.ptp
  rst : t.rst = s.rst
  calPoints : t.calPoints = s.calPoints
  calPmiss : t.calPmiss = s.calPmiss

theorem Spares.refl (s : State) : Spares s s := ⟨rfl, rfl, rfl, rfl, rfl, rfl, rfl, rfl, rfl⟩

theorem Spares.trans {s t u : State} (h : Spares s t) (h' : Spares t u) : Spares s u where
  pending := h'.pending.trans h.pending
  ports := h'.ports.trans h.ports
  cfg := h'.cfg.trans h.cfg
  gal := h'.gal.trans h.gal
  snp := h'.snp.trans h.snp
  ptp := h'.ptp.trans h.ptp
  rst := h'.rst.trans h.rst
  calPoints := h'.calPoints.trans h.calPoints
  calPmiss := h'.calPmiss.trans h.calPmiss

theorem Media.spares {s t : State} (h : Media s t) : Spares s t := by
  obtain ⟨_, _, _, _, _, _, _, _, _, _, _, rfl⟩ := h
  exact ⟨rfl, rfl, rfl, rfl, rfl, rfl, rfl, rfl, rfl⟩

theorem Spares.foldl {α : Type} {f : State → α → State} (hf : ∀ s x, Spares s (f s x)) (l : List α) (s : State) :
    Spares s (l.foldl f s) := by
  induction l generalizing s with
  | nil => exact .refl s
  | cons x l ih => exact (hf s x).trans (ih _)

theorem Spares.ite {p : Prop} [Decidable p] {s t u : State} (ht : Spares s t) (hu : Spares s u) :
    Spares s (if p then t else u) := by
  split <;> assumption

section
variable (s : State)

theorem State.log_spares (code : Nat) (fs : List EvF) : Spares s (s.log code fs) := (s.log_logs code fs).media.spares

theorem State.modCore_spares (n : Nat) (f : Core → Core) : Spares s (s.modCore n f) :=
  ⟨rfl, rfl, rfl, rfl, rfl, rfl, rfl, rfl, rfl⟩

theorem State.setCell_spares (k : Nat) (c : Cell) : Spares s (s.setCell k c) :=
  ⟨rfl, rfl, rfl, rfl, rfl, rfl, rfl, rfl, rfl⟩

theorem State.modCell_spares (k : Nat) (f : Cell → Cell) : Spares s (s.modCell k f) := s.setCell_spares k _

theorem State.endApply_spares : Spares s s.endApply := by
  unfold State.endApply State.holdAll
  exact .foldl (fun u j => u.modCell_spares j _) _ _

theorem State.reclock_spares (n : Nat) : Spares s (s.reclock n) := s.modCore_spares n _

theorem State.reclockCell_spares (k : Nat) : Spares s (s.reclockCell k) :=
  Spares.foldl State.reclock_spares _ s

theorem State.dropPending_spares : Spares s s.dropPending := by
  have harm (a : ArmSt) : Spares s { s with arm := a } := ⟨rfl, rfl, rfl, rfl, rfl, rfl, rfl, rfl, rfl⟩
  unfold State.dropPending
  dsimp only
  exact .ite ((harm _).trans ((State.endApply_spares _).trans (State.log_spares _ _ _))) (.refl s)

theorem State.wake_spares : Spares s s.wake := by
  have hpwr (p : Pwr) : Spares s { s with pwr := p } := ⟨rfl, rfl, rfl, rfl, rfl, rfl, rfl, rfl, rfl⟩
  unfold State.wake
  exact .ite ((hpwr _).trans (State.log_spares _ _ _)) (.refl s)

theorem State.resetCell_spares (k : Nat) : Spares s (s.resetCell k) := by
  have hexp (u : State) (x : Exp) : Spares u { u with exp := x } := ⟨rfl, rfl, rfl, rfl, rfl, rfl, rfl, rfl, rfl⟩
  unfold State.resetCell
  dsimp only
  exact s.dropPending_spares.trans <| (Spares.foldl (fun u n => u.modCore_spares n _) _ _).trans <|
    (State.setCell_spares _ _ _).trans <| (hexp _ _).trans <| (State.reclockCell_spares _ _).trans (State.wake_spares _)

theorem State.setValid_spares (k v : Nat) : Spares s (s.setValid k v) := (s.setValid_media k v).spares

theorem State.ctxInvalid_spares (k reason : Nat) : Spares s (s.ctxInvalid k reason) := by
  unfold State.ctxInvalid
  dsimp only
  exact (Spares.ite (.refl s) (State.setValid_spares _ _ _)).trans <| (State.log_spares _ _ _).trans <|
    (State.resetCell_spares _ _).trans (State.modCell_spares _ _ _)

theorem State.startPreempt_spares (k cause : Nat) : Spares s (s.startPreempt k cause) := by
  unfold State.startPreempt
  exact .ite ((s.modCell_spares k _).trans (State.setValid_spares _ _ _)) (s.ctxInvalid_spares k 1)

theorem State.fault_spares (k code lcore stream ord : Nat) (res : Bool) :
    Spares s (s.fault k code lcore stream ord res) := by
  unfold State.fault
  dsimp only
  exact (s.setCell_spares k _).trans <| .ite (State.ctxInvalid_spares _ _ _) <| .ite (.refl _) <|
    .ite (State.setCell_spares _ _ _) (State.startPreempt_spares _ _ _)

theorem State.raiseFault_spares (k code : Nat) (fs : List EvF) (lcore stream ord : Nat) (res : Bool) :
    Spares s (s.raiseFault k code fs lcore stream ord res) :=
  (s.log_spares code fs).trans (State.fault_spares _ _ _ _ _ _ _)

end

end Sys2Proof.Machine

end

section

/-! PROOFS. Pointing, heightened pointing and droop (O19). -/

namespace Sys2Proof.Machine

open Sys2Proof Sys2Proof.Claims

theorem execPoint_of_issues : pointDoes := by
  intro core w s x ps hi
  have hissue : s.issue1 core 0 0xB1 w (s.planPointOf (s.pointChoice x.c core) w) = s.issued x [w] ps :=
    State.issueRow_of_issues hi
  obtain ⟨-, hmay, -⟩ := hi
  have hmay' : s.mayIssue core 0 [w] = some x := hmay
  show execPoint core w s = _
  unfold execPoint
  rw [hmay']
  dsimp only
  rw [hissue]

/-- The digest of a re-execution decides what POINT_REEXEC_DONE does (R227, R228). -/
theorem execPointReexecDone_of_pointing {core : Fin 48} {s : State} {k : Nat} {e : Entry} {src v : Nat} {we : WinEntry}
    (h : Pointing s core k 0 e src we v) (flips : List (Nat × BitVec 32)) :
    let u := { s.rcAdd 3 1 with calPoints := satAdd s.calPoints 1 }
    exec (.pointReexecDone core flips) s = .next
      (if s.redigest src e we.op flips = we.digest then u.setCore core ((s.core core).pointOver e ((s.cell k).cycle + 8))
       else (u.setCore core ((s.core core).reexecuted e (s.redigest src e we.op flips))).startThird k core src e we) := by
  obtain ⟨hk, hfind, hpoint, hdue, hretry⟩ := h
  show execPointReexecDone core flips s = _
  unfold execPointReexecDone
  dsimp only
  rw [hk, hfind]
  dsimp only
  rw [hpoint]
  dsimp only
  rw [if_pos (by rw [hdue, hretry]; rfl)]
  split <;> rfl

theorem execPointReexecDone_passes : pointPasses := by
  intro core flips s k e src we v h heq
  rw [execPointReexecDone_of_pointing h flips, if_pos heq]

/-- The entry of a third execution as it joins the in-flight table of its core (R228). -/
def State.thirdEntry (s : State) (k n src : Nat) (e : Entry) (we : WinEntry) : Entry :=
  { word := we.word, id := we.id, stream := 6, ord := s.free, unit := ((s.cell k).thirdPlace n src e we).2, point := some (src, (we, 0)),
    wset := pointSet (s.core src) we, thirdOf := some (n, (e.stream, e.ord)) }

theorem State.startThird_eq (s : State) (k n src : Nat) (e : Entry) (we : WinEntry) :
    s.startThird k n src e we = (({ s with free := s.free + 1 }.modCore ((s.cell k).thirdPlace n src e we).1
      (fun co => { co with inflight := co.inflight ++ [s.thirdEntry k n src e we] })).modCell k (fun c => c.holdThird true)) := rfl

theorem execPointReexecDone_differs : pointDiffers := by
  intro core flips s k e src we v h hne m again
  let u : State := { s.rcAdd 3 1 with calPoints := satAdd s.calPoints 1 }.setCore core
    ((s.core core).reexecuted e (s.redigest src e we.op flips))
  have hucell (j : Nat) : u.cell j = s.cell j := rfl
  have hucore (n : Nat) (hn : n ≠ core.val) : u.core n = s.core n := State.setCore_core_ne _ _ _ _ hn
  have hure : (u.core core).inflight = again := by rw [State.setCore_core]; rfl
  have hsame : ((u.startThird k core src e we).core m) =
      { u.core m with inflight := (u.core m).inflight ++ [u.thirdEntry k core src e we] } := by
    rw [State.startThird_eq, State.modCell_core']
    exact State.modCore_core _ m _
  have hother (n : Nat) (hn : n ≠ m) : (u.startThird k core src e we).core n = u.core n := by
    rw [State.startThird_eq, State.modCell_core']
    exact State.modCore_core_ne _ m n _ hn
  have hcell : (u.startThird k core src e we).cell k = (s.cell k).holdThird true := by
    rw [State.startThird_eq, State.modCell_cell]
    rfl
  refine ⟨u.startThird k core src e we, u.thirdEntry k core src e we, ?_, ?_, rfl, ⟨rfl, rfl, rfl, rfl, rfl⟩, ?_, ?_, ?_, ?_, ?_, rfl, rfl⟩
  · rw [execPointReexecDone_of_pointing h flips, if_neg hne]
  · rw [hcell]
    rfl
  · intro hm
    rw [hother core (Ne.symm hm), hsame, hucore m hm]
    exact ⟨hure, rfl⟩
  · intro hm
    rw [hm] at hsame
    rw [hsame, hure]
  · rw [hcell]
    rfl
  · exact fun n hn hnm => (hother n hnm).trans (hucore n hn)
  · intro j hj
    rw [State.startThird_eq]
    exact State.modCell_cell_ne _ _ _ _ hj

/-! The third execution (R229). -/

theorem State.markSuspect_core_ne (s : State) (n j cause : Nat) (h : j ≠ n) : (s.markSuspect n cause).core j = s.core j := by
  unfold State.markSuspect
  dsimp only
  split
  · exact State.modCore_core_ne _ _ _ _ h
  · rw [State.log_core]
    exact State.modCore_core_ne _ _ _ _ h

theorem State.markSuspect_spares (s : State) (n cause : Nat) : Spares s (s.markSuspect n cause) := by
  unfold State.markSuspect
  dsimp only
  exact .ite (s.modCore_spares _ _) ((s.modCore_spares _ _).trans (State.log_spares _ _ _))

theorem State.markSuspect_cells_hbm (s : State) (n cause : Nat) :
    (s.markSuspect n cause).cells = s.cells ∧ (s.markSuspect n cause).hbm = s.hbm := by
  unfold State.markSuspect
  dsimp only
  split
  · exact ⟨rfl, rfl⟩
  · exact ⟨State.log_cells _ _ _, State.log_hbm _ _ _⟩

theorem State.foldl_markSuspect_cells_hbm (cause : Nat) (ns : List Nat) (s : State) :
    (ns.foldl (fun s n => s.markSuspect n cause) s).cells = s.cells ∧
      (ns.foldl (fun s n => s.markSuspect n cause) s).hbm = s.hbm := by
  induction ns generalizing s with
  | nil => exact ⟨rfl, rfl⟩
  | cons n ns ih =>
    obtain ⟨hc, hb⟩ := ih (s.markSuspect n cause)
    obtain ⟨hc', hb'⟩ := s.markSuspect_cells_hbm n cause
    exact ⟨hc.trans hc', hb.trans hb'⟩

/-- A core marked suspect for a cause stays so while others are marked for the same cause. -/
theorem State.foldl_markSuspect_suspect (cause : Nat) (ns : List Nat) (s : State) (n : Nat)
    (h : n ∈ ns ∨ ((s.core n).suspect = true ∧ (s.core n).calCause = BitVec.ofNat 4 cause)) :
    ((ns.foldl (fun s n => s.markSuspect n cause) s).core n).suspect = true ∧
      ((ns.foldl (fun s n => s.markSuspect n cause) s).core n).calCause = BitVec.ofNat 4 cause := by
  induction ns generalizing s with
  | nil => exact h.resolve_left List.not_mem_nil
  | cons a ns ih =>
    refine ih (s.markSuspect a cause) ?_
    by_cases hna : n = a
    · rw [hna]
      exact .inr (s.markSuspect_suspect a cause)
    · rw [s.markSuspect_core_ne a n cause hna]
      exact h.imp_left (fun hm => (List.mem_cons.mp hm).resolve_left hna)

theorem State.blame_spares (s : State) (k : Nat) (ns : List Nat) (cause code : Nat) (fs : List EvF) (lcore stream ord : Nat) :
    Spares s (s.blame k ns cause code fs lcore stream ord) := by
  unfold State.blame
  dsimp only
  exact (Spares.ite (s.raiseFault_spares _ _ _ _ _ _ _) (s.log_spares _ _)).trans
    (.foldl (fun u n => u.markSuspect_spares n cause) _ _)

theorem State.blame_suspect (s : State) (k : Nat) {ns : List Nat} (cause code : Nat) (fs : List EvF) (lcore stream ord : Nat)
    {n : Nat} (h : n ∈ ns) : ((s.blame k ns cause code fs lcore stream ord).core n).suspect = true ∧
      ((s.blame k ns cause code fs lcore stream ord).core n).calCause = BitVec.ofNat 4 cause :=
  State.foldl_markSuspect_suspect cause ns _ n (.inl h)

/-- Without the escalation of CAL_ESC blame logs and marks, and touches neither a cell nor HBM (R219). -/
theorem State.blame_cells_hbm {s : State} (hesc : s.cfg.calEsc = false) (k : Nat) (ns : List Nat) (cause code : Nat)
    (fs : List EvF) (lcore stream ord : Nat) :
    (s.blame k ns cause code fs lcore stream ord).cells = s.cells ∧
      (s.blame k ns cause code fs lcore stream ord).hbm = s.hbm := by
  unfold State.blame
  rw [hesc, Bool.false_and]
  dsimp only
  rw [if_neg Bool.false_ne_true]
  obtain ⟨hc, hb⟩ := State.foldl_markSuspect_cells_hbm cause ns (s.log code fs)
  exact ⟨hc.trans (s.log_cells code fs), hb.trans (s.log_hbm code fs)⟩

/-- The state with a third execution ended: its entry gone, the re-execution over, one hold fewer, one miss counted (R229). -/
def State.thirdEnded (s : State) (k core m : Nat) (e z : Entry) : State :=
  ((((s.modCore m (fun co => co.dropEntry 6 z.ord)).modCore core (fun co => co.pointOver e ((s.cell k).cycle + 8))).modCell k
    (fun c => c.holdThird false)).countMiss)

theorem State.countMiss_frame (s : State) :
    s.countMiss.cells = s.cells ∧ s.countMiss.cfg = s.cfg ∧ s.countMiss.calPmiss = satAdd s.calPmiss 1 ∧ s.countMiss.hbm = s.hbm :=
  ⟨rfl, rfl, rfl, rfl⟩

theorem State.thirdEnded_cells (s : State) (k core m : Nat) (e z : Entry) :
    (s.thirdEnded k core m e z).cells = (s.modCell k (fun c => c.holdThird false)).cells := by
  unfold State.thirdEnded
  obtain ⟨hcells, -⟩ := State.countMiss_frame (((s.modCore m (fun co => co.dropEntry 6 z.ord)).modCore core
    (fun co => co.pointOver e ((s.cell k).cycle + 8))).modCell k (fun c => c.holdThird false))
  rw [hcells]
  rfl

theorem State.thirdEnded_cell (s : State) (k core m : Nat) (e z : Entry) :
    (s.thirdEnded k core m e z).cell k = (s.cell k).holdThird false := by
  rw [← State.modCell_cell s k (fun c => c.holdThird false)]
  unfold State.cell
  rw [s.thirdEnded_cells]

theorem State.thirdEnded_cell_ne (s : State) (k core m : Nat) (e z : Entry) (j : Nat) (h : j ≠ k) :
    (s.thirdEnded k core m e z).cell j = s.cell j := by
  rw [← State.modCell_cell_ne s k j (fun c => c.holdThird false) h]
  unfold State.cell
  rw [s.thirdEnded_cells]

theorem State.thirdEnded_frame (s : State) (k core m : Nat) (e z : Entry) :
    let t := s.thirdEnded k core m e z
    t.cfg = s.cfg ∧ t.calPmiss = satAdd s.calPmiss 1 ∧ t.hbm = s.hbm := by
  unfold State.thirdEnded
  obtain ⟨-, hframe⟩ := State.countMiss_frame (((s.modCore m (fun co => co.dropEntry 6 z.ord)).modCore core
    (fun co => co.pointOver e ((s.cell k).cycle + 8))).modCell k (fun c => c.holdThird false))
  exact hframe

/-- The state with a third execution ended with an outcome, before anyone is blamed (R229). -/
def State.thirdOver (s : State) (k core m out : Nat) (e z : Entry) : State :=
  if out = 1 then s.thirdEnded k core m e z else (s.thirdEnded k core m e z).setTaint k

theorem State.thirdOver_frame (s : State) (k core m out : Nat) (e z : Entry) :
    let t := s.thirdOver k core m out e z
    t.cfg = s.cfg ∧ t.calPmiss = satAdd s.calPmiss 1 ∧ t.hbm = s.hbm ∧ (∀ j, j ≠ k → t.cell j = s.cell j) ∧
      (t.cell k).holds.third = (s.cell k).holds.third - 1 ∧ (t.cell k).taint = (if out = 1 then (s.cell k).taint else true) := by
  obtain ⟨hcfg, hmiss, hhbm⟩ := s.thirdEnded_frame k core m e z
  by_cases hout : out = 1
  · have ht : s.thirdOver k core m out e z = s.thirdEnded k core m e z := if_pos hout
    rw [ht, if_pos hout]
    dsimp only
    rw [s.thirdEnded_cell]
    exact ⟨hcfg, hmiss, hhbm, s.thirdEnded_cell_ne k core m e z, rfl, rfl⟩
  · have ht : s.thirdOver k core m out e z = (s.thirdEnded k core m e z).setTaint k := if_neg hout
    have hk : ((s.thirdEnded k core m e z).setTaint k).cell k = { (s.cell k).holdThird false with taint := true } := by
      rw [State.setTaint, State.modCell_cell, s.thirdEnded_cell]
    rw [ht, if_neg hout]
    dsimp only
    rw [hk]
    refine ⟨(State.modCell_cfg _ _ _).trans hcfg, (State.modCell_calPmiss _ _ _).trans hmiss,
      (State.modCell_hbm _ _ _).trans hhbm, fun j hj => ?_, rfl, rfl⟩
    exact (State.modCell_cell_ne _ k j _ hj).trans (s.thirdEnded_cell_ne k core m e z j hj)

theorem execPointThirdExecDone_decides : pointThirdDecides := by
  intro core flips s k m e z src we v hk hfind hpoint hthird hretry d out blamed
  let u := s.thirdOver k core m out e z
  let t := u.blame k blamed 3 0x1201 [.core src, .core core, .val 4 we.id.toNat, .val 1 out] ((s.cell k).lcore core) 0 e.ord
  have hexec : exec (.pointThirdExecDone core flips) s = .next t := by
    show execPointThirdExecDone core flips s = _
    unfold execPointThirdExecDone
    rw [hk, hfind]
    dsimp only
    rw [hpoint, hthird]
    dsimp only
    rw [if_neg (by rw [hretry]; decide)]
    rfl
  obtain ⟨hcfg, hmiss, hhbm, hcells, hthirds, htaint⟩ := s.thirdOver_frame k core m out e z
  refine ⟨t, hexec, fun n hn => u.blame_suspect k 3 0x1201 _ _ 0 e.ord hn, ?_, ?_⟩
  · exact (u.blame_spares k blamed 3 0x1201 _ _ 0 e.ord).calPmiss.trans hmiss
  · intro hesc
    obtain ⟨hc, hb⟩ := State.blame_cells_hbm (s := u) ((congrArg Cfg.calEsc hcfg).trans hesc) k blamed 3 0x1201
      [.core src, .core core, .val 4 we.id.toNat, .val 1 out] ((s.cell k).lcore core) 0 e.ord
    have htcell (j : Nat) : t.cell j = u.cell j := by
      show tabGet {} t.cells j = tabGet {} u.cells j
      rw [show t.cells = u.cells from hc]
    rw [htcell k]
    exact ⟨hthirds, htaint, fun j hj => (htcell j).trans (hcells j hj), hb.trans hhbm⟩

/-! Heightened pointing and droop. -/

/-- The re-execution that heightened pointing starts on array `a` in cycle `cyc` (R227, R230). -/
def State.heightenEntry (s : State) (src a cyc : Nat) (we : WinEntry) : Entry :=
  { word := we.word, id := we.id, stream := 6, ord := s.free, unit := a,
    point := some (src, (we, 1 + Config.draw s.free % 1023)), wset := pointSet (s.core src) we,
    doneCycle := cyc + we.op.exposed }

/-- A core whose array `a` is taken by a re-execution until its end (R227). -/
def Core.startReexec (co : Core) (a : Nat) (e : Entry) : Core :=
  { co.modArr a (fun ar => { ar with retryEnd := e.doneCycle }) with
    bcastFree := e.doneCycle, inflight := co.inflight ++ [e] }

theorem execHeightenedReexec_starts : heightenedReexecDoes := by
  intro cell s src we rest hq hadv n a hload hretry hlast hfree hp0 hp1 hthird
  have hguard : ((s.cell cell).advances && !((s.core n).loadingOn a) && decide (((s.core n).arr a).retryEnd ≤ (s.cell cell).cycle ∧
      ((s.core n).arr a).lastEnd ≤ (s.cell cell).cycle ∧ (s.core n).bcastFree ≤ (s.cell cell).cycle) &&
        ((s.core n).pointing 0).isNone && ((s.core n).pointing 1).isNone &&
        (s.core n).inflight.all (·.thirdOf.isNone)) = true := by
    have hall : (s.core n).inflight.all (·.thirdOf.isNone) = true := by
      rw [List.all_eq_true]
      intro f hf
      rw [hthird f hf]
      rfl
    rw [hadv, hload, hp0, hp1, hall, decide_eq_true ⟨hretry, hlast, hfree⟩]
    rfl
  have hexec : exec (.heightenedReexec cell) s = .next
      { ((s.setCore n ((s.core n).startReexec a (s.heightenEntry src a (s.cell cell).cycle we))).setCell cell
          { s.cell cell with heightQ := rest }) with
        free := s.free + 1 } := by
    show execHeightenedReexec cell s = _
    unfold execHeightenedReexec
    dsimp only
    rw [hq]
    exact if_pos hguard
  have hcore := State.setCore_core s n ((s.core n).startReexec a (s.heightenEntry src a (s.cell cell).cycle we))
  refine ⟨_, s.heightenEntry src a (s.cell cell).cycle we, hexec, ?_, ?_, rfl, rfl, rfl, rfl, rfl,
    ⟨1 + Config.draw s.free % 1023, ?_, ?_, rfl⟩, ?_, ?_, ?_, rfl, rfl⟩
  · exact State.setCell_cell _ _ _
  · exact (congrArg Core.inflight hcore).trans rfl
  · omega
  · omega
  · exact (congrArg Core.bcastFree hcore).trans rfl
  · exact (congrArg Core.store hcore).trans rfl
  · exact fun j hj => State.setCore_core_ne _ _ _ _ hj

theorem Core.reclock_curFreq_le_droop (co : Core) (parked debug : Bool) (h : co.droop = true) :
    (co.reclock parked debug).curFreq.toNat ≤ co.droopFreq := by
  have hle (f : Nat) : (if debug then min f co.droopFreq * 3 / 5 else min f co.droopFreq) ≤ co.droopFreq := by
    split <;> omega
  unfold Core.reclock
  rw [h]
  dsimp only
  rw [if_pos rfl]
  cases parked with
  | true => exact Nat.zero_le _
  | false =>
    rw [if_neg Bool.false_ne_true, BitVec.toNat_ofNat]
    exact (Nat.mod_le _ _).trans (hle _)

/-- The state with the island of a core in its droop response (R21). -/
def State.drooped (s : State) (core : Nat) (mhz : BitVec 12) : State :=
  (s.modCore core (fun c => { c with droop := true, droopFreq := mhz.toNat })).reclock core

theorem State.reclock_core (s : State) (n : Nat) :
    (s.reclock n).core n = (s.core n).reclock (s.parked n) s.cfg.debug := State.modCore_core _ _ _

theorem State.reclock_core_ne (s : State) (n j : Nat) (h : j ≠ n) : (s.reclock n).core j = s.core j :=
  State.modCore_core_ne _ _ _ _ h

theorem State.drooped_core (s : State) (core : Nat) (mhz : BitVec 12) :
    (s.drooped core mhz).core core = { s.core core with droop := true, droopFreq := mhz.toNat }.reclock (s.parked core) s.cfg.debug := by
  unfold State.drooped
  rw [State.reclock_core, State.modCore_core]
  rfl

theorem State.startHeighten_frame (s : State) (k trig : Nat) :
    (s.startHeighten k trig).hbm = s.hbm ∧ (∀ n, (s.startHeighten k trig).core n = s.core n) ∧
      ∀ j, (s.startHeighten k trig).cell j = (s.modCell k (fun c => { c with heighten := 4096 })).cell j := by
  unfold State.startHeighten
  dsimp only
  refine ⟨?_, fun n => ?_, fun j => ?_⟩
  · rw [State.log_hbm]
    rfl
  · rw [State.log_core]
    rfl
  · rw [State.log_cell]
    rfl

theorem execDroopTrip_trips : droopTripDoes := by
  intro core mhz s k hk
  have hexec : exec (.droopTrip core mhz) s = .next ((s.drooped core mhz).startHeighten k 2) := by
    show execDroopTrip core mhz s = _
    unfold execDroopTrip
    dsimp only
    rw [show ((s.modCore core (fun c => { c with droop := true, droopFreq := mhz.toNat })).reclock core).cellOf core = some k from hk]
    rfl
  obtain ⟨hhbm, hcore, hcell⟩ := (s.drooped core mhz).startHeighten_frame k 2
  refine ⟨_, hexec, ?_, ?_, ?_, ?_, ?_, ?_, ?_⟩
  · rw [hcore, s.drooped_core]
    rfl
  · rw [hcore, s.drooped_core]
    exact Core.reclock_curFreq_le_droop _ _ _ rfl
  · rw [hcell, State.modCell_cell]
  · intro n hn
    rw [hcore]
    exact (State.reclock_core_ne _ _ _ hn).trans (State.modCore_core_ne _ _ _ _ hn)
  · intro j hj
    rw [hcell, State.modCell_cell_ne _ _ _ _ hj]
    rfl
  · rw [hcore, s.drooped_core]
    rfl
  · rw [hhbm]
    rfl

theorem execDroopTrip_alone : droopTripAlone := by
  intro core mhz s hk
  show execDroopTrip core mhz s = _
  unfold execDroopTrip
  dsimp only
  rw [show ((s.modCore core (fun c => { c with droop := true, droopFreq := mhz.toNat })).reclock core).cellOf core = none from hk]

theorem execDroopResponseEnd_ends : droopEndDoes := by
  intro core s f g
  have hcore : ((s.modCore core (fun c => { c with droop := false, droopFreq := 0 })).reclock core).core core =
      { s.core core with droop := false, droopFreq := 0 }.reclock (s.parked core) s.cfg.debug := by
    rw [State.reclock_core, State.modCore_core]
    rfl
  refine ⟨_, rfl, ?_, ?_, ?_, rfl⟩
  · rw [hcore]
    rfl
  · rw [hcore]
    rfl
  · exact fun n hn => (State.reclock_core_ne _ _ _ hn).trans (State.modCore_core_ne _ _ _ _ hn)

/-- Settles O19: one lemma for each event. -/
theorem pointingDecides : Obligations.PointingDecides := by
  unfold Obligations.PointingDecides
  exact ⟨execPoint_of_issues, execPointReexecDone_passes, execPointReexecDone_differs, execPointThirdExecDone_decides,
    execHeightenedReexec_starts, execDroopTrip_trips, execDroopTrip_alone, execDroopResponseEnd_ends⟩

end Sys2Proof.Machine

end

section

/-! PROOFS. Gallery requests: executed once, in the order of their flow (O20). -/

namespace Sys2Proof.Machine

open Sys2Proof Sys2Proof.Claims

theorem exec_of_requestRow {c : Instr} {r : ReqRow} (h : requestRow c = some r) (s : State) :
    exec c s = .next (r.after (s.receiveReq r.port r.pk r.ty r.tgt)) := by
  cases c <;> simp only [requestRow, Option.some.injEq, reduceCtorEq] at h <;> subst h <;> dsimp only [id_eq] <;> rfl

/-! The filter of R456. -/

theorem State.freeFlits_port_peer (s : State) (p : Nat) (pk : Packet) :
    ((s.freeFlits p pk).port p).pvalid = (s.port p).pvalid ∧ ((s.freeFlits p pk).port p).pfleet = (s.port p).pfleet ∧
      ((s.freeFlits p pk).port p).pslot = (s.port p).pslot := by
  unfold State.freeFlits
  rw [State.modPort_port]
  exact ⟨rfl, rfl, rfl⟩

/-- A packet from a peer in order, under the incarnation that the table holds, passes the filter (R456). -/
theorem State.filter_of_peer {s : State} {p : Fin 8} {pk : Packet}
    (hpeer : pk.hops = 0 → (s.port p).pvalid = true ∧
      flowKey pk.sfleet pk.sslot = flowKey (s.port p).pfleet.toNat (s.port p).pslot.toNat)
    (hsinc : pk.sinc ≠ 0) (hinc : (tabGet 0 s.gal.incs (flowKey pk.sfleet pk.sslot)).toNat = pk.sinc) :
    (s.freeFlits p pk).filter p pk = (s.freeFlits p pk, true) := by
  obtain ⟨hvalid, hfleet, hslot⟩ := s.freeFlits_port_peer p pk
  have hinc' : (tabGet 0 (s.freeFlits p pk).gal.incs (flowKey pk.sfleet pk.sslot)).toNat = pk.sinc := hinc
  unfold State.filter
  dsimp only
  rw [hvalid, hfleet, hslot, if_neg, if_neg, if_neg]
  · exact not_or.mpr ⟨not_not.mpr hinc', hsinc⟩
  · exact fun hc => hsinc hc.2
  · rintro ⟨hhops, hpeer'⟩
    obtain ⟨hv, hkey⟩ := hpeer hhops
    rw [hv, hkey, beq_self_eq_true] at hpeer'
    exact absurd hpeer' (by decide)

theorem State.filter_of_admitted {s : State} {p : Fin 8} {pk : Packet} {cls : Nat} (h : Admitted s p pk cls) :
    (s.freeFlits p pk).filter p pk = (s.freeFlits p pk, true) := by
  obtain ⟨-, -, -, hpeer, hsinc, hinc⟩ := h
  exact State.filter_of_peer hpeer hsinc hinc

/-! A request as it reaches the target's flow. -/

theorem State.receiveReq_of_admitted {s : State} {p : Fin 8} {pk : Packet} (h : Admitted s p pk 0) {ty : Nat}
    (hty : pk.ptype = ty) (tgt : Packet → State → State × Ans) :
    s.receiveReq (some p) pk ty tgt =
      if pk.dinc ≠ s.gal.incarn.toNat then (s.freeFlits p pk).inject ((s.freeFlits p pk).staleErr pk)
      else (s.freeFlits p pk).deliver pk tgt := by
  have hfilter := State.filter_of_admitted h
  obtain ⟨hme, hcls, hdel, -⟩ := h
  unfold State.receiveReq
  rw [if_neg (by simp [hty, hcls, hme])]
  dsimp only
  rw [if_pos hdel, hfilter]
  rfl

theorem State.receiveReq_of_passes {s : State} {p : Fin 8} {pk : Packet} (h : Passes s p pk 0) {ty : Nat}
    (hty : pk.ptype = ty) (tgt : Packet → State → State × Ans) :
    s.receiveReq (some p) pk ty tgt = (s.freeFlits p pk).deliver pk tgt := by
  obtain ⟨hadm, hdinc⟩ := h
  rw [State.receiveReq_of_admitted hadm hty, if_neg (not_not.mpr hdinc)]

/-- The SEQ of a packet is as far past the one expected as the window of R454 counts, modulo 2^32. -/
theorem State.deliver_eq (s : State) (pk : Packet) (tgt : Packet → State → State × Ans) (d : Nat)
    (hd : (pk.seq + 2 ^ 32 - expected s pk % 2 ^ 32) % 2 ^ 32 = d) :
    s.deliver pk tgt =
      if d = 0 then
        match tgt pk s with
        | (t, .busy) => t.inject (t.respPk pk 0x12 [] [])
        | (t, .resp ty fs data) => answeredReq t pk ty fs data
      else if d < 2 ^ 31 then
        let r := tabGet {} s.gal.rx (pkRx pk)
        let u := { s with free := s.free + b2n r.naked }.modRx (pkRx pk) (fun r => { r with naked := true })
        if !r.naked || decide (Config.draw s.free % 2 = 0) then u.inject (u.respPk pk 0x11 [r.expect] []) else u
      else
        match (tabGet {} s.gal.rx (pkRx pk)).kept.find? (fun x => x.1 == pk.seq) with
        | some x => s.inject x.2
        | none => s := by
  subst hd
  unfold State.deliver
  rfl

theorem State.deliver_resp {s t : State} {pk : Packet} {tgt : Packet → State → State × Ans} {ty : Nat} {fs : List Nat}
    {data : List PByte} (hseq : pk.seq = expected s pk)
    (htgt : tgt pk s = (t, .resp ty fs data)) : s.deliver pk tgt = answeredReq t pk ty fs data := by
  rw [s.deliver_eq pk tgt 0 (by omega), if_pos rfl, htgt]

theorem State.deliver_busy {s t : State} {pk : Packet} {tgt : Packet → State → State × Ans}
    (hseq : pk.seq = expected s pk) (htgt : tgt pk s = (t, .busy)) :
    s.deliver pk tgt = t.inject (t.respPk pk 0x12 [] []) := by
  rw [s.deliver_eq pk tgt 0 (by omega), if_pos rfl, htgt]

theorem State.deliver_duplicate {s : State} {pk k : Packet} {tgt : Packet → State → State × Ans}
    (hlt : expected s pk < 2 ^ 32) (hseq : pk.seq < expected s pk) (hwin : expected s pk ≤ pk.seq + 2 ^ 31)
    (hkept : (tabGet {} s.gal.rx (pkRx pk)).kept.find? (fun x => x.1 == pk.seq) = some (pk.seq, k)) :
    s.deliver pk tgt = s.inject k := by
  rw [s.deliver_eq pk tgt (pk.seq + 2 ^ 32 - expected s pk) (by omega), if_neg (by omega), if_neg (by omega), hkept]

theorem State.deliver_ahead {s : State} {pk : Packet} {tgt : Packet → State → State × Ans}
    (hseq : expected s pk < pk.seq) (hwin : pk.seq < expected s pk + 2 ^ 31) (hlt : pk.seq < 2 ^ 32)
    (hnaked : (tabGet {} s.gal.rx (pkRx pk)).naked = false) :
    s.deliver pk tgt = (s.modRx (pkRx pk) (fun r => { r with naked := true })).inject
      (s.respPk pk 0x11 [expected s pk] []) := by
  rw [s.deliver_eq pk tgt (pk.seq - expected s pk) (by omega), if_neg (by omega), if_pos (by omega)]
  dsimp only
  rw [hnaked]
  rfl

/-! The claims. -/

theorem request_inOrder : requestInOrder := by
  intro c r p s t ty fs data hrow hport hty hpass hlt hseq htgt
  rw [exec_of_requestRow hrow, hport, State.receiveReq_of_passes hpass hty, State.deliver_resp (s := s.freeFlits p r.pk) hseq htgt]

theorem request_busy : requestBusy := by
  intro c r p s t hrow hport hty hpass hlt hseq htgt
  rw [exec_of_requestRow hrow, hport, State.receiveReq_of_passes hpass hty, State.deliver_busy (s := s.freeFlits p r.pk) hseq htgt]

theorem request_duplicate : requestDuplicate := by
  intro c r p s k hrow hport hty hpass hlt hseq hwin hkept
  rw [exec_of_requestRow hrow, hport, State.receiveReq_of_passes hpass hty,
    State.deliver_duplicate (s := s.freeFlits p r.pk) hlt hseq hwin hkept]

theorem request_ahead : requestAhead := by
  intro c r p s hrow hport hty hpass hseq hwin hlt hnaked
  rw [exec_of_requestRow hrow, hport, State.receiveReq_of_passes hpass hty,
    State.deliver_ahead (s := s.freeFlits p r.pk) hseq hwin hlt hnaked]
  rfl

theorem request_stale : requestStale := by
  intro c r p s hrow hport hty hadm hdinc
  rw [exec_of_requestRow hrow, hport, State.receiveReq_of_admitted hadm hty, if_pos hdinc]
  rfl

theorem request_own : requestOwn := by
  intro c r s t ty n fs data l hrow hport hty hcls hme hhead hidle htgt
  rw [exec_of_requestRow hrow, hport]
  unfold State.receiveReq
  rw [if_neg (by simp [hty, hcls, hme])]
  dsimp only
  rw [hhead]
  dsimp only
  rw [if_pos ⟨rfl, hidle⟩, htgt]

theorem request_forged : forgedDiscarded := by
  intro c r p s hrow hport hty hcls hme hdel hhops hvalid
  obtain ⟨hvalid', -⟩ := s.freeFlits_port_peer p r.pk
  have hfilter : (s.freeFlits p r.pk).filter p r.pk = ((s.freeFlits p r.pk).forged p r.pk, false) := by
    unfold State.filter
    dsimp only
    rw [hvalid', hvalid, if_pos ⟨hhops, rfl⟩]
  rw [exec_of_requestRow hrow, hport]
  unfold State.receiveReq
  rw [if_neg (by simp [hty, hcls, hme])]
  dsimp only
  rw [if_pos hdel, hfilter]

theorem execTcdfReceive_inOrder : tcdfInOrder := by
  intro pk p s t ty fs data hfw hty hpass hlt hseq htgt hmoved
  show execTcdfReceive (some p) pk s = _
  unfold execTcdfReceive
  rw [hfw, if_neg (by decide), State.receiveReq_of_passes hpass hty, State.deliver_resp (s := s.freeFlits p pk) hseq htgt]
  exact if_pos hmoved

/-- Settles O20: every request runs through the filter and its flow, and the place of its SEQ decides. -/
theorem requestsExecuteOnceInOrder : Obligations.RequestsExecuteOnceInOrder :=
  ⟨request_inOrder, request_busy, request_duplicate, request_ahead, request_stale, request_own, request_forged,
    execTcdfReceive_inOrder⟩

end Sys2Proof.Machine

end

section

/-! PROOFS. What gallery requests do at their target (O21). -/

namespace Sys2Proof.Machine

open Sys2Proof Sys2Proof.Claims

/-! The bytes of a packet. -/

@[simp] theorem length_pkBytes (pk : Packet) : (pkBytes pk).length = pk.data.length := by simp [pkBytes]

theorem map_fst_pkBytes (pk : Packet) : (pkBytes pk).map Prod.fst = pk.data := by
  unfold pkBytes
  rw [List.map_map]
  exact List.zipIdx_map_fst 0 pk.data

theorem map_fst_pBytes (n v : Nat) (p : Bool) : (pBytes n v p).map Prod.fst = leBytes n v := by
  unfold pBytes
  rw [List.map_map]
  exact List.map_id _

@[simp] theorem length_pBytes (n v : Nat) (p : Bool) : (pBytes n v p).length = n := by simp [pBytes]

/-! Accesses of HBM and the blocks that reset. -/

theorem State.taken_of_quiet {s : State} (h : s.rst.quiet = []) (a : Nat) (bs : List PByte) : s.taken a bs = bs := by
  unfold State.taken
  rw [h]
  rfl

theorem State.touchLine_of_calm {s : State} (h : s.mediaErr = []) (part : Nat) (write atomic : Bool) (line lo hi : Nat) :
    ∃ pl, s.touchLine part write atomic line lo hi = { s with plinths := pl } := by
  unfold State.touchLine
  dsimp only
  split
  · exact ⟨s.plinths, rfl⟩
  · rw [State.meet_of_calm h]
    exact ⟨_, rfl⟩

theorem access_keeps : accessKeeps := by
  intro s a n part write atomic h
  have hfold (f : Nat → Nat) (l : List Nat) : ∀ u : State, u.mediaErr = [] → ∃ pl,
      l.foldl (fun u i => let line := (a / 256 + i) * 256
        u.touchLine (f line) write atomic line (max a line) (min (a + n) (line + 256))) u = { u with plinths := pl } := by
    induction l with
    | nil => exact fun u _ => ⟨u.plinths, rfl⟩
    | cons i l ih =>
      intro u hu
      obtain ⟨pl, hpl⟩ := State.touchLine_of_calm hu (f ((a / 256 + i) * 256)) write atomic ((a / 256 + i) * 256)
        (max a ((a / 256 + i) * 256)) (min (a + n) ((a / 256 + i) * 256 + 256))
      rw [List.foldl_cons]
      dsimp only
      rw [hpl]
      exact ih { u with plinths := pl } hu
  have htouch : ∃ pl, s.touch a n part write atomic = { s with plinths := pl } := by
    unfold State.touch State.touchWith
    split
    · exact ⟨s.plinths, rfl⟩
    · exact hfold (fun _ => part) _ s h
  obtain ⟨pl, hpl⟩ := htouch
  rw [hpl]

/-! What a request does at its target. -/

theorem tgtPut_of_hbm {pk : Packet} {s : State} (hr : rangeOk pk.addr pk.data.length = true) (hc : csCore pk.addr = none) :
    tgtPut pk s = ((((s.touchPhys pk.addr pk.data.length true).hwrite pk.addr (pkBytes pk)).putDone pk
      (decide (pk.fields.getD 0 0 ≤ pk.fields.getD 4 0 + pk.data.length))), ackAns) := by
  have hland (n : Nat) : s.landing pk.addr n = .hbm := by
    unfold State.landing
    rw [hc]
  unfold tgtPut
  simp only [length_pkBytes, hr, hland, Bool.not_true, Bool.false_eq_true, if_false]

theorem State.rowLanded_frame (s : State) (grp ex : Nat) : s.rowLanded grp ex = { s with gal := (s.rowLanded grp ex).gal } := rfl

theorem put_lands : putLands := by
  intro pk s hr hc hq u
  have hquiet : u.rst.quiet = [] := by rw [(s.touchPhys_media pk.addr pk.data.length true).rst, hq]
  let w := u.hwrite pk.addr (pkBytes pk)
  let row := pk.fields.getD 2 0 = 1 ∧ decide (pk.fields.getD 0 0 ≤ pk.fields.getD 4 0 + pk.data.length) = true
  have hw : w = { u with hbm := memWrite u.hbm pk.addr pk.data, hbmPois := poisBytes u.hbmPois 64 pk.addr (pkBytes pk),
                         mediaErr := dropErrs u.mediaErr pk.addr pk.data.length } := by
    show u.hwrite pk.addr (pkBytes pk) = _
    unfold State.hwrite
    rw [State.taken_of_quiet hquiet]
    dsimp only
    rw [map_fst_pkBytes, length_pkBytes]
  have hv : ∃ v : State, (if row then w.rowLanded (pk.fields.getD 1 0) (pk.fields.getD 3 0) else w) = v ∧
      v = { w with gal := v.gal } ∧ (pk.fields.getD 2 0 ≠ 1 → v.gal = w.gal) := by
    refine ⟨_, rfl, ?_, fun hne => ?_⟩
    · split
      · exact w.rowLanded_frame _ _
      · rfl
    · rw [if_neg (fun h => hne h.1)]
  obtain ⟨v, hdone, hframe, hgal⟩ := hv
  rw [hw] at hframe hgal
  have hmedia := s.touchPhys_media pk.addr pk.data.length true
  refine ⟨v, ?_, ?_, ?_, ?_, ?_, ?_, ?_, ?_, ?_, hgal⟩
  · rw [tgtPut_of_hbm hr hc, ← hdone]
    rfl
  · exact fun ht => if_pos ht
  · intro i hi
    rw [hframe]
    exact memGet_memWrite_in _ _ _ _ hi
  · intro a ha
    rw [hframe]
    exact memGet_memWrite_out _ _ _ _ (by omega)
  · rw [hframe]
  · rw [hframe]
    exact hmedia.cores
  · rw [hframe]
    exact hmedia.cells
  · rw [hframe]
  · rw [hframe]

theorem put_refused : putRefused := by
  intro pk s hr
  unfold tgtPut
  simp only [length_pkBytes, hr, Bool.not_false, if_true]
  rfl

theorem tgtGet_of_hbm {pk : Packet} {s : State} (errs : List SectorErr) (hr : rangeOk pk.addr (pk.fields.getD 0 0) = true)
    (hn : pk.fields.getD 0 0 ≤ 4096) (hc : csCore pk.addr = none) :
    tgtGet errs pk s =
      ((((s.decay errs).touchPhys pk.addr (pk.fields.getD 0 0) false).postPk pk 1,
        .resp 0x14 [pk.fields.getD 0 0] (((s.decay errs).touchPhys pk.addr (pk.fields.getD 0 0) false).hread pk.addr
          (pk.fields.getD 0 0)))) := by
  unfold tgtGet
  dsimp only
  rw [if_neg (by rw [hr]; simpa using hn), hc]

theorem get_reads : getReads := by
  intro errs pk s n hn hr hle hc u
  subst hn
  have hmedia := (s.decay errs).touchPhys_media pk.addr (pk.fields.getD 0 0) false
  exact ⟨tgtGet_of_hbm errs hr hle hc, fun ht => if_pos ht, hmedia.cores, hmedia.cells, hmedia.gal⟩

/-! A poisoned value written keeps every sector it lies in poisoned. -/

theorem self_mem_psIns (p : PSet) (k : Nat) : k ∈ psIns p k := by
  induction p with
  | nil => exact List.mem_singleton.mpr rfl
  | cons x r ih =>
    unfold psIns
    split
    · exact List.mem_cons_self
    · exact List.mem_cons_of_mem x ih

theorem mem_psIns_of_mem (p : PSet) (k x : Nat) (h : x ∈ p) : x ∈ psIns p k := by
  induction p with
  | nil => exact absurd h List.not_mem_nil
  | cons y r ih =>
    unfold psIns
    split
    · exact List.mem_cons_of_mem k h
    · rcases List.mem_cons.mp h with rfl | hr
      · exact List.mem_cons_self
      · exact List.mem_cons_of_mem y (ih hr)

theorem self_mem_psAdd (p : PSet) (k : Nat) : k ∈ psAdd p k := self_mem_psIns _ k

theorem mem_psAdd_of_mem (p : PSet) (k x : Nat) (h : x ∈ p) : x ∈ psAdd p k := by
  by_cases hx : x = k
  · rw [hx]
    exact self_mem_psAdd p k
  · exact mem_psIns_of_mem _ k x (List.mem_filter.mpr ⟨h, decide_eq_true hx⟩)

theorem mem_foldl_psAdd (f : Nat → Nat) (i : Nat) (l : List Nat) : ∀ p : PSet, (i ∈ l ∨ f i ∈ p) →
    f i ∈ l.foldl (fun p i => psAdd p (f i)) p := by
  induction l with
  | nil => exact fun p h => h.resolve_left List.not_mem_nil
  | cons j l ih =>
    intro p h
    refine ih _ ?_
    rcases h with hj | hp
    · rcases List.mem_cons.mp hj with rfl | hl
      · exact .inr (self_mem_psAdd p _)
      · exact .inl hl
    · exact .inr (mem_psAdd_of_mem p _ _ hp)

theorem any_snd_of_all_true {bs : List PByte} (h : ∀ b ∈ bs, b.2 = true) (hne : bs ≠ []) : bs.any Prod.snd = true := by
  obtain ⟨b, hb⟩ := List.exists_mem_of_ne_nil bs hne
  exact List.any_eq_true.mpr ⟨b, hb, h b hb⟩

/-- The slice of a write that falls into one of the sectors it touches is not empty. -/
theorem sector_slice_ne_nil {a i : Nat} {bs : List PByte} (hi : i < (a + bs.length - 1) / 64 + 1 - a / 64) (hne : bs ≠ []) :
    ((bs.drop (max a ((a / 64 + i) * 64) - a)).take
      (min (a + bs.length) ((a / 64 + i + 1) * 64) - max a ((a / 64 + i) * 64))) ≠ [] := by
  have hlen : 0 < bs.length := List.length_pos_iff.mpr hne
  refine List.ne_nil_of_length_pos ?_
  rw [List.length_take, List.length_drop]
  omega

theorem poisBytes_of_all_true (p : PSet) (a : Nat) {bs : List PByte} (h : ∀ b ∈ bs, b.2 = true) (hne : bs ≠ []) :
    poisBytes p 64 a bs =
      (List.range ((a + bs.length - 1) / 64 + 1 - a / 64)).foldl (fun p i => psAdd p (a / 64 + i)) p := by
  unfold poisBytes
  rw [if_neg (by simpa using hne)]
  refine List.foldl_ext _ _ p fun q i hi => ?_
  have hslice := sector_slice_ne_nil (List.mem_range.mp hi) hne
  dsimp only
  rw [if_pos (any_snd_of_all_true (fun b hb => h b (List.mem_of_mem_drop (List.mem_of_mem_take hb))) hslice)]

theorem poisRead_poisBytes (p : PSet) (a : Nat) {bs : List PByte} (h : ∀ b ∈ bs, b.2 = true) (hne : bs ≠ []) :
    poisRead (poisBytes p 64 a bs) 64 a bs.length = true := by
  have hlen : 0 < bs.length := List.length_pos_iff.mpr hne
  have hmem : a / 64 + 0 ∈ poisBytes p 64 a bs := by
    rw [poisBytes_of_all_true p a h hne]
    exact mem_foldl_psAdd (fun i => a / 64 + i) 0 _ p (.inl (List.mem_range.mpr (by omega)))
  unfold poisRead psAny
  rw [if_neg (by omega)]
  exact List.any_eq_true.mpr ⟨_, hmem, decide_eq_true (by omega)⟩

theorem tgtAtom_of_hbm {pk : Packet} {s : State} {op sz : Nat} (hop : pk.fields.getD 0 0 = op) (hsz : pk.fields.getD 1 0 = sz)
    (hr : rangeOk pk.addr sz = true) (hc : csCore pk.addr = none) :
    let u := s.touchAtom pk.addr sz
    let bad := u.hbmPoisoned pk.addr sz
    let old := leNat (u.hbmRead pk.addr sz)
    tgtAtom pk s = ((u.hwrite pk.addr (pBytes sz (atomNew op sz old (pk.fields.getD 2 0) (pk.fields.getD 3 0)) bad)).postPk pk 1,
      .resp 0x15 [] (pBytes 8 old bad)) := by
  subst hop hsz
  unfold tgtAtom
  dsimp only
  rw [if_neg (by rw [hr]; decide), hc]

theorem State.touchAtom_media (s : State) (a n : Nat) : Media s (s.touchAtom a n) := State.touchWith_media ..

theorem atom_executes : atomExecutes := by
  intro pk s op sz hop hsz hr hc hq u old new
  let bad := u.hbmPoisoned pk.addr sz
  have hquiet : u.rst.quiet = [] := by rw [(s.touchAtom_media pk.addr sz).rst, hq]
  have hw : u.hwrite pk.addr (pBytes sz new bad) =
      { u with hbm := memWrite u.hbm pk.addr (leBytes sz new), hbmPois := poisBytes u.hbmPois 64 pk.addr (pBytes sz new bad),
               mediaErr := dropErrs u.mediaErr pk.addr sz } := by
    unfold State.hwrite
    rw [State.taken_of_quiet hquiet]
    dsimp only
    rw [map_fst_pBytes, length_pBytes]
  refine ⟨u.hwrite pk.addr (pBytes sz new bad), tgtAtom_of_hbm hop hsz hr hc, fun ht => if_pos ht, ?_, ?_, ?_⟩
  · rw [hw]
    have hread := memRead_memWrite u.hbm pk.addr (leBytes sz new)
    rwa [length_leBytes] at hread
  · intro a ha
    rw [hw]
    exact memGet_memWrite_out _ _ _ _ (by rw [length_leBytes]; omega)
  · intro hbad
    by_cases hz : sz = 0
    · exact .inr hz
    · have hall : ∀ b ∈ pBytes sz new bad, b.2 = true := by
        intro b hb
        obtain ⟨x, -, rfl⟩ := List.mem_map.mp hb
        exact hbad
      have hne : pBytes sz new bad ≠ [] := List.ne_nil_of_length_pos (by rw [length_pBytes]; omega)
      have hread := poisRead_poisBytes u.hbmPois pk.addr hall hne
      rw [length_pBytes] at hread
      rw [hw]
      exact .inl hread

theorem signal_posts : signalPosts := fun _ _ => rfl

end Sys2Proof.Machine

end

section

/-! PROOFS. Gallery requests in turn complete (O21). -/

namespace Sys2Proof.Machine

open Sys2Proof Sys2Proof.Claims

/-- A request in turn is answered with what its target answers (R454). -/
theorem State.receiveReq_inTurn {s t : State} {p : Fin 8} {pk : Packet} {ty rty : Nat} {fs : List Nat} {data : List PByte}
    {tgt : Packet → State → State × Ans} (h : InTurn s p pk ty) (htgt : tgt pk (s.freeFlits p pk) = (t, .resp rty fs data)) :
    s.receiveReq (some p) pk ty tgt = answeredReq t pk rty fs data := by
  obtain ⟨hty, hpass, -, hseq⟩ := h
  rw [State.receiveReq_of_passes hpass hty, State.deliver_resp (s := s.freeFlits p pk) hseq htgt]

theorem State.receiveReq_acked {s t : State} {p : Fin 8} {pk : Packet} {ty : Nat} {tgt : Packet → State → State × Ans}
    (h : InTurn s p pk ty) (htgt : tgt pk (s.freeFlits p pk) = (t, ackAns)) : s.receiveReq (some p) pk ty tgt = acked t pk :=
  State.receiveReq_inTurn h htgt

theorem tgtPut_of_store {pk : Packet} {s : State} {n k : Nat} (hr : rangeOk pk.addr pk.data.length = true)
    (hc : csCore pk.addr = some n) (hk : s.cellOf n = some k) (hctx : (s.cell k).ctx ≠ 3)
    (hin : (s.cell k).inStaging ((pk.addr - csBase) % csWin) pk.data.length = true) :
    tgtPut pk s = ((s.landStore k n ((pk.addr - csBase) % csWin) (pkBytes pk)
        (!decide (pk.fields.getD 0 0 ≤ pk.fields.getD 4 0 + pk.data.length)) (pk.fields.getD 4 0) (pkFrom pk)).putDone pk
      (decide (pk.fields.getD 0 0 ≤ pk.fields.getD 4 0 + pk.data.length)), ackAns) := by
  have hland : s.landing pk.addr pk.data.length = .store k n ((pk.addr - csBase) % csWin) := by
    unfold State.landing
    rw [hc]
    dsimp only
    rw [hk]
    dsimp only
    rw [if_neg hctx, if_pos hin]
  unfold tgtPut
  simp only [length_pkBytes, hr, hland, Bool.not_true, Bool.false_eq_true, if_false]

theorem put_completes : putCompletes := by
  intro p pk s h hr u last
  refine ⟨fun hc => ?_, fun n k hc hk hctx hin => ?_⟩
  · exact congrArg (fun t : State => Host.Outcome.next t.xchCheck) (State.receiveReq_acked h (tgtPut_of_hbm hr hc))
  · exact congrArg (fun t : State => Host.Outcome.next t.xchCheck)
      (State.receiveReq_acked h (tgtPut_of_store (s := u) hr hc hk hctx hin))

theorem tgtGet_of_store {pk : Packet} {s : State} (errs : List SectorErr) {c : Nat}
    (hr : rangeOk pk.addr (pk.fields.getD 0 0) = true) (hn : pk.fields.getD 0 0 ≤ 4096) (hc : csCore pk.addr = some c)
    (hq : c + 64 ∉ s.rst.quiet) :
    tgtGet errs pk s = (s.postPk pk 1,
      .resp 0x14 [pk.fields.getD 0 0] ((s.core c).pread ((pk.addr - csBase) % csWin) (pk.fields.getD 0 0))) := by
  have hquiet : s.rst.quiet.contains (64 + c) = false := by
    rw [List.contains_eq_mem, decide_eq_false_iff_not, Nat.add_comm]
    exact hq
  unfold tgtGet
  dsimp only
  rw [if_neg (by rw [hr]; simpa using hn), hc]
  simp only [hquiet, Bool.or_false, Prod.mk.eta, List.map_id']

theorem getreq_completes : getreqCompletes := by
  intro p pk errs s h n hr hn u v
  refine ⟨fun hc => ?_, fun c hc hq => ?_⟩
  · exact congrArg Host.Outcome.next (State.receiveReq_inTurn h (tgtGet_of_hbm errs hr hn hc))
  · exact congrArg Host.Outcome.next (State.receiveReq_inTurn h (tgtGet_of_store (s := u) errs hr hn hc hq))

theorem atom_completes : atomCompletes := by
  intro p pk s h sz hr hc u bad old new
  exact congrArg Host.Outcome.next (State.receiveReq_inTurn h (tgtAtom_of_hbm rfl rfl hr hc))

/-! Slotted adds. -/

/-- A contribution made ends with an acknowledgement, whether its record is complete or not. -/
theorem addsEnd_acks (t : State) (q : AddRec) (done : State → AddRec → State) (settled : State → AddRec → Nat → State) :
    (if q.next = q.count then
      match q.window with
      | none => (done t q, ackAns)
      | some i => (settled t q i, ackAns)
    else (t.setAdd q true, ackAns)).2 = ackAns := by
  split
  · split <;> rfl
  · rfl

theorem State.addsInto_acks {s : State} {pk : Packet} {r : AddRec} {src : Nat} {con : List PByte}
    (hseen : r.seen.any (fun x => x.1 == src) = false) (hroom : src = r.next ∨ s.addHeld + con.length ≤ s.cfg.addbuf) :
    (s.addsInto pk r src con).2 = ackAns := by
  unfold State.addsInto
  rw [hseen, if_neg Bool.false_ne_true]
  dsimp only
  by_cases hnext : src = r.next
  · rw [if_pos hnext]
    let post (q : AddRec) : AddRec := { q with post := (pk.ttoken, pk.tcell, pk.tlcore, pkFrom pk) }
    exact addsEnd_acks _ _ (fun t q => (t.setAdd (post q) true).flushRec (post q))
      (fun t q i => State.settle i (t.setAdd (post q) true).gal.adds.length (t.setAdd (post q) true))
  · rw [if_neg hnext, if_pos (hroom.resolve_left hnext)]

theorem State.addsInto_held {s : State} {pk : Packet} {r : AddRec} {src : Nat} {con : List PByte}
    (hseen : r.seen.any (fun x => x.1 == src) = false) (hnext : src ≠ r.next)
    (hroom : s.addHeld + con.length ≤ s.cfg.addbuf) :
    (s.addsInto pk r src con).1 =
      s.setAdd { r with
        seen := r.seen ++ [(src, pk.seq)], held := r.held ++ [(src, (con.map Prod.fst, poisWords con))] } true := by
  unfold State.addsInto
  rw [hseen, if_neg Bool.false_ne_true]
  dsimp only
  rw [if_neg hnext, if_pos hroom]

theorem eq_mk_ackAns {x : State × Ans} (h : x.2 = ackAns) : x = (x.1, ackAns) := by rw [← h]

theorem tgtAdds_of_record {pk : Packet} {s : State} (hr : rangeOk pk.addr pk.data.length = true) (hc : csCore pk.addr = none)
    (hw : s.cfg.gradwinAt (pk.addr - pk.fields.getD 5 0) (pk.fields.getD 0 0) = none) :
    tgtAdds pk s = s.addsInto pk (addsRecord s pk) (pk.fields.getD 3 0) (pkBytes pk) := by
  unfold tgtAdds
  dsimp only
  rw [length_pkBytes, hr, if_neg (by decide), hc, if_neg (by decide), hw]
  rfl

theorem adds_completes : addsCompletes := by
  intro p pk s h hr hc hw u r src hseen
  refine ⟨fun hroom => ?_, fun hnext hroom => ?_⟩
  · have hack : (u.addsInto pk r src (pkBytes pk)).2 = ackAns :=
      State.addsInto_acks hseen (by rw [length_pkBytes]; exact hroom)
    exact congrArg Host.Outcome.next (State.receiveReq_acked h
      ((tgtAdds_of_record (s := u) hr hc hw).trans (eq_mk_ackAns hack)))
  · rw [State.addsInto_held hseen hnext (by rw [length_pkBytes]; exact hroom), map_fst_pkBytes]

theorem adds_inWindow : addsInWindow := by
  intro p pk s i wb wl h hr hc base src new hw htype hlo hhi r hcount hseen hroom
  have htgt : tgtAdds pk (s.freeFlits p pk) = (s.freeFlits p pk).addsInto pk r src (pkBytes pk) := by
    have hw' : (s.freeFlits p pk).cfg.gradwinAt (pk.addr - pk.fields.getD 5 0) (pk.fields.getD 0 0) = some (i, wb, wl) := hw
    have hin : (decide (wb ≤ pk.addr - pk.fields.getD 5 0) &&
        decide (pk.addr - pk.fields.getD 5 0 + 2 * pk.fields.getD 0 0 ≤ wb + wl)) = true := by
      rw [decide_eq_true hlo, decide_eq_true hhi]
      rfl
    unfold tgtAdds
    dsimp only
    rw [length_pkBytes, hr, if_neg (by decide), hc, if_neg (by decide), hw']
    dsimp only
    rw [if_neg (not_not.mpr htype), hin, if_neg (by decide)]
    split
    next hnone => rw [show r = new from by show (List.find? _ _).getD new = new; rw [show s.gal.adds.find? (·.same new) = none from hnone]; rfl]
    next q hq =>
      have hrq : r = q := by
        show (List.find? _ _).getD new = q
        rw [show s.gal.adds.find? (·.same new) = some q from hq]
        rfl
      rw [hrq] at hcount ⊢
      rw [if_neg (not_not.mpr hcount)]
  have hack : ((s.freeFlits p pk).addsInto pk r src (pkBytes pk)).2 = ackAns :=
    State.addsInto_acks hseen (by rw [length_pkBytes]; exact hroom)
  exact congrArg Host.Outcome.next (State.receiveReq_acked h (htgt.trans (eq_mk_ackAns hack)))

theorem adda_completes : addaCompletes := by
  intro p pk s h hr hc hw u sum
  have hw' : (s.freeFlits p pk).cfg.gradwinAt (pk.addr - pk.fields.getD 5 0) (pk.fields.getD 0 0) = none := hw
  have htgt : tgtAdda pk (s.freeFlits p pk) = ((u.hwrite pk.addr sum).postPk pk 1, ackAns) := by
    unfold tgtAdda
    dsimp only
    rw [length_pkBytes, hr, if_neg (by decide), hc, if_neg (by decide), hw']
  exact congrArg Host.Outcome.next (State.receiveReq_acked h htgt)

theorem signal_completes : signalCompletes := by
  intro p pk s h hctx
  exact congrArg Host.Outcome.next (State.receiveReq_acked h (if_neg hctx))

/-! Expert exchange. -/

theorem xcnt_completes : xcntCompletes := by
  intro p pk s h f mine u all v cs hnew
  have htgt : tgtXcnt pk u = (if cs.length = f 0 then (xchBases cs).foldl (fun s b =>
      s.sendReq b.1 { ptype := 0x08, tag := b.2.1, fields := [f 2, f 3, b.2.2] }) v else v, ackAns) := by
    unfold tgtXcnt
    exact if_neg (by rw [show u.gal.xchCnt.any _ = false from hnew]; decide)
  exact congrArg (fun t : State => Host.Outcome.next t.xchCheck) (State.receiveReq_acked h htgt)

theorem xbase_completes : xbaseCompletes := by
  intro p pk s k e h hk hctx hfind v all
  have hall : (List.range (bfld e.block 20 2)).all
      (fun i => decide (tabGet 0 (v.core (pk.tag / 256)).xbase (baseKey e.ord i) ≠ 0)) = true ↔ all := by
    simp only [List.all_eq_true, List.mem_range, decide_eq_true_eq]
    rfl
  have htgt : tgtXbase pk (s.freeFlits p pk) = (if (List.range (bfld e.block 20 2)).all
      (fun i => decide (tabGet 0 (v.core (pk.tag / 256)).xbase (baseKey e.ord i) ≠ 0)) then v.xchRows (pk.tag / 256) e else v, ackAns) := by
    unfold tgtXbase
    dsimp only
    rw [show (s.freeFlits p pk).cellOf (pk.tag / 256) = some k from hk]
    dsimp only
    rw [if_neg (show ¬ ((s.freeFlits p pk).cell k).ctx = 3 from hctx),
      show ((s.freeFlits p pk).core (pk.tag / 256)).inflight.find? _ = some e from hfind]
  refine ⟨fun hyes => ?_, fun hno => ?_⟩
  · rw [if_pos (hall.mpr hyes)] at htgt
    exact congrArg (fun t : State => Host.Outcome.next t.xchCheck) (State.receiveReq_acked h htgt)
  · rw [if_neg (fun hc => hno (hall.mp hc))] at htgt
    exact congrArg (fun t : State => Host.Outcome.next t.xchCheck) (State.receiveReq_acked h htgt)

/-! Export records. -/

theorem exprec_completes : exprecCompletes := by
  intro p pk s h f u b bad v
  have hack (t : State) (htgt : tgtExprec pk u = (t, ackAns)) : exec (.exprecReceive (some p) pk) s = .next (acked t pk) :=
    congrArg Host.Outcome.next (State.receiveReq_acked h htgt)
  have hlow (h2 : f 0 < 2) : tgtExprec pk u = if b.length < f 2 then
      ({ u with exp := { u.exp with rxPart := tabSet [] u.exp.rxPart (pkFrom pk) b, rxPois := psPut u.exp.rxPois (pkFrom pk) bad } }, ackAns)
    else ((if f 0 = 1 then v.keepStart pk.sslot b else v.applyRec pk.sslot pk.addr (f 3) b bad).tellFresh s.exp.staleCnt, ackAns) := by
    unfold tgtExprec
    exact if_neg (by show ¬ 2 ≤ f 0; omega)
  refine ⟨fun h2 => hack _ (if_pos h2), fun h2 hlt => hack _ ?_, fun h0 hle => hack _ ?_, fun h1 hle => hack _ ?_⟩
  · rw [hlow h2, if_pos hlt]
  · rw [hlow (by omega), if_neg (by omega), if_neg (by omega)]
  · rw [hlow (by omega), if_neg (by omega), if_pos h1]

theorem resend_completes : resendCompletes := by
  intro p pk s h
  exact congrArg Host.Outcome.next (State.receiveReq_acked (tgt := tgtResend) h rfl)

theorem norm_completes : normCompletes := by
  intro p pk s h hstep hfleet
  exact congrArg Host.Outcome.next (State.receiveReq_acked h (if_pos ⟨hstep, hfleet⟩))

/-! Seal comparisons. -/

theorem sealx_completes : sealxCompletes := by
  intro p pk s h f u
  have hack (t : State) (htgt : tgtSealx pk u = (t, ackAns)) : exec (.sealxReceive (some p) pk) s = .next (acked t pk) :=
    congrArg Host.Outcome.next (State.receiveReq_acked h htgt)
  have hphase (n : Nat) (hn : f 1 = n) : pk.fields.getD 1 0 = n := hn
  refine ⟨fun h4 h5 h6 h7 => hack _ ?_, fun h4 => hack _ ?_, fun h5 hm => hack _ ?_, fun h6 => hack _ ?_, fun h7 => hack _ ?_⟩
  · unfold tgtSealx
    dsimp only
    rw [if_neg h5]
    split
    next h => exact absurd h h4
    next h => exact absurd h h6
    next h => exact absurd h h7
    next => rfl
  · unfold tgtSealx
    simp only [hphase 4 h4]
    rfl
  · have hcfg : (u.touchPhys (pk.fields.getD 3 0) 256 false).cfg = u.cfg := (u.touchPhys_media _ _ _).cfg
    have hm' : (u.cfg.mirrorAt pk.sslot (pk.fields.getD 3 0)).isSome = true := hm
    obtain ⟨x, hx⟩ := Option.isSome_iff_exists.mp hm'
    unfold tgtSealx
    dsimp only
    rw [if_pos (hphase 5 h5), if_pos hm', hcfg, hx]
  · unfold tgtSealx
    simp only [hphase 6 h6]
    rfl
  · unfold tgtSealx
    simp only [hphase 7 h7]
    rfl

/-! Forwarded control datagrams. -/

/-- A forwarded part that asks for no reset is answered and nothing more (R533). -/
theorem execTcdfReceive_acked {s t : State} {p : Fin 8} {pk : Packet} (hfw : s.fwUp = true) (h : InTurn s p pk 0x0D)
    (htgt : tgtTcdf pk (s.freeFlits p pk) = (t, ackAns)) (hreset : pk.fields.getD 0 0 ≠ 16 ∨ pk.fields.getD 5 0 ≠ 0) :
    exec (.tcdfReceive (some p) pk) s = .next (acked t pk) := by
  have hno : (acked t pk).fwdReset pk = acked t pk := by
    unfold State.fwdReset
    exact if_pos (hreset.elim .inl (fun h5 => .inr (.inr (.inr (.inr (.inl h5))))))
  show execTcdfReceive (some p) pk s = _
  unfold execTcdfReceive
  rw [hfw, if_neg (by decide), State.receiveReq_acked h htgt]
  dsimp only
  rw [hno, ite_self]

theorem tcdf_completes : tcdfCompletes := by
  intro p pk s hfw h f u src b
  have hkind (n : Nat) (hn : f 0 = n) : pk.fields.getD 0 0 = n := hn
  have hmsg (h0 : f 0 = 0 ∨ f 0 = 1 ∨ f 0 = 16) : tgtTcdf pk u =
      if b.length < f 5 then (u.setTcdfIn src b, ackAns)
      else (if f 0 % 16 = 0 then (u.setTcdfIn src []).fwdRun src (pk.fields.take 5) b
        else (u.setTcdfIn src []).fwdAnswer (pk.fields.take 5) b, ackAns) := by
    unfold tgtTcdf
    dsimp only
    split
    next h2 => exact absurd (hkind _ rfl ▸ h2) (by omega)
    next h3 => exact absurd (hkind _ rfl ▸ h3) (by omega)
    next h4 => exact absurd (hkind _ rfl ▸ h4) (by omega)
    next => rfl
  refine ⟨fun h2 => ?_, fun h3 => ?_, fun h4 => ?_, fun hk hlt => ?_, fun h1 hle => ?_, fun h0 hle => ?_⟩
  · refine execTcdfReceive_acked hfw h ?_ (.inl (by rw [hkind 2 h2]; decide))
    unfold tgtTcdf
    simp only [hkind 2 h2]
    rfl
  · refine execTcdfReceive_acked hfw h ?_ (.inl (by rw [hkind 3 h3]; decide))
    unfold tgtTcdf
    simp only [hkind 3 h3]
    rfl
  · refine execTcdfReceive_acked hfw h ?_ (.inl (by rw [hkind 4 h4]; decide))
    unfold tgtTcdf
    simp only [hkind 4 h4]
    rfl
  · refine execTcdfReceive_acked hfw h ((hmsg hk).trans (if_pos hlt)) (.inr ?_)
    show f 5 ≠ 0
    omega
  · refine execTcdfReceive_acked hfw h ?_ (.inl (by rw [hkind 1 h1]; decide))
    rw [hmsg (.inr (.inl h1)), if_neg (by omega), if_neg (by omega)]
  · refine execTcdfReceive_acked hfw h ?_ (.inl (by rw [hkind 0 h0]; decide))
    rw [hmsg (.inl h0), if_neg (by omega), if_pos (by omega)]

/-- Settles O21: what each target does, and that a request in turn is answered with it. -/
theorem targetsDoTheirWork : Obligations.TargetsDoTheirWork :=
  ⟨access_keeps, put_lands, put_refused, get_reads, atom_executes, signal_posts, put_completes, getreq_completes, atom_completes,
    adds_completes, adds_inWindow, adda_completes, signal_completes, xcnt_completes, xbase_completes, exprec_completes,
    resend_completes, norm_completes, sealx_completes, tcdf_completes⟩

end Sys2Proof.Machine

end

section

/-! PROOFS. Responses, control packets, timers of a flow and forwarding (O22). -/

namespace Sys2Proof.Machine

open Sys2Proof Sys2Proof.Claims

theorem State.onNews_eq (p : Nat) (pk : Packet) (s : State) (h0 : pk.fields.getD 0 0 ≠ 0) : s.onNews pk = ackEff p pk s := by
  unfold State.onNews ackEff
  dsimp only
  rw [if_neg h0]
  split
  next h =>
    rw [if_pos h]
    simp only [decide_eq_true_eq]
  next h =>
    rw [if_neg (show ¬ pk.fields.getD 0 0 = 0x503 by omega), if_pos h]
    simp only [Bool.and_eq_true, decide_eq_true_eq, Bool.not_eq_true', beq_iff_eq, and_assoc]
  next h =>
    rw [if_neg (show ¬ pk.fields.getD 0 0 = 0x503 by omega), if_neg (show ¬ pk.fields.getD 0 0 = 0x507 by omega), if_pos h]
    simp only [Bool.and_eq_true, decide_eq_true_eq, beq_iff_eq]
  next h =>
    rw [if_neg (show ¬ pk.fields.getD 0 0 = 0x503 by omega), if_neg (show ¬ pk.fields.getD 0 0 = 0x507 by omega),
      if_neg (show ¬ pk.fields.getD 0 0 = 0x512 by omega), if_pos h]
    simp only [decide_eq_true_eq]
  next h503 h507 h512 h25 => rw [if_neg h503, if_neg h507, if_neg h512, if_neg h25]

/-- The meaning of ACK, by its first field (R454, R467). -/
theorem ackEff_eq : (fun p pk (s : State) =>
    if pk.fields.getD 0 0 = 0 then respEff (fun flow s => s.onAck flow pk.seq pk) p pk s else s.onNews pk) = ackEff := by
  funext p pk s
  split
  next h0 =>
    unfold ackEff
    dsimp only
    rw [if_pos h0]
    rfl
  next h0 => exact s.onNews_eq p pk h0

theorem exec_of_controlRow {c : Instr} {r : CtlRow} (h : controlRow c = some r) (s : State) :
    exec c s = .next (s.receiveCtl r.port r.pk r.ty r.eff) := by
  cases c
  case ackReceive port pk =>
    simp only [controlRow, Option.some.injEq] at h
    subst h
    exact congrArg (fun e => Host.Outcome.next (s.receiveCtl port pk 0x10 e)) ackEff_eq
  all_goals
    simp only [controlRow, Option.some.injEq, reduceCtorEq] at h <;> subst h <;> rfl

theorem State.receiveCtl_of_admitted {s : State} {p : Fin 8} {pk : Packet} (h : Admitted s p pk 1) {ty : Nat}
    (hty : pk.ptype = ty) (eff : Nat → Packet → State → State) :
    s.receiveCtl (some p) pk ty eff =
      if pk.dinc ≠ s.gal.incarn.toNat then (s.freeFlits p pk).inject ((s.freeFlits p pk).staleErr pk)
      else eff p pk (s.freeFlits p pk) := by
  have hfilter := State.filter_of_admitted h
  obtain ⟨hme, hcls, hdel, -⟩ := h
  unfold State.receiveCtl
  rw [if_neg (by simp [hty, hcls, hme])]
  dsimp only
  rw [if_pos hdel, hfilter]
  rfl

theorem control_does : controlDoes := by
  intro c r p s hrow hport hty ⟨hadm, hdinc⟩
  rw [exec_of_controlRow hrow, hport, State.receiveCtl_of_admitted hadm hty, if_neg (not_not.mpr hdinc)]

theorem control_stale : controlStale := by
  intro c r p s hrow hport hty hadm hdinc
  rw [exec_of_controlRow hrow, hport, State.receiveCtl_of_admitted hadm hty, if_pos hdinc]
  rfl

/-! Responses. -/

theorem any_seq_of_mem {l : List (Packet × Nat)} {q : Nat} (h : ∃ u ∈ l, u.1.seq = q) :
    l.any (fun u => u.1.seq == q) = true := by
  obtain ⟨u, hu, hq⟩ := h
  exact List.any_eq_true.mpr ⟨u, hu, by rw [hq, beq_self_eq_true]⟩

theorem onOutstanding_of_answers {s : State} {p : Fin 8} {pk : Packet} {ty : Nat} (h : Claims.Answers s p pk ty)
    (eff : Nat → Packet → State → State) :
    onOutstanding eff p pk (s.freeFlits p pk) = eff (respFlow pk) pk (s.freeFlits p pk) := by
  obtain ⟨-, -, hout⟩ := h
  exact if_pos (any_seq_of_mem hout)

theorem responses_complete : responsesComplete := by
  intro p pk s u f
  have hdoes (c : Instr) (r : CtlRow) (hrow : controlRow c = some r) (hport : r.port = some p) (hpk : r.pk = pk)
      (h : Claims.Answers s p pk r.ty) : exec c s = .next (r.eff p pk u) := by
    obtain ⟨hty, hpass, -⟩ := h
    subst hpk
    exact control_does c r p s hrow hport hty hpass
  refine ⟨fun h h0 => ?_, fun h => ?_, fun h => ?_, fun h => ?_, fun h => ?_, fun hty hpass hout => ?_⟩
  · rw [hdoes _ _ rfl rfl rfl h, ← onOutstanding_of_answers h (fun f k s => s.onAck f k.seq k)]
    exact congrArg Host.Outcome.next (if_pos h0)
  · rw [hdoes _ _ rfl rfl rfl h, ← onOutstanding_of_answers h (fun f k s => s.onAck f k.seq k)]
  · rw [hdoes _ _ rfl rfl rfl h, ← onOutstanding_of_answers h (fun f k s => s.onAck f k.seq k)]
  · rw [hdoes _ _ rfl rfl rfl h]
    exact congrArg Host.Outcome.next (onOutstanding_of_answers h (fun f k s => s.onBusy f k.seq))
  · rw [hdoes _ _ rfl rfl rfl h, ← onOutstanding_of_answers h (fun f k s => s.onErr f k.seq k)]
  · rw [control_does (.nakReceive (some p) pk) _ p s rfl rfl hty hpass]
    exact congrArg Host.Outcome.next (if_pos (any_seq_of_mem hout))

theorem answer_lands : answerLands := by
  intro s flow seq n e r howner hty
  unfold State.onAck
  rw [howner]
  dsimp only
  rw [if_neg hty]

/-! The timers of a flow. -/

theorem busy_waits : busyWaits := by
  intro flow q s hbusy hown
  show execBusyRetryTimer flow s = _
  unfold execBusyRetryTimer
  rw [hbusy]
  exact congrArg Host.Outcome.next (if_neg hown)

theorem spent_iff (s : State) (flow seq : Nat) :
    ((s.flow flow).unacked.take 256).any (fun u => u.1.seq == seq && decide (s.cfg.e2eTries ≤ u.2)) = true ↔ Spent s flow seq := by
  unfold Spent
  simp only [List.any_eq_true, Bool.and_eq_true, beq_iff_eq, decide_eq_true_eq]

theorem timeout_resends : timeoutResends := by
  intro flow n pk l s hhead hown
  have hexec : exec (.e2eTimeout flow) s = .next (s.retryFlow flow pk.seq) := by
    show execE2eTimeout flow s = _
    unfold execE2eTimeout
    rw [hhead]
    exact congrArg Host.Outcome.next (if_neg hown)
  have hguard : (((s.flow flow).unacked.take 256).any (fun u => u.1.seq == pk.seq && decide (s.cfg.e2eTries ≤ u.2)) &&
      s.gal.state != .fenced) = true ↔ Spent s flow pk.seq ∧ s.gal.state ≠ .fenced := by
    rw [Bool.and_eq_true, spent_iff, bne_iff_ne]
  refine ⟨fun h => ?_, fun h => ?_⟩
  · rw [hexec]
    exact congrArg Host.Outcome.next (if_pos (hguard.mpr h))
  · rw [hexec]
    refine congrArg Host.Outcome.next (if_neg (fun hc => ?_))
    obtain ⟨hspent, hnf⟩ := hguard.mp hc
    exact h.elim (fun hn => hn hspent) hnf

theorem packet_forwards : forwards := by
  intro p pk s hme hdel hpeer hsinc hinc
  show execPacketForward (some p) pk s = _
  unfold execPacketForward
  dsimp only
  rw [if_pos (by rw [hdel, hme]; rfl), State.filter_of_peer hpeer hsinc hinc]

theorem gnorm_timeout : gnormTimeoutDoes := by
  intro s h
  exact if_pos h

/-- Settles O22: each response and control packet by its row, and one lemma for each timer. -/
theorem responsesAndControlTakeEffect : Obligations.ResponsesAndControlTakeEffect :=
  ⟨control_does, responses_complete, answer_lands, control_stale, busy_waits, timeout_resends, packet_forwards, gnorm_timeout⟩

end Sys2Proof.Machine

end

section

/-! PROOFS. The memory's own work (O28). -/

namespace Sys2Proof.Machine

open Sys2Proof Sys2Proof.Claims

/-! What one sector error does. -/

theorem Plinth.wantRepair_frame (p : Plinth) (row : Nat × (Nat × Nat)) :
    (p.wantRepair row).slice = p.slice ∧ (p.wantRepair row).ue = p.ue ∧ (p.wantRepair row).ce = p.ce := by
  unfold Plinth.wantRepair
  split <;> exact ⟨rfl, rfl, rfl⟩

theorem Plinth.uncorrected_frame (p : Plinth) (row : Nat × (Nat × Nat)) :
    (p.uncorrected row).slice = p.slice ∧ (p.uncorrected row).ue = satAdd p.ue 1 ∧ (p.uncorrected row).ce = p.ce := by
  unfold Plinth.uncorrected
  exact Plinth.wantRepair_frame _ row

theorem Plinth.corrected_frame (p : Plinth) (row : Nat × (Nat × Nat)) (t : Nat) :
    (p.corrected row t).slice = p.slice ∧ (p.corrected row t).ue = p.ue ∧ (p.corrected row t).ce = satAdd p.ce 1 := by
  unfold Plinth.corrected
  dsimp only
  split
  · exact Plinth.wantRepair_frame _ row
  · exact ⟨rfl, rfl, rfl⟩

theorem State.sectorErr_of_ue {s : State} {e : SectorErr} (h : e.ue = true) (src : Nat) :
    s.sectorErr src e = (({ s with hbmPois := psAdd s.hbmPois (e.addr / 64) }.modPlinth (s.cfg.stackOf e.addr).1
      (fun p => p.uncorrected (Config.rowOf (s.cfg.stackOf e.addr).2))).log 0x2101
        [.stack (s.cfg.stackOf e.addr).1, .val 8 (s.cfg.stackOf e.addr).2, .val 1 src]) := by
  unfold State.sectorErr
  dsimp only
  rw [if_pos h]

theorem State.sectorErr_of_ce {s : State} {e : SectorErr} (h : e.ue = false) (src : Nat) :
    s.sectorErr src e = ({ s.timeNow.2 with hbm := memWrite s.hbm (e.addr / 64 * 64) (e.mis.take 64) }.modPlinth
      (s.cfg.stackOf e.addr).1 (fun p => p.corrected (Config.rowOf (s.cfg.stackOf e.addr).2) (s.timeNow.1.toNat % 2 ^ 63))) := by
  unfold State.sectorErr
  dsimp only
  rw [if_neg (by rw [h]; decide)]
  rfl

theorem sectorErr_counts : sectorErrCounts := by
  intro s src e pl
  refine ⟨fun h => ?_, fun h => ?_⟩
  · rw [State.sectorErr_of_ue h, State.log_hbmPois, State.log_hbm, State.log_plinth, State.modPlinth_plinth]
    obtain ⟨-, hue, hce⟩ := Plinth.uncorrected_frame (s.plinth pl) (Config.rowOf (s.cfg.stackOf e.addr).2)
    exact ⟨rfl, rfl, hue, hce⟩
  · rw [State.sectorErr_of_ce h, State.modPlinth_plinth]
    obtain ⟨-, hue, hce⟩ := Plinth.corrected_frame (s.plinth pl) (Config.rowOf (s.cfg.stackOf e.addr).2) (s.timeNow.1.toNat % 2 ^ 63)
    exact ⟨rfl, rfl, rfl, hce, hue⟩

/-- What meeting an error leaves: the slices' lines, the errors that wait, and the sectors poisoned before. -/
theorem State.sectorErr_keeps (s : State) (src : Nat) (e : SectorErr) :
    (∀ j, ((s.sectorErr src e).plinth j).slice = (s.plinth j).slice) ∧ (s.sectorErr src e).mediaErr = s.mediaErr ∧
      ∀ u, u ∈ s.hbmPois → u ∈ (s.sectorErr src e).hbmPois := by
  cases h : e.ue with
  | true =>
    rw [State.sectorErr_of_ue h, State.log_mediaErr, State.log_hbmPois]
    refine ⟨fun j => ?_, rfl, fun u hu => mem_psAdd_of_mem _ _ u hu⟩
    rw [State.log_plinth]
    by_cases hj : j = (s.cfg.stackOf e.addr).1
    · rw [hj, State.modPlinth_plinth]
      exact (Plinth.uncorrected_frame _ _).1
    · rw [State.modPlinth_plinth_ne _ _ _ _ hj]
      rfl
  | false =>
    rw [State.sectorErr_of_ce h]
    refine ⟨fun j => ?_, rfl, fun u hu => hu⟩
    by_cases hj : j = (s.cfg.stackOf e.addr).1
    · rw [hj, State.modPlinth_plinth]
      exact (Plinth.corrected_frame _ _ _).1
    · rw [State.modPlinth_plinth_ne _ _ _ _ hj]
      rfl

theorem State.foldl_sectorErr_keeps (src : Nat) (es : List SectorErr) : ∀ s : State,
    (∀ j, ((es.foldl (fun s e => s.sectorErr src e) s).plinth j).slice = (s.plinth j).slice) ∧
      (es.foldl (fun s e => s.sectorErr src e) s).mediaErr = s.mediaErr ∧
      ∀ u, u ∈ s.hbmPois → u ∈ (es.foldl (fun s e => s.sectorErr src e) s).hbmPois := by
  induction es with
  | nil => exact fun s => ⟨fun _ => rfl, rfl, fun _ h => h⟩
  | cons e es ih =>
    intro s
    obtain ⟨hsl, hme, hpo⟩ := ih (s.sectorErr src e)
    obtain ⟨hsl', hme', hpo'⟩ := s.sectorErr_keeps src e
    exact ⟨fun j => (hsl j).trans (hsl' j), hme.trans hme', fun u hu => hpo u (hpo' u hu)⟩

/-- Every uncorrectable error that an access meets poisons its sector (R369). -/
theorem State.foldl_sectorErr_poisons (src : Nat) (es : List SectorErr) : ∀ s : State, ∀ e ∈ es, e.ue = true →
    e.addr / 64 ∈ (es.foldl (fun s e => s.sectorErr src e) s).hbmPois := by
  induction es with
  | nil => exact fun _ _ h => absurd h List.not_mem_nil
  | cons a es ih =>
    intro s e he hue
    rcases List.mem_cons.mp he with rfl | he
    · refine (State.foldl_sectorErr_keeps src es _).2.2 _ ?_
      dsimp only
      rw [State.sectorErr_of_ue hue, State.log_hbmPois]
      exact self_mem_psAdd _ _
    · exact ih _ e he hue

theorem State.meet_slice (s : State) (src : Nat) (p : SectorErr → Bool) (j : Nat) :
    ((s.meet src p).plinth j).slice = (s.plinth j).slice := by
  unfold State.meet
  exact (State.foldl_sectorErr_keeps src _ _).1 j

theorem State.meet_mediaErr (s : State) (src : Nat) (p : SectorErr → Bool) :
    (s.meet src p).mediaErr = s.mediaErr.filter (fun e => !p e) := by
  unfold State.meet
  exact (State.foldl_sectorErr_keeps src _ _).2.1

theorem State.meet_poisons (s : State) (src : Nat) {p : SectorErr → Bool} {e : SectorErr} (he : e ∈ s.mediaErr)
    (hp : p e = true) (hue : e.ue = true) : e.addr / 64 ∈ (s.meet src p).hbmPois := by
  unfold State.meet
  exact State.foldl_sectorErr_poisons src _ _ e (List.mem_filter.mpr ⟨he, hp⟩) hue

theorem patrol_does : patrolDoes := by
  intro pl found s hup t
  have hpatrol : s.patrol pl found = t := if_pos hup
  have hmedia := (s.decay found).meet_media 1 (fun e => s.errStack e == pl)
  refine ⟨?_, ?_, (s.decay found).meet_mediaErr 1 _, hmedia.cores, hmedia.cells, fun e he hue hst => ?_⟩
  · exact congrArg Host.Outcome.next hpatrol
  · exact congrArg (fun u : State => Host.Outcome.next (u.modPlinth pl (fun p => { p with scrubbing := p.scrubbing && !p.up }))) hpatrol
  · unfold psHas
    rw [List.contains_eq_mem]
    exact decide_eq_true ((s.decay found).meet_poisons 1 he (beq_iff_eq.mpr hst) hue)

/-! Flush, repair, retirement. -/

theorem plcFlush_does : plcFlushDoes := by
  intro pl s hup
  refine ⟨s.modPlinth pl Plinth.flush, congrArg Host.Outcome.next (if_pos hup), ?_, ?_, rfl, ?_⟩
  · rw [State.modPlinth_plinth]
    intro l hl
    obtain ⟨x, -, rfl⟩ := List.mem_map.mp hl
    rfl
  · rw [State.modPlinth_plinth]
    exact List.map_map
  · exact fun j hj => State.modPlinth_plinth_ne _ _ _ _ hj

theorem State.modPlinth_modPlinth (s : State) (n : Nat) (f g : Plinth → Plinth) :
    (s.modPlinth n f).modPlinth n g = s.modPlinth n (fun p => g (f p)) := by
  unfold State.modPlinth tabMod
  simp only [tabGet_tabSet, tabSet_tabSet]

theorem State.modPlinth_eq_const (s : State) (n : Nat) (f : Plinth → Plinth) :
    s.modPlinth n f = s.modPlinth n (fun _ => f (s.plinth n)) := rfl

theorem rowRepair_does : rowRepairDoes := by
  intro pl chan bank row s hup hchan key used u hused
  let f : Plinth → Plinth := fun p => { p with
    copyLeft := 32000
    repaired := (p.repaired.filter (fun r => !(r == key))) ++ [key]
    wants := p.wants.filter (fun r => !(r == key))
    rowCe := p.rowCe.filter (fun e => !(e.1 == key))
    bankSpares := tabSet 0 p.bankSpares (bankKey chan bank) (used + 1) }
  refine ⟨f (u.plinth pl), ?_, ?_, ?_, rfl, s.meet_slice 2 _ pl, rfl, rfl⟩
  · rw [← State.modPlinth_eq_const]
    show execRowRepair pl chan bank row s = _
    unfold execRowRepair
    dsimp only
    rw [if_pos (by rw [hup, decide_eq_true hchan, decide_eq_true hused]; rfl)]
    unfold State.copyMedia
    rw [State.modPlinth_modPlinth]
  · exact List.mem_append_right _ (List.mem_singleton.mpr rfl)
  · exact tabGet_tabSet 0 (u.plinth pl).bankSpares (bankKey chan bank) (used + 1)

theorem frameRetire_does : frameRetireDoes := by
  intro pl frame s hup hframe u
  have hguard : ((s.plinth pl).up && decide (frame < 36864)) = true := by
    rw [hup, decide_eq_true hframe]
    rfl
  refine ⟨fun hlt => ?_, fun hle => ?_⟩
  · show execFrameRetire pl frame s = _
    unfold execFrameRetire
    dsimp only
    rw [if_pos hguard, if_neg (by omega)]
    rfl
  · show execFrameRetire pl frame s = _
    unfold execFrameRetire
    dsimp only
    rw [if_pos hguard, if_pos hle]

theorem noallocRelease_does : noallocReleaseDoes := by
  intro pl line s l hfind
  let p := if l.dirty then (s.plinth pl).ask l.part 256 else s.plinth pl
  let q : Plinth := { p with slice := p.slice.filter (fun x => !(x.addr == line)) }
  have hslice : p.slice = (s.plinth pl).slice := by
    show (if l.dirty then (s.plinth pl).ask l.part 256 else s.plinth pl).slice = _
    split <;> rfl
  have hexec : exec (.noallocLineRelease pl line) s = .next (s.modPlinth pl (fun _ => q)) := by
    show execNoallocLineRelease pl line s = _
    unfold execNoallocLineRelease
    dsimp only
    rw [hfind]
  have hq : (s.modPlinth pl (fun _ => q)).plinth pl = q := State.modPlinth_plinth _ _ _
  refine ⟨_, hexec, ?_, ?_, ?_, ?_, rfl, fun j hj => State.modPlinth_plinth_ne _ _ _ _ hj⟩
  · rw [hq]
    intro x hx hline
    have hkeep := (List.mem_filter.mp hx).2
    rw [hline, beq_self_eq_true] at hkeep
    exact absurd hkeep (by decide)
  · rw [hq]
    intro x hx hline
    refine List.mem_filter.mpr ⟨hslice ▸ hx, ?_⟩
    rw [beq_false_of_ne hline]
    rfl
  · intro hd
    rw [hq]
    show (if l.dirty then (s.plinth pl).ask l.part 256 else s.plinth pl).queue = _
    rw [hd]
    rfl
  · intro hd
    rw [hq]
    show (if l.dirty then (s.plinth pl).ask l.part 256 else s.plinth pl).queue.length = _
    rw [hd]
    exact List.length_append

/-! The regulator (R380). -/

/-- What serving requests leaves of a Plinth: requests only leave the queue, buckets only fall, slice and error counts stay. -/
structure Plinth.Serves (p q : Plinth) : Prop where
  queue : ∀ r ∈ q.queue, r ∈ p.queue
  bktG : ∀ i, tabGet 0 q.bktG i ≤ tabGet 0 p.bktG i
  bktC : ∀ i, tabGet 0 q.bktC i ≤ tabGet 0 p.bktC i
  slice : q.slice = p.slice
  ue : q.ue = p.ue

theorem Plinth.Serves.refl (p : Plinth) : p.Serves p :=
  ⟨fun _ h => h, fun _ => Nat.le_refl _, fun _ => Nat.le_refl _, rfl, rfl⟩

theorem Plinth.Serves.trans {p q r : Plinth} (h : p.Serves q) (h' : q.Serves r) : p.Serves r where
  queue x hx := h.queue x (h'.queue x hx)
  bktG i := (h'.bktG i).trans (h.bktG i)
  bktC i := (h'.bktC i).trans (h.bktC i)
  slice := h'.slice.trans h.slice
  ue := h'.ue.trans h.ue

theorem tabGet_tabSet_sub_le (t : Tab Nat) (k n i : Nat) : tabGet 0 (tabSet 0 t k (tabGet 0 t k - n)) i ≤ tabGet 0 t i := by
  by_cases h : i = k
  · rw [h, tabGet_tabSet]
    exact Nat.sub_le _ _
  · rw [tabGet_tabSet_ne _ _ _ _ _ h]

theorem Plinth.serve_serves (p : Plinth) (r : MemReq) : p.Serves (p.serve r) :=
  ⟨fun _ h => h, fun i => tabGet_tabSet_sub_le _ _ _ i, fun i => tabGet_tabSet_sub_le _ _ _ i, rfl, rfl⟩

/-- One request of the queue looked at by the guaranteed share: served, or put behind those that stay (R380). -/
def Plinth.tryG (p : Plinth) (r : MemReq) : Plinth :=
  if 32 * r.cost ≤ tabGet 0 p.bktG r.part then p.serve r else { p with queue := p.queue ++ [r] }

theorem Plinth.foldl_tryG (l : List MemReq) : ∀ p : Plinth,
    ({ p with queue := p.queue ++ l } : Plinth).Serves (l.foldl Plinth.tryG p) := by
  induction l with
  | nil =>
    intro p
    rw [List.append_nil]
    exact .refl p
  | cons r l ih =>
    intro p
    rw [List.foldl_cons]
    refine Plinth.Serves.trans ?_ (ih (p.tryG r))
    unfold Plinth.tryG
    split
    · have hserve := p.serve_serves r
      refine ⟨fun x hx => ?_, hserve.bktG, hserve.bktC, rfl, rfl⟩
      rcases List.mem_append.mp hx with hq | hl
      · exact List.mem_append_left _ hq
      · exact List.mem_append_right _ (List.mem_cons_of_mem r hl)
    · dsimp only
      rw [List.append_assoc]
      exact .refl _

theorem Plinth.serveG_serves (p : Plinth) : p.Serves p.serveG := by
  have h := Plinth.foldl_tryG p.queue { p with queue := [] }
  rwa [show ({ ({ p with queue := [] } : Plinth) with queue := ({ p with queue := [] } : Plinth).queue ++ p.queue } : Plinth) = p
    from rfl] at h

theorem Plinth.serveC_serves (n : Nat) : ∀ p : Plinth, p.Serves (Plinth.serveC n p) := by
  induction n with
  | zero => exact fun p => .refl p
  | succ n ih =>
    intro p
    unfold Plinth.serveC
    dsimp only
    split
    · exact .refl p
    next i j l _ =>
      split
      · exact .refl p
      next r _ =>
        have hserve := p.serve_serves r
        refine Plinth.Serves.trans ?_ (ih _)
        exact ⟨fun x hx => List.mem_of_mem_eraseIdx hx, hserve.bktG, hserve.bktC, rfl, rfl⟩

theorem Plinth.noteWaits_serves (p : Plinth) : p.Serves p.noteWaits := by
  unfold Plinth.noteWaits
  dsimp only
  split <;> exact ⟨fun _ h => h, fun _ => Nat.le_refl _, fun _ => Nat.le_refl _, rfl, rfl⟩

theorem Plinth.noteWaits_queue (p : Plinth) : p.noteWaits.queue = p.queue := by
  unfold Plinth.noteWaits
  dsimp only
  split <;> rfl

/-- The buckets of one partition filled for a cycle, up to its depth (R380). -/
def Plinth.refillOne (c : Cfg) (p : Plinth) (i : Nat) : Plinth :=
  { p with bktG := tabSet 0 p.bktG i (Nat.min (tabGet 0 p.bktG i + (c.part i).guar) (c.part i).depth),
           bktC := tabSet 0 p.bktC i (Nat.min (tabGet 0 p.bktC i + (c.part i).cap) (c.part i).depth) }

theorem Plinth.refill_frame (p : Plinth) (c : Cfg) :
    (p.refill c).queue = p.queue ∧ (p.refill c).slice = p.slice ∧ (p.refill c).ue = p.ue := by
  have hfold (l : List Nat) : ∀ q : Plinth, (l.foldl (Plinth.refillOne c) q).queue = q.queue ∧
      (l.foldl (Plinth.refillOne c) q).slice = q.slice ∧ (l.foldl (Plinth.refillOne c) q).ue = q.ue := by
    induction l with
    | nil => exact fun _ => ⟨rfl, rfl, rfl⟩
    | cons i l ih => exact fun q => ih (Plinth.refillOne c q i)
  exact hfold (List.range 16) p

/-- A bucket that is filled once holds what it held and its share, up to its depth. -/
theorem foldl_refillOne_bkt (c : Cfg) (i : Nat) (l : List Nat) (hd : l.Nodup) : ∀ p : Plinth,
    tabGet 0 (l.foldl (Plinth.refillOne c) p).bktG i =
        (if i ∈ l then min (tabGet 0 p.bktG i + (c.part i).guar) (c.part i).depth else tabGet 0 p.bktG i) ∧
      tabGet 0 (l.foldl (Plinth.refillOne c) p).bktC i =
        (if i ∈ l then min (tabGet 0 p.bktC i + (c.part i).cap) (c.part i).depth else tabGet 0 p.bktC i) := by
  induction l with
  | nil => exact fun _ => ⟨rfl, rfl⟩
  | cons j l ih =>
    intro p
    obtain ⟨hjl, hd'⟩ := List.nodup_cons.mp hd
    obtain ⟨hg, hc⟩ := ih hd' (Plinth.refillOne c p j)
    rw [List.foldl_cons, hg, hc]
    by_cases hij : i = j
    · subst hij
      rw [if_neg hjl, if_neg hjl, if_pos List.mem_cons_self, if_pos List.mem_cons_self]
      exact ⟨tabGet_tabSet _ _ _ _, tabGet_tabSet _ _ _ _⟩
    · have hmem : i ∈ j :: l ↔ i ∈ l := ⟨fun h => (List.mem_cons.mp h).resolve_left hij, List.mem_cons_of_mem j⟩
      have hG : tabGet 0 (Plinth.refillOne c p j).bktG i = tabGet 0 p.bktG i := tabGet_tabSet_ne _ _ _ _ _ hij
      have hC : tabGet 0 (Plinth.refillOne c p j).bktC i = tabGet 0 p.bktC i := tabGet_tabSet_ne _ _ _ _ _ hij
      simp only [hmem, hG, hC, and_self]

theorem Plinth.refill_bkt (p : Plinth) (c : Cfg) {i : Nat} (hi : i < 16) :
    tabGet 0 (p.refill c).bktG i = min (tabGet 0 p.bktG i + (c.part i).guar) (c.part i).depth ∧
      tabGet 0 (p.refill c).bktC i = min (tabGet 0 p.bktC i + (c.part i).cap) (c.part i).depth := by
  have h := foldl_refillOne_bkt c i (List.range 16) List.nodup_range p
  rwa [if_pos (List.mem_range.mpr hi), if_pos (List.mem_range.mpr hi)] at h

/-- The Plinth once its requests of the cycle were served (R380). -/
def Plinth.servedCycle (p : Plinth) (c : Cfg) : Plinth :=
  (Plinth.serveC (p.refill c).serveG.queue.length (p.refill c).serveG).noteWaits

theorem Plinth.servedCycle_serves (p : Plinth) (c : Cfg) : (p.refill c).Serves (p.servedCycle c) :=
  (Plinth.serveG_serves _).trans ((Plinth.serveC_serves _ _).trans (Plinth.noteWaits_serves _))

theorem regulator_serves : regulatorServes := by
  intro p c
  have hserves := p.servedCycle_serves c
  obtain ⟨hqueue, hslice, hue⟩ := p.refill_frame c
  refine ⟨fun r hr => ?_, fun i hi => ?_, fun r hq hpart hcost hdepth => ?_, hserves.slice.trans hslice, hserves.ue.trans hue⟩
  · exact ⟨r, hqueue ▸ hserves.queue r hr, rfl, rfl⟩
  · obtain ⟨hg, hc⟩ := p.refill_bkt c hi
    exact ⟨(hserves.bktG i).trans (hg ▸ min_le_right _ _), (hserves.bktC i).trans (hc ▸ min_le_right _ _)⟩
  · have hholds : 32 * r.cost ≤ tabGet 0 (p.refill c).bktG r.part := by
      rw [(p.refill_bkt c hpart).1]
      omega
    have hG : (p.refill c).serveG.queue = [] := by
      unfold Plinth.serveG
      rw [hqueue, hq, List.foldl_cons, List.foldl_nil, if_pos hholds]
      rfl
    show (p.servedCycle c).queue = []
    unfold Plinth.servedCycle
    rw [Plinth.noteWaits_queue, hG]
    exact hG

theorem regulatorServe_does : regulatorServeDoes := by
  intro pl s hup
  have hguard : ¬ (!(s.plinth pl).up) = true := by
    rw [hup]
    decide
  refine ⟨fun h => ?_, fun h => ?_⟩
  · show execRegulatorServe pl s = _
    unfold execRegulatorServe
    dsimp only
    rw [if_neg hguard, if_pos h]
  · show execRegulatorServe pl s = _
    unfold execRegulatorServe
    dsimp only
    rw [if_neg hguard, if_neg h]
    simp only [Plinth.copyOn, decide_eq_true_eq]
    rfl

/-! Translation caches and refresh. -/

theorem xlInval_does : xlInvalDoes := fun _ _ => rfl

theorem hbmHeat_does : hbmHeatDoes := by
  intro pl s
  refine ⟨fun h => congrArg Host.Outcome.next (if_pos h), rfl, fun temp ht hhalf hoff => ?_, fun temp ht hhalf => ?_⟩
  · refine ⟨s.modPlinth pl (fun p => { p with hotHalf := true }), ?_, ?_, rfl, rfl, rfl⟩
    · exact if_neg (by rw [hhalf, hoff]; simpa using ht)
    · rw [State.modPlinth_plinth]
  · exact if_neg (by rw [hhalf]; simpa using ht)

/-- Settles O28: one lemma for each of the memory's own events. -/
theorem plinthsActOnTheirOwn : Obligations.PlinthsActOnTheirOwn :=
  ⟨patrol_does, sectorErr_counts, plcFlush_does, rowRepair_does, frameRetire_does, noallocRelease_does, regulatorServe_does,
    regulator_serves, xlInval_does, hbmHeat_does⟩

end Sys2Proof.Machine

end

section

/-! PROOFS. What a class C reset of a cell leaves: a support layer (O31, O37). -/

namespace Sys2Proof.Machine

open Sys2Proof Sys2Proof.Claims

/-! A class C reset of a cell. -/

/-- Every core of a list without repetitions changed by its own function. -/
theorem State.foldl_modCore_core (f : Nat → Core → Core) (n : Nat) (l : List Nat) (hd : l.Nodup) : ∀ s : State,
    (l.foldl (fun s m => s.modCore m (f m)) s).core n = if n ∈ l then f n (s.core n) else s.core n := by
  induction l with
  | nil => exact fun _ => rfl
  | cons m l ih =>
    intro s
    obtain ⟨hml, hd'⟩ := List.nodup_cons.mp hd
    rw [List.foldl_cons, ih hd']
    by_cases hnm : n = m
    · subst hnm
      rw [if_neg hml, if_pos List.mem_cons_self, State.modCore_core]
    · have hmem : n ∈ m :: l ↔ n ∈ l := ⟨fun h => (List.mem_cons.mp h).resolve_left hnm, List.mem_cons_of_mem m⟩
      rw [State.modCore_core_ne _ _ _ _ hnm]
      simp only [hmem]

theorem Cell.members_nodup (c : Cell) : c.members.Nodup := List.Nodup.filter _ List.nodup_range

/-- The second state differs from the first in its cores alone. -/
def CoresOnly (s t : State) : Prop := t = { s with cores := t.cores }

theorem CoresOnly.refl (s : State) : CoresOnly s s := rfl

theorem CoresOnly.trans {s t u : State} (h : CoresOnly s t) (h' : CoresOnly t u) : CoresOnly s u := by
  unfold CoresOnly at *
  rw [h', h]

theorem CoresOnly.foldl {α : Type} {f : State → α → State} (hf : ∀ s x, CoresOnly s (f s x)) (l : List α) (s : State) :
    CoresOnly s (l.foldl f s) := by
  induction l generalizing s with
  | nil => exact .refl s
  | cons x l ih => exact (hf s x).trans (ih _)

theorem CoresOnly.cells {s t : State} (h : CoresOnly s t) : t.cells = s.cells := by rw [h]
theorem CoresOnly.hbm {s t : State} (h : CoresOnly s t) : t.hbm = s.hbm := by rw [h]
theorem CoresOnly.mediaErr {s t : State} (h : CoresOnly s t) : t.mediaErr = s.mediaErr := by rw [h]
theorem CoresOnly.cell {s t : State} (h : CoresOnly s t) (j : Nat) : t.cell j = s.cell j := by
  unfold State.cell
  rw [h.cells]

theorem State.modCore_coresOnly (s : State) (n : Nat) (f : Core → Core) : CoresOnly s (s.modCore n f) := rfl

theorem State.reclock_coresOnly (s : State) (n : Nat) : CoresOnly s (s.reclock n) := rfl

theorem State.reclockCell_coresOnly (s : State) (k : Nat) : CoresOnly s (s.reclockCell k) :=
  CoresOnly.foldl State.reclock_coresOnly _ s

/-- Reclocking changes of a core its present clock alone. -/
theorem State.foldl_reclock_core (n : Nat) (l : List Nat) : ∀ s : State,
    ∃ f, (l.foldl State.reclock s).core n = { s.core n with curFreq := f } ∧ (n ∉ l → f = (s.core n).curFreq) := by
  induction l with
  | nil => exact fun s => ⟨(s.core n).curFreq, rfl, fun _ => rfl⟩
  | cons m l ih =>
    intro s
    obtain ⟨f, hf, hout⟩ := ih (s.reclock m)
    by_cases hnm : n = m
    · subst hnm
      rw [State.reclock_core] at hf
      exact ⟨f, hf, fun h => absurd List.mem_cons_self h⟩
    · rw [s.reclock_core_ne m n hnm] at hf hout
      exact ⟨f, hf, fun h => hout (fun hl => h (List.mem_cons_of_mem m hl))⟩

theorem State.wake_cores_cells_hbm (s : State) : s.wake.cores = s.cores ∧ s.wake.cells = s.cells ∧ s.wake.hbm = s.hbm := by
  unfold State.wake
  split
  · rw [State.log_cores, State.log_cells, State.log_hbm]
    exact ⟨rfl, rfl, rfl⟩
  · exact ⟨rfl, rfl, rfl⟩

theorem State.holdAll_cores_hbm (s : State) (f : Holds → Holds) : (s.holdAll f).cores = s.cores ∧ (s.holdAll f).hbm = s.hbm := by
  unfold State.holdAll
  generalize cellIds.filter (fun k => (s.cell k).exists_) = l
  induction l generalizing s with
  | nil => exact ⟨rfl, rfl⟩
  | cons k l ih => exact ih (s.modCell k (fun c => { c with holds := f c.holds }))

theorem State.dropPending_cores_hbm (s : State) : s.dropPending.cores = s.cores ∧ s.dropPending.hbm = s.hbm := by
  unfold State.dropPending
  dsimp only
  split
  · rw [State.log_cores, State.log_hbm]
    exact State.holdAll_cores_hbm _ _
  · exact ⟨rfl, rfl⟩

/-- The cores of a cell as its class C reset leaves them, but for their clocks (R547). -/
def State.resetMembers (s : State) (k : Nat) : State :=
  (s.cell k).members.foldl (fun t n => t.modCore n (fun co => co.resetMember (s.cell k) ((s.cell k).lcore n))) s

/-- A class C reset of the cores, the cell and the engine of exports, before the clocks and the power state (R547). -/
def State.cellCleared (s : State) (k : Nat) : State :=
  let t := (s.resetMembers k).setCell k (s.cell k).resetC
  { t with exp := { t.exp with greDone := 0, greFb := false } }

theorem State.resetCell_eq (s : State) (k : Nat) : s.resetCell k = ((s.dropPending.cellCleared k).reclockCell k).wake := rfl

theorem State.resetMembers_coresOnly (s : State) (k : Nat) : CoresOnly s (s.resetMembers k) :=
  CoresOnly.foldl (fun (t : State) n => t.modCore_coresOnly n (fun co => co.resetMember (s.cell k) ((s.cell k).lcore n))) _ s

theorem State.cellCleared_cells_hbm (s : State) (k : Nat) :
    (s.cellCleared k).cells = (s.setCell k (s.cell k).resetC).cells ∧ (s.cellCleared k).hbm = s.hbm := by
  refine ⟨?_, (s.resetMembers_coresOnly k).hbm⟩
  show tabSet {} (s.resetMembers k).cells k _ = tabSet {} s.cells k _
  rw [(s.resetMembers_coresOnly k).cells]

theorem State.resetCell_cells_hbm (s : State) (k : Nat) :
    (s.resetCell k).cells = (s.dropPending.setCell k (s.dropPending.cell k).resetC).cells ∧ (s.resetCell k).hbm = s.hbm := by
  obtain ⟨-, hcells, hhbm⟩ := ((s.dropPending.cellCleared k).reclockCell k).wake_cores_cells_hbm
  obtain ⟨hcleared, hsame⟩ := s.dropPending.cellCleared_cells_hbm k
  have hclock := (s.dropPending.cellCleared k).reclockCell_coresOnly k
  rw [State.resetCell_eq, hcells, hhbm, hclock.cells, hclock.hbm]
  exact ⟨hcleared, hsame.trans s.dropPending_cores_hbm.2⟩

theorem State.resetCell_cell (s : State) (k : Nat) : (s.resetCell k).cell k = (s.dropPending.cell k).resetC := by
  have h := s.dropPending.setCell_cell k (s.dropPending.cell k).resetC
  unfold State.cell at *
  rwa [(s.resetCell_cells_hbm k).1]

theorem State.resetCell_cell_ne (s : State) (k j : Nat) (hj : j ≠ k) : (s.resetCell k).cell j = s.dropPending.cell j := by
  have h := s.dropPending.setCell_cell_ne k j (s.dropPending.cell k).resetC hj
  unfold State.cell at *
  rwa [(s.resetCell_cells_hbm k).1]

theorem State.resetMembers_core (s : State) (k n : Nat) : (s.resetMembers k).core n =
    if n ∈ (s.cell k).members then (s.core n).resetMember (s.cell k) ((s.cell k).lcore n) else s.core n :=
  State.foldl_modCore_core (fun n co => co.resetMember (s.cell k) ((s.cell k).lcore n)) n _ (s.cell k).members_nodup s

/-- A core after a class C reset of a cell: reset where it is a member, but for its clock; else as before. -/
theorem State.resetCell_core (s : State) (k n : Nat) : ∃ f, (s.resetCell k).core n =
    { (s.dropPending.resetMembers k).core n with curFreq := f } ∧
      (n ∉ (s.dropPending.cell k).members → f = (s.core n).curFreq) := by
  obtain ⟨hcores, -⟩ := ((s.dropPending.cellCleared k).reclockCell k).wake_cores_cells_hbm
  obtain ⟨f, hf, hout⟩ := (s.dropPending.cellCleared k).foldl_reclock_core n ((s.dropPending.cellCleared k).cell k).members
  have hmembers : ((s.dropPending.cellCleared k).cell k).members = (s.dropPending.cell k).members := by
    show (tabGet {} (s.dropPending.cellCleared k).cells k).members = _
    rw [(s.dropPending.cellCleared_cells_hbm k).1]
    exact (congrArg Cell.members (s.dropPending.setCell_cell k (s.dropPending.cell k).resetC)).trans rfl
  refine ⟨f, ?_, fun hn => ?_⟩
  · rw [State.resetCell_eq]
    unfold State.core at *
    rw [hcores]
    exact hf
  · refine (hout (hmembers ▸ hn)).trans ?_
    show ((s.dropPending.resetMembers k).core n).curFreq = _
    rw [s.dropPending.resetMembers_core, if_neg hn]
    unfold State.core
    rw [s.dropPending_cores_hbm.1]

/-! A member of a cell after its class C reset. -/

theorem Core.takePlan_frame (co : Core) : co.takePlan.treg = co.treg ∧ co.takePlan.mvu = co.mvu := by
  unfold Core.takePlan
  split <;> exact ⟨rfl, rfl⟩

theorem Core.writeConsts_frame (co : Core) (bs : List (Nat × (Nat × List Byte))) (l : Nat) :
    (co.writeConsts bs l).inflight = co.inflight ∧ (co.writeConsts bs l).flg = co.flg ∧
      (co.writeConsts bs l).treg = co.treg ∧ (co.writeConsts bs l).mvu = co.mvu := by
  unfold Core.writeConsts
  induction bs.filter (fun b => b.1 == l) generalizing co with
  | nil => exact ⟨rfl, rfl, rfl, rfl⟩
  | cons b bs ih => exact ih (co.write b.2.1 b.2.2 false)

/-- The reset of a member with the bytes that its plan window gets. -/
def Core.resetWith (co : Core) (c : Cell) (l : Nat) (bs : List Byte) : Core :=
  ((co.takePlan.resetC.write c.pwin bs false).writeConsts c.consts l).setBoard c.tokInit l

theorem Core.resetWith_frame (co : Core) (c : Cell) (l : Nat) (bs : List Byte) :
    (co.resetWith c l bs).inflight = [] ∧ (co.resetWith c l bs).flg = 0 ∧ (co.resetWith c l bs).treg = co.treg ∧
      (co.resetWith c l bs).mvu = co.mvu := by
  obtain ⟨htreg, hmvu⟩ := co.takePlan_frame
  obtain ⟨hinf, hflg, htreg', hmvu'⟩ := (co.takePlan.resetC.write c.pwin bs false).writeConsts_frame c.consts l
  exact ⟨hinf, hflg, htreg'.trans htreg, hmvu'.trans hmvu⟩

theorem Core.resetMember_eq (co : Core) (c : Cell) (l : Nat) :
    co.resetMember c l = co.resetWith c l (List.replicate 4096 0) := by
  unfold Core.resetMember Core.resetWith
  rfl

theorem Core.resetMember_frame (co : Core) (c : Cell) (l : Nat) :
    (co.resetMember c l).inflight = [] ∧ (co.resetMember c l).flg = 0 ∧ (co.resetMember c l).treg = co.treg ∧
      (co.resetMember c l).mvu = co.mvu := by
  rw [co.resetMember_eq]
  exact co.resetWith_frame c l _

theorem State.dropPending_of_not_pending {s : State} (h : s.arm.state ≠ .pending) : s.dropPending = s :=
  if_neg (fun hc => h hc.1)

/-- Settles O37: a class C reset sets its cell, resets the cell's members, and leaves the rest. -/
theorem cellResetIsLocal : Obligations.CellResetIsLocal := by
  unfold Obligations.CellResetIsLocal
  intro s k hpend c
  have hdrop := State.dropPending_of_not_pending hpend
  have hc : c = (s.cell k).resetC := by
    have h := s.resetCell_cell k
    rwa [hdrop] at h
  rw [hc]
  dsimp only [Cell.resetC]
  refine ⟨rfl, rfl, rfl, rfl, rfl, rfl, rfl, rfl, rfl, rfl, fun j hj => ?_, (s.resetCell_cells_hbm k).2, fun n hn => ?_, fun n hn => ?_⟩
  · rw [s.resetCell_cell_ne k j hj, hdrop]
  · obtain ⟨f, hf, hout⟩ := s.resetCell_core k n
    rw [hdrop] at hf hout
    rw [hf, hout hn, s.resetMembers_core, if_neg hn]
  · obtain ⟨f, hf, -⟩ := s.resetCell_core k n
    rw [hf, hdrop, s.resetMembers_core, if_pos hn]
    exact Core.resetMember_frame _ _ _

end Sys2Proof.Machine

end

section

/-! PROOFS. Pre-emption: fault holds end and cells are saved into their image (O31). -/

namespace Sys2Proof.Machine

open Sys2Proof Sys2Proof.Claims

/-! Fault holds. -/

theorem fltRetry_does : fltRetryDoes := by
  intro cell us s hctx
  refine ⟨fun hall => ?_, fun ⟨f, hf, hres⟩ => ?_⟩
  · show execFltRetry cell us s = _
    unfold execFltRetry
    dsimp only
    rw [if_pos hctx, if_pos (List.all_eq_true.mpr hall)]
    rfl
  · have hno : ¬ (s.cell cell).faults.all (·.resolvable) = true := by
      intro h
      have hf' := List.all_eq_true.mp h f hf
      rw [hres] at hf'
      exact absurd hf' (by decide)
    show execFltRetry cell us s = _
    unfold execFltRetry
    dsimp only
    rw [if_pos hctx, if_neg hno]
    rfl

theorem hold_ends : holdEnds := by
  intro cell s
  refine ⟨fun h => ?_, fun h => ?_⟩
  · have hgive : s.giveUp cell = s.startPreempt cell (causeOf (s.cell cell) 1) := if_pos h
    exact ⟨congrArg Host.Outcome.next hgive, congrArg Host.Outcome.next hgive⟩
  · have hstay : s.giveUp cell = s := if_neg h
    exact ⟨congrArg Host.Outcome.next hstay, congrArg Host.Outcome.next hstay⟩

theorem ctxPreempt_does : ctxPreemptDoes := by
  intro cell s hex hctx
  exact congrArg Host.Outcome.next (if_pos (by rw [hex, decide_eq_true hctx]; rfl))

/-! A pre-emption begins. -/

theorem Cell.area_ne_of_areaOk {c : Cell} (h : c.areaOk = true) : c.area.toNat ≠ 0 := by
  obtain ⟨hne, -⟩ := of_decide_eq_true h
  exact hne

theorem State.setValid_hbm_at (s : State) (k v : Nat) (h : (s.cell k).area.toNat ≠ 0) :
    memGet (s.setValid k v).hbm ((s.cell k).area.toNat + 6) = BitVec.ofNat 8 v := by
  unfold State.setValid
  dsimp only
  rw [if_neg h]
  have hin := memGet_memWrite_in (leBytes 1 v) (s.touchPhys ((s.cell k).area.toNat + 6) 1 true).hbm
    ((s.cell k).area.toNat + 6) 0 (by rw [length_leBytes]; decide)
  exact hin

theorem State.ctxInvalid_one_eq (s : State) (k : Nat) :
    s.ctxInvalid k 1 = ((s.log 0x5303 [.cell k, .val 1 1]).resetCell k).modCell k (fun c => { c with img := none }) := rfl

theorem preempt_begins : preemptBegins := by
  intro s k cause
  refine ⟨fun harea => ?_, fun harea => ?_⟩
  · have hstart : s.startPreempt k cause = (s.modCell k (fun c => { c with ctx := 2, pcause := cause })).setValid k 1 := if_pos harea
    have hmedia := (s.modCell k (fun c => { c with ctx := 2, pcause := cause })).setValid_media k 1
    have hcell : ((s.modCell k (fun c => { c with ctx := 2, pcause := cause })).cell k).area = (s.cell k).area := by
      rw [State.modCell_cell]
    rw [hstart]
    refine ⟨?_, ?_, ?_, fun hm a ha => ?_, hmedia.cores, fun j hj => ?_⟩
    · rw [hmedia.cell, State.modCell_cell]
    · rw [hmedia.cell, State.modCell_cell]
    · have hne := Cell.area_ne_of_areaOk harea
      rw [← hcell] at hne ⊢
      exact State.setValid_hbm_at _ k 1 hne
    · rw [← hcell] at ha
      exact (State.setValid_hbm_out (by exact hm) k 1 a ha).trans rfl
    · rw [hmedia.cell, State.modCell_cell_ne _ _ _ _ hj]
  · have hstart : s.startPreempt k cause = s.ctxInvalid k 1 := if_neg (by rw [harea]; decide)
    rw [hstart, State.ctxInvalid_one_eq, State.modCell_cell, State.resetCell_cell]
    exact ⟨rfl, rfl, rfl, ((s.log 0x5303 [.cell k, .val 1 1]).resetCell_cells_hbm k).2.trans (s.log_hbm _ _)⟩

/-! Writes into a range of HBM. -/

theorem memGet_filter (P : Nat → Bool) (j : Nat) (hj : P j = true) (m : Mem) :
    memGet (m.filter (fun e => P e.1)) j = memGet m j := by
  induction m with
  | nil => rfl
  | cons e m ih =>
    by_cases hP : P e.1 = true
    · rw [List.filter_cons_of_pos (p := fun e : Nat × Byte => P e.1) hP]
      unfold memGet tabGet
      split
      · rfl
      · exact ih
    · rw [List.filter_cons_of_neg (p := fun e : Nat × Byte => P e.1) hP, ih]
      have hne : e.1 ≠ j := fun h => hP (h ▸ hj)
      conv_rhs => unfold memGet tabGet
      rw [if_neg hne]
      rfl

theorem memGet_foldl_tabSet_out (a n j : Nat) (h : j < a ∨ a + n ≤ j) (src : Mem) : ∀ q : Mem, (∀ e ∈ src, e.1 < n) →
    memGet (src.foldl (fun q e => tabSet 0 q (e.1 + a) e.2) q) j = memGet q j := by
  induction src with
  | nil => exact fun _ _ => rfl
  | cons e src ih =>
    intro q hsrc
    have he := hsrc e List.mem_cons_self
    rw [List.foldl_cons, ih _ (fun x hx => hsrc x (List.mem_cons_of_mem e hx))]
    exact tabGet_tabSet_ne _ _ _ _ _ (by omega)

theorem memGet_memPut_out (m src : Mem) (a n j : Nat) (h : j < a ∨ a + n ≤ j) : memGet (memPut m a n src) j = memGet m j := by
  unfold memPut
  rw [memGet_foldl_tabSet_out a n j h _ _ (fun e he => of_decide_eq_true (List.mem_filter.mp he).2)]
  exact memGet_filter (fun x => decide (x < a) || decide (a + n ≤ x)) j (by simpa using h) m

/-- The second state differs from the first as accesses of the media make it differ; where no error waits in the media, HBM
differs in the range from `lo` to `hi` alone. -/
structure Wrote (lo hi : Nat) (s t : State) : Prop where
  media : Media s t
  calm : s.mediaErr = [] → t.mediaErr = []
  out : s.mediaErr = [] → ∀ a, a < lo ∨ hi ≤ a → memGet t.hbm a = memGet s.hbm a

theorem Wrote.refl (lo hi : Nat) (s : State) : Wrote lo hi s s := ⟨.refl s, id, fun _ _ _ => rfl⟩

theorem Wrote.trans {lo hi : Nat} {s t u : State} (h : Wrote lo hi s t) (h' : Wrote lo hi t u) : Wrote lo hi s u where
  media := h.media.trans h'.media
  calm hs := h'.calm (h.calm hs)
  out hs a ha := (h'.out (h.calm hs) a ha).trans (h.out hs a ha)

theorem Wrote.foldl {α : Type} {lo hi : Nat} {f : State → α → State} (l : List α) :
    (∀ s, ∀ x ∈ l, Wrote lo hi s (f s x)) → ∀ s, Wrote lo hi s (l.foldl f s) := by
  induction l with
  | nil => exact fun _ s => .refl lo hi s
  | cons x l ih =>
    exact fun hf s => (hf s x List.mem_cons_self).trans (ih (fun t y hy => hf t y (List.mem_cons_of_mem x hy)) _)

theorem State.hbmPut_wrote (s : State) {lo hi a n : Nat} (src : Mem) (hlo : lo ≤ a) (hhi : a + n ≤ hi) :
    Wrote lo hi s (s.hbmPut a n src) := by
  have hcalm := s.touchPhys_calm a n true
  refine ⟨(s.touchPhys_media a n true).trans ⟨_, _, _, _, _, _, _, _, _, _, _, rfl⟩, fun hm => ?_, fun hm x hx => ?_⟩
  · show dropErrs (s.touchPhys a n true).mediaErr a n = []
    rw [(hcalm hm).2.2]
    rfl
  · refine (memGet_memPut_out _ _ _ _ _ (by omega)).trans ?_
    rw [(hcalm hm).1]

theorem Wrote.put {s t : State} {lo hi a n : Nat} {src : Mem} (h : Wrote lo hi s t) (hlo : lo ≤ a) (hhi : a + n ≤ hi) :
    Wrote lo hi s (t.hbmPut a n src) := h.trans (t.hbmPut_wrote src hlo hhi)

/-- The image of one member lies within its region of the context area (R480). -/
theorem State.saveCore_wrote (s : State) {lo hi k l : Nat} (co : Core) (hlo : lo ≤ (s.cell k).region l)
    (hhi : (s.cell k).region l + 33554432 ≤ hi) : Wrote lo hi s (s.saveCore k l co) := by
  unfold State.saveCore
  dsimp only
  generalize (s.cell k).region l = b at hlo hhi
  refine Wrote.put (Wrote.put (Wrote.trans (Wrote.trans (Wrote.put (Wrote.trans (Wrote.put (Wrote.put (.refl lo hi s)
    hlo hhi) (by omega) (by omega)) (Wrote.foldl _ (fun u a ha => ?ram) _)) (by omega) (by omega))
    (Wrote.foldl _ (fun u a ha => ?slices) _)) (Wrote.foldl _ (fun u a ha => ?state) _)) (by omega) (by omega))
    (by omega) (by omega)
  case ram =>
    have ha' := List.mem_range.mp ha
    exact u.hbmPut_wrote _ (by omega) (by omega)
  case slices =>
    have ha' := List.mem_range.mp ha
    refine Wrote.foldl _ (fun v wf hwf => Wrote.foldl _ (fun w n hn => ?_) _) _
    have hn' := List.mem_range.mp hn
    have hf : wf.2 < 2 := List.snd_lt_of_mem_zipIdx hwf
    unfold sliceAt
    exact w.hbmPut_wrote _ (by omega) (by omega)
  case state =>
    have ha' := List.mem_range.mp ha
    exact u.hbmPut_wrote _ (by omega) (by omega)

/-! A cell is saved. -/

/-- The members of a cell as its image keeps them (R480). -/
def State.savedCores (s : State) (k : Nat) : List Core :=
  (s.cell k).members.map (fun n => (((s.core n).saveAdds (s.cell k)).saveMvp (s.cell k) (s.cell k).keyOf).saveLines (s.cell k).cycle)

/-- What the image of a cell keeps beside its bytes in HBM (R480). -/
def Cell.savedImg (c : Cell) (cores : List Core) : CtxImg :=
  { cores := cores, faults := c.faults, perTensor := c.perTensor, uh := c.uh, released := c.released, commitDone := c.commitDone,
    heightQ := c.heightQ }

/-- The header and the members of a cell written into its context area (R479, R480). -/
def State.imageWritten (s : State) (k : Nat) : State :=
  let u := (s.modCell k Cell.fits).timeNow.2
  ((s.savedCores k).zipIdx.foldl (fun t (x : Core × Nat) => t.saveCore k x.2 x.1)
    (u.hbmPut (s.cell k).area.toNat 2097152 (numbered (u.imageHeader k (s.modCell k Cell.fits).timeNow.1.toNat))))

/-- The image written, the members without instructions, VALID 2 (R479, R480). -/
def State.imageValid (s : State) (k : Nat) : State :=
  ((s.cell k).members.foldl (fun t n => t.modCore n Core.emptied) (s.imageWritten k)).setValid k 2

/-- The cell PREEMPTED with its image kept, and its members' clocks off (R480, R488). -/
def State.imageKept (s : State) (k : Nat) : State :=
  ((s.imageValid k).modCell k (fun x => x.saved (s.cell k) (s.savedCores k))).reclockCell k

theorem execPreemptSaveDone_of_held {cell : Fin 16} {s : State} (hctx : (s.cell cell).ctx = 2)
    (hheld : (s.cell cell).run0 = .hold ∧ (s.cell cell).run1 = .hold ∧ (s.cell cell).run2 = .hold) (bad : Bool) (us : Nat) :
    exec (.preemptSaveDone cell bad us) s = .next (if bad then s.ctxInvalid cell 2 else (s.imageKept cell).log 0x5302
      [.cell cell, .val 1 (s.cell cell).pcause, .val 4 (s.cell cell).tick.toNat, .val 4 us]) := by
  have hguard : ¬ (decide ((s.cell cell).ctx ≠ 2) || !decide ((s.cell cell).run0 = .hold ∧ (s.cell cell).run1 = .hold ∧
      (s.cell cell).run2 = .hold)) = true := by
    rw [decide_eq_true hheld, hctx]
    decide
  show execPreemptSaveDone cell bad us s = _
  unfold execPreemptSaveDone
  dsimp only
  rw [if_neg hguard]
  cases bad <;> rfl

/-- The context area of a cell, from its header to its last member's region (R479). -/
def Cell.areaEnd (c : Cell) : Nat := c.area.toNat + 2097152 + c.members.length * 33554432

theorem State.fitted_cell (s : State) (k : Nat) : ((s.modCell k Cell.fits).timeNow.2).cell k = (s.cell k).fits := by
  rw [(State.timeNow_logs _).media.cell, State.modCell_cell]

theorem State.imageWritten_wrote (s : State) (k : Nat) :
    Wrote (s.cell k).area.toNat (s.cell k).areaEnd (s.modCell k Cell.fits).timeNow.2 (s.imageWritten k) := by
  unfold State.imageWritten
  dsimp only
  have hhead := State.hbmPut_wrote (s.modCell k Cell.fits).timeNow.2 (lo := (s.cell k).area.toNat) (hi := (s.cell k).areaEnd) (n := 2097152)
    (numbered ((s.modCell k Cell.fits).timeNow.2.imageHeader k (s.modCell k Cell.fits).timeNow.1.toNat)) (Nat.le_refl _)
    (by unfold Cell.areaEnd; omega)
  have hcores (l : List (Core × Nat)) : (∀ x ∈ l, x.2 < (s.cell k).members.length) → ∀ t : State,
      Wrote (s.cell k).area.toNat (s.cell k).areaEnd (s.modCell k Cell.fits).timeNow.2 t →
      Wrote (s.cell k).area.toNat (s.cell k).areaEnd (s.modCell k Cell.fits).timeNow.2
        (l.foldl (fun t (x : Core × Nat) => t.saveCore k x.2 x.1) t) := by
    induction l with
    | nil => exact fun _ _ h => h
    | cons x l ih =>
      intro hl t ht
      have hx := hl x List.mem_cons_self
      have hregion : (t.cell k).region x.2 = (s.cell k).area.toNat + 2097152 + x.2 * 33554432 := by
        rw [ht.media.cell, s.fitted_cell]
        rfl
      refine ih (fun y hy => hl y (List.mem_cons_of_mem x hy)) _ (ht.trans (t.saveCore_wrote x.1 ?_ ?_))
      · rw [hregion]
        omega
      · rw [hregion]
        unfold Cell.areaEnd
        omega
  refine hcores _ (fun x hx => ?_) _ hhead
  have h := List.snd_lt_of_mem_zipIdx hx
  unfold State.savedCores at h
  rwa [List.length_map] at h

/-- Members without instructions: the other cores and everything else as before. -/
theorem State.emptied_core (s : State) (k n : Nat) (t : State) :
    ((s.cell k).members.foldl (fun t n => t.modCore n Core.emptied) t).core n =
      if n ∈ (s.cell k).members then (t.core n).emptied else t.core n :=
  State.foldl_modCore_core (fun _ co => co.emptied) n _ (s.cell k).members_nodup t

theorem State.imageValid_frame (s : State) (k : Nat) (harea : (s.cell k).areaOk = true) :
    (∀ j, (s.imageValid k).cell j = (s.modCell k Cell.fits).cell j) ∧
      (∀ n, (s.imageValid k).core n = if n ∈ (s.cell k).members then (s.core n).emptied else s.core n) ∧
      memGet (s.imageValid k).hbm ((s.cell k).area.toNat + 6) = 2 ∧
      (s.mediaErr = [] → ∀ a, a < (s.cell k).area.toNat ∨ (s.cell k).areaEnd ≤ a → memGet (s.imageValid k).hbm a = memGet s.hbm a) := by
  have hwrote := s.imageWritten_wrote k
  have hempty : CoresOnly (s.imageWritten k) ((s.cell k).members.foldl (fun t n => t.modCore n Core.emptied) (s.imageWritten k)) :=
    CoresOnly.foldl (fun t n => t.modCore_coresOnly n Core.emptied) _ _
  have hmedia := State.setValid_media (s := (s.cell k).members.foldl (fun t n => t.modCore n Core.emptied) (s.imageWritten k)) k 2
  have htime : Media (s.modCell k Cell.fits) (s.modCell k Cell.fits).timeNow.2 := (State.timeNow_logs _).media
  have hcell (j : Nat) : ((s.cell k).members.foldl (fun t n => t.modCore n Core.emptied) (s.imageWritten k)).cell j =
      (s.modCell k Cell.fits).cell j := by
    rw [hempty.cell, hwrote.media.cell, htime.cell]
  have hareaEq : (((s.cell k).members.foldl (fun t n => t.modCore n Core.emptied) (s.imageWritten k)).cell k).area = (s.cell k).area := by
    rw [hcell, State.modCell_cell]
    rfl
  refine ⟨fun j => ?_, fun n => ?_, ?_, fun hm a ha => ?_⟩
  · exact (hmedia.cell j).trans (hcell j)
  · refine (hmedia.core n).trans ?_
    rw [s.emptied_core, hwrote.media.core, htime.core, State.modCell_core']
  · have hne := Cell.area_ne_of_areaOk harea
    rw [← hareaEq] at hne ⊢
    exact State.setValid_hbm_at _ k 2 hne
  · have hm' : ((s.modCell k Cell.fits).timeNow.2).mediaErr = [] := by
      obtain ⟨-, -, h⟩ := (State.timeNow_logs (s.modCell k Cell.fits)).calm hm
      exact h
    refine (State.setValid_hbm_out ?_ k 2 a ?_).trans ?_
    · exact hempty.mediaErr.trans (hwrote.calm hm')
    · rw [hareaEq]
      unfold Cell.areaEnd at ha
      omega
    · rw [hempty.hbm, hwrote.out hm' a ha]
      obtain ⟨h, -, -⟩ := (State.timeNow_logs (s.modCell k Cell.fits)).calm hm
      rw [h]
      rfl

theorem preemptSave_does : preemptSaveDoes := by
  intro cell us s hctx h0 h1 h2
  have hexec := fun bad => execPreemptSaveDone_of_held (s := s) hctx ⟨h0, h1, h2⟩ bad us
  refine ⟨hexec true, fun harea => ?_⟩
  obtain ⟨hcell, hcore, hvalid, hout⟩ := s.imageValid_frame cell harea
  have hclock := ((s.imageValid cell).modCell cell (fun x => x.saved (s.cell cell) (s.savedCores cell))).reclockCell_coresOnly cell
  have hsaved : (s.imageKept cell).cell cell = (s.cell cell).fits.saved (s.cell cell) (s.savedCores cell) := by
    unfold State.imageKept
    rw [hclock.cell, State.modCell_cell, hcell, State.modCell_cell]
  have hhbm : (s.imageKept cell).hbm = (s.imageValid cell).hbm := hclock.hbm
  have hmembers : (((s.imageValid cell).modCell cell (fun x => x.saved (s.cell cell) (s.savedCores cell))).cell cell).members =
      (s.cell cell).members := by
    rw [State.modCell_cell, hcell, State.modCell_cell]
    rfl
  have hkept (n : Nat) : ∃ f, (s.imageKept cell).core n = { (s.imageValid cell).core n with curFreq := f } ∧
      (n ∉ (s.cell cell).members → f = ((s.imageValid cell).core n).curFreq) := by
    have h := ((s.imageValid cell).modCell cell (fun x => x.saved (s.cell cell) (s.savedCores cell))).foldl_reclock_core n
      (((s.imageValid cell).modCell cell (fun x => x.saved (s.cell cell) (s.savedCores cell))).cell cell).members
    rw [State.modCell_core', hmembers] at h
    unfold State.imageKept State.reclockCell
    rw [hmembers]
    exact h
  have hdone : exec (.preemptSaveDone cell false us) s = .next ((s.imageKept cell).log 0x5302
      [.cell cell, .val 1 (s.cell cell).pcause, .val 4 (s.cell cell).tick.toNat, .val 4 us]) := hexec false
  refine ⟨_, (s.cell cell).savedImg (s.savedCores cell), hdone, ?_, ?_, ?_, ?_, ?_, ?_, fun hm a ha => ?_, fun n hn => ?_,
    fun n hn => ?_, fun j hj => ?_⟩
  · rw [State.log_cell, hsaved]
    rfl
  · rw [State.log_cell, hsaved]
    rfl
  · exact List.length_map _
  · rw [State.log_cell, hsaved]
    rfl
  · rw [State.log_cell, hsaved]
    rfl
  · rw [State.log_hbm, hhbm]
    exact hvalid
  · rw [State.log_hbm, hhbm]
    exact hout hm a ha
  · obtain ⟨f, hf, -⟩ := hkept n
    rw [State.log_core, hf, hcore, if_pos hn]
    rfl
  · obtain ⟨f, hf, hsame⟩ := hkept n
    rw [State.log_core, hf, hsame hn, hcore, if_neg hn]
  · rw [State.log_cell]
    unfold State.imageKept
    rw [hclock.cell, State.modCell_cell_ne _ _ _ _ hj, hcell, State.modCell_cell_ne _ _ _ _ hj]

/-- Settles O31: the ends of a fault hold, the beginning of a pre-emption, and the cell saved. -/
theorem cellsArePreempted : Obligations.CellsArePreempted :=
  ⟨fltRetry_does, hold_ends, ctxPreempt_does, preempt_begins, preemptSave_does⟩

end Sys2Proof.Machine

end

section

/-! PROOFS. Cells resume from their image (O32). -/

namespace Sys2Proof.Machine

open Sys2Proof Sys2Proof.Claims

theorem ctxResume_does : ctxResumeDoes := by
  intro cell s hmay
  have hexec : exec (.ctxResume cell) s = .next (s.startResume cell).1 := congrArg Host.Outcome.next (if_pos hmay)
  have hread : headerRead s cell = if (s.cell cell).area = 0 then s else s.touchPhys (s.cell cell).area.toNat 256 false := rfl
  refine ⟨fun h => ?_, fun r h => ?_⟩
  · rw [hexec]
    unfold State.startResume
    dsimp only
    rw [← hread, h]
  · rw [hexec]
    unfold State.startResume
    dsimp only
    rw [← hread, h]
    rfl

theorem resumeDone_does : resumeDoneDoes := by
  intro cell s hctx hopen
  have hno : ¬ (((List.range (s.cell cell).members.length).map (fun l => s.loadCore cell l ((((s.cell cell).img.getD {}).cores).getD l {}))).any
      (fun co => co.inflight.any Entry.outcomeOpen)) = true := by
    intro h
    obtain ⟨co, hco, hany⟩ := List.any_eq_true.mp h
    obtain ⟨l, hl, rfl⟩ := List.mem_map.mp hco
    obtain ⟨e, he, hout⟩ := List.any_eq_true.mp hany
    have hfalse := hopen l (List.mem_range.mp hl) e he
    rw [hout] at hfalse
    exact absurd hfalse (by decide)
  show execResumeDone cell s = _
  unfold execResumeDone
  dsimp only
  rw [if_neg (not_not.mpr hctx), if_neg hno]
  rfl

/-! The state put back. -/

theorem State.rebuild_coresOnly (s : State) (k n : Nat) (e : Entry) : CoresOnly s (s.rebuild k n e) := by
  unfold State.rebuild
  dsimp only
  split
  · exact .refl s
  · exact s.modCore_coresOnly n _

theorem State.rebuildAll_coresOnly (s : State) (k n : Nat) (kept : Core) : CoresOnly s (s.rebuildAll k n kept) := by
  unfold State.rebuildAll
  exact .foldl (fun t e => t.rebuild_coresOnly k n e) _ _

/-- The second state differs from the first in its cores and its gallery state alone. -/
def CoresGal (s t : State) : Prop := t = { s with cores := t.cores, gal := t.gal }

theorem CoresGal.trans {s t u : State} (h : CoresGal s t) (h' : CoresGal t u) : CoresGal s u := by
  unfold CoresGal at *
  rw [h', h]

theorem CoresOnly.coresGal {s t : State} (h : CoresOnly s t) : CoresGal s t := by
  unfold CoresGal
  rw [h]

theorem CoresGal.cells {s t : State} (h : CoresGal s t) : t.cells = s.cells := by rw [h]
theorem CoresGal.hbm {s t : State} (h : CoresGal s t) : t.hbm = s.hbm := by rw [h]
theorem CoresGal.mediaErr {s t : State} (h : CoresGal s t) : t.mediaErr = s.mediaErr := by rw [h]

theorem State.imageEpochs_coresGal (s : State) (b : List Byte) : CoresGal s (s.imageEpochs b) := by
  unfold State.imageEpochs
  dsimp only
  generalize List.zipIdx _ = l
  induction l generalizing s with
  | nil => exact rfl
  | cons x l ih =>
    refine CoresGal.trans ?_ (ih _)
    dsimp only
    split <;> exact rfl

theorem imageRead_media (s : State) (cell : Nat) : Media s (imageRead s cell) := by
  unfold imageRead State.readRanges
  exact Media.foldl (fun (t : State) (r : Nat × Nat) => t.touchPhys_media r.1 r.2 false) _ _

theorem imageRead_calm (s : State) (cell : Nat) : Calm s (imageRead s cell) := by
  unfold imageRead State.readRanges
  exact Calm.foldl (fun (t : State) (r : Nat × Nat) => t.touchPhys_calm r.1 r.2 false) _ _

/-- The members' cores and the epochs put back (R480, R484). -/
def coresBack (cell : Nat) (s : State) : State :=
  ((s.cell cell).members.zipIdx.foldl (fun t (n, l) =>
    t.setCore n ((t.loadCore cell l (keptOf s cell l)).withLive (t.core n))) (imageRead s cell)).imageEpochs
      (bsub ((imageRead s cell).hbmRead (s.cell cell).area.toNat 768) 256 512)

/-- The cell put back, with its members' instructions (R480 to R482). -/
def cellBack (cell : Nat) (s : State) : State :=
  (s.cell cell).members.zipIdx.foldl (fun t (n, l) => t.rebuildAll cell n (keptOf s cell l))
    ((coresBack cell s).modCell cell (fun x => x.ofImage ((imageRead s cell).hbmRead (s.cell cell).area.toNat 768)
      ((s.cell cell).img.getD {})))

theorem putBack_eq (cell : Nat) (s : State) : putBack cell s = (((cellBack cell s).setValid cell 0).reclockCell cell).log 0x5304
    [.cell cell, .val 4 (bfld ((imageRead s cell).hbmRead (s.cell cell).area.toNat 768) 104 8),
      .val 4 (bfld ((imageRead s cell).hbmRead (s.cell cell).area.toNat 768) 88 8)] := rfl

theorem coresBack_coresGal (cell : Nat) (s : State) : CoresGal (imageRead s cell) (coresBack cell s) := by
  have hfold : CoresOnly (imageRead s cell) ((s.cell cell).members.zipIdx.foldl (fun t (x : Nat × Nat) =>
      t.setCore x.1 ((t.loadCore cell x.2 (keptOf s cell x.2)).withLive (t.core x.1))) (imageRead s cell)) :=
    CoresOnly.foldl (fun (t : State) (x : Nat × Nat) => t.modCore_coresOnly x.1
      (fun co => (t.loadCore cell x.2 (keptOf s cell x.2)).withLive co)) _ _
  exact hfold.coresGal.trans (State.imageEpochs_coresGal _ _)

theorem cellBack_frame (cell : Nat) (s : State) :
    let h := (imageRead s cell).hbmRead (s.cell cell).area.toNat 768
    (cellBack cell s).cell cell = (s.cell cell).ofImage h ((s.cell cell).img.getD {}) ∧
      (∀ j, j ≠ cell → (cellBack cell s).cell j = s.cell j) ∧ (cellBack cell s).hbm = (imageRead s cell).hbm ∧
      (cellBack cell s).mediaErr = (imageRead s cell).mediaErr := by
  have hback := coresBack_coresGal cell s
  have hfold (t : State) : CoresOnly t ((s.cell cell).members.zipIdx.foldl (fun t (x : Nat × Nat) =>
      t.rebuildAll cell x.1 (keptOf s cell x.2)) t) := CoresOnly.foldl (fun (u : State) (x : Nat × Nat) =>
      u.rebuildAll_coresOnly cell x.1 (keptOf s cell x.2)) _ t
  have hcell (j : Nat) : (coresBack cell s).cell j = s.cell j := by
    rw [← (imageRead_media s cell).cell j]
    unfold State.cell
    rw [hback.cells]
  unfold cellBack
  refine ⟨?_, fun j hj => ?_, ?_, ?_⟩
  · rw [(hfold _).cell, State.modCell_cell, hcell]
  · rw [(hfold _).cell, State.modCell_cell_ne _ _ _ _ hj, hcell]
  · rw [(hfold _).hbm, State.modCell_hbm, hback.hbm]
  · rw [(hfold _).mediaErr, State.modCell_mediaErr, hback.mediaErr]

theorem Cell.ofImage_frame (c : Cell) (h : List Byte) (im : CtxImg) :
    (c.ofImage h im).area = c.area ∧ (c.ofImage h im).ctx = 0 ∧ (c.ofImage h im).faults = [] ∧ (c.ofImage h im).img = none ∧
      (c.ofImage h im).step = BitVec.ofNat 64 (bfld h 88 8) ∧ (c.ofImage h im).tick = BitVec.ofNat 48 (bfld h 104 8) := by
  unfold Cell.ofImage
  dsimp only
  simp only [and_self]

theorem resumed_cell : resumedCell := by
  intro cell s harea h c
  obtain ⟨hcell, hother, hhbm, hmedia⟩ := cellBack_frame cell s
  obtain ⟨harea', hctx, hfaults, himg, hstep, htick⟩ := (s.cell cell).ofImage_frame h ((s.cell cell).img.getD {})
  have hvalid := (cellBack cell s).setValid_media cell 0
  have hclock := ((cellBack cell s).setValid cell 0).reclockCell_coresOnly cell
  have hput (j : Nat) : (putBack cell s).cell j = (cellBack cell s).cell j := by
    rw [putBack_eq, State.log_cell, hclock.cell, hvalid.cell]
  have hputhbm : (putBack cell s).hbm = ((cellBack cell s).setValid cell 0).hbm := by
    rw [putBack_eq, State.log_hbm, hclock.hbm]
  have hareaEq : ((cellBack cell s).cell cell).area = (s.cell cell).area := by
    rw [hcell]
    exact harea'
  have hne : ((cellBack cell s).cell cell).area.toNat ≠ 0 := by
    rw [hareaEq]
    exact fun hz => harea (BitVec.eq_of_toNat_eq hz)
  have hc : c = (s.cell cell).ofImage h ((s.cell cell).img.getD {}) := (hput cell).trans hcell
  rw [hc]
  refine ⟨hctx, hfaults, himg, hstep, htick, ?_, fun hm a ha => ?_, fun j hj => (hput j).trans (hother j hj)⟩
  · rw [hputhbm, ← hareaEq]
    exact State.setValid_hbm_at _ cell 0 hne
  · obtain ⟨hb, -, he⟩ := imageRead_calm s cell hm
    rw [hputhbm, State.setValid_hbm_out (hmedia.trans he) cell 0 a (hareaEq ▸ ha), hhbm, hb]

/-- Settles O32: the resume begun or refused, the image put back, and the cell that it leaves. -/
theorem cellsResume : Obligations.CellsResume := ⟨ctxResume_does, resumeDone_does, resumed_cell⟩

end Sys2Proof.Machine

end

section

/-! PROOFS. Control requests: executed once and in order (O33). -/

namespace Sys2Proof.Machine

open Sys2Proof Sys2Proof.Claims

theorem exec_of_tcdRow {c : Instr} {r : TcdRow} (h : tcdRow c = some r) (s : State) :
    exec c s = .next (s.tcd r.m r.op r.payload r.obs r.here r.eff r.post) := by
  cases c <;> simp only [tcdRow, Option.some.injEq, reduceCtorEq] at h <;> subst h <;> rfl

/-- The session entered and the request's place in its order not yet looked at (R527, R528). -/
def entered (s : State) (m : Msg) : State := (arrived s m).modSession m.session (fun x => x.enter m)

/-- A frame that arrives changes free values, what was sent, and the counters of its port. -/
theorem arrived_eq (s : State) (m : Msg) : ∃ fr o q, arrived s m = { s with free := fr, out := o, eths := q } := by
  unfold arrived State.fillBuffer
  dsimp only
  split <;> exact ⟨_, _, _, rfl⟩

theorem arrived_session (s : State) (m : Msg) (id : Nat) : (arrived s m).session? id = s.session? id := by
  obtain ⟨_, _, _, h⟩ := arrived_eq s m
  rw [h]
  rfl

theorem arrived_guard (s : State) (m : Msg) (ss : Session) :
    (ss.port ≠ m.port.val ∨ (!ss.open_) = true ∨ (s.fillBuffer m.port.val).mgmt.halted = true ∨
      (s.fillBuffer m.port.val).rst.quiet.contains (48 + m.port.val) = true) ↔
    (ss.port ≠ m.port.val ∨ ss.open_ = false ∨ s.mgmt.halted = true ∨ s.rst.quiet.contains (48 + m.port.val) = true) := by
  obtain ⟨_, _, _, h⟩ := arrived_eq s m
  unfold arrived at h
  rw [h, Bool.not_eq_true']

theorem State.tcd_of_open {s : State} {m : Msg} {ss : Session} (h : s.session? m.session = some ss)
    (hport : ss.port = m.port.val) (hopen : ss.open_ = true) (hrun : s.mgmt.halted = false)
    (hquiet : s.rst.quiet.contains (48 + m.port.val) = false)
    (op : Nat) (p : List Byte) (obs here : Bool) (eff : Eff) (post : State → State) :
    s.tcd m op p obs here eff post =
      if !ss.verifies m op p m.epoch then (arrived s m).badTag m
      else
        let ss' := ss.enter m
        let u := entered s m
        if m.epoch ≠ ss'.epoch then
          if m.epoch < ss'.epoch then u else u.respond ss' op m.epoch m.seq 6 (u.loadState op)
        else if m.seq = ss'.expect then
          if ss'.rekeyed then u
          else if 64 ≤ ss'.queued.length then u.respond ss' op m.epoch m.seq stBusy (u.loadState op)
          else (Claims.taken s m).tcdRun m ss'.owner op p obs here eff post
        else if m.seq < ss'.expect then
          if ss'.expect ≤ m.seq + 64 then
            match ss'.kept.find? (fun k => k.1 == m.seq) with
            | some (_, st, p) => u.respond ss' op m.epoch m.seq st p
            | none => if ss'.queued.contains m.seq then u.respond ss' op m.epoch m.seq stAccepted (u.loadState op) else u
          else u
        else
          let again := !ss'.naked || decide (Config.draw u.free % 2 = 0)
          let v := { u with free := u.free + b2n ss'.naked }.modSession m.session (fun x => { x with naked := true })
          if again then v.respond ss' op m.epoch m.seq 7 (leBytes 4 ss'.expect) else v := by
  have h' : (s.fillBuffer m.port.val).session? m.session = some ss := (arrived_session s m m.session).trans h
  have hguard : ¬ (ss.port ≠ m.port.val ∨ (!ss.open_) = true ∨ (s.fillBuffer m.port.val).mgmt.halted = true ∨
      (s.fillBuffer m.port.val).rst.quiet.contains (48 + m.port.val) = true) := by
    rw [arrived_guard, hport, hopen, hrun, hquiet]
    simp
  unfold State.tcd
  dsimp only
  rw [h']
  dsimp only
  rw [if_neg hguard]
  rfl

/-! A request of the present EPOCH. -/

section
variable {s : State} {r : TcdRow} {ss : Session}

theorem Session.enter_of_not_rekeyed {x : Session} (h : x.rekeyed = false) (m : Msg) : x.enter m = x :=
  if_neg (by rw [h]; simp)

theorem State.loadState_entered (s : State) (m : Msg) (op : Nat) : (entered s m).loadState op = stateCode s op := by
  obtain ⟨_, _, _, h⟩ := arrived_eq s m
  unfold entered
  rw [h]
  rfl

theorem State.tcd_of_present (h : Present s r ss) :
    s.tcd r.m r.op r.payload r.obs r.here r.eff r.post =
      if r.m.seq = ss.expect then
        if 64 ≤ ss.queued.length then (entered s r.m).respond ss r.op r.m.epoch r.m.seq stBusy (stateCode s r.op)
        else (Claims.taken s r.m).tcdRun r.m ss.owner r.op r.payload r.obs r.here r.eff r.post
      else if r.m.seq < ss.expect then
        if ss.expect ≤ r.m.seq + 64 then
          match ss.kept.find? (fun k => k.1 == r.m.seq) with
          | some (_, st, p) => (entered s r.m).respond ss r.op r.m.epoch r.m.seq st p
          | none => if ss.queued.contains r.m.seq then
              (entered s r.m).respond ss r.op r.m.epoch r.m.seq stAccepted (stateCode s r.op) else entered s r.m
        else entered s r.m
      else
        let again := !ss.naked || decide (Config.draw (entered s r.m).free % 2 = 0)
        let v := { entered s r.m with free := (entered s r.m).free + b2n ss.naked }.modSession r.m.session (fun x => { x with naked := true })
        if again then v.respond ss r.op r.m.epoch r.m.seq 7 (leBytes 4 ss.expect) else v := by
  obtain ⟨⟨hss, hport, hopen, hrun, hquiet, htag⟩, hepoch, hrekeyed⟩ := h
  rw [State.tcd_of_open hss hport hopen hrun hquiet]
  dsimp only
  rw [Session.enter_of_not_rekeyed hrekeyed, htag, if_neg (by decide), if_neg (not_not.mpr hepoch), hrekeyed,
    if_neg Bool.false_ne_true, s.loadState_entered]

theorem State.tcd_of_next (h : Next s r ss) : s.tcd r.m r.op r.payload r.obs r.here r.eff r.post =
    (Claims.taken s r.m).tcdRun r.m ss.owner r.op r.payload r.obs r.here r.eff r.post := by
  obtain ⟨hpres, hseq, hroom⟩ := h
  rw [State.tcd_of_present hpres, if_pos hseq, if_neg (by omega)]

/-! Taking a request changes nothing that decides whether it may run here. -/

theorem taken_eq (s : State) (m : Msg) : ∃ fr o q ss, Claims.taken s m = { s with
    free := fr, out := o, eths := q, hst := { s.hst with sessions := ss } } := by
  obtain ⟨_, _, _, h⟩ := arrived_eq s m
  unfold Claims.taken
  rw [h]
  exact ⟨_, _, _, _, rfl⟩

theorem taken_here (s : State) (m : Msg) (op : Nat) : (Claims.taken s m).ownKey = s.ownKey ∧
    (Claims.taken s m).unfinished m.session 0 = s.unfinished m.session 0 ∧ (Claims.taken s m).loadState op = stateCode s op := by
  obtain ⟨_, _, _, _, h⟩ := taken_eq s m
  rw [h]
  exact ⟨rfl, rfl, rfl⟩

theorem here_iff (s : State) (r : TcdRow) :
    (r.here || r.m.tslot == 255 || flowKey r.m.tfleet r.m.tslot == s.ownKey) = true ↔ Here s r := by
  unfold Here
  simp only [Bool.or_eq_true, beq_iff_eq, or_assoc]

theorem role_ok (h : r.obs = true ∨ ss.owner = true) : ¬ ((!r.obs && !ss.owner) = true) := by
  rcases h with h | h <;> rw [h] <;> simp

/-- A request that is allowed runs, and its answer is sent as its effect says (R527, R529). -/
theorem State.tcdRun_of_allowed (h : Allowed s r ss) :
    (Claims.taken s r.m).tcdRun r.m ss.owner r.op r.payload r.obs r.here r.eff r.post =
      match r.eff (ctxOf r ss) (Claims.taken s r.m) with
      | (t, some (st, p)) =>
        if st = stDone then r.post (t.answer (ctxOf r ss) st p)
        else if st = stAccepted then t.accept (ctxOf r ss) p
        else t.answer (ctxOf r ss) st p
      | (t, none) => t.accept (ctxOf r ss) [] := by
  obtain ⟨hrole, hlen, hhere, hturn⟩ := h
  obtain ⟨hown, hunf, -⟩ := taken_here s r.m r.op
  have hwait : ¬ ((!r.here && (r.m.tslot == 255 || flowKey r.m.tfleet r.m.tslot == s.ownKey) && s.unfinished r.m.session 0) = true) := by
    rcases hturn with h | h <;> rw [h] <;> simp
  unfold State.tcdRun
  dsimp only
  rw [if_neg (role_ok hrole), if_neg (by rw [hlen]; decide), hown, hunf, if_neg hwait, if_pos ((here_iff s r).mpr hhere)]
  rfl

end

theorem tcd_executes : tcdExecutes := by
  intro c r s t ss st p hrow hnext hallowed heff
  rw [exec_of_tcdRow hrow, State.tcd_of_next hnext, State.tcdRun_of_allowed hallowed, heff]
  dsimp only
  by_cases h0 : st = 0
  · subst h0
    rfl
  · rw [if_neg h0, if_neg (show ¬ st = stDone from h0)]
    rfl

theorem tcd_accepts : tcdAccepts := by
  intro c r s t ss hrow hnext hallowed heff
  rw [exec_of_tcdRow hrow, State.tcd_of_next hnext, State.tcdRun_of_allowed hallowed, heff]

theorem tcd_waits : tcdWaits := by
  intro c r s ss hrow hnext hrole hlen hhere hnot hunfinished
  obtain ⟨hown, hunf, hload⟩ := taken_here s r.m r.op
  have hwait : (!r.here && (r.m.tslot == 255 || flowKey r.m.tfleet r.m.tslot == s.ownKey) && s.unfinished r.m.session 0) = true := by
    have h := (here_iff s r).mpr hhere
    rw [hnot, Bool.false_or] at h
    rw [hnot, h, hunfinished]
    rfl
  rw [exec_of_tcdRow hrow, State.tcd_of_next hnext]
  unfold State.tcdRun
  dsimp only
  rw [if_neg (role_ok hrole), if_neg (by rw [hlen]; decide), hown, hunf, if_pos hwait, hload]
  rfl

theorem opPost_of_noReset {op : Nat} (h0 : op ≠ 0x50) (h1 : op ≠ 0x51) (s : State) : opPost op s = s := by
  unfold opPost
  rw [if_neg h0, if_neg h1]

theorem waited_runs : waitedRuns := by
  intro s t w st p hw hfree c heff
  have hguard : ¬ ((!s.hst.waiting.contains w) = true ∨ s.engaged w.id w.frm = true) := by
    rw [List.contains_eq_mem, decide_eq_true hw, hfree]
    decide
  have hrun : s.serveOne w = if st = stAccepted then t else if st = stDone then opPost w.op (t.answer c st p) else t.answer c st p := by
    unfold State.serveOne
    rw [if_neg hguard]
    dsimp only
    rw [heff]
  refine ⟨fun h0 hp hm => ?_, fun h1 => ?_⟩
  · subst h0
    rw [hrun, if_neg (by decide), if_pos (show 0 = stDone from rfl), opPost_of_noReset hp hm]
  · have hdone : ¬ st = stDone := Nat.ne_of_gt (Nat.lt_of_succ_lt h1)
    have hacc : ¬ st = stAccepted := Nat.ne_of_gt h1
    rw [hrun, if_neg hacc, if_neg hdone]

theorem served_inOrder : servedInOrder := by
  intro s
  refine ⟨rfl, fun h => ?_⟩
  unfold State.serve
  rw [h]
  rfl

theorem tcd_duplicate : tcdDuplicate := by
  intro c r s ss hrow hpres hlt hwin t
  have hdup := State.tcd_of_present hpres
  rw [if_neg (by omega), if_pos hlt, if_pos hwin] at hdup
  refine ⟨fun st p hkept => ?_, fun hnone hqueued => ?_⟩
  · rw [exec_of_tcdRow hrow, hdup, hkept]
    rfl
  · rw [exec_of_tcdRow hrow, hdup, hnone]
    dsimp only
    rw [List.contains_eq_mem, if_pos (decide_eq_true hqueued)]
    rfl

theorem tcd_ahead : tcdAhead := by
  intro c r s ss hrow hpres hlt hnaked
  rw [exec_of_tcdRow hrow, State.tcd_of_present hpres, if_neg (by omega), if_neg (by omega)]
  dsimp only
  rw [hnaked]
  rfl

theorem tcd_busy : tcdBusy := by
  intro c r s ss hrow hpres hseq hfull
  rw [exec_of_tcdRow hrow, State.tcd_of_present hpres, if_pos hseq, if_pos hfull]
  rfl

/-- Settles O33: the path of a request of the present EPOCH, by the place of its SEQ. -/
theorem controlRequestsExecuteOnce : Obligations.ControlRequestsExecuteOnce :=
  ⟨tcd_executes, tcd_accepts, tcd_waits, waited_runs, served_inOrder, tcd_duplicate, tcd_ahead, tcd_busy⟩

end Sys2Proof.Machine

end

section

/-! PROOFS. TOKEN_POST to a cell that resumes (O36). -/

namespace Sys2Proof.Machine

open Sys2Proof Sys2Proof.Claims

/-- A token posted into a context image leaves the cores as they are (R484). -/
theorem State.postImg_cores (s : State) (k l t n : Nat) : (s.postImg k l t n).cores = s.cores := by
  have hmedia (u : State) (a : Nat) (b : List Byte) : ((u.touchPhys a 1 true).hbmWrite a b false).cores = u.cores :=
    ((u.touchPhys_media a 1 true).trans (State.hbmWrite_media _ a b false)).cores
  unfold State.postImg
  dsimp only
  split
  · rw [hmedia]
  · rw [State.modCell_cores, hmedia, hmedia]

theorem State.postTo_of_resuming {s : State} {k l p : Nat} (hp : (s.cell k).pcore l = some p) (hctx : (s.cell k).ctx = 4)
    (t n poster : Nat) : s.postTo k l t n poster = s.postImg k l t n := by
  unfold State.postTo
  dsimp only
  rw [hp]
  exact if_pos (.inr hctx)

/-- A device whose cell 0 of one core is RESUMING. -/
def resumingCell : State := { cells := [(0, { mask := 1, ctx := 4 })] }

/-- Refutes O36: TOKEN_POST to a cell that is RESUMING adds to the scoreboard of its context image (R484), and the token of its core
stays; the clause of TOKEN_POST excludes the PREEMPTED cell alone. -/
theorem not_controlRequestsDoTheirWork : ¬ Obligations.ControlRequestsDoTheirWork := by
  intro h
  obtain ⟨-, -, htoken, -⟩ := h
  have hp : (resumingCell.cell 0).pcore 0 = some 0 := by decide
  obtain ⟨t, heff, hcount, -⟩ := htoken {} resumingCell 0 0 1 1 0 (by decide) hp (by decide) (by decide) (by decide) (by decide)
    (by decide) (by decide)
  have hpost : effTokenPost 0 0 1 1 {} resumingCell = (resumingCell.postImg 0 0 1 1, done []) := by
    unfold effTokenPost
    rw [if_neg (by decide), State.postTo_of_resuming hp (by decide)]
  have ht : t = resumingCell.postImg 0 0 1 1 := congrArg Prod.fst (heff.symm.trans hpost)
  have hsame : (t.core 0).token 1 = (resumingCell.core 0).token 1 := by
    unfold State.core
    rw [ht, State.postImg_cores]
  omega

end Sys2Proof.Machine

end

section

/-! PROOFS. RoCEv2: what a queue pair takes, the windows, and the requester (O38). -/

namespace Sys2Proof.Machine

open Sys2Proof Sys2Proof.Claims

/-! The configuration and the PSN. -/

theorem State.sendEth_cfg (s : State) (port prio : Nat) (o : Out) : (s.sendEth port prio o).cfg = s.cfg := by
  unfold State.sendEth
  split <;> rfl

theorem State.sendEthAll_cfg (s : State) (port prio : Nat) (os : List Out) : (s.sendEthAll port prio os).cfg = s.cfg := by
  unfold State.sendEthAll
  induction os generalizing s with
  | nil => rfl
  | cons o os ih => exact (ih _).trans (s.sendEth_cfg port prio o)

theorem State.sendRoce_cfg (s : State) (port : Nat) (ps : List (Nat × (Nat × List Byte))) : (s.sendRoce port ps).cfg = s.cfg :=
  s.sendEthAll_cfg port _ _

theorem State.congestion_cfg (s : State) (x : Qp) (ce : Bool) : (s.congestion x ce).cfg = s.cfg := by
  have hfill : (s.fillBuffer x.port).cfg = s.cfg := by
    unfold State.fillBuffer
    dsimp only
    split <;> rfl
  refine Eq.trans ?_ hfill
  unfold State.congestion State.answerCe
  dsimp only
  split
  · rw [State.sendRoce_cfg]; rfl
  · rfl

theorem psnAhead_self (psn : Nat) : psnAhead psn psn = 0 := by
  unfold psnAhead
  omega

theorem psnAhead_of_lt {psn x : Nat} (h : x < psn) (hpsn : psn < 2 ^ 24) : psnAhead psn x = psn - x := by
  unfold psnAhead
  omega

theorem psnCoversWindow_holds : psnCoversWindow := by
  intro psn o hpsn ho
  unfold psnCovers psnAhead
  refine decide_eq_decide.mpr ?_
  omega

/-! The responder. -/

section
variable {s : State} {q : RoceReq} {x : Qp} {port : Nat}

/-- A request that an open queue pair of a port that is up takes is served by its place before the expected PSN, at it or behind it. -/
theorem State.roceRequest_of_ready (hup : (s.eth port).up = true) (hquiet : s.rst.quiet.contains (48 + port) = false)
    (hsup : q.unsupported = false) (hq : s.qp? q.qpn = some x) (hport : x.port = port) (hst : x.state = .rts)
    (hstore : x.store = none) (read : Bool) (run : Qp → State → State) :
    s.roceRequest port q read run =
      let t := s.congestion x q.ce
      let d := psnAhead q.psn x.hpsn
      if d = 0 then run x t
      else if d < 2 ^ 23 then t.sendRoce port [(q.qpn, 6, leBytes 4 x.hpsn)]
      else if read then run x t
      else if t.hst.rdma.any (fun o => o.qpn == q.qpn && o.psn == q.psn) then t
      else t.sendRoce port [(q.qpn, 0, leBytes 4 q.psn)] := by
  unfold State.roceRequest
  rw [hup, hquiet, hsup, hq]
  simp only [Bool.not_true, Bool.false_eq_true, or_self, if_false]
  rw [if_neg]
  simp [hport, hst, hstore]

theorem State.roceRequest_of_inOrder (h : RoceInOrder s port q x) (read : Bool) (run : Qp → State → State) :
    s.roceRequest port q read run = run x (s.congestion x q.ce) := by
  obtain ⟨hup, hquiet, hsup, hq, hport, hst, hstore, hpsn, -⟩ := h
  rw [State.roceRequest_of_ready hup hquiet hsup hq hport hst hstore]
  dsimp only
  rw [if_pos (by rw [hpsn, psnAhead_self])]

theorem State.roceRequest_of_ahead (hup : (s.eth port).up = true) (hquiet : s.rst.quiet.contains (48 + port) = false)
    (hsup : q.unsupported = false) (hq : s.qp? q.qpn = some x) (hport : x.port = port) (hst : x.state = .rts)
    (hstore : x.store = none) (hlt : x.hpsn < q.psn) (hnear : q.psn < x.hpsn + 2 ^ 23) (hpsn : q.psn < 2 ^ 24) (read : Bool)
    (run : Qp → State → State) :
    s.roceRequest port q read run = (s.congestion x q.ce).sendRoce port [(q.qpn, 6, leBytes 4 x.hpsn)] := by
  rw [State.roceRequest_of_ready hup hquiet hsup hq hport hst hstore]
  dsimp only
  rw [psnAhead_of_lt hlt hpsn, if_neg (by omega), if_pos (by omega)]

theorem State.roceRequest_of_unsupported (hup : (s.eth port).up = true) (hquiet : s.rst.quiet.contains (48 + port) = false)
    (hsup : q.unsupported = true) (read : Bool) (run : Qp → State → State) :
    s.roceRequest port q read run = s.modEth port (fun e => { e with drop := satAdd e.drop 1 }) := by
  unfold State.roceRequest
  rw [hup, hquiet, hsup]
  rfl

end

/-- What a WRITE packet does once its PSN is the expected one: the key and the address that it goes on with are checked. -/
theorem State.rdmaWrite_of_window (s : State) (port : Nat) (x : Qp) (q : RoceReq) {key va len no gpa : Nat}
    (hkey : key = if q.part = 0 ∨ q.part = 3 then q.rkey else x.wkey - 1)
    (hva : va = if q.part = 0 ∨ q.part = 3 then q.va else x.waddr)
    (hlen : len = if q.part = 0 ∨ q.part = 3 then max q.data.length q.len else q.data.length)
    (hform : ¬ (decide (q.part = 0 ∨ q.part = 3) = decide (x.wkey ≠ 0) ∨ 3 < q.part))
    (hw : s.cfg.windowAt key va len true = .ok (no, gpa)) :
    s.rdmaWrite port x q =
      ((s.modQp q.qpn (fun x => { x with hpsn := (x.hpsn + 1) % 2 ^ 24 })).modQp q.qpn (fun x => { x with
        waddr := if decide (q.part = 0 ∨ q.part = 1) = true then va + q.data.length else 0,
        wkey := if decide (q.part = 0 ∨ q.part = 1) = true then key + 1 else 0 })).rdmaSend
        { qpn := q.qpn, psn := q.psn, window := no, off := va } gpa q.data.length
        (fun off k => { ptype := 0x01, fields := [0, 0, 0, 0, 0], data := (q.data.drop off).take k }) := by
  subst hkey hva hlen
  unfold State.rdmaWrite
  dsimp only
  rw [if_neg hform]
  simp only [decide_eq_true_eq] at hw ⊢
  have hcfg : (s.modQp q.qpn (fun x => { x with hpsn := (x.hpsn + 1) % 2 ^ 24 })).cfg = s.cfg := rfl
  rw [hcfg, hw]

theorem rdmaWriteDoes_holds : rdmaWriteDoes := by
  intro port q s x no gpa h hpart hkey hw
  dsimp only
  refine congrArg Host.Outcome.next ((State.roceRequest_of_inOrder h _ _).trans ?_)
  rw [State.rdmaWrite_of_window (s.congestion x q.ce) port x q (key := q.rkey) (va := q.va) (len := max q.data.length q.len)
    (by simp [hpart]) (by simp [hpart]) (by simp [hpart]) (by simp [hpart, hkey]) ((s.congestion_cfg x q.ce).symm ▸ hw)]
  simp [hpart]

theorem rdmaWriteContinues_holds : rdmaWriteContinues := by
  intro port q s x no gpa h hpart hkey hw
  dsimp only
  refine congrArg Host.Outcome.next ((State.roceRequest_of_inOrder h _ _).trans ?_)
  have hmid : ¬ (q.part = 0 ∨ q.part = 3) := by omega
  rw [State.rdmaWrite_of_window (s.congestion x q.ce) port x q (key := x.wkey - 1) (va := x.waddr) (len := q.data.length)
    (by simp [hmid]) (by simp [hmid]) (by simp [hmid]) (by simp [hmid, hkey]; omega) ((s.congestion_cfg x q.ce).symm ▸ hw)]
  have hfirst : q.part = 0 ∨ q.part = 1 ↔ q.part = 1 := by omega
  have hnext : x.wkey - 1 + 1 = x.wkey := by omega
  simp [hfirst, hnext]

theorem rdmaWriteRefused_holds : rdmaWriteRefused := by
  intro port q s x w h hpart hkey hw
  refine congrArg Host.Outcome.next ((State.roceRequest_of_inOrder h _ _).trans ?_)
  unfold State.rdmaWrite
  dsimp only
  rw [if_neg (by simp [hpart, hkey])]
  have hcfg : ((s.congestion x q.ce).modQp q.qpn (fun x => { x with hpsn := (x.hpsn + 1) % 2 ^ 24 })).cfg = s.cfg :=
    s.congestion_cfg x q.ce
  simp only [hpart, or_true, decide_true, if_true, hcfg, hw]

theorem rdmaReadDoes_holds : rdmaReadDoes := by
  intro port q s x no gpa h hw
  dsimp only
  intro hfew
  refine congrArg Host.Outcome.next ((State.roceRequest_of_inOrder h _ _).trans ?_)
  obtain ⟨-, -, -, -, -, -, -, hpsn, -⟩ := h
  unfold State.rdmaRead
  dsimp only
  rw [if_pos (show psnAhead q.psn x.hpsn = 0 by rw [hpsn, psnAhead_self]), if_neg (Nat.not_le.mpr hfew)]
  have hcfg : ((s.congestion x q.ce).modQp q.qpn (fun y =>
      { y with hpsn := (y.hpsn + max 1 (ceilDiv q.len (pmtuBytes x.pmtu))) % 2 ^ 24 })).cfg = s.cfg := s.congestion_cfg x q.ce
  rw [hcfg, hw]

theorem roceOutOfOrder_holds : roceOutOfOrder := by
  intro port q s x hup hquiet
  refine ⟨fun hsup => ?_, fun hsup hq hport hst hstore hlt hnear hpsn => ?_⟩
  · exact ⟨congrArg Host.Outcome.next (State.roceRequest_of_unsupported hup hquiet hsup _ _),
      congrArg Host.Outcome.next (State.roceRequest_of_unsupported hup hquiet hsup _ _)⟩
  · exact ⟨congrArg Host.Outcome.next (State.roceRequest_of_ahead hup hquiet hsup hq hport hst hstore hlt hnear hpsn _ _),
      congrArg Host.Outcome.next (State.roceRequest_of_ahead hup hquiet hsup hq hport hst hstore hlt hnear hpsn _ _)⟩

theorem windowAllows_holds : windowAllows := by
  intro c rkey va n no perm base len w h
  unfold Cfg.windowAt
  rw [h]

/-! The requester. -/

theorem State.qpn_of_requester {s : State} {qpn : Nat} {q : Qp} (h : s.requester? qpn = some q) : q.qpn = qpn := by
  unfold State.requester? at h
  split at h
  next q' hq =>
    split at h
    · obtain rfl := Option.some.inj h
      exact beq_iff_eq.mp (List.find?_some (p := fun q : Qp => q.qpn == qpn) hq)
    · exact absurd h (by simp)
  · exact absurd h (by simp)

/-- The flows that WRITEs of this device alone name are the own one. -/
theorem eraseDups_eq_zero : ∀ {l : List Nat}, l ≠ [] → (∀ n ∈ l, n = 0) → l.eraseDups = [0]
  | [], h, _ => absurd rfl h
  | n :: l, _, h => by
    have hl : l.filter (fun b => !b == n) = [] := by
      refine List.filter_eq_nil_iff.mpr fun b hb => ?_
      rw [h n List.mem_cons_self, h b (List.mem_cons_of_mem _ hb)]
      decide
    rw [List.eraseDups_cons, hl, h n List.mem_cons_self, List.eraseDups_nil]

theorem requesterFails_of_own {s : State} {q : Qp} (hout : q.out ≠ []) (hown : ∀ o ∈ q.out, o.2.1 = 0) :
    s.requesterFails q = (s.modQp q.qpn (fun x => { x with out := [], tries := 0 })).storeFailed := by
  have hflows : (q.out.map (fun o => o.2.1)).eraseDups = [0] :=
    eraseDups_eq_zero (by simpa using hout) (by simpa using fun a b c hx => hown _ hx)
  unfold State.requesterFails
  rw [if_neg (by simpa using hout)]
  dsimp only
  rw [hflows]
  rfl

theorem writesAcked_of_own {s : State} {q : Qp} {psn : Nat} (hown : ∀ o ∈ q.out, o.2.1 = 0) :
    s.writesAcked q psn = s.modQp q.qpn (fun x => { x with tries := 0, out := x.out.filter (fun o => !psnCovers psn o) }) := by
  unfold State.writesAcked
  dsimp only
  have hown' : ∀ o ∈ q.out.filter (psnCovers psn), o.2.1 = 0 := fun o ho => hown o (List.mem_filter.mp ho).1
  generalize q.out.filter (psnCovers psn) = l at hown'
  generalize s.modQp q.qpn _ = u
  induction l with
  | nil => rfl
  | cons o l ih =>
    rw [List.foldl_cons, if_pos (hown' o List.mem_cons_self)]
    exact ih fun p hp => hown' p (List.mem_cons_of_mem _ hp)

theorem requesterDoes_holds : requesterDoes := by
  intro s qpn psn a q h
  have hack : exec (.roceAckReceive qpn psn a) s =
      .next (if a.nak then (s.congestion q a.ce).requesterFails q else (s.congestion q a.ce).writesAcked q psn) := by
    show execRoceAckReceive qpn psn a s = _
    unfold execRoceAckReceive
    rw [h]
  have hretry : exec (.roceRetryTimeout qpn) s =
      if q.out.isEmpty then .next s
      else if q.tries < 7 then
        .next ((s.modQp qpn (fun q => { q with tries := q.tries + 1 })).sendRoce q.port (q.out.map (fun o => (qpn, 5, o.2.2))))
      else .next (s.requesterFails q) := by
    show execRoceRetryTimeout qpn s = _
    unfold execRoceRetryTimeout
    rw [h]
  refine ⟨fun ha => ?_, fun ha => ?_, fun ho => ?_, fun ho ht => ?_, fun ho ht => ?_, fun ho => ?_, fun ho hown => ?_⟩
  · rw [hack, ha]; rfl
  · rw [hack, ha]; rfl
  · rw [hretry, ho]; rfl
  · rw [hretry, if_neg (by simpa using ho), if_pos ht]
  · rw [hretry, if_neg (by simpa using ho), if_neg (by omega)]
  · exact writesAcked_of_own ho
  · exact requesterFails_of_own ho hown

theorem rateDoes_holds : rateDoes := by
  intro s qpn q h
  refine ⟨fun hoff => ?_, fun hon hin => ?_, ?_⟩
  · show execCnpReceive qpn s = _
    unfold execCnpReceive
    rw [h]
    exact if_pos hoff
  · show execCnpReceive qpn s = _
    unfold execCnpReceive
    rw [h]
    dsimp only
    rw [if_neg (by omega), hin]
    rfl
  · show execRateRestoreTimer qpn s = _
    unfold execRateRestoreTimer
    rw [h]

/-- Settles O38: a RoCEv2 request by the place of its PSN, its key and its address; the requester by its outstanding WRITEs. -/
theorem rdmaThroughWindows : Obligations.RdmaThroughWindows :=
  ⟨rdmaWriteDoes_holds, rdmaWriteContinues_holds, rdmaWriteRefused_holds, rdmaReadDoes_holds, roceOutOfOrder_holds, windowAllows_holds,
    requesterDoes_holds, psnCoversWindow_holds, rateDoes_holds⟩

end Sys2Proof.Machine

end

section

/-! PROOFS. Frames and pauses of the Ethernet ports, their links, and the clock (O39). -/

namespace Sys2Proof.Machine

open Sys2Proof Sys2Proof.Claims

/-! Frames and pauses. -/

/-- What leaves one after another stands in the order of its leaving before what left earlier. -/
theorem State.foldl_emit {α : Type} (g : α → Out) (l : List α) (s : State) :
    l.foldl (fun s h => s.emit (g h)) s = { s with out := (l.map g).reverse ++ s.out } := by
  induction l generalizing s with
  | nil => rfl
  | cons h l ih =>
    rw [List.foldl_cons, ih]
    simp [State.emit]

theorem State.unpause_eq (s : State) (port : Nat) :
    s.unpause port = { s.modEth port (fun e => { e with held := e.held.filter (fun h => e.paused.getLsbD h.1) }) with
      out := (((s.eth port).held.filter (fun h => !(s.eth port).paused.getLsbD h.1)).map Prod.snd).reverse ++ s.out } :=
  State.foldl_emit Prod.snd _ _

theorem State.unpause_frame (s : State) (port : Nat) :
    ((s.unpause port).eth port).held = (s.eth port).held.filter (fun h => (s.eth port).paused.getLsbD h.1) ∧
      (s.unpause port).out =
        (((s.eth port).held.filter (fun h => !(s.eth port).paused.getLsbD h.1)).map Prod.snd).reverse ++ s.out := by
  rw [s.unpause_eq port]
  refine ⟨?_, rfl⟩
  show ((s.modEth port (fun e => { e with held := e.held.filter (fun h => e.paused.getLsbD h.1) })).eth port).held = _
  rw [State.modEth_eth]

theorem State.sendEth_frame (s : State) (port prio : Nat) (o : Out) :
    ((s.eth port).paused.getLsbD prio = true → (s.sendEth port prio o).out = s.out ∧
      ((s.sendEth port prio o).eth port).held = (s.eth port).held ++ [(prio, o)]) ∧
    ((s.eth port).paused.getLsbD prio = false → s.sendEth port prio o = { s with out := o :: s.out }) := by
  unfold State.sendEth
  refine ⟨fun h => ?_, fun h => ?_⟩
  · rw [if_pos h]
    exact ⟨rfl, congrArg Eth.held (State.modEth_eth s port _)⟩
  · rw [if_neg (by rw [h]; exact Bool.false_ne_true)]
    rfl

theorem exec_neighbourFrame_of_up {s : State} {port : Fin 3} (hup : (s.eth port).up = true) (f : NbrFrame) :
    exec (.neighbourFrame port f) s =
      let drop := s.modEth port (fun e => { e with drop := satAdd e.drop 1 })
      if 9216 < f.len ∨ 1 < f.tags then .next drop
      else match frameReply f.kind with
        | some k => .next (s.emit (.frame { s.wire port 0 with ect := (s.wire port 0).ect && decide (k ≠ 0) } k))
        | none => .next drop := by
  show execNeighbourFrame port f s = _
  unfold execNeighbourFrame
  rw [hup]
  rfl

theorem framesDo_holds : framesDo := by
  intro s
  refine ⟨fun port prios hup => ?_, s.sendEth_frame, s.unpause_frame, fun port f hup => ⟨fun h => ?_, fun k hlen htags hk => ?_⟩⟩
  · show execPauseFrameReceive port prios s = _
    unfold execPauseFrameReceive
    rw [hup]
    rfl
  · rw [exec_neighbourFrame_of_up hup]
    dsimp only
    split
    · rfl
    next hform =>
      rw [show frameReply f.kind = none by
        rcases h with h | h | h
        · exact absurd (.inl h) hform
        · exact absurd (.inr h) hform
        · exact h]
  · rw [exec_neighbourFrame_of_up hup]
    dsimp only
    rw [if_neg (by omega), hk]
    refine ⟨_, rfl, rfl, rfl, rfl, fun hect => ?_⟩
    exact of_decide_eq_true (Bool.and_eq_true_iff.mp hect).2

/-! Links. -/

theorem ethLinkDoes_holds : ethLinkDoes := by
  intro port mode s hoff
  have hlink (up : Bool) (h : (s.eth port).up ≠ up) : exec (.ethLink port up mode) s =
      if up then
        if s.ethMay port mode then
          let s := s.modEth port (fun e => { e with up := true, mode := BitVec.ofNat 3 mode })
          .next (if s.fwUp then s.log 0x4201 [.eth port, .val 1 mode, .val 1 1] else s)
        else .next s
      else
        let t := s.modEth port (fun e => { e with up := false, mode := 0 })
        .next (if t.fwUp then t.log 0x4201 [.eth port, .val 1 (s.eth port).mode.toNat, .val 1 0] else t) := by
    show execEthLink port up mode s = _
    unfold execEthLink
    exact if_neg (by rw [hoff]; simpa using fun hc => h hc.symm)
  refine ⟨fun hdown hrec hstage hmode => ?_, fun hdown hrec hport => ?_, fun hrec hport => ?_, fun hup => ?_⟩
  · refine (hlink true (by simp [hdown])).trans ((if_pos rfl).trans (if_pos ?_))
    simp [State.ethMay, hrec, hstage, hmode]
  · refine (hlink true (by simp [hdown])).trans ((if_pos rfl).trans (if_pos ?_))
    simp [State.ethMay, hrec, hport]
  · by_cases hup : (s.eth port).up = true
    · show execEthLink port true mode s = _
      unfold execEthLink
      exact if_pos (.inr hup.symm)
    · refine (hlink true hup).trans ((if_pos rfl).trans (if_neg ?_))
      simp [State.ethMay, hrec, hport]
  · exact (hlink false (by simp [hup])).trans (if_neg Bool.false_ne_true)

/-! The clock. -/

theorem exec_ptpMessage_of_own {s : State} {port : Fin 3} {m : PtpMsg} (hup : (s.eth port).up = true) (hoff : s.pwr.off = false)
    (hcfg : s.cfg.ptpCfg = [port.val, m.domain, m.transport]) (time : BitVec 63) :
    exec (.ptpMessageReceive port m time) s =
      let u : State := { s with free := s.free + 1 }
      let heard (n : Nat) (t : BitVec 63) (sent : Option (BitVec 63)) : State := { u with ptp := { u.ptp with sync := some (n, t, sent) } }
      match m.kind.val, s.ptp.sync, s.ptp.req with
      | 0, _, _ => .next (heard m.seq s.stamp.1 (some time)).sendDelayReq
      | 1, _, _ => .next (heard m.seq s.stamp.1 none)
      | 2, some (n, t2, none), _ => if n = m.seq then .next (heard n t2 (some time)).sendDelayReq else .next u
      | 3, some (_, t2, some t1), some (r, t3) => if r = m.seq then .next (u.ptpSet (ptpOffset t1 t2 t3 time)) else .next u
      | _, _, _ => .next u := by
  show execPtpMessageReceive port m time s = _
  unfold execPtpMessageReceive
  rw [hup, hoff, if_neg (by simp [hcfg])]
  rfl

theorem ptpDoes_holds : ptpDoes := by
  intro port m time s hup hoff
  dsimp only
  refine ⟨fun hcfg => ?_, fun hcfg => ?_⟩
  · show execPtpMessageReceive port m time s = _
    unfold execPtpMessageReceive
    exact if_pos (.inr (.inr hcfg))
  · rw [exec_ptpMessage_of_own hup hoff hcfg]
    refine ⟨fun hk => ?_, fun hk => ?_, fun t2 hk hsync => ?_, fun n t1 t2 t3 hk hsync hreq => ?_⟩
    · rw [hk]; rfl
    · rw [hk]; rfl
    · rw [hk, hsync]
      exact if_pos rfl
    · rw [hk, hsync, hreq]
      exact if_pos rfl

theorem sshiftRight_add_self {w : Nat} {d : BitVec w} (h : (2 * d.toInt).bmod (2 ^ w) = 2 * d.toInt) :
    (d + d).sshiftRight 1 = d := by
  apply BitVec.eq_of_toInt_eq
  rw [BitVec.toInt_sshiftRight, BitVec.toInt_add, ← Int.two_mul, h, Int.shiftRight_eq_div_pow]
  omega

theorem sub_sub_way {w : Nat} (t1 t3 d u : BitVec w) : (t1 + u + d - t1) - (t3 - d + u - t3) = d + d := by
  grind

/-- Twice an offset of at most 2^61 either way is no overflow, and its half is the offset. -/
theorem ptpOffset_of_delay (t1 t3 d u : BitVec 63) (hd : d.toNat < 2 ^ 61 ∨ 2 ^ 63 ≤ d.toNat + 2 ^ 61) :
    ptpOffset t1 (t1 + u + d) t3 (t3 - d + u) = d := by
  have hlt := d.isLt
  have hint : -2 ^ 61 ≤ d.toInt ∧ d.toInt < 2 ^ 61 := by
    rw [BitVec.toInt_eq_toNat_cond]
    split <;> omega
  unfold ptpOffset
  rw [sub_sub_way, sshiftRight_add_self (Int.bmod_eq_of_le (by omega) (by omega))]

theorem ptpLocks_holds : ptpLocks := by
  intro s off
  refine ⟨⟨{ s with
    ptp := { s.ptp with everLock := true, base := s.ptp.base - off, locked := true, offset := off.setWidth 32, req := none } },
    fun h => ?_, fun h => ?_, rfl, rfl, rfl, rfl, rfl⟩, ptpOffset_of_delay, fun h => ?_⟩
  · unfold State.ptpSet
    exact if_pos h
  · unfold State.ptpSet
    exact if_neg (by rw [h]; exact Bool.false_ne_true)
  · show execPtpMasterLoss s = _
    unfold execPtpMasterLoss
    exact if_pos h

/-- Settles O39: the frames of a port by its pauses, a link by its mode, and the clock by the messages of its exchange. -/
theorem ethernetAndClock : Obligations.EthernetAndClock :=
  ⟨framesDo_holds, ethLinkDoes_holds, ptpDoes_holds, ptpLocks_holds⟩

end Sys2Proof.Machine

end

section

/-! PROOFS. What the steps of a reset of the module leave, each said once. -/

namespace Sys2Proof.Machine

open Sys2Proof Sys2Proof.Claims

/-! Tables mapped value by value, without the entries that come to hold the default. -/

/-- A table whose values have been replaced, the default values dropped. -/
def tabMap {α : Type} [DecidableEq α] (d : α) (f : α → α) (t : Tab α) : Tab α :=
  (t.map (fun e => (e.1, f e.2))).filter (fun e => decide (e.2 ≠ d))

theorem tabGet_of_keys {α : Type} (d : α) {t : Tab α} {k : Nat} (h : ∀ e ∈ t, e.1 ≠ k) : tabGet d t k = d := by
  induction t with
  | nil => rfl
  | cons e r ih =>
    rw [tabGet, if_neg (h e List.mem_cons_self)]
    exact ih fun x hx => h x (List.mem_cons_of_mem _ hx)

/-- What a table holds at a key is its default or the value of one of its entries. -/
theorem tabGet_mem {α : Type} (d : α) (t : Tab α) (k : Nat) : tabGet d t k = d ∨ ∃ e ∈ t, tabGet d t k = e.2 := by
  induction t with
  | nil => exact .inl rfl
  | cons e r ih =>
    rw [tabGet]
    split
    · exact .inr ⟨e, List.mem_cons_self, rfl⟩
    · exact ih.imp_right fun ⟨x, hx, heq⟩ => ⟨x, List.mem_cons_of_mem _ hx, heq⟩

theorem tabMap_keys {α : Type} [DecidableEq α] {d : α} {f : α → α} {t : Tab α} {e : Nat × α} (h : e ∈ tabMap d f t) :
    ∃ x ∈ t, e = (x.1, f x.2) := by
  obtain ⟨x, hx, rfl⟩ := List.mem_map.mp (List.mem_filter.mp h).1
  exact ⟨x, hx, rfl⟩

theorem tabGet_tabMap_pairwise {α : Type} [DecidableEq α] {d : α} {f : α → α} (hd : f d = d) {t : Tab α}
    (ht : (t.map Prod.fst).Pairwise (· < ·)) (k : Nat) : tabGet d (tabMap d f t) k = f (tabGet d t k) := by
  induction t with
  | nil => exact hd.symm
  | cons e r ih =>
    obtain ⟨hlt, hr⟩ := List.pairwise_cons.mp ht
    have hcons : tabMap d f (e :: r) = if f e.2 = d then tabMap d f r else (e.1, f e.2) :: tabMap d f r := by
      simp [tabMap, List.filter_cons]
    rw [hcons, tabGet]
    by_cases hk : e.1 = k
    · have hnone : tabGet d (tabMap d f r) k = d := by
        refine tabGet_of_keys d fun x hx => ?_
        obtain ⟨y, hy, rfl⟩ := tabMap_keys hx
        have := hlt y.1 (List.mem_map_of_mem hy)
        show y.1 ≠ k
        omega
      split
      next hdef => rw [hnone, hdef]
      · rw [tabGet, if_pos hk]
    · split
      · exact ih hr
      · rw [tabGet, if_neg hk, ih hr]

theorem tabGet_tabMap {α : Type} [DecidableEq α] {d : α} {f : α → α} (hd : f d = d) {t : Tab α} (ht : tabWf d t = true) (k : Nat) :
    tabGet d (tabMap d f t) k = f (tabGet d t k) :=
  tabGet_tabMap_pairwise hd ((tabWf_iff d t).mp ht).1 k

/-- A mapped table, whatever its order, holds at each key the default or a mapped value. -/
theorem tabGet_tabMap_mem {α : Type} [DecidableEq α] (d : α) (f : α → α) (t : Tab α) (k : Nat) :
    tabGet d (tabMap d f t) k = d ∨ ∃ x, tabGet d (tabMap d f t) k = f x := by
  refine (tabGet_mem d (tabMap d f t) k).imp_right fun ⟨e, he, heq⟩ => ?_
  obtain ⟨x, -, rfl⟩ := tabMap_keys he
  exact ⟨x.2, heq⟩

/-! Steps over a range of numbers. -/

/-- A step that changes the part of its own number alone, taken for every number of a list once, changes each of them once. -/
theorem foldl_part {β : Type} (g : State → Nat → β) (step : State → Nat → State) (h : β → β)
    (hat : ∀ s n, g (step s n) n = h (g s n)) (hne : ∀ s n j, j ≠ n → g (step s n) j = g s j) (l : List Nat) (hl : l.Nodup)
    (s : State) (j : Nat) : g (l.foldl step s) j = if j ∈ l then h (g s j) else g s j := by
  induction l generalizing s with
  | nil => rfl
  | cons n l ih =>
    obtain ⟨hn, hl⟩ := List.nodup_cons.mp hl
    rw [List.foldl_cons, ih hl]
    by_cases hj : j = n
    · subst hj
      rw [if_neg hn, hat, if_pos List.mem_cons_self]
    · rw [hne s n j hj]
      simp [hj]

/-! What a W reset's steps leave of the parts that a reset keeps. -/

/-- The second state has the first one's cores, fuses, owner, image, armature in force, input readings and engine of exports. -/
structure Steady (s t : State) : Prop where
  cores : t.cores = s.cores
  fuse : t.mgmt.fuse = s.mgmt.fuse
  own0 : t.mgmt.own0 = s.mgmt.own0
  own1 : t.mgmt.own1 = s.mgmt.own1
  image : t.mgmt.image = s.mgmt.image
  inForce : t.arm.inForce = s.arm.inForce
  vin : t.pwr.vin = s.pwr.vin
  vmin : t.pwr.vmin = s.pwr.vmin
  exp : t.exp = s.exp

theorem Steady.refl (s : State) : Steady s s := ⟨rfl, rfl, rfl, rfl, rfl, rfl, rfl, rfl, rfl⟩

theorem Steady.trans {s t u : State} (h : Steady s t) (h' : Steady t u) : Steady s u where
  cores := h'.cores.trans h.cores
  fuse := h'.fuse.trans h.fuse
  own0 := h'.own0.trans h.own0
  own1 := h'.own1.trans h.own1
  image := h'.image.trans h.image
  inForce := h'.inForce.trans h.inForce
  vin := h'.vin.trans h.vin
  vmin := h'.vmin.trans h.vmin
  exp := h'.exp.trans h.exp

theorem Steady.foldl {α : Type} {f : State → α → State} (hf : ∀ s x, Steady s (f s x)) (l : List α) (s : State) :
    Steady s (l.foldl f s) := by
  induction l generalizing s with
  | nil => exact .refl s
  | cons x l ih => exact (hf s x).trans (ih _)

theorem Steady.ite {p : Prop} [Decidable p] {s t u : State} (ht : Steady s t) (hu : Steady s u) : Steady s (if p then t else u) := by
  split <;> assumption

theorem Media.steady {s t : State} (h : Media s t) : Steady s t := by
  obtain ⟨_, _, _, _, _, _, _, _, _, _, _, rfl⟩ := h
  exact ⟨rfl, rfl, rfl, rfl, rfl, rfl, rfl, rfl, rfl⟩

theorem State.imgTable_media (s : State) (k l : Nat) : Media s (s.imgTable k l) := by
  unfold State.imgTable
  split
  · exact .refl s
  · exact .foldl (fun (t : State) (r : Entry × Nat) => ((t.touchPhys_media _ _ _).trans (State.hbmWrite_media _ _ _ _)).trans
      ((State.touchPhys_media _ _ _ _).trans (State.hbmWrite_media _ _ _ _))) _ _

/-! The steps of a W reset on the cells. -/

/-- The image of a cell that a W reset finds, its image being written made invalid. -/
def State.warmValid (s : State) (k : Nat) : State :=
  if (s.cell k).ctx = 2 then (s.setValid k 3).log 0x5303 [.cell k, .val 1 3] else s

theorem State.warmValid_media (s : State) (k : Nat) : Media s (s.warmValid k) :=
  .ite ((s.setValid_media k 3).trans (State.log_logs _ _ _).media) (.refl s)

theorem State.warmCell_media (s : State) (k : Nat) : Media ((s.warmValid k).setCell k (s.cell k).warm) (s.warmCell k) := by
  unfold State.warmCell
  dsimp only
  split
  · exact .refl _
  · exact .foldl (fun t l => t.imgTable_media k l) _ _

theorem State.setCell_steady (s : State) (k : Nat) (c : Cell) : Steady s (s.setCell k c) :=
  ⟨rfl, rfl, rfl, rfl, rfl, rfl, rfl, rfl, rfl⟩

theorem State.warmCell_steady (s : State) (k : Nat) : Steady s (s.warmCell k) :=
  ((s.warmValid_media k).steady.trans (State.setCell_steady _ k _)).trans (s.warmCell_media k).steady

theorem State.warmCell_cell (s : State) (k : Nat) : (s.warmCell k).cell k = (s.cell k).warm := by
  rw [(s.warmCell_media k).cell]
  exact State.setCell_cell _ k _

theorem State.warmCell_cell_ne (s : State) (k j : Nat) (hj : j ≠ k) : (s.warmCell k).cell j = s.cell j := by
  rw [(s.warmCell_media k).cell, State.setCell_cell_ne _ _ _ _ hj, (s.warmValid_media k).cell]

/-! The media's errors and the records of the stacks. -/

/-- The second state has the first one's rates, and where the media hold no error the first one's counts of errors. -/
structure Rated (s t : State) : Prop where
  rate : ∀ p, (t.plinth p).rate = (s.plinth p).rate
  calm : s.mediaErr = [] → t.mediaErr = [] ∧ ∀ p, (t.plinth p).ue = (s.plinth p).ue

theorem Rated.refl (s : State) : Rated s s := ⟨fun _ => rfl, fun h => ⟨h, fun _ => rfl⟩⟩

theorem Rated.trans {s t u : State} (h : Rated s t) (h' : Rated t u) : Rated s u where
  rate p := (h'.rate p).trans (h.rate p)
  calm hs := ⟨(h'.calm (h.calm hs).1).1, fun p => ((h'.calm (h.calm hs).1).2 p).trans ((h.calm hs).2 p)⟩

theorem Rated.foldl {α : Type} {f : State → α → State} (hf : ∀ s x, Rated s (f s x)) (l : List α) (s : State) :
    Rated s (l.foldl f s) := by
  induction l generalizing s with
  | nil => exact .refl s
  | cons x l ih => exact (hf s x).trans (ih _)

theorem Rated.ite {p : Prop} [Decidable p] {s t u : State} (ht : Rated s t) (hu : Rated s u) : Rated s (if p then t else u) := by
  split <;> assumption

theorem State.log_rated (s : State) (c : Nat) (fs : List EvF) : Rated s (s.log c fs) where
  rate p := by rw [State.log_plinth]
  calm h := ⟨by rw [State.log_mediaErr]; exact h, fun p => by rw [State.log_plinth]⟩

theorem State.modPlinth_rate (s : State) (n : Nat) {f : Plinth → Plinth} (hf : ∀ x, (f x).rate = x.rate) (p : Nat) :
    ((s.modPlinth n f).plinth p).rate = (s.plinth p).rate := by
  by_cases hp : p = n
  · subst hp
    rw [State.modPlinth_plinth, hf]
  · rw [State.modPlinth_plinth_ne _ _ _ _ hp]

theorem State.modPlinth_rated (s : State) (n : Nat) {f : Plinth → Plinth} (hrate : ∀ x, (f x).rate = x.rate)
    (hue : ∀ x, (f x).ue = x.ue) : Rated s (s.modPlinth n f) where
  rate p := s.modPlinth_rate n hrate p
  calm h := by
    refine ⟨h, fun p => ?_⟩
    by_cases hp : p = n
    · subst hp
      rw [State.modPlinth_plinth, hue]
    · rw [State.modPlinth_plinth_ne _ _ _ _ hp]

theorem Plinth.access_rate_ue (p : Plinth) (c : Cfg) (line lo hi part : Nat) (write atomic : Bool) :
    (p.access c line lo hi part write atomic).rate = p.rate ∧ (p.access c line lo hi part write atomic).ue = p.ue := by
  unfold Plinth.access Plinth.ask
  dsimp only
  split <;> repeat' split
  all_goals exact ⟨rfl, rfl⟩

theorem Plinth.wantRepair_rate (p : Plinth) (row : Nat × (Nat × Nat)) : (p.wantRepair row).rate = p.rate := by
  unfold Plinth.wantRepair
  split <;> rfl

theorem Plinth.uncorrected_rate (p : Plinth) (row : Nat × (Nat × Nat)) : (p.uncorrected row).rate = p.rate := by
  unfold Plinth.uncorrected
  exact Plinth.wantRepair_rate _ row

theorem Plinth.corrected_rate (p : Plinth) (row : Nat × (Nat × Nat)) (t : Nat) : (p.corrected row t).rate = p.rate := by
  unfold Plinth.corrected
  dsimp only
  split
  · exact Plinth.wantRepair_rate _ row
  · rfl

theorem State.sectorErr_rate (s : State) (src : Nat) (e : SectorErr) (p : Nat) :
    ((s.sectorErr src e).plinth p).rate = (s.plinth p).rate := by
  unfold State.sectorErr
  dsimp only
  split
  · rw [State.log_plinth]
    exact State.modPlinth_rate _ _ (fun x => x.uncorrected_rate _) p
  · exact State.modPlinth_rate _ _ (fun x => x.corrected_rate _ _) p

theorem State.meet_rated (s : State) (src : Nat) (p : SectorErr → Bool) : Rated s (s.meet src p) where
  rate j := by
    have hfold (l : List SectorErr) (u : State) : ((l.foldl (fun s e => s.sectorErr src e) u).plinth j).rate = (u.plinth j).rate := by
      induction l generalizing u with
      | nil => rfl
      | cons e l ih => exact (ih _).trans (u.sectorErr_rate src e j)
    exact hfold _ _
  calm h := by
    rw [State.meet_of_calm h]
    exact ⟨h, fun _ => rfl⟩

theorem State.touchPhys_rated (s : State) (a n : Nat) (write : Bool) : Rated s (s.touchPhys a n write) := by
  unfold State.touchPhys State.touchWith
  refine .ite (.refl s) (.foldl (fun t i => ?_) _ _)
  dsimp only
  unfold State.touchLine
  exact .ite (.refl t) ((t.meet_rated _ _).trans
    (State.modPlinth_rated _ _ (fun x => (x.access_rate_ue ..).1) (fun x => (x.access_rate_ue ..).2)))

theorem State.hbmWrite_rated (s : State) (a : Nat) (b : List Byte) (p : Bool) : Rated s (s.hbmWrite a b p) :=
  ⟨fun _ => rfl, fun h => ⟨(congrArg (dropErrs · a b.length) h).trans rfl, fun _ => rfl⟩⟩

theorem State.imgTable_rated (s : State) (k l : Nat) : Rated s (s.imgTable k l) := by
  unfold State.imgTable
  split
  · exact .refl s
  · exact .foldl (fun (t : State) (r : Entry × Nat) => ((t.touchPhys_rated _ _ _).trans (State.hbmWrite_rated _ _ _ _)).trans
      ((State.touchPhys_rated _ _ _ _).trans (State.hbmWrite_rated _ _ _ _))) _ _

theorem State.warmValid_rated (s : State) (k : Nat) : Rated s (s.warmValid k) := by
  refine .ite (.trans ?_ (State.log_rated _ _ _)) (.refl s)
  unfold State.setValid
  exact .ite (.refl s) ((s.touchPhys_rated _ _ _).trans (State.hbmWrite_rated _ _ _ _))

theorem State.warmCell_rated (s : State) (k : Nat) : Rated s (s.warmCell k) := by
  have hset : Rated s ((s.warmValid k).setCell k (s.cell k).warm) :=
    (s.warmValid_rated k).trans ⟨fun _ => rfl, fun h => ⟨h, fun _ => rfl⟩⟩
  refine hset.trans ?_
  unfold State.warmCell
  dsimp only
  split
  · exact .refl _
  · exact .foldl (fun t l => t.imgTable_rated k l) _ _

/-! The sessions and the load engine. -/

theorem State.closeSession_logs (s : State) (id cause : Nat) :
    Logs { s with hst := (s.closeSession id cause).hst } (s.closeSession id cause) := by
  unfold State.closeSession
  split
  · exact .refl s
  · dsimp only
    split
    · obtain ⟨_, _, _, _, _, _, _, h⟩ := State.log_logs { s with hst := { s.hst with
        sessions := s.hst.sessions.filter (fun x => x.id ≠ id), fwds := s.hst.fwds.filter (fun f => f.1 ≠ id),
        waiting := s.hst.waiting.filter (fun w => !(w.id == id && w.frm == 0)) } } 0x4102 _
      rw [h]
      exact ⟨_, _, _, _, _, _, _, rfl⟩
    · exact .refl _

/-- Closing sessions changes the host's part and the log. -/
theorem State.closeAll_logs (s : State) (ports : List Nat) : Logs { s with hst := (s.closeAll ports).hst } (s.closeAll ports) := by
  have hfold (l : List Nat) (u : State) :
      Logs { u with hst := (l.foldl (fun s id => s.closeSession id 3) u).hst } (l.foldl (fun s id => s.closeSession id 3) u) := by
    induction l generalizing u with
    | nil => exact .refl u
    | cons id l ih =>
      rw [List.foldl_cons]
      obtain ⟨_, _, _, _, _, _, _, h⟩ := ih (u.closeSession id 3)
      obtain ⟨_, _, _, _, _, _, _, h'⟩ := u.closeSession_logs id 3
      rw [h, h']
      exact ⟨_, _, _, _, _, _, _, rfl⟩
  unfold State.closeAll
  dsimp only
  obtain ⟨_, _, _, _, _, _, _, h⟩ := hfold ((s.hst.sessions.filter (fun x => ports.contains x.port)).map (fun x => x.id)) s
  rw [h]
  exact ⟨_, _, _, _, _, _, _, rfl⟩

theorem State.closeAll_steady (s : State) (ports : List Nat) : Steady s (s.closeAll ports) :=
  Steady.trans (t := { s with hst := (s.closeAll ports).hst }) ⟨rfl, rfl, rfl, rfl, rfl, rfl, rfl, rfl, rfl⟩
    (s.closeAll_logs ports).media.steady

theorem State.warmArm_cells_plinths (s : State) : s.warmArm.cells = s.cells ∧ s.warmArm.plinths = s.plinths := by
  unfold State.warmArm
  dsimp only
  split
  · exact ⟨State.log_cells _ _ _, State.log_plinths _ _ _⟩
  · exact ⟨rfl, rfl⟩

theorem State.warmArm_steady (s : State) : Steady s s.warmArm := by
  have hlost : Steady s (if s.arm.state == .receiving || s.arm.state == .verifying || s.arm.state == .pending then
      (s.log 0x7102 [.val 4 s.arm.received.toNat]).dropHbm stagingBase armAreaLen else s) :=
    .ite ((s.log_logs _ _).media.steady.trans ⟨rfl, rfl, rfl, rfl, rfl, rfl, rfl, rfl, rfl⟩) (.refl s)
  obtain ⟨hcores, hfuse, hown0, hown1, himage, -, hvin, hvmin, hexp⟩ := hlost
  unfold State.warmArm
  refine ⟨hcores, hfuse, hown0, hown1, himage, ?_, hvin, hvmin, hexp⟩
  dsimp only
  split <;> rfl

end Sys2Proof.Machine

end

section

/-! PROOFS. What a W, an M and a P reset leave of the module (O40). -/

namespace Sys2Proof.Machine

open Sys2Proof Sys2Proof.Claims

/-! The steps of a W reset. -/

/-- A W reset begun: its cause, its stage and its count. -/
def State.warmBegun (s : State) (cause : Nat) : State :=
  let s := { s with pwr := { s.pwr with state := if s.pwr.state = PwrSt.standby then PwrSt.active else s.pwr.state, standbyIn := false } }
  { s with rst := { s.rst with cause := s.rst.cause ||| BitVec.ofNat 12 (2 ^ cause), stage := 3, cls := .w, active := false,
                               quiet := [], retried := false },
           mgmt := { s.mgmt with patTot := tabMod 0 s.mgmt.patTot 4 (· + 1) } }

/-- A cell that a W reset finds, where there is one. -/
def State.warmStep (s : State) (k : Nat) : State := if decide (s.cell k ≠ ({} : Cell)) then s.warmCell k else s

/-- The cells, stacks and ports after a W reset has come to them. -/
def State.warmUnits (s : State) : State :=
  (List.range 8).foldl (fun (s : State) i => s.modPort i (fun p => p.fresh 9))
    ((List.range 20).foldl (fun (s : State) p => s.modPlinth p Plinth.warm) (cellIds.foldl State.warmStep s))

/-- A module whose units a W reset has come to: the sessions close, and the rest is cleared. -/
def State.warmRest (s : State) (cause : Nat) : State :=
  let s := s.warmArm.closeAll (if cause = 11 then [0, 1] else [0, 1, 2])
  let s := { s with cores := tabMap {} Core.warm s.cores, eths := s.warmEths cause, exp := s.exp.warm, snp := s.snp.warm, calPoints := 0,
                    calPmiss := 0 }
  { s with gal := { s.gal with tx := [], rx := [], adds := [], xchCnt := [], xchLanded := [], deaths := [], deadSlots := [], relays := [] }
           hst := { s.hst with tcdfIn := [], waiting := [] } }

theorem State.startWarm_eq (s : State) (cause : Nat) : s.startWarm cause = ((s.warmBegun cause).warmUnits).warmRest cause := by
  unfold State.startWarm State.warmRest State.warmUnits State.warmBegun State.warmStep tabMap
  dsimp only

theorem cellIds_nodup : cellIds.Nodup := List.nodup_range

theorem State.warmStep_steady (s : State) (k : Nat) : Steady s (s.warmStep k) := .ite (s.warmCell_steady k) (.refl s)

theorem State.warmStep_rated (s : State) (k : Nat) : Rated s (s.warmStep k) := .ite (s.warmCell_rated k) (.refl s)

theorem State.warmStep_cell (s : State) (k : Nat) :
    (s.warmStep k).cell k = if s.cell k = {} then s.cell k else (s.cell k).warm := by
  unfold State.warmStep
  by_cases h : s.cell k = {}
  · rw [if_neg fun hne => absurd h (of_decide_eq_true hne), if_pos h]
  · rw [if_pos (decide_eq_true h), if_neg h, State.warmCell_cell]

theorem State.warmStep_cell_ne (s : State) (k j : Nat) (hj : j ≠ k) : (s.warmStep k).cell j = s.cell j := by
  unfold State.warmStep
  split
  · exact s.warmCell_cell_ne k j hj
  · rfl

theorem State.foldl_modPlinth_cells (l : List Nat) (f : Plinth → Plinth) (s : State) :
    (l.foldl (fun (s : State) p => s.modPlinth p f) s).cells = s.cells := by
  induction l generalizing s with
  | nil => rfl
  | cons p l ih => exact (ih _).trans (s.modPlinth_cells p f)

theorem State.foldl_modPort_cells_plinths (l : List Nat) (f : Port → Port) (s : State) :
    (l.foldl (fun (s : State) i => s.modPort i f) s).cells = s.cells ∧
      (l.foldl (fun (s : State) i => s.modPort i f) s).plinths = s.plinths := by
  induction l generalizing s with
  | nil => exact ⟨rfl, rfl⟩
  | cons i l ih => exact ⟨(ih _).1, (ih _).2⟩

theorem State.modPort_steady (s : State) (i : Nat) (f : Port → Port) : Steady s (s.modPort i f) :=
  ⟨rfl, rfl, rfl, rfl, rfl, rfl, rfl, rfl, rfl⟩

theorem State.warmUnits_steady (s : State) : Steady s s.warmUnits := by
  unfold State.warmUnits
  refine .trans (.trans (.foldl State.warmStep_steady cellIds s) (.foldl (fun t p => ?_) (List.range 20) _))
    (.foldl (fun t i => ?_) (List.range 8) _)
  · exact (t.modPlinth_media p _).steady
  · exact t.modPort_steady i _

theorem State.warmUnits_cell (s : State) {k : Nat} (hk : k ∈ cellIds) :
    s.warmUnits.cell k = if s.cell k = {} then s.cell k else (s.cell k).warm := by
  have hcells : s.warmUnits.cells = (cellIds.foldl State.warmStep s).cells := by
    unfold State.warmUnits
    rw [(State.foldl_modPort_cells_plinths _ _ _).1, State.foldl_modPlinth_cells]
  have hcell : s.warmUnits.cell k = (cellIds.foldl State.warmStep s).cell k := by
    unfold State.cell
    rw [hcells]
  rw [hcell, foldl_part State.cell State.warmStep (fun c => if c = {} then c else c.warm) State.warmStep_cell State.warmStep_cell_ne
    cellIds cellIds_nodup, if_pos hk]

/-- A stack after the step of a W reset: emptied, in self-refresh, its errors and its rate what the steps on the cells left. -/
theorem State.warmUnits_plinth (s : State) {p : Nat} (hp : p < 20) :
    s.warmUnits.plinth p = ((cellIds.foldl State.warmStep s).plinth p).warm := by
  have hplinths : s.warmUnits.plinth p =
      ((List.range 20).foldl (fun (s : State) p => s.modPlinth p Plinth.warm) (cellIds.foldl State.warmStep s)).plinth p := by
    unfold State.plinth State.warmUnits
    rw [(State.foldl_modPort_cells_plinths _ _ _).2]
  rw [hplinths, foldl_part State.plinth (fun s p => s.modPlinth p Plinth.warm) Plinth.warm (fun s n => State.modPlinth_plinth s n _)
    (fun s n j hj => State.modPlinth_plinth_ne s n j _ hj) _ List.nodup_range, if_pos (List.mem_range.mpr hp)]

/-- The sessions close and the load engine stops without a change of the cells and the stacks. -/
theorem State.warmRest_cells_plinths (s : State) (cause : Nat) :
    (s.warmRest cause).cells = s.cells ∧ (s.warmRest cause).plinths = s.plinths := by
  obtain ⟨hcells, hplinths⟩ := s.warmArm_cells_plinths
  have hclosed (u : State) (ports : List Nat) : (u.closeAll ports).cells = u.cells ∧ (u.closeAll ports).plinths = u.plinths := by
    obtain ⟨_, _, _, _, _, _, _, h⟩ := u.closeAll_logs ports
    rw [h]
    exact ⟨rfl, rfl⟩
  obtain ⟨hcells', hplinths'⟩ := hclosed s.warmArm (if cause = 11 then [0, 1] else [0, 1, 2])
  exact ⟨hcells'.trans hcells, hplinths'.trans hplinths⟩

theorem State.warmRest_frame (s : State) (cause : Nat) :
    let u := s.warmArm.closeAll (if cause = 11 then [0, 1] else [0, 1, 2])
    (s.warmRest cause).cores = tabMap {} Core.warm u.cores ∧ (s.warmRest cause).exp = u.exp.warm ∧ (s.warmRest cause).mgmt = u.mgmt ∧
      (s.warmRest cause).arm = u.arm ∧ (s.warmRest cause).pwr = u.pwr := by
  unfold State.warmRest
  exact ⟨rfl, rfl, rfl, rfl, rfl⟩

theorem State.startWarm_cell (s : State) (cause : Nat) {k : Nat} (hk : k ∈ cellIds) :
    (s.startWarm cause).cell k = if s.cell k = {} then s.cell k else (s.cell k).warm := by
  have hcells := (State.warmRest_cells_plinths (s.warmBegun cause).warmUnits cause).1
  have hcell := (s.warmBegun cause).warmUnits_cell hk
  unfold State.cell at hcell ⊢
  rw [s.startWarm_eq, hcells, hcell]
  rfl

theorem State.startWarm_plinth (s : State) (cause : Nat) {p : Nat} (hp : p < 20) :
    (s.startWarm cause).plinth p = ((cellIds.foldl State.warmStep (s.warmBegun cause)).plinth p).warm := by
  have hplinths := (State.warmRest_cells_plinths (s.warmBegun cause).warmUnits cause).2
  have hplinth := (s.warmBegun cause).warmUnits_plinth hp
  unfold State.plinth at hplinth ⊢
  rw [s.startWarm_eq, hplinths, hplinth]

/-- Up to the clearing of what it clears, a W reset leaves the parts that a reset keeps. -/
theorem State.warmClosed_steady (s : State) (cause : Nat) :
    Steady s ((s.warmBegun cause).warmUnits.warmArm.closeAll (if cause = 11 then [0, 1] else [0, 1, 2])) :=
  Steady.trans (t := s.warmBegun cause) ⟨rfl, rfl, rfl, rfl, rfl, rfl, rfl, rfl, rfl⟩
    ((State.warmUnits_steady _).trans ((State.warmArm_steady _).trans (State.closeAll_steady _ _)))

/-! The parts after a W reset. -/

theorem Core.takePlan_kept (co : Core) : co.takePlan.vmax = co.vmax ∧ co.takePlan.temp = co.temp := by
  unfold Core.takePlan
  split <;> exact ⟨rfl, rfl⟩

theorem Core.warm_frame (co : Core) :
    co.warm.store = [] ∧ co.warm.treg = [] ∧ co.warm.arrays = [] ∧ co.warm.inflight = [] ∧ co.warm.vmax = co.vmax ∧
      co.warm.temp = co.temp := ⟨rfl, rfl, rfl, rfl, co.takePlan_kept⟩

theorem warmLeaves_holds : warmLeaves := by
  intro s cause hwf t
  have hrst : t.rst = _ := s.startWarm_rst cause
  obtain ⟨hcores, hfuse, hown0, hown1, himage, hforce, hvin, hvmin, hexp⟩ := s.warmClosed_steady cause
  obtain ⟨htcores, htexp, htmgmt, htarm, htpwr⟩ := (s.warmBegun cause).warmUnits.warmRest_frame cause
  rw [← s.startWarm_eq] at htcores htexp htmgmt htarm htpwr
  have hcore (n : Nat) : t.core n = (s.core n).warm := by
    show tabGet {} t.cores n = _
    rw [htcores, hcores, tabGet_tabMap rfl hwf]
    rfl
  have hrated : Rated (s.warmBegun cause) (cellIds.foldl State.warmStep (s.warmBegun cause)) := .foldl State.warmStep_rated _ _
  refine ⟨by rw [hrst]; rfl, by rw [hrst], by rw [hrst], by rw [hrst], ?kept, fun n => ?_, fun k hk => ?_, fun p hp => ?_,
    by rw [htarm, hforce], by rw [htpwr, hvin], by rw [htpwr, hvmin], by rw [hrst], by rw [htexp]; rfl, by rw [htexp, hexp]; rfl⟩
  case kept =>
    exact ⟨by rw [hrst], by rw [hrst], by rw [hrst], by rw [hrst], by rw [hrst], by rw [htmgmt, hfuse], by rw [htmgmt, hown0],
      by rw [htmgmt, hown1], by rw [htmgmt, himage]⟩
  · rw [hcore n]
    exact (s.core n).warm_frame
  · have hcell : t.cell k = _ := s.startWarm_cell cause hk
    rw [hcell]
    split
    next h => exact ⟨rfl, rfl, rfl, congrArg Cell.tick h, fun hne => absurd h hne⟩
    · exact ⟨rfl, rfl, rfl, rfl, fun _ => rfl⟩
  · have hplinth : t.plinth p = _ := s.startWarm_plinth cause hp
    have hue (h : s.mediaErr = []) := (hrated.calm h).2 p
    have hrate := hrated.rate p
    rw [hplinth]
    generalize (cellIds.foldl State.warmStep (s.warmBegun cause)).plinth p = x at hue hrate
    exact ⟨rfl, rfl, hue, hrate⟩

theorem warmImages_holds : warmImages := by
  intro s k hk
  rw [s.startWarm_cell 9 hk]
  refine ⟨fun h => ?_, fun h => ?_⟩
  · rw [if_neg fun hc => by rw [hc] at h; exact absurd h (by decide)]
    exact if_pos h
  · split
    · rfl
    · show (if (s.cell k).ctx = 2 then none else (s.cell k).img.map CtxImg.lose).isSome = _
      rw [if_neg h, Option.isSome_map]

/-! M and P resets. -/

/-- A port after an M reset. -/
def Port.cold (p : Port) : Port := { eye := p.eye, weak := p.weak, quars := p.quars }

theorem State.cold_port {s : State} (h : tabWf {} s.ports = true) (i : Nat) : s.cold.port i = (s.port i).cold :=
  tabGet_tabMap (f := Port.cold) rfl h i

theorem State.cold_core (s : State) (n : Nat) : (s.cold.core n).store = [] ∧ (s.cold.core n).inflight = [] := by
  have hcore : s.cold.core n = tabGet {} (tabMap {} Core.cold s.cores) n := rfl
  rcases tabGet_tabMap_mem ({} : Core) Core.cold s.cores n with h | ⟨x, h⟩
  · rw [hcore, h]; exact ⟨rfl, rfl⟩
  · rw [hcore, h]; exact ⟨rfl, rfl⟩

theorem moduleLeaves_holds : moduleLeaves := by
  intro s cause hwf t
  obtain ⟨fr, o, q, e, ss, al, ph, h⟩ := s.closeAll_logs [0, 1, 2]
  have hports : (s.closeAll [0, 1, 2]).ports = s.ports := by rw [h]
  have hport (i : Nat) : t.port i = (s.port i).cold := by
    have hcold : t.port i = ((s.closeAll [0, 1, 2]).port i).cold := State.cold_port (by rw [hports]; exact hwf) i
    rw [hcold]
    unfold State.port
    rw [hports]
  have hrst : (s.closeAll [0, 1, 2]).rst = s.rst := by rw [h]
  have hmgmt : (s.closeAll [0, 1, 2]).mgmt = { s.mgmt with patHour := ph } := by rw [h]
  have harm : (s.closeAll [0, 1, 2]).arm = s.arm := by rw [h]
  have hsnp : (s.closeAll [0, 1, 2]).snp = s.snp := by rw [h]
  have hpwr : (s.closeAll [0, 1, 2]).pwr = { s.pwr with alert := al } := by rw [h]
  refine ⟨(congrArg (fun r : Rst => r.cause ||| BitVec.ofNat 12 (2 ^ cause)) hrst :), rfl, rfl, rfl, ?kept, rfl, rfl, rfl, rfl, rfl, rfl,
    State.cold_core _, fun i => ?_, (congrArg Rst.tripKind hrst :), (congrArg Rst.tripTemp hrst :), (congrArg Rst.tripPend hrst :),
    (congrArg ArmSt.copy0 harm :), (congrArg ArmSt.copy1 harm :), (congrArg Snp.gen0 hsnp :), (congrArg Snp.gen1 hsnp :), rfl, rfl,
    (congrArg Pwr.off hpwr :), (congrArg Pwr.supwarn hpwr :)⟩
  case kept =>
    exact ⟨(congrArg Rst.bkup hrst :), (congrArg Rst.bcount hrst :), (congrArg Rst.journal hrst :), (congrArg Rst.rmemOk hrst :),
      (congrArg Rst.lastFail hrst :), (congrArg Mgmt.fuse hmgmt :), (congrArg Mgmt.own0 hmgmt :), (congrArg Mgmt.own1 hmgmt :),
      (congrArg Mgmt.image hmgmt :)⟩
  · rw [hport i]
    exact ⟨rfl, rfl⟩

theorem powerLeaves_holds : powerLeaves :=
  fun _ => ⟨rfl, rfl, rfl, ⟨rfl, rfl, rfl, rfl, rfl, rfl, rfl, rfl, rfl⟩, rfl, rfl, rfl, rfl, rfl, rfl, rfl, rfl, rfl, rfl, rfl, rfl, rfl,
    rfl, rfl, rfl⟩

/-- Settles O40: a W reset by its steps, none of which touches what a reset keeps, and the M and P resets by what they drop. -/
theorem resetsKeepAndClear : Obligations.ResetsKeepAndClear :=
  ⟨warmLeaves_holds, warmImages_holds, moduleLeaves_holds, powerLeaves_holds⟩

end Sys2Proof.Machine

end

section

/-! PROOFS. The triggers of the P and M resets (O41). -/

namespace Sys2Proof.Machine

open Sys2Proof Sys2Proof.Claims

/-! Rails and the supply's part of a reset. -/

/-- Turning the rails off drives PWRGD low and changes nothing else but what has been sent. -/
theorem State.railsOff_eq (s : State) : ∃ o, s.railsOff = { s with out := o, pwr := { s.pwr with rails := false, pwrgd := false } } := by
  unfold State.railsOff State.setPwrgd
  dsimp only
  split
  next h => exact ⟨s.out, by rw [← h]⟩
  · exact ⟨_, rfl⟩

/-- An M reset keeps every bit of RST_CAUSE, what the supply holds and the record of a trip, and leaves no HBM. -/
theorem State.startModule_frame (s : State) (cause : Nat) :
    (s.startModule cause).rst.cause = causeWith s cause ∧ (s.startModule cause).rst.stage = 1 ∧ (s.startModule cause).hbm = [] ∧
      (s.startModule cause).rst.tripKind = s.rst.tripKind ∧ (s.startModule cause).rst.tripInst = s.rst.tripInst ∧
      (s.startModule cause).rst.tripTemp = s.rst.tripTemp ∧ (s.startModule cause).rst.tripPend = s.rst.tripPend := by
  have hrst : (s.closeAll [0, 1, 2]).rst = s.rst := State.closeAll_rst s _
  exact ⟨(congrArg (fun r : Rst => r.cause ||| BitVec.ofNat 12 (2 ^ cause)) hrst :), rfl, rfl, (congrArg Rst.tripKind hrst :),
    (congrArg Rst.tripInst hrst :), (congrArg Rst.tripTemp hrst :), (congrArg Rst.tripPend hrst :)⟩

/-- A reset that ends a removal changes the supply's part alone before it begins. -/
theorem State.endRemoval_frame (s : State) :
    s.endRemoval.rst = s.rst ∧ s.endRemoval.startPower.rst = s.startPower.rst ∧ s.endRemoval.pwr.en = s.pwr.en := by
  unfold State.endRemoval
  split <;> exact ⟨rfl, rfl, rfl⟩

/-! P triggers. -/

theorem powerTriggers_holds : powerTriggers := by
  intro s
  refine ⟨?up, ?level, ?loss⟩
  case up =>
    obtain ⟨o, h⟩ := s.startPower.railsOff_eq
    refine ⟨_, rfl, ?_⟩
    rw [h]
    exact ⟨rfl, rfl, rfl, rfl, rfl⟩
  case level =>
    obtain ⟨o, h⟩ := s.endRemoval.startPower.railsOff_eq
    refine ⟨_, rfl, ?_⟩
    rw [h]
    exact ⟨s.endRemoval_frame.2.1, rfl, rfl, rfl, rfl, rfl⟩
  case loss =>
    obtain ⟨o, h⟩ := s.startPower.railsOff_eq
    refine ⟨_, rfl, ?_⟩
    rw [h]
    exact ⟨rfl, rfl, rfl, rfl, rfl, rfl, rfl⟩

/-! M triggers. -/

theorem moduleTriggers_holds : moduleTriggers := by
  intro s
  refine ⟨fun us => ⟨fun hus hst => ?_, fun h => ?_⟩, fun hoff h => ?_, fun hoff => ?_, fun h8 h1 hcls hrec hwarn hoff => ?_, ?_,
    fun hold => ?_⟩
  · show execMrstAssert us s = _
    exact if_neg fun h => h.elim (by omega) hst
  · show execMrstAssert us s = _
    exact if_pos h
  · show execWatchdogExpiry s = _
    exact if_neg (by rcases h with h | h <;> simp [hoff, h])
  · show execSramUe s = _
    exact if_neg (by simp [hoff])
  · have hexec : exec .bootTimeout s =
        .next (({ s with mgmt := { s.mgmt with patTot := tabMod 0 s.mgmt.patTot 5 (· + 1) } } : State).startModule 6) := by
      show execBootTimeout s = _
      exact if_neg (by simp [h8, h1, hcls, hrec, hwarn, hoff])
    obtain ⟨hcause, hstage, hhbm, -⟩ :=
      ({ s with mgmt := { s.mgmt with patTot := tabMod 0 s.mgmt.patTot 5 (· + 1) } } : State).startModule_frame 6
    exact ⟨_, hexec, hcause, hstage, hhbm⟩
  · obtain ⟨o, h⟩ := (s.endRemoval.startModule 8).railsOff_eq
    obtain ⟨hcause, hstage, hhbm, -⟩ := s.endRemoval.startModule_frame 8
    unfold causeWith at hcause
    rw [s.endRemoval_frame.1] at hcause
    refine ⟨_, rfl, ?_⟩
    rw [h]
    exact ⟨hcause, hstage, hhbm, rfl, rfl, rfl⟩
  · show execOverVoltageClear s = _
    exact if_neg (by simp [hold])

/-! The thermal trip. -/

/-- Of two readings the one that RST_TRIP latches. -/
def tripLower (b : Option TripReading) (r : TripReading) : Option TripReading :=
  match b with
  | none => some r
  | some x => if r.kind < x.kind ∨ (r.kind = x.kind ∧ r.inst < x.inst) then some r else some x

/-- A reading that comes before every other one of the list is the one picked. -/
theorem foldl_tripLower {r : TripReading} (l : List TripReading)
    (hmin : ∀ x ∈ l, x ≠ r → r.kind < x.kind ∨ (r.kind = x.kind ∧ r.inst < x.inst)) (b : Option TripReading)
    (hb : b = some r ∨ r ∈ l ∧ ∀ x ∈ b, r.kind < x.kind ∨ (r.kind = x.kind ∧ r.inst < x.inst)) : l.foldl tripLower b = some r := by
  induction l generalizing b with
  | nil => exact hb.resolve_right fun h => absurd h.1 List.not_mem_nil
  | cons y l ih =>
    rw [List.foldl_cons]
    refine ih (fun x hx => hmin x (List.mem_cons_of_mem _ hx)) _ ?_
    by_cases hy : y = r
    · subst hy
      refine .inl ?_
      rcases hb with rfl | ⟨-, hb⟩
      · exact if_neg (by omega)
      · cases b with
        | none => rfl
        | some x => exact if_pos (hb x rfl)
    · have hlow := hmin y List.mem_cons_self hy
      rcases hb with rfl | ⟨hr, hb⟩
      · exact .inl (if_neg (by omega))
      · refine .inr ⟨(List.mem_cons.mp hr).resolve_left (Ne.symm hy), fun x hx => ?_⟩
        cases b with
        | none =>
          obtain rfl := Option.some.inj hx
          exact hlow
        | some z =>
          unfold tripLower at hx
          dsimp only at hx
          split at hx
          · obtain rfl := Option.some.inj hx
            exact hlow
          · obtain rfl := Option.some.inj hx
            exact hb _ rfl

theorem tripPick_eq (rs : List TripReading) :
    tripPick rs = (rs.filter (fun r => decide (tripLevel r.kind ≤ r.temp ∧ r.inst < tripSensors r.kind))).foldl tripLower none := rfl

theorem tripPick_of_lowest {rs : List TripReading} {r : TripReading} (hr : r ∈ rs) (hlevel : tripLevel r.kind ≤ r.temp)
    (hinst : r.inst < tripSensors r.kind) (hmin : ∀ x ∈ rs, tripLevel x.kind ≤ x.temp → x.inst < tripSensors x.kind →
      x ≠ r → r.kind < x.kind ∨ (r.kind = x.kind ∧ r.inst < x.inst)) : tripPick rs = some r := by
  rw [tripPick_eq]
  refine foldl_tripLower _ (fun x hx => ?_) none (.inr ⟨List.mem_filter.mpr ⟨hr, decide_eq_true ⟨hlevel, hinst⟩⟩, by simp⟩)
  obtain ⟨hx, hlvl⟩ := List.mem_filter.mp hx
  obtain ⟨hxl, hxi⟩ := of_decide_eq_true hlvl
  exact hmin x hx hxl hxi

theorem tripPick_of_below {rs : List TripReading} (h : ∀ x ∈ rs, x.temp < tripLevel x.kind) : tripPick rs = none := by
  have hnil : rs.filter (fun r => decide (tripLevel r.kind ≤ r.temp ∧ r.inst < tripSensors r.kind)) = [] :=
    List.filter_eq_nil_iff.mpr fun x hx => by
      have := h x hx
      simp only [decide_eq_true_eq]
      omega
  rw [tripPick_eq, hnil]
  rfl

theorem thermalTripDoes_holds : thermalTripDoes := by
  intro readings s
  refine ⟨fun r hr hlevel hinst hkind hi ht hmin hoff => ?_, fun h => ?_, fun hold hoff hov => ?_⟩
  · have hexec : exec (.thermalTrip readings) s =
        .next (((s.noteTrip r).endRemoval.startModule 5).railsOff).holdTrip := by
      show execThermalTrip readings s = _
      unfold execThermalTrip
      rw [tripPick_of_lowest hr hlevel hinst hmin]
      exact if_neg (by simp [hoff])
    obtain ⟨hcause, hstage, -, htk, hti, htt, htp⟩ := (s.noteTrip r).endRemoval.startModule_frame 5
    obtain ⟨o, h⟩ := ((s.noteTrip r).endRemoval.startModule 5).railsOff_eq
    unfold causeWith at hcause
    rw [(s.noteTrip r).endRemoval_frame.1] at hcause htk hti htt htp
    have hmod8 : r.kind % 2 ^ 3 = r.kind := Nat.mod_eq_of_lt hkind
    have hmodi : r.inst % 2 ^ 8 = r.inst := Nat.mod_eq_of_lt hi
    have hmodt : min 255 r.temp % 2 ^ 8 = r.temp := by omega
    refine ⟨_, hexec, ?_⟩
    rw [h]
    refine ⟨hcause, hstage, ?_, ?_, ?_, htp, rfl, rfl, rfl⟩
    · exact (congrArg BitVec.toNat htk).trans ((BitVec.toNat_ofNat _ _).trans hmod8)
    · exact (congrArg BitVec.toNat hti).trans ((BitVec.toNat_ofNat _ _).trans hmodi)
    · exact (congrArg BitVec.toNat htt).trans ((BitVec.toNat_ofNat _ _).trans hmodt)
  · show execThermalTrip readings s = _
    unfold execThermalTrip
    rw [tripPick_of_below h]
  · have hexec : exec .thermalTripRailRestore s =
        .next (({ s with pwr := { s.pwr with tripHold := false, rails := true } } : State).setPwrgd true) := by
      show execThermalTripRailRestore s = _
      unfold execThermalTripRailRestore
      rw [hold]
      exact (if_neg Bool.false_ne_true).trans (if_neg (by simp [hoff, hov]))
    refine ⟨_, hexec, ?_⟩
    unfold State.setPwrgd
    split
    next h => exact ⟨rfl, rfl, h, rfl⟩
    · exact ⟨rfl, rfl, rfl, rfl⟩

/-- Settles O41: every trigger is its reset, whose frame gives the cause, the stage and what the trip latches. -/
theorem resetTriggers : Obligations.ResetTriggers := ⟨powerTriggers_holds, moduleTriggers_holds, thermalTripDoes_holds⟩

end Sys2Proof.Machine

end

section

/-! PROOFS. What sending leaves of the module: a port that sends, a packet that is routed or fails, and what answers the host. -/

namespace Sys2Proof.Machine

open Sys2Proof Sys2Proof.Claims

/-! A port that sends. -/

/-- The second port is the first but for what it has sent and has still to send. -/
def Port.Sends (p q : Port) : Prop :=
  ∃ vcs txq replay next since ctlq ack nak, q = { p with
    vcs := vcs, txq := txq, replay := replay, txNext := next, sinceCtl := since, ctlq := ctlq, ackDue := ack, nakDue := nak }

theorem Port.Sends.refl (p : Port) : p.Sends p := ⟨_, _, _, _, _, _, _, _, rfl⟩

theorem Port.Sends.trans {p q r : Port} (h : p.Sends q) (h' : q.Sends r) : p.Sends r := by
  obtain ⟨_, _, _, _, _, _, _, _, rfl⟩ := h
  obtain ⟨_, _, _, _, _, _, _, _, rfl⟩ := h'
  exact ⟨_, _, _, _, _, _, _, _, rfl⟩

theorem Port.starts_sends : ∀ (l : List (PortPk × Nat)) (p : Port) (bl : List Nat) (n : Nat), p.Sends (p.starts l bl n).1
  | [], p, _, _ => .refl p
  | (t, i) :: r, p, bl, n => by
    unfold Port.starts
    dsimp only
    split
    · exact Port.starts_sends r p bl n
    · split
      · exact Port.starts_sends r p _ n
      · exact Port.Sends.trans ⟨_, _, _, _, _, _, _, _, rfl⟩ (Port.starts_sends r _ bl _)

theorem Port.form_sends (p : Port) (ctl data : List (List Byte)) : p.Sends (p.form ctl data).1 := ⟨_, _, _, _, _, _, _, _, rfl⟩

theorem Port.told_sends (p : Port) : p.Sends p.told := ⟨_, _, _, _, _, _, _, _, rfl⟩

theorem Port.next_sends (p : Port) (data : List (List Byte)) : p.Sends (p.next data).1 := by
  unfold Port.next
  dsimp only
  split
  · exact (p.form_sends _ _).trans (Port.told_sends _)
  · exact p.form_sends _ _

theorem Port.nextCtl_sends (p : Port) : p.Sends p.nextCtl.1 := by
  unfold Port.nextCtl
  dsimp only
  exact (p.form_sends _ _).trans ((Port.told_sends _).trans ⟨_, _, _, _, _, _, _, _, rfl⟩)

theorem Port.sendFlits_sends : ∀ (k : Nat) (p : Port) (l : List (List Byte × Option Nat)), p.Sends (Port.sendFlits k p l).1
  | 0, p, _ => .refl p
  | k + 1, p, l => by
    unfold Port.sendFlits
    split
    · exact .refl p
    · exact (p.next_sends _).trans (Port.Sends.trans ⟨_, _, _, _, _, _, _, _, rfl⟩ (Port.sendFlits_sends k _ _))

/-- The second state is the first but for what some of its ports have sent and have still to send. -/
structure Pumps (s t : State) : Prop where
  eq : t = { s with out := t.out, ports := t.ports }
  sent : ∃ o, t.out = o ++ s.out
  port : ∀ j, (s.port j).Sends (t.port j)

theorem Pumps.refl (s : State) : Pumps s s := ⟨rfl, ⟨[], rfl⟩, fun _ => .refl _⟩

theorem Pumps.trans {s t u : State} (h : Pumps s t) (h' : Pumps t u) : Pumps s u where
  eq := by rw [h'.eq, h.eq]
  sent := by
    obtain ⟨o, ho⟩ := h.sent
    obtain ⟨o', ho'⟩ := h'.sent
    exact ⟨o' ++ o, by rw [ho', ho, List.append_assoc]⟩
  port j := (h.port j).trans (h'.port j)

/-- A port that takes the place of one, having sent something: the others are as they were. -/
theorem State.modPort_pumps (s : State) (i : Nat) {q : Port} (h : (s.port i).Sends q) (o : List Out) :
    Pumps s { s.modPort i (fun _ => q) with out := o ++ s.out } where
  eq := rfl
  sent := ⟨o, rfl⟩
  port j := by
    by_cases hj : j = i
    · subst hj
      exact (congrArg (Port.Sends (s.port j)) (State.modPort_port s j (fun _ => q))).mpr h
    · exact (congrArg (Port.Sends (s.port j)) (State.modPort_port_ne s i j (fun _ => q) hj)).mpr (.refl _)

theorem State.pump_port_ne (s : State) (i j : Nat) (hj : j ≠ i) : (s.pump i).port j = s.port j := by
  unfold State.pump
  dsimp only
  split
  · rw [State.emitAll_port', State.emitAll_port', State.modPort_port_ne _ _ _ _ hj]
  · rfl

theorem State.emitAll_pumps (s : State) (os : List Out) : Pumps s (s.emitAll os) := ⟨rfl, ⟨_, rfl⟩, fun _ => .refl _⟩

theorem State.pump_pumps (s : State) (i : Nat) : Pumps s (s.pump i) := by
  unfold State.pump
  dsimp only
  split
  · have hq := ((s.port i).starts_sends (s.port i).txq.zipIdx [] 0).trans (Port.sendFlits_sends
      (startFlits ((s.port i).starts (s.port i).txq.zipIdx [] 0).2).length _ (startFlits ((s.port i).starts (s.port i).txq.zipIdx [] 0).2))
    have h := s.modPort_pumps i hq
    unfold State.emitAll
    dsimp only
    rw [State.modPort_out, ← List.append_assoc]
    exact h _
  · exact .refl s

theorem State.sendIdle_pumps (s : State) (i : Nat) : Pumps s (s.sendIdle i) := by
  unfold State.sendIdle
  dsimp only
  split
  · exact .refl s
  · split
    · exact s.emitAll_pumps _
    · split
      · exact s.modPort_pumps i ((s.port i).next_sends []) [_]
      · exact s.modPort_pumps i (s.port i).nextCtl_sends [_]

theorem State.flushCtl_pumps : ∀ (k : Nat) (s : State) (i : Nat), Pumps s (State.flushCtl k s i)
  | 0, s, _ => .refl s
  | k + 1, s, i => by
    unfold State.flushCtl
    split
    · exact .refl s
    · exact (s.sendIdle_pumps i).trans (State.flushCtl_pumps k _ i)

theorem State.modPort_pumps_of {s : State} {i : Nat} {f : Port → Port} (h : (s.port i).Sends (f (s.port i))) : Pumps s (s.modPort i f) where
  eq := rfl
  sent := ⟨[], rfl⟩
  port j := by
    by_cases hj : j = i
    · subst hj
      rw [State.modPort_port]
      exact h
    · rw [State.modPort_port_ne _ _ _ _ hj]
      exact .refl _

theorem State.sendControl_pumps (s : State) (i kind : Nat) (segs : List (List Byte)) : Pumps s (s.sendControl i kind segs) :=
  (State.modPort_pumps_of ⟨_, _, _, _, _, _, _, _, rfl⟩).trans (State.flushCtl_pumps _ _ i)

theorem State.emit_pumps (s : State) (o : Out) : Pumps s (s.emit o) := ⟨rfl, ⟨[o], rfl⟩, fun _ => .refl _⟩

theorem State.sendHand_pumps (s : State) (i kind : Nat) (msg : List Byte) : Pumps s (s.sendHand i kind msg) :=
  (s.sendControl_pumps i 2 _).trans (State.emit_pumps _ _)

theorem State.portSend_pumps (s : State) (i : Nat) (pk src : Packet) (arr : Option Nat) : Pumps s (s.portSend i pk src arr) :=
  (State.modPort_pumps_of ⟨_, _, _, _, _, _, _, _, rfl⟩).trans (State.pump_pumps _ i)

theorem State.routeSend_pumps {s t : State} {pk : Packet} {arr : Option Nat} (h : s.routeSend pk arr = some t) : Pumps s t := by
  unfold State.routeSend at h
  split at h
  · exact absurd h (by simp)
  · obtain rfl := Option.some.inj h
    exact s.portSend_pumps _ _ _ _

/-! What a packet sent leaves, whether it is routed or fails. -/

/-- What sending, and the failures that it may bring about, leave: the configuration, the reset fields, the snapshot engine, of the gallery
engine all but its flows and its count of packets without a route, and the state of every port. -/
structure Sent (s t : State) : Prop where
  cfg : t.cfg = s.cfg
  rst : t.rst = s.rst
  gal : t.gal = { s.gal with tx := t.gal.tx, noroute := t.gal.noroute }
  state : ∀ j, (t.port j).state = (s.port j).state
  downwhy : ∀ j, (t.port j).downwhy = (s.port j).downwhy
  pvalid : ∀ j, (t.port j).pvalid = (s.port j).pvalid

theorem Sent.refl (s : State) : Sent s s := ⟨rfl, rfl, rfl, fun _ => rfl, fun _ => rfl, fun _ => rfl⟩

theorem Sent.trans {s t u : State} (h : Sent s t) (h' : Sent t u) : Sent s u where
  cfg := h'.cfg.trans h.cfg
  rst := h'.rst.trans h.rst
  gal := by rw [h'.gal, h.gal]
  state j := (h'.state j).trans (h.state j)
  downwhy j := (h'.downwhy j).trans (h.downwhy j)
  pvalid j := (h'.pvalid j).trans (h.pvalid j)

theorem Sent.ite {p : Prop} [Decidable p] {s t u : State} (ht : Sent s t) (hu : Sent s u) : Sent s (if p then t else u) := by
  split <;> assumption

theorem Sent.foldl {α : Type} {f : State → α → State} (hf : ∀ s x, Sent s (f s x)) (l : List α) (s : State) : Sent s (l.foldl f s) := by
  induction l generalizing s with
  | nil => exact .refl s
  | cons x l ih => exact (hf s x).trans (ih _)

theorem Spares.sent {s t : State} (h : Spares s t) : Sent s t where
  cfg := h.cfg
  rst := h.rst
  gal := by rw [h.gal]
  state j := by unfold State.port; rw [h.ports]
  downwhy j := by unfold State.port; rw [h.ports]
  pvalid j := by unfold State.port; rw [h.ports]

theorem Pumps.sends {s t : State} (h : Pumps s t) : Sent s t where
  cfg := by rw [h.eq]
  rst := by rw [h.eq]
  gal := by rw [h.eq]
  state j := by obtain ⟨_, _, _, _, _, _, _, _, e⟩ := h.port j; rw [e]
  downwhy j := by obtain ⟨_, _, _, _, _, _, _, _, e⟩ := h.port j; rw [e]
  pvalid j := by obtain ⟨_, _, _, _, _, _, _, _, e⟩ := h.port j; rw [e]

/-! Answers to the host. -/

/-- The second state is the first but for the host's part, the Ethernet ports and what has been sent and logged. -/
def Told (s t : State) : Prop := Logs { s with hst := t.hst } t

theorem Told.refl (s : State) : Told s s := Logs.refl s

theorem Told.trans {s t u : State} (h : Told s t) (h' : Told t u) : Told s u := by
  obtain ⟨_, _, _, _, _, _, _, h⟩ := h
  obtain ⟨_, _, _, _, _, _, _, h'⟩ := h'
  unfold Told
  rw [h', h]
  exact ⟨_, _, _, _, _, _, _, rfl⟩

theorem Told.foldl {α : Type} {f : State → α → State} (hf : ∀ s x, Told s (f s x)) (l : List α) (s : State) : Told s (l.foldl f s) := by
  induction l generalizing s with
  | nil => exact .refl s
  | cons x l ih => exact (hf s x).trans (ih _)

theorem Told.media {s t : State} (h : Told s t) : Media { s with hst := t.hst } t := Logs.media h

theorem Logs.told {s t : State} (h : Logs s t) : Told s t := by
  obtain ⟨_, _, _, _, _, _, _, rfl⟩ := h
  exact ⟨_, _, _, _, _, _, _, rfl⟩

theorem told_of_hst (s : State) (h : Hst) : Told s { s with hst := h } := Logs.refl _

theorem Told.sent {s t : State} (h : Told s t) : Sent s t := by
  have hm : Media { s with hst := t.hst } t := h.media
  exact Sent.trans (t := { s with hst := t.hst }) ⟨rfl, rfl, rfl, fun _ => rfl, fun _ => rfl, fun _ => rfl⟩ hm.spares.sent

theorem State.sendEth_told (s : State) (port prio : Nat) (o : Out) : Told s (s.sendEth port prio o) := by
  unfold State.sendEth
  split <;> exact ⟨_, _, _, _, _, _, _, rfl⟩

theorem State.sendEthAll_told (s : State) (port prio : Nat) (os : List Out) : Told s (s.sendEthAll port prio os) :=
  .foldl (fun t o => t.sendEth_told port prio o) os s

theorem State.rdmaFinish_told (s : State) (o : RdmaOp) : Told s (s.rdmaFinish o) := by
  unfold State.rdmaFinish
  split
  · exact .refl s
  · dsimp only
    refine Told.trans ?_ (State.sendEthAll_told _ _ _ _)
    split
    · split
      · exact (s.log_logs _ _).told
      · exact .refl s
    · exact .refl s

theorem State.rdmaFlush_told (s : State) : Told s s.rdmaFlush :=
  (told_of_hst s _).trans (.foldl State.rdmaFinish_told _ _)

theorem State.rdmaAnswer_told (s : State) (flow seq : Nat) (r : Option Packet) : Told s (s.rdmaAnswer flow seq r) :=
  (told_of_hst s _).trans (State.rdmaFlush_told _)

theorem State.finalResponse_told (s : State) (id op epoch seq status : Nat) (payload : List Byte) :
    Told s (s.finalResponse id op epoch seq status payload) := by
  unfold State.finalResponse State.respond State.sendTcd
  split
  · exact .refl s
  · exact (s.sendEth_told _ _ _).trans (told_of_hst _ _)

theorem State.fwdEnd_told (s : State) (id epoch seq status : Nat) (payload : List Byte) : Told s (s.fwdEnd id epoch seq status payload) := by
  unfold State.fwdEnd
  split
  · exact (told_of_hst s _).trans (State.finalResponse_told _ _ _ _ _ _ _)
  · exact .refl s

theorem State.hostFailed_told (s : State) (flow seq : Nat) : Told s (s.hostFailed flow seq) := by
  unfold State.hostFailed
  dsimp only
  refine Told.trans ?_ (State.rdmaAnswer_told _ _ _ _)
  split
  · exact .refl s
  · split
    · exact s.fwdEnd_told _ _ _ _ _
    · exact .refl s

/-! A packet sent, routed or failed. -/

theorem State.modImgEntry_spares (s : State) (k l st ord : Nat) (f : Entry → Entry) : Spares s (s.modImgEntry k l st ord f) :=
  (s.modCell_spares k _).trans (State.imgTable_media _ k l).spares

theorem State.remFault_sent (s : State) (flow seq cause ev : Nat) : Sent s (s.remFault flow seq cause ev) := by
  unfold State.remFault
  dsimp only
  split
  · split
    · exact .refl s
    · split
      · exact .refl s
      · exact ((s.modCore_spares _ _).trans (State.raiseFault_spares _ _ _ _ _ _ _ _)).sent
  · split
    · exact (s.modImgEntry_spares _ _ _ _ _).sent
    · exact (s.hostFailed_told flow seq).sent

theorem State.unroutable_sent (s : State) (pk : Packet) : Sent s (s.unroutable pk) := by
  have hlog : Sent s (s.countNoroute.log 0x3205 [.val 1 pk.fleet, .val 1 pk.slot, .val 4 pk.hops]) :=
    Sent.trans (t := s.countNoroute) ⟨rfl, rfl, rfl, fun _ => rfl, fun _ => rfl, fun _ => rfl⟩ (State.log_spares _ _ _).sent
  refine hlog.trans ?_
  unfold State.unroutable
  dsimp only
  split
  · exact .ite (State.remFault_sent _ _ _ _ _) (.refl _)
  · split
    · split
      next h => exact (State.routeSend_pumps h).sends
      · exact .refl _
    · exact .refl _

theorem State.transmit_sent (s : State) (pk : Packet) (arr : Option Nat) : Sent s (s.transmit pk arr) := by
  unfold State.transmit
  split
  next h => exact (State.routeSend_pumps h).sends
  · exact s.unroutable_sent pk

theorem State.inject_sent (s : State) (pk : Packet) : Sent s (s.inject pk) := by
  unfold State.inject
  exact .ite (s.transmit_sent pk none) (.refl s)

theorem State.sendCtl_sent (s : State) (dst ty : Nat) (fs : List Nat) : Sent s (s.sendCtl dst ty fs) := s.inject_sent _

theorem State.modFlow_sent (s : State) (f : Nat) (g : TxFlow → TxFlow) : Sent s (s.modFlow f g) :=
  ⟨rfl, rfl, rfl, fun _ => rfl, fun _ => rfl, fun _ => rfl⟩

theorem State.sendReq_sent (s : State) (dst : Nat) (pk : Packet) : Sent s (s.sendReq dst pk) := by
  unfold State.sendReq State.queueReq State.launch
  exact (s.modFlow_sent dst _).trans (.ite (.refl _) (.ite (State.inject_sent _ _) (.refl _)))

theorem State.sendTcdf_sent (s : State) (dst kind id epoch seq code : Nat) (payload : List Byte) :
    Sent s (s.sendTcdf dst kind id epoch seq code payload) :=
  .foldl (fun t _ => t.sendReq_sent dst _) _ s

end Sys2Proof.Machine

end

section

/-! PROOFS. The release stages, their failure, and the reset of a lone block (O42). -/

namespace Sys2Proof.Machine

open Sys2Proof Sys2Proof.Claims

/-! Stage 1 and stage 2. -/

/-- What a stage past stage 3 does as it ends: a unit that fails stops the sequence, stages 5 and 7 have their work. -/
def State.laterStage (s : State) : Option Nat → State
  | some u => s.stageFail u
  | none =>
    if s.rst.stage = 5 then s.stage5
    else if s.rst.stage = 7 then s.goOperational
    else { s with rst := { s.rst with stage := s.rst.stage + 1 } }

theorem exec_resetStageDone_of_runs {s : State} (hwarn : s.pwr.supwarn = false) (hst : s.pwr.state ≠ PwrSt.removing)
    (h0 : s.rst.stage ≠ 0) (h8 : s.rst.stage ≠ 8) (ext : Bool) (fail : Option Nat) :
    exec (.resetStageDone ext fail) s =
      if s.rst.stage = 1 then .next (s.stage1 ext)
      else if s.rst.stage = 2 then .next s.stage2
      else if !s.pwr.rails ∨ (s.mgmt.halted ∧ s.rst.cls ≠ .w) then .next s
      else if s.rst.stage = 3 then .next (s.stage3 fail)
      else .next (s.laterStage fail) := by
  have hlater : (match fail with
      | some u => .next (s.stageFail u)
      | none =>
        if s.rst.stage = 5 then .next s.stage5
        else if s.rst.stage = 7 then .next s.goOperational
        else .next { s with rst := { s.rst with stage := s.rst.stage + 1 } } : Res) = .next (s.laterStage fail) := by
    cases fail with
    | some u => rfl
    | none =>
      unfold State.laterStage
      dsimp only
      split
      · rfl
      · split <;> rfl
  rw [← hlater]
  show execResetStageDone ext fail s = _
  unfold execResetStageDone
  exact (if_neg (by simp [hwarn, hst])).trans ((if_neg (by simp [h0, h8])).trans rfl)

/-- Past stage 2 the stages go on while the rails are on and the management runs. -/
theorem exec_resetStageDone_of_later {s : State} (hwarn : s.pwr.supwarn = false) (hst : s.pwr.state ≠ PwrSt.removing)
    (hrails : s.pwr.rails = true) (hhalt : s.mgmt.halted = false) (h3 : 3 ≤ s.rst.stage) (h7 : s.rst.stage ≤ 7) (ext : Bool)
    (fail : Option Nat) :
    exec (.resetStageDone ext fail) s = if s.rst.stage = 3 then .next (s.stage3 fail) else .next (s.laterStage fail) := by
  rw [exec_resetStageDone_of_runs hwarn hst (by omega) (by omega), if_neg (by omega), if_neg (by omega),
    if_neg (by simp [hrails, hhalt])]

theorem stageOneDoes_holds : stageOneDoes := by
  intro ext fail s hwarn hst h1 hcounted
  refine ⟨_, (exec_resetStageDone_of_runs hwarn hst (by omega) (by omega) ext fail).trans (if_pos h1), ?_⟩
  unfold State.stage1
  dsimp only
  rw [hcounted]
  generalize hcount : (if s.rst.rmemOk then s.rst.bcount else s.rst.journal) = count
  by_cases hwait : (decide (s.rst.pinClk = 0 ∨ s.rst.pinClk = 2) && !ext) = true
  · rw [if_pos hwait]
    have hext : ext = false := by simpa using (Bool.and_eq_true_iff.mp hwait).2
    have hclk : s.rst.pinClk = 0 ∨ s.rst.pinClk = 2 := by simpa using (Bool.and_eq_true_iff.mp hwait).1
    refine ⟨rfl, rfl, rfl, rfl, ⟨fun hc => ?_, fun hc => ?_⟩, fun hb => ?_, fun _ _ => h1, fun h => ?_, rfl⟩
    · subst hc; exact ⟨rfl, by simp⟩
    · exact if_neg fun h => h.elim Bool.noConfusion fun h => hc (of_decide_eq_true h)
    · rw [decide_eq_true hb, Bool.or_true, Bool.true_or]
    · rcases h with h | ⟨hn0, hn2⟩
      · exact absurd (h.symm.trans hext) Bool.noConfusion
      · exact absurd hclk fun h => h.elim hn0 hn2
  · rw [if_neg hwait]
    refine ⟨rfl, rfl, rfl, rfl, ⟨fun hc => ?_, fun hc => ?_⟩, fun hb => ?_, fun hext hclk => absurd ?_ hwait, fun _ => rfl, rfl⟩
    · subst hc; exact ⟨rfl, by simp⟩
    · exact if_neg fun h => h.elim Bool.noConfusion fun h => hc (of_decide_eq_true h)
    · rw [decide_eq_true hb, Bool.or_true, Bool.true_or]
    · rw [decide_eq_true hclk, hext]; rfl

/-- Driving PWRGD changes the pin and nothing else. -/
theorem State.setPwrgd_eq (s : State) (b : Bool) : ∃ o, s.setPwrgd b = { s with out := o, pwr := { s.pwr with pwrgd := b } } := by
  unfold State.setPwrgd
  split
  next h => exact ⟨s.out, by rw [← h]⟩
  · exact ⟨_, rfl⟩

theorem State.strapEvents_logs (s : State) : Logs s s.strapEvents := by
  have hlog (p : Prop) [Decidable p] (u : State) (fs : List EvF) : Logs u (if p then u.log 0x7203 fs else u) := by
    split
    · exact u.log_logs _ _
    · exact .refl u
  exact (hlog _ s _).trans (hlog _ _ _)

/-- What the firmware's start leaves: the rails, and of the reset fields all but the trip that it reports, the board's place, the PLL and
the stage. -/
theorem State.firmwareStart_frame (s : State) :
    s.firmwareStart.rst.stage = 3 ∧ s.firmwareStart.rst.tripPend = false ∧ s.firmwareStart.pwr.rails = s.pwr.rails ∧
      s.firmwareStart.pwr.pwrgd = s.pwr.pwrgd := by
  have htrip (u : State) : ∃ v : State, (if u.rst.tripPend then
      let t := u.log 0x6205 [.val 1 u.rst.tripKind.toNat, .val 2 u.rst.tripInst.toNat, .val 2 u.rst.tripTemp.toNat]
      { t with rst := { t.rst with tripPend := false }, mgmt := { t.mgmt with patTot := tabMod 0 t.mgmt.patTot 20 (· + 1) } }
      else u) = v ∧ v.rst.tripPend = false ∧ v.pwr.rails = u.pwr.rails ∧ v.pwr.pwrgd = u.pwr.pwrgd := by
    refine ⟨_, rfl, ?_⟩
    split
    · obtain ⟨_, _, _, _, _, _, _, h⟩ := u.log_logs 0x6205
        [.val 1 u.rst.tripKind.toNat, .val 2 u.rst.tripInst.toNat, .val 2 u.rst.tripTemp.toNat]
      dsimp only
      rw [h]
      exact ⟨rfl, rfl, rfl⟩
    next h => exact ⟨by simpa using h, rfl, rfl⟩
  unfold State.firmwareStart
  dsimp only
  obtain ⟨v, hv, hpend, hrails, hgood⟩ := htrip { s with mgmt := { s.mgmt with
    running := s.mgmt.image, svnRun := BitVec.ofNat 8 (byteAt s.mgmt.image 6), fwMeas := sha256 s.mgmt.image } }
  dsimp only at hv
  rw [hv]
  have hlogs : Logs v (State.strapEvents (if v.rst.ovr then v.log 0x7403 [.val 1 (Config.code (if v.rst.cls = .p then 10 else 11))] else v)) := by
    refine Logs.trans ?_ (State.strapEvents_logs _)
    split
    · exact v.log_logs _ _
    · exact .refl v
  obtain ⟨_, _, _, _, _, _, _, h⟩ := hlogs
  rw [h]
  exact ⟨rfl, hpend, hrails, hgood⟩

/-- What entering recovery mode leaves. -/
theorem State.enterRecovery_frame (s : State) :
    s.strapEvents.enterRecovery.rst.stage = 0 ∧ s.strapEvents.enterRecovery.rst.recovery = true ∧
      s.strapEvents.enterRecovery.pwr.rails = s.pwr.rails ∧ s.strapEvents.enterRecovery.pwr.pwrgd = s.pwr.pwrgd := by
  obtain ⟨_, _, _, _, _, _, _, h⟩ := s.strapEvents_logs
  rw [h]
  unfold State.enterRecovery
  dsimp only
  obtain ⟨_, _, _, _, _, _, _, h'⟩ := State.log_logs _ 0x7202 _
  rw [h']
  exact ⟨rfl, rfl, rfl, rfl⟩

theorem State.stage2_frame {s : State} (hmay : s.pwr.railsMay = true) (hhalt : s.mgmt.halted = false) :
    s.stage2.pwr.rails = true ∧ s.stage2.pwr.pwrgd = true ∧
      (s.rst.recovery = true ∨ s.imageRuns = false → s.stage2.rst.stage = 0 ∧ s.stage2.rst.recovery = true) ∧
      (s.rst.recovery = false → s.imageRuns = true → s.stage2.rst.stage = 3 ∧ s.stage2.rst.tripPend = false) := by
  unfold State.stage2
  rw [if_neg (by simp [hmay, hhalt])]
  obtain ⟨o, h⟩ := ({ s with pwr := { s.pwr with rails := true } } : State).setPwrgd_eq true
  dsimp only
  rw [h]
  have hruns : ({ s with out := o, pwr := { s.pwr with rails := true, pwrgd := true } } : State).imageRuns = s.imageRuns := rfl
  by_cases hrec : (s.rst.recovery || !s.imageRuns) = true
  · obtain ⟨hstage, hrecovery, hrails, hgood⟩ :=
      ({ s with out := o, pwr := { s.pwr with rails := true, pwrgd := true } } : State).enterRecovery_frame
    rw [if_pos (by rw [hruns]; exact hrec)]
    refine ⟨hrails, hgood, fun _ => ⟨hstage, hrecovery⟩, fun hr hi => ?_⟩
    rw [hr, hi] at hrec
    exact absurd hrec (by decide)
  · obtain ⟨hstage, hpend, hrails, hgood⟩ :=
      ({ s with out := o, pwr := { s.pwr with rails := true, pwrgd := true } } : State).firmwareStart_frame
    rw [if_neg (by rw [hruns]; exact hrec)]
    refine ⟨hrails, hgood, fun h => absurd ?_ hrec, fun _ _ => ⟨hstage, hpend⟩⟩
    rcases h with h | h <;> simp [h]

/-! Stages 3 to 7. -/

theorem State.replanRate_frame (s : State) (st : Nat) :
    (s.replanRate st).rst = s.rst ∧ ∀ p, ((s.replanRate st).plinth p).trained = (s.plinth p).trained ∧
      ((s.replanRate st).plinth p).selfRef = (s.plinth p).selfRef := by
  unfold State.replanRate
  dsimp only
  generalize (if (s.plinth st).rate.toNat < 3 then (s.plinth st).rate + 1 else (s.plinth st).rate) = r
  split
  · exact ⟨rfl, fun _ => ⟨rfl, rfl⟩⟩
  · refine ⟨State.log_rst _ _ _, fun p => ?_⟩
    rw [State.log_plinth]
    by_cases hp : p = st
    · subst hp
      rw [State.modPlinth_plinth]
      exact ⟨rfl, rfl⟩
    · rw [State.modPlinth_plinth_ne _ _ _ _ hp]
      exact ⟨rfl, rfl⟩

/-- One stack trained, or out of self-refresh, in stage 3. -/
def State.trainStep (s : State) (p : Nat) : State :=
  let s := if s.rst.cls ≠ .w ∧ 10000 < (s.plinth p).hour then s.replanRate p else s
  s.modPlinth p (fun x => { x with trained := true, selfRef := false, hour := if s.rst.cls = .w then x.hour else 0 })

theorem State.stage3_eq (s : State) : s.stage3 none =
    let t := (List.range 20).foldl State.trainStep s
    { t with rst := { t.rst with stage := 4 } } := by
  unfold State.stage3 State.trainStep
  dsimp only

theorem State.trainStep_plinth (s : State) (p : Nat) :
    (((s.trainStep p).plinth p).trained, ((s.trainStep p).plinth p).selfRef) = (true, false) := by
  unfold State.trainStep
  dsimp only
  rw [State.modPlinth_plinth]

theorem State.trainStep_plinth_ne (s : State) (p j : Nat) (hj : j ≠ p) :
    (((s.trainStep p).plinth j).trained, ((s.trainStep p).plinth j).selfRef) = ((s.plinth j).trained, (s.plinth j).selfRef) := by
  unfold State.trainStep
  dsimp only
  rw [State.modPlinth_plinth_ne _ _ _ _ hj]
  split
  · obtain ⟨htrained, hself⟩ := (s.replanRate_frame p).2 j
    rw [htrained, hself]
  · rfl

theorem State.stage3_plinth (s : State) {p : Nat} (hp : p < 20) :
    ((s.stage3 none).plinth p).trained = true ∧ ((s.stage3 none).plinth p).selfRef = false := by
  have hfold := foldl_part (fun s p => ((s.plinth p).trained, (s.plinth p).selfRef)) State.trainStep (fun _ => (true, false))
    State.trainStep_plinth State.trainStep_plinth_ne (List.range 20) List.nodup_range s p
  rw [if_pos (List.mem_range.mpr hp)] at hfold
  rw [s.stage3_eq]
  generalize (List.range 20).foldl State.trainStep s = t at hfold
  exact Prod.mk.inj hfold

theorem State.foldl_reclock_rst (l : List Nat) (s : State) : (l.foldl State.reclock s).rst = s.rst :=
  foldl_rst (fun s n => s.modCore_rst n _) l s

theorem State.stage5_stage {s : State} (h : ¬ (s.rst.cls = RstCls.w ∧ s.rst.modeApply = true)) : s.stage5.rst.stage = 6 := by
  unfold State.stage5
  rw [if_neg h]
  exact congrArg Rst.stage (State.foldl_reclock_rst _ _)

/-- A hold set or cleared in every cell that exists changes the cells alone. -/
theorem State.holdAll_eq (s : State) (f : Holds → Holds) : s.holdAll f = { s with cells := (s.holdAll f).cells } := by
  unfold State.holdAll
  generalize cellIds.filter (fun k => (s.cell k).exists_) = l
  induction l generalizing s with
  | nil => rfl
  | cons k l ih =>
    rw [List.foldl_cons]
    exact (ih (s.modCell k (fun c => { c with holds := f c.holds }))).trans rfl

theorem State.holdAll_cell (s : State) (f : Holds → Holds) {k : Nat} (hk : k ∈ cellIds) (h : (s.cell k).exists_ = true) :
    (s.holdAll f).cell k = { s.cell k with holds := f (s.cell k).holds } := by
  unfold State.holdAll
  rw [foldl_part State.cell _ (fun c => { c with holds := f c.holds }) (fun s n => State.modCell_cell s n _)
    (fun s n j hj => State.modCell_cell_ne s n j _ hj) _ (List.Nodup.filter _ cellIds_nodup),
    if_pos (List.mem_filter.mpr ⟨hk, h⟩)]

theorem State.goOperational_frame (s : State) :
    s.goOperational.rst.stage = 8 ∧ s.goOperational.rst.bcount = 0 ∧ s.goOperational.rst.journal = 0 ∧
      (∀ k ∈ cellIds, (s.cell k).exists_ = true → (s.goOperational.cell k).holds.warm = false) ∧
      s.goOperational.mgmt.fuse.toNat =
        if s.mgmt.svnRun.toNat ≤ 64 then max s.mgmt.fuse.toNat s.mgmt.svnRun.toNat else s.mgmt.fuse.toNat := by
  let u : State := { s with rst := { s.rst with stage := 8, bcount := 0, journal := 0 } }
  have hrst : (u.holdAll (fun h => { h with warm := false })).rst = u.rst := by rw [State.holdAll_eq]
  have hmgmt : (u.holdAll (fun h => { h with warm := false })).mgmt = s.mgmt := by rw [State.holdAll_eq]
  have hcell (k : Nat) (hk : k ∈ cellIds) (h : (s.cell k).exists_ = true) :
      ((u.holdAll (fun h => { h with warm := false })).cell k).holds.warm = false := by
    rw [State.holdAll_cell u _ hk h]
  unfold State.goOperational
  dsimp only
  generalize u.holdAll (fun h => { h with warm := false }) = v at hrst hmgmt hcell
  rw [hmgmt]
  split
  next h =>
    obtain ⟨_, _, _, _, _, _, _, hlog⟩ :=
      State.log_logs { v with mgmt := { s.mgmt with fuse := BitVec.ofNat 7 s.mgmt.svnRun.toNat } } 0x7305
        [.val 1 s.mgmt.fuse.toNat, .val 1 s.mgmt.svnRun.toNat]
    rw [hlog]
    refine ⟨by rw [hrst], by rw [hrst], by rw [hrst], hcell, ?_⟩
    rw [if_pos h.2, BitVec.toNat_ofNat]
    omega
  next h =>
    refine ⟨by rw [hrst], by rw [hrst], by rw [hrst], hcell, ?_⟩
    rw [hmgmt]
    split <;> omega

theorem stagesDo_holds : stagesDo := by
  intro ext s hwarn hst
  refine ⟨fun fail h2 hmay hhalt => ?_, fun hrails hhalt => ⟨fun h3 => ?_, fun h3 st h => ?_, fun h3 st hcls hretried hlt => ?_,
    fun h => ?_, fun h5 h => ?_, fun h4 h7 u => ?_, fun h7 => ?_⟩, fun cause h0 h8 hoff => ?_⟩
  · exact ⟨_, (exec_resetStageDone_of_runs hwarn hst (by omega) (by omega) ext fail).trans
      ((if_neg (by omega)).trans (if_pos h2)), State.stage2_frame hmay hhalt⟩
  · exact ⟨_, (exec_resetStageDone_of_later hwarn hst hrails hhalt (by omega) (by omega) ext none).trans (if_pos h3), rfl,
      fun p hp => s.stage3_plinth hp⟩
  · rw [exec_resetStageDone_of_later hwarn hst hrails hhalt (by omega) (by omega), if_pos h3]
    exact congrArg Host.Outcome.next (if_pos h)
  · refine ⟨_, (exec_resetStageDone_of_later hwarn hst hrails hhalt (by omega) (by omega) ext (some st)).trans (if_pos h3), ?_⟩
    have hlogged : (s.stageLog st).rst.stage = 3 := (congrArg Rst.stage (State.log_rst s _ _)).trans h3
    unfold State.stage3
    dsimp only
    rw [if_neg (by simp [hcls, hretried]; omega), (State.replanRate_frame _ st).1]
    exact ⟨hlogged, rfl⟩
  · rw [exec_resetStageDone_of_later hwarn hst hrails hhalt (by omega) (by omega), if_neg (by omega)]
    exact congrArg Host.Outcome.next ((if_neg (by omega)).trans (if_neg (by omega)))
  · have hfive : s.laterStage none = s.stage5 := if_pos h5
    refine ⟨_, (exec_resetStageDone_of_later hwarn hst hrails hhalt (by omega) (by omega) ext none).trans (if_neg (by omega)), ?_⟩
    rw [hfive]
    exact State.stage5_stage h
  · rw [exec_resetStageDone_of_later hwarn hst hrails hhalt (by omega) (by omega), if_neg (by omega)]
    rfl
  · have hseven : s.laterStage none = s.goOperational := (if_neg (by omega)).trans (if_pos h7)
    refine ⟨_, (exec_resetStageDone_of_later hwarn hst hrails hhalt (by omega) (by omega) ext none).trans (if_neg (by omega)), ?_⟩
    rw [hseven]
    exact s.goOperational_frame
  · show execResetStageTimeout cause s = _
    exact if_neg (by simp [hwarn, hst, h0, h8, hoff])

/-! Failure. -/

theorem stageFails_holds : stageFails := by
  refine ⟨fun s cause => ?_, fun s ext fail cause hwarn => ⟨?_, ?_⟩⟩
  · have hrst : (s.log 0x7201 [.val 1 s.rst.stage, .val 1 (Config.code (32 + cause))]).rst = s.rst := State.log_rst s _ _
    unfold State.stageFail State.stageLog
    dsimp only
    rw [hrst]
    exact ⟨rfl, rfl, rfl, _, rfl⟩
  · show execResetStageDone ext fail s = _
    exact if_pos (.inl hwarn)
  · show execResetStageTimeout cause s = _
    exact if_pos (.inl hwarn)

end Sys2Proof.Machine

end

section

/-! PROOFS. The reset of a lone block (O42). -/

namespace Sys2Proof.Machine

open Sys2Proof Sys2Proof.Claims

/-! What a block's reset leaves of the reset fields. -/

theorem State.portLeave_rst (s : State) (i : Nat) (st : PortSt) (why : Nat) : (s.portLeave i st why).rst = s.rst :=
  (foldl_rst (fun (t : State) (x : PortPk) => (t.transmit_sent x.src x.arr).rst) _ _).trans rfl

theorem State.portDown_rst (s : State) (i why : Nat) (fail : Bool) : (s.portDown i why fail).rst = s.rst := by
  unfold State.portDown
  exact rst_ite ((State.log_rst _ _ _).trans (s.portLeave_rst i _ _)) (s.portLeave_rst i _ _)

theorem State.uploadFailed_rst (s : State) : s.uploadFailed.rst = s.rst := by
  unfold State.uploadFailed
  split
  · rfl
  · exact State.log_rst s _ _

theorem State.storeFailed_rst (s : State) : s.storeFailed.rst = s.rst := by
  unfold State.storeFailed
  exact rst_ite (State.log_rst s _ _) s.uploadFailed_rst

theorem State.requesterFails_rst (s : State) (q : Qp) : (s.requesterFails q).rst = s.rst := by
  unfold State.requesterFails
  refine rst_ite rfl ((foldl_rst (fun t o => ?_) _ _).trans rfl)
  exact rst_ite t.storeFailed_rst (t.sendTcdf_sent _ _ _ _ _ _ _).rst

theorem State.abortUpload_rst (s : State) : s.abortUpload.rst = s.rst := by
  unfold State.abortUpload
  split <;> rfl

theorem State.resetFlash_rst (s : State) : s.resetFlash.rst = s.rst := by
  cases hdrain : s.snp.drainGen <;> simp only [State.resetFlash, hdrain]
  · split
    · rfl
    · rw [State.abortUpload_rst, State.log_rst]
  · split
    · rw [State.log_rst]
    · rw [State.abortUpload_rst, State.log_rst, State.log_rst]

theorem State.resetPlinth_rst (s : State) (p : Nat) (idle : Bool) : (s.resetPlinth p idle).rst = s.rst := by
  unfold State.resetPlinth
  dsimp only
  rw [State.modPlinth_rst]
  split <;> rfl

theorem State.resetBlock_rst (s : State) (b : Nat) (idle : Bool) : (s.resetBlock b idle).rst = s.rst := by
  unfold State.resetBlock
  refine rst_ite (s.resetPlinth_rst b idle) (rst_ite (rst_ite rfl (s.portDown_rst _ _ _)) (rst_ite ?_ (rst_ite s.resetFlash_rst rfl)))
  rw [State.modEth_rst, State.closeAll_rst]
  exact foldl_rst State.requesterFails_rst _ _

/-! The late answers to the requests of a stack that was reset. -/

theorem State.touch_media (s : State) (a n part : Nat) (write atomic : Bool) : Media s (s.touch a n part write atomic) :=
  s.touchWith_media _ _ _ _ _

theorem State.walkThrough_media (s : State) (root : Option (Nat × Nat)) (va : Nat) : Media s (s.walkThrough root va).1 := by
  unfold State.walkThrough
  split
  · exact .refl s
  · dsimp only
    split
    · exact .refl s
    · split <;> dsimp only
      · exact s.touch_media _ _ _ _ _
      · exact (s.touch_media _ _ _ _ _).trans (State.touch_media _ _ _ _ _ _)

theorem State.xlate_spares (s : State) (n : Nat) (root : Option (Nat × Nat)) (va : Nat) (rd wr : Bool) :
    Spares s (s.xlate n root va rd wr).1 := by
  have hfinish (u : State) (e : XlEnt) : Spares u (if (rd && !e.rd) || (wr && !e.wr) then (u, Except.error (⟨2, 0, va, wr⟩ : XlErr))
      else (u, Except.ok (e.frame + va % e.size, e.part))).1 := by
    split <;> exact .refl u
  have hfill (u : State) : Spares u (match (u.modCore n (fun co => { co with
        xlCache := co.xlCache.filter (fun x => !(x.covers va)) })).walkThrough root va with
      | (s, .error (r, a)) => (s, Except.error (⟨r, a, va, wr⟩ : XlErr))
      | (s, .ok e) => if (rd && !e.rd) || (wr && !e.wr) then (s.modCore n (fun co => co.xlKeep e), Except.error (⟨2, 0, va, wr⟩ : XlErr))
          else (s.modCore n (fun co => co.xlKeep e), Except.ok (e.frame + va % e.size, e.part))).1 := by
    have hwalk := (u.modCore_spares n (fun co => { co with xlCache := co.xlCache.filter (fun x => !(x.covers va)) })).trans
      (State.walkThrough_media _ root va).spares
    split
    next heq => rw [heq] at hwalk; exact hwalk
    next heq =>
      rw [heq] at hwalk
      exact (hwalk.trans (State.modCore_spares _ _ _)).trans (hfinish _ _)
  have hdraw : Spares s { s with free := s.free + 1 } := ⟨rfl, rfl, rfl, rfl, rfl, rfl, rfl, rfl, rfl⟩
  unfold State.xlate
  dsimp only
  split
  · split
    · exact hdraw.trans (hfinish _ _)
    · exact hdraw.trans (hfill _)
  · exact hfill s

theorem State.xlRange_spares (n : Nat) (root : Option (Nat × Nat)) (rd wr : Bool) :
    ∀ (l : List (Nat × Nat)) (s : State), Spares s (s.xlRange n root rd wr l).1
  | [], s => .refl s
  | (a, len) :: r, s => by
    have hfirst := s.xlate_spares n root a rd wr
    unfold State.xlRange
    split
    next heq => rw [heq] at hfirst; exact hfirst
    next t l part heq =>
      rw [heq] at hfirst
      have hrest := State.xlRange_spares n root rd wr r t
      split
      next heq' => rw [heq'] at hrest; exact hfirst.trans hrest
      next heq' => rw [heq'] at hrest; exact hfirst.trans hrest

theorem State.place_spares (s : State) (n : Nat) (root : Option (Nat × Nat)) (virt : Bool) (a len : Nat) (rd wr : Bool) :
    Spares s (s.place n root virt a len rd wr).1 := by
  have hrange := State.xlRange_spares n root rd wr (pagesOf a len) s
  unfold State.place
  split
  · split
    next heq => rw [heq] at hrange; exact hrange
    next heq => rw [heq] at hrange; exact hrange
  · exact .refl s

theorem State.ptouch_spares (s : State) (write : Bool) (p : Place) : Spares s (s.ptouch write p) := by
  cases p with
  | store n a len => exact .refl s
  | hbm ps => exact .foldl (fun (t : State) (p : Nat × (Nat × Nat)) => (t.touch_media _ _ _ _ _).spares) _ _

theorem State.hwrite_spares (s : State) (a : Nat) (bs : List PByte) : Spares s (s.hwrite a bs) :=
  ⟨rfl, rfl, rfl, rfl, rfl, rfl, rfl, rfl, rfl⟩

theorem State.pput_spares (s : State) (bs : List PByte) (p : Place) : Spares s (s.pput bs p) := by
  cases p with
  | store n a len => exact s.modCore_spares n (fun co => co.pwrite a bs)
  | hbm ps =>
    show Spares s (ps.foldl (fun (q : State × List PByte) p => (q.1.hwrite p.1 (q.2.take p.2.1), q.2.drop p.2.1)) (s, bs)).1
    induction ps generalizing s bs with
    | nil => exact .refl s
    | cons p ps ih => exact (s.hwrite_spares _ _).trans (ih _ _)

theorem State.lateElem_spares (s : State) (b n : Nat) (e : Entry) (i off : Nat) : Spares s (s.lateElem b n e i off) := by
  unfold State.lateElem
  split
  · exact .refl s
  · dsimp only
    split
    · exact .refl s
    next k _ ends sa da _ =>
      generalize hsrc : State.place s _ _ _ _ _ _ _ = src
      have hfirst : Spares s src.1 := hsrc ▸ State.place_spares ..
      obtain ⟨u, x⟩ := src
      cases x with
      | error err => exact hfirst
      | ok from_ =>
        dsimp only
        generalize hdst : State.place u _ _ _ _ _ _ _ = dst
        have hsecond : Spares u dst.1 := hdst ▸ State.place_spares ..
        obtain ⟨v, y⟩ := dst
        cases y with
        | error err => exact hfirst.trans hsecond
        | ok into =>
          dsimp only
          refine (hfirst.trans hsecond).trans (.ite ?_ (.refl v))
          exact ((((v.ptouch_spares _ _).trans (State.ptouch_spares _ _ _)).trans (State.pput_spares _ _ _)).trans
            (State.modCore_spares _ _ _))

theorem State.straggler_spares (s : State) (b : Nat) : Spares s (s.straggler b) := by
  have hdraw : Spares s { s with free := s.free + 3 } := ⟨rfl, rfl, rfl, rfl, rfl, rfl, rfl, rfl, rfl⟩
  unfold State.straggler
  dsimp only
  split
  · exact hdraw
  · split
    · exact hdraw
    · exact hdraw.trans (State.lateElem_spares _ _ _ _ _ _)

/-! A stack and a core reset as blocks. -/

theorem mem_psPutRange_self (p : PSet) (k n : Nat) (hn : 0 < n) : k ∈ psPutRange p k n true := by
  have hmem := mem_foldl_psAdd (fun i => k + i) 0 (List.range n) p (.inl (List.mem_range.mpr hn))
  exact hmem

theorem mem_psPutRange_of_mem {p : PSet} {x : Nat} (h : x ∈ p) (k n : Nat) : x ∈ psPutRange p k n true := by
  unfold psPutRange
  induction List.range n generalizing p with
  | nil => exact h
  | cons i l ih => exact ih (mem_psAdd_of_mem p _ _ h)

/-- Every dirty line of a slice leaves its first sector poisoned. -/
theorem mem_poisonDirty {ls : List SlLine} {l : SlLine} (hl : l ∈ ls) (hd : l.dirty = true) (p : PSet) :
    l.addr / 64 ∈ poisonDirty p ls := by
  have hkeep (q : PSet) (ms : List SlLine) (hq : l.addr / 64 ∈ q) :
      l.addr / 64 ∈ ms.foldl (fun (p : PSet) l => psPutRange p (l.addr / 64) 4 true) q := by
    induction ms generalizing q with
    | nil => exact hq
    | cons m ms ih => exact ih _ (mem_psPutRange_of_mem hq _ _)
  have hmem : l ∈ ls.filter (fun l => l.dirty) := List.mem_filter.mpr ⟨hl, hd⟩
  unfold poisonDirty
  generalize ls.filter (fun l => l.dirty) = ms at hmem
  induction ms generalizing p with
  | nil => exact absurd hmem List.not_mem_nil
  | cons m ms ih =>
    rcases List.mem_cons.mp hmem with rfl | hm
    · exact hkeep _ ms (mem_psPutRange_self p _ 4 (by decide))
    · exact ih _ hm

theorem State.resetPlinth_frame (s : State) (p : Nat) :
    ((s.resetPlinth p false).plinth p).slice = [] ∧ ((s.resetPlinth p false).plinth p).queue = [] ∧
      (∀ j, j ≠ p → (s.resetPlinth p false).plinth j = s.plinth j) ∧ (s.resetPlinth p false).hbm = s.hbm ∧
      (∀ l ∈ (s.plinth p).slice, l.dirty = true → psHas (s.resetPlinth p false).hbmPois (l.addr / 64) = true) := by
  have heq : s.resetPlinth p false = ({ s with hbmPois := poisonDirty s.hbmPois (s.plinth p).slice } : State).modPlinth p
      (fun x => { x with slice := [], queue := [], flushing := false }) := rfl
  rw [heq]
  refine ⟨?_, ?_, fun j hj => State.modPlinth_plinth_ne _ _ _ _ hj, rfl, fun l hl hd => ?_⟩
  · rw [State.modPlinth_plinth]
  · rw [State.modPlinth_plinth]
  · exact List.contains_iff_mem.mpr (mem_poisonDirty hl hd s.hbmPois)

theorem State.resetPlinth_spares (s : State) (p : Nat) (idle : Bool) : Spares s (s.resetPlinth p idle) := by
  unfold State.resetPlinth
  dsimp only
  split <;> exact ⟨rfl, rfl, rfl, rfl, rfl, rfl, rfl, rfl, rfl⟩

/-- What the end of a block's waiting has done before it is logged. -/
def State.blockEnded (s : State) (block : BitVec 8) (idle : Bool) (n : Nat) : State :=
  let b := block.toNat
  let u := s.resetBlock b idle
  let u := if b < 20 then (List.range n).foldl (fun (s : State) _ => s.straggler b) u else u
  let left := u.rst.quiet.filter (fun (x : Nat) => decide (x ≠ b))
  { u with rst := { u.rst with quiet := left, lastBlk := block, active := decide (left ≠ []), timedOut := !idle, poisoned := satAdd 0 n } }

theorem exec_blockQuiesceEnd_of_mem {s : State} {block : BitVec 8} (h : block.toNat ∈ s.rst.quiet) (idle : Bool) (n : Nat) :
    exec (.blockQuiesceEnd block idle n) s = .next ((s.blockEnded block idle (if idle then 0 else n)).log 0x6107
      [blockField block.toNat, .val 4 (if idle then 0 else n)]) := by
  show execBlockQuiesceEnd block idle n s = _
  unfold execBlockQuiesceEnd
  exact if_neg (not_not.mpr h)

theorem State.foldl_straggler_spares (b n : Nat) (s : State) :
    Spares s ((List.range n).foldl (fun (s : State) _ => s.straggler b) s) := .foldl (fun t _ => t.straggler_spares b) _ _

theorem State.blockEnded_rst (s : State) (block : BitVec 8) (idle : Bool) (n : Nat) :
    (s.blockEnded block idle n).rst = { s.rst with
      quiet := s.rst.quiet.filter (fun x => decide (x ≠ block.toNat)), lastBlk := block,
      active := decide (s.rst.quiet.filter (fun x => decide (x ≠ block.toNat)) ≠ []), timedOut := !idle, poisoned := satAdd 0 n } := by
  have hrst : (if block.toNat < 20 then (List.range n).foldl (fun (s : State) _ => s.straggler block.toNat) (s.resetBlock block.toNat idle)
      else s.resetBlock block.toNat idle).rst = s.rst :=
    rst_ite ((State.foldl_straggler_spares _ _ _).rst.trans (s.resetBlock_rst _ _)) (s.resetBlock_rst _ _)
  unfold State.blockEnded
  dsimp only
  rw [hrst]

/-- A stack reset as a block: before its late answers the reset alone has changed anything. -/
theorem State.blockEnded_of_stack {s : State} {block : BitVec 8} (h : block.toNat < 20) (idle : Bool) (n : Nat) :
    s.blockEnded block idle n = { (List.range n).foldl (fun (s : State) _ => s.straggler block.toNat) (s.resetPlinth block.toNat idle) with
      rst := (s.blockEnded block idle n).rst } := by
  have hreset : s.resetBlock block.toNat idle = s.resetPlinth block.toNat idle := if_pos h
  unfold State.blockEnded
  dsimp only
  rw [if_pos h, hreset]

theorem State.blockEnded_of_core {s : State} {block : BitVec 8} (h : 64 ≤ block.toNat) (idle : Bool) (n : Nat) :
    s.blockEnded block idle n = { s.modCore (block.toNat - 64) Core.blockReset with rst := (s.blockEnded block idle n).rst } := by
  have hreset : s.resetBlock block.toNat idle = s.modCore (block.toNat - 64) Core.blockReset :=
    (if_neg (by omega)).trans ((if_neg (by omega)).trans ((if_neg (by omega)).trans (if_neg (by omega))))
  unfold State.blockEnded
  dsimp only
  rw [if_neg (by omega), hreset]

theorem Core.blockReset_frame (co : Core) :
    co.blockReset.store = [] ∧ co.blockReset.treg = [] ∧ co.blockReset.mvu = [] ∧
      (tabWf {} co.arrays = true → ∀ a, co.blockReset.arr a = { front := (co.arr a).front, back := (co.arr a).back }) :=
  ⟨rfl, rfl, rfl, fun h a => tabGet_tabMap (f := Arr.blockReset) rfl h a⟩

/-! The commands. -/

theorem exec_blockResetRequest_of_cellOf {s : State} {block : BitVec 8} (hcode : blockCode block.toNat = true) (hop : s.operational = true)
    (hq : block.toNat ∉ s.rst.quiet) {k : Nat} (h64 : 64 ≤ block.toNat) (hk : s.cellOf (block.toNat - 64) = some k) :
    exec (.blockResetRequest block) s = .next ((s.commandReset k).log 0x6107 [.core (block.toNat - 64), .val 4 0]) := by
  show execBlockResetRequest block s = _
  unfold execBlockResetRequest
  dsimp only
  rw [if_neg (by simp [hcode, hop, hq]), if_pos h64, hk]

theorem exec_blockResetRequest_of_lone {s : State} {block : BitVec 8} (hcode : blockCode block.toNat = true) (hop : s.operational = true)
    (hq : block.toNat ∉ s.rst.quiet) (h : block.toNat < 64 ∨ s.cellOf (block.toNat - 64) = none) :
    exec (.blockResetRequest block) s = .next { s with rst := { s.rst with
      lastBlk := block, active := true, timedOut := false, poisoned := 0, quiet := s.rst.quiet ++ [block.toNat] } } := by
  have hlone : (if 64 ≤ block.toNat then s.cellOf (block.toNat - 64) else none) = none := by
    by_cases h64 : 64 ≤ block.toNat
    · exact (if_pos h64).trans (h.resolve_left (by omega))
    · exact if_neg h64
  show execBlockResetRequest block s = _
  unfold execBlockResetRequest
  dsimp only
  rw [if_neg (by simp [hcode, hop, hq]), hlone]

theorem blockResetDoes_holds : blockResetDoes := by
  intro s block
  refine ⟨fun hcode hop hq => ⟨fun k h64 hcell => ?_, fun h => ?_⟩, fun hop => ?_, fun hq idle n => ?_, fun hq idle n => ?_,
    fun h20 hq => ?_, fun h64 hq idle n => ?_⟩
  · exact exec_blockResetRequest_of_cellOf hcode hop hq h64 hcell
  · exact exec_blockResetRequest_of_lone hcode hop hq h
  · show execBlockResetRequest block s = _
    exact if_pos (.inr (.inl (by simp [hop])))
  · exact execBlockQuiesceEnd_of_not_mem hq idle n
  · exact ⟨_, exec_blockQuiesceEnd_of_mem hq idle n, s.blockEnded_rst block idle _⟩
  · have hended (n : Nat) := s.blockEnded_of_stack h20 false n
    obtain ⟨hslice, hqueue, hothers, hhbm, hpois⟩ := s.resetPlinth_frame block.toNat
    refine ⟨hslice, hqueue, hothers, hhbm, hpois, fun n => ?_, ?_⟩
    · have hspares := ((s.resetPlinth_spares block.toNat false).trans (State.foldl_straggler_spares block.toNat n _))
      have hlog := (s.blockEnded block false n).log_spares 0x6107 [blockField block.toNat, .val 4 n]
      refine ⟨_, exec_blockQuiesceEnd_of_mem hq false n, hlog.cfg.trans ?_, hlog.gal.trans ?_, hlog.snp.trans ?_⟩
      · rw [hended]; exact hspares.cfg
      · rw [hended]; exact hspares.gal
      · rw [hended]; exact hspares.snp
    · refine ⟨_, exec_blockQuiesceEnd_of_mem hq false 0, ?_, ?_, ?_⟩
      · rw [State.log_plinths]
        exact (congrArg State.plinths (hended 0) :)
      · rw [State.log_hbm]
        exact (congrArg State.hbm (hended 0) :)
      · rw [State.log_hbmPois]
        exact (congrArg State.hbmPois (hended 0) :)
  · have hcore (j : Nat) : ((s.blockEnded block idle (if idle then 0 else n)).log 0x6107
        [blockField block.toNat, .val 4 (if idle then 0 else n)]).core j =
        (s.modCore (block.toNat - 64) Core.blockReset).core j := by
      rw [State.log_core]
      exact (congrArg (fun t : State => t.core j) (s.blockEnded_of_core h64 idle _) :)
    obtain ⟨hstore, htreg, hmvu, harr⟩ := (s.core (block.toNat - 64)).blockReset_frame
    refine ⟨_, exec_blockQuiesceEnd_of_mem hq idle n, ?_, ?_, ?_, ?_, fun j hj => ?_⟩
    · rw [hcore, State.modCore_core]; exact hstore
    · rw [hcore, State.modCore_core]; exact htreg
    · rw [hcore, State.modCore_core]; exact hmvu
    · rw [hcore, State.modCore_core]; exact harr
    · rw [hcore, State.modCore_core_ne _ _ _ _ hj]

/-- Settles O42: the stages by the state that each of them leaves, and the reset of a lone block by the parts that it touches. -/
theorem bringUpRunsItsStages : Obligations.BringUpRunsItsStages :=
  ⟨stageOneDoes_holds, stagesDo_holds, stageFails_holds, blockResetDoes_holds⟩

end Sys2Proof.Machine

end

section

/-! PROOFS. A standby that is entered while a link port still holds a packet of a PREEMPTED cell (O43). -/

namespace Sys2Proof.Machine

open Sys2Proof Sys2Proof.Claims

/-! An access of a partition that allocates leaves its line in the slice. -/

theorem Plinth.access_slice_ne_nil (p : Plinth) (c : Cfg) (line lo hi part : Nat) (write atomic : Bool)
    (h : (c.part part).noalloc = false) : (p.access c line lo hi part write atomic).slice ≠ [] := by
  unfold Plinth.access
  dsimp only
  generalize (if (p.fetch line lo hi write).isEmpty then p else p.ask part (64 * (p.fetch line lo hi write).length)) = q
  split
  · exact List.cons_ne_nil _ _
  · rw [h, Bool.false_and, if_neg Bool.false_ne_true]
    split
    · exact List.cons_ne_nil _ _
    · split <;> exact List.cons_ne_nil _ _

theorem State.touchLine_slice_ne_nil {s : State} (hquiet : s.rst.quiet = []) {part : Nat} (h : (s.cfg.part part).noalloc = false)
    (write atomic : Bool) (line lo hi : Nat) :
    ((s.touchLine part write atomic line lo hi).plinth (s.cfg.stackOf line).1).slice ≠ [] := by
  unfold State.touchLine
  dsimp only
  rw [if_neg (by rw [hquiet]; exact Bool.false_ne_true), State.modPlinth_plinth]
  exact Plinth.access_slice_ne_nil _ _ _ _ _ _ _ _ h

/-- Within one line a range of addresses is one access. -/
theorem State.touchPhys_of_line {a n : Nat} (hn : n ≠ 0) (hline : (a + n - 1) / 256 = a / 256) (s : State) (write : Bool) :
    s.touchPhys a n write = s.touchLine (s.cfg.physPart (a / 256 * 256)) write false (a / 256 * 256) (max a (a / 256 * 256))
      (min (a + n) (a / 256 * 256 + 256)) := by
  unfold State.touchPhys State.touchWith
  rw [if_neg hn, hline, show a / 256 + 1 - a / 256 = 1 by omega]
  rfl

/-! The state. -/

/-- The image of a PREEMPTED cell whose one core waits for the answer to a packet of flow 1 with SEQ 0. -/
def lateImage : CtxImg := { cores := [{ inflight := [{ stream := 4, dests := [(1, 0, 0)] }] }] }

/-- A device about to enter standby: cell 0 is PREEMPTED with that image in its area, and port 0 still holds the packet. -/
def lateSleeper : State :=
  { pwr := { standbyIn := true }
    cells := [(0, { mask := 1, ctx := 3, area := 0x1000000, img := some lateImage })]
    ports := [(0, { state := .up, txq := [{ pk := { slot := 1 }, src := { slot := 1 } }] })] }

/-- The same device with its stacks in self-refresh and port 0 cleared, as the packet is handed back. -/
def lateSent : State :=
  ((List.range 20).foldl (fun (s : State) p => s.modPlinth p Plinth.asleep) lateSleeper).modPort 0 (fun p => p.clear .down 9)

/-- The packet has no route: the event is logged. -/
def lateLogged : State := lateSent.countNoroute.log 0x3205 [.val 1 0, .val 1 1, .val 4 0]

/-- The image's entry marked as failed. -/
def lateMarked : State :=
  lateLogged.modImg 0 0 (fun co => co.modEntry 4 0 (fun e => { e with cause := 3, outcome := 2 }))

theorem State.foldl_modPlinth_frame (f : Plinth → Plinth) (l : List Nat) (s : State) :
    (l.foldl (fun (s : State) p => s.modPlinth p f) s) =
      { s with plinths := (l.foldl (fun (s : State) p => s.modPlinth p f) s).plinths } := by
  induction l generalizing s with
  | nil => rfl
  | cons p l ih => exact (ih (s.modPlinth p f)).trans rfl

theorem lateSent_frame : ∃ pl, lateSent = { lateSleeper.modPort 0 (fun p => p.clear .down 9) with plinths := pl } := by
  unfold lateSent
  rw [State.foldl_modPlinth_frame]
  exact ⟨_, rfl⟩

theorem lateLogged_frame : lateLogged.cells = lateSleeper.cells ∧ lateLogged.cores = [] ∧ lateLogged.cfg = {} ∧
    lateLogged.rst.quiet = [] := by
  obtain ⟨pl, h⟩ := lateSent_frame
  unfold lateLogged
  rw [State.log_cells, State.log_cores, State.log_cfg, State.log_rst, h]
  exact ⟨rfl, rfl, rfl, rfl⟩

theorem lateLogged_ownerCore : lateLogged.ownerCore 1 0 = none := by
  obtain ⟨-, hcores, -, -⟩ := lateLogged_frame
  have hcore (n : Nat) : lateLogged.core n = {} := by
    unfold State.core
    rw [hcores]
    rfl
  unfold State.ownerCore
  simp only [hcore]
  decide

theorem lateLogged_ownerImg : lateLogged.ownerImg 1 0 = some (0, 0, { stream := 4, dests := [(1, 0, 0)] }) := by
  obtain ⟨hcells, -, -, -⟩ := lateLogged_frame
  have hcell (k : Nat) : lateLogged.cell k = lateSleeper.cell k := by
    unfold State.cell
    rw [hcells]
  unfold State.ownerImg
  simp only [hcell]
  rfl

/-- The packet handed back fails, and the entry of the image is written into the context area. -/
theorem lateSent_transmit : lateSent.transmit { slot := 1 } none = lateMarked.imgTable 0 0 := by
  obtain ⟨pl, h⟩ := lateSent_frame
  have hroute : lateSent.routeSend { slot := 1 } none = none := by
    rw [h]
    rfl
  have hown : flowKey 0 0 = lateLogged.ownKey := by
    unfold lateLogged State.ownKey
    rw [State.log_gal, h]
    rfl
  unfold State.transmit
  rw [hroute]
  show (if flowKey 0 0 = lateLogged.ownKey then if 0 = 0 then lateLogged.remFault 1 0 3 0 else lateLogged
    else if lateLogged.mayInject (lateLogged.noRouteErr { slot := 1 }) then
      match lateLogged.routeSend (lateLogged.noRouteErr { slot := 1 }) none with | some s => s | none => lateLogged
    else lateLogged) = _
  rw [if_pos hown, if_pos rfl]
  unfold State.remFault
  rw [lateLogged_ownerCore, lateLogged_ownerImg]
  rfl

theorem lateMarked_img : (lateMarked.cell 0).area.toNat = 0x1000000 ∧ ∃ im e, (lateMarked.cell 0).img = some im ∧
    (im.cores.getD 0 {}).table = [e] := by
  obtain ⟨hcells, -, -, -⟩ := lateLogged_frame
  have hcell : lateLogged.cell 0 = lateSleeper.cell 0 := by
    unfold State.cell
    rw [hcells]
  unfold lateMarked State.modImg
  rw [State.modCell_cell, hcell]
  exact ⟨rfl, _, _, rfl, rfl⟩

/-- The write of the entry leaves a line in the slice of the stack that holds it. -/
theorem lateMarked_slice : ∃ st, st < 20 ∧ ((lateMarked.imgTable 0 0).plinth st).slice ≠ [] := by
  obtain ⟨harea, im, e, him, htable⟩ := lateMarked_img
  have ha : (lateMarked.cell 0).tableAt 0 + 256 * 0 + 128 = 0x1000000 + 2097152 + 28049408 + 119104 + 128 := by
    unfold Cell.tableAt
    rw [harea]
  obtain ⟨-, -, hcfg, hquiet⟩ := lateLogged_frame
  have hmarked : lateMarked.cfg = {} ∧ lateMarked.rst.quiet = [] := ⟨hcfg, hquiet⟩
  unfold State.imgTable
  rw [him]
  dsimp only
  rw [htable, List.zipIdx_singleton, List.foldl_cons, List.foldl_nil]
  dsimp only
  rw [ha]
  generalize hu : (lateMarked.touchPhys (0x1000000 + 2097152 + 28049408 + 119104 + 128 - 40) 8 true).hbmWrite
    (0x1000000 + 2097152 + 28049408 + 119104 + 128 - 40) (leBytes 8 e.cursorNow) false = u
  have hmedia : Media lateMarked u := hu ▸ (lateMarked.touchPhys_media _ _ _).trans (State.hbmWrite_media _ _ _ _)
  have hucfg : u.cfg = {} := hmedia.cfg.trans hmarked.1
  have huquiet : u.rst.quiet = [] := (congrArg Rst.quiet hmedia.rst).trans hmarked.2
  refine ⟨(u.cfg.stackOf ((0x1000000 + 2097152 + 28049408 + 119104 + 128) / 256 * 256)).1, by rw [hucfg]; decide, ?_⟩
  rw [State.touchPhys_of_line (by decide) (by decide)]
  exact State.touchLine_slice_ne_nil huquiet (by rw [hucfg]; decide) _ _ _ _ _

/-! The standby. -/

/-- A port that is not in OFF goes down. -/
def State.portOff (s : State) (i : Nat) : State := if (s.port i).state = .off then s else s.portDown i 9 false

theorem State.foldl_portOff_of_off {l : List Nat} {s : State} (h : ∀ i ∈ l, (s.port i).state = .off) :
    l.foldl State.portOff s = s := by
  induction l with
  | nil => rfl
  | cons i l ih =>
    rw [List.foldl_cons, State.portOff, if_pos (h i List.mem_cons_self)]
    exact ih fun j hj => h j (List.mem_cons_of_mem _ hj)

/-- Of the ports of the device port 0 alone is not in OFF: its packet is handed back. -/
theorem lateSleeper_ports :
    (List.range 8).foldl State.portOff ((List.range 20).foldl (fun (s : State) p => s.modPlinth p Plinth.asleep) lateSleeper) =
      lateMarked.imgTable 0 0 := by
  have hport (j : Nat) : ((List.range 20).foldl (fun (s : State) p => s.modPlinth p Plinth.asleep) lateSleeper).port j =
      lateSleeper.port j := by
    rw [State.foldl_modPlinth_frame]
    rfl
  have hfirst : State.portOff ((List.range 20).foldl (fun (s : State) p => s.modPlinth p Plinth.asleep) lateSleeper) 0 =
      lateSent.transmit { slot := 1 } none := by
    unfold State.portOff State.portDown State.portLeave
    rw [hport, if_neg (by decide), if_neg Bool.false_ne_true]
    rfl
  have hstate (j : Nat) (hj : j ≠ 0) : ((lateSent.transmit { slot := 1 } none).port j).state = (lateSleeper.port j).state := by
    rw [(lateSent.transmit_sent _ _).state, lateSent, State.modPort_port_ne _ _ _ _ hj, hport]
  rw [show List.range 8 = 0 :: [1, 2, 3, 4, 5, 6, 7] from rfl, List.foldl_cons, hfirst, ← lateSent_transmit]
  refine State.foldl_portOff_of_off fun i hi => ?_
  rw [hstate i (by rintro rfl; simp at hi)]
  exact (by decide : ∀ i ∈ [1, 2, 3, 4, 5, 6, 7], (lateSleeper.port i).state = .off) i hi

theorem lateSleeper_standby : ∃ (t : State) (fs : List EvF), exec .standbyEntered lateSleeper = .next (t.log 0x6102 fs) ∧
    t.plinths = (lateMarked.imgTable 0 0).plinths := by
  have hclose (u : State) (ps : List Nat) : (u.closeAll ps).plinths = u.plinths := by
    obtain ⟨_, _, _, _, _, _, _, h⟩ := u.closeAll_logs ps
    rw [h]
  have hexec : exec .standbyEntered lateSleeper = .next (([0, 1].foldl (fun (s : State) i => s.modEth i Eth.downed)
      (((List.range 8).foldl State.portOff ((List.range 20).foldl (fun (s : State) p => s.modPlinth p Plinth.asleep)
        lateSleeper)).closeAll [0, 1])).inStandby.log 0x6102 [.val 1 0, .val 1 2]) := by
    show execStandbyEntered lateSleeper = _
    unfold execStandbyEntered State.portOff
    exact (if_neg (by decide)).trans (if_neg (by decide))
  have hdowned (u : State) : ([0, 1].foldl (fun (s : State) i => s.modEth i Eth.downed) u).inStandby.plinths = u.plinths := rfl
  rw [lateSleeper_ports] at hexec
  exact ⟨_, _, hexec, (hdowned _).trans (hclose _ _)⟩

/-- Refutes O43: a link port that still holds a packet as the module enters standby hands it back; without a route the operation of the
PREEMPTED cell fails, its entry is written into the context area (R484), and the line stays in the slice: the clause of STANDBY_ENTERED
has every slice empty (R568). -/
theorem not_supplyHotPlugAndPower : ¬ Obligations.SupplyHotPlugAndPower := by
  intro h
  obtain ⟨-, -, -, hpower⟩ := h
  obtain ⟨-, -, hentered, -⟩ := hpower lateSleeper
  obtain ⟨t, old, hexec, -, -, hslices, -⟩ := hentered rfl (by decide)
  obtain ⟨u, fs, hexec', hplinths⟩ := lateSleeper_standby
  obtain ⟨st, hst, hslice⟩ := lateMarked_slice
  have hlogged : (t.log 0x6102 [.val 1 old, .val 1 2]).plinths = (u.log 0x6102 fs).plinths :=
    congrArg State.plinths (Host.Outcome.next.inj (hexec.symm.trans hexec'))
  rw [State.log_plinths, State.log_plinths, hplinths] at hlogged
  refine hslice ?_
  have hempty := (hslices st hst).1
  unfold State.plinth at hempty ⊢
  rw [← hlogged]
  exact hempty

end Sys2Proof.Machine

end

section

/-! PROOFS. Hot islands and the power limit slow their cores (O44). -/

namespace Sys2Proof.Machine

open Sys2Proof Sys2Proof.Claims

/-! Steps that change one core each. -/

/-- The second state differs from the first in its cores alone, and not in which of them are hot. -/
structure SameHeat (s t : State) : Prop where
  cores : CoresOnly s t
  hot : ∀ n, (t.core n).hot = (s.core n).hot

theorem SameHeat.refl (s : State) : SameHeat s s := ⟨.refl s, fun _ => rfl⟩

theorem SameHeat.trans {s t u : State} (h : SameHeat s t) (h' : SameHeat t u) : SameHeat s u :=
  ⟨h.cores.trans h'.cores, fun n => (h'.hot n).trans (h.hot n)⟩

theorem SameHeat.cellOf {s t : State} (h : SameHeat s t) (n : Nat) : t.cellOf n = s.cellOf n := by
  unfold State.cellOf
  simp only [h.cores.cell]

theorem SameHeat.slows {s t : State} (h : SameHeat s t) (n : Nat) : t.slows n = s.slows n := by
  have hpwr : t.pwr = s.pwr := by rw [h.cores]
  unfold State.slows State.islandsOf
  rw [h.cellOf, hpwr]
  simp only [h.hot, h.cores.cell]

theorem SameHeat.parked {s t : State} (h : SameHeat s t) (n : Nat) : t.parked n = s.parked n := by
  unfold State.parked
  rw [h.cellOf]
  simp only [h.cores.cell]

theorem SameHeat.cfg {s t : State} (h : SameHeat s t) : t.cfg = s.cfg := by rw [h.cores]

/-- Steps that change a core each, by what the state says of its heat, change every core of a list once. -/
theorem foldl_heat (step : State → Nat → State) (f : State → Nat → Core → Core)
    (hstep : ∀ s n, SameHeat s (step s n)) (hat : ∀ s n, (step s n).core n = f s n (s.core n))
    (hne : ∀ s n j, j ≠ n → (step s n).core j = s.core j) (hf : ∀ s t, SameHeat s t → f t = f s) (l : List Nat) (hl : l.Nodup)
    (s : State) : SameHeat s (l.foldl step s) ∧ ∀ j, (l.foldl step s).core j = if j ∈ l then f s j (s.core j) else s.core j := by
  induction l generalizing s with
  | nil => exact ⟨.refl s, fun _ => rfl⟩
  | cons n l ih =>
    obtain ⟨hn, hl⟩ := List.nodup_cons.mp hl
    obtain ⟨hheat, hcore⟩ := ih hl (step s n)
    refine ⟨(hstep s n).trans hheat, fun j => ?_⟩
    rw [List.foldl_cons, hcore j, hf s _ (hstep s n)]
    by_cases hj : j = n
    · subst hj
      rw [if_neg hn, hat, if_pos List.mem_cons_self]
    · rw [hne s n j hj]
      simp [hj]

theorem State.modCore_sameHeat (s : State) (n : Nat) {f : Core → Core} (hf : ∀ co, (f co).hot = co.hot) : SameHeat s (s.modCore n f) where
  cores := s.modCore_coresOnly n f
  hot j := by
    by_cases hj : j = n
    · subst hj
      rw [State.modCore_core, hf]
    · rw [State.modCore_core_ne _ _ _ _ hj]

theorem State.reclock_sameHeat (s : State) (n : Nat) : SameHeat s (s.reclock n) := s.modCore_sameHeat n fun _ => rfl

/-! Throttle brought up to date. -/

/-- A core whose THROTTLE is brought up to date. -/
def Core.throttled (co : Core) (b parked debug : Bool) : Core :=
  ({ co with throttle := b, slow := if b then co.slow else 0 }).reclock parked debug

theorem State.rethrottle_frame (s : State) : SameHeat s s.rethrottle ∧
    ∀ j, s.rethrottle.core j = if j ∈ coreIds then (s.core j).throttled (s.slows j) (s.parked j) s.cfg.debug else s.core j := by
  refine foldl_heat _ (fun s n co => co.throttled (s.slows n) (s.parked n) s.cfg.debug) (fun s n => ?_) (fun s n => ?_)
    (fun s n j hj => ?_) (fun s t h => ?_) coreIds List.nodup_range s
  · exact (s.modCore_sameHeat n (f := fun co => { co with throttle := s.slows n, slow := if s.slows n then co.slow else 0 })
      (fun _ => rfl)).trans (State.reclock_sameHeat _ n)
  · unfold State.reclock
    dsimp only
    rw [State.modCore_core, State.modCore_core]
    rfl
  · unfold State.reclock
    dsimp only
    rw [State.modCore_core_ne _ _ _ _ hj, State.modCore_core_ne _ _ _ _ hj]
  · funext n co
    rw [h.slows, h.parked, h.cfg]

theorem rethrottleDoes_holds : rethrottleDoes := by
  intro s n hn
  obtain ⟨hheat, hcore⟩ := s.rethrottle_frame
  refine ⟨?_, fun hs => ?_, fun hs => ?_, hheat.hot n⟩
  · rw [hcore, if_pos hn]; rfl
  · rw [hcore, if_pos hn, hs]; rfl
  · rw [hcore, if_pos hn, hs]; rfl

/-- One millisecond of slowing of a core. -/
def State.slowStep (s : State) (n : Nat) : State :=
  if s.slows n then (s.modCore n (fun co => { co with throttle := true, slow := min co.planFreq.toNat (co.slow + 25) })).reclock n else s

/-- A core after a millisecond of slowing. -/
def Core.slowed (co : Core) (slows parked debug : Bool) : Core :=
  if slows then ({ co with throttle := true, slow := min co.planFreq.toNat (co.slow + 25) }).reclock parked debug else co

theorem State.slowStep_frame (s : State) : SameHeat s (coreIds.foldl State.slowStep s) ∧
    ∀ j, (coreIds.foldl State.slowStep s).core j =
      if j ∈ coreIds then (s.core j).slowed (s.slows j) (s.parked j) s.cfg.debug else s.core j := by
  refine foldl_heat State.slowStep (fun s n co => co.slowed (s.slows n) (s.parked n) s.cfg.debug) (fun s n => ?_) (fun s n => ?_)
    (fun s n j hj => ?_) (fun s t h => ?_) coreIds List.nodup_range s
  · unfold State.slowStep
    split
    · exact (s.modCore_sameHeat n (f := fun co => { co with throttle := true, slow := min co.planFreq.toNat (co.slow + 25) })
        (fun _ => rfl)).trans (State.reclock_sameHeat _ n)
    · exact .refl s
  · unfold State.slowStep Core.slowed State.reclock
    split
    · rw [State.modCore_core, State.modCore_core]
      rfl
    · rfl
  · unfold State.slowStep State.reclock
    split
    · rw [State.modCore_core_ne _ _ _ _ hj, State.modCore_core_ne _ _ _ _ hj]
    · rfl
  · funext n co
    rw [h.slows, h.parked, h.cfg]

theorem throttleStepDoes_holds : throttleStepDoes := by
  intro s
  obtain ⟨hheat, hcore⟩ := s.slowStep_frame
  have hexec : exec .throttleStep s = .next (coreIds.foldl State.slowStep s) := by
    show execThrottleStep s = _
    unfold execThrottleStep State.slowStep
    dsimp only
  refine ⟨_, hexec, fun n hn => ⟨fun hs => ?_, fun hs => ?_⟩, hheat.cores.cells, hheat.cores.hbm, by rw [hheat.cores]⟩
  · rw [hcore, if_pos hn, hs]; rfl
  · rw [hcore, if_pos hn, hs]; rfl

/-! Commands. -/

theorem State.heightenOf_frame (s : State) (n : Nat) : (s.heightenOf n).cores = s.cores ∧
    ∀ k, s.cellOf n = some k → s.heightenOf n = s.startHeighten k 3 := by
  unfold State.heightenOf
  split
  next k hk =>
    refine ⟨?_, fun k' hk' => ?_⟩
    · unfold State.startHeighten
      rw [State.log_cores]
      rfl
    · obtain rfl := Option.some.inj (hk.symm.trans hk')
      rfl
  next hk => exact ⟨rfl, fun k hk' => absurd (hk.symm.trans hk') (by simp)⟩

theorem coreHeatDoes_holds : coreHeatDoes := by
  intro core temp s hoff
  refine ⟨fun htemp hhot => ?_, fun htemp hhot => ?_, fun htemp => ?_, fun htemp => ?_⟩
  · obtain ⟨hheat, -⟩ := (s.modCore core (fun co => co.overheated temp)).rethrottle_frame
    obtain ⟨hcores, hcell⟩ := ((s.modCore core (fun co => co.overheated temp)).rethrottle).heightenOf_frame core
    have hthot (n : Nat) : ((((s.modCore core (fun co => co.overheated temp)).rethrottle).heightenOf core).core n).hot =
        ((s.modCore core (fun co => co.overheated temp)).core n).hot := by
      rw [← hheat.hot n]
      unfold State.core
      rw [hcores]
    refine ⟨_, ?_, ?_, fun n _ hne => ?_, fun k hk => hcell k ((hheat.cellOf core).trans hk)⟩
    · show execCoreOvertemp core temp s = _
      exact if_neg (by simp [hhot, hoff]; omega)
    · rw [hthot, State.modCore_core]; rfl
    · rw [hthot, State.modCore_core_ne _ _ _ _ hne]
  · obtain ⟨hheat, -⟩ := (s.modCore core (fun co => { co with hot := false, temp := temp })).rethrottle_frame
    refine ⟨_, ?_, ?_, fun n _ hne => ?_, hheat.cores.cells, hheat.cores.hbm⟩
    · show execCoreCooldown core temp s = _
      exact if_neg (by simp [hhot]; omega)
    · rw [hheat.hot, State.modCore_core]
    · rw [hheat.hot, State.modCore_core_ne _ _ _ _ hne]
  · exact if_pos (.inl htemp)
  · exact if_pos (.inl htemp)

theorem powerDoes_holds : powerDoes := by
  intro s hoff
  refine ⟨fun w hw ht => ?_, fun w hw => if_pos (.inl hw), fun w hw ht => ?_, fun w hw => if_pos (.inl hw), fun inlet flow h => ?_⟩
  · show execPowerOverLimit w s = _
    exact if_neg (by simp [ht, hoff]; omega)
  · show execPowerThrottleEnd w s = _
    exact if_neg (by simp [ht]; omega)
  · show execCoolantAlarm inlet flow s = _
    exact if_neg (by simp [hoff]; omega)

/-- Settles O44: every step over the cores changes each of them once, by what the state says of its cell's heat. -/
theorem sensorsThrottle : Obligations.SensorsThrottle := ⟨coreHeatDoes_holds, rethrottleDoes_holds, throttleStepDoes_holds, powerDoes_holds⟩

end Sys2Proof.Machine

end

section

/-! PROOFS. Firmware update, the change of owner, and the recovery loader (O45). -/

namespace Sys2Proof.Machine

open Sys2Proof Sys2Proof.Claims

/-! Firmware update. -/

theorem firmwareDoes_holds : firmwareDoes := by
  intro s hup
  refine ⟨fun h => ?_, fun h => if_pos (.inl h), fun h => ⟨fun hok => ?_, fun r hr hbad => ?_⟩, fun h => ?_, fun h => if_pos (.inl h),
    fun h => ⟨?_, ?_⟩⟩
  · show execFwBegin s = _
    exact if_neg (by simp [h, hup])
  · show execFwVerify s = _
    unfold execFwVerify
    exact (if_neg (by simp [h, hup])).trans (if_pos hok)
  · show execFwVerify s = _
    unfold execFwVerify
    dsimp only
    rw [if_neg (by simp [h, hup]), hbad, if_neg hr]
  · show execFwInstall s = _
    exact if_neg (by simp [h, hup])
  · have hexec : exec (.fwInstallDone true) s = .next (({ s with mgmt := { s.mgmt with
        fwState := .installed, image := fwStaged s.mgmt.stageB, imageOk := true } } : State).log 0x7303
          [.val 1 (byteAt (fwStaged s.mgmt.stageB) 6)]) := (if_neg (by simp [h])).trans (if_pos rfl)
    generalize fwStaged s.mgmt.stageB = img at hexec ⊢
    exact ⟨_, hexec, rfl, rfl, rfl, rfl⟩
  · have hexec : exec (.fwInstallDone false) s = .next (({ s with mgmt := { s.mgmt with
        fwState := .failed, fwReason := 6 } } : State).log 0x7302 [.val 1 6]) := (if_neg (by simp [h])).trans (if_neg Bool.false_ne_true)
    exact ⟨_, hexec, rfl, rfl, rfl⟩

theorem bsub_zero_eq_take {b : List Byte} {n : Nat} (h : n ≤ b.length) : bsub b 0 n = b.take n := by
  refine List.ext_getElem (by simp [bsub, h]) fun i hi _ => ?_
  have hib : i < b.length := by
    simp [bsub] at hi
    omega
  simp [bsub, List.getD_eq_getElem?_getD, List.getElem?_eq_getElem hib]

theorem imageChecks_holds : imageChecks := by
  intro img fuse ovr h
  unfold verifyFw at h
  split at h
  · exact absurd h (by decide)
  next hform =>
  split at h
  · exact absurd h (by decide)
  next hsize =>
  split at h
  · exact absurd h (by decide)
  next hsig =>
  split at h
  · exact absurd h (by decide)
  next hhash =>
  split at h
  · exact absurd h (by decide)
  next hsvn =>
  obtain ⟨hlen, hmagic, -, hsvnMax, -, -⟩ : 512 ≤ img.length ∧ bsub img 0 4 = ascii "TFWI" ∧ bfld img 4 2 = 0x0100 ∧ byteAt img 6 ≤ 64 ∧
      byteAt img 7 = 0 ∧ zeroAt img 48 80 = true := by simpa using hform
  refine ⟨(bsub_zero_eq_take (by omega)).symm.trans hmagic, ?_, not_not.mp hhash, hsvnMax, fun hovr => ⟨?_, ?_⟩⟩
  · exact not_not.mp fun hne => hsize (.inr hne)
  · simpa [hovr] using hsig
  · simpa [hovr] using hsvn

/-! The change of owner. -/

theorem owner_of_ownFails {g : Mgmt} (h : ownFails g = none) : bfld (memRead g.ownStage 0 512) 8 8 = g.owner.1 + 1 := by
  by_contra hne
  unfold ownFails at h
  dsimp only at h
  split at h
  · exact absurd h (by simp)
  · split at h
    · exact absurd h (by simp)
    · split at h
      · exact absurd h (by simp)
      · exact absurd h (by simp)

/-- A record with the next OWNER_EPOCH is the one in force once it is written to the other copy. -/
theorem Mgmt.owner_setOwner (g : Mgmt) (hash : List Byte) : (g.setOwner (g.owner.1 + 1) hash).owner = (g.owner.1 + 1, hash) := by
  unfold Mgmt.setOwner Mgmt.owner
  split
  next h =>
    dsimp only
    rw [if_neg (by omega)]
  next h =>
    dsimp only
    rw [if_pos (by omega)]

theorem ownershipDoes_holds : ownershipDoes := by
  intro s hup hfw
  refine ⟨fun off h => ?_, fun h => ?_⟩
  · show execOwnCommit s = _
    unfold execOwnCommit
    rw [if_neg (by simp [hup]), if_neg hfw, h]
  · show ∃ t : State, execOwnCommit s = _ ∧ _
    unfold execOwnCommit
    rw [if_neg (by simp [hup]), if_neg hfw, h]
    dsimp only
    rw [owner_of_ownFails h]
    generalize hashOrNone (bsub (memRead s.mgmt.ownStage 0 512) 16 32) = hash
    generalize hu : s.newOwner (s.mgmt.setOwner (s.mgmt.owner.1 + 1) hash) = u
    generalize (List.map _ (List.filter _ u.hst.sessions)) = ids
    have hclosed : Told u (ids.foldl (fun (s : State) id => s.closeSession id 4) u) := .foldl (fun t id => t.closeSession_logs id 4) ids u
    obtain ⟨_, _, _, _, _, _, _, hclosed⟩ := hclosed
    refine ⟨_, rfl, ?_⟩
    rw [hclosed, ← hu]
    have howner := s.mgmt.owner_setOwner hash
    generalize s.mgmt.setOwner (s.mgmt.owner.1 + 1) hash = g at howner ⊢
    exact ⟨congrArg Prod.fst howner, congrArg Prod.snd howner, rfl, rfl, rfl, rfl⟩

theorem ownershipBusy_holds : ownershipBusy := by
  intro s hup hfw
  exact (if_neg (by simp [hup])).trans (if_pos hfw)

/-! The recovery loader. -/

theorem State.trlp_of_closed {s : State} (h : s.rst.recovery = false ∨ s.rst.stage ≠ 0 ∨ s.pwr.off = true) (seq : BitVec 32)
    (run : State → State) : s.trlp seq run = s := if_pos (by simpa using h)

section
variable {s : State} (hrec : s.rst.recovery = true) (hstage : s.rst.stage = 0) (hoff : s.pwr.off = false)
include hrec hstage hoff

theorem State.trlp_of_kept {seq : BitVec 32} {st : Nat} {p : List Byte} (h : s.mgmt.trlpSeq = some (seq.toNat, (st, p)))
    (run : State → State) : s.trlp seq run = s.emit (.trlp seq.toNat st p) := by
  unfold State.trlp
  rw [if_neg (by simp [hrec, hstage, hoff]), h]
  exact if_pos rfl

theorem State.trlp_of_new {seq : BitVec 32} (h : ∀ x, s.mgmt.trlpSeq = some x → x.1 ≠ seq.toNat) (run : State → State) :
    s.trlp seq run = run s := by
  unfold State.trlp
  rw [if_neg (by simp [hrec, hstage, hoff])]
  split
  next heq => exact if_neg (h _ heq)
  · rfl

end

/-- An image written that the module is to boot, with the boot count at 0 in both places. -/
def State.booted (s : State) (img : List Byte) : State :=
  { s with mgmt := { s.mgmt with image := img, imageOk := true }, rst := { s.rst with bcount := 0, journal := 0 } }

theorem State.startModule_booted (s : State) (img : List Byte) (hfw : s.mgmt.fwState ≠ .installing) :
    let t := (s.booted img).startModule 7
    t.rst.cause = causeWith s 7 ∧ t.rst.stage = 1 ∧ t.rst.bcount = 0 ∧ t.rst.journal = 0 ∧ t.mgmt.image = img ∧ t.mgmt.imageOk = true := by
  obtain ⟨hcause, hstage, -, -⟩ := (s.booted img).startModule_frame 7
  obtain ⟨_, _, _, _, _, _, _, hlog⟩ := (s.booted img).closeAll_logs [0, 1, 2]
  have hrst : ((s.booted img).closeAll [0, 1, 2]).rst = (s.booted img).rst := by rw [hlog]
  have himage : ((s.booted img).closeAll [0, 1, 2]).mgmt.image = img := by rw [hlog]; rfl
  have hgood : (((s.booted img).closeAll [0, 1, 2]).mgmt.imageOk && ((s.booted img).closeAll [0, 1, 2]).mgmt.fwState != .installing) = true := by
    rw [hlog]
    simpa [State.booted] using hfw
  exact ⟨hcause, hstage, (congrArg Rst.bcount hrst :), (congrArg Rst.journal hrst :), himage, hgood⟩

theorem loaderDoes_holds : loaderDoes := by
  intro seq s
  refine ⟨fun h => ?_, fun hrec hstage hoff => ⟨fun st p h => ?_, fun h => ?_⟩, fun hrec hstage hip => if_pos ⟨hrec, hstage, hip⟩⟩
  · have hclosed (run : State → State) : Host.Outcome.next (s.trlp seq run) = (.next s : Res) :=
      congrArg Host.Outcome.next (State.trlp_of_closed h seq run)
    exact ⟨hclosed _, hclosed _, hclosed _, fun _ _ => hclosed _, fun _ => hclosed _⟩
  · have hkept (run : State → State) : Host.Outcome.next (s.trlp seq run) = (.next (s.emit (.trlp seq.toNat st p)) : Res) :=
      congrArg Host.Outcome.next (State.trlp_of_kept hrec hstage hoff h run)
    exact ⟨hkept _, hkept _, hkept _, fun _ _ => hkept _, fun _ => hkept _⟩
  · have hnew (run : State → State) : Host.Outcome.next (s.trlp seq run) = (.next (run s) : Res) :=
      congrArg Host.Outcome.next (State.trlp_of_new hrec hstage hoff h run)
    refine ⟨⟨_, hnew _⟩, ⟨_, hnew _⟩, fun o d ho hpos hmax hfit => ?_, fun hfw hok => ?_, fun r hr hbad => ?_, fun hash hlen hown => ?_,
      fun hash hbad => ?_⟩
    · exact (hnew _).trans (congrArg Host.Outcome.next (if_neg (by omega)))
    · have hexec : exec (.trlpCommit seq) s = .next (((s.trlpSend seq 0 []).booted (fwStaged s.mgmt.stageB)).startModule 7) :=
        (hnew _).trans (congrArg Host.Outcome.next (if_neg (not_not.mpr hok)))
      obtain ⟨hcause, hstage', hbcount, hjournal, himage, hgood⟩ := (s.trlpSend seq 0 []).startModule_booted (fwStaged s.mgmt.stageB) hfw
      exact ⟨_, hexec, himage, hgood, hbcount, hjournal, hstage', rfl, hcause⟩
    · refine (hnew _).trans (congrArg Host.Outcome.next ?_)
      dsimp only
      rw [hbad, if_pos hr]
    · have hneg : ¬ (hash.length ≠ 32 ∨ s.mgmt.owner.2 ≠ [] ∧ (!s.rst.ovr) = true) := by
        rcases hown with h | h <;> simp [hlen, h]
      exact ⟨_, _, (hnew _).trans (congrArg Host.Outcome.next (if_neg hneg)), rfl⟩
    · have hpos : hash.length ≠ 32 ∨ s.mgmt.owner.2 ≠ [] ∧ (!s.rst.ovr) = true := by simpa using hbad
      exact ⟨_, _, _, (hnew _).trans (congrArg Host.Outcome.next (if_pos hpos)), by omega, rfl⟩

/-- Settles O45: the update by its states, the owner by the two copies of the record, the loader by the path of its requests. -/
theorem firmwareOwnershipRecovery : Obligations.FirmwareOwnershipRecovery :=
  ⟨firmwareDoes_holds, imageChecks_holds, ownershipDoes_holds, ownershipBusy_holds, loaderDoes_holds⟩

end Sys2Proof.Machine

end

section

/-! PROOFS. Surveys, the suspect state, the copies of the log and the Patina (O46). -/

namespace Sys2Proof.Machine

open Sys2Proof Sys2Proof.Claims

/-! Surveys fall due. -/

theorem coreIds_nodup : coreIds.Nodup := List.nodup_range

theorem State.foldl_modCore_coresOnly (f : Core → Core) (l : List Nat) (s : State) :
    CoresOnly s (l.foldl (fun (s : State) n => s.modCore n f) s) := CoresOnly.foldl (fun s n => s.modCore_coresOnly n f) l s

/-- What setting every core's survey due or not leaves. -/
theorem State.foldl_survDue (s : State) (l : List Nat) (hl : l.Nodup) (b : Bool) :
    ∃ u, l.foldl (fun (s : State) n => s.modCore n (fun co => { co with survDue := b })) s = u ∧ (∀ n ∈ l, (u.core n).survDue = b) ∧
      u.cells = s.cells ∧ u.mgmt = s.mgmt := by
  have hcores := s.foldl_modCore_coresOnly (fun co => { co with survDue := b }) l
  refine ⟨_, rfl, fun n hn => ?_, hcores.cells, by rw [hcores]⟩
  rw [State.foldl_modCore_core (fun _ co => { co with survDue := b }) n l hl, if_pos hn]

theorem State.dueAll_holds (s : State) : (∀ n ∈ coreIds, (s.dueAll.core n).survDue = true) ∧ s.dueAll.mgmt.survOther = otherIslands ∧
    s.dueAll.cells = s.cells := by
  obtain ⟨u, hu, hcore, hcells, -⟩ := s.foldl_survDue coreIds coreIds_nodup true
  have hdue : s.dueAll = { u with mgmt := { u.mgmt with survOther := otherIslands, survCnt := 0, survLow := 255 } } := by
    unfold State.dueAll
    rw [hu]
  rw [hdue]
  exact ⟨hcore, rfl, hcells⟩

theorem State.survPending_eq (s : State) (b : Bool) (h : ∀ n ∈ coreIds, (s.core n).survDue = b) :
    s.survPending = (if b then 48 else 0) + s.mgmt.survOther.length := by
  have hfilter : coreIds.filter (fun n => (s.core n).survDue) = coreIds.filter (fun _ => b) := List.filter_congr h
  unfold State.survPending
  rw [hfilter]
  cases b
  · rw [List.filter_eq_nil_iff.mpr (by simp)]
    simp
  · rw [List.filter_eq_self.mpr (fun _ _ => rfl), if_pos rfl]
    exact congrArg (· + _) List.length_range

theorem surveysFallDue_holds : surveysFallDue := by
  intro s hup
  refine ⟨⟨s.dueAll, congrArg Host.Outcome.next (if_pos hup), congrArg Host.Outcome.next (if_pos hup), ?_⟩, ?_,
    fun i d hi hdue hd => ?_, fun i d hi hdue hd => ?_⟩
  · obtain ⟨hdue, hother, hcells⟩ := s.dueAll_holds
    have hlen : s.dueAll.mgmt.survOther.length = 32 := (congrArg List.length hother).trans rfl
    refine ⟨hdue, hlen, ?_, hcells⟩
    rw [s.dueAll.survPending_eq true hdue, hlen]
    rfl
  · obtain ⟨u, hu, hcore, hcells, -⟩ := s.foldl_survDue coreIds coreIds_nodup false
    have hexec : exec .surveyAbortCmd s = .next { u with mgmt := { u.mgmt with survOther := [] } } := by
      show execSurveyAbortCmd s = _
      unfold execSurveyAbortCmd
      rw [hu]
    exact ⟨_, hexec, State.survPending_eq _ false hcore, hcells⟩
  · show execSurveyOverdue i d s = _
    unfold execSurveyOverdue
    dsimp only
    rw [if_pos hi, hdue, if_neg (by simpa using hd), if_pos hi]
  · show execSurveyOverdue i d s = _
    unfold execSurveyOverdue
    dsimp only
    have hi' : ¬ i < 48 := by omega
    rw [if_neg hi', hdue, if_neg (by simpa using hd), if_neg hi']

/-! What a survey decides. -/

theorem findIdx?_some {α : Type} {p : α → Bool} {l : List α} {i : Nat} (h : findIdx? p l = some i) :
    ∃ hi : i < l.length, p l[i] = true ∧ ∀ j (hj : j < i), p (l[j]'(hj.trans hi)) = false := by
  induction l generalizing i with
  | nil => exact absurd h (by simp [findIdx?])
  | cons x l ih =>
    by_cases hx : p x = true
    · obtain rfl : 0 = i := by simpa [findIdx?, hx] using h
      exact ⟨by simp, hx, fun j hj => absurd hj (by omega)⟩
    · obtain ⟨j, hj, rfl⟩ : ∃ j, findIdx? p l = some j ∧ j + 1 = i := by simpa [findIdx?, hx] using h
      obtain ⟨hlt, hp, hbefore⟩ := ih hj
      refine ⟨by simpa using hlt, hp, fun a ha => ?_⟩
      cases a with
      | zero => simpa using hx
      | succ a => exact hbefore a (by omega)

theorem findIdx?_none {α : Type} {p : α → Bool} {l : List α} (h : findIdx? p l = none) : ∀ x ∈ l, p x = false := by
  induction l with
  | nil => simp
  | cons x l ih =>
    by_cases hx : p x = true
    · exact absurd h (by simp [findIdx?, hx])
    · refine List.forall_mem_cons.mpr ⟨by simpa using hx, ih ?_⟩
      simpa [findIdx?, hx] using h

theorem foldl_max_spec (l : List Nat) (a : Nat) : a ≤ l.foldl max a ∧ (∀ m ∈ l, m ≤ l.foldl max a) ∧ (l.foldl max a = a ∨ l.foldl max a ∈ l) := by
  induction l generalizing a with
  | nil => simp
  | cons x l ih =>
    obtain ⟨hstart, hall, hmem⟩ := ih (max a x)
    refine ⟨by simp only [List.foldl_cons]; omega, List.forall_mem_cons.mpr ⟨by simp only [List.foldl_cons]; omega, hall⟩, ?_⟩
    rcases hmem with h | h
    · rcases Nat.le_total a x with hax | hax
      · exact .inr (by rw [List.foldl_cons, h, Nat.max_eq_right hax]; exact List.mem_cons_self)
      · exact .inl (by rw [List.foldl_cons, h, Nat.max_eq_left hax])
    · exact .inr (List.mem_cons_of_mem x h)

theorem foldl_max_mem {l : List Nat} (h : l ≠ []) : l.foldl max 0 ∈ l := by
  obtain ⟨x, hx⟩ := List.exists_mem_of_ne_nil l h
  obtain ⟨-, hall, hz | hmem⟩ := foldl_max_spec l 0
  · have hx0 : x = 0 := Nat.le_zero.mp (hz ▸ hall x hx)
    rwa [hz, ← hx0]
  · exact hmem

theorem getD_of_lt {l : List Nat} {i : Nat} (h : i < l.length) : l.getD i 0 = l[i] := by simp [h]

theorem survPick_reached {ms : List Nat} (h : ∃ m ∈ ms, 8 ≤ m) :
    (survPick ms).2 = true ∧ (survPick ms).1 < ms.length ∧ 8 ≤ ms.getD (survPick ms).1 0 ∧ ∀ j, j < (survPick ms).1 → ms.getD j 0 < 8 := by
  unfold survPick
  split
  next i hi =>
    obtain ⟨hlt, hp, hbefore⟩ := findIdx?_some hi
    refine ⟨rfl, hlt, ?_, fun j hj => ?_⟩
    · rw [getD_of_lt hlt]
      simpa using hp
    · rw [getD_of_lt (hj.trans hlt)]
      simpa using hbefore j hj
  next hi =>
    obtain ⟨m, hm, h8⟩ := h
    exact absurd (findIdx?_none hi m hm) (by simpa using h8)

theorem survPick_missed {ms : List Nat} (hne : ms ≠ []) (h : ∀ m ∈ ms, m < 8) :
    (survPick ms).2 = false ∧ (survPick ms).1 < ms.length ∧
      (∀ m ∈ ms, m ≤ ms.getD (survPick ms).1 0) ∧ ∀ j, j < (survPick ms).1 → ms.getD j 0 < ms.getD (survPick ms).1 0 := by
  unfold survPick
  split
  next i hi =>
    obtain ⟨hlt, hp, -⟩ := findIdx?_some hi
    have h8 : 8 ≤ ms[i] := by simpa using hp
    exact absurd (h _ (List.getElem_mem hlt)) (by omega)
  next =>
    obtain ⟨-, hall, -⟩ := foldl_max_spec ms 0
    have hmem := foldl_max_mem hne
    dsimp only
    generalize ms.foldl max 0 = best at hall hmem ⊢
    cases hbest : findIdx? (fun m => m == best) ms with
    | none => exact absurd (findIdx?_none hbest best hmem) (by simp)
    | some i =>
      obtain ⟨hlt, hp, hbefore⟩ := findIdx?_some hbest
      have hi : ms[i] = best := by simpa using hp
      refine ⟨rfl, hlt, fun m hm => ?_, fun j hj => ?_⟩
      · rw [Option.getD_some, getD_of_lt hlt, hi]
        exact hall m hm
      · rw [Option.getD_some] at hj ⊢
        rw [getD_of_lt hlt, getD_of_lt (hj.trans hlt), hi]
        exact Nat.lt_of_le_of_ne (hall _ (List.getElem_mem _)) (by simpa using hbefore j hj)

theorem surveyDecides_holds : surveyDecides := by
  intro ms hne
  refine ⟨fun h => ?_, fun h => survPick_missed hne h⟩
  obtain ⟨hok, -, h8, hbefore⟩ := survPick_reached h
  exact ⟨hok, h8, hbefore⟩

theorem survPick_lt {ms : List Nat} (hne : ms ≠ []) : (survPick ms).1 < ms.length := by
  by_cases h : ∃ m ∈ ms, 8 ≤ m
  · exact (survPick_reached h).2.1
  · exact (survPick_missed hne (by simpa using h)).2.1

/-! A survey that ends. -/

theorem State.flashWritten_logs (s : State) (n : Nat) :
    Logs { s with mgmt := { s.mgmt with wornAt := s.mgmt.wornAt + n } } (s.flashWritten n) := by
  unfold State.flashWritten
  dsimp only [List.foldl_cons, List.foldl_nil]
  have hstep (t : State) (p : Prop) [Decidable p] (c : Nat) (f : List EvF) : Logs t (if p then t.log c f else t) := by
    split
    · exact t.log_logs c f
    · exact .refl t
  exact (hstep _ _ _ _).trans (hstep _ _ _ _)

theorem State.patFlush_cores (s : State) (x : Tab Nat) : (s.patFlush x).cores = s.cores := rfl

theorem Logs.cores {s t : State} (h : Logs s t) : t.cores = s.cores := h.media.cores

theorem State.patCommit_cores (s : State) : s.patCommit.cores = s.cores := (State.flashWritten_logs _ _).cores

theorem State.surveyRound_cores (s : State) : s.surveyRound.cores = s.cores := by
  unfold State.surveyRound
  split
  · rfl
  · refine (State.patCommit_cores _).trans ((State.patFlush_cores _ _).trans ?_)
    exact State.log_cores ..

theorem survPoints_ne_nil (f v m : Nat) : survPoints f v m ≠ [] := by simp [survPoints]

/-- The core that a survey leaves where the island was idle. -/
theorem State.surveyIslandDone_core {s : State} {core : Fin 48} (r : SurveyResult) (hup : s.fwUp = true) (hdue : (s.core core).survDue = true)
    (hbar : s.survBar core = none) :
    let co := s.core core
    let pts := survPoints co.planFreq.toNat co.planVolt.toNat co.vmax.toNat
    let ms := (List.range pts.length).map (fun i => r.margins.getD i 0)
    let p := survPick ms
    ∃ t, exec (.surveyIslandDone core r) s = .next t ∧ t.cores = (s.modCore core fun co' => co'.surveyed (s.timeNow.1.toNat % 2 ^ 63) r.ro
      (ms.getD p.1 0) (pts.getD p.1 (co.planFreq.toNat, co.planVolt.toNat)) (decide (p.1 ≠ 0)) p.2).cores := by
  intro co pts ms p
  show ∃ t, execSurveyIslandDone core r s = .next t ∧ _
  unfold execSurveyIslandDone
  dsimp only
  rw [hdue, hup, if_neg (by simp), hbar]
  dsimp only
  refine ⟨_, rfl, (State.surveyRound_cores _).trans ?_⟩
  have hlog (u : State) (q : Prop) [Decidable q] (c : Nat) (f : List EvF) : (if q then u else u.log c f).cores = u.cores := by
    split
    · rfl
    · exact State.log_cores ..
  exact (hlog _ _ _ _).trans (hlog _ _ _ _)

theorem surveyIslandDoes_holds : surveyIslandDoes := by
  intro core r s hup hdue
  refine ⟨fun c hbar => ⟨Config.code (13 + c), ?_⟩, fun hbar => ?_⟩
  · show execSurveyIslandDone core r s = _
    unfold execSurveyIslandDone
    dsimp only
    rw [hdue, hup, if_neg (by simp), hbar]
  · obtain ⟨t, hexec, hcores⟩ := State.surveyIslandDone_core r hup hdue hbar
    intro co pts ms i
    have hlt : i < pts.length := by
      have hlen : ms.length = pts.length := by simp [ms]
      rw [← hlen]
      refine survPick_lt (List.ne_nil_of_length_pos ?_)
      rw [hlen]
      exact List.length_pos_of_ne_nil (survPoints_ne_nil _ _ _)
    have hcore : t.core core = co.surveyed (s.timeNow.1.toNat % 2 ^ 63) r.ro (ms.getD i 0)
        (pts.getD i (co.planFreq.toNat, co.planVolt.toNat)) (decide (i ≠ 0)) (survPick ms).2 := by
      unfold State.core
      rw [hcores]
      exact State.modCore_core ..
    have hothers (n : Nat) (hn : n ≠ core.val) : t.core n = s.core n := by
      unfold State.core
      rw [hcores]
      exact State.modCore_core_ne _ _ _ _ hn
    refine ⟨t, hexec, ?_⟩
    rw [hcore]
    refine ⟨rfl, rfl, fun hi => ?_, fun hi => ?_, rfl, rfl, ?_, fun n hn => by rw [hothers n hn]; exact ⟨rfl, rfl, rfl⟩⟩
    · simp [Core.surveyed, hi, hlt]
    · simp [Core.surveyed, hi]
    · generalize (survPick ms).2 = ok
      by_cases hi : i = 0
      · cases ok <;> simp [Core.surveyed, hi]
      · simp [Core.surveyed, hi]

/-! The suspect state, the log and the Patina. -/

theorem suspectClears_holds : suspectClears := by
  intro mask s
  refine ⟨_, rfl, fun n hn => ?_, (CoresOnly.foldl (fun s n => s.modCore_coresOnly n Core.clearSuspect) _ s).cells⟩
  rw [State.foldl_modCore_core (fun _ => Core.clearSuspect) n _ (coreIds_nodup.filter _) s]
  have hmem : n ∈ coreIds.filter (fun n => mask.getLsbD n) ↔ mask.getLsbD n = true := by
    simp [List.mem_filter, coreIds, hn]
  simp only [hmem]
  cases hbit : mask.getLsbD n
  · simp
  · rw [if_pos rfl]
    exact ⟨by simp [Core.clearSuspect], rfl⟩

theorem tabGet_foldl_tabMod_ne (k : Nat) (key : Nat × Nat → Nat) (f : Nat × Nat → Nat → Nat) (l : List (Nat × Nat)) (hk : ∀ e ∈ l, key e ≠ k) :
    ∀ t : Tab Nat, tabGet 0 (l.foldl (fun (x : Tab Nat) e => tabMod 0 x (key e) (f e)) t) k = tabGet 0 t k := by
  induction l with
  | nil => exact fun _ => rfl
  | cons e l ih =>
    intro t
    obtain ⟨he, hl⟩ := List.forall_mem_cons.mp hk
    rw [List.foldl_cons, ih hl, tabGet_tabMod_ne 0 t _ k _ (Ne.symm he)]

/-- A flush of the hour's counts leaves the total of the hours. -/
theorem State.patFlush_hours (s : State) (x : Tab Nat) : (s.patFlush x).mgmt.tot 0 = s.mgmt.tot 0 :=
  tabGet_foldl_tabMod_ne 0 _ _ _ (fun _ _ => by unfold evTot; omega) _

theorem State.patCommit_frame (s : State) : s.patCommit.mgmt.patSeq = s.mgmt.patSeq + 1 ∧ s.patCommit.mgmt.patCopy = 1 - s.mgmt.patCopy ∧
    s.patCommit.mgmt.patVal = true ∧ s.patCommit.mgmt.tot 0 = s.mgmt.tot 0 ∧ s.patCommit.hbm = s.hbm ∧ s.patCommit.cells = s.cells := by
  unfold State.patCommit
  dsimp only
  generalize s.patSummary = sum
  generalize s.patSections = secs
  obtain ⟨_, _, _, _, _, _, _, h⟩ := State.flashWritten_logs { s with mgmt := { s.mgmt with
    patSeq := s.mgmt.patSeq + 1, patCopy := 1 - s.mgmt.patCopy, patVal := true, patSum := sum, patSecs := secs } } 262144
  rw [h]
  exact ⟨rfl, rfl, rfl, rfl, rfl, rfl⟩

theorem recordsAreKept_holds : recordsAreKept := by
  intro s
  refine ⟨fun hup => ⟨if_neg (show ¬ (!s.fwUp) = true by simp [hup]), rfl, rfl⟩, fun code kind inst w hw => ?_, fun hup => ?_⟩
  · refine ⟨{ s with evt := { s.evt with wins := s.evt.wins.filter fun w => !(w.code == code && w.kind == kind && w.inst == inst) } }, rfl,
      fun x hx ⟨hc, hk, hi⟩ => absurd (List.mem_filter.mp hx).2 (by simp [hc, hk, hi]), fun h0 => ?_, fun h0 => ?_⟩
    · show execSuppressionWindowClose code kind inst s = _
      unfold execSuppressionWindowClose
      dsimp only
      rw [hw]
      exact congrArg Host.Outcome.next (if_pos h0)
    · show execSuppressionWindowClose code kind inst s = _
      unfold execSuppressionWindowClose
      dsimp only
      rw [hw]
      exact congrArg Host.Outcome.next (if_neg h0)
  · show ∃ t, execPatinaWriteTimer s = _ ∧ _
    unfold execPatinaWriteTimer
    dsimp only
    rw [if_neg (by simp [hup])]
    generalize (coreIds ++ otherIslands).foldl _ s.mgmt.survHrs = hrs
    generalize htot : tabMod 0 (tabMod 0 _ 8 _) 9 _ = tot
    have hhours : tabGet 0 tot 0 = s.mgmt.tot 0 + 1 := by
      rw [← htot, tabGet_tabMod_ne _ _ _ _ _ (by decide), tabGet_tabMod_ne _ _ _ _ _ (by decide), tabGet_tabMod_ne _ _ _ _ _ (by decide),
        tabGet_tabMod_ne _ _ _ _ _ (by decide), tabGet_tabMod]
      rfl
    generalize hu : ({ s with free := s.free + 106, mgmt := { s.patSense _ _ with patTot := tot, survHrs := hrs } } : State) = u
    have hcores := u.foldl_modCore_coresOnly (fun co => { co with retry60 := 0 }) coreIds
    generalize coreIds.foldl _ u = v at hcores ⊢
    have hplinths := State.foldl_modPlinth_frame (fun x => { x with hour := if 10000 < x.hour then x.hour else 0 }) (List.range 20) v
    generalize (List.foldl _ v (List.range 20)).plinths = ps at hplinths
    rw [hplinths, hcores]
    generalize ([(0, 1), _, _, _] : Tab Nat) = extra
    obtain ⟨hseq, hcopy, hval, htot0, hhbm, hcells⟩ := (({ u with cores := v.cores, plinths := ps } : State).patFlush extra).patCommit_frame
    refine ⟨_, rfl, hseq.trans ?_, hcopy.trans ?_, hval, htot0.trans ((State.patFlush_hours _ _).trans ?_), hhbm.trans ?_, hcells.trans ?_⟩
    all_goals subst hu
    · rfl
    · rfl
    · exact hhours
    · rfl
    · rfl

/-- Settles O46: surveys by the cores' shares, their decision by the first index found, the records by what a flush leaves. -/
theorem surveysAndRecords : Obligations.SurveysAndRecords :=
  ⟨surveysFallDue_holds, surveyDecides_holds, surveyIslandDoes_holds, suspectClears_holds, recordsAreKept_holds⟩

end Sys2Proof.Machine

end

section

/-! PROOFS. The commands of an armature load (O47), and a load that the failure of its own final response discards (O48). -/

namespace Sys2Proof.Machine

open Sys2Proof Sys2Proof.Claims

/-! The load engine's steps. -/

theorem State.armIdle_arm (s : State) : s.armIdle.arm =
    { s.arm with state := .idle, total := 0, received := 0, mode := 0, cells := 0, epoch := 0, next := none, nextSkip := 0 } := rfl

theorem State.armAbort_frame (s : State) : s.armAbort.arm = s.armIdle.arm ∧ s.armAbort.hbm = (s.dropHbm stagingBase armAreaLen).hbm := by
  unfold State.armAbort State.endApply
  rw [State.holdAll_eq]
  refine ⟨(State.armIdle_arm _).trans ?_, ?_⟩
  · rw [State.log_arm]
    rfl
  · show ((s.log 0x7102 _).dropHbm _ _).hbm = _
    unfold State.dropHbm
    rw [State.log_hbm]

theorem State.armRefuse_eq (s : State) (code : Nat) (fs : List EvF) :
    s.armRefuse code fs = (s.log code fs, some (stRefused, leBytes 2 code ++ fs.flatMap EvF.bytes ++ leBytes 1 s.arm.state.code)) := by
  unfold State.armRefuse State.armAck
  rw [State.log_arm]

/-- A chunk written to the staging area reads back, and without an error of the media no other byte of HBM changes. -/
theorem State.staged_frame (s : State) (a : Nat) (data : List Byte) :
    let t := (s.touchPhys a data.length true).hbmWrite a data false
    t.cores = s.cores ∧ t.hbmRead a data.length = data ∧
      (s.mediaErr = [] → ∀ x, x < a ∨ a + data.length ≤ x → memGet t.hbm x = memGet s.hbm x) := by
  refine ⟨(s.touchPhys_media a data.length true).cores, memRead_memWrite _ _ _, fun hcalm x hx => ?_⟩
  obtain ⟨hhbm, -, -⟩ := s.touchPhys_calm a data.length true hcalm
  exact (memGet_memWrite_out _ _ _ _ (by omega)).trans (by rw [hhbm])

theorem loadCommands_holds : loadCommands := by
  intro c s
  refine ⟨fun total hmin hlen hbusy => ?_, fun total hmin hlen hbusy => ?_, fun off data hpos hmax hst hoff hfit => ?_,
    fun off data hpos hmax hst hoff => ?_, fun mode cells epoch hmode hst hall => ?_, fun mode cells epoch hmode hst hall => ?_,
    fun hst => ?_, fun hst => ?_⟩
  · have hform : (decide (total < 384) || !lengthOk (total - 384)) = false := by simp [hlen, hmin]
    unfold effArmBegin
    dsimp only
    rw [if_neg (by simp [hform]), if_neg (by simp [hbusy])]
    refine ⟨_, rfl, rfl, rfl, rfl, ?_, fun hidle => ?_⟩
    · show (if s.arm.state = .receiving then s.armAbort else s).arm.inForce = _
      split
      · rw [s.armAbort_frame.1]
        rfl
      · rfl
    · rw [if_neg (by simp [hidle])]
  · have hform : (decide (total < 384) || !lengthOk (total - 384)) = false := by simp [hlen, hmin]
    unfold effArmBegin
    dsimp only
    rw [if_neg (by simp [hform]), if_pos hbusy]
  · obtain ⟨hcores, hread, hother⟩ := s.staged_frame (stagingBase + off) data
    unfold effArmData
    dsimp only
    rw [if_neg (by omega), if_neg (by simp [ArmSt.busy, hst]), if_neg (by simp [hst]), if_neg (by simp [hoff]), if_neg (by omega)]
    refine ⟨_, congrArg (fun n => (_, done n)) ?_, rfl, hcores, hread, hother⟩
    show leBytes 1 s.arm.state.code = [1]
    rw [hst]
    rfl
  · unfold effArmData
    dsimp only
    rw [if_neg (by omega), if_neg (by simp [ArmSt.busy, hst]), if_neg (by simp [hst]), if_pos hoff]
  · unfold effArmCommit
    dsimp only
    rw [if_neg (by omega), if_neg (by simp [ArmSt.busy, hst]), if_neg (by simp [hst]), if_neg (by simp [hall])]
    exact ⟨_, rfl, rfl, by simp [BitVec.toNat_ofNat]; omega, rfl, rfl, rfl⟩
  · unfold effArmCommit
    dsimp only
    rw [if_neg (by omega), if_neg (by simp [ArmSt.busy, hst]), if_neg (by simp [hst]), if_pos hall]
  · have hexec : effArmCancel c s = s.armAbort.armAck stDone [] := by
      unfold effArmCancel
      rcases hst with h | h <;> rw [h]
    rw [hexec]
    unfold State.armAck
    obtain ⟨harm, -⟩ := s.armAbort_frame
    rw [harm]
    exact ⟨_, rfl, by rw [harm]; rfl, by rw [harm]; rfl, by rw [harm]; rfl⟩
  · unfold effArmCancel
    rcases hst with h | h <;> rw [h]

theorem loadRefusals_holds : loadRefusals := by
  intro s code fs
  exact ⟨_, (s.armRefuse_eq code fs).trans (by rw [List.append_assoc])⟩

theorem loadTimesOut_holds : loadTimesOut := by
  intro s
  obtain ⟨harm, hhbm⟩ := s.armAbort_frame
  refine ⟨fun h => ⟨congrArg Host.Outcome.next (if_pos h), by rw [harm]; rfl, by rw [harm]; rfl, fun a hlo hhi => ?_⟩,
    fun h => congrArg Host.Outcome.next (if_neg h)⟩
  rw [hhbm]
  refine tabGet_of_keys 0 fun e he hea => ?_
  have hout := (List.mem_filter.mp he).2
  simp [hea] at hout
  omega

/-- Settles O47: the four commands by the branches of their effects, the staging area by what a chunk leaves of HBM. -/
theorem armatureLoads : Obligations.ArmatureLoads := ⟨loadCommands_holds, loadRefusals_holds, loadTimesOut_holds⟩

/-! A commit whose own final response cannot be routed. -/

/-- The section table of an upload of one CHECK section, and the section. -/
def checkSection : List Byte :=
  leBytes 2 0x0103 ++ leBytes 2 0xFFFF ++ leBytes 4 0 ++ leBytes 8 320 ++ leBytes 8 64 ++ List.replicate 104 0

/-- A DELTA of that section over an armature of SERIAL 0, unsigned (R34 to R36). -/
def checkDelta : List Byte :=
  leBytes 4 0x41524D54 ++ leBytes 2 0x0100 ++ leBytes 2 256 ++ leBytes 8 384 ++ ascii "FNT-T48-1440-L" ++ [0, 0] ++ leBytes 2 0x00B0 ++
    leBytes 2 1 ++ leBytes 4 1 ++ leBytes 8 0 ++ sha256 checkSection ++ leBytes 8 1 ++ List.replicate 168 0 ++ checkSection ++
    List.replicate 384 0

/-- A mode-2 load under the override whose final response goes to slot 0, with no route, under the SEQ that an instruction of cell 0
holds outstanding; the cell has no context area. -/
def strandedCommit : State :=
  { ({ rst := { stage := 8, ovr := true }, pwr := { off := false } } : State).hbmWrite stagingBase checkDelta false with
    cells := [(0, { mask := 1 })]
    cores := [(0, { inflight := [{ dests := [(0, 0, 0)] }] })]
    gal := { state := .active, slot := 1 }
    arm := { state := .verifying, total := 768, inForce := some ⟨[], []⟩, mode := 2, reply := [0, 0, 0, 1, 0, 0x22] } }

theorem strandedCommit_passes :
    verifyArm ((strandedCommit.touchPhys stagingBase 768 false).hbmRead stagingBase 768) (some ⟨[], []⟩) [] true 2 0 = 0 := by
  decide +kernel

/-- The response that finds no route faults the cell, whose class C reset discards the PENDING load. -/
theorem strandedCommit_discarded : strandedCommit.verifyDone.arm.state ≠ .pending := by decide +kernel

/-- Refutes O48: the final response of a mode-2 commit is sent once the load is PENDING; where it goes back through the fabric, has no
route, and an instruction holds its flow and SEQ, the cell of that instruction faults, is reset for want of a context area, and the reset
discards the load. -/
theorem not_armatureVerifiesAndApplies : ¬ Obligations.ArmatureVerifiesAndApplies := by
  rintro ⟨hverifies, -⟩
  obtain ⟨-, -, -, -, -, hpending, -⟩ := hverifies strandedCommit rfl
  exact strandedCommit_discarded (hpending strandedCommit_passes (Option.some_ne_none _) rfl (.inl rfl)).1

end Sys2Proof.Machine

end

section

/-! PROOFS. Results of the element-wise group (O50). -/

namespace Sys2Proof.Machine

open Sys2Proof Sys2Proof.Claims

/-! Elements. -/

theorem Xv.nan_ops (b c : Xv) : Xv.nan.add b = .nan ∧ Xv.nan.sub b = .nan ∧ Xv.nan.mul b = .nan ∧ (Xv.nan.mul b).add c = .nan :=
  ⟨rfl, rfl, rfl, rfl⟩

theorem minMax_of_nan (mx : Bool) {a b : Xv} (h : a.isNan = true ∨ b.isNan = true) : minMax mx a b = .nan := if_pos (by simpa using h)

/-- Every arithmetic operation of the group passes a NaN first operand on. -/
theorem arith_nan {opc : Nat} (hlo : 0x40 ≤ opc) (hhi : opc ≤ 0x48) (b c : Xv) : arith opc .nan b c = .nan := by
  obtain ⟨hadd, hsub, hmul, hmac⟩ := Xv.nan_ops b c
  have hminmax (mx : Bool) : minMax mx .nan b = .nan := minMax_of_nan mx (.inl rfl)
  interval_cases opc
  · exact hadd
  · exact hsub
  · exact hmul
  · exact hmac
  · exact hminmax false
  · exact hminmax true
  · rfl
  · rfl
  · rfl

theorem rndTo_nan (bf : Bool) : rndTo bf .nan = (if bf then 0x7FC0 else 0x7FC00000, fNV) := by cases bf <;> rfl

/-- An unmasked element of the arithmetic operations without poison and without flags of its own. -/
theorem elemOut_arith {opc : Nat} (bf : Bool) {pr : Bool × Bool} {a b c : VEl} (hhi : opc ≤ 0x48) (hpr : pr.1 = true) (ha : a.fl = 0)
    (hb : b.fl = 0) (hc : c.fl = 0) (hp : (a.pois || b.pois || c.pois || pr.2) = false) :
    elemOut opc bf pr a b c = (some ((rndTo bf (arith opc a.v b.v c.v)).1, false), (rndTo bf (arith opc a.v b.v c.v)).2) := by
  unfold elemOut
  dsimp only
  rw [if_neg (by omega), if_neg (by simp [hpr]), if_neg (by omega), hp, ha, hb, hc]
  simp

theorem elementResults_holds : elementResults := by
  intro opc bf pr a b c ha hb hc
  refine ⟨fun hopc hpr => ?_, fun hlo hhi hpr hpa hpb hpc hp2 => ?_, fun hopc hp2 => ?_⟩
  · exact (if_neg hopc).trans (if_pos (by simp [hpr]))
  · have hout := elemOut_arith bf hhi hpr ha hb hc (by simp [hpa, hpb, hpc, hp2])
    refine ⟨hout, fun hnan => hout.trans ?_⟩
    rw [hnan, arith_nan hlo hhi, rndTo_nan]
  · subst hopc
    unfold elemOut
    dsimp only
    rw [if_pos rfl, hp2]
    cases pr.1 <;> simp [selCopy]

/-! Comparisons. -/

theorem Xv.lt_antisymm (a b : Xv) : ¬ (a.lt b = true ∧ b.lt a = true) := by
  rintro ⟨h1, h2⟩
  cases a with
  | nan => exact absurd h1 (by simp [Xv.lt])
  | inf n1 =>
    cases b with
    | nan => exact absurd h1 (by simp [Xv.lt])
    | inf n2 =>
      simp [Xv.lt] at h1 h2
      simp [h1] at h2
    | fin n2 m2 e2 =>
      simp [Xv.lt] at h1 h2
      simp [h1] at h2
  | fin n1 m1 e1 =>
    cases b with
    | nan => exact absurd h1 (by simp [Xv.lt])
    | inf n2 =>
      simp [Xv.lt] at h1 h2
      simp [h1] at h2
    | fin n2 m2 e2 =>
      have h1' := of_decide_eq_true h1
      have h2' := of_decide_eq_true h2
      rw [min_comm e2 e1] at h2'
      exact lt_asymm h1' h2'

theorem Xv.lt_zeros (n1 n2 : Bool) (e1 e2 : Int) : (Xv.fin n1 0 e1).lt (.fin n2 0 e2) = false := by
  simp [Xv.lt, alignPair]

theorem Xv.eqv_of_zeros (n1 n2 : Bool) (e1 e2 : Int) : (Xv.fin n1 0 e1).eqv (.fin n2 0 e2) = true := by
  show (!(Xv.fin n1 0 e1).lt (.fin n2 0 e2) && !(Xv.fin n2 0 e2).lt (.fin n1 0 e1)) = true
  rw [Xv.lt_zeros, Xv.lt_zeros]
  rfl

theorem comparisonResults_holds : comparisonResults := by
  refine ⟨fun opc a b h => ⟨if_pos (by simpa using h), minMax_of_nan true h, minMax_of_nan false h⟩,
    fun n1 n2 e1 e2 => ⟨congrArg (·, 0) (Xv.eqv_of_zeros n1 n2 e1 e2), congrArg (·, 0) (Xv.lt_zeros n1 n2 e1 e2)⟩, fun e1 e2 => ?_,
    fun a b ha hb => ?_⟩
  · simp [minMax, Xv.lt_zeros, Xv.isNan, Xv.isZero, Xv.neg]
  · have hcmp (opc : Nat) (x y : Xv) (hx : x.isNan = false) (hy : y.isNan = false) : cmpOp opc x y =
        (match opc with | 0x49 => x.eqv y | 0x4A => x.lt y | _ => x.lt y || x.eqv y, 0) := if_neg (by simp [hx, hy])
    rw [hcmp 0x4B a b ha hb, hcmp 0x4A a b ha hb, hcmp 0x49 a b ha hb, hcmp 0x4A b a hb ha]
    exact ⟨rfl, a.lt_antisymm b⟩

/-- Settles O50: elements by the operation's result under `rndTo`, comparisons by the order of aligned values. -/
theorem elementwiseResults : Obligations.ElementwiseResults := ⟨elementResults_holds, comparisonResults_holds⟩

end Sys2Proof.Machine

end

section

/-! PROOFS. A built line reads back with a right CRC, and what CARVE leaves of its slots (O52). -/

namespace Sys2Proof.Machine

open Sys2Proof Sys2Proof.Claims

/-! The CRC register. -/

theorem crcBits_lt (n : Nat) {c : Nat} (h : c < 2 ^ 32) : crcBits n c < 2 ^ 32 := by
  induction n generalizing c with
  | zero => exact h
  | succ n ih =>
    refine ih ?_
    split
    · exact Nat.xor_lt_two_pow (by omega) (by decide)
    · omega

theorem crc32_lt (b : List Byte) : crc32 b < 2 ^ 32 := by
  have hfold (c : Nat) (h : c < 2 ^ 32) : b.foldl (fun c x => crcBits 8 (Nat.xor c x.toNat)) c < 2 ^ 32 := by
    induction b generalizing c with
    | nil => exact h
    | cons x b ih => exact ih _ (crcBits_lt 8 (Nat.xor_lt_two_pow h (x.isLt.trans (by decide))))
  exact Nat.xor_lt_two_pow (hfold _ (by decide)) (by decide)

/-! The bytes of a built line. -/

section
variable (old : List Byte) (ss : List Slot) (stamp phase count : Nat)

theorem lineBuild_eq : lineBuild old ss stamp phase count =
    leBytes 4 stamp ++ leBytes 4 (crc32 (leBytes 4 stamp ++ (lineTail old (slotAt ss) phase count).take 120)) ++
      lineTail old (slotAt ss) phase count := rfl

theorem length_lineTail (slot : Nat → Slot) : (lineTail old slot phase count).length = 248 := by simp [lineTail, bsub]

theorem lineTail_eq_append (slot : Nat → Slot) :
    ∃ rest, lineTail old slot phase count = bsub old 8 5 ++ leBytes 1 count ++ leBytes 2 phase ++ rest := by
  unfold lineTail
  simp only [List.append_assoc]
  exact ⟨_, rfl⟩

theorem bfld_lineTail_count (slot : Nat → Slot) (h : count < 256) : bfld (lineTail old slot phase count) 5 1 = count := by
  obtain ⟨rest, htail⟩ := lineTail_eq_append old phase count slot
  rw [htail, bfld_append_left (by simp [bsub]), bfld_append_left (by simp [bsub])]
  exact bfld_append_leBytes (by simp [bsub]) h

theorem bfld_lineTail_phase (slot : Nat → Slot) (h : phase < 2 ^ 16) : bfld (lineTail old slot phase count) 6 2 = phase := by
  obtain ⟨rest, htail⟩ := lineTail_eq_append old phase count slot
  rw [htail, bfld_append_left (by simp [bsub])]
  exact bfld_append_leBytes (by simp [bsub]) h

theorem bfld_lineBuild_stamp (h : stamp < 2 ^ 32) : bfld (lineBuild old ss stamp phase count) 0 4 = stamp := by
  rw [lineBuild_eq, bfld_append_left (by simp), bfld_append_left (by simp), bfld_leBytes]
  exact Nat.mod_eq_of_lt h

/-- The CRC in a built line is that of its bytes 0 to 3 and 8 to 127. -/
theorem bfld_lineBuild_crc : bfld (lineBuild old ss stamp phase count) 4 4 = lineCrc (lineBuild old ss stamp phase count) := by
  have hlen := length_lineTail old phase count (slotAt ss)
  unfold lineCrc
  rw [lineBuild_eq]
  generalize lineTail old (slotAt ss) phase count = tail at hlen ⊢
  generalize hcrc : crc32 (leBytes 4 stamp ++ tail.take 120) = crc
  have hstamp : bsub (leBytes 4 stamp ++ leBytes 4 crc ++ tail) 0 4 = leBytes 4 stamp := by
    rw [List.append_assoc]
    exact bsub_append_append (a := []) _ rfl (by simp)
  have htail : bsub (leBytes 4 stamp ++ leBytes 4 crc ++ tail) 8 120 = tail.take 120 := by
    conv_lhs => rw [← List.take_append_drop 120 tail, ← List.append_assoc]
    exact bsub_append_append _ (by simp) (by simp [hlen])
  rw [hstamp, htail, hcrc, bfld_append_left (by simp)]
  exact bfld_append_leBytes (by simp) (hcrc ▸ crc32_lt _)

end

theorem linesReadBack_holds : linesReadBack := by
  intro old ss stamp phase count _ hfit hstamp hphase hcount
  refine ⟨?_, ?_, bfld_lineBuild_crc .., bfld_lineBuild_stamp _ _ _ _ _ hstamp, (bfld_lineBuild _ _ _ _ _ 6 2).trans (bfld_lineTail_phase _ _ _ _ hphase),
    (bfld_lineBuild _ _ _ _ _ 5 1).trans (bfld_lineTail_count _ _ _ _ hcount), lineG_lineBuild .., lineK0_lineBuild ..⟩
  · rw [lineBuild_eq]
    simp [length_lineTail]
  · refine List.ext_getElem (by simp [lineSlots, hfit.1]) fun s hs hs' => ?_
    have hs32 : s < 32 := by simpa [lineSlots] using hs
    simpa [lineSlots, slotAt, hs'] using lineSlot_lineBuild old stamp phase count hfit hs32

theorem carveReleases_holds : carveReleases := by
  intro kext k amin stamp s l _ hskip hs
  obtain ⟨l', drop, hline, hslot, hstat⟩ := carveLine_reads kext k amin stamp hskip
  refine ⟨l', hline, ?_⟩
  rw [hslot s hs, hstat]
  rcases carveSlot_cases l kext drop s with h | ⟨hlive, h⟩ | ⟨hvacant, h⟩ <;> rw [h]
  · exact ⟨fun _ _ => rfl, fun hlive => absurd ((lineStat_vacSlot l kext s).symm.trans hlive) (by decide)⟩
  · exact ⟨fun _ hdead => absurd hlive hdead, fun _ => rfl⟩
  · exact ⟨fun hocc => absurd hvacant hocc, fun hlive => absurd (hvacant.symm.trans hlive) (by decide)⟩

/-- Settles O52: the line by where each of its fields lies, CARVE by what it leaves in each slot. -/
theorem linesReadBack : Obligations.LinesReadBack := ⟨linesReadBack_holds, carveReleases_holds⟩

end Sys2Proof.Machine

end

section

/-! PROOFS. A register write reaches its block, and the bits that ask for a command run it (O57). -/

namespace Sys2Proof.Machine

open Sys2Proof Sys2Proof.Claims

/-! The way of a write to its register. -/

section
variable (s : State) (host : Bool)

theorem exec_registerWrite {s : State} (hup : s.fwUp = true) {a : Nat} (ha : a < 2 ^ 44) (v : BitVec 64) :
    exec (.registerWrite host a v) s = .next (s.regWrite host a v.toNat) :=
  (if_neg (show ¬ 2 ^ 44 ≤ a by omega)).trans (if_neg (show ¬ (!s.fwUp) = true by simp [hup]))

theorem memWindow_csr (o : Nat) : memWindow (regAt o) = false := by
  have hfar : ¬ csrBase + o + 8 ≤ 0x16800000000 := by unfold csrBase; omega
  exact decide_eq_false hfar

theorem aligned_csr {o : Nat} (h8 : o % 8 = 0) : aligned (regAt o) = true := by
  have h : (csrBase + o) % 8 = 0 := by unfold csrBase; omega
  unfold aligned regAt
  rw [h]
  rfl

theorem regAt_mem_window {o : Nat} (ho : o < 0x100000000) : csrBase ≤ regAt o ∧ regAt o < csrBase + 0x100000000 := by
  unfold regAt
  omega

theorem regAt_sub_csrBase (o : Nat) : regAt o - csrBase = o := Nat.add_sub_cancel_left ..

theorem State.regWrite_csr {o : Nat} (ho : o < 0x100000000) (h8 : o % 8 = 0) (v : Nat) :
    s.regWrite host (regAt o) v = s.csrWindowWrite host o v := by
  unfold State.regWrite
  rw [memWindow_csr, if_neg Bool.false_ne_true, if_pos (regAt_mem_window ho), if_pos (aligned_csr h8), regAt_sub_csrBase]

/-- A write to an aligned address of the window is a write of its offset. -/
theorem exec_registerWrite_csr {s : State} (hup : s.fwUp = true) {o : Nat} (ho : o < 0x100000000) (h8 : o % 8 = 0) (v : BitVec 64) :
    exec (.registerWrite host (regAt o) v) s = .next (s.csrWindowWrite host o v.toNat) := by
  have ha : regAt o < 2 ^ 44 := by
    obtain ⟨-, hlt⟩ := regAt_mem_window ho
    exact hlt.trans (by decide)
  rw [exec_registerWrite host hup ha, s.regWrite_csr host ho h8]

theorem State.csrWindowWrite_core {o c r : Nat} (h : o = c * 0x10000 + r) (hc : c < 48) (hr : r < 0x10000) (v : Nat) :
    s.csrWindowWrite host o v = s.coreWrite c r v := by
  have hdiv : o / 0x10000 = c := by omega
  have hmod : o % 0x10000 = r := by omega
  unfold State.csrWindowWrite
  dsimp only
  rw [if_pos (by omega), hdiv, hmod]

/-- What a write does outside the cores' blocks, by the number of its block. -/
def State.blockWrite (s : State) (host : Bool) (o b off v : Nat) : State :=
  match b with
  | 0x10 => s.rstWrite host (csrBase + o) off v
  | 0x11 => s.clkWrite host off v
  | 0x12 => { s with evt := s.evt.write off v }
  | 0x13 => s
  | 0x14 => s.calWrite off v
  | 0x15 => s
  | 0x16 => if h : off / 0x40 < 16 then s.ctxWrite ⟨off / 0x40, h⟩ (off % 0x40) v else s
  | 0x17 => s.expWrite off v
  | 0x18 => s.snpWrite off v
  | 0x19 => { s with gal := s.gal.write off v }
  | 0x1A => if h : off / 0x100 < 8 then s.lnkWrite ⟨off / 0x100, h⟩ (off % 0x100) v else s
  | 0x1B => s
  | 0x1C => s.pwrWrite off v
  | 0x20 | 0x21 | 0x22 | 0x23 => s.mgmtWrite (o - 0x2000000) v
  | _ => s.csrMiss (csrBase + o)

theorem State.csrWindowWrite_block {o b off : Nat} (h : o = b * 0x100000 + off) (hb : 3 ≤ b) (hoff : off < 0x100000) (v : Nat) :
    s.csrWindowWrite host o v = s.blockWrite host o b off v := by
  have hdiv : o / 0x100000 = b := by omega
  have hmod : o % 0x100000 = off := by omega
  unfold State.csrWindowWrite
  dsimp only
  rw [if_neg (by omega), hdiv, hmod]
  rfl

theorem State.csrWindowWrite_ctx {o r : Nat} (k : Fin 16) (h : o = 0x1600000 + r + k * 0x40) (hr : r < 0x40) (v : Nat) :
    s.csrWindowWrite host o v = s.ctxWrite k r v := by
  have hdiv : (r + k * 0x40) / 0x40 = k.val := by omega
  have hmod : (r + k * 0x40) % 0x40 = r := by omega
  have hk : (r + k * 0x40) / 0x40 < 16 := by omega
  rw [s.csrWindowWrite_block host (b := 0x16) (off := r + k * 0x40) (by omega) (by decide) (by omega)]
  have hfin : (⟨(r + k * 0x40) / 0x40, hk⟩ : Fin 16) = k := Fin.ext hdiv
  refine (dif_pos hk).trans ?_
  rw [hfin, hmod]

theorem State.csrWindowWrite_lnk {o : Nat} (p : Fin 8) (h : o = 0x1A00000 + p * 0x100) (v : Nat) :
    s.csrWindowWrite host o v = s.lnkWrite p 0 v := by
  have hdiv : p.val * 0x100 / 0x100 = p.val := by omega
  have hmod : p.val * 0x100 % 0x100 = 0 := by omega
  have hp : p.val * 0x100 / 0x100 < 8 := by omega
  rw [s.csrWindowWrite_block host (b := 0x1A) (off := p * 0x100) (by omega) (by decide) (by omega)]
  have hfin : (⟨p.val * 0x100 / 0x100, hp⟩ : Fin 8) = p := Fin.ext hdiv
  refine (dif_pos hp).trans ?_
  rw [hfin, hmod]

end

/-! A command that a written bit asks for. -/

theorem State.next_run (c : Instr) (s : State) : (.next (s.run (exec c)) : Res) = exec c s := by
  obtain ⟨t, h⟩ := exec_answers c s
  unfold State.run
  rw [h]

theorem State.onBit_of_set {v i : Nat} (h : bit v i = true) (s : State) (f : State → Res) : s.onBit v i f = s.run f := if_pos h

theorem State.onBit_of_clear {v i : Nat} (h : bit v i = false) (s : State) (f : State → Res) : s.onBit v i f = s :=
  if_neg (by simp [h])

theorem State.plinth_regWrite (s : State) (host : Bool) (p : Fin 20) (v : Nat) :
    s.regWrite host (0xD0000000000 + p * 0x10000) v = s.plcWrite p 0 v := by
  have hdiv : (0xD0000000000 + p.val * 0x10000 - 0xD0000000000) / 0x10000 = p.val := by omega
  have hmod : (0xD0000000000 + p.val * 0x10000) % 0x10000 = 0 := by omega
  have hp : (0xD0000000000 + p.val * 0x10000 - 0xD0000000000) / 0x10000 < 20 := by omega
  have hmem : ¬ memWindow (0xD0000000000 + p.val * 0x10000) = true := by
    unfold memWindow
    simp only [decide_eq_true_eq]
    omega
  have haligned : aligned (0xD0000000000 + p.val * 0x10000) = true := by
    unfold aligned
    simp only [beq_iff_eq]
    omega
  have hfin : (⟨(0xD0000000000 + p.val * 0x10000 - 0xD0000000000) / 0x10000, hp⟩ : Fin 20) = p := Fin.ext hdiv
  unfold State.regWrite
  rw [if_neg hmem, if_neg (by unfold csrBase; omega), if_pos (by omega), dif_pos hp, if_pos haligned, hfin, hmod]

theorem State.calWrite_suspect (s : State) (v : Nat) : s.calWrite 0 v = s.run (execCalSuspectClear (BitVec.ofNat 48 v)) := if_pos rfl

theorem State.expWrite_ctrl (s : State) (v : Nat) : s.expWrite 0 v = (s.onBit v 0 execExpDropRecord).run (execExpPause (bit v 1)) := if_pos rfl

theorem State.snpWrite_ctrl (s : State) (v : Nat) : s.snpWrite 0x18 v = (s.onBit v 0 execSnpTake).onBit v 1 execSnpAbortup := if_pos rfl

theorem State.pwrWrite_vminclr (s : State) (v : Nat) : s.pwrWrite 0x10 v = s.onBit v 32 execPwrVminclr := rfl

theorem State.mgmtWrite_ctrl (s : State) (v : Nat) :
    s.mgmtWrite 0 v = ((s.onBit v 0 execFwBegin).onBit v 1 execFwVerify).onBit v 2 execFwInstall ∧
    s.mgmtWrite 0x10 v = s.onBit v 0 execOwnCommit ∧
    s.mgmtWrite 0x20 v = (s.onBit v 0 execSurveyStart).onBit v 1 execSurveyAbortCmd := ⟨rfl, rfl, rfl⟩

theorem State.plcWrite_flush (s : State) (p : Fin 20) : s.plcWrite p 0 1 = s.run (execPlcFlush p) := by
  unfold State.plcWrite
  dsimp only
  rw [if_pos rfl, if_neg (by simp [bit]), State.onBit_of_set (by decide)]

/-- The state that a write to a register of the table leaves. -/
theorem asks_runs {host : Bool} {a : Nat} {v : BitVec 64} {c : Instr} (s : State) (h : Asks a v c) :
    s.regWrite host a v.toNat = s.run (exec c) := by
  cases h with
  | xlInval c =>
    rw [s.regWrite_csr host (by omega) (by omega), s.csrWindowWrite_core host rfl c.isLt (by decide)]
    refine (dif_pos c.isLt).trans ?_
    exact State.onBit_of_set (by decide) s _
  | blockReset b =>
    have hv : (BitVec.ofNat 64 (b.toNat + 256)).toNat = b.toNat + 256 := Nat.mod_eq_of_lt (by omega)
    have hset : bit (b.toNat + 256) 8 = true := decide_eq_true (by omega)
    have hb : BitVec.ofNat 8 (b.toNat + 256) = b := BitVec.eq_of_toNat_eq (by rw [BitVec.toNat_ofNat]; omega)
    rw [s.regWrite_csr host (by decide) (by decide), s.csrWindowWrite_block host (b := 0x10) (off := 8) rfl (by decide) (by decide), hv]
    refine (State.onBit_of_set hset s _).trans ?_
    rw [hb]
    rfl
  | suspect m =>
    have hv : (m.setWidth 64).toNat = m.toNat := BitVec.toNat_setWidth_of_le (by decide)
    rw [s.regWrite_csr host (by decide) (by decide), s.csrWindowWrite_block host (b := 0x14) (off := 0) rfl (by decide) (by decide), hv]
    refine (s.calWrite_suspect _).trans ?_
    rw [BitVec.ofNat_toNat, BitVec.setWidth_eq]
    rfl
  | preempt k =>
    rw [s.regWrite_csr host (by omega) (by omega), s.csrWindowWrite_ctx host k (r := 8) rfl (by decide)]
    exact (State.onBit_of_clear (by decide) _ _).trans (State.onBit_of_set (by decide) s _)
  | resume k =>
    rw [s.regWrite_csr host (by omega) (by omega), s.csrWindowWrite_ctx host k (r := 8) rfl (by decide)]
    refine (State.onBit_of_set (by decide) _ _).trans ?_
    rw [State.onBit_of_clear (by decide)]
    rfl
  | giveup k =>
    rw [s.regWrite_csr host (by omega) (by omega), s.csrWindowWrite_ctx host k (r := 0x20) rfl (by decide)]
    refine (State.onBit_of_set (by decide) _ _).trans ?_
    rw [State.onBit_of_clear (by decide), if_neg (by decide)]
    rfl
  | pause =>
    rw [s.regWrite_csr host (by decide) (by decide), s.csrWindowWrite_block host (b := 0x17) (off := 0) rfl (by decide) (by decide)]
    refine (s.expWrite_ctrl _).trans ?_
    rw [State.onBit_of_clear (by decide)]
    rfl
  | unpause =>
    rw [s.regWrite_csr host (by decide) (by decide), s.csrWindowWrite_block host (b := 0x17) (off := 0) rfl (by decide) (by decide)]
    refine (s.expWrite_ctrl _).trans ?_
    rw [State.onBit_of_clear (by decide)]
    rfl
  | take =>
    rw [s.regWrite_csr host (by decide) (by decide), s.csrWindowWrite_block host (b := 0x18) (off := 0x18) rfl (by decide) (by decide)]
    refine (s.snpWrite_ctrl _).trans ?_
    refine (State.onBit_of_clear (by decide) _ _).trans ?_
    exact State.onBit_of_set (by decide) s _
  | abortup =>
    rw [s.regWrite_csr host (by decide) (by decide), s.csrWindowWrite_block host (b := 0x18) (off := 0x18) rfl (by decide) (by decide)]
    refine (s.snpWrite_ctrl _).trans ?_
    refine (State.onBit_of_set (by decide) _ _).trans ?_
    rw [State.onBit_of_clear (by decide)]
    rfl
  | retrain p =>
    rw [s.regWrite_csr host (by omega) (by omega), s.csrWindowWrite_lnk host p rfl]
    refine (if_pos rfl).trans ?_
    refine (State.onBit_of_clear (by decide) _ _).trans ?_
    refine (State.onBit_of_clear (by decide) _ _).trans ?_
    refine (State.onBit_of_clear (by decide) _ _).trans ?_
    exact State.onBit_of_set (by decide) s _
  | drain p =>
    rw [s.regWrite_csr host (by omega) (by omega), s.csrWindowWrite_lnk host p rfl]
    refine (if_pos rfl).trans ?_
    refine (State.onBit_of_clear (by decide) _ _).trans ?_
    refine (State.onBit_of_clear (by decide) _ _).trans ?_
    refine (State.onBit_of_set (by decide) _ _).trans ?_
    rw [State.onBit_of_clear (by decide)]
    rfl
  | unquar p =>
    rw [s.regWrite_csr host (by omega) (by omega), s.csrWindowWrite_lnk host p rfl]
    refine (if_pos rfl).trans ?_
    refine (State.onBit_of_clear (by decide) _ _).trans ?_
    refine (State.onBit_of_set (by decide) _ _).trans ?_
    rw [State.onBit_of_clear (by decide), State.onBit_of_clear (by decide)]
    rfl
  | quar p =>
    rw [s.regWrite_csr host (by omega) (by omega), s.csrWindowWrite_lnk host p rfl]
    refine (if_pos rfl).trans ?_
    refine (State.onBit_of_set (by decide) _ _).trans ?_
    rw [State.onBit_of_clear (by decide), State.onBit_of_clear (by decide), State.onBit_of_clear (by decide)]
    rfl
  | active =>
    rw [s.regWrite_csr host (by decide) (by decide), s.csrWindowWrite_block host (b := 0x1C) (off := 8) rfl (by decide) (by decide)]
    rfl
  | standby =>
    rw [s.regWrite_csr host (by decide) (by decide), s.csrWindowWrite_block host (b := 0x1C) (off := 8) rfl (by decide) (by decide)]
    rfl
  | vminclr =>
    rw [s.regWrite_csr host (by decide) (by decide), s.csrWindowWrite_block host (b := 0x1C) (off := 0x10) rfl (by decide) (by decide)]
    exact (s.pwrWrite_vminclr _).trans (State.onBit_of_set (by decide) s _)
  | fwBegin =>
    rw [s.regWrite_csr host (by decide) (by decide), s.csrWindowWrite_block host (b := 0x20) (off := 0) rfl (by decide) (by decide)]
    refine (s.mgmtWrite_ctrl _).1.trans ?_
    refine (State.onBit_of_clear (by decide) _ _).trans ?_
    refine (State.onBit_of_clear (by decide) _ _).trans ?_
    exact State.onBit_of_set (by decide) s _
  | fwVerify =>
    rw [s.regWrite_csr host (by decide) (by decide), s.csrWindowWrite_block host (b := 0x20) (off := 0) rfl (by decide) (by decide)]
    refine (s.mgmtWrite_ctrl _).1.trans ?_
    refine (State.onBit_of_clear (by decide) _ _).trans ?_
    refine (State.onBit_of_set (by decide) _ _).trans ?_
    rw [State.onBit_of_clear (by decide)]
    rfl
  | fwInstall =>
    rw [s.regWrite_csr host (by decide) (by decide), s.csrWindowWrite_block host (b := 0x20) (off := 0) rfl (by decide) (by decide)]
    refine (s.mgmtWrite_ctrl _).1.trans ?_
    refine (State.onBit_of_set (by decide) _ _).trans ?_
    rw [State.onBit_of_clear (by decide), State.onBit_of_clear (by decide)]
    rfl
  | ownCommit =>
    rw [s.regWrite_csr host (by decide) (by decide), s.csrWindowWrite_block host (b := 0x20) (off := 0x10) rfl (by decide) (by decide)]
    refine (s.mgmtWrite_ctrl _).2.1.trans ?_
    exact State.onBit_of_set (by decide) s _
  | survey =>
    rw [s.regWrite_csr host (by decide) (by decide), s.csrWindowWrite_block host (b := 0x20) (off := 0x20) rfl (by decide) (by decide)]
    refine (s.mgmtWrite_ctrl _).2.2.trans ?_
    refine (State.onBit_of_clear (by decide) _ _).trans ?_
    exact State.onBit_of_set (by decide) s _
  | surveyAbort =>
    rw [s.regWrite_csr host (by decide) (by decide), s.csrWindowWrite_block host (b := 0x20) (off := 0x20) rfl (by decide) (by decide)]
    refine (s.mgmtWrite_ctrl _).2.2.trans ?_
    refine (State.onBit_of_set (by decide) _ _).trans ?_
    rw [State.onBit_of_clear (by decide)]
    rfl
  | flush p => exact (s.plinth_regWrite host p _).trans (s.plcWrite_flush p)

theorem regAt_lt {o : Nat} (ho : o < 0x100000000) : regAt o < 2 ^ 44 := by
  obtain ⟨-, hlt⟩ := regAt_mem_window ho
  exact hlt.trans (by decide)

theorem asks_addr_lt {a : Nat} {v : BitVec 64} {c : Instr} (h : Asks a v c) : a < 2 ^ 44 := by
  cases h with
  | flush p => omega
  | _ => exact regAt_lt (by omega)

theorem controlRegisters_holds : controlRegisters := by
  intro host a v c s hup h
  rw [exec_registerWrite host hup (asks_addr_lt h), asks_runs s h, State.next_run]

theorem retryRegister_holds : retryRegister := by
  intro host k s hup
  refine ⟨Config.draw s.free % 2 ^ 32, ?_⟩
  rw [exec_registerWrite host hup (regAt_lt (by omega)), s.regWrite_csr host (by omega) (by omega),
    s.csrWindowWrite_ctx host k (r := 0x20) rfl (by decide)]
  refine Eq.trans (congrArg Host.Outcome.next ?_) (State.next_run (.fltRetry k (Config.draw s.free % 2 ^ 32)) _)
  refine (State.onBit_of_clear (by decide) _ _).trans ((State.onBit_of_set (by decide) _ _).trans ?_)
  rw [if_pos (by decide)]
  rfl

/-- Settles O57: each register of the table lies in its block, where the bit written runs the command. -/
theorem controlRegistersCommand : Obligations.ControlRegistersCommand := ⟨controlRegisters_holds, retryRegister_holds⟩

end Sys2Proof.Machine

end

section

/-! PROOFS. Register writes that set or clear fields, and addresses without such a field (O58). -/

namespace Sys2Proof.Machine

open Sys2Proof Sys2Proof.Claims

theorem ofNat_toNat_setWidth {n : Nat} (m : Nat) (v : BitVec n) : BitVec.ofNat m v.toNat = v.setWidth m := BitVec.ofNat_toNat m v

theorem bit_toNat (v : BitVec 64) (i : Nat) : bit v.toNat i = v.getLsbD i := by
  unfold bit
  rw [BitVec.getLsbD, Nat.testBit_eq_decide_div_mod_eq]

/-! RST. -/

section
variable (s : State) (host : Bool) (a v : Nat)

theorem State.rstWrite_cause : s.rstWrite host a 0 v = { s with rst := { s.rst with cause := s.rst.cause &&& ~~~(BitVec.ofNat 12 v) } } := rfl

theorem State.rstWrite_trip :
    s.rstWrite host a 0x18 v = if bit v 19 then { s with rst := { s.rst with tripPend := false } } else s := rfl

theorem State.rstWrite_backup {i : Nat} (h : i < 16) : s.rstWrite false a (0x100 + 8 * i) v =
    { s with rst := { s.rst with bkup := tabSet 0 s.rst.bkup i (BitVec.ofNat 64 v) } } := by
  have hbk : decide (0x100 ≤ 0x100 + 8 * i ∧ 0x100 + 8 * i < 0x180) = true := decide_eq_true (by omega)
  have hi : (0x100 + 8 * i - 0x100) / 8 = i := by omega
  unfold State.rstWrite
  dsimp only
  rw [hbk, Bool.true_or, if_pos rfl, if_neg Bool.false_ne_true, if_pos rfl, hi]

theorem State.rstRead_backup {i : Nat} (h : i < 16) : (s.rstRead (0x100 + 8 * i)).2 = (tabGet 0 s.rst.bkup i).toNat := by
  have hi : (0x100 + 8 * i - 0x100) / 8 = i := by omega
  unfold State.rstRead
  dsimp only
  rw [if_neg (by omega), if_pos (by omega), hi]

theorem State.rstWrite_kept_back {off : Nat} (h : (0x100 ≤ off ∧ off < 0x180) ∨ (0x10000 ≤ off ∧ off < 0x20000)) :
    s.rstWrite true a off v = s.regAccess a := by
  unfold State.rstWrite
  dsimp only
  rw [if_pos (by simpa using h), if_pos rfl]

end

theorem clearedByOne_holds : clearedByOne := by
  intro host v s hup
  refine ⟨?_, ?_, ?_, fun c => ?_⟩
  · rw [exec_registerWrite_csr host hup (by decide) (by decide),
      s.csrWindowWrite_block host (b := 0x10) (off := 0) rfl (by decide) (by decide), ← ofNat_toNat_setWidth 12 v]
    exact congrArg Host.Outcome.next (s.rstWrite_cause host (csrBase + 0x1000000) v.toNat)
  · rw [exec_registerWrite_csr host hup (by decide) (by decide),
      s.csrWindowWrite_block host (b := 0x12) (off := 0x10) rfl (by decide) (by decide), ← ofNat_toNat_setWidth 5 v]
    exact congrArg (fun e => Host.Outcome.next { s with evt := e }) (if_pos rfl)
  · rw [exec_registerWrite_csr host hup (by decide) (by decide),
      s.csrWindowWrite_block host (b := 0x10) (off := 0x18) rfl (by decide) (by decide)]
    refine congrArg Host.Outcome.next ((s.rstWrite_trip host (csrBase + 0x1000018) v.toNat).trans ?_)
    rw [bit_toNat]
    cases v.getLsbD 19
    · rw [if_neg Bool.false_ne_true, Bool.not_false, Bool.and_true]
    · rw [if_pos rfl, Bool.not_true, Bool.and_false]
  · rw [exec_registerWrite_csr host hup (by omega) (by omega), s.csrWindowWrite_core host rfl c.isLt (by decide), ← ofNat_toNat_setWidth 12 v]
    rfl

theorem writtenRegisters_holds : writtenRegisters := by
  intro v s hup
  refine ⟨fun host => ⟨fun h => ?_, fun h => ?_⟩, fun host k => ⟨fun h => ?_, ?_⟩, fun i hi => ?_, fun i hi => ?_, fun o ho h8 => ?_⟩
  · rw [exec_registerWrite_csr host hup (by decide) (by decide),
      s.csrWindowWrite_block host (b := 0x1C) (off := 0x28) rfl (by decide) (by decide), ← ofNat_toNat_setWidth 32 v]
    exact congrArg Host.Outcome.next (if_pos h)
  · rw [exec_registerWrite_csr host hup (by decide) (by decide),
      s.csrWindowWrite_block host (b := 0x1C) (off := 0x28) rfl (by decide) (by decide)]
    exact congrArg Host.Outcome.next (if_neg (by omega))
  · rw [exec_registerWrite_csr host hup (by omega) (by omega), s.csrWindowWrite_ctx host k (r := 0x18) rfl (by decide),
      ← ofNat_toNat_setWidth 32 v]
    exact congrArg Host.Outcome.next (if_pos h)
  · rw [exec_registerWrite_csr host hup (by omega) (by omega), s.csrWindowWrite_ctx host k (r := 0) rfl (by decide),
      ← ofNat_toNat_setWidth 44 v]
    rfl
  · have hwrite := s.rstWrite_backup (csrBase + (0x1000100 + 8 * i)) v.toNat hi
    refine ⟨{ s with rst := { s.rst with bkup := tabSet 0 s.rst.bkup i (BitVec.ofNat 64 v.toNat) } }, ?_, ?_, fun j hj hji => ?_⟩
    · rw [exec_registerWrite_csr false hup (by omega) (by omega),
        s.csrWindowWrite_block false (b := 0x10) (off := 0x100 + 8 * i) (by omega) (by decide) (by omega)]
      exact congrArg Host.Outcome.next hwrite
    · rw [State.rstRead_backup _ hi, tabGet_tabSet, BitVec.ofNat_toNat, BitVec.setWidth_eq]
    · rw [State.rstRead_backup _ hj, State.rstRead_backup _ hj, tabGet_tabSet_ne _ _ _ _ _ hji]
  · refine ⟨Config.code 8, ?_⟩
    rw [exec_registerWrite_csr true hup (by omega) (by omega),
      s.csrWindowWrite_block true (b := 0x10) (off := 0x100 + 8 * i) (by omega) (by decide) (by omega)]
    exact congrArg Host.Outcome.next (s.rstWrite_kept_back _ v.toNat (.inl (by omega)))
  · refine ⟨Config.code 8, ?_⟩
    rw [exec_registerWrite_csr true hup (by omega) (by omega),
      s.csrWindowWrite_block true (b := 0x10) (off := 0x10000 + o) (by omega) (by decide) (by omega)]
    exact congrArg Host.Outcome.next (s.rstWrite_kept_back _ v.toNat (.inr (by omega)))

/-! Addresses without such a field. -/

theorem State.regRead_csr (s : State) {o : Nat} (ho : o < 0x100000000) (h8 : o % 8 = 0) : s.regRead (regAt o) = s.csrWindowRead o := by
  unfold State.regRead
  rw [memWindow_csr, if_neg Bool.false_ne_true, if_pos (regAt_mem_window ho), if_pos (aligned_csr h8), regAt_sub_csrBase]

/-- Outside every block a read gives all ones and a write is discarded, each with MEM_ADDR. -/
theorem State.csrWindow_miss (s : State) (host : Bool) {o : Nat} (hlo : 0x1D00000 ≤ o) (hhi : o < 0x2000000) (v : Nat) :
    s.csrWindowRead o = (s.csrMiss (csrBase + o), 2 ^ 64 - 1) ∧ s.csrWindowWrite host o v = s.csrMiss (csrBase + o) := by
  obtain h | h | h : o / 0x100000 = 0x1D ∨ o / 0x100000 = 0x1E ∨ o / 0x100000 = 0x1F := by omega
  all_goals
    have hcore : ¬ o < 0x300000 := by omega
    unfold State.csrWindowRead State.csrWindowWrite
    dsimp only
    rw [if_neg hcore, if_neg hcore, h]
    exact ⟨rfl, rfl⟩

theorem State.coreWrite_other (s : State) (c v : Nat) {o : Nat} (h : o = 0x200 ∨ o = 0x208 ∨ o = 0x308 ∨ o = 0x100 ∨ o = 0x400) :
    s.coreWrite c o v = s := by
  rcases h with rfl | rfl | rfl | rfl | rfl <;> rfl

theorem otherAddresses_holds : otherAddresses := by
  intro host v s hup
  refine ⟨fun o ho h8 => ⟨?_, ?_, ?_⟩, fun c o ho => ?_, ⟨?_, ?_, ?_⟩, fun o hlo hhi h8 => ?_⟩
  · rw [exec_registerWrite_csr host hup (by omega) (by omega), s.csrWindowWrite_block host (b := 0x13) (off := o) rfl (by decide) ho]
    rfl
  · rw [exec_registerWrite_csr host hup (by omega) (by omega), s.csrWindowWrite_block host (b := 0x15) (off := o) rfl (by decide) ho]
    rfl
  · rw [exec_registerWrite_csr host hup (by omega) (by omega), s.csrWindowWrite_block host (b := 0x1B) (off := o) rfl (by decide) ho]
    rfl
  · rw [exec_registerWrite_csr host hup (by omega) (by omega), s.csrWindowWrite_core host rfl c.isLt (by omega), s.coreWrite_other c _ ho]
  · exact s.regRead_csr (by decide) (by decide)
  · exact s.regRead_csr (by decide) (by decide)
  · exact s.regRead_csr (by decide) (by decide)
  · obtain ⟨hread, hwrite⟩ := s.csrWindow_miss host hlo hhi v.toNat
    refine ⟨_, _, (s.regRead_csr (by omega) h8).trans hread, ?_⟩
    rw [exec_registerWrite_csr host hup (by omega) h8, hwrite]
    rfl

theorem i2cAnswers_holds : i2cAnswers := by
  intro host v s
  refine ⟨fun a ha hup => ?_, ?_, rfl, rfl, ?_, fun hoff => ⟨?_, ?_⟩⟩
  · exact (if_neg (by omega)).trans (if_pos (by simp [hup]))
  · rw [← ofNat_toNat_setWidth 3 v]
    show execRegisterWrite host (2 ^ 44 + 7) v s = _
    unfold execRegisterWrite
    rw [if_pos (Nat.le_add_right ..)]
    exact congrArg Host.Outcome.next (if_pos (Nat.add_sub_cancel_left ..))
  · exact Nat.mod_add_div _ _
  · exact if_pos hoff
  · exact if_pos hoff

/-- Settles O58: each register by the block that its address reaches, the I2C registers beside them. -/
theorem registerWritesTakeEffect : Obligations.RegisterWritesTakeEffect :=
  ⟨clearedByOne_holds, writtenRegisters_holds, otherAddresses_holds, i2cAnswers_holds⟩

end Sys2Proof.Machine

end

section

/-! PROOFS. The registers right after reset (O59). -/

namespace Sys2Proof.Machine

open Sys2Proof Sys2Proof.Claims

/-- Settles O59: the reset state is one state, read register by register; of the clock, whose count is free, the bit that says it has never
been locked. -/
theorem resetRegisters : Obligations.ResetRegisters := by
  refine ⟨by decide +kernel, by decide +kernel, rfl, ?_⟩
  show ((BitVec.ofBool true) ++ (0 + Config.clockNs 0)).toNat / 2 ^ 63 = 1
  generalize 0 + Config.clockNs 0 = x
  rw [BitVec.toNat_append, ← Nat.shiftLeft_add_eq_or_of_lt x.isLt, Nat.shiftLeft_eq]
  simp only [BitVec.ofBool_true, BitVec.reduceToNat]
  omega

end Sys2Proof.Machine

end

section

/-! PROOFS. The request for stale lines carries two fields (O27). -/

namespace Sys2Proof.Machine

open Sys2Proof Sys2Proof.Claims

/-- A partner whose one mirrored line, line 0 of its own slot's region, is stale. -/
def staleMirror : State := { cfg := { mirrors := [(0, 256, 0, 0, true)] }, exp := { stale := [0] } }

/-- The fields of the requests that a command leaves unacknowledged in flow 0. -/
def fieldsAsked : Res → List (List Nat)
  | .next t => (t.flow 0).unacked.map (fun u => u.1.fields)
  | _ => []

theorem fieldsAsked_staleMirror : fieldsAsked (exec (.mirrorResendRequest 0) staleMirror) = [[0, 1]] := by decide +kernel

/-- Refutes O27: the clause on MIRROR_RESEND_REQUEST sends the line as two fields of 32 bits and the run as a third; the request that the
model sends, as its encoding of RESEND has it, holds two fields, the line of 8 bytes and the run of 4. -/
theorem not_exportEngineActs : ¬ Obligations.ExportEngineActs := by
  rintro ⟨-, -, -, hresend⟩
  obtain ⟨hsent, -⟩ := hresend 0 0 256 0 0 true staleMirror rfl
  have hfields := fieldsAsked_staleMirror
  rw [hsent 0 [] rfl rfl (by decide)] at hfields
  exact absurd hfields (by decide +kernel)

end Sys2Proof.Machine

end

section

/-! PROOFS. Sessions open, are confirmed, time out and close (O35). -/

namespace Sys2Proof.Machine

open Sys2Proof Sys2Proof.Claims

/-- A session as SESSION_OPEN begins it. -/
def Session.fresh (id port : Nat) (owner : Bool) (key secret nonces : List Byte) : Session :=
  { id := id, port := port, owner := owner, key := key, secret := secret, nonces := nonces }

theorem sessionOpenDoes_holds : sessionOpenDoes := by
  intro port no cert nonce s hup
  have hexec : exec (.sessionOpen port no cert nonce) s = execSessionOpen port no cert nonce s := rfl
  unfold execSessionOpen at hexec
  dsimp only at hexec
  rw [if_neg (by simp [hup])] at hexec
  refine ⟨fun h => ?_, fun hn hc hfull => ?_, fun hn hc hroom hrole => ?_, fun owner hn hc hroom hrole => ?_⟩
  · rw [hexec, if_pos h]
    rfl
  · rw [hexec, if_neg (by simp [hn, hc]), if_pos hfull]
    rfl
  · rw [hexec, if_neg (by simp [hn, hc]), if_neg (by omega), hrole]
    rfl
  · rw [hexec, if_neg (by simp [hn, hc]), if_neg (by omega), hrole]
    dsimp only
    generalize nonceBytes (Config.random s.free) = secret
    generalize nonceBytes (Config.random (s.free + 1)) = nd
    generalize Config.oaep (Config.certKey cert) secret = c
    generalize Config.pssSign _ = sign
    refine ⟨_, .fresh s.hst.nextId port owner (sha256 (Config.certKey cert)) secret (nonce ++ nd), nd ++ (c ++ (Config.devCert ++ sign)), ?_,
      rfl, rfl, rfl, rfl, rfl, rfl⟩
    unfold State.sendOpen
    simp only [List.append_assoc]
    rfl

theorem sessionConfirmDoes_holds : sessionConfirmDoes := by
  intro m s ss hss hport
  have hexec : exec (.sessionConfirm m) s = execSessionConfirm m s := rfl
  unfold execSessionConfirm at hexec
  rw [hss] at hexec
  dsimp only at hexec
  rw [if_neg (not_not.mpr hport)] at hexec
  refine ⟨fun hopen hver hep hseq => ?_, fun st p hopen hver hep hseq hep1 hexp hkept => ?_, fun hopen hver => ?_, fun hopen hver => ?_⟩
  · rw [hexec, if_neg (by simp [hver]), if_neg (by simp [hep, hseq]), if_neg (by simp [hopen])]
    rfl
  · have hcond : (ss.epoch == 1 && decide (ss.expect ≤ 64)) = true := by simp [hep1, hexp]
    rw [hexec, if_neg (by simp [hver]), if_neg (by simp [hep, hseq]), if_pos hopen, hcond, hkept]
  · rw [hexec, if_pos (by simp [hver]), if_pos hopen]
  · rw [hexec, if_pos (by simp [hver]), if_neg (by simp [hopen])]

theorem sessionTimeoutsDo_holds : sessionTimeoutsDo := by
  intro id s ss hss
  refine ⟨fun hopen => ?_, fun hopen => ?_⟩
  · show execSessionConfirmTimeout id s = _
    unfold execSessionConfirmTimeout
    rw [hss]
    exact if_neg (by simp [hopen])
  · show execSessionIdleTimeout id s = _
    unfold execSessionIdleTimeout
    rw [hss]
    exact if_pos hopen

/-! A session that closes. -/

theorem Session.note_frame (x : Session) (r : EvRec) :
    (x.note r).id = x.id ∧ (x.note r).expect = x.expect ∧ (x.note r).kept = x.kept ∧ (x.note r).open_ = x.open_ := by
  unfold Session.note
  split
  · exact ⟨rfl, rfl, rfl, rfl⟩
  · split <;> exact ⟨rfl, rfl, rfl, rfl⟩

/-- A record in the log leaves of each session what a notification keeps. -/
theorem State.log_sessions (s : State) (code : Nat) (fs : List EvF) : (s.log code fs).hst.fwds = s.hst.fwds ∧
    ∃ f : Session → Session, (s.log code fs).hst.sessions = s.hst.sessions.map f ∧
      ∀ x, (f x).id = x.id ∧ (f x).expect = x.expect ∧ (f x).kept = x.kept ∧ (f x).open_ = x.open_ := by
  have hid (t : State) (h : t.hst = s.hst) : t.hst.fwds = s.hst.fwds ∧ ∃ f : Session → Session, t.hst.sessions = s.hst.sessions.map f ∧
      ∀ x, (f x).id = x.id ∧ (f x).expect = x.expect ∧ (f x).kept = x.kept ∧ (f x).open_ = x.open_ :=
    ⟨by rw [h], fun x => x, by rw [h, List.map_id'], fun _ => ⟨rfl, rfl, rfl, rfl⟩⟩
  have hnote (t : State) (h : t.hst = s.hst) (c k i l : Nat) (d : List Byte) : (t.logRecord c k i l d).hst.fwds = s.hst.fwds ∧
      ∃ f : Session → Session, (t.logRecord c k i l d).hst.sessions = s.hst.sessions.map f ∧
      ∀ x, (f x).id = x.id ∧ (f x).expect = x.expect ∧ (f x).kept = x.kept ∧ (f x).open_ = x.open_ := by
    unfold State.logRecord State.timeNow
    dsimp only
    generalize EvRec.mk _ _ _ _ _ _ _ _ = r
    obtain ⟨o, q, hn⟩ := ({ t with free := t.free + 1 } : State).notify_eq r
    rw [hn]
    exact ⟨by rw [← h], fun x => x.note r, by rw [← h], fun x => x.note_frame r⟩
  fun_cases State.log
  · refine hnote _ ?_ _ _ _ _ _
    rfl
  · refine hid _ ?_
    rfl
  · refine hnote _ ?_ _ _ _ _ _
    rfl

theorem find?_map_id {f : Session → Session} (hf : ∀ x, (f x).id = x.id) (l : List Session) (j : Nat) :
    (l.map f).find? (fun x => x.id == j) = (l.find? (fun x => x.id == j)).map f := by
  rw [List.find?_map]
  congr 2
  funext x
  simp [hf]

/-- A session taken off a list is found no more. -/
theorem find?_filter_id_self (l : List Session) (id : Nat) : (l.filter (fun x => x.id ≠ id)).find? (fun x => x.id == id) = none := by
  simp [List.find?_eq_none]

/-- The other sessions are found as before. -/
theorem find?_filter_id_ne (l : List Session) {id j : Nat} (h : j ≠ id) :
    (l.filter (fun x => x.id ≠ id)).find? (fun x => x.id == j) = l.find? (fun x => x.id == j) := by
  rw [List.find?_filter]
  congr 1
  funext x
  by_cases hx : x.id = j
  · simp [hx, h]
  · simp [hx]

/-- What a close leaves of the host's part. -/
theorem State.closeSession_sessions {s : State} {id : Nat} {ss : Session} (h : s.session? id = some ss) (cause : Nat) :
    (s.closeSession id cause).hst.fwds = s.hst.fwds.filter (fun f => f.1 ≠ id) ∧
    ∃ f : Session → Session, (s.closeSession id cause).hst.sessions = (s.hst.sessions.filter (fun x => x.id ≠ id)).map f ∧
      ∀ x, (f x).id = x.id ∧ (f x).expect = x.expect ∧ (f x).kept = x.kept ∧ (f x).open_ = x.open_ := by
  unfold State.closeSession
  rw [h]
  dsimp only
  split
  · exact State.log_sessions _ _ _
  · exact ⟨rfl, fun x => x, (List.map_id' _).symm, fun _ => ⟨rfl, rfl, rfl, rfl⟩⟩

theorem closeRemoves_holds : closeRemoves := by
  intro id cause s
  cases hss : s.session? id with
  | none =>
    have hstay : s.closeSession id cause = s := by
      unfold State.closeSession
      rw [hss]
    rw [hstay]
    exact ⟨hss, fun _ _ h => absurd h (by simp), fun j ss _ hj => ⟨ss, hj, rfl, rfl, rfl⟩⟩
  | some ss =>
    obtain ⟨hfwds, f, hsessions, hf⟩ := State.closeSession_sessions hss cause
    have hfind (j : Nat) : (s.closeSession id cause).session? j =
        ((s.hst.sessions.filter (fun x => x.id ≠ id)).find? (fun x => x.id == j)).map f := by
      unfold State.session?
      rw [hsessions, find?_map_id fun x => (hf x).1]
    refine ⟨?_, fun g hg _ => ?_, fun j x hj hx => ?_⟩
    · rw [hfind, find?_filter_id_self]
      rfl
    · rw [hfwds] at hg
      simpa using (List.mem_filter.mp hg).2
    · obtain ⟨-, hexpect, hkept, hopen⟩ := hf x
      refine ⟨f x, ?_, hexpect, hkept, hopen⟩
      rw [hfind, find?_filter_id_ne _ hj]
      exact congrArg (Option.map f) hx

theorem notifyResendDoes_holds : notifyResendDoes := by
  intro id s ss hss hopen hsev
  show execNotifyResendTimer id s = _
  unfold execNotifyResendTimer
  rw [hss]
  dsimp only
  rw [if_neg (by simp [hopen, hsev])]
  rfl

/-- Settles O35: each command by its conditions, a close by what it takes off the list of sessions. -/
theorem sessionsOpenAndClose : Obligations.SessionsOpenAndClose :=
  ⟨sessionOpenDoes_holds, sessionConfirmDoes_holds, sessionTimeoutsDo_holds, closeRemoves_holds, notifyResendDoes_holds⟩

end Sys2Proof.Machine

end

section

/-! PROOFS. Heartbeats, the acting head, and takeovers (O23). -/

namespace Sys2Proof.Machine

open Sys2Proof Sys2Proof.Claims

/-! The states of the gallery engine. -/

/-- Every cell held, or released, as far as the gallery state asks for it (R468). -/
def Holds.underGal (g : GalSt) (h : Holds) : Holds := { h with headless := !(g == .standalone || g == .active) }

theorem State.setGal_eq_holdAll (s : State) (g : GalSt) :
    s.setGal g = State.holdAll { s with gal := { s.gal with state := g } } (Holds.underGal g) := rfl

theorem State.setGal_eq (s : State) (g : GalSt) :
    s.setGal g = { s with gal := { s.gal with state := g }, cells := (s.setGal g).cells } := by
  rw [State.setGal_eq_holdAll]
  exact State.holdAll_eq _ _

theorem State.setGal_cell (s : State) (g : GalSt) {k : Nat} (hk : k < 16) (hex : (s.cell k).exists_ = true) :
    (s.setGal g).cell k = { s.cell k with holds := (s.cell k).holds.underGal g } := by
  rw [State.setGal_eq_holdAll]
  exact State.holdAll_cell _ _ (List.mem_range.mpr hk) hex

theorem Holds.underGal_eq (g : GalSt) (h : Holds) :
    h.underGal g = { h with headless := decide (g ≠ .standalone ∧ g ≠ .active) } := by
  cases g <;> rfl

theorem galState_holds : galStateHolds := by
  intro s g
  refine ⟨by rw [State.setGal_eq], fun k hk hex => ?_, by rw [State.setGal_eq], by rw [State.setGal_eq], by rw [State.setGal_eq]⟩
  rw [State.setGal_cell s g hk hex, Holds.underGal_eq]

theorem headlessFence_does : headlessFenceDoes := fun _ h => if_pos h

theorem headbeatTimeout_does : headbeatTimeoutDoes := fun _ _ hst hhead hrole => if_pos ⟨hst, by rw [hhead]; rfl, hrole⟩

theorem deputyTakeover_does : deputyTakeoverDoes := by
  intro s r hrank hst hrole hlive
  show execDeputyTakeoverTimer s = _
  unfold execDeputyTakeoverTimer
  rw [hrank]
  exact if_pos ⟨hst, hrole, hlive⟩

/-! Heartbeats. -/

theorem hbTimer_does : hbTimerDoes := by
  intro s hst hrole hop hph t
  have hexec : exec .hbTimer s = .next (if t.isHead then sendAll s.gal.fleet.toNat
      ((List.range t.cfg.nslots).filter (fun i => decide (i ≠ s.gal.slot.toNat))) 0x21 [s.gal.slot.toNat] t else t).showLive :=
    if_neg (by rintro (h | h | h | h) <;> [exact hst h; exact hrole h; exact absurd h (by rw [hop]; decide); omega])
  exact ⟨fun h => by rw [hexec, h]; rfl, fun h => by rw [hexec, h]; rfl⟩

theorem exec_hbReceive_of_passes {s : State} {p : Fin 8} {pk : Packet} (h : Passes s p pk 1) (hty : pk.ptype = 0x20)
    (hfl : pk.sfleet = s.gal.fleet.toNat) :
    exec (.hbReceive (some p) pk) s = .next (match s.isHead, s.assigned pk.sslot with
      | true, some h =>
        if h = pk.fields.getD 4 0 then
          { s.freeFlits p pk with gal := { (s.freeFlits p pk).gal with
            hbLeft := tabSet 0 (s.freeFlits p pk).gal.hbLeft pk.sslot (s.freeFlits p pk).cfg.hbmiss } }.showLive
        else (s.freeFlits p pk).sendCtl (pkFrom pk) 0x26 [pk.sslot, pk.sinc]
      | _, _ => { s.freeFlits p pk with gal := { (s.freeFlits p pk).gal with
            hbLeft := tabSet 0 (s.freeFlits p pk).gal.hbLeft pk.sslot (s.freeFlits p pk).cfg.hbmiss } }.showLive) := by
  obtain ⟨hadm, hdinc⟩ := h
  show execHbReceive (some p) pk s = _
  unfold execHbReceive
  rw [State.receiveCtl_of_admitted hadm hty, if_neg (not_not.mpr hdinc)]
  exact congrArg Host.Outcome.next (if_neg (not_not.mpr hfl))

theorem hbReceive_does : hbReceiveDoes := by
  intro p pk s hpass hty hfl s'
  rw [exec_hbReceive_of_passes hpass hty hfl]
  refine ⟨fun h => ?_, fun h hhead has hne => ?_⟩
  · refine congrArg Host.Outcome.next ?_
    obtain h | h | h := h
    · rw [h]
    · rw [h]
      cases s.isHead <;> rfl
    · rw [h]
      cases s.isHead with
      | false => rfl
      | true => exact if_pos rfl
  · rw [hhead, has]
    exact congrArg Host.Outcome.next (if_neg hne)

/-! The head's heartbeats. -/

/-- What a HEADBEAT of the slot `h` leaves (R468). -/
def State.hearsHead (s : State) (h : Nat) : State :=
  match s.gal.state with
  | .headless => ((({ s with free := s.free + 1 }).setGal .active).followHead h).log 0x3308
      [.val 1 ((({ s with free := s.free + 1 }).setGal .active).followHead h).gal.slot.toNat, .val 1 h, .val 4 (Config.draw s.free % 2 ^ 32)]
  | .active =>
    if s.isHead then
      match s.cfg.rankOf h, s.cfg.rankOf s.gal.slot.toNat with
      | some a, some b => if a < b then s.followHead h else s
      | _, _ => s
    else s.followHead h
  | _ => s

theorem exec_headbeatReceive_of_passes {s : State} {p : Fin 8} {pk : Packet} (h : Passes s p pk 1) (hty : pk.ptype = 0x21)
    (hfl : pk.sfleet = s.gal.fleet.toNat) :
    exec (.headbeatReceive (some p) pk) s = .next ((s.freeFlits p pk).hearsHead pk.sslot) := by
  obtain ⟨hadm, hdinc⟩ := h
  show execHeadbeatReceive (some p) pk s = _
  unfold execHeadbeatReceive
  rw [State.receiveCtl_of_admitted hadm hty, if_neg (not_not.mpr hdinc)]
  exact congrArg Host.Outcome.next (if_neg (not_not.mpr hfl))

theorem State.hearsHead_of_active {s : State} (hst : s.gal.state = .active) (h : Nat) :
    s.hearsHead h = if s.isHead then
      match s.cfg.rankOf h, s.cfg.rankOf s.gal.slot.toNat with
      | some a, some b => if a < b then s.followHead h else s
      | _, _ => s
    else s.followHead h := by
  unfold State.hearsHead
  rw [hst]

theorem State.hearsHead_of_headless {s : State} (hst : s.gal.state = .headless) (h : Nat) :
    s.hearsHead h = ((({ s with free := s.free + 1 }).setGal .active).followHead h).log 0x3308
      [.val 1 ((({ s with free := s.free + 1 }).setGal .active).followHead h).gal.slot.toNat, .val 1 h,
        .val 4 (Config.draw s.free % 2 ^ 32)] := by
  unfold State.hearsHead
  rw [hst]

theorem headbeatReceive_does : headbeatReceiveDoes := by
  intro p pk s hpass hty hfl s'
  rw [exec_headbeatReceive_of_passes hpass hty hfl]
  refine ⟨fun hst hhead => ?_, fun a b hst hhead ha hb => ?_, fun hst => ?_⟩
  · rw [State.hearsHead_of_active (s := s.freeFlits p pk) hst, show (s.freeFlits p pk).isHead = false from hhead]
    rfl
  · rw [State.hearsHead_of_active (s := s.freeFlits p pk) hst, show (s.freeFlits p pk).isHead = true from hhead,
      show (s.freeFlits p pk).cfg.rankOf pk.sslot = some a from ha,
      show (s.freeFlits p pk).cfg.rankOf (s.freeFlits p pk).gal.slot.toNat = some b from hb]
    rfl
  · exact congrArg Host.Outcome.next (State.hearsHead_of_headless (s := s.freeFlits p pk) hst _)

/-- Settles O23: each event by its own branch; entering a gallery state is a hold of every cell. -/
theorem headsAndHeartbeats : Obligations.HeadsAndHeartbeats :=
  ⟨galState_holds, hbTimer_does, hbReceive_does, headbeatReceive_does, headbeatTimeout_does, deputyTakeover_does, headlessFence_does⟩

end Sys2Proof.Machine

end

section

/-! PROOFS. Declarations of death, the rendezvous' timeout and its releases (O24). -/

namespace Sys2Proof.Machine

open Sys2Proof Sys2Proof.Claims

/-! Declarations. -/

theorem State.mayDeclare_eq (s : State) :
    (List.range s.cfg.nslots).filter (fun i => !s.liveSlots.contains i && s.mayDeclare i) = toDeclare s := rfl

theorem liveSetCheck_does : liveSetCheckDoes := by
  intro s hhead hst
  have hexec : exec .liveSetCheck s = if s.cfg.nslots ≤ 2 * s.liveSlots.length then
      .next (((((toDeclare s).foldl (fun t i => t.declare s.liveSlots i) s).gal.deaths.filter (fun d => d.waitAck.isEmpty)).foldl
        State.declared ((toDeclare s).foldl (fun t i => t.declare s.liveSlots i) s)).waitOver.showLive)
      else .next s.enterFenced := by
    show execLiveSetCheck s = _
    unfold execLiveSetCheck
    exact if_neg (by simp [hhead, hst])
  exact ⟨fun h => hexec.trans (if_neg (by omega)), fun h => hexec.trans (if_pos h)⟩

theorem nextInc_ne_zero (i : Nat) : nextInc i ≠ 0 := by
  unfold nextInc
  split <;> omega

theorem nextInc_lt {i : Nat} (h : i < 2 ^ 16) : nextInc i < 2 ^ 16 := by
  unfold nextInc
  split <;> omega

theorem Sent.incs {s t : State} (h : Sent s t) : t.gal.incs = s.gal.incs := by rw [h.gal]

theorem State.dropCapture_gal (s : State) : s.dropCapture.gal = s.gal := by
  have h : (s.holdAll (fun h => { h with capture := false })).gal = s.gal := by rw [State.holdAll_eq]
  exact h

theorem State.onDeath_incs (s : State) (flow inc : Nat) :
    (s.onDeath flow inc).gal.incs = tabSet 0 s.gal.incs flow (BitVec.ofNat 16 inc) := by
  unfold State.onDeath
  dsimp only
  have hfaults (u : State) (l : List Nat) :
      ((l.foldl (fun s q => s.remFault flow q 4 0) u).modFlow flow (fun _ => {})).gal.incs = u.gal.incs :=
    ((Sent.foldl (fun (t : State) q => t.remFault_sent flow q 4 0) l u).trans (State.modFlow_sent _ flow (fun _ => {}))).incs
  rw [hfaults]
  have hward (u : State) : (if u.cfg.expPartner = some (flow / 64, flow % 64) then
      { u with exp := { u.exp with ward := true } } else u).gal = u.gal := by split <;> rfl
  rw [hward]
  split
  · rw [State.dropCapture_gal]
  · rfl

theorem declare_moves : declareMovesIncarnation := by
  intro s live slot fl old inc
  have hinc : inc < 2 ^ 16 := nextInc_lt (tabGet 0 s.gal.incs (flowKey fl slot)).isLt
  refine ⟨?_, nextInc_ne_zero old, ?_⟩
  · unfold State.declare
    dsimp only
    rw [State.onDeath_incs, tabGet_tabSet, BitVec.toNat_ofNat]
    exact Nat.mod_eq_of_lt hinc
  · refine ⟨⟨slot, inc, (live.filter (fun i => i ≠ s.gal.slot.toNat)).map (flowKey fl) ++
      (s.cfg.fleets.filter (fun f => f ≠ fl)).map (fun f => 4096 + f), false⟩, ?_, rfl, rfl, fun i hi hne => ?_, fun f hf hne => ?_⟩
    · unfold State.declare
      dsimp only
      rw [(s.log_spares _ _).cfg]
      exact List.mem_append_right _ (List.mem_singleton.mpr rfl)
    · exact List.mem_append_left _ (List.mem_map.mpr ⟨i, List.mem_filter.mpr ⟨hi, by simpa using hne⟩, rfl⟩)
    · exact List.mem_append_right _ (List.mem_map.mpr ⟨f, List.mem_filter.mpr ⟨hf, by simpa using hne⟩, rfl⟩)

/-! DEATH and its acknowledgements. -/

/-- What a DEATH packet that passes leaves (R457, R466, R467). -/
def State.hearsDeath (s : State) (p : Nat) (pk : Packet) : State :=
  let flow := flowKey (pk.fields.getD 0 0) (pk.fields.getD 1 0)
  let inc := pk.fields.getD 2 0
  if flow = s.ownKey then s.ownDeath inc p
  else
    let t := learned s flow inc
    if pk.sfleet ≠ s.gal.fleet.toNat then (if t.isHead then t.relay flow inc (pkFrom pk) else t)
    else t.ackDeath (flowKey s.gal.fleet.toNat t.gal.acthead.toNat) flow t.gal.commitSeen

theorem exec_deathReceive_of_passes {s : State} {p : Fin 8} {pk : Packet} (h : Passes s p pk 1) (hty : pk.ptype = 0x25) :
    exec (.deathReceive (some p) pk) s = .next ((s.freeFlits p pk).hearsDeath p pk) := by
  obtain ⟨hadm, hdinc⟩ := h
  show execDeathReceive (some p) pk s = _
  unfold execDeathReceive
  rw [State.receiveCtl_of_admitted hadm hty, if_neg (not_not.mpr hdinc)]
  exact congrArg Host.Outcome.next rfl

theorem deathReceive_does : deathReceiveDoes := by
  intro p pk s hpass hty s' flow inc t
  rw [exec_deathReceive_of_passes hpass hty]
  refine ⟨fun hown hfl => ?_, fun hown hfl hhead => ?_, fun hown hfl hhead => ?_, fun hown hinc hst => ?_, fun hown h1 h2 => ?_⟩
  · exact congrArg Host.Outcome.next ((if_neg hown).trans (if_neg (not_not.mpr hfl)))
  · exact congrArg Host.Outcome.next ((if_neg hown).trans ((if_pos hfl).trans (if_neg (by rw [show t.isHead = false from hhead]; decide))))
  · exact congrArg Host.Outcome.next ((if_neg hown).trans ((if_pos hfl).trans (if_pos hhead)))
  · refine congrArg Host.Outcome.next ((if_pos hown).trans (if_neg ?_))
    rintro (h | ⟨hme, hnext⟩)
    · exact hst h
    · exact hinc.elim hme hnext
  · exact congrArg Host.Outcome.next ((if_pos hown).trans (if_pos (Or.inr ⟨h1, h2⟩)))

theorem relay_does : relayDoes := by
  intro s flow inc frm own t
  refine ⟨fun h => ?_, fun h => ?_, fun r i hr hi => ?_⟩
  · have hown : s.liveSlots.filter (fun i => i ≠ s.gal.slot.toNat) = [] := h
    unfold State.relay
    dsimp only
    rw [hown]
    rfl
  · exact if_neg (by rw [List.isEmpty_iff]; exact h)
  · unfold State.relayAck
    rw [hr]
    dsimp only
    rw [hi, show [i].filter (fun j => decide (j ≠ i)) = [] by simp]
    rfl

theorem deathAck_does : deathAckDoes := by
  intro slot a s d hhead hd w hw d' t
  show Host.Outcome.next (s.deathAck slot w a.commit) = _
  unfold State.deathAck
  rw [hhead, hd]
  dsimp only
  rw [if_neg (by decide), if_neg (by rw [List.contains_iff_mem.mpr hw]; decide)]
  simp only [List.isEmpty_iff]
  rfl

/-! The rendezvous. -/

theorem rdvTimeout_does : rdvTimeoutDoes := by
  intro name s hhead harr
  exact if_pos (by rw [hhead, Bool.true_and, Bool.not_eq_true', List.isEmpty_eq_false_iff]; exact harr)

theorem State.modImg_spares (s : State) (k l : Nat) (f : Core → Core) : Spares s (s.modImg k l f) := s.modCell_spares k _

theorem State.releaseCell_spares (s : State) (name ep k : Nat) : Spares s (s.releaseCell name ep k) := by
  unfold State.releaseCell
  dsimp only
  refine Spares.trans ?_ (State.modCell_spares _ k _)
  refine (Spares.foldl (fun t n => t.modCore_spares n (fun co => co.rdvDone name ep)) (s.cell k).members s).trans ?_
  split
  · exact .refl _
  · exact .foldl (fun t l => (t.modImg_spares k l _).trans (State.imgTable_media _ k l).spares) _ _

theorem release_advances : releaseAdvancesEpoch := by
  intro s name ep
  refine ⟨fun h => ?_, fun h => if_pos h⟩
  have hrel : s.onRelease name ep = ((((s.rdvCells name).foldl (fun s k => s.releaseCell name ep k) s).modRdv name
      (fun r => { epoch := r.epoch + 1 })).noteRelease name) := if_neg (not_not.mpr h)
  have hgal : ((s.rdvCells name).foldl (fun s k => s.releaseCell name ep k) s).gal = s.gal :=
    (Spares.foldl (fun t k => t.releaseCell_spares name ep k) _ s).gal
  have hat : (s.onRelease name ep).rdvAt name = { epoch := (s.rdvAt name).epoch + 1 } := by
    rw [hrel]
    generalize (s.rdvCells name).foldl (fun s k => s.releaseCell name ep k) s = u at hgal
    unfold State.noteRelease State.modRdv State.rdvAt
    dsimp only
    rw [tabGet_tabMod, hgal]
  rw [hat]
  exact ⟨by rw [h], rfl, rfl⟩

/-- Settles O24: the declarations by the table that `onDeath` writes, the packets and acknowledgements by their branches, and a release by
what it leaves of the rendezvous. -/
theorem deathsAndEpochs : Obligations.DeathsAndEpochs :=
  ⟨liveSetCheck_does, declare_moves, deathReceive_does, relay_does, deathAck_does, rdvTimeout_does, release_advances⟩

end Sys2Proof.Machine

end

section

/-! PROOFS. Fills of a slot, and restores (O26). -/

namespace Sys2Proof.Machine

open Sys2Proof Sys2Proof.Claims

theorem foldl_cells {α : Type} {f : State → α → State} (hf : ∀ s x, (f s x).cells = s.cells) (l : List α) (s : State) :
    (l.foldl f s).cells = s.cells := by
  induction l generalizing s with
  | nil => rfl
  | cons x l ih => exact (ih (f s x)).trans (hf s x)

/-! Fills. -/

theorem fillAttach_does : fillAttachDoes := by
  intro slot s att mir
  let u := if s.isHead && att then s.fillPhase slot .copy else s
  have hexec : exec (.fillAttachDone slot) s = .next (if mir then u.sendMirror slot else u) := rfl
  refine ⟨fun hhead hatt hmir => ?_, fun hhead hatt hmir => ?_, fun hhead hmir => ?_⟩
  · rw [hexec, if_neg (by rw [hmir]; decide), show u = _ from if_pos (by rw [hhead, hatt]; rfl)]
  · rw [hexec, if_pos hmir, show u = _ from if_pos (by rw [hhead, hatt]; rfl)]
  · rw [hexec, if_pos hmir, show u = _ from if_neg (by rw [hhead]; exact Bool.false_ne_true)]

/-- A control packet that finds no way fails no operation of this device: no cell changes. -/
theorem State.unroutable_cells {pk : Packet} (h : pk.cls ≠ 0) (s : State) : (s.unroutable pk).cells = s.cells := by
  have hlog : (s.countNoroute.log 0x3205 [.val 1 pk.fleet, .val 1 pk.slot, .val 4 pk.hops]).cells = s.cells := State.log_cells _ _ _
  unfold State.unroutable
  dsimp only
  rw [if_neg h]
  split
  · exact hlog
  · split
    · split
      next hr => rw [(State.routeSend_pumps hr).eq]; exact hlog
      · exact hlog
    · exact hlog

theorem State.inject_cells {pk : Packet} (h : pk.cls ≠ 0) (s : State) : (s.inject pk).cells = s.cells := by
  unfold State.inject State.transmit
  split
  · split
    next hr => rw [(State.routeSend_pumps hr).eq]
    · exact s.unroutable_cells h
  · rfl

theorem State.tellFill_cells (s : State) (f : Fill) (code : Nat) : (s.tellFill f code).cells = s.cells :=
  foldl_cells (fun s _ => s.inject_cells Nat.one_ne_zero) _ s

theorem State.fillPhase_cells (s : State) (slot : Nat) (p : FillSt) : (s.fillPhase slot p).cells = s.cells :=
  (foldl_cells (fun (s : State) f => s.tellFill_cells f (fillCode p)) (s.snp.fills.filter (fun f => f.slot == slot)) s :)

theorem State.hbmPut_cells (s : State) (a n : Nat) (m : Mem) : (s.hbmPut a n m).cells = s.cells :=
  (s.touchPhys_media a n true).cells

/-- The spare's restore of the data that it was sent: every cell is held, and the ranges of masks are cleared first (R507, R509). -/
def State.fillCheck (s : State) : State :=
  let t := s.holdAll (fun h => { h with restore := true })
  let t := t.cfg.sranges.foldl (fun s r => if r.2.2 = 1 then s.hbmPut r.1 r.2.1 [] else s) t
  { t with snp := { t.snp with recovering := true, state := .restore, restoring := some (3, 0, 0) } }

theorem State.fillCheck_cell {s : State} {k : Nat} (hk : k < 16) (hex : (s.cell k).exists_ = true) :
    (s.fillCheck.cell k).holds.restore = true := by
  have hcells : s.fillCheck.cells = (s.holdAll (fun h => { h with restore := true })).cells :=
    foldl_cells (fun t r => by split; exacts [t.hbmPut_cells _ _ _, rfl]) _ _
  unfold State.cell
  rw [hcells]
  exact congrArg (fun c => c.holds.restore) (State.holdAll_cell s (fun h => { h with restore := true }) (List.mem_range.mpr hk) hex)

theorem exec_fillCopyDone (slot : Fin 64) (stale : Bool) (s : State) :
    let u := if s.isHead && s.snp.fills.any (fun (f : Fill) => f.slot == slot.val && f.phase == .copy) then
        (if stale then (s.log 0x8403 [.val 1 slot.val, .val 1 1]).escalate 3 else s.fillPhase slot.val .check)
      else s
    exec (.fillCopyDone slot stale) s = .next (if s.gal.role = 2 ∧ s.gal.slot.toNat = slot.val ∧ !stale then u.fillCheck else u) := by
  intro u
  show execFillCopyDone slot stale s = _
  unfold execFillCopyDone
  dsimp only
  split <;> rfl

theorem fillCopy_does : fillCopyDoes := by
  intro slot stale s copy me
  have hcopy (h : copy) : (s.isHead && s.snp.fills.any (fun (f : Fill) => f.slot == slot.val && f.phase == .copy)) = true := by
    rw [h.1, h.2]
    rfl
  refine ⟨fun hc hme hst => ?_, fun hc hst => ?_, fun hme hst => ?_⟩
  · rw [exec_fillCopyDone, if_neg (fun h => hme ⟨h.1, h.2.1⟩), if_pos (hcopy hc), if_neg (by rw [hst]; exact Bool.false_ne_true)]
  · rw [exec_fillCopyDone, if_neg (fun h => absurd h.2.2 (by rw [hst]; decide)), if_pos (hcopy hc), if_pos hst]
  · refine ⟨_, (exec_fillCopyDone slot stale s).trans (congrArg Host.Outcome.next (if_pos ⟨hme.1, hme.2, by rw [hst]; rfl⟩)),
      rfl, rfl, rfl, fun k hk hex => State.fillCheck_cell hk ?_⟩
    have hphase : (if stale then (s.log 0x8403 [.val 1 slot.val, .val 1 1]).escalate 3 else s.fillPhase slot.val .check) =
        s.fillPhase slot.val .check := if_neg (by rw [hst]; exact Bool.false_ne_true)
    rw [hphase]
    split
    · unfold State.cell at *
      rwa [State.fillPhase_cells]
    · exact hex

/-! A restore that passes its checks. -/

/-- What a class C reset of another cell leaves of a cell. -/
def Cell.Alike (c d : Cell) : Prop :=
  d.step = c.step ∧ d.tick = c.tick ∧ d.img = c.img ∧ d.holds.restore = c.holds.restore

theorem Cell.Alike.refl (c : Cell) : c.Alike c := ⟨rfl, rfl, rfl, rfl⟩

theorem Cell.Alike.of_eq {c d : Cell} (h : d = c) : c.Alike d := by rw [h]; exact .refl c

theorem Cell.Alike.trans {c d e : Cell} (h : c.Alike d) (h' : d.Alike e) : c.Alike e := by
  obtain ⟨hs, ht, hi, hr⟩ := h
  obtain ⟨hs', ht', hi', hr'⟩ := h'
  exact ⟨hs'.trans hs, ht'.trans ht, hi'.trans hi, hr'.trans hr⟩

theorem State.modCell_alike {f : Cell → Cell} (hf : ∀ c : Cell, c.Alike (f c)) (s : State) (k j : Nat) :
    (s.cell j).Alike ((s.modCell k f).cell j) := by
  by_cases hj : j = k
  · subst hj
    rw [State.modCell_cell]
    exact hf _
  · rw [State.modCell_cell_ne _ _ _ _ hj]
    exact .refl _

theorem State.endApply_alike (s : State) (j : Nat) : (s.cell j).Alike (s.endApply.cell j) := by
  unfold State.endApply State.holdAll
  generalize cellIds.filter (fun k => (s.cell k).exists_) = l
  induction l generalizing s with
  | nil => exact .refl _
  | cons k l ih =>
    exact (State.modCell_alike (f := fun c => { c with holds := { c.holds with apply := false } })
      (fun _ => ⟨rfl, rfl, rfl, rfl⟩) s k j).trans (ih _)

theorem State.dropPending_alike (s : State) (j : Nat) : (s.cell j).Alike (s.dropPending.cell j) := by
  unfold State.dropPending
  dsimp only
  split
  · unfold State.cell
    rw [State.log_cells]
    exact State.endApply_alike { s with arm := { s.arm with state := .idle, next := none } } j
  · exact .refl _

theorem State.resetCell_alike_ne (s : State) {k j : Nat} (hj : j ≠ k) : (s.cell j).Alike ((s.resetCell k).cell j) := by
  rw [State.resetCell_cell_ne _ _ _ hj]
  exact s.dropPending_alike j

/-- A cell right after its class C reset: at tick 0, its step as it was. -/
theorem State.resetCell_tick (s : State) (k : Nat) :
    ((s.resetCell k).cell k).step = (s.cell k).step ∧ ((s.resetCell k).cell k).tick = 0 := by
  rw [State.resetCell_cell]
  exact ⟨(s.dropPending_alike k).1, rfl⟩

theorem State.commandReset_eq (s : State) (k : Nat) : ∃ u : State, u.cells = s.cells ∧
    (s.commandReset k = u.resetCell k ∨ s.commandReset k = (u.resetCell k).modCell k (fun c => { c with img := none })) := by
  unfold State.commandReset
  split
  · refine ⟨(s.setValid k 3).log 0x5303 [.cell k, .val 1 3], ?_, .inr rfl⟩
    rw [State.log_cells]
    exact (s.setValid_media k 3).cells
  · exact ⟨s, rfl, .inl rfl⟩

/-- A cell reset and put where a restore begins (R503). -/
def State.toStart (s : State) (k : Nat) : State := (s.commandReset k).modCell k Cell.restored

/-- A cell at tick 0, held until the fleet resumes, without an image (R503). -/
def Cell.AtStart (c : Cell) : Prop := c.tick = 0 ∧ c.holds.restore = true ∧ c.img = none

theorem State.toStart_cell_ne (s : State) {k j : Nat} (hj : j ≠ k) : (s.cell j).Alike ((s.toStart k).cell j) := by
  obtain ⟨u, hu, h⟩ := s.commandReset_eq k
  have hcell : u.cell j = s.cell j := by unfold State.cell; rw [hu]
  have halike := u.resetCell_alike_ne hj
  rw [hcell] at halike
  unfold State.toStart
  rw [State.modCell_cell_ne _ _ _ _ hj]
  obtain h | h := h
  · rw [h]
    exact halike
  · rw [h, State.modCell_cell_ne _ _ _ _ hj]
    exact halike

theorem State.toStart_cell (s : State) (k : Nat) :
    ((s.toStart k).cell k).step = (s.cell k).step ∧ ((s.toStart k).cell k).AtStart := by
  obtain ⟨u, hu, h⟩ := s.commandReset_eq k
  have hcell : u.cell k = s.cell k := by unfold State.cell; rw [hu]
  obtain ⟨hstep, htick⟩ := u.resetCell_tick k
  rw [hcell] at hstep
  unfold State.toStart
  rw [State.modCell_cell]
  obtain h | h := h
  · rw [h]
    exact ⟨hstep, htick, rfl, rfl⟩
  · rw [h, State.modCell_cell]
    exact ⟨hstep, htick, rfl, rfl⟩

theorem State.toStart_step (s : State) (k j : Nat) : ((s.toStart k).cell j).step = (s.cell j).step := by
  by_cases hj : j = k
  · subst hj
    exact (s.toStart_cell j).1
  · exact (s.toStart_cell_ne hj).1

theorem State.toStart_atStart (s : State) (k j : Nat) (h : (s.cell j).AtStart) : ((s.toStart k).cell j).AtStart := by
  by_cases hj : j = k
  · subst hj
    exact (s.toStart_cell j).2
  · obtain ⟨-, ht, hi, hr⟩ := s.toStart_cell_ne hj
    obtain ⟨htick, hrest, himg⟩ := h
    exact ⟨ht.trans htick, hr.trans hrest, hi.trans himg⟩

theorem State.foldl_toStart (l : List Nat) (j : Nat) (s : State) :
    ((l.foldl State.toStart s).cell j).step = (s.cell j).step ∧
      (j ∈ l ∨ (s.cell j).AtStart → ((l.foldl State.toStart s).cell j).AtStart) := by
  induction l generalizing s with
  | nil => exact ⟨rfl, fun h => h.resolve_left List.not_mem_nil⟩
  | cons k l ih =>
    obtain ⟨hstep, hstart⟩ := ih (s.toStart k)
    refine ⟨hstep.trans (s.toStart_step k j), fun h => hstart ?_⟩
    obtain h | h := h
    · obtain rfl | h := List.mem_cons.mp h
      · exact .inr (s.toStart_cell j).2
      · exact .inl h
    · exact .inr (s.toStart_atStart k j h)

theorem State.setEpochs_cells (s : State) (b : List Byte) : (s.setEpochs b).cells = s.cells :=
  foldl_cells (fun t e => by dsimp only; split <;> rfl) _ _

theorem State.restoreCursor_cells (s : State) (b : List Byte) : (s.restoreCursor b).cells = s.cells := by
  unfold State.restoreCursor
  split <;> rfl

/-- The cells at their step, with the record's epochs and cursor in force (R503). -/
def State.atRecord (s : State) (r : List Byte) : State :=
  (((cellIds.filter (fun k => (s.cell k).exists_)).foldl (fun s k => s.modCell k (fun c => c.atStep (bfld r 8 8))) s).setEpochs
    (bsub r 640 512)).restoreCursor (bsub r 16 12)

theorem State.atRecord_step (s : State) (r : List Byte) {k : Nat} (hk : k < 16) (hex : (s.cell k).exists_ = true) :
    ((s.atRecord r).cell k).step = BitVec.ofNat 64 (bfld r 8 8) := by
  unfold State.atRecord State.cell
  rw [State.restoreCursor_cells, State.setEpochs_cells]
  have h := foldl_part State.cell (fun s k => s.modCell k (fun c => c.atStep (bfld r 8 8))) (fun c => c.atStep (bfld r 8 8))
    (fun s n => State.modCell_cell s n _) (fun s n j hj => State.modCell_cell_ne s n j _ hj)
    _ (List.Nodup.filter (fun k => (s.cell k).exists_) cellIds_nodup) s k
  have hks : k ∈ cellIds.filter (fun k => (s.cell k).exists_) := List.mem_filter.mpr ⟨List.mem_range.mpr hk, hex⟩
  rw [if_pos hks] at h
  exact congrArg Cell.step h

theorem State.restoreApply_eq (s : State) (src : Nat) (r : List Byte) :
    let ks := cellIds.filter (fun k => (s.cell k).exists_)
    s.restoreApply src r = ((ks.foldl State.reclockCell (ks.foldl State.toStart (s.atRecord r))).emptyAdds.clearCommit).log 0x8202
      [.val 1 (if src = 3 then 0 else src), .val 4 (bfld r 8 8)] := rfl

theorem restore_setsStep : restoreSetsStep := by
  intro s src r t
  refine ⟨fun k hk hex => ?_, ?_, ?_, ?_⟩
  · have hks : k ∈ cellIds.filter (fun k => (s.cell k).exists_) := List.mem_filter.mpr ⟨List.mem_range.mpr hk, hex⟩
    have hcell : t.cell k = ((cellIds.filter (fun k => (s.cell k).exists_)).foldl State.toStart (s.atRecord r)).cell k := by
      show (s.restoreApply src r).cell k = _
      rw [State.restoreApply_eq]
      unfold State.cell
      rw [State.log_cells]
      exact congrArg (fun c => tabGet {} c k) (CoresOnly.foldl State.reclockCell_coresOnly _ _).cells
    obtain ⟨hstep, hstart⟩ := State.foldl_toStart (cellIds.filter (fun k => (s.cell k).exists_)) k (s.atRecord r)
    obtain ⟨htick, hrest, himg⟩ := hstart (.inl hks)
    rw [hcell]
    exact ⟨hstep.trans (s.atRecord_step r hk hex), htick, hrest, himg⟩
  · show (s.restoreApply src r).gal.adds = []
    rw [State.restoreApply_eq, (State.log_spares _ _ _).gal]
    rfl
  · show (s.restoreApply src r).exp.wins = []
    rw [State.restoreApply_eq, (State.log_logs _ _ _).media.exp]
    rfl
  · show (s.restoreApply src r).gal.commitSeen = false
    rw [State.restoreApply_eq, (State.log_spares _ _ _).gal]
    rfl

theorem restoreComplete_does : restoreCompleteDoes := by
  intro obj s src gen step hres u r c
  have hend : s.restoreEnd obj = match c.2 with
      | some (code, fs) => c.1.endRestoring.restoreRefused code fs
      | none => (((c.1.endRestoring.restoreApply src r.1).staleMirrors src).restoreReply stDone []).report 1 := by
    unfold State.restoreEnd
    rw [hres] <;> rfl
  have hexec : exec (.restoreComplete obj) s = .next (s.restoreEnd obj).serve := rfl
  rw [hexec, hend]
  exact ⟨fun code fs hc => by rw [hc], fun hc => by rw [hc]⟩

/-- Settles O26: the fills by their branches, since what is told of a fill changes no cell; a restore by its order of resets. -/
theorem restoresAndFills : Obligations.RestoresAndFills := ⟨fillAttach_does, fillCopy_does, restoreComplete_does, restore_setsStep⟩

end Sys2Proof.Machine

end

section

/-! PROOFS. A capture that ends the staleness of its mirrors writes their bitmap (O25). -/

namespace Sys2Proof.Machine

open Sys2Proof Sys2Proof.Claims

/-! What a capture writes before it ends the staleness of its mirrors. -/

/-- The second state holds the configuration, the gallery engine, the engine of exports and the reset fields of the first. -/
structure Configured (s t : State) : Prop where
  cfg : t.cfg = s.cfg
  gal : t.gal = s.gal
  exp : t.exp = s.exp
  rst : t.rst = s.rst

theorem Configured.refl (s : State) : Configured s s := ⟨rfl, rfl, rfl, rfl⟩

theorem Configured.trans {s t u : State} (h : Configured s t) (h' : Configured t u) : Configured s u :=
  ⟨h'.cfg.trans h.cfg, h'.gal.trans h.gal, h'.exp.trans h.exp, h'.rst.trans h.rst⟩

theorem Configured.foldl {α : Type} {f : State → α → State} (hf : ∀ s x, Configured s (f s x)) (l : List α) (s : State) :
    Configured s (l.foldl f s) := by
  induction l generalizing s with
  | nil => exact .refl s
  | cons x l ih => exact (hf s x).trans (ih _)

theorem Media.configured {s t : State} (h : Media s t) : Configured s t := ⟨h.cfg, h.gal, h.exp, h.rst⟩

theorem State.readRanges_configured (s : State) (rs : List (Nat × Nat)) : Configured s (s.readRanges rs) :=
  Configured.foldl (f := fun (t : State) (r : Nat × Nat) => t.touchPhys r.1 r.2 false)
    (fun t r => (t.touchPhys_media r.1 r.2 false).configured) rs s

theorem State.hbmPut_configured (s : State) (a n : Nat) (m : Mem) : Configured s (s.hbmPut a n m) :=
  (s.touchPhys_media a n true).configured.trans ⟨rfl, rfl, rfl, rfl⟩

theorem State.copyRanges_configured (s : State) (sb : Nat) (rs : List (Nat × (Nat × (Nat × Nat)))) : Configured s (s.copyRanges sb rs) :=
  .foldl (fun t _ => t.hbmPut_configured _ _ _) rs s

theorem State.hwrite_configured (s : State) (a : Nat) (bs : List PByte) : Configured s (s.hwrite a bs) := ⟨rfl, rfl, rfl, rfl⟩

/-- The record of a capture in its place (R498). -/
def State.recordPut (s : State) (a : Nat) (rec_ : List Byte) : State :=
  (s.touchPhys a rec_.length true).hwrite a (rec_.map (fun b => (b, false)))

theorem State.recordPut_configured (s : State) (a : Nat) (rec_ : List Byte) : Configured s (s.recordPut a rec_) :=
  (s.touchPhys_media a rec_.length true).configured.trans (State.hwrite_configured _ _ _)

theorem State.startDrain_configured {s : State} (h : s.cfg.target ≠ 1) (rec_ : List Byte) : Configured s (s.startDrain rec_) := by
  unfold State.startDrain
  dsimp only
  rw [if_neg h]
  exact ⟨rfl, rfl, rfl, rfl⟩

/-- A capture to flash without a receipt ends, once its record stands, with the staleness of the mirrors. -/
theorem exec_snapCaptureDone_to_flash {s : State} (hst : s.snp.state = .capture) (htgt : s.cfg.target ≠ 1) (hrcp : s.cfg.receipt = false)
    (hbad : s.cfg.snapRanges.any (fun r => anyPois ((s.readRanges (s.cfg.snapRanges.map (fun r => (r.1, r.2.1)))).hread r.1 r.2.1)) = false)
    (us : Nat) : ∃ v, Configured s v ∧ exec (.snapCaptureDone us) s =
      .next ((v.endStale.log 0x8301 [.val 4 s.snp.drainStep, .val 4 us]).endCapture) := by
  have hread := s.readRanges_configured (s.cfg.snapRanges.map (fun r => (r.1, r.2.1)))
  show ∃ v, Configured s v ∧ execSnapCaptureDone us s = _
  unfold execSnapCaptureDone
  rw [if_neg (not_not.mpr hst)]
  dsimp only
  rw [if_neg (by rw [hbad]; decide)]
  generalize s.readRanges (s.cfg.snapRanges.map (fun r => (r.1, r.2.1))) = u at hread ⊢
  have hcopy := hread.trans (u.copyRanges_configured s.cfg.snapbuf.1 s.cfg.snapRanges)
  generalize s.cfg.snapRanges.map (fun r => u.rangeSeal r.1 r.2.1 r.2.2.1) = seals
  generalize u.copyRanges s.cfg.snapbuf.1 s.cfg.snapRanges = w at hcopy ⊢
  have hrec : Configured w (w.snapRecord 1 s.snp.drainStep w.cursorBlock seals).1 := ⟨rfl, rfl, rfl, rfl⟩
  generalize w.snapRecord 1 s.snp.drainStep w.cursorBlock seals = p at hrec
  have hput := (hcopy.trans hrec).trans (p.1.recordPut_configured (s.cfg.snapbuf.1 + 2097152 - 65536) p.2)
  refine ⟨(p.1.recordPut (s.cfg.snapbuf.1 + 2097152 - 65536) p.2).startDrain p.2,
    hput.trans (State.startDrain_configured (by rw [hput.cfg]; exact htgt) _), ?_⟩
  have hno : (p.1.recordPut (s.cfg.snapbuf.1 + 2097152 - 65536) p.2).cfg.receipt = false := by rw [hput.cfg]; exact hrcp
  exact congrArg (fun x : State => Host.Outcome.next (((x.startDrain p.2).endStale.log 0x8301 [.val 4 s.snp.drainStep, .val 4 us]).endCapture))
    (if_neg (fun h => Bool.false_ne_true (hno.symm.trans h)))

/-! The bitmap of a mirror. -/

/-- The mirror of one line at address 0 of this device, whose bitmap stands at address 0 too, and whose source is not asked again. -/
def oneMirror : Nat × (Nat × (Nat × (Nat × Bool))) := (0, 256, 0, 0, false)

/-- A capture whose mirror's one line is stale, as its bitmap in HBM says. -/
def staleCapture : State :=
  { hbm := [(0, 1)], cfg := { mirrors := [oneMirror] }, exp := { stale := [0], staleCnt := 1 }, snp := { state := .capture } }

/-- The byte of a bitmap with its lowest bit cleared. -/
theorem clear_bit_zero_ne_one (old : BitVec 8) :
    BitVec.ofNat 8 (old.toNat - b2n (bit old.toNat 0) * 2 ^ 0 + b2n false * 2 ^ 0) ≠ 1 := by
  intro h
  have hlt := old.isLt
  have hnew := congrArg BitVec.toNat h
  rw [BitVec.toNat_ofNat] at hnew
  by_cases hodd : old.toNat % 2 = 1
  · have hbit : b2n (bit old.toNat 0) = 1 := by simp [b2n, bit, hodd]
    rw [hbit] at hnew
    simp only [b2n, Bool.false_eq_true, ite_false] at hnew
    have : (1 : BitVec 8).toNat = 1 := rfl
    omega
  · have hbit : b2n (bit old.toNat 0) = 0 := by simp [b2n, bit, hodd]
    rw [hbit] at hnew
    simp only [b2n, Bool.false_eq_true, ite_false] at hnew
    have : (1 : BitVec 8).toNat = 1 := rfl
    omega

/-- A stale bit cleared is cleared in HBM, whatever the byte was (R414). -/
theorem State.setStale_clears {s : State} (hq : s.rst.quiet = []) : memGet (s.setStale oneMirror 0 false).hbm 0 ≠ 1 := by
  have hq' : (s.touchPhys 0 1 true).rst.quiet = [] := by rw [(s.touchPhys_media 0 1 true).rst]; exact hq
  have hset : (s.setStale oneMirror 0 false).hbm = ((s.touchPhys 0 1 true).hwrite 0 [(BitVec.ofNat 8
      ((memGet (s.touchPhys 0 1 true).hbm 0).toNat - b2n (bit (memGet (s.touchPhys 0 1 true).hbm 0).toNat 0) * 2 ^ 0 +
        b2n false * 2 ^ 0), false)]).hbm := rfl
  rw [hset]
  generalize s.touchPhys 0 1 true = u at hq' ⊢
  have hne := clear_bit_zero_ne_one (memGet u.hbm 0)
  generalize BitVec.ofNat 8 ((memGet u.hbm 0).toNat - b2n (bit (memGet u.hbm 0).toNat 0) * 2 ^ 0 + b2n false * 2 ^ 0) = new at hne ⊢
  unfold State.hwrite State.taken
  rw [hq']
  exact fun h => hne ((memGet_memWrite_in [new] u.hbm 0 0 (Nat.zero_lt_one)).symm.trans h)

theorem endStale_clears {v : State} (h : Configured staleCapture v) : memGet v.endStale.hbm 0 ≠ 1 := by
  obtain ⟨hcfg, hgal, hexp, hrst⟩ := h
  have hbits := State.setStale_clears (s := v) (by rw [hrst]; rfl)
  have hgal' : (v.setStale oneMirror 0 false).gal.state = .standalone := by
    have hset : (v.setStale oneMirror 0 false).gal = (v.touchPhys 0 1 true).gal := rfl
    rw [hset, (v.touchPhys_media 0 1 true).gal, hgal]
    rfl
  have hend : v.endStale = (v.setStale oneMirror 0 false).tellFresh v.exp.staleCnt := by
    unfold State.endStale
    rw [hcfg, show staleCapture.cfg.mirrors.filter (fun m => !m.2.2.2.2) = [oneMirror] from rfl, List.foldl_cons, List.foldl_nil, hexp]
    rfl
  have htell (u : State) (c : BitVec 40) (hu : u.gal.state = .standalone) : u.tellFresh c = u := if_pos (.inr (.inr hu))
  rw [hend, htell _ _ hgal']
  exact hbits

/-- Refutes O25: a capture that ends the staleness of its mirrors clears their bits in HBM too; the bitmap of a mirror lies neither in the
record's place nor in the copied ranges', and yet its byte, 1 before, is changed. -/
theorem not_snapshotsTakeEffect : ¬ Obligations.SnapshotsTakeEffect := by
  rintro ⟨hcapture, -⟩
  obtain ⟨-, hclean⟩ := hcapture 0 staleCapture rfl
  have hbad : staleCapture.cfg.snapRanges.any (fun r => anyPois ((staleCapture.readRanges
      (staleCapture.cfg.snapRanges.map (fun r => (r.1, r.2.1)))).hread r.1 r.2.1)) = false := by decide +kernel
  obtain ⟨t, ht, -, -, -, -, hkeeps, -⟩ := hclean hbad rfl
  obtain ⟨v, hv, hexec⟩ := exec_snapCaptureDone_to_flash (s := staleCapture) rfl (by decide) rfl hbad 0
  obtain rfl : t = _ := Host.Outcome.next.inj (ht.symm.trans hexec)
  have hbyte := hkeeps rfl 0 (.inl (by decide)) (by decide +kernel)
  have hone : memGet staleCapture.hbm 0 = 1 := rfl
  refine endStale_clears hv ?_
  rw [← hone, ← hbyte]
  unfold State.endCapture
  exact congrArg (fun m => memGet m 0) ((State.holdAll_cores_hbm _ _).2.trans (State.log_hbm _ _ _)).symm

end Sys2Proof.Machine

end

section

/-! PROOFS. Link ports train and authenticate (O29). -/

namespace Sys2Proof.Machine

open Sys2Proof Sys2Proof.Claims

/-! A port that leaves its state. -/

theorem portLeaves_holds : portLeaves := by
  intro s i why st
  have hsent : Sent (s.modPort i (fun p => p.clear st why)) (s.portLeave i st why) :=
    Sent.foldl (f := fun (t : State) (x : PortPk) => t.transmit x.src x.arr) (fun t x => t.transmit_sent x.src x.arr) (s.port i).txq
      (s.modPort i (fun p => p.clear st why))
  have hport : (s.modPort i (fun p => p.clear st why)).port i = (s.port i).clear st why := State.modPort_port _ _ _
  refine ⟨(hsent.state i).trans ?_, (hsent.downwhy i).trans ?_, (hsent.pvalid i).trans ?_, fun j hj => (hsent.state j).trans ?_⟩
  · rw [hport]; rfl
  · rw [hport]; rfl
  · rw [hport]; rfl
  · rw [State.modPort_port_ne _ _ _ _ hj]

/-! Training. -/

theorem trainAttempt_does : trainAttemptDoes := fun _ _ hdown hrole => if_pos ⟨hdown, hrole⟩

theorem trainingTimeout_does : trainingTimeoutDoes := fun _ _ hst => if_pos hst

theorem State.sendIdle_port_ne (s : State) {i j : Nat} (hj : j ≠ i) : (s.sendIdle i).port j = s.port j := by
  unfold State.sendIdle
  dsimp only
  split
  · rfl
  · split
    · rfl
    · rw [State.emit_port', State.modPort_port_ne _ _ _ _ hj]

theorem State.flushCtl_port_ne {i j : Nat} (hj : j ≠ i) : ∀ (k : Nat) (s : State), (State.flushCtl k s i).port j = s.port j
  | 0, _ => rfl
  | k + 1, s => by
    unfold State.flushCtl
    split
    · rfl
    · exact (State.flushCtl_port_ne hj k _).trans (s.sendIdle_port_ne hj)

theorem State.sendHand_port_ne (s : State) {i j : Nat} (hj : j ≠ i) (kind : Nat) (msg : List Byte) :
    (s.sendHand i kind msg).port j = s.port j :=
  (State.flushCtl_port_ne hj _ _).trans (State.modPort_port_ne _ _ _ _ hj)

theorem State.sendHand_out (s : State) (i kind : Nat) (msg : List Byte) : Out.hand i kind ∈ (s.sendHand i kind msg).out :=
  List.mem_cons_self

/-- An eye recorded changes of the other ports and of HBM nothing. -/
theorem State.eyeRecord_keeps (s : State) (i : Nat) (x : (Nat × Nat) × Nat) :
    (∀ j, j ≠ i → (s.eyeRecord i x).port j = s.port j) ∧ (s.eyeRecord i x).hbm = s.hbm := by
  unfold State.eyeRecord
  dsimp only
  generalize (if 100 * x.1.1 < _ then _ else 0) = weak
  split
  · exact ⟨fun j hj => (State.log_port _ _ _ j).trans (State.modPort_port_ne _ _ _ _ hj), (State.log_hbm _ _ _).trans rfl⟩
  · exact ⟨fun j hj => State.modPort_port_ne _ _ _ _ hj, rfl⟩

theorem State.foldl_eyeRecord_keeps (i : Nat) (l : List ((Nat × Nat) × Nat)) (s : State) :
    (∀ j, j ≠ i → (l.foldl (fun s x => s.eyeRecord i x) s).port j = s.port j) ∧
      (l.foldl (fun s x => s.eyeRecord i x) s).hbm = s.hbm := by
  induction l generalizing s with
  | nil => exact ⟨fun _ _ => rfl, rfl⟩
  | cons x l ih =>
    obtain ⟨hport, hhbm⟩ := ih (s.eyeRecord i x)
    obtain ⟨hport', hhbm'⟩ := s.eyeRecord_keeps i x
    exact ⟨fun j hj => (hport j hj).trans (hport' j hj), hhbm.trans hhbm'⟩

/-- What a port that has trained does as it enters AUTH: it sends HELLO and its certificate (R432). -/
def State.greets (s : State) (i : Nat) (own peer : BitVec 20) (n : BitVec 256) : State :=
  let t := s.modPort i (fun p => p.toAuth own peer n)
  (t.sendHand i 1 (t.helloMsg (t.port i))).sendHand i 2 Config.devCert

theorem State.greets_port (s : State) (i : Nat) (own peer : BitVec 20) (n : BitVec 256) :
    ((s.port i).toAuth own peer n).Sends ((s.greets i own peer n).port i) := by
  have hp : (s.modPort i (fun p => p.toAuth own peer n)).port i = (s.port i).toAuth own peer n := State.modPort_port _ _ _
  unfold State.greets
  dsimp only
  generalize s.modPort i (fun p => p.toAuth own peer n) = t at hp ⊢
  rw [← hp]
  exact ((t.sendHand_pumps i 1 _).trans (State.sendHand_pumps _ i 2 _)).port i

theorem State.greets_port_ne (s : State) {i j : Nat} (hj : j ≠ i) (own peer : BitVec 20) (n : BitVec 256) :
    (s.greets i own peer n).port j = s.port j :=
  (State.sendHand_port_ne _ hj _ _).trans ((State.sendHand_port_ne _ hj _ _).trans (State.modPort_port_ne _ _ _ _ hj))

theorem State.greets_out (s : State) (i : Nat) (own peer : BitVec 20) (n : BitVec 256) :
    Out.hand i 1 ∈ (s.greets i own peer n).out ∧ Out.hand i 2 ∈ (s.greets i own peer n).out := by
  unfold State.greets
  dsimp only
  generalize s.modPort i (fun p => p.toAuth own peer n) = t
  refine ⟨?_, State.sendHand_out _ _ _ _⟩
  obtain ⟨o, ho⟩ := ((t.sendHand i 1 (t.helloMsg (t.port i))).sendHand_pumps i 2 Config.devCert).sent
  rw [ho]
  exact List.mem_append_right _ (State.sendHand_out _ _ _ _)

theorem State.greets_hbm (s : State) (i : Nat) (own peer : BitVec 20) (n : BitVec 256) : (s.greets i own peer n).hbm = s.hbm := by
  have h1 (t : State) (kind : Nat) (msg : List Byte) : (t.sendHand i kind msg).hbm = t.hbm := by rw [(t.sendHand_pumps i kind msg).eq]
  exact (h1 _ _ _).trans ((h1 _ _ _).trans rfl)

theorem healthyLanes_length_le (h : BitVec 20) : (healthyLanes h).length ≤ 20 :=
  (List.length_filter_le _ _).trans (by rw [List.length_range])

theorem min_widthOf (a b : Nat) : min (widthOf a) (widthOf b) = widthOf (min a b) := by
  have hmono {x y : Nat} (h : x ≤ y) : widthOf x ≤ widthOf y := by
    unfold widthOf
    split_ifs <;> omega
  rcases Nat.le_total a b with h | h
  · rw [Nat.min_eq_left h, Nat.min_eq_left (hmono h)]
  · rw [Nat.min_eq_right h, Nat.min_eq_right (hmono h)]

theorem widthOf_eq_zero_iff (n : Nat) : widthOf n = 0 ↔ n < 4 := by
  unfold widthOf
  split_ifs <;> simp <;> omega

theorem widthOf_le (n : Nat) : widthOf n ≤ 20 := by
  unfold widthOf
  split_ifs <;> omega

theorem widthOf_of_lanes {n : Nat} (h4 : 4 ≤ n) (h20 : n ≤ 20) :
    widthOf n = if n = 20 then 20 else if 16 ≤ n then 16 else if 10 ≤ n then 10 else if 8 ≤ n then 8 else 4 := by
  unfold widthOf
  split_ifs <;> omega

theorem toNat_width {w : Nat} (h : w ≤ 20) : (BitVec.ofNat 5 w).toNat = w := by
  rw [BitVec.toNat_ofNat]
  exact Nat.mod_eq_of_lt (by omega)

theorem trainingDone_does : trainingDoneDoes := by
  intro port healthy eyes s hst good n
  have hexec : exec (.trainingDone port healthy eyes) s =
      if min (widthOf (healthyLanes good).length) (widthOf (healthyLanes healthy.peer).length) = 0 then .next (s.trainFail port 3)
      else
        let t := (eyes.take 20).zipIdx.foldl (fun s x => s.eyeRecord port x) s
        .next (State.greets { t with free := t.free + 1 } port good healthy.peer (Config.random t.free)) := if_pos hst
  rw [hexec, min_widthOf]
  refine ⟨fun h => if_pos ((widthOf_eq_zero_iff _).mpr h), fun h => ?_⟩
  rw [if_neg (fun hz => absurd ((widthOf_eq_zero_iff _).mp hz) (by omega))]
  obtain ⟨hports, hhbm⟩ := State.foldl_eyeRecord_keeps port (eyes.take 20).zipIdx s
  dsimp only
  generalize (eyes.take 20).zipIdx.foldl (fun s x => s.eyeRecord port x) s = t at hports hhbm ⊢
  generalize Config.random t.free = nonce
  have hsends := State.greets_port { t with free := t.free + 1 } port good healthy.peer nonce
  have hne := fun (j : Nat) (hj : j ≠ port.val) => State.greets_port_ne { t with free := t.free + 1 } hj good healthy.peer nonce
  obtain ⟨hhello, hcert⟩ := State.greets_out { t with free := t.free + 1 } port good healthy.peer nonce
  have hmem := State.greets_hbm { t with free := t.free + 1 } port good healthy.peer nonce
  refine ⟨_, rfl, ?_⟩
  obtain ⟨_, _, _, _, _, _, _, _, hport⟩ := hsends
  rw [hport]
  refine ⟨rfl, rfl, rfl, ?_, rfl, rfl, hhello, hcert, fun j hj => (hne j hj).trans (hports j hj), hmem.trans hhbm⟩
  have hn : n ≤ 20 := (Nat.min_le_left _ _).trans (healthyLanes_length_le good)
  rw [← widthOf_of_lanes h hn, ← toNat_width (widthOf_le n)]
  show (BitVec.ofNat 5 (min (widthOf (healthyLanes good).length) (widthOf (healthyLanes healthy.peer).length))).toNat = _
  rw [min_widthOf]

/-! Authentication. -/

theorem hello_does : helloDoes := by
  intro port h s s'
  refine ⟨fun hst => if_pos hst, fun hst => ?_⟩
  have hne : (s.port port).state ≠ .auth := by rcases hst with h | h | h <;> rw [h] <;> decide
  exact (if_neg hne).trans (if_pos (decide_eq_true hst))

theorem cert_does : certDoes := by
  intro port cert chain s
  refine ⟨fun hst => if_pos hst, fun hst => ?_⟩
  have hne : (s.port port).state ≠ .auth := by rcases hst with h | h | h <;> rw [h] <;> decide
  exact (if_neg hne).trans (if_pos (decide_eq_true hst))

/-- A port that comes UP with what its peer has claimed (R433). -/
def Port.comesUp (p : Port) (claims : Nat × Nat × Nat × Nat) (free : Nat) : Port :=
  { p with
    state := .up, pfleet := BitVec.ofNat 6 claims.1, pslot := BitVec.ofNat 6 claims.2.1, pinc := BitVec.ofNat 16 claims.2.2.1,
    prole := BitVec.ofNat 3 claims.2.2.2, pvalid := true, phash := BitVec.ofNat 32 (bfld (sha256 p.peerKey) 0 4),
    ups := satAdd p.ups 1, authTo := 0,
    vcs := (List.range 4).foldl (fun t v => tabSet {} t v { cred := Config.peerVcbuf free v, cap := Config.peerVcbuf free v }) [] }

/-- A port UP once its peer is known, with its event logged, before it sends what waits (R433). -/
def State.linkUp (s : State) (i : Nat) : State :=
  let c := (s.port i).claims
  let u := s.modPort i (fun p => p.comesUp c s.free)
  ({ u with free := u.free + 1 } : State).log 0x3101 [.link i, .val 1 (s.port i).width.toNat, .val 1 c.1, .val 1 c.2.1, .val 2 c.2.2.1]

theorem exec_linkSign {s : State} {port : Fin 8} (hst : (s.port port).state = .auth) (hhello : (s.port port).gotHello = true)
    (hcert : (s.port port).gotCert = true) (sig : List Byte) :
    exec (.linkSign port sig) s = match s.authReason (s.port port) sig with
      | some r => .next ((s.log 0x3104 [.link port, .val 1 r]).portQuar port 1)
      | none => .next ((s.linkUp port).pump port) :=
  if_pos ⟨hst, hhello, hcert⟩

theorem State.linkUp_keeps (s : State) (i : Nat) :
    (s.linkUp i).port i = (s.port i).comesUp (s.port i).claims s.free ∧ (∀ j, j ≠ i → (s.linkUp i).port j = s.port j) ∧
      (s.linkUp i).hbm = s.hbm ∧ (s.linkUp i).cores = s.cores := by
  unfold State.linkUp
  dsimp only
  have hport := State.modPort_port s i (fun p => p.comesUp (s.port i).claims s.free)
  have hne := fun j (hj : j ≠ i) => State.modPort_port_ne s i j (fun p => p.comesUp (s.port i).claims s.free) hj
  exact ⟨(State.log_port _ _ _ i).trans hport, fun j hj => (State.log_port _ _ _ j).trans (hne j hj), State.log_hbm _ _ _,
    State.log_cores _ _ _⟩

theorem sign_does : signDoes := by
  intro port sig s hst hhello hcert
  refine ⟨fun r hr => ?_, fun f sl inc r hnone hclaims => ?_⟩
  · rw [exec_linkSign hst hhello hcert, hr]
  · obtain ⟨hport, hne, hhbm, hcores⟩ := s.linkUp_keeps port
    refine ⟨(s.linkUp port).pump port, by rw [exec_linkSign hst hhello hcert, hnone], ?_⟩
    have hpump := (s.linkUp port).pump_pumps port
    have hmine := hpump.port port
    rw [hport, hclaims] at hmine
    obtain ⟨_, _, _, _, _, _, _, _, hmine⟩ := hmine
    rw [hmine]
    refine ⟨rfl, rfl, rfl, rfl, rfl, rfl, fun j hj => (hpump.sends.state j).trans (by rw [hne j hj]), ?_, ?_⟩
    · rw [hpump.eq]; exact hhbm
    · rw [hpump.eq]; exact hcores

theorem authTimeout_does : authTimeoutDoes := by
  intro port s hst t
  have hexec : exec (.authTimeout port) s = .next (if 3 ≤ (s.port port).authTo + 1 then
      (t.portQuar port 1).modPort port (fun p => { p with authTo := 0 }) else t.portDown port 5 true) := if_pos hst
  rw [hexec]
  exact ⟨fun h => congrArg Host.Outcome.next (if_neg (by omega)), fun h => congrArg Host.Outcome.next (if_pos (by omega))⟩

/-- Settles O29: a port that leaves fails what it held; the handshake's messages touch their own port alone; a port that comes UP keeps what
its peer has claimed, whatever it then sends. -/
theorem linksTrainAndAuthenticate : Obligations.LinksTrainAndAuthenticate :=
  ⟨portLeaves_holds, trainAttempt_does, trainingTimeout_does, trainingDone_does, hello_does, cert_does, sign_does, authTimeout_does⟩

end Sys2Proof.Machine

end

section

/-! PROOFS. Link ports carry codewords, retrain, drain and are quarantined (O30). -/

namespace Sys2Proof.Machine

open Sys2Proof Sys2Proof.Claims

theorem State.modPort_modPort (s : State) (i : Nat) (f g : Port → Port) : (s.modPort i f).modPort i g = s.modPort i (fun p => g (f p)) := by
  simp only [State.modPort, tabMod, tabGet_tabSet, tabSet_tabSet]

theorem Port.carries_iff (p : Port) : p.carries = true ↔ p.state = .auth ∨ p.state = .up ∨ p.state = .draining := decide_eq_true_iff

/-! Lanes. -/

theorem left_fst (p : Port) (lanes : BitVec 20) (peer : Bool) :
    (left p lanes peer).1 = if peer then p.healthy else p.healthy &&& ~~~(p.rxHealthy lanes) := by
  unfold left
  split <;> rfl

theorem left_snd (p : Port) (lanes : BitVec 20) (peer : Bool) :
    (left p lanes peer).2 = if peer then p.txHealthy &&& ~~~lanes else p.txHealthy := by
  unfold left
  split <;> rfl

/-- A lane in use is among those lost. -/
theorem loses_iff (p : Port) (h tx : BitVec 20) :
    (p.rxActive.any (fun l => !h.getLsbD l) || ((healthyLanes p.txHealthy).take p.width.toNat).any (fun l => !tx.getLsbD l)) = true ↔
      loses p h tx := by
  unfold loses Port.rxActive
  simp only [Bool.or_eq_true, List.any_eq_true, Bool.not_eq_true']

theorem healthyLanes_zero : healthyLanes 0 = [] := by decide

theorem State.lanesLeft_eq (s : State) (i : Nat) (h tx : BitVec 20) :
    let t := s.modPort i (fun p => { p with healthy := h, txHealthy := tx })
    let n := min (healthyLanes h).length (healthyLanes tx).length
    (¬ loses (s.port i) h tx → s.lanesLeft i h tx = t) ∧
    (loses (s.port i) h tx → h = 0 → s.lanesLeft i h tx = t.portDown i 1 true) ∧
    (loses (s.port i) h tx → h ≠ 0 → n < 4 → s.lanesLeft i h tx = t.portDown i 3 true) ∧
    (loses (s.port i) h tx → 4 ≤ n → s.lanesLeft i h tx =
      t.modPort i (fun p => { p with state := .retrain, drainAfter := p.drainAfter || decide (p.state = .draining) })) := by
  intro t n
  have hport : t.port i = { s.port i with healthy := h, txHealthy := tx } := State.modPort_port _ _ _
  have hwidth : (t.port i).bestWidth = widthOf n := by
    rw [hport]
    exact min_widthOf _ _
  have hloses := loses_iff (s.port i) h tx
  unfold State.lanesLeft
  dsimp only
  refine ⟨fun hl => if_pos ?_, fun hl h0 => ?_, fun hl h0 h4 => ?_, fun hl h4 => ?_⟩
  · rw [Bool.not_eq_true']
    exact Bool.eq_false_iff.mpr (fun hu => hl (hloses.mp hu))
  · rw [if_neg (by rw [hloses.mpr hl]; decide), if_pos h0]
  · rw [if_neg (by rw [hloses.mpr hl]; decide), if_neg h0]
    exact if_pos (hwidth.trans ((widthOf_eq_zero_iff n).mpr h4))
  · have h0 : h ≠ 0 := by
      rintro rfl
      have hn : n ≤ 0 := (Nat.min_le_left _ _).trans (by rw [healthyLanes_zero]; rfl)
      omega
    rw [if_neg (by rw [hloses.mpr hl]; decide), if_neg h0]
    exact if_neg (fun hz => absurd ((widthOf_eq_zero_iff n).mp (hwidth.symm.trans hz)) (by omega))

theorem laneUnhealthy_does : laneUnhealthyDoes := by
  intro port l s p h tx t n
  refine ⟨fun hst => ?_, fun hst => ?_⟩
  · have hne : ¬ (p.state = .training ∨ p.state = .auth) := by rcases hst with h | h | h <;> rw [h] <;> decide
    have hexec : exec (.laneUnhealthy port l) s = .next (s.lanesLeft port h tx) := by
      rw [show h = _ from left_fst p l.lanes l.peer, show tx = _ from left_snd p l.lanes l.peer]
      exact (if_neg hne).trans (if_pos (decide_eq_true hst))
    obtain ⟨hnone, hzero, hfew, hsome⟩ := s.lanesLeft_eq port h tx
    rw [hexec]
    exact ⟨fun hl => by rw [hnone hl], fun hl h0 => by rw [hzero hl h0], fun hl h0 h4 => by rw [hfew hl h0 h4],
      fun hl h4 => by rw [hsome hl h4]⟩
  · rw [show h = _ from left_fst p l.lanes l.peer, show tx = _ from left_snd p l.lanes l.peer]
    exact if_pos hst

/-! RETRAIN. -/

/-- A port UP again at a width (R434). -/
def Port.retrained (p : Port) (w : Nat) : Port :=
  { p with state := if p.drainAfter then .draining else .up, drainAfter := false, width := BitVec.ofNat 5 w,
           degrades := if w < p.width.toNat then satAdd p.degrades 1 else p.degrades }

theorem retrainDone_does : retrainDoneDoes := by
  intro port s hst w
  let t := s.modPort port (fun p => p.retrained w)
  let u := if w < (s.port port).width.toNat then
    t.log 0x3103 [.link port, .val 1 (s.port port).width.toNat, .val 1 w, .val 4 (~~~(s.port port).healthy).toNat] else t
  have hexec : exec (.retrainDone port) s = .next (u.pump port) := if_pos hst
  have ht : t.port port = (s.port port).retrained w := State.modPort_port _ _ _
  have hne (j : Nat) (hj : j ≠ port.val) : t.port j = s.port j := State.modPort_port_ne _ _ _ _ hj
  have hu (j : Nat) : u.port j = t.port j := by
    show (if _ then t.log _ _ else t).port j = _
    split
    · exact State.log_port _ _ _ j
    · rfl
  have hhbm : u.hbm = s.hbm := by
    show (if _ then t.log _ _ else t).hbm = _
    split
    · exact (State.log_hbm _ _ _).trans rfl
    · rfl
  have hpump := u.pump_pumps port
  have hmine := hpump.port port
  rw [hu, ht] at hmine
  obtain ⟨_, _, _, _, _, _, _, _, hmine⟩ := hmine
  refine ⟨_, hexec, ?_, ?_, ?_, fun j hj => ?_, ?_⟩
  · rw [hmine]
    refine (BitVec.toNat_ofNat _ _).trans (Nat.mod_eq_of_lt ?_)
    exact lt_of_le_of_lt (Nat.min_le_left _ _) (s.port port).width.isLt
  · rw [hmine]; rfl
  · rw [hmine]; rfl
  · rw [hpump.sends.state j, hu, hne j hj]
  · rw [hpump.eq]; exact hhbm

/-! Codewords. -/

theorem State.nakCodeword_of_none {s : State} {i : Nat} (h : (s.port i).nakPend = false) :
    s.nakCodeword i = (s.modPort i (fun p => { p with nakPend := true, nakDue := true })).sendIdle i := by
  unfold State.nakCodeword
  rw [h]
  simp only [Bool.not_false, Bool.true_or, Bool.or_true, if_true]
  rfl

/-- The count of a physical lane. -/
def Port.withLane (l n : Nat) (p : Port) : Port := { p with laneErr := tabSet 0 p.laneErr l n }

/-- The symbols corrected on one physical lane, and, by a free value, those of the millisecond before (R434, R441). -/
def State.laneCount (i : Nat) (errs : List Nat) (s : State) (l : Nat) : Nat :=
  Config.draw s.free % (tabGet 0 (s.port i).laneErr l + 1) + errs.count l

/-- The corrected symbols of one physical lane counted. -/
def State.countLane (i : Nat) (errs : List Nat) (s : State) (l : Nat) : State :=
  { s.modPort i (Port.withLane l (s.laneCount i errs l)) with free := s.free + 1 }

theorem State.countCorr_eq (s : State) (i : Nat) (errs : List Nat) : s.countCorr i errs =
    errs.eraseDups.foldl (State.countLane i errs) (s.modPort i (fun p => { p with corr := satAdd p.corr errs.length })) := rfl

theorem State.countLane_port_ne (i : Nat) (errs : List Nat) (s : State) (l : Nat) {j : Nat} (hj : j ≠ i) :
    (s.countLane i errs l).port j = s.port j :=
  State.modPort_port_ne s i j (Port.withLane l (s.laneCount i errs l)) hj

theorem State.countLane_port (i : Nat) (errs : List Nat) (s : State) (l : Nat) :
    ∃ e, (s.countLane i errs l).port i = { s.port i with laneErr := e } :=
  ⟨_, State.modPort_port s i (Port.withLane l (s.laneCount i errs l))⟩

/-- The corrected symbols are counted at their port alone, and nothing is sent. -/
theorem State.countCorr_keeps (s : State) (i : Nat) (errs : List Nat) :
    (∃ e, (s.countCorr i errs).port i = { s.port i with corr := satAdd (s.port i).corr errs.length, laneErr := e }) ∧
      (∀ j, j ≠ i → (s.countCorr i errs).port j = s.port j) ∧ (s.countCorr i errs).out = s.out := by
  rw [State.countCorr_eq]
  generalize hu : s.modPort i (fun p => { p with corr := satAdd p.corr errs.length }) = u
  have hi : ∃ e, u.port i = { s.port i with corr := satAdd (s.port i).corr errs.length, laneErr := e } :=
    ⟨(s.port i).laneErr, by rw [← hu, State.modPort_port]⟩
  have hne : ∀ j, j ≠ i → u.port j = s.port j := fun j hj => by rw [← hu, State.modPort_port_ne _ _ _ _ hj]
  have hout : u.out = s.out := by rw [← hu]; rfl
  clear hu
  generalize errs.eraseDups = l
  induction l generalizing u with
  | nil => exact ⟨hi, hne, hout⟩
  | cons x l ih =>
    refine ih _ ?_ (fun j hj => (u.countLane_port_ne i errs x hj).trans (hne j hj)) hout
    obtain ⟨e, he⟩ := hi
    obtain ⟨e', he'⟩ := u.countLane_port i errs x
    exact ⟨e', by rw [he', he]⟩

/-- An accepted codeword has the effect of its flits (R423 to R428, R438). -/
theorem State.takeCodeword_takes (t : State) (port : Nat) (cw : TxCw) : takesCodeword t port cw (t.takeCodeword port cw) := by
  have hflits : (t.port port).accepted.takeFlits (cw.flits.zipIdx.map (fun (f, j) => (f, cw.cmask.getLsbD j))) [] false =
      (t.port port).accepted.takeFlits (flitsOf cw) [] false := rfl
  unfold State.takeCodeword
  rw [hflits]
  refine ⟨fun v hv => ?_, fun x hx hup => ?_, fun x hx hdown => ?_⟩
  · rw [show (t.port port).accepted.takeFlits (flitsOf cw) [] false = _ from hv]
    rfl
  · rw [show (t.port port).accepted.takeFlits (flitsOf cw) [] false = _ from hx]
    dsimp only
    rw [List.foldl_nil, State.modPort_port, hup]
    rfl
  · rw [show (t.port port).accepted.takeFlits (flitsOf cw) [] false = _ from hx]
    dsimp only
    rw [List.foldl_nil, State.modPort_port]
    exact if_pos (by rw [Bool.true_and, bne_iff_ne]; exact hdown)

theorem codeword_does : codewordDoes := by
  intro port lanes s p hst
  have hcarries : (s.port port).carries = true := (Port.carries_iff _).mpr hst
  refine ⟨fun hdec hnak => ?_, fun cw errs hdec => ?_⟩
  · show execCodewordReceive port lanes s = _
    unfold execCodewordReceive
    dsimp only
    rw [if_pos hcarries, hdec]
    dsimp only
    rw [State.nakCodeword_of_none (by rw [State.modPort_port]; exact hnak), State.modPort_modPort]
    rfl
  · obtain ⟨⟨e, hport⟩, hne, hout⟩ := s.countCorr_keeps port errs
    have hexec : exec (.codewordReceive port lanes) s =
        .next ((if (cw.flits.filter (fun f => !flitOk f)).length ≠ 0 then
            ((s.countCorr port errs).modPort port (fun p =>
              { p with crcbad := satAdd p.crcbad (cw.flits.filter (fun f => !flitOk f)).length })).nakCodeword port
          else if cw.cseq ≠ p.rxNext then s.countCorr port errs else (s.countCorr port errs).takeCodeword port cw).checkNoise port) := by
      show execCodewordReceive port lanes s = _
      unfold execCodewordReceive
      dsimp only
      rw [if_pos hcarries, hdec]
    generalize s.countCorr port errs = t at hport hne hout hexec ⊢
    have hbad (h : ∃ f ∈ cw.flits, flitOk f = false) : (cw.flits.filter (fun f => !flitOk f)).length ≠ 0 := by
      obtain ⟨f, hf, hfalse⟩ := h
      exact List.length_pos_of_mem (List.mem_filter.mpr ⟨hf, by rw [hfalse]; rfl⟩) |>.ne'
    have hok (h : ∀ f ∈ cw.flits, flitOk f = true) : ¬ (cw.flits.filter (fun f => !flitOk f)).length ≠ 0 := by
      rw [List.filter_eq_nil_iff.mpr (fun f hf => by rw [h f hf]; decide)]
      exact fun hn => hn rfl
    refine ⟨t, rfl, by rw [hport], hne, hout, fun hall hseq => ?_, fun hsome hnak => ?_, fun hall hseq => ?_⟩
    · rw [hexec, if_neg (hok hall), if_pos hseq]
    · have hnak' : (t.port port).nakPend = false := by rw [hport]; exact hnak
      refine ⟨_, by rw [hexec, if_pos (hbad hsome)], ?_⟩
      rw [State.nakCodeword_of_none (by rw [State.modPort_port]; exact hnak'), State.modPort_modPort]
    · exact ⟨_, by rw [hexec, if_neg (hok hall), if_neg (not_not.mpr hseq)], t.takeCodeword_takes port cw⟩

/-! Timers and commands. -/

theorem replayTimeout_does : replayTimeoutDoes := by
  intro port s e l hrep hst
  show execReplayTimeout port s = _
  unfold execReplayTimeout
  dsimp only
  rw [hrep]
  exact if_pos ((Port.carries_iff _).mpr hst)

theorem creditTimeout_does : creditTimeoutDoes := by
  intro port vc s hst hwaits hcred
  obtain ⟨x, hx, hlast, hvc⟩ := hwaits
  have hany : (s.port port).txq.any (fun t => t.last.isNone && pkVc t.pk == vc.val) = true :=
    List.any_eq_true.mpr ⟨x, hx, by rw [hlast, hvc]; simp⟩
  have hexec := (if_pos ⟨decide_eq_true hst, hany, hcred⟩ : execCreditTimeout port vc s = _)
  refine ⟨_, if decide (Config.draw (s.log 0x3106 [.link port, .val 1 vc.val]).free % 2 = 0) then (s.port port).credTos + 1 else 1, ?_,
    hexec, rfl⟩
  split
  · exact .inr rfl
  · exact .inl rfl

theorem linkCommands_do : linkCommandsDo := by
  intro port s st
  refine ⟨fun h => if_pos h, fun h => if_pos h, fun h => ?_, fun h => ?_, fun h => ?_, fun h => if_neg h, fun h => if_pos h,
    fun h => if_pos h⟩
  · exact (if_neg (by rw [show (s.port port).state = _ from h]; decide)).trans (if_pos h)
  · exact ⟨_, _, rfl, if_pos h⟩
  · refine ⟨_, if_pos h, ?_, ?_, ?_, fun j hj => State.modPort_port_ne _ _ _ _ hj, rfl, rfl⟩
    all_goals rw [State.modPort_port]
    all_goals rfl

/-- Settles O30: the lanes left decide what a port does, a codeword is counted before it is judged, and the commands by their branches. -/
theorem linksCarryAndRetrain : Obligations.LinksCarryAndRetrain :=
  ⟨laneUnhealthy_does, retrainDone_does, codeword_does, replayTimeout_does, creditTimeout_does, linkCommands_do⟩

end Sys2Proof.Machine

end

section

/-! PROOFS. Requests turned away: what O34 rests on. Whether a forwarded request takes more than 1 ms is a free value (R529; log entry 29),
and a slow one that itself came over the fabric has its ACCEPTED queued in a flow (R532), which the clause of `forwardDoes` on a request that
goes out does not allow. -/

namespace Sys2Proof.Machine

open Sys2Proof Sys2Proof.Claims

/-! The session's own checks. -/

theorem tcd_epoch : tcdEpoch := by
  intro c r s ss hrow hver hrekeyed t
  obtain ⟨hss, hport, hopen, hrun, hquiet, htag⟩ := hver
  have hopened := State.tcd_of_open hss hport hopen hrun hquiet r.op r.payload r.obs r.here r.eff r.post
  dsimp only at hopened
  rw [Session.enter_of_not_rekeyed hrekeyed, htag, if_neg (by decide), s.loadState_entered] at hopened
  refine ⟨fun hlt => ?_, fun hlt => ?_⟩
  · rw [exec_of_tcdRow hrow, hopened, if_pos (by omega), if_neg (by omega)]
    rfl
  · rw [exec_of_tcdRow hrow, hopened, if_pos (by omega), if_pos hlt]
    rfl

theorem tcd_role : tcdRole := by
  intro c r s ss hrow hnext hobs howner
  obtain ⟨-, -, hload⟩ := taken_here s r.m r.op
  rw [exec_of_tcdRow hrow, State.tcd_of_next hnext]
  unfold State.tcdRun
  dsimp only
  rw [if_pos (by rw [hobs, howner]; rfl), hload]
  rfl

theorem tcd_format : tcdFormat := by
  intro c r s ss hrow hnext hrole hlen
  obtain ⟨-, -, hload⟩ := taken_here s r.m r.op
  rw [exec_of_tcdRow hrow, State.tcd_of_next hnext]
  unfold State.tcdRun
  dsimp only
  rw [if_neg (role_ok hrole), if_pos (by rw [hlen]; rfl), hload]
  rfl

theorem tcd_forwards : tcdForwards := by
  intro c r s ss hrow hnext hrole hlen hhere
  obtain ⟨hown, hunf, -⟩ := taken_here s r.m r.op
  have hno : ¬ (r.here || r.m.tslot == 255 || flowKey r.m.tfleet r.m.tslot == s.ownKey) = true := fun h => hhere ((here_iff s r).mp h)
  have hwait : ¬ ((!r.here && (r.m.tslot == 255 || flowKey r.m.tfleet r.m.tslot == s.ownKey) && s.unfinished r.m.session 0) = true) := by
    intro h
    simp only [Bool.and_eq_true] at h
    refine hno ?_
    rw [Bool.or_assoc, h.1.2, Bool.or_true]
  rw [exec_of_tcdRow hrow, State.tcd_of_next hnext]
  unfold State.tcdRun
  dsimp only
  rw [if_neg (role_ok hrole), if_neg (by rw [hlen]; decide), hown, hunf, if_neg hwait, if_neg hno]
  rfl

/-! A message that belongs to no open session, or whose TAG is wrong. -/

theorem State.tcd_of_noSession {s : State} {m : Msg} (h : s.session? m.session = none) (op : Nat) (p : List Byte)
    (obs here : Bool) (eff : Eff) (post : State → State) : s.tcd m op p obs here eff post = arrived s m := by
  have h' : (s.fillBuffer m.port.val).session? m.session = none := (arrived_session s m m.session).trans h
  unfold State.tcd
  dsimp only
  rw [h']
  rfl

theorem State.tcd_of_closed {s : State} {m : Msg} {ss : Session} (h : s.session? m.session = some ss)
    (hclosed : ss.port ≠ m.port.val ∨ ss.open_ = false ∨ s.mgmt.halted = true ∨ s.rst.quiet.contains (48 + m.port.val) = true)
    (op : Nat) (p : List Byte) (obs here : Bool) (eff : Eff) (post : State → State) :
    s.tcd m op p obs here eff post = arrived s m := by
  have h' : (s.fillBuffer m.port.val).session? m.session = some ss := (arrived_session s m m.session).trans h
  unfold State.tcd
  dsimp only
  rw [h']
  dsimp only
  rw [if_pos ((arrived_guard s m ss).mpr hclosed)]
  rfl

/-- What is sent on a priority leaves the count of wrong TAGs of every port. -/
theorem State.sendEth_badtag (s : State) (p q : Nat) (x : Out) (j : Nat) : ((s.sendEth p q x).eth j).badtag = (s.eth j).badtag := by
  unfold State.sendEth
  split
  · by_cases hj : j = p
    · subst hj
      rw [State.modEth_eth]
    · rw [State.modEth_eth_ne _ _ _ _ hj]
  · rfl

theorem State.notify_badtag (s : State) (r : EvRec) (j : Nat) : ((s.notify r).eth j).badtag = (s.eth j).badtag := by
  unfold State.notify
  generalize s.hst.sessions.filter (fun x => x.wants r) = l
  induction l generalizing s with
  | nil => rfl
  | cons x l ih => exact (ih _).trans (s.sendEth_badtag _ _ _ j)

theorem State.logRecord_badtag (s : State) (c k i l : Nat) (d : List Byte) (j : Nat) :
    ((s.logRecord c k i l d).eth j).badtag = (s.eth j).badtag :=
  State.notify_badtag _ _ j

theorem State.log_badtag (s : State) (code : Nat) (fs : List EvF) (j : Nat) : ((s.log code fs).eth j).badtag = (s.eth j).badtag := by
  fun_cases State.log
  · exact State.logRecord_badtag _ _ _ _ _ _ j
  · rfl
  · exact State.logRecord_badtag _ _ _ _ _ _ j

theorem arrived_badtag (s : State) (m : Msg) (j : Nat) : ((arrived s m).eth j).badtag = (s.eth j).badtag := by
  unfold arrived State.fillBuffer
  dsimp only
  split
  · by_cases hj : j = m.port.val
    · subst hj
      rw [State.emit_eth', State.modEth_eth]
      rfl
    · rw [State.emit_eth', State.modEth_eth_ne _ _ _ _ hj]
      rfl
  · rfl

/-- The second state holds the cores, cells, HBM and armature of the first, and its sessions with their places in their order. -/
def SessionsStand (s t : State) : Prop :=
  t.cores = s.cores ∧ t.cells = s.cells ∧ t.hbm = s.hbm ∧ t.arm = s.arm ∧
    t.hst.sessions.map (fun x => (x.id, x.expect)) = s.hst.sessions.map (fun x => (x.id, x.expect))

theorem SessionsStand.trans {s t u : State} (h : SessionsStand s t) (h' : SessionsStand t u) : SessionsStand s u := by
  obtain ⟨h1, h2, h3, h4, h5⟩ := h
  obtain ⟨h1', h2', h3', h4', h5'⟩ := h'
  exact ⟨h1'.trans h1, h2'.trans h2, h3'.trans h3, h4'.trans h4, h5'.trans h5⟩

theorem State.log_sessionsStand (s : State) (code : Nat) (fs : List EvF) : SessionsStand s (s.log code fs) := by
  have hm := (s.log_logs code fs).media
  obtain ⟨-, f, hsess, hf⟩ := s.log_sessions code fs
  refine ⟨hm.cores, hm.cells, State.log_hbm _ _ _, hm.arm, ?_⟩
  rw [hsess, List.map_map]
  refine List.map_congr_left (fun x _ => ?_)
  obtain ⟨hid, hexp, -⟩ := hf x
  exact Prod.ext hid hexp

theorem arrived_sessionsStand (s : State) (m : Msg) : SessionsStand s (arrived s m) := by
  obtain ⟨_, _, _, h⟩ := arrived_eq s m
  rw [h]
  exact ⟨rfl, rfl, rfl, rfl, rfl⟩

/-- A wrong TAG counted at its port, before it is logged; the time of the last record is a free value (R523). -/
def State.tagCounted (s : State) (p : Nat) : State :=
  (if (s.eth p).authLogged = false then s else { s with free := s.free + 2 }).modEth p (fun e =>
    { e with badtag := satAdd e.badtag 1, authLogged := true })

theorem State.badTag_eq (s : State) (m : Msg) :
    s.badTag m = s.tagCounted m.port.val ∨ ∃ fs, s.badTag m = (s.tagCounted m.port.val).log 0x4101 fs := by
  have hcount : (if (!(s.eth m.port.val).authLogged) = true then s else { s with free := s.free + 2 }).modEth m.port.val (fun e =>
      { e with badtag := satAdd e.badtag 1, authLogged := true }) = s.tagCounted m.port.val := by
    unfold State.tagCounted
    cases (s.eth m.port.val).authLogged <;> rfl
  unfold State.badTag
  dsimp only
  rw [hcount]
  split
  · exact .inr ⟨_, rfl⟩
  · exact .inl rfl

theorem State.tagCounted_keeps (s : State) (p : Nat) :
    ((s.tagCounted p).eth p).badtag = satAdd (s.eth p).badtag 1 ∧ SessionsStand s (s.tagCounted p) := by
  unfold State.tagCounted
  refine ⟨?_, ?_⟩
  · rw [State.modEth_eth]
    split <;> rfl
  · split <;> exact ⟨rfl, rfl, rfl, rfl, rfl⟩

theorem State.badTag_keeps (s : State) (m : Msg) :
    ((s.badTag m).eth m.port).badtag = satAdd (s.eth m.port).badtag 1 ∧ SessionsStand s (s.badTag m) := by
  obtain ⟨hcount, hstand⟩ := s.tagCounted_keeps m.port.val
  obtain h | ⟨fs, h⟩ := s.badTag_eq m
  · rw [h]
    exact ⟨hcount, hstand⟩
  · rw [h]
    exact ⟨(State.log_badtag _ _ _ _).trans hcount, hstand.trans (State.log_sessionsStand _ _ _)⟩

theorem tcd_unverified : tcdUnverified := by
  intro c r s hrow
  refine ⟨fun hnone => ?_, fun ss hss hclosed => ?_, fun ss hss hport hopen hrun hquiet htag => ?_⟩
  · rw [exec_of_tcdRow hrow, State.tcd_of_noSession hnone]
  · rw [exec_of_tcdRow hrow, State.tcd_of_closed hss]
    rcases hclosed with h | h | h
    · exact .inl h
    · exact .inr (.inl h)
    · exact .inr (.inr (.inl h))
  · have hopened := State.tcd_of_open hss hport hopen hrun hquiet r.op r.payload r.obs r.here r.eff r.post
    rw [if_pos (by rw [htag]; rfl)] at hopened
    obtain ⟨hcount, hstand⟩ := (arrived s r.m).badTag_keeps r.m
    obtain ⟨h1, h2, h3, h4, h5⟩ := (arrived_sessionsStand s r.m).trans hstand
    refine ⟨(arrived s r.m).badTag r.m, by rw [exec_of_tcdRow hrow, hopened], ?_, h1, h2, h3, h4, h5⟩
    rw [hcount, arrived_badtag]

/-! Forwarding. -/

/-- The second state differs from the first in free values, what was sent, the Ethernet ports and the host's state alone. -/
def HostOnly (s t : State) : Prop := t = { s with free := t.free, out := t.out, eths := t.eths, hst := t.hst }

theorem HostOnly.refl (s : State) : HostOnly s s := rfl

theorem HostOnly.trans {s t u : State} (h : HostOnly s t) (h' : HostOnly t u) : HostOnly s u := by
  unfold HostOnly at *
  rw [h', h]

theorem State.respond_sends (s : State) (ss : Session) (op epoch seq status : Nat) (p : List Byte) :
    ∃ o q, s.respond ss op epoch seq status p = { s with out := o, eths := q } := s.sendEth_eq _ _ _

theorem State.accept_hostOnly (s : State) (c : TcdCtx) (h : c.frm = 0) (p : List Byte) :
    HostOnly s (s.accept c p) ∧ (s.accept c p).hst.fwds = s.hst.fwds := by
  unfold State.accept
  dsimp only
  rw [if_pos h]
  split
  next ss _ =>
    obtain ⟨o, q, hr⟩ := (s.modSession c.id (fun x => { x with queued := if x.queued.contains c.seq then x.queued else
      x.queued ++ [c.seq] })).respond_sends ss c.op c.epoch c.seq stAccepted p
    rw [hr]
    exact ⟨rfl, rfl⟩
  · exact ⟨rfl, rfl⟩

theorem sendTcdf_of_short {s : State} {dst kind id epoch seq code : Nat} {p : List Byte} (h : p.length ≤ 4096) :
    s.sendTcdf dst kind id epoch seq code p =
      s.sendReq dst { ptype := 0x0D, data := p, fields := [kind, id, epoch, seq, code, p.length, 0, p.length] } := by
  have hone : max 1 (ceilDiv p.length 4096) = 1 := by
    unfold ceilDiv
    omega
  unfold State.sendTcdf
  rw [hone, List.range_one, List.foldl_cons, List.foldl_nil]
  dsimp only
  rw [Nat.mul_zero, List.drop_zero, List.take_of_length_le h]

/-- The state as a request goes out, its ACCEPTED sent first where it takes long (R529). -/
def State.goesOut (s : State) (c : TcdCtx) (port dst op : Nat) : State :=
  let u := s.modEth port (fun e => { e with fwd := e.fwd + 1 })
  let u := { u with free := u.free + 1 }
  let u := if Config.draw s.free % 2 = 1 then u.accept c [] else u.modSession c.id (fun x => { x with queued := x.queued ++ [c.seq] })
  { u with hst := { u.hst with fwds := u.hst.fwds ++ [(c.id, c.epoch, c.seq, dst, op)] } }

theorem State.forward_cases (s : State) (c : TcdCtx) (port dst op : Nat) (p : List Byte) :
    s.forward c port dst op p =
      if s.cfg.hasPlace (dst / 64) (dst % 64) = false ∨ (tabGet 0 s.gal.routes dst).getLsbD 7 = false then s.answer c 8 []
      else if s.incOf dst = 0 then s.answer c 9 []
      else (s.goesOut c port dst op).sendTcdf dst (16 * b2n c.owner) c.id c.epoch c.seq op p := by
  have hguard : ((!s.cfg.hasPlace (dst / 64) (dst % 64)) = true ∨ (!bit (tabGet 0 s.gal.routes dst).toNat 7) = true) ↔
      (s.cfg.hasPlace (dst / 64) (dst % 64) = false ∨ (tabGet 0 s.gal.routes dst).getLsbD 7 = false) := by
    rw [show bit _ 7 = (tabGet 0 s.gal.routes dst).getLsbD 7 from (Nat.testBit_eq_decide_div_mod_eq ..).symm, Bool.not_eq_true',
      Bool.not_eq_true']
  unfold State.forward
  by_cases h : s.cfg.hasPlace (dst / 64) (dst % 64) = false ∨ (tabGet 0 s.gal.routes dst).getLsbD 7 = false
  · rw [if_pos (hguard.mpr h), if_pos h]
  · rw [if_neg (fun hc => h (hguard.mp hc)), if_neg h]
    by_cases hinc : s.incOf dst = 0
    · rw [if_pos hinc, if_pos hinc]
    · rw [if_neg hinc, if_neg hinc]
      unfold State.goesOut
      dsimp only
      by_cases hlong : Config.draw s.free % 2 = 1
      · rw [if_pos hlong]
        exact congrArg (fun u : State => State.sendTcdf { u with hst := { u.hst with fwds := u.hst.fwds ++ [(c.id, c.epoch, c.seq, dst, op)] } }
          dst (16 * b2n c.owner) c.id c.epoch c.seq op p) (if_pos (decide_eq_true hlong))
      · rw [if_neg hlong]
        exact congrArg (fun u : State => State.sendTcdf { u with hst := { u.hst with fwds := u.hst.fwds ++ [(c.id, c.epoch, c.seq, dst, op)] } }
          dst (16 * b2n c.owner) c.id c.epoch c.seq op p) (if_neg (fun hd => hlong (of_decide_eq_true hd)))

/-- A request that goes out at once changes nothing of the module but the host's part (R532). -/
theorem State.goesOut_of_quick {s : State} (h : Config.draw s.free % 2 ≠ 1) (c : TcdCtx) (port dst op : Nat) :
    (s.goesOut c port dst op).hst.fwds = s.hst.fwds ++ [(c.id, c.epoch, c.seq, dst, op)] ∧ (s.goesOut c port dst op).cores = s.cores ∧
      (s.goesOut c port dst op).hbm = s.hbm ∧ (s.goesOut c port dst op).gal = s.gal := by
  unfold State.goesOut
  dsimp only
  rw [if_neg h]
  exact ⟨rfl, rfl, rfl, rfl⟩

theorem forward_does_of_quick (hdraw : ∀ n, Config.draw n % 2 ≠ 1) : forwardDoes := by
  intro s c port dst op p
  rw [State.forward_cases]
  refine ⟨fun hp => if_pos (.inl hp), fun hv => if_pos (.inr hv), fun hp hv hi => ?_, fun hp hv hi hlen => ?_⟩
  · rw [if_neg (by rw [hp, hv]; decide), if_pos hi]
  · rw [if_neg (by rw [hp, hv]; decide), if_neg hi, sendTcdf_of_short hlen]
    exact ⟨_, rfl, State.goesOut_of_quick (hdraw _) c port dst op⟩

/-- A request to the device itself waits in its own flow, which holds one packet more. -/
theorem State.sendReq_own_length {s : State} {dst : Nat} (h : dst = s.ownKey) (pk : Packet) :
    ((s.sendReq dst pk).flow dst).unacked.length = (s.flow dst).unacked.length + 1 ∧ (s.sendReq dst pk).ownKey = s.ownKey := by
  have hsend : s.sendReq dst pk = (s.queueReq dst pk).1 := if_pos h
  rw [hsend]
  refine ⟨?_, rfl⟩
  unfold State.queueReq State.modFlow State.flow
  dsimp only
  rw [tabGet_tabMod]
  exact List.length_append.trans rfl

/-- The one device of a gallery, with a route to itself and the present free value `n`. -/
def loneDevice (n : Nat) : State :=
  { free := n, cfg := { box := (1, 1, 1), tiles := (1, 1, 1) }, gal := { routes := [(0, 128)], incarn := 1 } }

/-- A request that came to the device over the fabric from itself. -/
def fromItself : TcdCtx := ⟨0, 0, 0, 1, true, 0⟩

/-- The ACCEPTED that goes back to the device itself. -/
theorem accept_fromItself (u : State) :
    u.accept fromItself [] = u.sendReq 0 { ptype := 0x0D, data := [], fields := [1, 0, 0, 0, stAccepted, 0, 0, 0] } :=
  sendTcdf_of_short (p := []) (Nat.zero_le _)

/-- A request that takes long and came over the fabric has its ACCEPTED in a flow of this device before it goes out itself. -/
theorem goesOut_slow {n : Nat} (h : Config.draw n % 2 = 1) :
    ((loneDevice n).goesOut fromItself 0 0 0).ownKey = 0 ∧ (((loneDevice n).goesOut fromItself 0 0 0).flow 0).unacked.length = 1 := by
  let u : State := { (loneDevice n).modEth 0 (fun e => { e with fwd := e.fwd + 1 }) with free := n + 1 }
  let v := u.sendReq 0 { ptype := 0x0D, data := [], fields := [1, 0, 0, 0, stAccepted, 0, 0, 0] }
  have hgoes : (loneDevice n).goesOut fromItself 0 0 0 = { v with hst := { v.hst with fwds := v.hst.fwds ++ [(0, 0, 0, 0, 0)] } } := by
    unfold State.goesOut
    dsimp only
    rw [if_pos (show Config.draw (loneDevice n).free % 2 = 1 from h), accept_fromItself]
    rfl
  obtain ⟨hlen, hkey⟩ := State.sendReq_own_length (s := u) (dst := 0) rfl
    { ptype := 0x0D, data := [], fields := [1, 0, 0, 0, stAccepted, 0, 0, 0] }
  rw [hgoes]
  exact ⟨hkey, hlen⟩

theorem loneDevice_reaches_itself (n : Nat) : (loneDevice n).cfg.hasPlace (0 / 64) (0 % 64) = true ∧
    (tabGet 0 (loneDevice n).gal.routes 0).getLsbD 7 = true ∧ (loneDevice n).incOf 0 ≠ 0 :=
  ⟨rfl, (by decide : (128 : BitVec 8).getLsbD 7 = true), (by decide : (1 : BitVec 16) ≠ 0)⟩

theorem quick_of_forward_does (hf : forwardDoes) (n : Nat) : Config.draw n % 2 ≠ 1 := by
  intro hslow
  obtain ⟨hplace, hroute, hinc⟩ := loneDevice_reaches_itself n
  obtain ⟨-, -, -, hout⟩ := hf (loneDevice n) fromItself 0 0 0 []
  obtain ⟨t, ht, -, -, -, hgal⟩ := hout hplace hroute hinc (Nat.zero_le _)
  obtain ⟨hkey, hone⟩ := goesOut_slow hslow
  rw [State.forward_cases, if_neg (by rw [hplace, hroute]; decide), if_neg hinc, sendTcdf_of_short (Nat.zero_le _)] at ht
  obtain ⟨htwo, -⟩ := State.sendReq_own_length hkey.symm { ptype := 0x0D, data := [], fields := [16, 0, 0, 0, 0, 0, 0, 0] }
  have htkey : 0 = t.ownKey := by unfold State.ownKey; rw [hgal]; rfl
  have htflow : (t.flow 0).unacked.length = 0 := by unfold State.flow; rw [hgal]; rfl
  obtain ⟨htone, -⟩ := State.sendReq_own_length htkey { ptype := 0x0D, data := [], fields := [16, 0, 0, 0, 0, 0, 0, 0] }
  have hsame := htwo.symm.trans ((congrArg (fun s : State => (s.flow 0).unacked.length) ht).trans htone)
  omega

/-- O34 stands or falls with the free values, each an opaque constant: it holds where none of them is odd, and fails where one is. Every other
clause holds outright. -/
theorem controlRequestsTurnedAway_iff : Obligations.ControlRequestsTurnedAway ↔ ∀ n, Config.draw n % 2 ≠ 1 :=
  ⟨fun ⟨_, _, _, _, hf, _⟩ => quick_of_forward_does hf,
    fun h => ⟨tcd_epoch, tcd_role, tcd_format, tcd_forwards, forward_does_of_quick h, tcd_unverified⟩⟩

end Sys2Proof.Machine

end
